-- ==== Sys2Proof/Word.lean ====
section
/-! DEFINITION. The word types of the Cuette/Ronyr model and their plainest arithmetic (R8, R13). -/

namespace Sys2Proof

/-- One byte of a memory (R8). -/
abbrev Byte := BitVec 8

/-- A 32-bit register word (R8: BAR0 registers are 32 bits wide). -/
abbrev W32 := BitVec 32

/-- A fettler general register (R219). -/
abbrev W64 := BitVec 64

/-- A sparse store: pairs of a key and a value, keys strictly rising. -/
abbrev KMap (α : Type) := List (Nat × α)

/-- `wrap(x, n)` of R13. -/
def wrap (x n : Nat) : Nat := x % 2 ^ n

/-- `x[m:l]` of R13. -/
def slice (x m l : Nat) : Nat := x / 2 ^ l % 2 ^ (m + 1 - l)

/-- Bit `i` of `x`. -/
def bitN (x i : Nat) : Bool := x.testBit i

/-- `sext(x, n)` of R13, read as an integer. -/
def sextI (x n : Nat) : Int :=
  let y := x % 2 ^ n
  if n ≠ 0 ∧ 2 ^ (n - 1) ≤ y then (y : Int) - (2 ^ n : Nat) else (y : Int)

/-- `wrap` of an integer: the value modulo `2 ^ n`. -/
def wrapI (x : Int) (n : Nat) : Nat := (x % ((2 ^ n : Nat) : Int)).toNat

/-- A Boolean as a bit. -/
def b2n (b : Bool) : Nat := if b then 1 else 0

/-- The low 32 bits. -/
def lo32 (x : Nat) : Nat := x % 2 ^ 32

/-- The next 32 bits. -/
def hi32 (x : Nat) : Nat := x / 2 ^ 32 % 2 ^ 32

/-- Replace bits `[lo + w - 1 : lo]` of a 32-bit word. -/
def putBits (x lo w v : Nat) : Nat :=
  x % 2 ^ lo + (v % 2 ^ w) * 2 ^ lo + (x / 2 ^ (lo + w)) * 2 ^ (lo + w)

/-- Saturating increment of a counter `bits` wide. -/
def satInc (x bits : Nat) : Nat := if x + 1 < 2 ^ bits then x + 1 else 2 ^ bits - 1

end Sys2Proof
end

