-- ==== Sys2Proof/Syntax.lean ====
section
/-! DEFINITION. The commands of the block: one constructor per row of the opcode table, with what arrives from
outside as its operands. -/

namespace Sys2Proof

/-- What the module's own monitor measures at a self-test condition check (R58). -/
structure CondMeas where
  /-- VIN in mV. -/
  vinMv : Nat
  /-- REFCLK against SERREF over 1 ms, in ppm from 100 MHz. -/
  refclkPpm : Int
  deriving DecidableEq, Repr

/-- One failing memory or logic unit found by self-test (Table 3.3). -/
structure BistFail where
  /-- Class of Table 3.2. -/
  cls : BitVec 8
  /-- Instance. -/
  inst : BitVec 8
  /-- Sub-instance. -/
  sub : BitVec 8
  /-- Kind 1–6. -/
  kind : BitVec 4
  /-- Repair value. -/
  repair : BitVec 4
  /-- Failing row or word index. -/
  address : W32
  /-- Failing bit. -/
  bit : BitVec 16
  /-- Number of failing bits. -/
  nbits : BitVec 16
  /-- March element or scan pattern that failed first. -/
  pattern : BitVec 8
  deriving DecidableEq, Repr

/-- A firmware image as the ROM finds it (R56). -/
structure Image where
  /-- The length lies in range. -/
  lengthOk : Bool
  /-- The header is well formed. -/
  headerOk : Bool
  /-- The signature over SHA-384 of header and body verifies under the fused key. -/
  signatureOk : Bool
  /-- HIV major. -/
  hivMajor : BitVec 8
  /-- HIV minor. -/
  hivMinor : BitVec 8
  /-- Image version. -/
  version : W32
  /-- SHA-384 of header and body. -/
  hash : BitVec 384 := 0
  deriving DecidableEq, Repr

/-- One MSMB/PMC measurement (Table 21.2). -/
structure Telemetry where
  /-- VIN in mV. -/
  vinMv : BitVec 16
  /-- Input current in 10 mA. -/
  current : BitVec 16
  /-- Input power, 1 ms mean, in 100 mW. -/
  power : BitVec 16
  /-- Hottest junction sensor, °C + 64. -/
  junction : BitVec 8
  /-- Board temperature, °C + 64. -/
  board : BitVec 8
  /-- Ronyr junction, °C + 64. -/
  rnyJunction : BitVec 8
  deriving DecidableEq, Repr

/-- What an encoder channel's inputs do at one accepted step (R401, R405). -/
inductive StepKind where
  /-- One counted step in the forward direction. -/
  | forward
  /-- One counted step in the reverse direction. -/
  | reverse
  /-- A and B change in one 4 ns sample (Table 18.5 reason 1). -/
  | both
  /-- A Hall step that skips a state (Table 18.5 reason 3). -/
  | skip
  deriving DecidableEq, Repr

/-- One input pin at a 1 µs sample (R408, R409). -/
structure PinSample where
  /-- Level against the threshold of its type. -/
  raw : Bool
  /-- Input current in 10 µA. -/
  current : BitVec 16
  deriving DecidableEq, Repr

/-- An Announce message (R419, R422). -/
structure Announce where
  /-- Domain number. -/
  domain : BitVec 8
  /-- clockIdentity of the sender. -/
  ident : BitVec 64
  /-- Port number of the sender. -/
  port : BitVec 16
  /-- grandmasterPriority1. -/
  prio1 : BitVec 8
  /-- clockClass. -/
  cclass : BitVec 8
  /-- clockAccuracy. -/
  accuracy : BitVec 8
  /-- offsetScaledLogVariance. -/
  variance : BitVec 16
  /-- grandmasterPriority2. -/
  prio2 : BitVec 8
  /-- grandmasterIdentity. -/
  gm : BitVec 64
  /-- stepsRemoved. -/
  steps : BitVec 16
  /-- currentUtcOffset, when its valid flag is set. -/
  utc : Option (BitVec 16)
  /-- logMessageInterval. -/
  logInterval : Int
  /-- It came over UDP/IPv4, not over Ethernet (Table 19.1). -/
  udp : Bool := false
  deriving DecidableEq, Repr

/-- The end-to-end answer to a frame for a chain window (R432). -/
structure NlxAnswer where
  /-- Chain ID of the device that sent the frame. -/
  dst : BitVec 6
  /-- Chain ID of the device that answers. -/
  src : BitVec 6
  /-- Context of the frame. -/
  ctx : BitVec 4
  /-- Window offset of the frame. -/
  addr : BitVec 48
  /-- The frame was dropped. -/
  refused : Bool
  deriving DecidableEq, Repr

/-- What a peer announces at port link-up (R426). -/
structure PeerHello where
  /-- Chain ID. -/
  id : BitVec 6
  /-- Topology, coded as `LNK_CHAIN_CFG.topo`. -/
  topo : BitVec 2
  /-- In a tree: the position is one the topology allows; IDs do not tell it there. -/
  positionOk : Bool
  /-- Chain IDs reachable through the peer. -/
  reach : List (BitVec 6)
  deriving DecidableEq, Repr

/-- A received Nolox frame or control block (R427, R428). -/
structure NlxRx where
  /-- The CRC-32 passes. -/
  crcOk : Bool
  /-- Destination and source chain IDs. -/
  dst : BitVec 6
  /-- Source chain ID. -/
  src : BitVec 6
  /-- Type. -/
  typ : BitVec 4
  /-- Link sequence. -/
  lseq : BitVec 12
  /-- Sending context. -/
  ctx : BitVec 4
  /-- Window offset. -/
  addr : BitVec 48
  /-- Payload. -/
  payload : List Byte
  /-- Only the control block has come, and no frame. -/
  only : Bool
  /-- An acknowledgement carried beside it: negative, and the lseq named. -/
  ack : Option (Bool × BitVec 12)
  /-- WEB fields that heads of shared classes announce over the chain (R435): head, class, len and origin. -/
  heads : List (BitVec 6 × BitVec 6 × BitVec 24 × BitVec 48) := []
  /-- End-to-end answers to window frames (R432). -/
  answers : List NlxAnswer := []
  /-- The chain IDs reachable through the peer have changed: those of now (R429). -/
  reach : Option (List (BitVec 6)) := none
  /-- Members that have become aligned on a channel, or withdrawn alignment (R434, R437). -/
  aligned : List (BitVec 6 × Fin 2 × Bool) := []
  deriving DecidableEq, Repr


/-- Fields of a class 0 word (R223). -/
structure AluF where
  /-- Destination. -/
  d : BitVec 5
  /-- Source 1. -/
  a : BitVec 5
  /-- Source 2. -/
  b : BitVec 5
  /-- f[11:6], the shift amount. -/
  sh : BitVec 6
  deriving DecidableEq, Repr

/-- Fields of a class 1 or class 5 word (R224, R227). -/
structure ImmF where
  /-- Destination. -/
  d : BitVec 5
  /-- Source 1. -/
  a : BitVec 5
  /-- imm17. -/
  imm : BitVec 17
  deriving DecidableEq, Repr

/-- Fields of a load or store word (Table 11.3). -/
structure MemF where
  /-- Destination or data source. -/
  d : BitVec 5
  /-- Base register. -/
  a : BitVec 5
  /-- 0 virtual, 1 local mould. -/
  sp : Bool
  /-- off13. -/
  off : BitVec 13
  deriving DecidableEq, Repr

/-- Fields of a branch word (R226). -/
structure BrF where
  /-- Source 1, or the predicate. -/
  a : BitVec 5
  /-- Source 2. -/
  b : BitVec 5
  /-- f, the signed word offset. -/
  f : BitVec 12
  deriving DecidableEq, Repr

/-- Fields of a class 6 or class 8 word (R230, R233). -/
structure VecF where
  /-- Destination. -/
  d : BitVec 5
  /-- Source 1. -/
  a : BitVec 5
  /-- Source 2. -/
  b : BitVec 5
  /-- Predicate, f[11:9]. -/
  pred : BitVec 3
  /-- Element type, f[8:6]. -/
  et : BitVec 3
  deriving DecidableEq, Repr

/-- Fields of a class 7 word (Table 11.6). -/
structure VlsF where
  /-- Vector register. -/
  d : BitVec 5
  /-- Base register. -/
  a : BitVec 5
  /-- Stride register or index vector. -/
  b : BitVec 5
  /-- Predicate. -/
  pred : BitVec 3
  /-- Mode. -/
  mode : BitVec 2
  /-- Element size. -/
  esize : BitVec 2
  /-- Signed line offset. -/
  off : BitVec 4
  deriving DecidableEq, Repr

/-- Fields of a class 9 word (R234). -/
structure CvtF where
  /-- Destination. -/
  d : BitVec 5
  /-- Source. -/
  a : BitVec 5
  /-- Source format code. -/
  sfmt : BitVec 5
  /-- Predicate. -/
  pred : BitVec 3
  /-- Destination format code. -/
  dfmt : BitVec 4
  /-- Rounding mode. -/
  mode : BitVec 3
  /-- Part. -/
  part : BitVec 2
  deriving DecidableEq, Repr

/-- Fields of a class 10 word (R235). -/
structure PredF where
  /-- Destination. -/
  d : BitVec 5
  /-- Source 1. -/
  a : BitVec 5
  /-- Source 2. -/
  b : BitVec 5
  /-- Element type, f[6:4]. -/
  et : BitVec 3
  /-- f[11:7]. -/
  hi : BitVec 5
  deriving DecidableEq, Repr

/-- Fields of a class 11, 12 or 13 word, whose f[11:9] is its operation (R236, R238, R239). -/
structure QueF where
  /-- Destination. -/
  d : BitVec 5
  /-- Source 1. -/
  a : BitVec 5
  /-- Source 2. -/
  b : BitVec 5
  /-- f[8:0]. -/
  lo : BitVec 9
  deriving DecidableEq, Repr

/-- Fields of a class 14 word, whose b is its operation (R240). -/
structure SysF where
  /-- Destination. -/
  d : BitVec 5
  /-- Source. -/
  a : BitVec 5
  /-- f. -/
  f : BitVec 12
  deriving DecidableEq, Repr

/-- Fields of a class 15 word (R243). -/
structure SpecF where
  /-- Destination. -/
  d : BitVec 5
  /-- Source. -/
  a : BitVec 5
  /-- b, which must be 0. -/
  b : BitVec 5
  /-- Predicate. -/
  pred : BitVec 3
  /-- f[8:2], which must be 0. -/
  mid : BitVec 7
  deriving DecidableEq, Repr

/-- A task a program declares (R320). -/
structure TaskDecl where
  /-- Entry point. -/
  entry : BitVec 48
  /-- Start condition: event counter and target; none: ready at once. -/
  start : Option (BitVec 8 × W32)
  /-- The task is marked bound (R322). -/
  bound : Bool
  /-- A stripe task (R295). -/
  stripe : Bool
  /-- A sequence task, run once per step (R312). -/
  seq : Bool
  /-- It belongs to set B of a twin pour (R353). -/
  setB : Bool
  /-- Mould regions of the task: offset and size in 4 KiB units, and whether protected (R320, R171). -/
  regions : List (Nat × Nat × Bool)
  deriving DecidableEq, Repr

/-- What a sequence program declares (R303, R307). -/
structure SeqDecl where
  /-- log2 of the tokens per page group. -/
  lp : Nat
  /-- Page-group size in 4 KiB units. -/
  g : Nat
  /-- Token budget per step. -/
  bt : Nat
  /-- Tensor rows of the class. -/
  rows : Nat
  /-- DRAM pool in groups. -/
  dpool : Nat
  /-- Mould pool per flask in groups. -/
  mpool : Nat
  /-- Positions the program declares. -/
  positions : Nat
  /-- Mould offset at which the segment marks of the class's rows lie, 512 bytes a row, where its drains read them (R268; log 114). -/
  marks : Option Nat := none
  /-- The class runs in twin pour (R353). -/
  twin : Bool
  deriving DecidableEq, Repr

/-- A halo channel a program declares (R296). -/
structure HaloDecl where
  /-- Halo channel index on the producer's flask. -/
  chan : Nat
  /-- Producer: n-th flask of the context. -/
  pflask : Nat
  /-- Consumer: n-th flask of the context. -/
  cflask : Nat
  /-- Halo height. -/
  h : Nat
  /-- Entry size in 64-byte units. -/
  esize : Nat
  /-- Mould offset of entry 0. -/
  offset : Nat
  /-- PUB counter on the consumer's flask. -/
  pub : Nat
  /-- ACK counter on the producer's flask. -/
  ack : Nat
  deriving DecidableEq, Repr

/-- A stripe a program is bound to (R287, R294). -/
structure StripeBind where
  /-- Runner. -/
  runner : Nat
  /-- Slot. -/
  slot : Nat
  /-- Stripe index. -/
  stripe : Nat
  /-- Event counter bound as FILL. -/
  fill : Nat
  /-- Event counter bound as FREE. -/
  free : Nat
  /-- Left reach of the layers computed from delivered columns. -/
  reachL : Nat
  /-- Right reach. -/
  reachR : Nat
  deriving DecidableEq, Repr

/-- A page a program image maps into its context, with the frame SCH gives it and its contents. -/
structure MapDecl where
  /-- Virtual address of the page. -/
  va : Nat
  /-- A 2 MiB page. -/
  big : Bool
  /-- DRAM frame address. -/
  frame : Nat
  /-- Writable. -/
  w : Bool
  /-- A page of the bundle the program names, which SC maps read-only and protected (R449). -/
  bundle : Bool
  /-- Contents from the start of the page; of a bundle's page, none: it holds the bundle's clear text. -/
  data : List Byte
  /-- A page of host memory at host address `frame`, for a JOB context (R74). -/
  host : Bool := false
  /-- Offset in the bundle's clear text of a bundle's page (R449). -/
  off : Nat := 0
  deriving DecidableEq, Repr

/-- A program image as the SCH verifier reads it (R319): what it declares, the words of its reachable code, its
descriptors at the greatest values of their declared ranges, and its rule section. -/
structure Program where
  /-- The image is well formed. -/
  wellFormed : Bool
  /-- SHA-384 of the image. -/
  hash : BitVec 384
  /-- Bundle digest the order names. -/
  bundle : Option (BitVec 384)
  /-- Class: 1 LINE, 2 JOB. -/
  cls : BitVec 2
  /-- It has stripe tasks' program kind. -/
  stripeProgram : Bool
  /-- Words of its reachable code, in address order. -/
  code : List W32
  /-- Every descriptor it can queue, at the greatest value of each field, 16 words each. -/
  descs : List (List Nat)
  /-- No declared field range exceeds the field's own range. -/
  rangesOk : Bool
  /-- Tasks of its pour. -/
  tasks : List TaskDecl
  /-- Barriers: ID and participant task numbers (R174). -/
  barriers : List (Nat × List Nat)
  /-- Event counters, on every flask. -/
  evcs : List Nat
  /-- Gate counters. -/
  gates : List Nat
  /-- Runner slots of its window grant. -/
  grantSlots : List (Nat × Nat)
  /-- Classes of its window grant. -/
  grantClasses : List Nat
  /-- Stripes it is bound to. -/
  stripes : List StripeBind
  /-- Halo channels. -/
  halos : List HaloDecl
  /-- Worst-case working set in bytes. -/
  workset : Nat
  /-- Pages it maps. -/
  maps : List MapDecl
  /-- What it declares as a sequence program. -/
  seq : Option SeqDecl
  /-- It declares digests. -/
  digests : Bool
  /-- Digest registers declared as piece slots. -/
  pieceSlots : List Nat
  /-- Digest registers that drains with seg = 1 name. -/
  segRegs : List Nat
  /-- Bank registers marked as compared. -/
  compared : List Nat
  /-- Devices it maps chain windows onto (R431). -/
  chainWins : List Nat
  /-- Regions it grants to senders of window frames: chain ID, context, base and size (R431). -/
  chainGrants : List (Nat × Nat × Nat × Nat)
  /-- Rule section, with the head format the program declares. -/
  rules : Option (List Byte × Nat)
  /-- Tensor IDs of the entries of a replay pour's input table: capture records, piece entries, augmentation descriptors (R351, R352). -/
  replayIds : Nat × Nat × Nat := (0, 1, 2)
  deriving DecidableEq, Repr

/-- What the two codes find when a line of device memory is read (R179). -/
structure LineErr where
  /-- The package reports a correction of the inner code. -/
  inner : Bool := false
  /-- Bytes of the line in error, the 264 stored ones counted from 0. -/
  wrong : List (Fin 264) := []
  /-- With more than 2 of them in a codeword, the decoder still finds a codeword within distance 2 of what it read. -/
  near : Bool := false
  deriving DecidableEq, Repr

/-- An error a ladle meets: in line `line`, counted from the start, of what element `elem` reads, or with `dst` writes only in
part (R180). -/
structure LadleErr where
  /-- Element. -/
  elem : Nat
  /-- Line of the element. -/
  line : Nat := 0
  /-- On the destination side. -/
  dst : Bool := false
  /-- What the codes find. -/
  err : LineErr := {}
  deriving DecidableEq, Repr

/-- An agent that a resolvable translation fault parked (R185). -/
inductive Agent where
  /-- Fettler. -/
  | fettler (i : Fin 128)
  /-- Ladle of a flask. -/
  | ladle (n : Fin 32) (l : Fin 2)
  /-- Crucible, whose fetch waits. -/
  | crucible (c : Fin 64)
  deriving DecidableEq, Repr

/-- How a frame came over the plant lane (R132). -/
structure PlantRx where
  /-- Symbol errors on the lane since the frame before. -/
  sym : Nat := 0
  /-- The lane runs 2500BASE-X, else SGMII. -/
  fast : Bool := false
  /-- The frame passes its check sequence. -/
  fcsOk : Bool := true
  deriving DecidableEq, Repr

/-- A frame's `PTP_ANNOUNCE` as it comes over the plant lane. -/
structure AnnounceRx where
  /-- The message. -/
  msg : Announce
  /-- What the lane shows of its frame. -/
  rx : PlantRx := {}
  deriving DecidableEq, Repr

/-- A host access to BAR0 (R76): a write of data, or a read. -/
inductive BarAccess where
  | write (data : BitVec 64)
  | read
  deriving DecidableEq, Repr

/-- What the checks of a line's packets found (R132), by connection of the camera. -/
structure PacketChk where
  /-- Connection whose stream packet failed its CRC; none where every packet passed. -/
  bad : Option (Fin 8) := none
  /-- 8b/10b errors in the packets, by connection. -/
  codes : List (Fin 8 × Nat) := []
  deriving DecidableEq, Repr

/-- What discovery finds on a camera (R116), and how far its init list has come since. -/
structure Discovery where
  /-- Connections the camera reports. -/
  conns : Nat
  /-- Speeds the camera offers on all its connections, a bit each, coded as max_speed. -/
  speeds : BitVec 7
  /-- Writes of the init list acknowledged since the last report. -/
  acks : Nat
  /-- A write of the init list failed, with its resends. -/
  failed : Bool
  deriving DecidableEq, Repr

/-- A block header as received (R139). -/
structure BlockHeader where
  /-- Declared width. -/
  width : BitVec 16
  /-- Declared lines. -/
  lines : BitVec 16
  /-- Pixel format, coded as in_fmt. -/
  fmt : BitVec 2
  deriving DecidableEq, Repr

/-- What a host reads over BAR2: the bytes asked for, and what the codes find in their first line (R78, R179). -/
structure Bar2Span where
  /-- Bytes. -/
  len : Nat
  /-- Errors of the first line. -/
  err : LineErr := {}
  deriving DecidableEq, Repr

/-- What a host writes over BAR2, and what the codes find in its first line where it covers that in part (R179, R180). -/
structure Bar2Data where
  /-- The bytes. -/
  bytes : List Byte
  /-- Errors of the first line. -/
  err : LineErr := {}
  deriving DecidableEq, Repr

/-- One end of a Nolox lane (R130): the own transmitter, or the peer's as the receiver hears it. -/
structure LaneEnd where
  /-- The lane. -/
  lane : Fin 8
  /-- It is the peer's transmitter. -/
  peer : Bool
  deriving DecidableEq, Repr

/-- A frame on the barrier link (R391): when it comes, and whether its CRC passes. -/
structure BarrierFrame where
  /-- The instant it comes at. -/
  t : Nat
  /-- Its CRC passes. -/
  crc : Bool
  deriving DecidableEq, Repr

/-- The timestamps of a PTP sample, as differences in ns (R419). -/
structure PtpStamps where
  /-- Of the Sync: the MAC's less the master's. -/
  sync : Int
  /-- Of the delay measurement: the master's of the Delay_Req less the MAC's, or the two-way time less the peer's turnaround. -/
  delay : Int
  deriving DecidableEq, Repr

/-- A word written over MSMB, with the PEC where the host appends one (R467). -/
structure MsmbWrite where
  /-- The word. -/
  word : BitVec 16
  /-- The PEC. -/
  pec : Option Byte := none
  deriving DecidableEq, Repr

/-- Where SCH puts the page of a fault (R185, R194). -/
structure PageMove where
  /-- Its frame in DRAM. -/
  frame : Nat
  /-- A page that goes to the host tier first to make room: JOB context and address. -/
  out : Option (Fin 16 × Nat) := none
  deriving DecidableEq, Repr

/-- The word a TRAP command stands for (R221, R240). -/
inductive TrapWord where
  /-- The instruction TRAP. -/
  | instr (w : SysF)
  /-- A word that spells no instruction. -/
  | raw (v : W32)
  deriving DecidableEq, Repr

/-- How a PCIe link has trained (R73). -/
structure LinkTrained where
  /-- The instant it is up. -/
  t : Nat
  /-- Lanes: 2 to this power. -/
  width : Fin 4
  /-- Rate: generation less 1. -/
  rate : Fin 5
  deriving DecidableEq, Repr

/-- A camera's acknowledgement (R118). -/
structure CtlAck where
  /-- Data it carries. -/
  data : W32
  /-- It passes its check (R132). -/
  ok : Bool
  deriving DecidableEq, Repr

/-- What a PRBS checker has counted since it locked, or since the last such command (R129). -/
structure PrbsRun where
  /-- Camera port. -/
  port : Fin 32
  /-- Bits checked. -/
  bits : Nat
  /-- Errors among them. -/
  errs : Nat
  deriving DecidableEq, Repr

/-- A command of the block: one constructor per row of the opcode table. `t` is the elapsed instant (ns) it lands at. -/
inductive Instr where
  /-- POWER_UP (R31): VIN rises into range; the module soft-starts its input switch, sequences its rails and raises PWR_GOOD. -/
  | powerUp (t : Nat) (vinMv : BitVec 16)
  /-- RAIL_OUT_OF_REGULATION (R37): A module rail leaves regulation; PWR_GOOD drops within 10 µs and Cuette is held in reset. -/
  | railOutOfRegulation (t : Nat) (viso : Bool)
  /-- PWR_FAIL_WARNING (R32): PWR_FAIL# low for 100 ns or VIN below 10.2 V for 1 µs latches the power-fail warning and starts the power-fail sequence. -/
  | pwrFailWarning (t : Nat) (pin : Bool) (vinMv : BitVec 16)
  /-- VIN_BROWNOUT_RESET (R33): VIN falls below 8.5 V and the module resets all of its domains. -/
  | vinBrownoutReset (t : Nat) (vinMv : BitVec 16)
  /-- POWER_FAIL_RESTART (R35): VIN and PWR_FAIL# have been in range for 10 ms after a warning; the full power-up sequence restarts. -/
  | powerFailRestart (t : Nat) (vinMv : BitVec 16)
  /-- MOD_RESET_ASSERT (R38): MOD_RESET# low for 1 µs starts the stop and flush and holds Cuette in reset. -/
  | modResetAssert (t : Nat)
  /-- MOD_RESET_RELEASE (R38): MOD_RESET# returns high; straps are sampled and the ROM starts. -/
  | modResetRelease (t : Nat)
  /-- PERST (R27): PERST# resets the PCIe endpoint only; line work and boot continue. -/
  | perst (t : Nat)
  /-- REFCLK_LOSS (R42): Loss of REFCLK takes down only the PCIe link. -/
  | refclkLoss (t : Nat)
  /-- CLOCK_LOSS (R42): The clock monitor detects SERREF lost or off by more than 1,000 ppm, stops all crucibles and enters the safe state. -/
  | clockLoss (t : Nat)
  /-- SERREF_RELOCK (R466): SERREF has been back in range for 10 ms; PLLs relock and crucibles restart at step 6. -/
  | serrefRelock (t : Nat)
  /-- THERMAL_THROTTLE_STEP (R465): The 1 ms or 10 ms thermal or input-power timer steps the crucible clock slower or faster and drives THERM_ALERT#. -/
  | thermalThrottleStep (t : Nat)
  /-- THERMAL_SAFE (R24): The junction reaches 115 °C and the device enters its safe state with cause 1. -/
  | thermalSafe (t : Nat) (junction : BitVec 8)
  /-- TELEMETRY_SAMPLE (R467): PMC measures VIN, current, power and temperatures every 1 ms and updates PWR_ registers and MSMB_ALERT#. -/
  | telemetrySample (t : Nat) (m : Telemetry)
  /-- POCXP_CHAIN_RUN (R47): Every 100 µs the PoCXP chain shifts 32 enables out and 32 fault bits in and pulses CXP_PWR_LD. -/
  | pocxpChainRun (t : Nat) (faults : BitVec 32)
  /-- POCXP_RETRY_TIMEOUT (R120): Ten seconds after a PoCXP fault the camera is re-enabled and bring-up runs again. -/
  | pocxpRetryTimeout (t : Nat) (p : Fin 32)
  /-- POCXP_FAULT_CLEAR (R120): Writing 1 to a latched CXP_POCXP_FAULT bit clears it and starts bring-up at once. -/
  | pocxpFaultClear (t : Nat) (v : W32)
  /-- ROM_START (R39): The ROM starts: straps are latched, fuses are read, repairs are applied, the boot count is incremented and PCIe training begins. -/
  | romStart (t : Nat) (straps : BitVec 4)
  /-- IMAGE_VERIFY_DONE (R56): The NOR image is hashed and its signature checked; on failure the ROM enters recovery mode, otherwise SC starts. -/
  | imageVerifyDone (t : Nat) (img : Image) (m : CondMeas)
  /-- RECOVERY_IMAGE_WRITE (R57): In recovery mode a complete image received over PCIe is verified, written to NOR, and the device restarts from ROM start. -/
  | recoveryImageWrite (t : Nat) (img : Image)
  /-- BIST_COND_RECHECK (R58): Every 100 ms self-test conditions are checked again; a new run starts when they hold, and after ten failures the boot stops with E_BIST_COND. -/
  | bistCondRecheck (t : Nat) (m : CondMeas)
  /-- BIST_COMPLETE (R63): Self-test ends; records are written, flasks are marked, the grade is set, or the device holds per strict mode. -/
  | bistComplete (t : Nat) (fails : List BistFail)
  /-- RESTORE (R65): SC reads the newest complete retained record, checks and decrypts bundles, loads programs, casts the configuration and creates LINE contexts. -/
  | restore (t : Nat)
  /-- SCH_TICK (R80): Every 10 µs SCH visits queues, evaluates handshakes, judges the host heartbeat and starts line work. -/
  | schTick (t : Nat)
  /-- HIV_REQUEST (R69): The host writes GLB_HIV_HOST with go set, submitting a handshake request that stays PENDING until SCH runs. -/
  | hivRequest (t : Nat) (w : W32)
  /-- HOST_HEARTBEAT_WRITE (R87): A host write to CMD_HOST_HB that changes its value counts as a heartbeat. -/
  | hostHeartbeatWrite (t : Nat) (v : W32)
  /-- HOST_LOSS (R88): 500 ms without a heartbeat change sets GONE; host traffic stops, host-tier contexts fail, other JOB contexts chill and agreement lapses. -/
  | hostLoss (t : Nat)
  /-- NOP (R81): Order 0x00 completes with a result record and no other effect. -/
  | nop (t : Nat) (q : Fin 16) (seq : BitVec 16)
  /-- QUEUE_BIND (R82): Order 0x01 on queue 0 enables or disables a queue 1–15 and binds it to a result ring. -/
  | queueBind (t : Nat) (q : Fin 16) (seq : BitVec 16)
  /-- RING_SETUP (R80): Order 0x02 sets up a result ring or the event ring in host memory with its coalescing parameters. -/
  | ringSetup (t : Nat) (q : Fin 16) (seq : BitVec 16)
  /-- HOST_TIER (R195): Order 0x03 gives, replaces or withdraws the host tier of spill, migrating pages back first. -/
  | hostTier (t : Nat) (q : Fin 16) (seq : BitVec 16)
  /-- BAR2_MAP (R77): Order 0x04 maps or unmaps a BAR2 slot onto a 1 GiB range of a context's virtual space. -/
  | bar2Map (t : Nat) (q : Fin 16) (seq : BitVec 16)
  /-- CTX_CREATE (R317): Order 0x05 creates a LINE or JOB context with priority, slice and mask, reserving a JOB chill reserve. -/
  | ctxCreate (t : Nat) (q : Fin 16) (seq : BitVec 16)
  /-- CTX_DESTROY (R324): Order 0x06 stops every pour of a context, completes its open orders and drops its chill image. -/
  | ctxDestroy (t : Nat) (q : Fin 16) (seq : BitVec 16)
  /-- CTX_LIST (R83): Order 0x07 returns which contexts exist and which are chilled. -/
  | ctxList (t : Nat) (q : Fin 16) (seq : BitVec 16)
  /-- FACTORY_NEXT (R67): Order 0x08 selects the factory state for the next boot only. -/
  | factoryNext (t : Nat) (q : Fin 16) (seq : BitVec 16)
  /-- DEVICE_RESET (R83): Order 0x09 resets Cuette as MOD_RESET# does, with boot cause 0x5, after writing its result. -/
  | deviceReset (t : Nat) (q : Fin 16) (seq : BitVec 16)
  /-- PROG_LOAD (R319): Order 0x40 passes a program through the SCH verifier and loads it or refuses it. -/
  | progLoad (t : Nat) (q : Fin 16) (seq : BitVec 16) (p : Program)
  /-- POUR_START (R351): Order 0x41 starts a JOB pour, or a replay pour, over the named inputs and outputs. -/
  | pourStart (t : Nat) (q : Fin 16) (seq : BitVec 16)
  /-- POUR_CANCEL (R324): Order 0x42 stops the pour named by its tag as a faulted JOB pour is stopped. -/
  | pourCancel (t : Nat) (q : Fin 16) (seq : BitVec 16)
  /-- CTX_CHILL (R330): Order 0x43 fully chills a JOB context and holds it until CTX_REMELT. -/
  | ctxChill (t : Nat) (q : Fin 16) (seq : BitVec 16)
  /-- CTX_REMELT (R330): Order 0x44 remelts a chilled JOB context. -/
  | ctxRemelt (t : Nat) (q : Fin 16) (seq : BitVec 16)
  /-- BAR2_READ (R77): A host BAR2 read is translated and checked by SC; it returns data, 0xFF when refused, or Completer Abort on an uncorrectable error. -/
  | bar2Read (t : Nat) (off : BitVec 36) (r : Bar2Span)
  /-- BAR2_WRITE (R77): A host BAR2 write is translated and checked by SC and is written or dropped. -/
  | bar2Write (t : Nat) (off : BitVec 36) (d : Bar2Data)
  /-- POISONED_TLP_RECEIVED (R74): A received poisoned TLP is discarded and its transfer is aborted as an uncorrectable error. -/
  | poisonedTlpReceived (t : Nat) (g : Option Agent)
  /-- REGISTER_WRITE (R76): A BAR0 write to a direct register without behaviour of its own takes effect, or completes with Unsupported Request for a bad size or alignment. -/
  | registerWrite (t : Nat) (off : BitVec 26) (size : Nat) (acc : BarAccess)
  /-- HOST_RING_HEAD_WRITE (R85): The host writes CMD_RR_HEAD or CMD_EVT_HEAD; freed space lets waiting entries, and E_EVT_LOST, be written. -/
  | hostRingHeadWrite (t : Nat) (ring : Fin 9) (v : W32)
  /-- MSIX_COALESCE_TIMEOUT (R84): The coalesce time or count of a ring is reached and an MSI-X message is sent. -/
  | msixCoalesceTimeout (t : Nat) (ring : Fin 9)
  /-- STAGED_WRITE (R94): A write to a staged register lands in the staging shadow and marks it dirty, or is ignored and counted. -/
  | stagedWrite (t : Nat) (off : BitVec 26) (v : W32)
  /-- STAGE_CHECK (R96): STG_CTRL.op CHECK checks the configuration with the dirty registers overlaid and applies nothing. -/
  | stageCheck (t : Nat) (ctrl : W32)
  /-- STAGE_ARM (R100): STG_CTRL.op ARM checks and, on passing, freezes the dirty registers as the pending cast set. -/
  | stageArm (t : Nat) (ctrl : W32)
  /-- STAGE_CANCEL (R108): STG_CTRL.op CANCEL withdraws a running check or a pending cast if processed in time, else sets cancel_late. -/
  | stageCancel (t : Nat) (ctrl : W32)
  /-- STAGE_DISCARD (R96): STG_CTRL.op DISCARD clears every dirty mark in the shadow. -/
  | stageDiscard (t : Nat) (ctrl : W32)
  /-- STAGE_CHECK_COMPLETE (R99): A running check completes, passing or refusing, and for an immediate ARM the cast takes effect. -/
  | stageCheckComplete (t : Nat)
  /-- CAST_TIME_REACHED (R101): Device time reaches T of a pending time cast and its fields switch by scope. -/
  | castTimeReached (t : Nat)
  /-- CAST_COUNT_CROSSING (R103): The count mirror shows the crossing of N for a pending count cast and the INSTANT fields apply. -/
  | castCountCrossing (t : Nat)
  /-- RONYR_APPLY_REPORT (R393): Ronyr's application report arrives and the Cuette side applies its INSTANT fields if the mirror has not shown the crossing. -/
  | ronyrApplyReport (t : Nat)
  /-- RETAINED_RECORD_COMPLETE (R110): SC finishes writing the signed retained record of a cast and STG_GEN_RETAINED advances. -/
  | retainedRecordComplete (t : Nat)
  /-- QUIESCE_REQUEST (R109): A write to STG_QUIESCE requests quiescing of a block for debug writes. -/
  | quiesceRequest (t : Nat) (v : W32)
  /-- DEBUG_WRITE (R109): A write to STG_DBG_DATA writes a live register directly, or is refused or ignored. -/
  | debugWrite (t : Nat) (v : W32)
  /-- CAMERA_DISCOVERY_DONE (R116): Discovery completes on every connection of a camera; the speed is selected, the init list is written and streams start. -/
  | cameraDiscoveryDone (t : Nat) (c : Fin 32) (d : Discovery)
  /-- CAMERA_LINE_RECEIVED (R122): A camera line arrives and takes the oldest stamp-queue entry as its row trigger. -/
  | cameraLineReceived (t : Nat) (str : Fin 64) (px : List (BitVec 16)) (chk : PacketChk)
  /-- CAMERA_LINK_LOST (R132): No valid character for 10 µs, or a connection reset, sets the camera's ports LOST and truncates the block in progress. -/
  | cameraLinkLost (t : Nat) (c : Fin 32)
  /-- CAMERA_REDISCOVERY_TIMER (R132): Every 1 s a lost camera repeats bring-up. -/
  | cameraRediscoveryTimer (t : Nat) (c : Fin 32)
  /-- CXP_CTL_READ (R118): A CXP_CTL_CMD go with the read bit reads a camera register through the control mailbox. -/
  | cxpCtlRead (t : Nat) (v : W32)
  /-- CXP_CTL_WRITE (R118): A CXP_CTL_CMD go with the write bit writes a camera register through the control mailbox. -/
  | cxpCtlWrite (t : Nat) (v : W32)
  /-- CXP_CTL_ACK_TIMEOUT (R132): A control acknowledgement is absent after 100 ms; the command is resent up to 3 times, then fails. -/
  | cxpCtlAckTimeout (t : Nat)
  /-- TRIGGER_EDGE_REPORT (R121): A rising edge of an emulated output reported by Ronyr sends a trigger packet and enters the stamp queue, or is dropped. -/
  | triggerEdgeReport (t : Nat) (c : Fin 32)
  /-- NLX_TRAINING_DONE (R124): Full Nolox training of transmit taps and receive adaptation completes. -/
  | nlxTrainingDone (t : Nat) (l : Fin 8) (ok : Bool) (taps : BitVec 16) (ctle : BitVec 4)
  /-- NLX_LANE_RETRAIN (R132): Sync-header or check-block errors over threshold make the lane retrain, or after repeated failure go to full training or down. -/
  | nlxLaneRetrain (t : Nat) (l : Fin 8) (ok : Bool)
  /-- NLX_CHECK_BLOCK_RECEIVED (R128): A Nolox check block is received and its PRBS31 bits are compared and counted. -/
  | nlxCheckBlockReceived (t : Nat) (l : Fin 8) (errs : Fin 65) (hdr : List (Fin 65))
  /-- NLX_IDLE_ENTER (R130): A Nolox transmitter idle for idle_delay µs sends enter-idle blocks and enters electrical idle. -/
  | nlxIdleEnter (t : Nat) (l : LaneEnd)
  /-- NLX_IDLE_EXIT (R131): A frame ready at an idle transmitter triggers fast exit with a training burst and alignment block. -/
  | nlxIdleExit (t : Nat) (l : LaneEnd)
  /-- EYE_SCAN_START (R126): Setting start in an EYE_CTRL register starts an eye scan, or sets BADARG. -/
  | eyeScanStart (t : Nat) (e : Fin 2) (v : W32)
  /-- EYE_SCAN_ABORT (R126): Setting abort ends a running scan at the current point with state DONE and aborted set. -/
  | eyeScanAbort (t : Nat) (e : Fin 2) (v : W32)
  /-- EYE_SCAN_POINT_DONE (R127): A scan point finishes measuring and its result word is written; the scan moves on or ends. -/
  | eyeScanPointDone (t : Nat) (e : Fin 2) (errs : Nat) (disturbed : Bool)
  /-- PRBS_CLEAR (R129): Setting CXP_PRBS_CTRL.clear clears the port's PRBS counters and lock. -/
  | prbsClear (t : Nat) (p : Fin 32) (v : W32)
  /-- BLOCK_HEADER_RECEIVED (R139): A block header arrives at a slot and the block is accepted or dropped whole with reason HEADER. -/
  | blockHeaderReceived (t : Nat) (r : Fin 16) (k : Fin 4) (h : BlockHeader)
  /-- RUNNER_LINE (R142): A runner processes one line through its correction stages and hands the row toward the gating network. -/
  | runnerLine (t : Nat) (r : Fin 16) (k : Fin 4) (bad : Option (BitVec 29))
  /-- BLOCK_TIMEOUT (R146): More than RUN_BLK_TIMEOUT µs between two packets of a block drops the rest of the block. -/
  | blockTimeout (t : Nat) (r : Fin 16) (k : Fin 4)
  /-- FEED_TAIL_WRITE (R141): The feeding agent writes RUN_FEED_TAIL, making new feed descriptors available to the runner. -/
  | feedTailWrite (t : Nat) (r : Fin 16) (k : Fin 4) (v : W32)
  /-- TILE_DECODE (R151): A feed codec tile is checked and decoded, or refused or failed with reason DECODE. -/
  | tileDecode (t : Nat) (r : Fin 16) (k : Fin 4) (bad : Option (BitVec 29))
  /-- ROI_COMMIT (R149): A write to RUN_ROI_COMMIT commits an ROI list to a target block, or is refused with E_ROI_LIMIT. -/
  | roiCommit (t : Nat) (r : Fin 16) (k : Fin 4) (v : W32)
  /-- SEG_POST_WRITE (R157): A program writes an edge record to RUN_SEG_POST, opening or closing a piece or trapping if malformed. -/
  | segPostWrite (t : Nat) (i : Fin 128) (r : Fin 16) (k : Fin 4) (rec : BitVec 64)
  /-- GATE_ROW_DELIVER (R162): Once every destination has room, the gating network delivers a row to all of its stripes and increments FILL. -/
  | gateRowDeliver (t : Nat) (r : Fin 16) (k : Fin 4)
  /-- LEDGER_OPEN_REQUEST (R360): Segmentation's open request takes a free ledger entry with serial, deadline and generation, or is refused with E_LEDGER_FULL. -/
  | ledgerOpenRequest (t : Nat) (idx : Fin 131072)
  /-- TRAILING_EDGE (R366): A piece's trailing edge reaches line control; the entry closes and the deadline may move earlier. -/
  | trailingEdge (t : Nat)
  /-- DEADLINE_REACHED (R367): The count mirror reaches a piece's deadline without a code; the piece takes UNDECIDED_LATE and its default action is planned. -/
  | deadlineReached (t : Nat) (idx : Fin 131072)
  /-- DEADLINE_SWEEP_STALL (R470): The safety monitor finds no complete deadline sweep for 2 ms and enters the safe state with cause 7. -/
  | deadlineSweepStall (t : Nat)
  /-- PIECE_STATE_REPORT (R305): SCH reports ADMITTED, REFUSED, LEFT or RELEASED for a piece and line control records it. -/
  | pieceStateReport (t : Nat)
  /-- HEAD_OUTPUTS_HANDOFF (R372): Head outputs reach the gate sequencer, which evaluates the rule program and sets the verdict and action. -/
  | headOutputsHandoff (t : Nat) (idx : Fin 131072) (vals : List (List W32))
  /-- TAP_ORDER_ANSWER (R376): Ronyr's queued, full, late or safe answer to a tap order is handled by line control. -/
  | tapOrderAnswer (t : Nat)
  /-- FIRE_REPORT_RECEIVED (R400): Ronyr's fire report sets the fired or unfired bit, and the entry may be freed with its PIECE record. -/
  | fireReportReceived (t : Nat)
  /-- JOURNAL_PAGE_WRITE (R383): The open journal page is written to NAND every 100 ms or when full. -/
  | journalPageWrite (t : Nat)
  /-- JOURNAL_BLOCK_SEAL (R382): A block is sealed when full or seal_s after its first record, overwriting the oldest block. -/
  | journalBlockSeal (t : Nat)
  /-- JOURNAL_BLOCK_SIGN (R382): SC fills a sealed block's trailer hashes and signature in block order. -/
  | journalBlockSign (t : Nat)
  /-- JOURNAL_READ (R385): Writing 1 to LIN_JRN_RD_GO reads one journal block into LIN_JRN_WIN, or refuses it. -/
  | journalRead (t : Nat) (v : W32)
  /-- HALT_REQUEST (R378): A write to LIN_HALT_REQ makes the host hold the line halted or release it. -/
  | haltRequest (t : Nat) (v : W32)
  /-- HALT_CONDITION_CLEAR (R379): Writing 1 to a LIN_HALT_STAT bit clears a latched halt condition. -/
  | haltConditionClear (t : Nat) (v : W32)
  /-- HALT_AUTO_CLEAR (R379): With auto set, a latched condition clears once its cause has been absent for 1 s. -/
  | haltAutoClear (t : Nat)
  /-- BARRIER_FRAME_FROM_RONYR (R391): A valid Ronyr frame updates the count mirror, inputs, field state and epoch and delivers its message slot. -/
  | barrierFrameFromRonyr (f : BarrierFrame)
  /-- BARRIER_FRAME_TO_RONYR (R392): A Cuette frame reaches Ronyr, serving the heartbeat and delivering its message; a new boot count clears Ronyr's shadow. -/
  | barrierFrameToRonyr (f : BarrierFrame)
  /-- RONYR_HEARTBEAT_LOSS (R392): Ronyr sees no valid heartbeat for 1,000 µs and enters the field safe state. -/
  | ronyrHeartbeatLoss (t : Nat)
  /-- CUETTE_HEARTBEAT_LOSS (R392): Line control sees no valid Ronyr frame for 1,000 µs, raises E_BARRIER_HB, clears live and enters the safe state with cause 2. -/
  | cuetteHeartbeatLoss (t : Nat)
  /-- SAFE_ACK_TIMEOUT (R471): Ronyr has not acknowledged SAFE within 100 µs; the monitor clears the live bit and stops valid frames. -/
  | safeAckTimeout (t : Nat)
  /-- SAFE_MESSAGE (R394): Ronyr receives SAFE and enters its field safe state with cause 6. -/
  | safeMessage (t : Nat)
  /-- RESUME_MESSAGE (R395): Ronyr receives RESUME and leaves the field safe state, holds it, or discards it. -/
  | resumeMessage (t : Nat)
  /-- RESUME_HELD_TIMEOUT (R395): A held RESUME takes effect once the heartbeat has been valid for 10 ms. -/
  | resumeHeldTimeout (t : Nat)
  /-- RONYR_CLOCK_FAULT (R389): Ronyr's clock monitor detects a stop or a 2 % error and enters the field safe state. -/
  | ronyrClockFault (t : Nat) (inRange : Bool)
  /-- RONYR_WATCHDOG_EXPIRE (R389): Ronyr's field watchdog is not served for 100 µs and enters the field safe state. -/
  | ronyrWatchdogExpire (t : Nat) (served : Bool)
  /-- VISO_RETURN (R390): VISO returns after a loss; staged fields take factory values, channels are off and the epoch restarts at 0. -/
  | visoReturn (t : Nat)
  /-- TAP_ORDER_RECEIVE (R396): Ronyr receives a tap order and answers queued, full, late or safe. -/
  | tapOrderReceive (t : Nat)
  /-- FIRE_TRIGGER (R397): The position counter reaches N of a pending fire and the output turns on. -/
  | fireTrigger (t : Nat)
  /-- FIRE_END (R400): A fire's on time ends, by leaving the window or by the W µs timer; the output turns off and the report is sent. -/
  | fireEnd (t : Nat) (seen : Bool) (openWire : Bool)
  /-- ENCODER_STEP (R401): An accepted encoder step updates r and p, emulated edges, speed and motion reporting. -/
  | encoderStep (t : Nat) (ch : Fin 2) (k : StepKind)
  /-- ENCODER_SERIAL_READ (R401): An SSI or BiSS-C read completes each period and updates r and p, or fails plausibility. -/
  | encoderSerialRead (t : Nat) (ch : Fin 2) (ok : Bool) (value : BitVec 40)
  /-- INDEX_EDGE (R403): An accepted rising Z edge latches p and its time into RNY_ENC_IDX. -/
  | indexEdge (t : Nat) (ch : Fin 2) (a : Bool) (b : Bool)
  /-- ALIGN_PAIR (R434): A member pairs index latches with the head's, becomes aligned or withdraws alignment. -/
  | alignPair (t : Nat) (ch : Fin 2) (headP : BitVec 48) (headT : Nat) (ownP : BitVec 48) (ownT : Nat)
  /-- INPUT_SAMPLE (R408): Every 1 µs each input is sampled and filtered, feeding input latches and wire-break detection. -/
  | inputSample (t : Nat) (pins : List PinSample)
  /-- OUTPUT_OVERLOAD (R410): An output in current limit for 2 ms switches off and latches ovl. -/
  | outputOverload (t : Nat) (k : Fin 16)
  /-- OUTPUT_THERMAL (R410): A driver junction at 150 °C switches the output off and latches thermal. -/
  | outputThermal (t : Nat) (k : Fin 16)
  /-- OUTPUT_AUTO_RESTART (R410): With auto_rs, 100 ms after a switch-off the latch clears, up to 3 restarts in 10 s. -/
  | outputAutoRestart (t : Nat) (k : Fin 16)
  /-- OUTPUT_DIAG_CLEAR (R410): Writing 1 to an RNY_OUT_DIAG bit clears a latched output condition. -/
  | outputDiagClear (t : Nat) (k : Fin 16) (v : W32)
  /-- FIELD_SUPPLY_LOW (R411): L+ below 17 V holds every output off and raises E_FIELD_SUPPLY. -/
  | fieldSupplyLow (t : Nat) (mv : BitVec 16)
  /-- FIELD_SUPPLY_RESTORE (R411): L+ at or above 18 V for 100 ms restores the outputs. -/
  | fieldSupplyRestore (t : Nat) (mv : BitVec 16)
  /-- OUTPUT_READBACK (R412): Every 250 µs outputs are compared with their commands; three mismatches latch stuck-on or stuck-off. -/
  | outputReadback (t : Nat) (seen : BitVec 16)
  /-- OUTPUT_OPEN_OFF (R413): An off output above 4 V for 10 ms with ow_off latches open_off. -/
  | outputOpenOff (t : Nat) (k : Fin 16)
  /-- RONYR_READ (R415): LIN_RNY_CTRL read go reads a RNY_ register across the link. -/
  | ronyrRead (t : Nat)
  /-- RONYR_WRITE (R415): LIN_RNY_CTRL write go writes a staged RNY_ shadow or a direct RNY_ register across the link. -/
  | ronyrWrite (t : Nat)
  /-- PTP_SYNC_SAMPLE (R420): A PTP offset sample updates the servo, and may step time or enter REFUSED. -/
  | ptpSyncSample (t : Nat) (m : PtpStamps)
  /-- PTP_MASTER_LOST (R422): The announce receipt timeout passes; E_PTP_MASTER_LOST is raised and the servo enters HOLDOVER. -/
  | ptpMasterLost (t : Nat)
  /-- STEP_OK (R421): Writing step_ok in TIM_CTRL permits a time step above the threshold. -/
  | stepOk (t : Nat) (v : W32)
  /-- PPS_PULSE (R418): At each whole second of device time PPS_OUT rises for 100 ms. -/
  | ppsPulse (t : Nat)
  /-- CHAIN_TIME_EXCHANGE (R423): Every 125 µs a two-way time exchange steers a follower toward its upstream device. -/
  | chainTimeExchange (t : Nat) (o : Int) (upLocked : Bool) (hops : BitVec 8)
  /-- NLX_PORT_LINKUP (R426): At port link-up each end announces ID and topology; a conflicting port is held down. -/
  | nlxPortLinkup (t : Nat) (p : Fin 4) (hello : PeerHello)
  /-- PEER_AUTH_COMPLETE (R453): Chain peers finish mutual IK authentication; the port passes or is held. -/
  | peerAuthComplete (t : Nat) (p : Fin 4) (chainOk : Bool) (sigOk : Bool) (peerOwner : Option (BitVec 768))
  /-- NLX_FRAME_RECEIVE (R428): A Nolox frame is received, acknowledged or negatively acknowledged, forwarded or delivered. -/
  | nlxFrameReceive (t : Nat) (p : Fin 4) (f : NlxRx)
  /-- NLX_RETRY_TIMEOUT (R428): 3 µs without an acknowledgement resends from the oldest unacknowledged frame. -/
  | nlxRetryTimeout (t : Nat) (p : Fin 4)
  /-- SHARE_MESSAGE (R436): A share message reaches the head and settles or releases the shared piece, or is dropped. -/
  | shareMessage (t : Nat) (src : BitVec 6) (cls : BitVec 6) (seg : Int) (lead : BitVec 48) (kind : BitVec 2)
  /-- NLX_DEST_UNREACHABLE (R433): A destination becomes unreachable; pours mapping it fault and shared pieces take UNDECIDED_FAULT. -/
  | nlxDestUnreachable (t : Nat) (d : BitVec 6)
  /-- CERTS (R444): Mailbox command 1 returns the IK, BK and device CA certificates. -/
  | certs (t : Nat)
  /-- QUOTE (R445): Mailbox command 2 returns a signed quote of the device state. -/
  | quote (t : Nat)
  /-- BUNDLE_LOAD (R448): Mailbox command 3 checks, decrypts and stores a model bundle. -/
  | bundleLoad (t : Nat)
  /-- BUNDLE_DELETE (R448): Mailbox command 4 deletes a stored bundle unless it is pinned or in use. -/
  | bundleDelete (t : Nat)
  /-- BUNDLE_LIST (R444): Mailbox command 5 lists stored bundles with digests and signers. -/
  | bundleList (t : Nat)
  /-- CHALLENGE (R444): Mailbox command 6 returns a fresh nonce for the next token or owner command. -/
  | challenge (t : Nat)
  /-- TOKEN (R454): Mailbox command 7 checks and applies a debug-unlock, repair or owner-clear token. -/
  | token (t : Nat)
  /-- DEBUG_LOCK (R455): Mailbox command 8 closes both debug scopes. -/
  | debugLock (t : Nat)
  /-- OWNER_SET (R452): Mailbox command 9 binds the device to an owner key. -/
  | ownerSet (t : Nat)
  /-- OWNER_CLEAR (R452): Mailbox command 10 removes the owner binding. -/
  | ownerClear (t : Nat)
  /-- SC_WATCHDOG_RESET (R456): SC's watchdog resets it after 100 ms without service, and a third reset within 60 s enters the security fault state. -/
  | scWatchdogReset (t : Nat)
  /-- SC_RESTART_COMPLETE (R456): SC returns; queued journal blocks are signed and waiting loads and records proceed. -/
  | scRestartComplete (t : Nat)
  /-- FC_WATCHDOG_RESET (R480): An FC watchdog reset discards the flask's tasks for restart elsewhere, or retires the flask on a third reset in 10 s. -/
  | fcWatchdogReset (t : Nat) (n : Fin 32)
  /-- FC_RESTART_COMPLETE (R481): An FC returns; its stripe tasks restart from their committed tokens, or it idles until SCH returns. -/
  | fcRestartComplete (t : Nat) (n : Fin 32)
  /-- SCH_WATCHDOG_RESET (R484): SCH is reset by its watchdog; steps, admissions and collection pause. -/
  | schWatchdogReset (t : Nat)
  /-- SCH_RESTART_COMPLETE (R485): SCH returns, reconciles its tables with the ledger, restarts the heartbeat interval and resumes ticks. -/
  | schRestartComplete (t : Nat)
  /-- PMC_WATCHDOG_RESET (R486): PMC is reset; crucibles are held at step 6 and permits use the safe budget. -/
  | pmcWatchdogReset (t : Nat)
  /-- PMC_RESTART_COMPLETE (R486): PMC returns and raises the clock under its step sources. -/
  | pmcRestartComplete (t : Nat)
  /-- PWR_REQ_S0 (R462): Writing 0 to PWR_STATE_REQ requests S0 or wake from S1. -/
  | pwrReqS0 (t : Nat)
  /-- PWR_REQ_S1 (R461): Writing 1 to PWR_STATE_REQ requests S1, waiting until its conditions hold. -/
  | pwrReqS1 (t : Nat)
  /-- PWR_REQ_S2 (R463): Writing 2 to PWR_STATE_REQ enters standby after the stop and flush, or is refused. -/
  | pwrReqS2 (t : Nat)
  /-- PWR_REQ_S3 (R463): Writing 3 to PWR_STATE_REQ enters off after the stop and flush, or is refused. -/
  | pwrReqS3 (t : Nat)
  /-- S1_IDLE_ENTRY (R461): The S1 conditions have held for idle_s seconds and the device enters S1. -/
  | s1IdleEntry (t : Nat)
  /-- S1_WAKE (R462): Motion, a ready JOB task or a host request ends S1 and restarts runners and crucibles. -/
  | s1Wake (t : Nat)
  /-- S2_WAKE (R463): Motion, an MSMB wake or MOD_RESET# wakes from S2, drives HOST_WAKE# and runs the full boot. -/
  | s2Wake (t : Nat)
  /-- MSMB_STATUS (R467): MSMB command 0x01 returns the status word. -/
  | msmbStatus (t : Nat)
  /-- MSMB_VIN (R467): MSMB command 0x10 returns VIN. -/
  | msmbVin (t : Nat)
  /-- MSMB_INPUT_CURRENT (R467): MSMB command 0x11 returns input current. -/
  | msmbInputCurrent (t : Nat)
  /-- MSMB_INPUT_POWER (R467): MSMB command 0x12 returns mean input power. -/
  | msmbInputPower (t : Nat)
  /-- MSMB_JUNCTION (R467): MSMB command 0x20 returns the Cuette junction temperature. -/
  | msmbJunction (t : Nat)
  /-- MSMB_BOARD_TEMP (R467): MSMB command 0x21 returns the board temperature. -/
  | msmbBoardTemp (t : Nat)
  /-- MSMB_RONYR_JUNCTION (R467): MSMB command 0x22 returns the Ronyr junction temperature. -/
  | msmbRonyrJunction (t : Nat)
  /-- MSMB_LPLUS (R467): MSMB command 0x30 returns L+. -/
  | msmbLplus (t : Nat)
  /-- MSMB_CRUCIBLE_STEP (R467): MSMB command 0x40 returns the crucible step in force. -/
  | msmbCrucibleStep (t : Nat)
  /-- MSMB_SAFE_CAUSES (R467): MSMB command 0x50 returns the safe-state causes. -/
  | msmbSafeCauses (t : Nat)
  /-- MSMB_WAKE (R467): MSMB command 0x60 with word 0x0001 wakes the device from S2. -/
  | msmbWake (t : Nat) (m : MsmbWrite)
  /-- SAFE_ACK (R473): Writing ack to PWR_SAFE_CTRL leaves the safe state if every cause is absent and sends RESUME. -/
  | safeAck (t : Nat)
  /-- SAFE_FORCE (R471): Writing force to PWR_SAFE_CTRL enters the safe state with cause 8. -/
  | safeForce (t : Nat)
  /-- SAFE_AUTO_ACK (R473): auto_s seconds with every cause absent acknowledge the safe state. -/
  | safeAutoAck (t : Nat)
  /-- STEP_BEGIN (R312): A sequence pour's step begins: returns are applied, admissions attempted and the batch formed. -/
  | stepBegin (t : Nat) (x : Fin 16) (ready : List (Nat × Nat))
  /-- TWIN_COMPARE (R354): After both sets commit a step the comparator checks digests and on mismatch faults pieces and may enter the safe state. -/
  | twinCompare (t : Nat) (x : Fin 16)
  /-- TASK_DISPATCH (R321): An FC with an idle fettler pops a ready task from its deque and starts it. -/
  | taskDispatch (t : Nat) (n : Fin 32) (f : Fin 4) (x : Fin 16)
  /-- TASK_STEAL (R322): An idle FC with an empty deque takes the oldest task from the nearest non-empty deque of the context. -/
  | taskSteal (t : Nat) (n : Fin 32) (f : Fin 4) (x : Fin 16)
  /-- SLICE_END (R326): A JOB slice ends at a tick; the context is stopped and chilled, debt is charged and the next context is selected. -/
  | sliceEnd (t : Nat) (x : Fin 16)
  /-- LINE_DEMAND_CLAIM (R331): LINE demand claims a JOB-held flask; the JOB context is stopped and chilled there. -/
  | lineDemandClaim (t : Nat) (x : Fin 16) (n : Fin 32) (y : Fin 16)
  /-- LINE_FLASK_RETURN (R331): LINE has had no ready task for a claimed flask for 1 ms; the flask returns and the section is remelted. -/
  | lineFlaskReturn (t : Nat) (n : Fin 32)
  /-- CHILL_COMPLETE (R327): A chill of a context on a flask finishes writing its section. -/
  | chillComplete (t : Nat) (x : Fin 16) (n : Fin 32)
  /-- REMELT_COMPLETE (R330): A remelt restores a section and the context's tasks run again. -/
  | remeltComplete (t : Nat) (x : Fin 16) (n : Fin 32) (bad : Option Nat)
  /-- PERMIT_WINDOW (R337): A new 100 µs permit window begins with the full budget. -/
  | permitWindow (t : Nat)
  /-- PERMIT_GRANT (R337): PMC grants the oldest waiting permit request when its charge fits the window and the start rate allows. -/
  | permitGrant (t : Nat)
  /-- SBAR_ARM (R358): Setting arm in CMD_SBAR arms a start barrier at T, or sets REFUSED. -/
  | sbarArm (t : Nat) (i : Fin 16)
  /-- SBAR_DISARM (R358): Setting disarm returns an armed start barrier to IDLE and completes waiting pours with E_CMD_ARG. -/
  | sbarDisarm (t : Nat) (i : Fin 16)
  /-- SBAR_FIRE (R358): The timebase reaches T of an armed barrier and every waiting pour starts. -/
  | sbarFire (t : Nat) (i : Fin 16)
  /-- DESCRIPTOR_LOAD (R252): A crucible descriptor reaches the head of its queue and is checked, fetched and sent to permit wait, or refused. -/
  | descriptorLoad (t : Nat) (c : Fin 64) (e : LineErr)
  /-- MMA (R262): Crucible command type 1 accumulates a matrix product into a tile. -/
  | mma (t : Nat) (c : Fin 64)
  /-- CONV (R263): Crucible command type 2 accumulates one output row of a convolution. -/
  | conv (t : Nat) (c : Fin 64)
  /-- DWCONV (R264): Crucible command type 3 accumulates a depthwise convolution. -/
  | dwconv (t : Nat) (c : Fin 64)
  /-- POOL_SUM (R265): POOL op SUM accumulates window taps into a tile. -/
  | poolSum (t : Nat) (c : Fin 64)
  /-- POOL_MAX (R265): POOL op MAX writes window maxima to the mould. -/
  | poolMax (t : Nat) (c : Fin 64)
  /-- POOL_MIN (R265): POOL op MIN writes window minima to the mould. -/
  | poolMin (t : Nat) (c : Fin 64)
  /-- EWISE_MUL (R266): EWISE op MUL accumulates element-wise products into a tile. -/
  | ewiseMul (t : Nat) (c : Fin 64)
  /-- EWISE_ADD (R266): EWISE op ADD accumulates elements into a tile. -/
  | ewiseAdd (t : Nat) (c : Fin 64)
  /-- EWISE_QADD (R266): EWISE op QADD merges Q128 partial sums into a tile. -/
  | ewiseQadd (t : Nat) (c : Fin 64)
  /-- ACCMOVE (R267): Crucible command type 6 drains a tile rectangle to the mould with digests. -/
  | accmove (t : Nat) (c : Fin 64)
  /-- ATTN_QK (R269): Crucible command type 7 accumulates attention scores over key pages. -/
  | attnQk (t : Nat) (c : Fin 64)
  /-- ATTN_PV (R270): Crucible command type 8 accumulates probability-weighted values over value pages. -/
  | attnPv (t : Nat) (c : Fin 64)
  /-- LAYOUT (R271): Crucible command type 9 converts or transposes a mould tensor. -/
  | layout (t : Nat) (c : Fin 64)
  /-- CRUCIBLE_COMPLETE (R275): A crucible command completes; its record is written, evc incremented and the ticket marked done. -/
  | crucibleComplete (t : Nat) (c : Fin 64) (cycles : W32)
  /-- LADLE_DESCRIPTOR_START (R190): A ladle descriptor reaches the head of its queue, requests a permit if above 1 MiB, and begins issuing elements. -/
  | ladleDescriptorStart (t : Nat) (n : Fin 32) (l : Fin 2) (k : Nat) (e : Option LadleErr)
  /-- LADLE_COMPLETE (R193): A ladle transfer completes or aborts; the record is written, evc incremented and the descriptor marked done. -/
  | ladleComplete (t : Nat) (n : Fin 32) (l : Fin 2) (e : Option LadleErr)
  /-- XLATE_FAULT_RESOLVED (R185): A resolvable translation fault is resolved and the parked agent resumes. -/
  | xlateFaultResolved (t : Nat) (g : Agent) (m : PageMove)
  /-- SCRUB_LINE (R182): Patrol scrub reads a line, corrects it or poisons it. -/
  | scrubLine (t : Nat) (line : Nat) (e : LineErr)
  /-- BARRIER_RELEASE (R174): The last participant arrives at a barrier; the epoch increments and waiters are released. -/
  | barrierRelease (t : Nat) (b : Fin 64)
  /-- FETTLER_WAIT_RESUME (R250): A fettler stopped in a wait or full queue resumes when its condition is met. -/
  | fettlerWaitResume (t : Nat) (i : Fin 128)
  /-- ADD (R223): Class 0 op 0 adds two registers. -/
  | add (t : Nat) (i : Fin 128) (w : AluF)
  /-- SUB (R223): Class 0 op 1 subtracts two registers. -/
  | sub (t : Nat) (i : Fin 128) (w : AluF)
  /-- AND (R223): Class 0 op 2 bitwise AND. -/
  | and (t : Nat) (i : Fin 128) (w : AluF)
  /-- OR (R223): Class 0 op 3 bitwise OR. -/
  | or (t : Nat) (i : Fin 128) (w : AluF)
  /-- XOR (R223): Class 0 op 4 bitwise XOR. -/
  | xor (t : Nat) (i : Fin 128) (w : AluF)
  /-- SLL (R223): Class 0 op 5 logical shift left by register. -/
  | sll (t : Nat) (i : Fin 128) (w : AluF)
  /-- SRL (R223): Class 0 op 6 logical shift right by register. -/
  | srl (t : Nat) (i : Fin 128) (w : AluF)
  /-- SRA (R223): Class 0 op 7 arithmetic shift right by register. -/
  | sra (t : Nat) (i : Fin 128) (w : AluF)
  /-- SLT (R223): Class 0 op 8 signed set-less-than. -/
  | slt (t : Nat) (i : Fin 128) (w : AluF)
  /-- SLTU (R223): Class 0 op 9 unsigned set-less-than. -/
  | sltu (t : Nat) (i : Fin 128) (w : AluF)
  /-- MUL (R223): Class 0 op 10 low 64 bits of the product. -/
  | mul (t : Nat) (i : Fin 128) (w : AluF)
  /-- MULH (R223): Class 0 op 11 high 64 bits of the signed product. -/
  | mulh (t : Nat) (i : Fin 128) (w : AluF)
  /-- MULHU (R223): Class 0 op 12 high 64 bits of the unsigned product. -/
  | mulhu (t : Nat) (i : Fin 128) (w : AluF)
  /-- DIV (R223): Class 0 op 13 signed division toward zero. -/
  | div (t : Nat) (i : Fin 128) (w : AluF)
  /-- DIVU (R223): Class 0 op 14 unsigned division. -/
  | divu (t : Nat) (i : Fin 128) (w : AluF)
  /-- REM (R223): Class 0 op 15 signed remainder. -/
  | rem (t : Nat) (i : Fin 128) (w : AluF)
  /-- REMU (R223): Class 0 op 16 unsigned remainder. -/
  | remu (t : Nat) (i : Fin 128) (w : AluF)
  /-- MIN (R223): Class 0 op 17 signed minimum. -/
  | min (t : Nat) (i : Fin 128) (w : AluF)
  /-- MAX (R223): Class 0 op 18 signed maximum. -/
  | max (t : Nat) (i : Fin 128) (w : AluF)
  /-- MINU (R223): Class 0 op 19 unsigned minimum. -/
  | minu (t : Nat) (i : Fin 128) (w : AluF)
  /-- MAXU (R223): Class 0 op 20 unsigned maximum. -/
  | maxu (t : Nat) (i : Fin 128) (w : AluF)
  /-- ADDW (R223): Class 0 op 21 32-bit add sign-extended. -/
  | addw (t : Nat) (i : Fin 128) (w : AluF)
  /-- SUBW (R223): Class 0 op 22 32-bit subtract sign-extended. -/
  | subw (t : Nat) (i : Fin 128) (w : AluF)
  /-- CLZ (R223): Class 0 op 23 counts leading zeros. -/
  | clz (t : Nat) (i : Fin 128) (w : AluF)
  /-- CTZ (R223): Class 0 op 24 counts trailing zeros. -/
  | ctz (t : Nat) (i : Fin 128) (w : AluF)
  /-- POPC (R223): Class 0 op 25 counts set bits. -/
  | popc (t : Nat) (i : Fin 128) (w : AluF)
  /-- SLLI (R223): Class 0 op 26 shift left by immediate. -/
  | slli (t : Nat) (i : Fin 128) (w : AluF)
  /-- SRLI (R223): Class 0 op 27 logical shift right by immediate. -/
  | srli (t : Nat) (i : Fin 128) (w : AluF)
  /-- SRAI (R223): Class 0 op 28 arithmetic shift right by immediate. -/
  | srai (t : Nat) (i : Fin 128) (w : AluF)
  /-- ADDI (R224): Class 1 adds a sign-extended immediate to a register. -/
  | addi (t : Nat) (i : Fin 128) (w : ImmF)
  /-- WIDE_PREFIX (R222): Class 31 prefix with a class 1 or 5 word forms one instruction with a 44-bit immediate. -/
  | widePrefix (t : Nat) (i : Fin 128) (hi : BitVec 27) (next : W32)
  /-- LB (R225): Load byte, sign-extended. -/
  | lb (t : Nat) (i : Fin 128) (w : MemF) (e : LineErr)
  /-- LH (R225): Load halfword, sign-extended. -/
  | lh (t : Nat) (i : Fin 128) (w : MemF) (e : LineErr)
  /-- LW (R225): Load word, sign-extended. -/
  | lw (t : Nat) (i : Fin 128) (w : MemF) (e : LineErr)
  /-- LD (R225): Load doubleword. -/
  | ld (t : Nat) (i : Fin 128) (w : MemF) (e : LineErr)
  /-- LBU (R225): Load byte, zero-extended. -/
  | lbu (t : Nat) (i : Fin 128) (w : MemF) (e : LineErr)
  /-- LHU (R225): Load halfword, zero-extended. -/
  | lhu (t : Nat) (i : Fin 128) (w : MemF) (e : LineErr)
  /-- LWU (R225): Load word, zero-extended. -/
  | lwu (t : Nat) (i : Fin 128) (w : MemF) (e : LineErr)
  /-- SB (R225): Store byte. -/
  | sb (t : Nat) (i : Fin 128) (w : MemF) (e : LineErr)
  /-- SH (R225): Store halfword. -/
  | sh (t : Nat) (i : Fin 128) (w : MemF) (e : LineErr)
  /-- SW (R225): Store word. -/
  | sw (t : Nat) (i : Fin 128) (w : MemF) (e : LineErr)
  /-- SD (R225): Store doubleword. -/
  | sd (t : Nat) (i : Fin 128) (w : MemF) (e : LineErr)
  /-- BEQ (R226): Branch if equal. -/
  | beq (t : Nat) (i : Fin 128) (w : BrF)
  /-- BNE (R226): Branch if not equal. -/
  | bne (t : Nat) (i : Fin 128) (w : BrF)
  /-- BLT (R226): Branch if signed less than. -/
  | blt (t : Nat) (i : Fin 128) (w : BrF)
  /-- BGE (R226): Branch if signed greater or equal. -/
  | bge (t : Nat) (i : Fin 128) (w : BrF)
  /-- BLTU (R226): Branch if unsigned less than. -/
  | bltu (t : Nat) (i : Fin 128) (w : BrF)
  /-- BGEU (R226): Branch if unsigned greater or equal. -/
  | bgeu (t : Nat) (i : Fin 128) (w : BrF)
  /-- BANY (R226): Branch if a predicate has any bit set. -/
  | bany (t : Nat) (i : Fin 128) (w : BrF)
  /-- BNONE (R226): Branch if a predicate has no bit set. -/
  | bnone (t : Nat) (i : Fin 128) (w : BrF)
  /-- JAL (R227): Jump relative or through a register and link. -/
  | jal (t : Nat) (i : Fin 128) (w : ImmF)
  /-- VADD (R230): Vector lane-wise add. -/
  | vadd (t : Nat) (i : Fin 128) (w : VecF)
  /-- VSUB (R230): Vector lane-wise subtract. -/
  | vsub (t : Nat) (i : Fin 128) (w : VecF)
  /-- VMUL (R230): Vector lane-wise multiply. -/
  | vmul (t : Nat) (i : Fin 128) (w : VecF)
  /-- VFMA (R230): Vector fused multiply-add rounded once. -/
  | vfma (t : Nat) (i : Fin 128) (w : VecF)
  /-- VMIN (R230): Vector lane-wise minimum. -/
  | vmin (t : Nat) (i : Fin 128) (w : VecF)
  /-- VMAX (R230): Vector lane-wise maximum. -/
  | vmax (t : Nat) (i : Fin 128) (w : VecF)
  /-- VAND (R230): Vector bitwise AND. -/
  | vand (t : Nat) (i : Fin 128) (w : VecF)
  /-- VOR (R230): Vector bitwise OR. -/
  | vor (t : Nat) (i : Fin 128) (w : VecF)
  /-- VXOR (R230): Vector bitwise XOR. -/
  | vxor (t : Nat) (i : Fin 128) (w : VecF)
  /-- VSLL (R230): Vector logical shift left. -/
  | vsll (t : Nat) (i : Fin 128) (w : VecF)
  /-- VSRL (R230): Vector logical shift right. -/
  | vsrl (t : Nat) (i : Fin 128) (w : VecF)
  /-- VSRA (R230): Vector arithmetic shift right. -/
  | vsra (t : Nat) (i : Fin 128) (w : VecF)
  /-- VABS (R230): Vector absolute value. -/
  | vabs (t : Nat) (i : Fin 128) (w : VecF)
  /-- VNEG (R230): Vector negation. -/
  | vneg (t : Nat) (i : Fin 128) (w : VecF)
  /-- VCEQ (R230): Vector compare equal into a predicate. -/
  | vceq (t : Nat) (i : Fin 128) (w : VecF)
  /-- VCLT (R230): Vector compare less-than into a predicate. -/
  | vclt (t : Nat) (i : Fin 128) (w : VecF)
  /-- VCLE (R230): Vector compare less-or-equal into a predicate. -/
  | vcle (t : Nat) (i : Fin 128) (w : VecF)
  /-- VSEL (R230): Vector select by predicate. -/
  | vsel (t : Nat) (i : Fin 128) (w : VecF)
  /-- VBCST (R230): Broadcast a scalar to every lane. -/
  | vbcst (t : Nat) (i : Fin 128) (w : VecF)
  /-- VEXTX (R230): Extract one vector lane into a scalar register. -/
  | vextx (t : Nat) (i : Fin 128) (w : VecF)
  /-- VLD (R232): Vector load from the local mould, unit, strided or gather. -/
  | vld (t : Nat) (i : Fin 128) (w : VlsF)
  /-- VST (R232): Vector store to the local mould, unit, strided or scatter. -/
  | vst (t : Nat) (i : Fin 128) (w : VlsF)
  /-- RSUM (R233): Fixed-tree sum of active lanes into a scalar. -/
  | rsum (t : Nat) (i : Fin 128) (w : VecF)
  /-- RMIN (R233): Fixed-tree minimum of active lanes. -/
  | rmin (t : Nat) (i : Fin 128) (w : VecF)
  /-- RMAX (R233): Fixed-tree maximum of active lanes. -/
  | rmax (t : Nat) (i : Fin 128) (w : VecF)
  /-- RSUMW (R233): Exact 64-bit sum of integer lanes. -/
  | rsumw (t : Nat) (i : Fin 128) (w : VecF)
  /-- VCVT (R234): Class 9 converts lanes between formats with one rounding. -/
  | vcvt (t : Nat) (i : Fin 128) (w : CvtF)
  /-- PAND (R235): Predicate AND. -/
  | pand (t : Nat) (i : Fin 128) (w : PredF)
  /-- POR (R235): Predicate OR. -/
  | por (t : Nat) (i : Fin 128) (w : PredF)
  /-- PXOR (R235): Predicate XOR. -/
  | pxor (t : Nat) (i : Fin 128) (w : PredF)
  /-- PANDN (R235): Predicate AND NOT. -/
  | pandn (t : Nat) (i : Fin 128) (w : PredF)
  /-- PNOT (R235): Predicate NOT. -/
  | pnot (t : Nat) (i : Fin 128) (w : PredF)
  /-- PFROMX (R235): Predicate from a scalar register. -/
  | pfromx (t : Nat) (i : Fin 128) (w : PredF)
  /-- PTOX (R235): Predicate to a scalar register. -/
  | ptox (t : Nat) (i : Fin 128) (w : PredF)
  /-- PLANES (R235): Predicate of the first n lanes of a type. -/
  | planes (t : Nat) (i : Fin 128) (w : PredF)
  /-- PCOUNT (R235): Count active lanes of a predicate. -/
  | pcount (t : Nat) (i : Fin 128) (w : PredF)
  /-- EVINC (R236): Add to an event counter on any flask. -/
  | evinc (t : Nat) (i : Fin 128) (w : QueF)
  /-- EVWAIT (R236): Wait until an own-flask event counter reaches a target. -/
  | evwait (t : Nat) (i : Fin 128) (w : QueF)
  /-- BAR (R236): Arrive at a barrier for an epoch and wait for its release. -/
  | bar (t : Nat) (i : Fin 128) (w : QueF)
  /-- GCADD (R236): Atomic add to a gate counter returning the previous value. -/
  | gcadd (t : Nat) (i : Fin 128) (w : QueF)
  /-- CAST (R238): Copy a descriptor into a crucible's queue and return a ticket. -/
  | cast (t : Nat) (i : Fin 128) (w : QueF)
  /-- CPOLL (R238): Test whether a crucible ticket has completed. -/
  | cpoll (t : Nat) (i : Fin 128) (w : QueF)
  /-- CWAIT (R238): Wait for a crucible ticket to complete. -/
  | cwait (t : Nat) (i : Fin 128) (w : QueF)
  /-- LDQ (R239): Copy a ladle descriptor into a ladle queue and return a ticket. -/
  | ldq (t : Nat) (i : Fin 128) (w : QueF)
  /-- LDW (R239): Wait for a ladle ticket to complete or abort. -/
  | ldw (t : Nat) (i : Fin 128) (w : QueF)
  /-- CSRD (R240): Read a CSR. -/
  | csrd (t : Nat) (i : Fin 128) (w : SysF)
  /-- CSWR (R240): Write a CSR. -/
  | cswr (t : Nat) (i : Fin 128) (w : SysF)
  /-- TRAP (R240): Trap with cause SW and the immediate in TVAL. -/
  | trap (t : Nat) (i : Fin 128) (w : TrapWord)
  /-- YIELD (R240): Offer an interruption point. -/
  | yield (t : Nat) (i : Fin 128) (w : SysF)
  /-- CHKPT (R241): Settle earlier work and commit the task's step token and digest sums. -/
  | chkpt (t : Nat) (i : Fin 128) (w : SysF)
  /-- ERET (R240): Return from a trap handler to EPC. -/
  | eret (t : Nat) (i : Fin 128) (w : SysF)
  /-- FENCE (R220): Complete all earlier loads and stores before any later one. -/
  | fence (t : Nat) (i : Fin 128) (w : SysF)
  /-- TEND (R241): Settle earlier work and end the task, reporting it done. -/
  | tend (t : Nat) (i : Fin 128) (w : SysF)
  /-- VEXP (R244): Lane-wise exponential rounded once to F32. -/
  | vexp (t : Nat) (i : Fin 128) (w : SpecF)
  /-- VRCP (R246): Lane-wise reciprocal rounded once to F32. -/
  | vrcp (t : Nat) (i : Fin 128) (w : SpecF)
  /-- VRSQ (R246): Lane-wise reciprocal square root rounded once to F32. -/
  | vrsq (t : Nat) (i : Fin 128) (w : SpecF)
  /-- VLOG (R245): Lane-wise natural logarithm rounded once to F32. -/
  | vlog (t : Nat) (i : Fin 128) (w : SpecF)
  /-- TRACE_CLEAR (R490): Setting DBG_TRACE_CTRL.clear empties the trace buffer and clears stopped. -/
  | traceClear (t : Nat)
  /-- LOG_INDEX_WRITE (R489): Writing DBG_LOG_IDX selects the log record shown in DBG_LOG_REC. -/
  | logIndexWrite (t : Nat) (q : BitVec 64)
  /-- PCIE_LINK_UP (R73): PCIe link training completes and the endpoint answers configuration requests. -/
  | pcieLinkUp (m : LinkTrained)
  /-- PCIE_LINK_DOWN (R132): The PCIe link leaves L0 and E_PCIE_DOWN is raised. -/
  | pcieLinkDown (t : Nat)
  /-- CXP_CTL_ACK (R118): A camera's control acknowledgement arrives and completes the mailbox command with done and its acknowledgement code. -/
  | cxpCtlAck (t : Nat) (code : BitVec 8) (a : CtlAck)
  /-- CAMERA_EVENT_PACKET (R114): A CoaXPress event or heartbeat packet is received and logged. -/
  | cameraEventPacket (t : Nat) (p : Fin 32)
  /-- PRBS_LOCK (R129): The camera-port PRBS checker locks after 64 consecutive error-free bits and starts counting. -/
  | prbsLock (t : Nat) (p : PrbsRun)
  /-- PRBS_RELOCK (R129): The checker relocks after 1,024 bits with at least half in error and counts the relock. -/
  | prbsRelock (t : Nat) (p : Fin 32) (bits : Nat) (errs : Nat)
  /-- LEDGER_ENTRY_UNCORRECTABLE (R364): A ledger entry word is read uncorrectable and the safe state is entered with cause 3. -/
  | ledgerEntryUncorrectable (t : Nat) (idx : Fin 131072)
  /-- EMULATED_EDGE_OUT (R407): A queued emulated rising edge is produced when its pulse timing allows, driving A± and taking the edge-report slot. -/
  | emulatedEdgeOut (t : Nat) (e : Fin 2)
  /-- ENCODER_SPEED_TIMEOUT (R404): No step for 100 ms sets the channel's speed to 0. -/
  | encoderSpeedTimeout (t : Nat) (ch : Fin 2)
  /-- ENCODER_SIGNAL_INVALID (R405): A differential level below 200 mV, or a Hall state of 000 or 111, held for 1 µs fails plausibility. -/
  | encoderSignalInvalid (t : Nat) (ch : Fin 2)
  /-- PTP_ANNOUNCE_RECEIVED (R422): An IEEE 1588 Announce message is received, the best master clock comparison runs, and a master is selected or kept. -/
  | ptpAnnounceReceived (t : Nat) (m : AnnounceRx)
  /-- SELF_TEST_CONDITION_FAIL (R58): VIN or REFCLK leaves its self-test window during a run, and the run is discarded without marking or records. -/
  | selfTestConditionFail (t : Nat) (m : CondMeas)
  /-- DRIVER_JUNCTION_COOLED (R410): A thermally switched-off driver's junction falls below 135 °C after its 100 ms and the latch clears under auto_rs. -/
  | driverJunctionCooled (t : Nat) (k : Fin 16)
  deriving DecidableEq, Repr

end Sys2Proof
end

