-- ==== Sys2Proof/Decode.lean ====
section
/-! DEFINITION. The opcode table gives its rows no bits: a command comes from outside as a command, and no word spells one. -/

namespace Sys2Proof

/-- The command a word of the opcode table's numbering spells: none, as no row has bits. -/
def decodeTableWord (_nbits _w : Nat) : Option Instr := none

end Sys2Proof
end

