-- ==== Sys2Proof/Machine/Maps.lean ====
section
/-! DEFINITION. Sparse stores: the operations on key-sorted lists that registers, memories and tables are held in. -/

namespace Sys2Proof.Machine

/-- The value stored under key `k`. -/
def KMap.find {α : Type} : KMap α → Nat → Option α
  | [], _ => none
  | (k', v) :: m, k => if k = k' then some v else KMap.find m k

/-- Store `v` under key `k`, keeping the keys strictly rising. -/
def KMap.put {α : Type} : KMap α → Nat → α → KMap α
  | [], k, v => [(k, v)]
  | (k', v') :: m, k, v =>
    if k = k' then (k, v) :: m else if k < k' then (k, v) :: (k', v') :: m else (k', v') :: KMap.put m k v

/-- Forget key `k`. -/
def KMap.del {α : Type} : KMap α → Nat → KMap α
  | [], _ => []
  | (k', v') :: m, k => if k = k' then KMap.del m k else (k', v') :: KMap.del m k

/-- The value under `k`, or `d` where none is stored. -/
def KMap.getD {α : Type} (m : KMap α) (k : Nat) (d : α) : α :=
  match KMap.find m k with
  | some v => v
  | none => d

/-- Change the value under `k` where one is stored. -/
def KMap.adjust {α : Type} (m : KMap α) (k : Nat) (f : α → α) : KMap α :=
  match KMap.find m k with
  | some v => KMap.put m k (f v)
  | none => m

/-- Lay the entries of `n` over `m`. -/
def KMap.overlay {α : Type} (m : KMap α) : KMap α → KMap α
  | [] => m
  | (k, v) :: n => KMap.overlay (KMap.put m k v) n

/-- Keys below `k` in strictly rising order all the way: the canonical form of a sparse store. -/
def KMap.risingFrom {α : Type} : Nat → KMap α → Bool
  | _, [] => true
  | lo, (k, _) :: m => decide (lo ≤ k) && KMap.risingFrom (k + 1) m

/-- The canonical form: keys strictly rising. -/
def KMap.wf {α : Type} (m : KMap α) : Bool := KMap.risingFrom 0 m

/-- A byte memory: canonical, and no entry equal to what an unlisted address reads as. -/
abbrev Mem := List Host.Cell

/-- What a byte nothing has written reads as. DESIGN CHOICE (log 4): the spec gives memory no reset contents. -/
def Mem.blank : Byte := 0

/-- Read one byte. -/
def Mem.read (m : Mem) (a : Nat) : Byte := KMap.getD m a Mem.blank

/-- Write one byte, keeping the canonical form. -/
def Mem.write (m : Mem) (a : Nat) (v : Byte) : Mem :=
  if v = Mem.blank then KMap.del m a else KMap.put m a v

/-- The canonical form of a byte memory. -/
def Mem.wf (m : Mem) : Bool := KMap.wf m && m.all (fun c => c.2 != Mem.blank)

/-- Read `n` bytes little-endian (R8). -/
def Mem.readLE (m : Mem) (a : Nat) : Nat → Nat
  | 0 => 0
  | n + 1 => (Mem.read m a).toNat + 256 * Mem.readLE m (a + 1) n

/-- Write the low `n` bytes of `v` little-endian (R8). -/
def Mem.writeLE (m : Mem) (a v : Nat) : Nat → Mem
  | 0 => m
  | n + 1 => Mem.writeLE (Mem.write m a (BitVec.ofNat 8 v)) (a + 1) (v / 256) n

/-- Read `n` bytes in address order. -/
def Mem.readBytes (m : Mem) (a n : Nat) : List Byte := (List.range n).map (fun i => Mem.read m (a + i))

/-- Write bytes in address order. -/
def Mem.writeBytes (m : Mem) (a : Nat) : List Byte → Mem
  | [] => m
  | b :: bs => Mem.writeBytes (Mem.write m a b) (a + 1) bs

/-- Zero `n` bytes from `a`: the entries of the range go. -/
def Mem.zero (m : Mem) (a n : Nat) : Mem := m.filter (fun c => !(decide (a ≤ c.1) && decide (c.1 < a + n)))

/-- The entries with keys in `[a, a + n)`. -/
def KMap.within {α : Type} (m : KMap α) (a n : Nat) : KMap α :=
  m.filter (fun c => decide (a ≤ c.1) && decide (c.1 < a + n))

/-- The entries with keys outside `[a, a + n)`. -/
def KMap.without {α : Type} (m : KMap α) (a n : Nat) : KMap α :=
  m.filter (fun c => !(decide (a ≤ c.1) && decide (c.1 < a + n)))

/-- The `i`-th element, or `d`. -/
def nth {α : Type} (l : List α) (i : Nat) (d : α) : α := (l[i]?).getD d

/-- Replace the `i`-th element where there is one. -/
def setNth {α : Type} (l : List α) (i : Nat) (v : α) : List α := l.set i v

/-- The last `n` elements. -/
def keepLast {α : Type} (l : List α) (n : Nat) : List α := l.drop (l.length - n)

end Sys2Proof.Machine
end

