-- ==== Sys2Proof/Machine/Kcg.lean ====
section
/-! DEFINITION. The keyed counter generator (R213): AES-128 of FIPS 197 over a block of step, tid and idx, and the
element hash of the assay digest (R215). -/

namespace Sys2Proof.Machine

/-- The AES S-box, byte `b` at bits `[8b+7 : 8b]` (FIPS 197). -/
def aesSboxBits : Nat :=
  0x16bb54b00f2d99416842e6bf0d89a18cdf2855cee9871e9b948ed9691198f8e19e1dc186b95735610ef6034866b53e708a8bbd4b1f74dde8c6b4a61c2e2578ba08ae7a65eaf4566ca94ed58d6d37c8e779e4959162acd3c25c2406490a3a32e0db0b5ede14b8ee4688902a22dc4f816073195d643d7ea7c41744975fec130ccdd2f3ff1021dab6bcf5389d928f40a351a89f3c507f02f94585334d43fbaaefd0cf584c4a39becb6a5bb1fc20ed00d153842fe329b3d63b52a05a6e1b1a2c830975b227ebe28012079a059618c323c7041531d871f1e5a534ccf73f362693fdb7c072a49cafa2d4adf04759fa7dc982ca76abd7fe2b670130c56f6bf27b777c63

/-- S-box of byte `b`. -/
def aesSbox (b : Nat) : Nat := (aesSboxBits >>> (8 * b)) % 256

/-- Multiplication by x in the field of AES. -/
def aesXtime (b : Nat) : Nat := if b < 128 then 2 * b else Nat.xor (2 * b) 0x11b

/-- Bytes of a number, low byte first. -/
def bytesOf : Nat → Nat → List Nat
  | 0, _ => []
  | n + 1, x => x % 256 :: bytesOf n (x / 256)

/-- Number of a byte list, low byte first. -/
def ofBytes : List Nat → Nat
  | [] => 0
  | b :: bs => b + 256 * ofBytes bs

/-- Byte-wise exclusive or. -/
def xorBytes (a b : List Nat) : List Nat := List.zipWith Nat.xor a b

/-- The next round key from one round key, with its round constant. -/
def aesNextKey (rcon : Nat) (k : List Nat) : List Nat :=
  let w (i : Nat) := (k.drop (4 * i)).take 4
  let last := w 3
  let rot := (last.drop 1 ++ last.take 1).map aesSbox
  let t := xorBytes rot [rcon, 0, 0, 0]
  let w0 := xorBytes (w 0) t
  let w1 := xorBytes (w 1) w0
  let w2 := xorBytes (w 2) w1
  w0 ++ w1 ++ w2 ++ xorBytes (w 3) w2

/-- ShiftRows over SubBytes: byte `i` of the result, the state in column order. -/
def aesSubShift (s : List Nat) : List Nat :=
  (List.range 16).map (fun i => aesSbox (nth s ((i + 4 * (i % 4)) % 16) 0))

/-- MixColumns of one column. -/
def aesMixCol : List Nat → List Nat
  | [a, b, c, d] =>
    let x := Nat.xor
    [x (x (x (aesXtime a) (x (aesXtime b) b)) c) d, x (x (x a (aesXtime b)) (x (aesXtime c) c)) d,
     x (x (x a b) (aesXtime c)) (x (aesXtime d) d), x (x (x (x (aesXtime a) a) b) c) (aesXtime d)]
  | l => l

/-- MixColumns. -/
def aesMix (s : List Nat) : List Nat :=
  aesMixCol (s.take 4) ++ aesMixCol ((s.drop 4).take 4) ++ aesMixCol ((s.drop 8).take 4) ++ aesMixCol (s.drop 12)

/-- The rounds after the first key addition, one per round constant; the last has no MixColumns. -/
def aesRounds : List Nat → List Nat → List Nat → List Nat
  | [], _, s => s
  | [r], k, s => xorBytes (aesSubShift s) (aesNextKey r k)
  | r :: rs, k, s => aesRounds rs (aesNextKey r k) (xorBytes (aesMix (aesSubShift s)) (aesNextKey r k))

/-- AES-128 encryption of a 16-byte block (FIPS 197). -/
def aes128 (key blk : List Nat) : List Nat :=
  aesRounds [0x01, 0x02, 0x04, 0x08, 0x10, 0x20, 0x40, 0x80, 0x1b, 0x36] key (xorBytes blk key)

/-- kcg of R213. -/
def kcg (seed step tid idx : Nat) : Nat :=
  ofBytes (aes128 (bytesOf 16 seed) (bytesOf 6 idx ++ bytesOf 2 tid ++ bytesOf 8 step))

/-- The element hash of R215. -/
def assayHash (tid idx w : Nat) : Nat := kcg 0 (w % 2 ^ 64) tid idx

end Sys2Proof.Machine
end

