-- ==== Sys2Proof/Machine/Formats.lean ====
section
/-! DEFINITION. Number formats (Table 10.1), exact values, the one rounding (R201) and conversions (Tables 10.3, 10.4). -/

namespace Sys2Proof.Machine

/-- A value a format encodes: (−1)^neg × m × 2^e, an infinity, or NaN (R198). -/
inductive Num where
  | fin (neg : Bool) (m : Nat) (e : Int)
  | inf (neg : Bool)
  | nan
  deriving DecidableEq, Repr

/-- A float format: exponent bits, mantissa bits, bias, and whether it has infinities (Table 10.1). -/
structure FloatFmt where
  /-- Exponent bits. -/
  eb : Nat
  /-- Mantissa bits. -/
  mb : Nat
  /-- Bias. -/
  bias : Nat
  /-- It has infinities; E4M3 has none. -/
  hasInf : Bool

/-- The float format of a code (Table 10.1). -/
def floatFmt (f : Nat) : Option FloatFmt :=
  if f = 8 then some ⟨4, 3, 7, false⟩ else if f = 9 then some ⟨5, 2, 15, true⟩
  else if f = 10 then some ⟨5, 10, 15, true⟩ else if f = 11 then some ⟨8, 7, 127, true⟩
  else if f = 12 then some ⟨8, 23, 127, true⟩ else none

/-- The range of an integer format (Table 10.1). -/
def intRange (f : Nat) : Option (Int × Int) :=
  if f = 1 then some (0, 255) else if f = 2 then some (0, 4095) else if f = 3 then some (0, 65535)
  else if f = 4 then some (-8, 7) else if f = 5 then some (-128, 127) else if f = 6 then some (-32768, 32767)
  else if f = 7 then some (-2147483648, 2147483647) else none

/-- Bits of an element; a block element's own bits for B4 and B8 (Table 10.1). -/
def fmtBits (f : Nat) : Nat :=
  if f = 1 ∨ f = 5 ∨ f = 8 ∨ f = 9 ∨ f = 14 then 8 else if f = 2 then 12
  else if f = 3 ∨ f = 6 ∨ f = 10 ∨ f = 11 then 16 else if f = 4 ∨ f = 13 then 4 else if f = 7 ∨ f = 12 then 32
  else if f = 15 then 128 else 0

/-- A signed integer as a finite value. -/
def Num.ofInt (i : Int) : Num := .fin (decide (i < 0)) i.natAbs 0

/-- The value of a float encoding (R198). -/
def FloatFmt.value (f : FloatFmt) (w : Nat) : Num :=
  let neg := w.testBit (f.eb + f.mb)
  let ef := w / 2 ^ f.mb % 2 ^ f.eb
  let mf := w % 2 ^ f.mb
  let top := 2 ^ f.eb - 1
  if f.hasInf && ef == top then (if mf = 0 then .inf neg else .nan)
  else if !f.hasInf && ef == top && mf == 2 ^ f.mb - 1 then .nan
  else if ef = 0 then .fin neg mf (1 - (f.bias : Int) - f.mb)
  else .fin neg (2 ^ f.mb + mf) ((ef : Int) - f.bias - f.mb)

/-- The value of an element's bits in a scalar format (R198). -/
def numOf (f w : Nat) : Num :=
  match floatFmt f with
  | some ff => ff.value w
  | none => if f = 1 ∨ f = 2 ∨ f = 3 then Num.ofInt (w % 2 ^ fmtBits f : Nat) else Num.ofInt (sextI w (fmtBits f))

/-- The canonical NaN of a float format (R199). -/
def FloatFmt.nan (f : FloatFmt) : Nat :=
  if f.hasInf then (2 ^ f.eb - 1) * 2 ^ f.mb + 2 ^ (f.mb - 1) else 2 ^ (f.eb + f.mb) - 1

/-- An infinity of a float format that has them. -/
def FloatFmt.infinity (f : FloatFmt) (neg : Bool) : Nat := b2n neg * 2 ^ (f.eb + f.mb) + (2 ^ f.eb - 1) * 2 ^ f.mb

/-- Magnitude bits of the largest finite value (Table 10.1). -/
def FloatFmt.largest (f : FloatFmt) : Nat := if f.hasInf then (2 ^ f.eb - 1) * 2 ^ f.mb - 1 else 2 ^ (f.eb + f.mb) - 2

/-- Exponent of the last place of the largest finite value. -/
def FloatFmt.topUlp (f : FloatFmt) : Int := (if f.hasInf then (2 ^ f.eb - 2 : Int) else 2 ^ f.eb - 1) - f.bias - f.mb

/-- Significand of the largest finite value, in units of `topUlp`. -/
def FloatFmt.topSig (f : FloatFmt) : Nat := if f.hasInf then 2 ^ (f.mb + 1) - 1 else 2 ^ (f.mb + 1) - 2

/-- m × 2^e ≥ c × 2^k. -/
def dyGe (m : Nat) (e : Int) (c : Nat) (k : Int) : Bool :=
  if k ≤ e then decide (c ≤ m * 2 ^ (e - k).toNat) else decide (c * 2 ^ (k - e).toNat ≤ m)

/-- Round the magnitude m × 2^e of a value of sign `neg` to a multiple of 2^q (Table 10.2): the multiple and whether it
is inexact. `r` is the draw of SR (R211). -/
def roundMul (mode r : Nat) (neg : Bool) (m : Nat) (e q : Int) : Nat × Bool :=
  if q ≤ e then (m * 2 ^ (e - q).toNat, false)
  else
    let u := 2 ^ (q - e).toNat
    let n := m / u
    let rem := m % u
    if rem = 0 then (n, false)
    else
      let up : Bool :=
        if mode = 0 then decide (u < 2 * rem) || (decide (2 * rem = u) && decide (n % 2 = 1))
        else if mode = 1 then false
        else if mode = 2 then !neg
        else if mode = 3 then neg
        else if neg then !decide (2 ^ 32 ≤ (u - rem) * 2 ^ 32 / u + r % 2 ^ 32)
        else decide (2 ^ 32 ≤ rem * 2 ^ 32 / u + r % 2 ^ 32)
      (if up then n + 1 else n, true)

/-- What a rounding or conversion delivers. -/
structure Rounded where
  /-- Encoding. -/
  bits : Nat := 0
  /-- Inexact. -/
  nx : Bool := false
  /-- Overflow or saturation. -/
  ovf : Bool := false
  /-- Tiny: its magnitude lies below the smallest normal value. -/
  tiny : Bool := false
  /-- Invalid: NaN to an integer, infinity to E4M3 (R234). -/
  nv : Bool := false
  deriving DecidableEq, Repr

/-- Finite overflow to a float destination (Table 10.4). -/
def FloatFmt.overflow (f : FloatFmt) (mode : Nat) (neg : Bool) : Nat :=
  let s := b2n neg * 2 ^ (f.eb + f.mb)
  if !f.hasInf then s + f.largest
  else if mode = 1 ∨ (mode = 2 ∧ neg) ∨ (mode = 3 ∧ ¬ neg) then s + f.largest
  else f.infinity neg

/-- Whether a magnitude overflows the format in a mode: for RNE at the midpoint above the largest finite value, else
above that value (Table 10.4). -/
def FloatFmt.overflows (f : FloatFmt) (mode m : Nat) (e : Int) : Bool :=
  if mode = 0 then dyGe m e (2 * f.topSig + 1) (f.topUlp - 1)
  else dyGe m e f.topSig f.topUlp && !dyGe f.topSig f.topUlp m e

/-- Round a finite value to a float format (R201). -/
def FloatFmt.round (f : FloatFmt) (mode r : Nat) (neg : Bool) (m : Nat) (e : Int) : Rounded :=
  let s := b2n neg * 2 ^ (f.eb + f.mb)
  if m = 0 then { bits := s }
  else
    let lg : Int := (Nat.log2 m : Int) + e
    let emin : Int := 1 - (f.bias : Int)
    let q := max lg emin - f.mb
    let tiny := decide (lg < emin)
    if f.overflows mode m e then { bits := f.overflow mode neg, nx := true, ovf := true }
    else
      let (n, nx) := roundMul mode r neg m e q
      let (n, q) := if 2 ^ (f.mb + 1) ≤ n then (n / 2, q + 1) else (n, q)
      let b := if n < 2 ^ f.mb then n else (q + f.mb + f.bias).toNat * 2 ^ f.mb + (n - 2 ^ f.mb)
      { bits := s + b, nx := nx, tiny := tiny }

/-- Round a finite value to an integer, add a zero point and saturate (R201, R211). -/
def roundInt (lo hi : Int) (width mode r : Nat) (neg : Bool) (m : Nat) (e : Int) (z : Int) : Rounded :=
  let (n, nx) := roundMul mode r neg m e 0
  let i : Int := (if neg then -(n : Int) else n) + z
  let y := max lo (min hi i)
  { bits := wrapI y width, nx := nx, ovf := decide (y ≠ i) }

/-- Convert a value to a scalar format under Table 10.3. -/
def convertTo (dst mode r : Nat) (v : Num) : Rounded :=
  match floatFmt dst with
  | some f =>
    match v with
    | .nan => { bits := f.nan }
    | .inf neg => if f.hasInf then { bits := f.infinity neg } else { bits := f.nan, nv := true }
    | .fin neg m e => f.round mode r neg m e
  | none =>
    match intRange dst with
    | none => {}
    | some (lo, hi) =>
      match v with
      | .nan => { bits := 0, nv := true }
      | .inf neg => { bits := wrapI (if neg then lo else hi) (fmtBits dst), ovf := true }
      | .fin neg m e => roundInt lo hi (fmtBits dst) mode r neg m e 0

/-- A conversion event that R234 counts in FSAT, and that a drain or conversion of a crucible counts in sat (R202). -/
def Rounded.counts (r : Rounded) : Bool := r.ovf || r.nv

/-- floor(log2) of the largest magnitude in a block; none for an all-zero block (Table 10.3). -/
def blockTop : List Num → Option Int
  | [] => none
  | .fin _ m e :: l =>
    let r := blockTop l
    if m = 0 then r
    else match r with
      | none => some ((Nat.log2 m : Int) + e)
      | some k => some (max k ((Nat.log2 m : Int) + e))
  | _ :: l => blockTop l

/-- A block holds a NaN or an infinity. -/
def blockBad (l : List Num) : Bool := l.any (fun v => match v with | .fin _ _ _ => false | _ => true)

/-- Convert a block of 32 values to B8 or B4 (Table 10.3): its scale byte and its elements. `draw i` is the SR draw of
element `i`. -/
def toBlock (b4 : Bool) (mode : Nat) (draw : Nat → Nat) (l : List Num) : Nat × List Rounded :=
  if blockBad l then (255, l.map (fun _ => {}))
  else
    let x : Int := match blockTop l with
      | none => 0
      | some k => max 0 (min 254 (k - (if b4 then 2 else 8) + 127))
    let scale (v : Num) : Num := match v with | .fin n m e => .fin n m (e - (x - 127)) | w => w
    (x.toNat, (List.range l.length).map (fun i => convertTo (if b4 then 4 else 8) mode (draw i) (scale (nth l i .nan))))

/-- The value of a block element under its scale byte (R198, R200). -/
def blockNum (b4 : Bool) (x w : Nat) : Num :=
  if x = 255 then .nan
  else match numOf (if b4 then 4 else 8) w with
    | .fin n m e => .fin n m (e + (x : Int) - 127)
    | v => v

end Sys2Proof.Machine
end

