-- ==== Sys2Proof/Config.lean ====
section
/-! DEFINITION. What the spec leaves open: free values (constants with no body, so that no proof can see a
value of them), and the cryptographic functions whose keys no party outside the device can know. Each is named in
the assumption log. -/

namespace Sys2Proof.Config

/-- Word `w` of an event of a code for which the spec gives that word no content (log 2); fresh at each counter value. -/
opaque eventWord : Nat → Nat → Nat → W32

/-- Source, level and block of an event's log record, bits [29:16] of its word 0 (log 2). -/
opaque logOrigin : Nat → Nat → BitVec 14

/-- Whether the console is busy when a record is offered to it (log 2). -/
opaque uartBusy : Nat → Bool

/-- Error of the on-die oscillator in ppm while SERREF is lost (log 2): R466 bounds it to ±5 %. -/
opaque oscillatorPpm : Int

/-- SHA-384 of a byte string, as a 384-bit number (log 3). -/
opaque sha384 : List Byte → BitVec 384

/-- SHA-384 of a list of numbers (records, configurations) in the layout the spec gives them (log 3). -/
opaque sha384Words : List Nat → BitVec 384

/-- The device secret fused at manufacture from on-die entropy (R441; log 3). -/
opaque deviceSecret : BitVec 256

/-- P-384 public key, X then Y, of a private scalar (log 3). -/
opaque p384Public : Nat → BitVec 768

/-- The P-384 signature a private scalar makes over a digest, its nonce by RFC 6979: r then s (log 3). -/
opaque ecdsaSign : Nat → BitVec 384 → BitVec 768

/-- Whether a P-384 signature over a digest verifies under a public key (log 3). -/
opaque ecdsaVerify : BitVec 768 → BitVec 384 → BitVec 768 → Bool

/-- Public key of the Svaset token key (log 3). -/
opaque tokenKey : BitVec 768

/-- The IK certificate in the provisioning area, DER; none where it is absent (R442; log 3). -/
opaque ikCert : Option (List Byte)

/-- The Svaset device CA's certificate, DER (log 3). -/
opaque caCert : List Byte

/-- Public key an X.509 certificate certifies (log 3). -/
opaque certKey : List Byte → BitVec 768

/-- What a certificate that marks a public key for key agreement only has signed (log 3). -/
opaque certBody : BitVec 768 → List Byte

/-- An X.509 certificate of a body and the signature over it (log 3). -/
opaque certOf : List Byte → BitVec 768 → List Byte

/-- A fresh 48-byte nonce (log 3). -/
opaque nonce : Nat → BitVec 384

/-- X coordinate of the P-384 ECDH product of a private scalar with a public point, X then Y (log 3). -/
opaque ecdhX : Nat → BitVec 768 → BitVec 384

/-- AES-256-GCM decryption by key, nonce, additional data, ciphertext and tag: the clear text where the tag passes (log 3). -/
opaque gcmOpen : List Byte → List Byte → List Byte → List Byte → List Byte → Option (List Byte)

/-- What a piece entry of a replay pour's input table says, by its bytes: serial number, class seed, and rows per token, one of the generation
values; R352 names its contents, not its layout (log 116). -/
opaque replayPiece : List Byte → BitVec 48 × BitVec 32 × BitVec 8

/-- The reader SC counts as in `MEM_LAST_UNCORR_SRC` and event word 2, where Tables 9.3 and 9.12 name no number for it (log 115). -/
opaque scReader : BitVec 4

/-- The fixed servo gains kp, ki of a follower's chain entry (log 2): R423 names them and gives no value. -/
opaque chainGains : Nat × Nat

/-- The fettler whose task tile `i` of crucible `c` is allotted to when the FC places it (log 2): R261 does not say. -/
opaque tileFettler : Nat → Nat → Fin 4

/-- What a register that measures timing reads: by its offset and the counter of free values (log 2). -/
opaque measure : Nat → Nat → BitVec 32

/-- A byte of memory whose contents the spec calls undefined, by the counter of free values and its address (log 2). -/
opaque freeByte : Nat → Nat → Byte

/-- Byte `i` of the header of an ROI record, by the values R150 puts there: stream, block, entry index, tag, x, y, w, h, count of the first
row, lost flag; no layout is given (log 31). -/
opaque roiHeader : List Nat → Nat → Byte

/-- Byte `i` of the header of a capture record, by the values R167 puts there: ledger entry, serial number, sample plus 1, generation, lost
flag; no layout is given (log 31). -/
opaque captHeader : List Nat → Nat → Byte

/-- Number of a task's first command on an engine (log 2): R238 numbers the commands and does not say from where. -/
opaque firstTicket : BitVec 32

/-- Boot cause of the restart that ends recovery mode (log 2): R39 names the restart and Table 3.7 no code for it. -/
opaque recoveryCause : BitVec 4

/-- Status code with which a JTAG unlock faults pours and pieces (log 2): R455 names none. -/
opaque debugCause : BitVec 16

/-- Status code recorded as the cause of a piece's corruption where the spec names none (log 2). -/
opaque corruptCause : Nat → BitVec 16

/-- Address of the register that puts a camera into its test mode (log 2): CoaXPress 2.1 defines it, the spec does not. -/
opaque testModeReg : BitVec 32

/-- Cost shown for a refused descriptor whose fields allow none, by its words (log 2): Table 12.13 gives the word no value then. -/
opaque undefCost : List Nat → W32

/-- Lane a gather element names beyond the lanes an index register holds (log 2). -/
opaque gatherIndex : Nat → Nat → W32

/-- Whether a power loss during the write of the boot count leaves the previous value in force (log 2): R55 allows both. -/
opaque countLost : Nat → Bool

end Sys2Proof.Config
end

