-- ==== Sys2Proof/Machine/Codes.lean ====
section
/-! DEFINITION. Status codes (Table 4.9 and each chapter's own table), under the names the spec gives them. -/

namespace Sys2Proof.Machine

/-- order completed. -/
abbrev E_NONE : Nat := 0x0000

/-- a handshake agreed after host loss (event). -/
abbrev E_HOST_ATTACHED : Nat := 0x0001

/-- unassigned opcode. -/
abbrev E_CMD_OPCODE : Nat := 0x1101

/-- reserved bits set or argument out of range. -/
abbrev E_CMD_ARG : Nat := 0x1102

/-- context absent or not host-controllable. -/
abbrev E_CMD_CTX : Nat := 0x1103

/-- QUEUE_BIND misused. -/
abbrev E_CMD_QUEUE : Nat := 0x1104

/-- host loss failed the order or context. -/
abbrev E_HOST_GONE : Nat := 0x1201

/-- event ring overflowed. -/
abbrev E_EVT_LOST : Nat := 0x1203

/-- staged change failed its consistency check. -/
abbrev E_STAGE_CHECK : Nat := 0x1301

/-- cast instant already passed. -/
abbrev E_CAST_PAST : Nat := 0x1302

/-- a cast is already waiting for its instant. -/
abbrev E_CAST_PENDING : Nat := 0x1303

/-- debug write to live registers of a block not quiesced. -/
abbrev E_LIVE_BUSY : Nat := 0x1304

/-- piece truncated by a ROW-scoped cast (R105). -/
abbrev E_CAST_TRUNC : Nat := 0x1305

/-- camera connection lost or failed discovery. -/
abbrev E_CXP_LINK : Nat := 0x2001

/-- CoaXPress packet failed its check. -/
abbrev E_CXP_PACKET : Nat := 0x2002

/-- PoCXP power fault reported. -/
abbrev E_POCXP_FAULT : Nat := 0x2003

/-- rows dropped under R146. -/
abbrev E_BLOCK_TRUNC : Nat := 0x2101

/-- tile structure or codec bits malformed (R151, R152). -/
abbrev E_DECODE_FORMAT : Nat := 0x2102

/-- ROI list committed with more than 256 entries (R149). -/
abbrev E_ROI_LIMIT : Nat := 0x2103

/-- declared size or expansion bound exceeded (R151). -/
abbrev E_DECODE_BOUND : Nat := 0x2104

/-- a piece's segments were voided (R166). -/
abbrev E_SAMPLE_CORRUPT : Nat := 0x2201

/-- a piece reached its class maximum length (R158). -/
abbrev E_PIECE_LENGTH : Nat := 0x2202

/-- a WEB segment was closed by a non-increasing row-trigger count (R156). -/
abbrev E_WEB_REVERSE : Nat := 0x2203

/-- a descriptor failed a check of Table 12.14. -/
abbrev E_DESC_FIELD : Nat := 0x3101

/-- the cost exceeded 50,000 cycles (R273). -/
abbrev E_DESC_COST : Nat := 0x3102

/-- a drain judged a cell outside the 112-bit range (R277). -/
abbrev E_ACC_RANGE : Nat := 0x3103

/-- a fettler trap was not handled by the program (R249). -/
abbrev E_FETTLER_TRAP : Nat := 0x3201

/-- the twin pour comparison found differing digests (R355). -/
abbrev E_TWIN_MISMATCH : Nat := 0x3301

/-- the SCH verifier refused a program; result word 3 gives the reason of Table 15.2 (R319). -/
abbrev E_PROG_VERIFY : Nat := 0x3401

/-- a LINE program's worst-case working set exceeds the moulds and DRAM (R20, R319). -/
abbrev E_PROG_WORKSET : Nat := 0x3402

/-- a read was uncorrectable; the reader acted under Table 9.3 (R181). -/
abbrev E_MEM_UNCORR : Nat := 0x4101

/-- a translation fault was unresolvable (R185). -/
abbrev E_XLATE_FAULT : Nat := 0x4201

/-- a ladle descriptor was refused or a transfer aborted (R189, R191). -/
abbrev E_LADLE_ABORT : Nat := 0x4202

/-- an admission attempt failed; word 3 gives the reason of Table 14.2 (R310). -/
abbrev E_KV_REFUSED : Nat := 0x4301

/-- a piece reached its deadline without a verdict code (R367). -/
abbrev E_DEADLINE_LATE : Nat := 0x5101

/-- a tap order's fire count passed before Ronyr accepted it (R376). -/
abbrev E_TAP_LATE : Nat := 0x5102

/-- no free ledger entry at a leading edge (R363). -/
abbrev E_LEDGER_FULL : Nat := 0x5103

/-- a rule section failed its load checks (R373). -/
abbrev E_RULE_PROGRAM : Nat := 0x5104

/-- the journal overwrote a block younger than the retention (R384). -/
abbrev E_JOURNAL_FULL : Nat := 0x5201

/-- L+ below 17 V (R411). -/
abbrev E_FIELD_SUPPLY : Nat := 0x6101

/-- overload (word 3 = 1) or over-temperature (word 3 = 2) switch-off (R410). -/
abbrev E_OUT_OVERLOAD : Nat := 0x6102

/-- open wire, off state or on state (R413). -/
abbrev E_OUT_OPEN : Nat := 0x6103

/-- output stuck on or stuck off (R412). -/
abbrev E_OUT_READBACK : Nat := 0x6104

/-- input current below 0.35 mA for 10 ms (R409). -/
abbrev E_IN_WIREBREAK : Nat := 0x6201

/-- a check of Table 18.5 failed; word 3 the reason (R405). -/
abbrev E_ENC_PLAUSIBILITY : Nat := 0x6301

/-- no valid frame for 1,000 µs (R392). -/
abbrev E_BARRIER_HB : Nat := 0x6401

/-- a tap order found the queue full (R396). -/
abbrev E_TAPQ_FULL : Nat := 0x6402

/-- a bundle's signature failed, or its signer is not the owner (R448). -/
abbrev E_BUNDLE_SIG : Nat := 0x7101

/-- a bundle is addressed to another device, or failed its GCM tag (R448). -/
abbrev E_BUNDLE_DECRYPT : Nat := 0x7102

/-- a BAR2 access was refused (R77, R451). -/
abbrev E_BAR2_DENIED : Nat := 0x7201

/-- a token was refused; word 3 gives the reason (R454). -/
abbrev E_DEBUG_TOKEN : Nat := 0x7301

/-- the security fault state was entered (R457). -/
abbrev E_SEC_FAULT : Nat := 0x7401

/-- self-test conditions not met after ten checks, or SERREF absent (R58, R59). -/
abbrev E_BIST_COND : Nat := 0x8101

/-- self-test found at least one failure not repaired (R62). -/
abbrev E_BIST_FAIL : Nat := 0x8102

/-- fewer than 24 flasks passed, or a failure outside the flasks (R63). -/
abbrev E_GRADE_NONE : Nat := 0x8103

/-- the NOR image failed verification (R56). -/
abbrev E_IMAGE_VERIFY : Nat := 0x8104

/-- an element of the newest retained record failed its check (R65). -/
abbrev E_RESTORE_CHECK : Nat := 0x8105

/-- no complete retained record; factory state in force (R67). -/
abbrev E_RESTORE_NONE : Nat := 0x8106

/-- handshake refused (R70). -/
abbrev E_HIV_MISMATCH : Nat := 0x8110

/-- SC mailbox command started before a handshake agreed (R71); the command window is not collected before agreement. -/
abbrev E_HIV_NONE : Nat := 0x8111

/-- a flask controller was reset by its watchdog; word 3: 1 restart (R480), 2 flask retired (R482). -/
abbrev E_WDOG_FC : Nat := 0x8201

/-- SCH was reset by its watchdog (R484). -/
abbrev E_WDOG_SCH : Nat := 0x8202

/-- PMC was reset by its watchdog (R486). -/
abbrev E_WDOG_PMC : Nat := 0x8203

/-- SC was reset by its watchdog. -/
abbrev E_WDOG_SC : Nat := 0x8204

/-- a power-fail warning was latched (R475). -/
abbrev E_PWR_FAIL : Nat := 0x9101

/-- thermal throttling began (R465). -/
abbrev E_THERMAL_THROTTLE : Nat := 0x9102

/-- the junction reached 115 °C (Table 21.5). -/
abbrev E_THERMAL_SAFE : Nat := 0x9103

/-- SERREF was lost or out of range (R466). -/
abbrev E_CLOCK_LOSS : Nat := 0x9104

/-- the device safe state was entered; word 3 gives the causes (R471). -/
abbrev E_SAFE_STATE : Nat := 0x9201

/-- serial lane retrained. -/
abbrev E_LANE_RETRAIN : Nat := 0xA001

/-- PCIe link left L0. -/
abbrev E_PCIE_DOWN : Nat := 0xA101

/-- word 2 port or device; word 3: 1 port down after failed training (Table 6.5); 2 alignment withdrawn (R434); 3 port held (R426); 4 device unreachable (R433). -/
abbrev E_NLX_DOWN : Nat := 0xA201

/-- a step above the threshold was refused (R421). -/
abbrev E_PTP_STEP_REFUSED : Nat := 0xA301

/-- the announce receipt timeout passed (R422). -/
abbrev E_PTP_MASTER_LOST : Nat := 0xA302

/-- The status codes of Table 4.9: no other value is reported (R92). -/
def codeTable : List Nat :=
  [E_NONE, E_HOST_ATTACHED, E_CMD_OPCODE, E_CMD_ARG, E_CMD_CTX, E_CMD_QUEUE,
   E_HOST_GONE, E_EVT_LOST, E_STAGE_CHECK, E_CAST_PAST, E_CAST_PENDING, E_LIVE_BUSY,
   E_CAST_TRUNC, E_CXP_LINK, E_CXP_PACKET, E_POCXP_FAULT, E_BLOCK_TRUNC, E_DECODE_FORMAT,
   E_ROI_LIMIT, E_DECODE_BOUND, E_SAMPLE_CORRUPT, E_PIECE_LENGTH, E_WEB_REVERSE, E_DESC_FIELD,
   E_DESC_COST, E_ACC_RANGE, E_FETTLER_TRAP, E_TWIN_MISMATCH, E_PROG_VERIFY, E_PROG_WORKSET,
   E_MEM_UNCORR, E_XLATE_FAULT, E_LADLE_ABORT, E_KV_REFUSED, E_DEADLINE_LATE, E_TAP_LATE,
   E_LEDGER_FULL, E_RULE_PROGRAM, E_JOURNAL_FULL, E_FIELD_SUPPLY, E_OUT_OVERLOAD, E_OUT_OPEN,
   E_OUT_READBACK, E_IN_WIREBREAK, E_ENC_PLAUSIBILITY, E_BARRIER_HB, E_TAPQ_FULL, E_BUNDLE_SIG,
   E_BUNDLE_DECRYPT, E_BAR2_DENIED, E_DEBUG_TOKEN, E_SEC_FAULT, E_BIST_COND, E_BIST_FAIL,
   E_GRADE_NONE, E_IMAGE_VERIFY, E_RESTORE_CHECK, E_RESTORE_NONE, E_HIV_MISMATCH, E_HIV_NONE,
   E_WDOG_FC, E_WDOG_SCH, E_WDOG_PMC, E_WDOG_SC, E_PWR_FAIL, E_THERMAL_THROTTLE,
   E_THERMAL_SAFE, E_CLOCK_LOSS, E_SAFE_STATE, E_LANE_RETRAIN, E_PCIE_DOWN, E_NLX_DOWN,
   E_PTP_STEP_REFUSED, E_PTP_MASTER_LOST]

/-- A status code where the spec names none: which one of the table it is stays open (log 2). -/
def openCode (n : Nat) : Nat := (codeTable[n % codeTable.length]?).getD 0

end Sys2Proof.Machine
end

