-- ==== Sys2Proof/Machine/Regs.lean ====
section
/-! DEFINITION. BAR0 addresses of the registers (Table 4.2 with each block's register table) and
indices of Ronyr's registers (Table 18.8), under the names the spec gives them. -/

namespace Sys2Proof.Machine.R

/-- product identifier (Table 3.5). -/
abbrev GLB_ID : Nat := 0x0

/-- grade in force; Table 3.6 (Table 3.5). -/
abbrev GLB_GRADE : Nat := 0x4

/-- image version from the verified header (Table 3.5). -/
abbrev GLB_FW_VERSION : Nat := 0x8

/-- [15:8] HIV major, [7:0] HIV minor of the firmware; [31:16] reserved (Table 3.5). -/
abbrev GLB_HIV_DEV : Nat := 0xc

/-- handshake request; Table 3.8 (Table 3.5). -/
abbrev GLB_HIV_HOST : Nat := 0x10

/-- handshake result; Table 3.8 (Table 3.5). -/
abbrev GLB_HIV_STATUS : Nat := 0x14

/-- boot phase, cause and code; Table 3.7 (Table 3.5). -/
abbrev GLB_BOOT_STATUS : Nat := 0x18

/-- [0] FACTORY#, [1] STRICT_BIST#, [2] HOSTLESS#, [3] RECOVERY#, each 1 when asser... (Table 3.5). -/
abbrev GLB_STRAPS : Nat := 0x1c

/-- bit n = 1: flask n was tested and passed (Table 3.5). -/
abbrev GLB_FLASK_PASS : Nat := 0x20

/-- bit n = 1: flask n is in use (Table 3.5). -/
abbrev GLB_FLASK_USED : Nat := 0x24

/-- [0] fail; [1] cond; [2] overflow; [15:8] number of records; [31:16] reserved (Table 3.5). -/
abbrev GLB_BIST_SUMMARY : Nat := 0x28

/-- configuration generation restored; 0 in the factory state (Table 3.5). -/
abbrev GLB_RESTORE_GEN : Nat := 0x2c

/-- number of ROM starts since manufacture; factory value: unchanged (Table 3.5). -/
abbrev GLB_BOOT_COUNT : Nat := 0x30

/-- bit n = 1: flask n is fused off by the grade fuses; read from the fuses at ROM start (Table 3.5). -/
abbrev GLB_FLASK_FUSED : Nat := 0x34

/-- self-test record n, n = 0–127, four words; Table 3.3 (Table 3.5). -/
abbrev GLB_BIST_REC (n : Nat) : Nat := 0x100 + 0x10 * n

/-- 16 queues × 256 slots × 64 B (R79) (Table 4.7). -/
abbrev CMD_WINDOW : Nat := 0x200000

/-- host heartbeat; any change counts (R87) (Table 4.7). -/
abbrev CMD_HOST_HB : Nat := 0x240000

/-- [1:0] 0 NONE, 1 ATTACHED, 2 GONE; [31:2] reserved (Table 4.7). -/
abbrev CMD_HOST_STATE : Nat := 0x240004

/-- number of ATTACHED-to-GONE transitions since boot (Table 4.7). -/
abbrev CMD_HOST_LOSSES : Nat := 0x240008

/-- [7:0] next slot SCH reads; [23:8] expected seq; [24] enabled; [28:25] result ring; q = ... (Table 4.7). -/
abbrev CMD_Q_HEAD (q : Nat) : Nat := 0x240010 + 0x4 * q

/-- [15:0] index of the next entry the host will read, result ring r = 0–7 (Table 4.7). -/
abbrev CMD_RR_HEAD (r : Nat) : Nat := 0x240100 + 0x4 * r

/-- [15:0] same for the event ring (Table 4.7). -/
abbrev CMD_EVT_HEAD : Nat := 0x240120

/-- events dropped on a full event ring since boot (Table 4.7). -/
abbrev CMD_EVT_LOST : Nat := 0x240124

/-- entries held in the backlog (Table 4.7). -/
abbrev CMD_BACKLOG : Nat := 0x240128

/-- [15:0] code; [19:16] queue; [31:20] low 12 bits of seq (Table 4.7). -/
abbrev CMD_LAST_REFUSAL : Nat := 0x24012c

/-- SCH ticks since boot, 64-bit (Table 4.7). -/
abbrev CMD_TICKS : Nat := 0x240130

/-- [2:0] op (Table 5.1; reads 0 once taken); [5:4] mode: 0 immediate, 1 time, 2 count; [6]... (Table 5.5). -/
abbrev STG_CTRL : Nat := 0x100000

/-- [2:0] state: 0 IDLE, 1 CHECKING, 2 PENDING, 3 DONE, 4 REFUSED; [3] cancel_late; [4] dbg... (Table 5.5). -/
abbrev STG_STATUS : Nat := 0x100004

/-- N, 48 bits in two words; [63:48] reserved (Table 5.5). -/
abbrev STG_CAST_COUNT : Nat := 0x100008

/-- T: seconds, 64 bits at 0x0010–0x0014; nanoseconds, 32 bits at 0x0018 (Table 5.5). -/
abbrev STG_CAST_TIME : Nat := 0x100010

/-- minimum lead in counts, at least 256 (R102) (Table 5.5). -/
abbrev STG_CAST_LEAD : Nat := 0x100020

/-- generation of the live configuration; in the factory state, the generation of the newes... (Table 5.5). -/
abbrev STG_GEN_LIVE : Nat := 0x100024

/-- generation the pending cast will create; 0 when none (Table 5.5). -/
abbrev STG_GEN_PENDING : Nat := 0x100028

/-- generation of the newest complete retained record (Table 5.5). -/
abbrev STG_GEN_RETAINED : Nat := 0x10002c

/-- [15:0] dirty Cuette registers; [31:16] dirty RNY_ registers (Table 5.5). -/
abbrev STG_DIRTY_COUNT : Nat := 0x100030

/-- [7:0] reason (Table 5.2); [13:8] block (Table 5.6); [31:14] reserved (Table 5.5). -/
abbrev STG_CHECK_RESULT : Nat := 0x100034

/-- BAR0 offset of the first failing register; bit 31 set: RNY_ index in [15:0] (Table 5.5). -/
abbrev STG_CHECK_ADDR : Nat := 0x100038

/-- [3:0] generations in use, live one included (R107) (Table 5.5). -/
abbrev STG_GENS_OPEN : Nat := 0x10003c

/-- BAR0 offset, or RNY_ index with bit 31 set, of a staged register (Table 5.5). -/
abbrev STG_PEEK_ADDR : Nat := 0x100040

/-- shadow value at STG_PEEK_ADDR; live value if the register is not dirty (Table 5.5). -/
abbrev STG_PEEK_DATA : Nat := 0x100044

/-- [5:0] block (Table 5.6); [8] request quiesce; [31:9] reserved (Table 5.5). -/
abbrev STG_QUIESCE : Nat := 0x100048

/-- [0] the block named in STG_QUIESCE is quiesced (Table 5.5). -/
abbrev STG_QUIESCED : Nat := 0x10004c

/-- BAR0 offset of the live register for a debug write (Table 5.5). -/
abbrev STG_DBG_ADDR : Nat := 0x100050

/-- writing performs the debug write (R109) (Table 5.5). -/
abbrev STG_DBG_DATA : Nat := 0x100054

/-- count mirror at the last cast, 48 bits in two words (Table 5.5). -/
abbrev STG_LAST_COUNT : Nat := 0x100058

/-- device time of the last cast: seconds at 0x0060–0x0064, nanoseconds at 0x0068 (Table 5.5). -/
abbrev STG_LAST_TIME : Nat := 0x100060

/-- pieces of the last cast found truncated so far; increases until every piece open at its... (Table 5.5). -/
abbrev STG_TRUNCATED : Nat := 0x10006c

/-- staged and debug writes ignored since boot (R94, R109) (Table 5.5). -/
abbrev STG_IGNORED : Nat := 0x100070

/-- port and camera composition; Table 6.8 (Table 6.6). -/
abbrev CXP_PORT_CFG (p : Nat) : Nat := 0x3200000 + 0x100 * p

/-- receive equalisation; Table 6.8 (Table 6.6). -/
abbrev CXP_RXEQ_CFG (p : Nat) : Nat := 0x3200004 + 0x100 * p

/-- trigger source; Table 6.8 (Table 6.6). -/
abbrev CXP_TRIG_CFG (p : Nat) : Nat := 0x3200008 + 0x100 * p

/-- Table 6.8 (Table 6.6). -/
abbrev CXP_PORT_STAT (p : Nat) : Nat := 0x3200020 + 0x100 * p

/-- [3:0] linear setting in use; [31:4] reserved (Table 6.6). -/
abbrev CXP_RXEQ_STAT (p : Nat) : Nat := 0x3200024 + 0x100 * p

/-- 8b/10b errors, saturating (Table 6.6). -/
abbrev CXP_CODE_ERR (p : Nat) : Nat := 0x3200028 + 0x100 * p

/-- packets failing their check, saturating (Table 6.6). -/
abbrev CXP_PKT_ERR (p : Nat) : Nat := 0x320002c + 0x100 * p

/-- triggers sent (master port) (Table 6.6). -/
abbrev CXP_TRIG_SENT (p : Nat) : Nat := 0x3200030 + 0x100 * p

/-- triggers dropped (R121, R122) (Table 6.6). -/
abbrev CXP_TRIG_DROP (p : Nat) : Nat := 0x3200034 + 0x100 * p

/-- bring-up attempts since boot (Table 6.6). -/
abbrev CXP_REDISC (p : Nat) : Nat := 0x3200038 + 0x100 * p

/-- Table 6.8 (Table 6.6). -/
abbrev CXP_PRBS_CTRL (p : Nat) : Nat := 0x3200040 + 0x100 * p

/-- [0] locked; [1] inactive; [15:8] relocks, saturating; [31:16] reserved (Table 6.6). -/
abbrev CXP_PRBS_STAT (p : Nat) : Nat := 0x3200044 + 0x100 * p

/-- bit errors since lock, saturating (Table 6.6). -/
abbrev CXP_PRBS_ERR (p : Nat) : Nat := 0x3200048 + 0x100 * p

/-- bits checked, 64-bit (Table 6.6). -/
abbrev CXP_PRBS_BITS (p : Nat) : Nat := 0x3200050 + 0x100 * p

/-- Table 6.8 (Table 6.6). -/
abbrev CXP_STREAM_MAP (s : Nat) : Nat := 0x3202000 + 0x4 * s

/-- bit k: enable k as last shifted out (Table 6.6). -/
abbrev CXP_POCXP_ON : Nat := 0x3202100

/-- bit k: latched fault; writing 1 clears and starts bring-up (R120) (Table 6.6). -/
abbrev CXP_POCXP_FAULT : Nat := 0x3202104

/-- [4:0] master port; [5] 1 write, 0 read; [6] go (W1S, cleared when taken); [31:7] reserved (Table 6.6). -/
abbrev CXP_CTL_CMD : Nat := 0x3202200

/-- camera register address (Table 6.6). -/
abbrev CXP_CTL_ADDR : Nat := 0x3202204

/-- write data; read result (Table 6.6). -/
abbrev CXP_CTL_DATA : Nat := 0x3202208

/-- [1:0] 0 idle, 1 busy, 2 done, 3 failed; [15:8] acknowledgement code from the camera; [3... (Table 6.6). -/
abbrev CXP_CTL_STAT : Nat := 0x320220c

/-- [8:0] entries 0–256; factory 0 (Table 6.6). -/
abbrev CXP_INIT_LEN (c : Nat) : Nat := 0x3202300 + 0x4 * c

/-- word 0 camera register address, word 1 value; factory 0 (Table 6.6). -/
abbrev CXP_INIT (c i : Nat) : Nat := 0x3210000 + 0x800 * c + 0x8 * i

/-- Table 6.8 (Table 6.6). -/
abbrev CXP_EYE_CTRL : Nat := 0x3220000

/-- Table 6.8 (Table 6.6). -/
abbrev CXP_EYE_PHASE : Nat := 0x3220004

/-- Table 6.8 (Table 6.6). -/
abbrev CXP_EYE_VOLT : Nat := 0x3220008

/-- Table 6.8 (Table 6.6). -/
abbrev CXP_EYE_STAT : Nat := 0x322000c

/-- result word n = 0–4,095; Table 6.3 (Table 6.6). -/
abbrev CXP_EYE_RES (n : Nat) : Nat := 0x3221000 + 0x4 * n

/-- Table 6.8 (Table 6.7). -/
abbrev LNK_NLX_TXEQ (l : Nat) : Nat := 0x3610000 + 0x100 * l

/-- layout of CXP_RXEQ_CFG (Table 6.7). -/
abbrev LNK_NLX_RXEQ (l : Nat) : Nat := 0x3610004 + 0x100 * l

/-- Table 6.8 (Table 6.7). -/
abbrev LNK_NLX_LANE_STAT (l : Nat) : Nat := 0x3610020 + 0x100 * l

/-- taps in use, layout of LNK_NLX_TXEQ [15:0] (Table 6.7). -/
abbrev LNK_NLX_TXEQ_USE (l : Nat) : Nat := 0x3610024 + 0x100 * l

/-- check-block bit errors, saturating (R128) (Table 6.7). -/
abbrev LNK_NLX_CHK_ERR (l : Nat) : Nat := 0x3610028 + 0x100 * l

/-- invalid sync headers, saturating (Table 6.7). -/
abbrev LNK_NLX_HDR_ERR (l : Nat) : Nat := 0x361002c + 0x100 * l

/-- check bits compared, 64-bit (Table 6.7). -/
abbrev LNK_NLX_CHK_BITS (l : Nat) : Nat := 0x3610030 + 0x100 * l

/-- retrains since boot (Table 6.7). -/
abbrev LNK_NLX_RETRAINS (l : Nat) : Nat := 0x3610038 + 0x100 * l

/-- [0] idle_en, factory 1; [15:8] idle_delay in µs, 1–255, factory 10; [31:16] retrain_thr... (Table 6.7). -/
abbrev LNK_NLX_LANE_CFG : Nat := 0x3610800

/-- [2:0] rate: 0 2.5, 1 5, 2 8, 3 16, 4 32 GT/s; [6:3] transmitter preset in use; [7] lane... (Table 6.7). -/
abbrev LNK_PCIE_LANE_STAT (j : Nat) : Nat := 0x3611000 + 0x100 * j

/-- [0] locked; [1] 2500BASE-X; [31:16] symbol errors, saturating (Table 6.7). -/
abbrev LNK_PLT_LANE_STAT : Nat := 0x3612000

/-- lane 0–7 Nolox, 8–15 PCIe 0–7, 16 plant (Table 6.7). -/
abbrev LNK_EYE_CTRL : Nat := 0x3618000

/-- lane 0–7 Nolox, 8–15 PCIe 0–7, 16 plant (Table 6.7). -/
abbrev LNK_EYE_PHASE : Nat := 0x3618004

/-- lane 0–7 Nolox, 8–15 PCIe 0–7, 16 plant (Table 6.7). -/
abbrev LNK_EYE_VOLT : Nat := 0x3618008

/-- lane 0–7 Nolox, 8–15 PCIe 0–7, 16 plant (Table 6.7). -/
abbrev LNK_EYE_STAT : Nat := 0x361800c

/-- result word n = 0–4,095 (Table 6.7). -/
abbrev LNK_EYE_RES (n : Nat) : Nat := 0x3619000 + 0x4 * n

/-- source and formats; Table 7.9 (Table 7.8). -/
abbrev RUN_SRC (r k : Nat) : Nat := 0x03000000 + 0x10000 * r + 0x0 + 0x400 * k

/-- [15:0] width 1–16,384, factory 4,096; [31:16] maxlines 1–4,096, factory 64 (Table 7.8). -/
abbrev RUN_GEOM (r k : Nat) : Nat := 0x03000000 + 0x10000 * r + 0x4 + 0x400 * k

/-- [0] lin_en, factory 0; [2:1] E − 1, factory 0; [31:3] reserved (Table 7.8). -/
abbrev RUN_LIN (r k : Nat) : Nat := 0x03000000 + 0x10000 * r + 0x8 + 0x400 * k

/-- [15:0] sat, factory 65,535; [31:16] reserved (Table 7.8). -/
abbrev RUN_MERGE_SAT (r k : Nat) : Nat := 0x03000000 + 0x10000 * r + 0xc + 0x400 * k

/-- [15:0] gain[0]; [31:16] gain[1]; 8 fraction bits; factory 0x0100 each (Table 7.8). -/
abbrev RUN_MERGE_GAIN01 (r k : Nat) : Nat := 0x03000000 + 0x10000 * r + 0x10 + 0x400 * k

/-- [15:0] gain[2]; [31:16] gain[3]; factory 0x0100 each (Table 7.8). -/
abbrev RUN_MERGE_GAIN23 (r k : Nat) : Nat := 0x03000000 + 0x10000 * r + 0x14 + 0x400 * k

/-- [0] ff_en; [1] def_en; [12:2] ndef 0–1,024; factory 0 (Table 7.8). -/
abbrev RUN_FF (r k : Nat) : Nat := 0x03000000 + 0x10000 * r + 0x18 + 0x400 * k

/-- [13:0] x0, factory 0; [30:16] cw, factory 4,096; [15:14], [31] reserved (Table 7.8). -/
abbrev RUN_CROP (r k : Nat) : Nat := 0x03000000 + 0x10000 * r + 0x1c + 0x400 * k

/-- Table 7.9 (Table 7.8). -/
abbrev RUN_BIN (r k : Nat) : Nat := 0x03000000 + 0x10000 * r + 0x20 + 0x400 * k

/-- slope, signed, 16 fraction bits; factory 0 (Table 7.8). -/
abbrev RUN_DESKEW (r k : Nat) : Nat := 0x03000000 + 0x10000 * r + 0x24 + 0x400 * k

/-- [47:0] SYSTEM-context address, 256-byte aligned; two words; factory 0 (Table 7.8). -/
abbrev RUN_TBL_ADDR (r k : Nat) : Nat := 0x03000000 + 0x10000 * r + 0x28 + 0x400 * k

/-- [10:0] ring size in MiB, 0–1,024; factory 0 (Table 7.8). -/
abbrev RUN_TM_SIZE (r k : Nat) : Nat := 0x03000000 + 0x10000 * r + 0x30 + 0x400 * k

/-- [15:0] µs, 1–65,535; factory 1,000 (Table 7.8). -/
abbrev RUN_BLK_TIMEOUT (r k : Nat) : Nat := 0x03000000 + 0x10000 * r + 0x34 + 0x400 * k

/-- maximum declared tile size in bits; factory 0 (Table 7.8). -/
abbrev RUN_DEC_MAX (r k : Nat) : Nat := 0x03000000 + 0x10000 * r + 0x38 + 0x400 * k

/-- [47:0] feed ring address, 32-byte aligned; two words (Table 7.8). -/
abbrev RUN_FEED_BASE (r k : Nat) : Nat := 0x03000000 + 0x10000 * r + 0x40 + 0x400 * k

/-- [4:0] log2 entries 4–16; [11:8] ctx; factory 0 (Table 7.8). -/
abbrev RUN_FEED_CFG (r k : Nat) : Nat := 0x03000000 + 0x10000 * r + 0x48 + 0x400 * k

/-- Table 7.9 (Table 7.8). -/
abbrev RUN_TAP_CFG (r k : Nat) : Nat := 0x03000000 + 0x10000 * r + 0x50 + 0x400 * k

/-- [47:0] tap ring address, 4 KiB aligned; two words (Table 7.8). -/
abbrev RUN_TAP_BASE (r k : Nat) : Nat := 0x03000000 + 0x10000 * r + 0x58 + 0x400 * k

/-- [12:0] MiB 1–8,191; factory 1 (Table 7.8). -/
abbrev RUN_TAP_SIZE (r k : Nat) : Nat := 0x03000000 + 0x10000 * r + 0x60 + 0x400 * k

/-- [0] en; [5:1] flask; [6] src: 0 T2, 1 T1; factory 0 (Table 7.8). -/
abbrev RUN_ROI_CFG (r k : Nat) : Nat := 0x03000000 + 0x10000 * r + 0x68 + 0x400 * k

/-- [12:0] mould offset in KiB; [28:16] size in KiB, 4–6,144; offset + size ≤ 6,144 (Table 7.8). -/
abbrev RUN_ROI_RING (r k : Nat) : Nat := 0x03000000 + 0x10000 * r + 0x6c + 0x400 * k

/-- [15:0] next descriptor index the agent writes (Table 7.8). -/
abbrev RUN_FEED_TAIL (r k : Nat) : Nat := 0x03000000 + 0x10000 * r + 0x100 + 0x400 * k

/-- [15:0] next descriptor index the runner reads (Table 7.8). -/
abbrev RUN_FEED_HEAD (r k : Nat) : Nat := 0x03000000 + 0x10000 * r + 0x104 + 0x400 * k

/-- consumer byte offset in the tap ring (consumer mode) (Table 7.8). -/
abbrev RUN_TAP_RD (r k : Nat) : Nat := 0x03000000 + 0x10000 * r + 0x108 + 0x400 * k

/-- byte offset of the next record (Table 7.8). -/
abbrev RUN_TAP_WR (r k : Nat) : Nat := 0x03000000 + 0x10000 * r + 0x10c + 0x400 * k

/-- [9:0] entries; [16] buf (Table 7.8). -/
abbrev RUN_ROI_COUNT (r k : Nat) : Nat := 0x03000000 + 0x10000 * r + 0x110 + 0x400 * k

/-- target block number; a write commits (R149) (Table 7.8). -/
abbrev RUN_ROI_COMMIT (r k : Nat) : Nat := 0x03000000 + 0x10000 * r + 0x114 + 0x400 * k

/-- consumer byte offset in the ROI ring (Table 7.8). -/
abbrev RUN_ROI_HEAD (r k : Nat) : Nat := 0x03000000 + 0x10000 * r + 0x118 + 0x400 * k

/-- [1:0] 0 OFF, 1 WAIT, 2 RUN; [2] bank in use; [3] other bank free; [31:4] reserved (Table 7.8). -/
abbrev RUN_STAT (r k : Nat) : Nat := 0x03000000 + 0x10000 * r + 0x200 + 0x400 * k

/-- blocks entered, dropped ones included (Table 7.8). -/
abbrev RUN_BLOCKS (r k : Nat) : Nat := 0x03000000 + 0x10000 * r + 0x204 + 0x400 * k

/-- truncations (R147) (Table 7.8). -/
abbrev RUN_TRUNC (r k : Nat) : Nat := 0x03000000 + 0x10000 * r + 0x208 + 0x400 * k

/-- rows dropped, including R144 losses (Table 7.8). -/
abbrev RUN_ROWS_DROP (r k : Nat) : Nat := 0x03000000 + 0x10000 * r + 0x20c + 0x400 * k

/-- through-memory ring occupancy in KiB (Table 7.8). -/
abbrev RUN_TM_FILL (r k : Nat) : Nat := 0x03000000 + 0x10000 * r + 0x210 + 0x400 * k

/-- tap records dropped (Table 7.8). -/
abbrev RUN_TAP_DROP (r k : Nat) : Nat := 0x03000000 + 0x10000 * r + 0x214 + 0x400 * k

/-- ROI lists discarded as late (Table 7.8). -/
abbrev RUN_ROI_LATE (r k : Nat) : Nat := 0x03000000 + 0x10000 * r + 0x218 + 0x400 * k

/-- ROIs dropped on a full ring (Table 7.8). -/
abbrev RUN_ROI_DROP (r k : Nat) : Nat := 0x03000000 + 0x10000 * r + 0x21c + 0x400 * k

/-- tiles refused (Table 7.8). -/
abbrev RUN_DEC_REFUSED (r k : Nat) : Nat := 0x03000000 + 0x10000 * r + 0x220 + 0x400 * k

/-- [7:0] reason (Table 7.5); [31:8] low 24 bits of block number (Table 7.8). -/
abbrev RUN_LAST_TRUNC (r k : Nat) : Nat := 0x03000000 + 0x10000 * r + 0x224 + 0x400 * k

/-- [7:0] slot 0 busy %, [15:8] all slots busy %, over the last 1 ms (Table 7.8). -/
abbrev RUN_LOAD (r : Nat) : Nat := 0x03000000 + 0x10000 * r + 0x1000

/-- ROI entry i = 0–255 of buffer b; Table 7.6 (Table 7.8). -/
abbrev RUN_ROI_LIST (r k b i : Nat) : Nat := 0x03000000 + 0x10000 * r + 0x4000 + 0x1000 * k + 0x800 * b + 0x8 * i

/-- Table 8.5 (Table 8.4). -/
abbrev RUN_SEG_CFG (r k : Nat) : Nat := 0x03000000 + 0x10000 * r + 0x8000 + 0x1000 * k

/-- [23:0] len in counts, 1–16,777,215, factory 10,000; [29:24] class; [31:30] reserved (Table 8.4). -/
abbrev RUN_SEG_LEN (r k : Nat) : Nat := 0x03000000 + 0x10000 * r + 0x8004 + 0x1000 * k

/-- [47:0] WEB origin count; two words; factory 0 (Table 8.4). -/
abbrev RUN_SEG_ORIGIN (r k : Nat) : Nat := 0x03000000 + 0x10000 * r + 0x8008 + 0x1000 * k

/-- lane j = 0–15, three words; Table 8.5 (Table 8.4). -/
abbrev RUN_LANE (r k j : Nat) : Nat := 0x03000000 + 0x10000 * r + 0x8100 + 0x1000 * k + 0x10 * j

/-- stripe i = 0–15, three words; Table 8.5 (Table 8.4). -/
abbrev RUN_STRIPE (r k i : Nat) : Nat := 0x03000000 + 0x10000 * r + 0x8400 + 0x1000 * k + 0x10 * i

/-- edge record, 64-bit (R157) (Table 8.4). -/
abbrev RUN_SEG_POST (r k : Nat) : Nat := 0x03000000 + 0x10000 * r + 0x8800 + 0x1000 * k

/-- pieces open (Table 8.4). -/
abbrev RUN_SEG_OPEN (r k : Nat) : Nat := 0x03000000 + 0x10000 * r + 0x8810 + 0x1000 * k

/-- pieces opened since boot (Table 8.4). -/
abbrev RUN_SEG_PIECES (r k : Nat) : Nat := 0x03000000 + 0x10000 * r + 0x8814 + 0x1000 * k

/-- pieces marked corrupt since boot (Table 8.4). -/
abbrev RUN_SEG_CORRUPT (r k : Nat) : Nat := 0x03000000 + 0x10000 * r + 0x8818 + 0x1000 * k

/-- [7:0] % of the last 1 ms spent waiting for room (Table 8.4). -/
abbrev RUN_GATE_STALL (r k : Nat) : Nat := 0x03000000 + 0x10000 * r + 0x881c + 0x1000 * k

/-- Table 8.5 (Table 8.4). -/
abbrev RUN_PACK_CFG (r c : Nat) : Nat := 0x03000000 + 0x10000 * r + 0xc000 + 0x80 * c

/-- Table 8.5 (Table 8.4). -/
abbrev RUN_CAPT_CFG (r c : Nat) : Nat := 0x03000000 + 0x10000 * r + 0xc004 + 0x80 * c

/-- [47:0] ring address, 4 KiB aligned; two words (Table 8.4). -/
abbrev RUN_CAPT_BASE (r c : Nat) : Nat := 0x03000000 + 0x10000 * r + 0xc008 + 0x80 * c

/-- class seed, 32 bits; factory 0 (Table 8.4). -/
abbrev RUN_CLASS_SEED (r c : Nat) : Nat := 0x03000000 + 0x10000 * r + 0xc010 + 0x80 * c

/-- consumer byte offset in the capture ring (Table 8.4). -/
abbrev RUN_CAPT_RD (r c : Nat) : Nat := 0x03000000 + 0x10000 * r + 0xc014 + 0x80 * c

/-- capture records dropped (Table 8.4). -/
abbrev RUN_CAPT_DROP (r c : Nat) : Nat := 0x03000000 + 0x10000 * r + 0xc018 + 0x80 * c

/-- descriptor s = 0–7, two words; Table 8.6 (Table 8.4). -/
abbrev RUN_AUG (r c s : Nat) : Nat := 0x03000000 + 0x10000 * r + 0xc040 + 0x80 * c + 0x8 * s

/-- [2:0] 0 OFF, 1 IDLE, 2 RUN, 3 CHILLED, 4 UNUSABLE; [6:3] context running; [15:8] tasks ... (Table 9.11). -/
abbrev FLK_STAT (n : Nat) : Nat := 0x01000000 + 0x100000 * n + 0x0

/-- [2:0] crucible clock step: 0 = 1.00 GHz down to 6 = 250 MHz; [31:3] reserved (Table 9.11). -/
abbrev FLK_CLK (n : Nat) : Nat := 0x01000000 + 0x100000 * n + 0x4

/-- [12:0] KiB held by regions (Table 9.11). -/
abbrev FLK_MOULD_USE (n : Nat) : Nat := 0x01000000 + 0x100000 * n + 0x10

/-- regions moved to DRAM since boot (Table 9.11). -/
abbrev FLK_MOULD_SPILL (n : Nat) : Nat := 0x01000000 + 0x100000 * n + 0x14

/-- mould requester wait cycles in the last 1 ms (Table 9.11). -/
abbrev FLK_BANK_WAIT (n : Nat) : Nat := 0x01000000 + 0x100000 * n + 0x18

/-- translation-cache hits, 64-bit (Table 9.11). -/
abbrev FLK_XLATE_HIT (n : Nat) : Nat := 0x01000000 + 0x100000 * n + 0x20

/-- misses, 64-bit (Table 9.11). -/
abbrev FLK_XLATE_MISS (n : Nat) : Nat := 0x01000000 + 0x100000 * n + 0x28

/-- [15:0] resolved faults; [31:16] unresolvable faults, saturating (Table 9.11). -/
abbrev FLK_XLATE_FAULT (n : Nat) : Nat := 0x01000000 + 0x100000 * n + 0x30

/-- [1:0] 0 idle, 1 running, 2 parking, 3 parked; [6:2] queued descriptors; [31:7] reserved... (Table 9.11). -/
abbrev FLK_LADLE_STAT (n l : Nat) : Nat := 0x01000000 + 0x100000 * n + 0x40 + 0x20 * l

/-- done of the transfer at the head (Table 9.11). -/
abbrev FLK_LADLE_DONE (n l : Nat) : Nat := 0x01000000 + 0x100000 * n + 0x44 + 0x20 * l

/-- bytes moved since boot, 64-bit (Table 9.11). -/
abbrev FLK_LADLE_BYTES (n l : Nat) : Nat := 0x01000000 + 0x100000 * n + 0x48 + 0x20 * l

/-- [15:0] parks; [31:16] aborts, since boot, saturating (Table 9.11). -/
abbrev FLK_LADLE_EVT (n l : Nat) : Nat := 0x01000000 + 0x100000 * n + 0x50 + 0x20 * l

/-- [7:0] % busy of crucible c over the last 1 ms; c = 0–1 (Table 9.11). -/
abbrev FLK_CRU_BUSY (n c : Nat) : Nat := 0x01000000 + 0x100000 * n + 0x80 + 0x4 * c

/-- bytes sent through the fabric port, 64-bit (Table 9.11). -/
abbrev FLK_FABRIC_TX (n : Nat) : Nat := 0x01000000 + 0x100000 * n + 0x90

/-- bytes received, 64-bit (Table 9.11). -/
abbrev FLK_FABRIC_RX (n : Nat) : Nat := 0x01000000 + 0x100000 * n + 0x98

/-- region i = 0–15: [10:0] offset, [22:12] size, in 4 KiB; [27:24] context; [28] prot; [29... (Table 9.11). -/
abbrev FLK_REGION (n i : Nat) : Nat := 0x01000000 + 0x100000 * n + 0x100 + 0x8 * i

/-- event counter i = 0–255 (Table 9.11). -/
abbrev FLK_EVC (n i : Nat) : Nat := 0x01000000 + 0x100000 * n + 0x1000 + 0x4 * i

/-- barrier b = 0–63: [31:0] epoch; [39:32] participants; [47:40] arrived; [51:48] context;... (Table 9.11). -/
abbrev FLK_SYNC_BAR (n b : Nat) : Nat := 0x01000000 + 0x100000 * n + 0x80000 + 0x8 * b

/-- gate counter g = 0–1,023, 64-bit (Table 9.11). -/
abbrev FLK_SYNC_GC (n g : Nat) : Nat := 0x01000000 + 0x100000 * n + 0x81000 + 0x8 * g

/-- [7:0] bit p: package p trained and in use; [8] scrub running; [31:9] reserved (Table 9.12). -/
abbrev MEM_STAT : Nat := 0x3400000

/-- context capacity in MiB: 126,976 (Table 9.12). -/
abbrev MEM_USABLE : Nat := 0x3400004

/-- [3:0], [7:4], [11:8], [15:12], [19:16]: weights 1–15 of classes 0–4; factory 3, 8, 4, 2... (Table 9.12). -/
abbrev MEM_QOS : Nat := 0x3400010

/-- [3:0] bit j: channel j up; [4] training passed; [31:5] reserved (Table 9.12). -/
abbrev MEM_PKG_STAT (p : Nat) : Nat := 0x3400020 + 0x10 * p

/-- inner-code corrections reported, saturating (Table 9.12). -/
abbrev MEM_CORR_INNER (p : Nat) : Nat := 0x3400024 + 0x10 * p

/-- outer-code corrections, saturating (Table 9.12). -/
abbrev MEM_CORR_OUTER (p : Nat) : Nat := 0x3400028 + 0x10 * p

/-- uncorrectable reads, saturating (Table 9.12). -/
abbrev MEM_UNCORR (p : Nat) : Nat := 0x340002c + 0x10 * p

/-- physical line of the last uncorrectable read, 64-bit (Table 9.12). -/
abbrev MEM_LAST_UNCORR : Nat := 0x3400200

/-- [3:0] reader: 0 crucible, 1 fettler, 2 ladle, 3 runner, 4 BAR2, 5 scrub, 6 remelt; [7:4... (Table 9.12). -/
abbrev MEM_LAST_UNCORR_SRC : Nat := 0x3400208

/-- lines in the poison map (R182) (Table 9.12). -/
abbrev MEM_POISONED : Nat := 0x3400210

/-- [15:0] position in the current pass, in 1/65,536 of memory (Table 9.12). -/
abbrev MEM_SCRUB_POS : Nat := 0x3400214

/-- passes completed since boot (Table 9.12). -/
abbrev MEM_SCRUB_PASSES : Nat := 0x3400218

/-- MB moved by class t in the last 1 ms (Table 9.12). -/
abbrev MEM_TRAFFIC (t : Nat) : Nat := 0x3400300 + 0x4 * t

/-- host address of the tier, 64-bit; 0 when none (Table 9.12). -/
abbrev MEM_HOST_TIER_BASE : Nat := 0x3400320

/-- tier size in MiB (Table 9.12). -/
abbrev MEM_HOST_TIER_SIZE : Nat := 0x3400328

/-- 2 MiB frames in use on the tier (Table 9.12). -/
abbrev MEM_HOST_TIER_USED : Nat := 0x340032c

/-- [15:0] resolved faults over all flasks; [31:16] unresolvable, saturating (Table 9.12). -/
abbrev MEM_XLATE_FAULTS : Nat := 0x3400400

/-- header of the row in buffer b: words 0–3 the stamp in the layout of Table 7.2 (count, g... (Table 13.6). -/
abbrev FLK_LB_HDR (n c b : Nat) : Nat := 0x01000000 + 0x100000 * n + 0x2000 + 0x400 * c + 0x20 * b

/-- stripe placed on this flask; Table 13.7 (Table 13.6). -/
abbrev FLK_STRIPE_STAT (n i : Nat) : Nat := 0x01000000 + 0x100000 * n + 0x2800 + 0x10 * i

/-- halo channel produced on this flask; Table 13.7 (Table 13.6). -/
abbrev FLK_HALO (n h : Nat) : Nat := 0x01000000 + 0x100000 * n + 0x3000 + 0x20 * h

/-- [12:0] slots held, pending ones included; [28:16] slots pending release; [31:29] reserved (Table 14.4). -/
abbrev CMD_SEQ_SLOTS : Nat := 0x300000

/-- pieces admitted since boot (Table 14.4). -/
abbrev CMD_SEQ_ADMITTED : Nat := 0x300004

/-- refusals with reason r since boot (Table 14.2) (Table 14.4). -/
abbrev CMD_SEQ_REFUSE (r : Nat) : Nat := 0x300010 + 0x4 * r

/-- eight words; Table 14.6 (Table 14.4). -/
abbrev CMD_SEQ_CTX (x : Nat) : Nat := 0x300100 + 0x20 * x

/-- two words; Table 14.6 (Table 14.4). -/
abbrev CMD_SEQ_CLASS (c : Nat) : Nat := 0x301000 + 0x10 * c

/-- two words, from the bound program; Table 14.6 (Table 14.4). -/
abbrev CMD_SEQ_KV (c : Nat) : Nat := 0x302000 + 0x10 * c

/-- [23:0] DRAM groups held by class c; [31:24] reserved (Table 14.4). -/
abbrev CMD_SEQ_HELD (c : Nat) : Nat := 0x303000 + 0x4 * c

/-- eight words; Table 15.7 (Table 15.6). -/
abbrev CMD_CTX_STAT (x : Nat) : Nat := 0x310000 + 0x20 * x

/-- word 0: [3:0] JOB context on the flask, [4] claimed by LINE, [6:5] 0 none, 1 stopping, ... (Table 15.6). -/
abbrev CMD_FLASK_SCHED (n : Nat) : Nat := 0x310400 + 0x8 * n

/-- largest pre-emption latency since boot, ns (Table 15.6). -/
abbrev CMD_PREEMPT_MAX : Nat := 0x310600

/-- pre-emptions since boot (Table 15.6). -/
abbrev CMD_PREEMPTS : Nat := 0x310604

/-- pu per 100 µs window, 250,000–40,000,000; factory 26,000,000 (Table 15.8). -/
abbrev PWR_PERMIT_BUDGET : Nat := 0x3c08000

/-- [0] safe: the safe budget of R338 is in force; [15:8] requests waiting, saturating; [31... (Table 15.8). -/
abbrev PWR_PERMIT_STAT : Nat := 0x3c08004

/-- pu granted in the last complete window (Table 15.8). -/
abbrev PWR_PERMIT_USED : Nat := 0x3c08008

/-- grants that waited, since boot (Table 15.8). -/
abbrev PWR_PERMIT_WAITS : Nat := 0x3c0800c

/-- total wait in ns since boot, 64-bit (Table 15.8). -/
abbrev PWR_PERMIT_WAIT_NS : Nat := 0x3c08010

/-- crucible grants delayed by the start-rate limit, since boot (Table 15.8). -/
abbrev PWR_PERMIT_RATE : Nat := 0x3c08018

/-- [5:0] banks in use; [15:8] pours waiting for a bank, saturating; [31:16] reserved (Table 16.5). -/
abbrev CMD_DIG_BANKS : Nat := 0x320000

/-- [0] valid; [4:1] context; [5] set B of a twin pour; [7:6] reserved; [31:8] pour ID, low... (Table 16.5). -/
abbrev CMD_DIG_OWNER (k : Nat) : Nat := 0x320010 + 0x4 * k

/-- words 0–1: T, 64-bit timebase count; word 2: Table 16.6; word 3 reserved (Table 16.5). -/
abbrev CMD_SBAR (i : Nat) : Nat := 0x320100 + 0x10 * i

/-- [15:0] mismatches since boot, saturating; [31:16] comparisons waiting (Table 16.5). -/
abbrev CMD_TWIN_STAT : Nat := 0x320200

/-- four words; Table 16.6 (Table 16.5). -/
abbrev CMD_TWIN_LAST : Nat := 0x320204

/-- largest time from the first commit to a completed comparison since boot, µs (Table 16.5). -/
abbrev CMD_TWIN_WAIT : Nat := 0x320214

/-- digest register d of bank k, 128 bits in four words, committed sum (R348) (Table 16.5). -/
abbrev CMD_DIG (k d : Nat) : Nat := 0x321000 + 0x1000 * k + 0x10 * d

/-- [0] line work running; [1] healthy flag sent; [31:2] reserved (Table 17.10). -/
abbrev LIN_STAT : Nat := 0x3800000

/-- [16:0] entries not FREE (Table 17.10). -/
abbrev LIN_OPEN : Nat := 0x3800004

/-- next serial, 64-bit (Table 17.10). -/
abbrev LIN_SERIAL_NEXT : Nat := 0x3800008

/-- pieces recorded with code v since boot (Table 17.10). -/
abbrev LIN_VERDICTS (v : Nat) : Nat := 0x3800010 + 0x4 * v

/-- pieces refused an entry (R363) (Table 17.10). -/
abbrev LIN_LEDGER_FULL : Nat := 0x3800030

/-- taps not fired (R376) (Table 17.10). -/
abbrev LIN_TAP_LATE : Nat := 0x3800034

/-- tap orders resent (Table 17.10). -/
abbrev LIN_TAPQ_RETRY : Nat := 0x3800038

/-- count mirror, 48 bits in two words (Table 17.10). -/
abbrev LIN_MIRROR (ch : Nat) : Nat := 0x3800040 + 0x8 * ch

/-- Table 17.11 (Table 17.10). -/
abbrev LIN_HALT_CFG : Nat := 0x3800100

/-- [15:0] N 1–65,535, factory 16; [31:16] window in ms 1–65,535, factory 1,000 (Table 17.10). -/
abbrev LIN_HALT_UNDEC : Nat := 0x3800104

/-- Table 17.11 (Table 17.10). -/
abbrev LIN_HALT_STAT : Nat := 0x3800108

/-- [0] 1 = host holds the line halted; [31:1] reserved (Table 17.10). -/
abbrev LIN_HALT_REQ : Nat := 0x380010c

/-- [16:0] entry shown in LIN_LEDGER_ENTRY (Table 17.10). -/
abbrev LIN_LEDGER_IDX : Nat := 0x3800200

/-- 16 words, Table 17.1 (Table 17.10). -/
abbrev LIN_LEDGER_ENTRY : Nat := 0x3800240

/-- Table 17.11 (Table 17.10). -/
abbrev LIN_JRN_CFG : Nat := 0x3800300

/-- [0] short: retention not met (R384); [1] SC signing pending; [31:2] reserved (Table 17.10). -/
abbrev LIN_JRN_STAT : Nat := 0x3800304

/-- newest sealed block, 64-bit (Table 17.10). -/
abbrev LIN_JRN_NEWEST : Nat := 0x3800308

/-- oldest block held, 64-bit (Table 17.10). -/
abbrev LIN_JRN_OLDEST : Nat := 0x3800310

/-- sealed blocks awaiting signature (Table 17.10). -/
abbrev LIN_JRN_UNSIGNED : Nat := 0x3800318

/-- records written in the last 1 s (Table 17.10). -/
abbrev LIN_JRN_RATE : Nat := 0x380031c

/-- block to read, 64-bit (Table 17.10). -/
abbrev LIN_JRN_RD_BLOCK : Nat := 0x3800320

/-- writing 1 starts the read (R385) (Table 17.10). -/
abbrev LIN_JRN_RD_GO : Nat := 0x3800328

/-- [1:0] 0 idle, 1 busy, 2 done, 3 refused; [31:2] reserved (Table 17.10). -/
abbrev LIN_JRN_RD_STAT : Nat := 0x380032c

/-- six words; Table 17.11 (Table 17.10). -/
abbrev LIN_CLASS (c : Nat) : Nat := 0x3801000 + 0x40 * c

/-- two words; Table 17.11 (Table 17.10). -/
abbrev LIN_TAP (c a t : Nat) : Nat := 0x3804000 + 0x100 * c + 0x20 * a + 0x8 * t

/-- the block read (R385) (Table 17.10). -/
abbrev LIN_JRN_WIN : Nat := 0x3810000

/-- identifier and version (Table 18.8). -/
abbrev RNY_ID : Nat := 0x0

/-- [0] field safe state; [1] heartbeat valid; [2] L+ ≥ 17 V; [3] cut-off closed; [4] line-... (Table 18.8). -/
abbrev RNY_STAT : Nat := 0x1

/-- [6:0] causes of the last entry (Table 18.2); [31:7] reserved (Table 18.8). -/
abbrev RNY_SAFE_CAUSE : Nat := 0x2

/-- [12:0] pending fires; [15:13] reserved; [31:16] full answers since VISO up, saturating (Table 18.8). -/
abbrev RNY_TAPQ : Nat := 0x3

/-- fires reported fired since VISO up (Table 18.8). -/
abbrev RNY_FIRES : Nat := 0x4

/-- fires reported unfired or discarded since VISO up (Table 18.8). -/
abbrev RNY_UNFIRED : Nat := 0x5

/-- [15:0] L+ in 10 mV; [23:16] Ronyr junction °C + 64; [31:24] reserved (Table 18.8). -/
abbrev RNY_SUPPLY : Nat := 0x6

/-- [15:0] filtered states; [31:16] raw states (Table 18.8). -/
abbrev RNY_IN_STATE : Nat := 0x7

/-- [15:0] commanded; [31:16] read back energised (Table 18.8). -/
abbrev RNY_OUT_STATE : Nat := 0x8

/-- [15:8] hold DQ8–DQ15 on (R399); [7:0], [31:16] reserved; cleared by the field safe state (Table 18.8). -/
abbrev RNY_OUT_SET : Nat := 0x9

/-- Table 18.9 (Table 18.8). -/
abbrev RNY_ENC_CFG (ch : Nat) : Nat := 0x100 + 0x40 * ch

/-- [15:0] ppr, counts per index, 0 = no index check; [23:16] idx_tol 0–255; [31:24] reserv... (Table 18.8). -/
abbrev RNY_ENC_CHK (ch : Nat) : Nat := 0x101 + 0x40 * ch

/-- [5:0] bits 8–40; [6] Gray (SSI); [7] reserved; [15:8] clock in 100 kHz, 1–100; [25:16] ... (Table 18.8). -/
abbrev RNY_ENC_SER (ch : Nat) : Nat := 0x102 + 0x40 * ch

/-- [23:0] max_step per read, 1–16,777,215; factory 1,024; [31:24] reserved (Table 18.8). -/
abbrev RNY_ENC_MAXSTEP (ch : Nat) : Nat := 0x103 + 0x40 * ch

/-- two indices: [47:0] value; [63] pre: apply at the cast (R402), cleared after; [62:48] r... (Table 18.8). -/
abbrev RNY_ENC_PRESET (ch : Nat) : Nat := 0x104 + 0x40 * ch

/-- p, 48 bits in two indices (Table 18.8). -/
abbrev RNY_ENC_POS (ch : Nat) : Nat := 0x110 + 0x40 * ch

/-- r, 48 bits in two indices (Table 18.8). -/
abbrev RNY_ENC_RAW (ch : Nat) : Nat := 0x112 + 0x40 * ch

/-- index latch, 48 bits in two indices (Table 18.8). -/
abbrev RNY_ENC_IDX (ch : Nat) : Nat := 0x114 + 0x40 * ch

/-- interval-timer time of the index latch, ns, low 32 bits (Table 18.8). -/
abbrev RNY_ENC_IDX_T (ch : Nat) : Nat := 0x116 + 0x40 * ch

/-- input latch, 48 bits in two indices (Table 18.8). -/
abbrev RNY_ENC_INL (ch : Nat) : Nat := 0x117 + 0x40 * ch

/-- time of the input latch, ns, low 32 bits (Table 18.8). -/
abbrev RNY_ENC_INL_T (ch : Nat) : Nat := 0x119 + 0x40 * ch

/-- v in counts/s, signed (R404) (Table 18.8). -/
abbrev RNY_ENC_SPEED (ch : Nat) : Nat := 0x11a + 0x40 * ch

/-- [7:0] AB; [15:8] LINE; [23:16] HALL; [31:24] INDEX and ABS; each saturating (Table 18.8). -/
abbrev RNY_ENC_ERR (ch : Nat) : Nat := 0x11b + 0x40 * ch

/-- [0] index latched; [1] input latched; [2] plausibility failed; [31:3] reserved (Table 18.8). -/
abbrev RNY_ENC_FLAGS (ch : Nat) : Nat := 0x11c + 0x40 * ch

/-- [0] en; [1] source channel; [2] fwd_only, factory 1; [3] drive A± on J2; [7:4] reserved... (Table 18.8). -/
abbrev RNY_EMU_CFG (e : Nat) : Nat := 0x200 + 0x10 * e

/-- [23:0] num, 1–16,777,215; factory 1; [31:24] reserved (Table 18.8). -/
abbrev RNY_EMU_NUM (e : Nat) : Nat := 0x201 + 0x10 * e

/-- [23:0] den, 1–16,777,215; factory 1; [31:24] reserved (Table 18.8). -/
abbrev RNY_EMU_DEN (e : Nat) : Nat := 0x202 + 0x10 * e

/-- rising edges produced since VISO up (Table 18.8). -/
abbrev RNY_EMU_EDGES (e : Nat) : Nat := 0x203 + 0x10 * e

/-- edges or reports dropped (R407) (Table 18.8). -/
abbrev RNY_EMU_DROP (e : Nat) : Nat := 0x204 + 0x10 * e

/-- [0] type: 0 type 1, 1 type 3; [1] wb_en; [2] inv; [15:3] reserved; [31:16] T µs, 1–65,5... (Table 18.8). -/
abbrev RNY_IN_CFG (i : Nat) : Nat := 0x300 + 0x4 * i

/-- [0] state; [1] raw; [2] wire break; [3] taken; [15:4] reserved; [31:16] current in 10 µA (Table 18.8). -/
abbrev RNY_IN_STAT (i : Nat) : Nat := 0x301 + 0x4 * i

/-- [0] ow_off, factory 0; [1] auto_rs, factory 1; [31:2] reserved (Table 18.8). -/
abbrev RNY_OUT_CFG (k : Nat) : Nat := 0x400 + 0x4 * k

/-- [0] ovl; [1] thermal; [2] open_off; [3] open_on; [4] stuck_off; [5] stuck_on (RO, R412)... (Table 18.8). -/
abbrev RNY_OUT_DIAG (k : Nat) : Nat := 0x401 + 0x4 * k

/-- [15:0] load current in mA; [23:16] driver junction °C + 64; [31:24] reserved (Table 18.8). -/
abbrev RNY_OUT_CUR (k : Nat) : Nat := 0x402 + 0x4 * k

/-- [15:0] RNY_ index; [31:16] reserved (Table 18.10). -/
abbrev LIN_RNY_ADDR : Nat := 0x380f000

/-- write data; read result (Table 18.10). -/
abbrev LIN_RNY_DATA : Nat := 0x380f004

/-- [0] read go; [1] write go; [31:2] reserved (Table 18.10). -/
abbrev LIN_RNY_CTRL : Nat := 0x380f008

/-- [1:0] 0 idle, 1 busy, 2 done, 3 refused; [15:2] reserved; [31:16] code (Table 18.10). -/
abbrev LIN_RNY_STAT : Nat := 0x380f00c

/-- [15:0] frames discarded in the last 1 s, saturating; [23:16] last queue epoch seen; [31... (Table 18.10). -/
abbrev LIN_RNY_LINK : Nat := 0x380f010

/-- seconds at 0x0000–0x0004; nanoseconds at 0x0008; fraction [15:0] at 0x000C; reading 0x0... (Table 19.7). -/
abbrev TIM_NOW : Nat := 0x3a00000

/-- timebase, 64-bit (R416) (Table 19.7). -/
abbrev TIM_TIMEBASE : Nat := 0x3a00010

/-- Table 19.8 (Table 19.7). -/
abbrev TIM_STAT : Nat := 0x3a00018

/-- last offset o in ns, signed, saturating (Table 19.7). -/
abbrev TIM_OFFSET : Nat := 0x3a0001c

/-- frequency adjustment f in ppb, signed (Table 19.7). -/
abbrev TIM_FREQ : Nat := 0x3a00020

/-- error bound to the time root in ps (R424) (Table 19.7). -/
abbrev TIM_BOUND : Nat := 0x3a00024

/-- Table 19.8 (Table 19.7). -/
abbrev TIM_CFG : Nat := 0x3a00028

/-- threshold in µs, 1–1,000,000; factory 100 (Table 19.7). -/
abbrev TIM_STEP_THR : Nat := 0x3a0002c

/-- [15:0] kp; [31:16] ki; factory 0x0400, 0x0040 (Table 19.7). -/
abbrev TIM_SERVO : Nat := 0x3a00030

/-- Table 19.8 (Table 19.7). -/
abbrev TIM_PTP_CFG : Nat := 0x3a00034

/-- [15:0] transmit ns; [31:16] receive ns; factory 0 (Table 19.7). -/
abbrev TIM_PHY_DLY : Nat := 0x3a00038

/-- [0] step_ok, W1S (R421); [31:1] reserved (Table 19.7). -/
abbrev TIM_CTRL : Nat := 0x3a00040

/-- [15:0] currentUtcOffset, s; [16] valid; [31:17] reserved (Table 19.7). -/
abbrev TIM_PTP_UTC : Nat := 0x3a00044

/-- clockIdentity of the selected master, 64-bit; port number [15:0] at 0x0050 (Table 19.7). -/
abbrev TIM_MASTER : Nat := 0x3a00048

/-- [15:0] steps refused; [31:16] masters lost; since boot, saturating (Table 19.7). -/
abbrev TIM_EVENTS : Nat := 0x3a00054

/-- [5:0] id; [7:6] topo: 0 none, 1 ring, 2 tree, 3 reserved; [11:8] port enables; [17:12] ... (Table 19.9). -/
abbrev LNK_CHAIN_CFG : Nat := 0x3620000

/-- [3:0] ports up; [10:4] devices reachable; [11] ring broken; [31:12] reserved (Table 19.9). -/
abbrev LNK_CHAIN_STAT : Nat := 0x3620004

/-- [1:0] 0 DOWN, 1 TRAINING, 2 UP, 3 HELD; [7:2] peer id; [8] peer valid; [31:9] reserved (Table 19.9). -/
abbrev LNK_NLX_PORT_STAT (p : Nat) : Nat := 0x3620010 + 0x40 * p

/-- frames resent, saturating (Table 19.9). -/
abbrev LNK_NLX_RESENDS (p : Nat) : Nat := 0x3620014 + 0x40 * p

/-- frames failing CRC, saturating (Table 19.9). -/
abbrev LNK_NLX_CRC_ERR (p : Nat) : Nat := 0x3620018 + 0x40 * p

/-- transitions to DOWN or HELD since boot (Table 19.9). -/
abbrev LNK_NLX_DOWNS (p : Nat) : Nat := 0x362001c + 0x40 * p

/-- bytes sent, 64-bit (Table 19.9). -/
abbrev LNK_NLX_TX_BYTES (p : Nat) : Nat := 0x3620020 + 0x40 * p

/-- bytes received, 64-bit (Table 19.9). -/
abbrev LNK_NLX_RX_BYTES (p : Nat) : Nat := 0x3620028 + 0x40 * p

/-- [15:0] injection in the last 1 ms, 10 MB/s units; [23:16] % of that time held by the li... (Table 19.9). -/
abbrev LNK_INJECT : Nat := 0x3620200

/-- window frames dropped (R432) (Table 19.9). -/
abbrev LNK_WIN_DROP : Nat := 0x3620204

/-- [15:0] share messages dropped (R436); [31:16] pieces faulted under R437; saturating (Table 19.9). -/
abbrev LNK_SHARE_STAT : Nat := 0x3620208

/-- word 0: [1:0] role: 0 none, 1 head, 2 member, 3 reserved; [7:2] head id; [31:8] reserve... (Table 19.9). -/
abbrev LNK_SHARE (c : Nat) : Nat := 0x3620300 + 0x10 * c

/-- [47:0] offset, signed; [48] aligned; [49] withdrawn since boot; [63:50] reserved (Table 19.9). -/
abbrev LNK_ALIGN (ch : Nat) : Nat := 0x3620800 + 0x8 * ch

/-- [15:0] pairs matched; [31:16] pairs differing; saturating (Table 19.9). -/
abbrev LNK_ALIGN_CNT (ch : Nat) : Nat := 0x3620810 + 0x4 * ch

/-- [0] sc_up; [1] identity; [2] cert (R442); [3] owner; [4] dbg_jtag; [5] dbg_live; [6] db... (Table 20.9). -/
abbrev SEC_STAT : Nat := 0x3e00000

/-- [7:0] command (Table 20.3); [8] go, W1S, cleared when taken; [31:9] reserved (Table 20.9). -/
abbrev SEC_MB_CMD : Nat := 0x3e00004

/-- [1:0] 0 idle, 1 busy, 2 done, 3 refused; [15:2] reserved; [31:16] code (Table 20.9). -/
abbrev SEC_MB_STAT : Nat := 0x3e00008

/-- [12:0] request bytes, 0–4,096; [31:13] reserved (Table 20.9). -/
abbrev SEC_MB_LEN : Nat := 0x3e0000c

/-- [13:0] response bytes; [31:14] reserved (Table 20.9). -/
abbrev SEC_MB_RLEN : Nat := 0x3e00010

/-- BAR2 accesses refused since boot (R77, R451) (Table 20.9). -/
abbrev SEC_BAR2_DENIED : Nat := 0x3e00020

/-- device memory tagged protected, MiB (Table 20.9). -/
abbrev SEC_PROT_MIB : Nat := 0x3e00024

/-- [7:0] stored; [15:8] loaded; [31:16] store used, MiB (Table 20.9). -/
abbrev SEC_BUNDLES : Nat := 0x3e00028

/-- SC watchdog resets since boot (Table 20.9). -/
abbrev SEC_SC_RESETS : Nat := 0x3e0002c

/-- device ID, 48 bytes in 12 words (Table 20.9). -/
abbrev SEC_IK_ID : Nat := 0x3e00040

/-- request buffer (Table 20.9). -/
abbrev SEC_MB_REQ : Nat := 0x3e01000

/-- response buffer (Table 20.9). -/
abbrev SEC_MB_RSP : Nat := 0x3e02000

/-- [1:0] 0 S0, 1 S1; [2] waking; [3] reserved; [5:4] refusal (R463); [31:6] reserved (Table 21.10). -/
abbrev PWR_STATE : Nat := 0x3c00000

/-- [1:0] 0 S0 or wake; 1 S1; 2 S2; 3 S3; [31:2] reserved (Table 21.10). -/
abbrev PWR_STATE_REQ : Nat := 0x3c00004

/-- Table 21.11 (Table 21.10). -/
abbrev PWR_S1_CFG : Nat := 0x3c00008

/-- [2:0] step in force; [6:4] thermal request; [10:8] power-guard request; [12] PMC absent... (Table 21.10). -/
abbrev PWR_CLK : Nat := 0x3c0000c

/-- [2:0] slowest step required, 0–6, 7 reserved; factory 0; [31:3] reserved (Table 21.10). -/
abbrev PWR_CLK_CAP : Nat := 0x3c00010

/-- [7:0] Cuette junction °C + 64; [15:8] board °C + 64; [16] throttling; [31:17] reserved (Table 21.10). -/
abbrev PWR_THERM : Nat := 0x3c00014

/-- [15:0] VIN in mV; [31:16] input current in 10 mA (Table 21.10). -/
abbrev PWR_VIN : Nat := 0x3c00018

/-- [15:0] input power, 1 ms mean, 100 mW; [31:16] peak over the last 1 s (Table 21.10). -/
abbrev PWR_POWER : Nat := 0x3c0001c

/-- Table 21.11 (Table 21.10). -/
abbrev PWR_SAFE_CFG : Nat := 0x3c00040

/-- [0] safe; [1] causes absent, awaiting acknowledgement; [12:4] latched causes (Table 21.... (Table 21.10). -/
abbrev PWR_SAFE_STAT : Nat := 0x3c00044

/-- [0] ack (R473); [1] force (cause 8); [31:2] reserved (Table 21.10). -/
abbrev PWR_SAFE_CTRL : Nat := 0x3c00048

/-- [0] warning; [1] from PWR_FAIL#; [2] from the VIN monitor; [3] from MOD_RESET#; [4]... (Table 21.10). -/
abbrev PWR_FAIL_LAST : Nat := 0x3c00050

/-- reserve mark (R477), 64-bit (Table 21.10). -/
abbrev PWR_SERIAL_MARK : Nat := 0x3c00058

/-- four words; Table 22.7 (Table 22.6). -/
abbrev DBG_FW_STAT (i : Nat) : Nat := 0x3f00000 + 0x10 * i

/-- sequence of the newest record, 64-bit (Table 22.6). -/
abbrev DBG_LOG_NEWEST : Nat := 0x3f00400

/-- sequence of the oldest record held, 64-bit (Table 22.6). -/
abbrev DBG_LOG_OLDEST : Nat := 0x3f00408

/-- sequence of the record shown, 64-bit (R489) (Table 22.6). -/
abbrev DBG_LOG_IDX : Nat := 0x3f00410

/-- [1:0] uart_level; [31:2] reserved (Table 22.6). -/
abbrev DBG_LOG_CFG : Nat := 0x3f00418

/-- records not printed since boot, saturating (Table 22.6). -/
abbrev DBG_LOG_UART_DROP : Nat := 0x3f0041c

/-- eight words; Table 22.4 (Table 22.6). -/
abbrev DBG_LOG_REC : Nat := 0x3f00420

/-- eight words; bit p enables point p (Table 22.6). -/
abbrev DBG_TRACE_EN : Nat := 0x3f00500

/-- Table 22.7 (Table 22.6). -/
abbrev DBG_TRACE_CTRL : Nat := 0x3f00520

/-- Table 22.7 (Table 22.6). -/
abbrev DBG_TRACE_STAT : Nat := 0x3f00524

/-- index of the next record to be written, 0–524,287 (Table 22.6). -/
abbrev DBG_TRACE_WR : Nat := 0x3f00528

/-- [18:0] index of the first record in the window (Table 22.6). -/
abbrev DBG_TRACE_RD : Nat := 0x3f0052c

/-- 4,096 records from DBG_TRACE_RD, wrapping at the end of the buffer (Table 22.6). -/
abbrev DBG_TRACE_WIN : Nat := 0x3f10000

end Sys2Proof.Machine.R
end

