-- ==== Sys2Proof/Machine/RegReset.lean ====
section
/-! DEFINITION. What each register holds before anything has written it: the Reset column, and for `ret`
the factory value of R10 (0 where the spec states none). -/

namespace Sys2Proof.Machine

/-- Factory words of a runner slot's staged registers (Table 7.8), by offset in the slot's 0x400 bytes. -/
def runSlotReset (o : Nat) : Nat :=
  if o = 0x000 then 0x400
  else if o = 0x004 then 4096 + 64 * 65536
  else if o = 0x00C then 65535
  else if o = 0x010 then 0x01000100
  else if o = 0x014 then 0x01000100
  else if o = 0x01C then 4096 * 65536
  else if o = 0x020 then 0x11
  else if o = 0x034 then 1000
  else if o = 0x050 then 0x100
  else if o = 0x060 then 1
  else 0

/-- Factory words of a runner (Tables 7.8 and 8.4), by offset in its 64 KiB. -/
def runReset (o : Nat) : Nat :=
  if o < 0x1000 then runSlotReset (o % 0x400)
  else if o < 0x8000 then 0
  else if o < 0xC000 then (if o % 0x1000 = 0x004 then 10000 else 0)
  else if o < 0xE000 then
    let q := (o - 0xC000) % 0x80
    if q = 0 then 512 + 63 * 2 ^ 14
    else if q = 4 then 2
    else if q = 0x40 then 0x10000001
    else if 0x40 < q ∧ q % 8 = 0 then 0x10000000
    else 0
  else 0

/-- Factory words of the camera ports (Table 6.6), by offset in the block. -/
def cxpReset (o : Nat) : Nat :=
  if o < 0x2000 then
    (if o % 0x100 = 0 then 6 * 4 + (o / 0x100) * 32 else if o % 0x100 = 4 then 1 + 6 * 4 else 0)
  else 0

/-- Factory words of the link block (Tables 6.7 and 19.9), by offset in the block. -/
def lnkReset (o : Nat) : Nat :=
  if o = 0x10800 then 1 + 10 * 256 + 64 * 65536
  else if 0x10000 ≤ o ∧ o < 0x10800 then
    (if o % 0x100 = 0 then 4 + 30 * 32 + 6 * 2048 + 65536 else if o % 0x100 = 4 then 1 + 6 * 4 else 0)
  else 0

/-- Factory words of line control (Table 17.10), by offset in the block. -/
def linReset (o : Nat) : Nat :=
  if o = 0x100 then 0x10
  else if o = 0x104 then 16 + 1000 * 65536
  else if o = 0x300 then 7 + 10 * 256
  else if 0x1000 ≤ o ∧ o < 0x2000 then
    (if o % 0x40 = 0 then 8 + 16 + 256 * 256 else if o % 0x40 = 4 then 100 else 0)
  else 0

/-- Factory words of the time unit (Table 19.7), by offset in the block. -/
def timReset (o : Nat) : Nat :=
  if o = 0x28 then 4 else if o = 0x2C then 100 else if o = 0x30 then 0x00400400
  else if o = 0x34 then 3 * 1024 else 0

/-- Factory words of power management (Tables 15.8 and 21.10), by offset in the block. -/
def pwrReset (o : Nat) : Nat :=
  if o = 0x8 then 60 * 16 + 65536 else if o = 0x40 then 3 else if o = 0x8000 then 26000000 else 0

/-- What BAR0 register word `a` holds before anything has written it (R10). -/
def resetWord (a : Nat) : Nat :=
  if a < 0x00100000 then (if a = R.GLB_ID then 0x96405E7A else 0)
  else if a < 0x00200000 then (if a = R.STG_CAST_LEAD then 0x100 else 0)
  else if a < 0x01000000 then
    (if 0x301000 ≤ a ∧ a < 0x301400 ∧ a % 16 = 0 then 16 + 16 * 2 ^ 13 + 7 * 2 ^ 21 else 0)
  else if a < 0x03000000 then 0
  else if a < 0x03100000 then (if a < 0x03010000 ∨ a % 0x10000 < 0xC000 then runReset (a % 0x10000) else 0)
  else if a < 0x03200000 then 0
  else if a < 0x03400000 then cxpReset (a - 0x03200000)
  else if a < 0x03600000 then
    (if a = R.MEM_USABLE then 0x1F000 else if a = R.MEM_QOS then 0x12483 else 0)
  else if a < 0x03800000 then lnkReset (a - 0x03600000)
  else if a < 0x03A00000 then linReset (a - 0x03800000)
  else if a < 0x03C00000 then timReset (a - 0x03A00000)
  else if a < 0x03E00000 then pwrReset (a - 0x03C00000)
  else if a = R.DBG_LOG_CFG then 1 else 0

/-- What Ronyr's register index `i` holds before anything has written it (Table 18.8, R10). -/
def rnyResetWord (i : Nat) : Nat :=
  if i = R.RNY_ID then 0x524E5901
  else if 0x100 ≤ i ∧ i < 0x180 then
    (if i % 0x40 = 0 then 2 * 16 + 2 ^ 7 + 2 ^ 9 + 2 * 2 ^ 10 + 16 * 2 ^ 21
     else if i % 0x40 = 2 then 25 + 10 * 256 + 10 * 65536
     else if i % 0x40 = 3 then 1024 else 0)
  else if 0x200 ≤ i ∧ i < 0x220 then
    (if i % 0x10 = 0 then 4 + 10 * 256 else if i % 0x10 = 1 then 1 else if i % 0x10 = 2 then 1 else 0)
  else if 0x300 ≤ i ∧ i < 0x340 then (if i % 4 = 0 then 1 + 1000 * 65536 else 0)
  else if 0x400 ≤ i ∧ i < 0x440 then (if i % 4 = 0 then 2 else 0)
  else 0

end Sys2Proof.Machine
end

