-- ==== Sys2Proof/Machine/State.lean ====
section
/-! DEFINITION. The state of the block: everything the spec gives Cuette, Ronyr and their module, as plain data,
its value right after reset, and the reasons a command can stop. Registers are held in two sparse maps
(BAR0 words by offset, Ronyr's by index); the rest stands in the structures below. -/

namespace Sys2Proof.Machine

/-- Levels the module drives on J1 and J2; recomputed from the state by `State.settle` after every command. -/
structure Pins where
  /-- PWR_GOOD high: all module rails in regulation [R37]. -/
  pwrGood : Bool := true
  /-- THERM_ALERT# driven low: throttling in force [R24]. -/
  thermAlertLow : Bool := false
  /-- MSMB_ALERT# driven low [R467]. -/
  msmbAlertLow : Bool := false
  /-- HOST_WAKE# driven low, for 10 ms on a wake from S2 [R463]. -/
  hostWakeLow : Bool := false
  /-- PPS_OUT high, for 100 ms from each whole second of device time [R418]. -/
  ppsHigh : Bool := false
  /-- DQ0–DQ15 energised on J2 [R394, R396]. -/
  dq : BitVec 16 := 0
  /-- The line-halt contact LH_A/LH_B is closed [R49]. -/
  lhClosed : Bool := false
  /-- RS-422 clock driver of an encoder channel is enabled, else high-impedance [R29]. -/
  clkDrive : BitVec 2 := 0
  /-- RS-422 driver of an emulated output is enabled, else high-impedance [R29]. -/
  emuDrive : BitVec 2 := 0
  /-- A± of an emulated output is high: the pulse of an edge it produced [R407]. -/
  emuHigh : BitVec 2 := 0
  deriving DecidableEq, Repr

/-- The module around the two chips: supply, reset pins, rails and reference clocks [R31–R42]. -/
structure Module where
  /-- VIN_12V in mV, as last presented to the module's own monitor [R32]. -/
  vinMv : Nat := 12000
  /-- MOD_RESET# is low [R38]. -/
  modResetLow : Bool := false
  /-- All Cuette rails are in regulation [R37]. -/
  railsUp : Bool := true
  /-- The always-on rails VDD_AON and V3P3_AUX are up [R37]. -/
  aonUp : Bool := true
  /-- VISO, Ronyr's isolated supply, is up [R37, R390]. -/
  visoUp : Bool := true
  /-- A power-fail warning is latched [R32]. -/
  warning : Bool := false
  /-- Instant the power-fail sequence was started, in ns of `now` [R475]. -/
  warnAt : Nat := 0
  /-- Last instant at which VIN was seen out of 10.8–13.2 V, or `PWR_FAIL#` low, after a warning [R35]. -/
  badAt : Nat := 0
  /-- Cuette is held in reset [R37, R38, R463]. -/
  held : Bool := true
  /-- SERREF is present and within ±1,000 ppm [R42]. -/
  serrefOk : Bool := true
  /-- REFCLK is present [R42]. -/
  refclkOk : Bool := true
  /-- The PCIe link is trained and the endpoint answers [R73]. -/
  pcieUp : Bool := false
  /-- log2 of the lanes the PCIe link trained to, 0 to 3 [R73]. -/
  pcieWidth : Nat := 0
  /-- Rate it trained to, 0 2.5 to 4 32 GT/s [R73, R135]. -/
  pcieRate : Nat := 0
  /-- HOST_WAKE# stays low until this instant [R463]. -/
  hostWakeUntil : Nat := 0
  deriving DecidableEq, Repr

/-- The PoCXP control chain [R47, R120]. -/
structure Pocxp where
  /-- The 32 enables last shifted out on CXP_PWR_SDO [R47]. -/
  enables : BitVec 32 := 0
  /-- The 32 fault bits shifted in by the previous run [R120]. -/
  prevFault : BitVec 32 := 0
  /-- Instant of each port's pending retry after a fault, by port [R120]. -/
  retryAt : KMap Nat := []
  /-- Instants of the PoCXP faults of each camera, by master port, in the last hour [R120]. -/
  faults : KMap (List Nat) := []
  deriving DecidableEq, Repr

/-- Boot state beside `GLB_BOOT_STATUS` (chapter Bring-up). -/
structure Boot where
  /-- Boot cause of the next ROM start, coded as `GLB_BOOT_STATUS.cause` [R39]. -/
  nextCause : Nat := 0
  /-- FACTORY_NEXT selected the factory state for the next boot [R67]. -/
  factoryNext : Bool := false
  /-- The boot in progress is the one the host selected the factory state for [R67]. -/
  factoryNow : Bool := false
  /-- The ROM has been started since Cuette's last reset [R39]. -/
  started : Bool := false
  /-- Self-test condition checks failed in this boot [R58]. -/
  condFails : Nat := 0
  /-- Instant of the next self-test condition check [R58]. -/
  condNext : Nat := 0
  /-- SERREF was in range at ROM start [R59]. -/
  serrefAtRom : Bool := true
  /-- Value of `GLB_BOOT_COUNT` before the write of this ROM start, while that write may not have ended [R55]. -/
  countOld : Option Nat := none
  /-- SCH and the flask controllers were released in this boot, and with them the barrier link [R64]. -/
  released : Bool := false
  /-- Line work has started [R68]. -/
  lineStarted : Bool := false
  /-- Restore has ended in this boot: shadow writes of the host are accepted from then on [R94]. -/
  restored : Bool := false
  /-- A handshake has agreed in this boot [R68]. -/
  agreedOnce : Bool := false
  /-- Instant the ROM started last, in ns of `now` [R39]. -/
  romAt : Nat := 0
  /-- Firmware of the NOR image complete and verified since manufacture: length ok, header ok, signature ok [R56]. -/
  imageGood : Bool := true
  /-- HIV major.minor and image version held in the NOR image header [R56]. -/
  imageHivMajor : Nat := 1
  /-- HIV minor of the NOR image [R56]. -/
  imageHivMinor : Nat := 0
  /-- Image version of the NOR image [R56]. -/
  imageVersion : Nat := 1
  /-- SHA-384 of the firmware image as verified, header and body [R445]. -/
  imageHash : Nat := 0
  /-- Grade-ceiling fuses: 32, 28 or 24 flasks [R63]. -/
  fuseCeiling : Nat := 32
  /-- Fuses: flasks fused off [R63]. -/
  fuseOff : BitVec 32 := 0
  /-- Fuse: `-X` version [R4]. -/
  fuseX : Bool := false
  /-- Repair fuses burnt, as (class, instance, sub, address) of the record repaired [R61, R453]. -/
  repairs : List (Nat × Nat × Nat × Nat) := []
  /-- Repairs burnt into the fuses, applied at every ROM start: class, instance, sub, address [R61]. -/
  burnt : List (Nat × Nat × Nat × Nat) := []
  /-- Self-test records of the last judging run, also kept in retained state [R61]. -/
  bistRetained : List (List Nat) := []
  deriving DecidableEq, Repr

/-- One 32-byte entry of a result or event ring, Table 4.5, before its phase bit [R84]. -/
structure RingEntry where
  /-- seq of word 0 [R84]. -/
  seq : Nat := 0
  /-- opcode of word 0; 0xFF for an event [R84]. -/
  opcode : Nat := 0
  /-- queue of word 0 [R84]. -/
  queue : Nat := 0
  /-- kind of word 0: 0 result, 1 event, 2 result from backlog [R84]. -/
  kind : Nat := 0
  /-- code of word 1 [R84]. -/
  code : Nat := 0
  /-- ctx of word 1 [R84]. -/
  ctx : Nat := 0
  /-- word 2: order tag, or source of the event [R84]. -/
  tag : Nat := 0
  /-- word 3 [R84]. -/
  v3 : Nat := 0
  /-- word 4 [R84]. -/
  v4 : Nat := 0
  /-- word 5 [R84]. -/
  v5 : Nat := 0
  /-- word 6: device time, low 32 bits of seconds [R84]. -/
  timeS : Nat := 0
  /-- word 7: device time, nanoseconds [R84]. -/
  timeNs : Nat := 0
  deriving DecidableEq, Repr

/-- A result ring (0–7) or the event ring (8) set up by RING_SETUP [R82, R84]. -/
structure Ring where
  /-- Host base address [R80]. -/
  base : Nat := 0
  /-- log2 of the entries, 6–16 [R80]. -/
  log2 : Nat := 6
  /-- Coalesce count 1–255 [R84]. -/
  count : Nat := 1
  /-- Coalesce time in µs, 0–1,000 [R84]. -/
  timeUs : Nat := 0
  /-- Entries written since set-up; its low bits are the index, the next bit the phase [R84]. -/
  written : Nat := 0
  /-- Entries the host has reported consumed since set-up [R85]. -/
  consumed : Nat := 0
  /-- Entries not yet signalled by MSI-X [R84]. -/
  unsig : Nat := 0
  /-- Instant of the first unsignalled entry [R84]. -/
  unsigAt : Nat := 0
  deriving DecidableEq, Repr

/-- An order SCH has collected and whose result record is not yet made [R80, R81]. -/
structure Order where
  /-- Queue 0–15 [R79]. -/
  queue : Nat := 0
  /-- Number the model gives each collected order, to tell orders of equal queue and seq apart [R82]. -/
  id : Nat := 0
  /-- seq of word 0 [R79]. -/
  seq : Nat := 0
  /-- opcode of word 0 [R83]. -/
  opcode : Nat := 0
  /-- ctx field of word 0 [R83]. -/
  ctx : Nat := 0
  /-- fence bit of word 0 [R81]. -/
  fence : Bool := false
  /-- reserved bits [31:29] of word 0 [R83]. -/
  rsv : Nat := 0
  /-- tag, word 1 [R81]. -/
  tag : Nat := 0
  /-- argument words 2–15 [R79]. -/
  args : List Nat := []
  /-- Result ring its reservation is in; none once that ring lapsed [R82]. -/
  ring : Option Nat := none
  /-- The order has started and waits to complete [R81]. -/
  started : Bool := false
  deriving DecidableEq, Repr

/-- A BAR2 slot mapped by BAR2_MAP [R77]. -/
structure Bar2Slot where
  /-- Context whose page tables translate it [R77]. -/
  ctx : Nat := 0
  /-- Writes are allowed [R77]. -/
  writable : Bool := false
  /-- 1 GiB-aligned base in the context's virtual space [R77]. -/
  base : Nat := 0
  deriving DecidableEq, Repr

/-- An MSI-X message as the device writes it (R86): its vector, and the address and data of its table entry. -/
structure MsixMsg where
  /-- Vector. -/
  vector : Nat
  /-- Message address. -/
  addr : Nat
  /-- Message data. -/
  data : Nat
  deriving DecidableEq, Repr

/-- How the last host access to BAR0 or BAR2 completed [R76, R77, R78]. -/
inductive Completion where
  | none | ok | unsupported | aborted
  deriving DecidableEq, Repr

/-- Host interface state beside the `CMD_` registers (chapter Host interface). -/
structure HostIf where
  /-- A handshake has agreed and not lapsed [R71]. -/
  agreed : Bool := false
  /-- Queue the next tick visits first [R80]. -/
  rrStart : Nat := 0
  /-- Rings in force, by ring number 0–8 [R80]. -/
  rings : KMap Ring := []
  /-- Orders collected and not completed, in collection order [R81]. -/
  orders : List Order := []
  /-- Number of the next order collected. -/
  nextOrder : Nat := 0
  /-- The backlog in device memory, oldest first [R89]. -/
  backlog : List RingEntry := []
  /-- BAR2 slots mapped [R77]. -/
  bar2 : KMap Bar2Slot := []
  /-- Heartbeat value seen at the last tick [R87]. -/
  hbLast : Nat := 0
  /-- Tick instant that last saw the heartbeat value change [R87]. -/
  hbAt : Nat := 0
  /-- The heartbeat interval restarts at the next tick, after an SCH return [R485]. -/
  hbRestart : Bool := false
  /-- Events numbered so far; its low 16 bits are an event's seq [R84]. -/
  evtNumber : Nat := 0
  /-- Events lost and not yet reported by E_EVT_LOST [R85]. -/
  evtLostPending : Nat := 0
  /-- Instant each rate-limited event was last raised, by (code, key) [R492]. -/
  rate : List ((Nat × Nat) × Nat) := []
  /-- MSI-X messages sent, oldest first [R86]. -/
  msix : List MsixMsg := []
  /-- Words of the MSI-X table that were written, by word index [R73]. -/
  msixTable : KMap W32 := []
  /-- Vectors whose message waits for its mask to clear: the pending bit array [R73]. -/
  msixPend : List Nat := []
  /-- Completion of the last host access [R76]. -/
  lastCpl : Completion := .none
  /-- Data the last BAR0 or BAR2 read returned [R76, R77]. -/
  lastData : List Byte := []
  /-- Higher words latched by reading a wide register's low word, by offset [R76]. -/
  readLatch : KMap W32 := []
  deriving DecidableEq, Repr

/-- One configuration generation an open piece may still refer to [R104, R107]. -/
structure Gen where
  /-- Generation number [R100]. -/
  gen : Nat := 0
  /-- Instant of its cast: device time in ns [R101]. -/
  instant : Nat := 0
  /-- Live values of the staged registers while it was in force [R107]. -/
  cfg : KMap W32 := []
  /-- Slots (runner × 4 + slot) whose ROW-scoped configuration its cast changed [R105]. -/
  rows : List Nat := []
  deriving DecidableEq, Repr

/-- A cast armed and waiting for its instant, or the check that would arm it [R96–R108]. -/
structure Pending where
  /-- Instant mode: 0 immediate, 1 time, 2 count [R101]. -/
  mode : Nat := 0
  /-- Encoder channel of a count cast [R101]. -/
  chan : Nat := 0
  /-- Direction of a count cast: 0 forward, 1 reverse [R101]. -/
  dir : Nat := 0
  /-- N of a count cast [R101]. -/
  count : Nat := 0
  /-- T of a time cast, device time in ns [R101]. -/
  time : Nat := 0
  /-- `STG_CAST_LEAD` as it stood at the operation [R95]. -/
  lead : Nat := 0
  /-- The dirty Cuette registers frozen at the operation, by BAR0 offset [R98, R100]. -/
  set : KMap W32 := []
  /-- The dirty RNY_ registers frozen at the operation, by index [R106]. -/
  rny : KMap W32 := []
  /-- Offsets written since the ARM, so that they stay dirty; RNY_ indices have bit 31 set [R100]. -/
  rewritten : List Nat := []
  /-- The operation is an ARM, not a CHECK [R96]. -/
  arm : Bool := false
  /-- A DISCARD written while CHECKING is held until the check ends [R98]. -/
  discardHeld : Bool := false
  /-- Device time in ns at which the arm was accepted; an application report older than it belongs to an earlier cast [R393]. -/
  armedAt : Nat := 0
  deriving DecidableEq, Repr

/-- A correction table as one bank holds it [R142]. -/
structure CorrTable where
  /-- L [R142]. -/
  l : List Nat := []
  /-- D [R142]. -/
  d : List Nat := []
  /-- G [R142]. -/
  g : List Nat := []
  /-- Defects: (column, mode) [R142]. -/
  defects : List (Nat × Nat) := []
  deriving DecidableEq, Repr

/-- One retained configuration record on the NAND [R110]. -/
structure RetRecord where
  /-- Sequence number, equal to the generation [R110]. -/
  seq : Nat := 0
  /-- Cast values of every staged Cuette register [R65, R110]. -/
  cfg : KMap W32 := []
  /-- Cast values of every staged RNY_ register [R65, R110]. -/
  rny : KMap W32 := []
  /-- Programs of LINE contexts: program ID, context, and what each declares [R65]. -/
  progs : List (Nat × Nat × Program) := []
  /-- LINE contexts: number, priority and mask, bit n for the n-th flask in use [R65, R317]. -/
  lines : List (Nat × Nat × BitVec 32) := []
  /-- Contents of each slot's correction table, by runner × 4 + slot [R145]. -/
  tables : KMap CorrTable := []
  /-- Trailer, once written: digest of header and body, signature by the device identity key, and sequence number [R110]. -/
  trailer : Option (Nat × Nat × Nat) := none
  deriving DecidableEq, Repr

/-- Staging and cast state beside the `STG_` registers (chapter Staged configuration). -/
structure Stage where
  /-- Shadow values of the dirty Cuette registers, by BAR0 offset [R94]. -/
  shadow : KMap W32 := []
  /-- Shadow values of the dirty RNY_ registers, by index [R94]. -/
  rnyShadow : KMap W32 := []
  /-- The operation CHECKING, or the cast pending [R97, R98]. -/
  pend : Option Pending := none
  /-- The generations before the live one, newest first [R104, R107]. -/
  gens : List Gen := []
  /-- Instant (device time, ns) of the live generation's cast [R104]. -/
  liveInstant : Nat := 0
  /-- Slots (runner × 4 + slot) whose ROW-scoped configuration the live generation's cast changed [R105]. -/
  liveRows : List Nat := []
  /-- Ledger entries open at the last cast's instant and not yet settled against it [R105]. -/
  openAtCast : List Nat := []
  /-- The retained record ring of 64 slots, oldest first [R110]. -/
  records : List RetRecord := []
  /-- Retained records being written, oldest first [R110]. -/
  writing : List RetRecord := []
  deriving DecidableEq, Repr

/-- State of one tap of a piece's planned action [R361, R376]. -/
inductive TapState where
  /-- Not part of the action. -/
  | off
  /-- Sent to Ronyr, no answer yet. -/
  | sent
  /-- Ronyr's queue was full; resent in every barrier frame. -/
  | retry
  /-- In Ronyr's tap queue. -/
  | queued
  /-- Confirmed fired. -/
  | fired
  /-- Marked unfired. -/
  | unfired
  deriving DecidableEq, Repr

/-- A tap order, Table 17.5 [R375]. -/
structure TapOrder where
  /-- Output DQ0–DQ15 [R375]. -/
  k : Nat := 0
  /-- Encoder channel [R375]. -/
  chan : Nat := 0
  /-- Direction: 0 forward, 1 reverse [R375]. -/
  dir : Nat := 0
  /-- 0 width in counts, 1 in µs [R375]. -/
  wmode : Nat := 0
  /-- The piece holds no ledger entry [R363]. -/
  noent : Bool := false
  /-- Ledger index [R375]. -/
  entry : Nat := 0
  /-- Tap 0–3 of the action [R375]. -/
  tap : Nat := 0
  /-- Fire count N [R375]. -/
  n : Nat := 0
  /-- Width W [R375]. -/
  w : Nat := 0
  /-- Low 32 bits of the serial [R375]. -/
  serial : Nat := 0
  deriving DecidableEq, Repr

/-- A message on the barrier link [R391]. -/
inductive Msg where
  /-- Cuette to Ronyr: a tap order [R375]. -/
  | tap (o : TapOrder)
  /-- Cuette to Ronyr: SAFE [R471]. -/
  | safe
  /-- Cuette to Ronyr: RESUME [R395]. -/
  | resume
  /-- Ronyr to Cuette: answer to a tap order: 0 queued, 1 full, 2 late, 3 safe [R396]. -/
  | tapAnswer (o : TapOrder) (answer : Nat)
  /-- Ronyr to Cuette: fire report: p at turn-on, interval-timer time, result 0 fired, 1 fired unverified, 2 unfired; jumped [R400]. -/
  | fire (o : TapOrder) (p time result : Nat) (jumped : Bool)
  /-- Ronyr to Cuette: a diagnostic event with its words 2 and 3 [R391]. -/
  | event (code : Nat) (w2 w3 : Option Nat)
  /-- Ronyr to Cuette: application report of a cast, with the device time (ns) of the crossing [R393]. -/
  | applied (time : Nat)
  /-- Ronyr to Cuette: motion of 16 counts or more since S1 [R404]. -/
  | motion (ch : Nat)
  deriving DecidableEq, Repr

/-- A ledger entry, Table 17.1, with what its PIECE record needs beside it [R360, R381]. -/
structure LEntry where
  /-- state: 1 OPEN, 2 CLOSED, 3 SETTLED, 4 PLANNED; 0 FREE is an absent entry [R361]. -/
  state : Nat := 1
  /-- trail_known [R360]. -/
  trailKnown : Bool := false
  /-- class 0–63 [R360]. -/
  cls : Nat := 0
  /-- lane 0–15 [R360]. -/
  lane : Nat := 0
  /-- logical stream 0–63 [R360]. -/
  stream : Nat := 0
  /-- Verdict code of Table 17.1; 0 none [R360]. -/
  verdict : Nat := 0
  /-- Planned action 0–7 [R374]. -/
  action : Nat := 0
  /-- The action is the class default [R369]. -/
  dflt : Bool := false
  /-- edge_uncertain [R158]. -/
  edgeUnc : Bool := false
  /-- The class runs in twin pour [R353]. -/
  twin : Bool := false
  /-- Truncated by a cast [R105]. -/
  castTrunc : Bool := false
  /-- Generation at the leading edge [R104]. -/
  gen : Nat := 0
  /-- Serial number, 48 bits [R362]. -/
  serial : Nat := 0
  /-- fired bits of taps 0–3 [R376]. -/
  fired : BitVec 4 := 0
  /-- unfired bits of taps 0–3 [R376]. -/
  unfired : BitVec 4 := 0
  /-- Leading-edge count [R360]. -/
  lead : Nat := 0
  /-- Status code that settled an UNDECIDED_ verdict [R360]. -/
  cause : Nat := 0
  /-- Trailing-edge count [R360]. -/
  trail : Nat := 0
  /-- Decision deadline [R366]. -/
  deadline : Nat := 0
  /-- Count mirror when the code was set [R360]. -/
  vcount : Nat := 0
  /-- Low 32 bits of the ADMITTED step [R305]. -/
  admitStep : Nat := 0
  /-- Low 32 bits of the LEFT step [R305]. -/
  leave : Nat := 0
  /-- Device time, nanoseconds, when the code was set [R360]. -/
  vns : Nat := 0
  /-- Device time, seconds, when the code was set [R381]. -/
  vs : Nat := 0
  /-- Verdict the rule program gave: 0 none, 1 PASS, 2 REJECT [R368, R381]. -/
  ruleVerdict : Nat := 0
  /-- The four journalled rule inputs, F32 [R381]. -/
  ruleIn : List Nat := [0, 0, 0, 0]
  /-- Taps used nominal anchors [R369]. -/
  nominal : Bool := false
  /-- Head outputs arrived after the code was set [R368]. -/
  lateOut : Bool := false
  /-- A capture record was made [R167]. -/
  captured : Bool := false
  /-- A tap order was resent [R376]. -/
  retried : Bool := false
  /-- Segment index carried on from a truncated segment [R105]. -/
  seg : Option Int := none
  /-- Piece digest pd, 128 bits [R349]. -/
  pd : Nat := 0
  /-- Per-piece digests d_0–d_7 of set A, once the piece has left [R349, R381]. -/
  digA : List Nat := []
  /-- Those of set B, in twin pour [R349, R381]. -/
  digB : List Nat := []
  /-- The piece was admitted [R305]. -/
  admitted : Bool := false
  /-- SCH still holds the piece [R361]. -/
  held : Bool := true
  /-- N of tap 0 of the action [R381]. -/
  tap0N : Nat := 0
  /-- State of taps 0–3 [R376]. -/
  taps : List TapState := [.off, .off, .off, .off]
  /-- Queue epoch last seen when each tap's order was sent [R395]. -/
  tapEpoch : List Nat := [0, 0, 0, 0]
  /-- Device time (ns) of the leading edge's row trigger [R104]. -/
  leadTime : Nat := 0
  /-- Runner slot that opened it (runner × 4 + slot), for the trailing edge and casts [R105]. -/
  slot : Nat := 0
  /-- Number of the piece in segmentation [R159]. -/
  rid : Nat := 0
  /-- Rows of the piece counted so far, feature 0 of Table 17.4 [R370]. -/
  rows : Nat := 0
  deriving DecidableEq, Repr

/-- A journal record: type, version, body words and its sequence [R380]. -/
structure JRec where
  /-- Type of Table 17.6 [R380]. -/
  typ : Nat := 0
  /-- Slots of 128 bytes it takes [R380]. -/
  slots : Nat := 1
  /-- 32-bit words 0 … of the record, without its sequence [R380]. -/
  words : List Nat := []
  /-- 64-bit record sequence [R380]. -/
  seq : Nat := 0
  /-- Page of the block it stands in [R380]. -/
  page : Nat := 0
  /-- First slot of the page it takes [R380]. -/
  slot : Nat := 1
  deriving DecidableEq, Repr

/-- A journal block, open or sealed [R380, R382]. -/
structure JBlock where
  /-- Block number from 0 at manufacture [R382]. -/
  num : Nat := 0
  /-- Records in order [R380]. -/
  recs : List JRec := []
  /-- Sealed by timeout [R382]. -/
  byTimeout : Bool := false
  /-- Sealed at boot [R382]. -/
  atBoot : Bool := false
  /-- Signed late [R382]. -/
  late : Bool := false
  /-- Device time (ns) of the seal [R382]. -/
  sealNs : Nat := 0
  /-- Hash of the previous block, of this block, and the signature, once SC has signed [R382]. -/
  trailer : Option (Nat × Nat × Nat) := none
  deriving DecidableEq, Repr

/-- A sequence record of the power-loss account [R477]. -/
structure SeqRecord where
  /-- Reserve mark [R477]. -/
  mark : Nat := 0
  /-- Written whole [R477]. -/
  complete : Bool := true
  deriving DecidableEq, Repr

/-- The journal on the managed NAND and in SYSTEM-context memory [R380–R385]. -/
structure Journal where
  /-- Next record sequence [R380]. -/
  nextSeq : Nat := 1
  /-- Records on the NAND in the open block, and the open page's records written so far [R383]. -/
  openBlock : JBlock := {}
  /-- Records of the open block that are on the NAND (the rest stand in the open page) [R383]. -/
  stored : Nat := 0
  /-- Page of the open block being filled [R380]. -/
  page : Nat := 0
  /-- Next free slot of that page, 1–31 [R380]. -/
  slot : Nat := 1
  /-- Elapsed instant (ns) of the first record of the open block [R382]. -/
  firstAt : Nat := 0
  /-- Elapsed instant (ns) of the last page write [R383]. -/
  pageAt : Nat := 0
  /-- Sealed blocks held, oldest first [R382, R384]. -/
  sealedBlocks : List JBlock := []
  /-- Elapsed instant E_JOURNAL_FULL was last raised [R384]. -/
  fullAt : Option Nat := none
  /-- Instants (ns) of the records written in the last 1 s [R386]. -/
  recent : List Nat := []
  /-- Sequence records, newest last [R477]. -/
  seqRecords : List SeqRecord := []
  /-- Highest serial found in a PIECE record of the journal [R362]. -/
  topSerial : Nat := 0
  /-- Block shown in LIN_JRN_WIN [R385]. -/
  window : Option JBlock := none
  /-- Capture store: offset, length and hash of each record, newest last [R380]. -/
  captures : List (Nat × Nat × Nat) := []
  deriving DecidableEq, Repr

/-- Cuette's side of line control beside the `LIN_` registers [R360–R387]. -/
structure Line where
  /-- Ledger entries not FREE, by index [R360]. -/
  ledger : KMap LEntry := []
  /-- Serial of the next piece [R362]. -/
  serialNext : Nat := 1
  /-- Reserve mark in force [R477]. -/
  mark : Nat := 0
  /-- The ledger is frozen by the power-fail sequence [R475]. -/
  frozen : Bool := false
  /-- Elapsed instant until which each latched halt condition's cause was last present: undec, ledger_full, tap_late, journal_full [R379]. -/
  causeAt : KMap Nat := []
  /-- Elapsed instants of UNDECIDED_ codes in the undec window [R378]. -/
  undecAt : List Nat := []
  /-- Messages waiting for the next barrier frames to Ronyr, oldest first [R376, R391]. -/
  tx : List Msg := []
  /-- Messages delivered by Ronyr's frames and not yet acted on, oldest first [R391]. -/
  rx : List Msg := []
  /-- Tap orders of pieces without an entry that Ronyr has not yet answered, with serial and class [R363]. -/
  noent : List (TapOrder × Nat × Nat) := []
  /-- The live (heartbeat) bit is sent in barrier frames [R392, R471]. -/
  live : Bool := false
  /-- Elapsed instant of the last valid Ronyr frame [R392]. -/
  frameAt : Nat := 0
  /-- Instants of the Ronyr frames discarded within the last 1 s [R391]. -/
  badFrames : List Nat := []
  /-- Valid Ronyr frames without a break since this instant [R392, R471]. -/
  validSince : Option Nat := none
  /-- Queue epoch last seen from Ronyr [R391]. -/
  epochSeen : Nat := 0
  /-- Ronyr's last frame showed its field safe state [R391]. -/
  fieldSafe : Bool := true
  /-- Ronyr's last frame showed a cause of its own present [R471]. -/
  fieldOwn : Bool := false
  /-- The live bit was cleared as the fallback of an unacknowledged SAFE [R392]. -/
  fallback : Bool := false
  /-- Inputs of Ronyr's last frame [R391]. -/
  inputs : BitVec 16 := 0
  /-- Sequence number of the next Cuette frame [R391]. -/
  frameSeq : Nat := 0
  /-- Instant of the last RESUME sent [R395]. -/
  resumeAt : Option Nat := none
  /-- SAFE waits for Ronyr's acknowledgement, sent at this instant [R471]. -/
  safeSent : Option Nat := none
  /-- Ronyr has acknowledged the SAFE [R471]. -/
  safeAcked : Bool := false
  /-- Deadline sweeps complete without a stall since this instant [R470, R471]. -/
  sweepOkSince : Option Nat := some 0
  deriving DecidableEq, Repr

/-- A firmware processor: SC 0, PMC 1, SCH 2, FC n 3 + n [R479]. -/
structure Fw where
  /-- Elapsed instants of its recent watchdog resets [R482, R456]. -/
  resets : List Nat := []
  deriving DecidableEq, Repr

/-- A log record, Table 22.4 [R488]. -/
structure LogRec where
  /-- Word 0: code, source, level, block [R488]. -/
  w0 : Nat := 0
  /-- Words 1–4: event words 2–5 [R488]. -/
  detail : List Nat := []
  /-- 64-bit log sequence [R488]. -/
  seq : Nat := 0
  /-- Device time, low 32 bits of seconds [R488]. -/
  timeS : Nat := 0
  /-- Device time, nanoseconds [R488]. -/
  timeNs : Nat := 0
  deriving DecidableEq, Repr

/-- A trace record, 16 bytes [R490]. -/
structure TraceRec where
  /-- Trace point [R490]. -/
  point : Nat := 0
  /-- Source, coded as in Table 22.4 [R490]. -/
  source : Nat := 0
  /-- Timebase, low 48 bits [R490]. -/
  timebase : Nat := 0
  /-- Argument, 64 bits [R490]. -/
  arg : Nat := 0
  deriving DecidableEq, Repr

/-- Log, trace and firmware processors beside the `DBG_` registers [R479–R491]. -/
structure Debug where
  /-- Firmware processors with recent resets, by index 0–34 [R479]. -/
  fw : KMap Fw := []
  /-- Log ring of 131,072 records, oldest first [R488]. -/
  log : List LogRec := []
  /-- Sequence of the newest log record; 0 before the first [R488]. -/
  logSeq : Nat := 0
  /-- Log sequences printed on UART_TXD, oldest first [R489]. -/
  uart : List Nat := []
  /-- Trace buffer of 524,288 records, by buffer index [R490]. -/
  trace : KMap TraceRec := []
  deriving DecidableEq, Repr

/-- Power management and the safety monitor beside the `PWR_` registers [R460–R478]. -/
structure Power where
  /-- Power state in force: 0 S0, 1 S1, 2 S2, 3 S3 [R460]. -/
  state : Nat := 0
  /-- A host request for S1 waits for its conditions [R461]. -/
  s1Req : Bool := false
  /-- A power-state request made while PMC is absent waits [R486]. -/
  waitReq : Option Nat := none
  /-- Elapsed instant of the last change of each channel's position as S1 sees it [R461]. -/
  motionAt : Nat := 0
  /-- Elapsed instant the thermal source last changed its step [R465]. -/
  thermAt : Nat := 0
  /-- Elapsed instant the input-power guard last changed its step [R465]. -/
  guardAt : Nat := 0
  /-- Cuette junction in °C + 64, last measured [R467]. -/
  junction : Nat := 109
  /-- Board temperature in °C + 64 [R467]. -/
  board : Nat := 109
  /-- Ronyr junction in °C + 64 [R467]. -/
  rnyJunction : Nat := 109
  /-- Input current in 10 mA [R467]. -/
  current : Nat := 0
  /-- Input power, 1 ms mean, in 100 mW [R467]. -/
  power : Nat := 0
  /-- Means of the last 1 s, as (instant, power), for the peak [R478]. -/
  powers : List (Nat × Nat) := []
  /-- Throttling is in force [R24]. -/
  throttling : Bool := false
  /-- The junction has been at or above 115 °C and not below 100 °C since [R471]. -/
  hot : Bool := false
  /-- A cause of MSMB_ALERT# has been in force and command 0x01 has not been read since it ended [R467]. -/
  alert : Bool := false
  /-- Word the last MSMB read returned [R467]. -/
  msmb : Option Nat := none
  /-- PEC supplied with that word [R467]. -/
  pec : Nat := 0
  /-- The conditions of S1 beside the counts have held, with s1_en, since this instant [R461]. -/
  idleSince : Option Nat := none
  /-- An MSMB wake command has arrived in S2 [R463]. -/
  wakeReq : Bool := false
  /-- `PWR_S1_CFG.s2_wake_motion` as it stood at the entry to S2 [R463]. -/
  s2Motion : Bool := true
  /-- Every latched safe-state cause has been absent since this instant [R473]. -/
  absentSince : Option Nat := none
  /-- Filtered level of the acknowledgement input when last seen [R473]. -/
  ackLevel : Bool := false
  /-- Every crucible is stopped by a safe-state cause 0, 1 or 3, or by SERREF loss [R471]. -/
  crucibleStop : Bool := false
  /-- Crucibles, fettlers, ladles and runners have stopped for the power-fail sequence [R475]. -/
  failStop : Bool := false
  deriving DecidableEq, Repr

/-- A fire in Ronyr's tap queue [R396, R397]. -/
structure Fire where
  /-- Its order [R396]. -/
  order : TapOrder := {}
  /-- 0 waiting for its count, 1 reached and due to turn on, 2 on, 3 on time ended and due to report [R397]. -/
  phase : Nat := 0
  /-- p at turn-on [R400]. -/
  onP : Nat := 0
  /-- Interval-timer instant of turn-on [R400]. -/
  onAt : Nat := 0
  /-- Instant the on time ends by timer (wmode 1, or 10 µs for a jumped fire) [R397]. -/
  offAt : Option Nat := none
  /-- One serial update carried p beyond the window [R397]. -/
  jumped : Bool := false
  /-- The output was latched off or the supply low at some time of the fire [R400]. -/
  blocked : Bool := false
  /-- Verification sampling saw the output above L+ − 4 V [R400]. -/
  seen : Bool := false
  /-- An open wire was found during the fire [R413]. -/
  openWire : Bool := false
  deriving DecidableEq, Repr

/-- One encoder channel of Ronyr [R401–R405]. -/
structure Enc where
  /-- Raw counter r, 48 bits [R401]. -/
  r : Nat := 0
  /-- Position counter p, 48 bits [R401]. -/
  p : Nat := 0
  /-- The last accepted steps, newest first: interval-timer instant (ns) and signed step of p's source [R404]. -/
  steps : List (Nat × Int) := []
  /-- Instant of the last step that arrived, counted or not, for the 50 ns check [R405]. -/
  lastAt : Option Nat := none
  /-- Valid steps (or serial reads) in a row since the last plausibility failure; none while none has failed [R395]. -/
  goodSteps : Option Nat := none
  /-- p and direction of the last index latch; direction true is rising p [R405]. -/
  lastIdx : Option (Nat × Bool) := none
  /-- Counts moved since the last index latch or channel enable [R405]. -/
  sinceIdx : Nat := 0
  /-- The missing-index failure for the present stretch has been reported [R405]. -/
  idxMissed : Bool := false
  /-- Last valid serial read [R401]. -/
  lastRead : Option Nat := none
  /-- Serial reads failed in a row [R405]. -/
  badReads : Nat := 0
  /-- p when S1 was entered, for the motion report [R404]. -/
  motionBase : Nat := 0
  /-- Motion has been reported since S1 was entered [R404]. -/
  motionSent : Bool := false
  deriving DecidableEq, Repr

/-- One emulated output of Ronyr [R406, R407]. -/
structure Emu where
  /-- p when the cast enabled the output [R406]. -/
  p0 : Nat := 0
  /-- Emulated count E [R406]. -/
  e : Int := 0
  /-- High-water mark hw [R406]. -/
  hw : Int := 0
  /-- Edges waiting, with the source p and instant that queued each [R407]. -/
  edges : List (Nat × Nat) := []
  /-- Edge reports waiting for a frame's slot: source p and timer time [R407]. -/
  reports : List (Nat × Nat) := []
  /-- Edges or reports dropped and not yet told to the camera port: source p and timer time [R407, R122]. -/
  dropped : List (Nat × Nat) := []
  /-- The output is busy with the last pulse until this instant [R406]. -/
  busyUntil : Nat := 0
  /-- Instant at which the pulse of the last edge ends [R407]. -/
  highUntil : Nat := 0
  deriving DecidableEq, Repr

/-- One general input of Ronyr [R408, R409]. -/
structure Inp where
  /-- Integrating counter acc [R408]. -/
  acc : Nat := 0
  /-- Filtered state before inversion [R408]. -/
  state : Bool := false
  /-- Samples in a row with the current below 0.35 mA [R409]. -/
  lowFor : Nat := 0
  /-- Samples in a row with the current at or above 0.35 mA [R409]. -/
  okFor : Nat := 0
  /-- Wire break is latched [R409]. -/
  wireBreak : Bool := false
  deriving DecidableEq, Repr

/-- One output driver of Ronyr [R399, R410–R413]. -/
structure Drv where
  /-- Latched off: overload, thermal or stuck off [R410, R412]. -/
  off : Bool := false
  /-- Instant of the switch-off that latched it [R410]. -/
  offAt : Nat := 0
  /-- Instants of switch-offs in the last 10 s [R410]. -/
  offs : List Nat := []
  /-- Instants of automatic restarts in the last 10 s [R410]. -/
  restarts : List Nat := []
  /-- The latch no longer clears by itself: the fourth switch-off in 10 s [R410]. -/
  stay : Bool := false
  /-- Junction at or above 135 °C since a thermal switch-off [R410]. -/
  hot : Bool := false
  /-- Mismatching readback samples in a row [R412]. -/
  mismatch : Nat := 0
  /-- Instant of the last commanded change [R412]. -/
  changedAt : Nat := 0
  deriving DecidableEq, Repr

/-- Ronyr, the field-side chip [R388–R415]. -/
structure Ronyr where
  /-- Field safe state in force [R394]. -/
  safe : Bool := true
  /-- Causes present now, coded as Table 18.2 [R395]. -/
  present : BitVec 7 := 0
  /-- L+ is low: below 17 V and not yet 100 ms at or above 18 V [R411]. -/
  supplyLow : Bool := false
  /-- L+ in mV [R411]. -/
  lplusMv : Nat := 24000
  /-- L+ at or above 18 V without a break since this instant [R411]. -/
  supplyOkSince : Option Nat := none
  /-- The field watchdog is served [R389]. -/
  wdogServed : Bool := true
  /-- Ronyr's clock is within range [R389]. -/
  clockOk : Bool := true
  /-- Instant of the last valid heartbeat frame [R392]. -/
  beatAt : Nat := 0
  /-- Heartbeat valid without a break since this instant; none while lost [R395]. -/
  beatSince : Option Nat := none
  /-- Sequence number of the last valid frame [R392]. -/
  lastSeq : Option Nat := none
  /-- Low 8 bits of GLB_BOOT_COUNT in the last frame [R393]. -/
  bootLow : Option Nat := none
  /-- Healthy flag of the last frame [R378]. -/
  healthy : Bool := false
  /-- A RESUME is held [R395]. -/
  resumeHeld : Bool := false
  /-- The tap queue: pending and running fires, oldest first [R396]. -/
  fires : List Fire := []
  /-- Commanded state of each output at the last settle [R412]. -/
  commanded : BitVec 16 := 0
  /-- Outputs read back energised [R412]. -/
  energised : BitVec 16 := 0
  /-- The two encoder channels [R401]. -/
  enc : List Enc := [{}, {}]
  /-- The two emulated outputs [R406]. -/
  emu : List Emu := [{}, {}]
  /-- The sixteen inputs [R408]. -/
  inp : List Inp := List.replicate 16 {}
  /-- The sixteen output drivers [R410]. -/
  drv : List Drv := List.replicate 16 {}
  /-- Shadow of staged values sent by Cuette, by index [R106]. -/
  shadow : KMap W32 := []
  /-- A cast is armed on Ronyr's side: mode, channel, direction, count, device time [R106]. -/
  armed : Option (Nat × Nat × Nat × Nat × Nat) := none
  /-- Messages waiting for Cuette, oldest first [R391]. -/
  tx : List Msg := []
  /-- Messages received from Cuette and not yet acted on, oldest first [R391]. -/
  rx : List Msg := []
  /-- SAFE has been received; the next frame acknowledges it [R471]. -/
  ackSafe : Bool := false
  deriving DecidableEq, Repr

/-- The data set of a PTP master, as Announce messages carry it [R419]. -/
structure PtpMaster where
  /-- clockIdentity, 64 bits [R438]. -/
  ident : Nat := 0
  /-- Port number [R438]. -/
  port : Nat := 0
  /-- grandmasterPriority1 [R419]. -/
  prio1 : Nat := 128
  /-- clockClass [R419]. -/
  cclass : Nat := 248
  /-- clockAccuracy [R419]. -/
  accuracy : Nat := 254
  /-- offsetScaledLogVariance [R419]. -/
  variance : Nat := 0xFFFF
  /-- grandmasterPriority2 [R419]. -/
  prio2 : Nat := 128
  /-- grandmasterIdentity [R419]. -/
  gm : Nat := 0
  /-- stepsRemoved [R419]. -/
  steps : Nat := 0
  deriving DecidableEq, Repr

/-- Device time and the servo beside the `TIM_` registers [R416–R425]. -/
structure Tim where
  /-- Device time: ns since the epoch, seconds × 10^9 + nanoseconds [R416]. -/
  ns : Nat := 1000000000
  /-- Fraction, in units of 2^−16 ns [R416]. -/
  frac : Nat := 0
  /-- Frequency adjustment in force, ppb × 2^16 of R420 rounded to ppb [R420]. -/
  freq : Int := 0
  /-- Σo since the servo state was last entered [R420]. -/
  sum : Int := 0
  /-- Consecutive samples with |o| ≤ 1 µs [R420]. -/
  runIn : Nat := 0
  /-- Consecutive samples above the threshold [R421]. -/
  runAbove : Nat := 0
  /-- Consecutive samples within the threshold [R421]. -/
  runWithin : Nat := 0
  /-- f at each sample of the last 1 s of LOCKED, as (instant, f) [R420]. -/
  freqs : List (Nat × Int) := []
  /-- A master was selected since boot [R420]. -/
  everMaster : Bool := false
  /-- The selected master and its data set [R419, R422]. -/
  master : Option PtpMaster := none
  /-- The master was newly selected and no sample of it has been judged [R421]. -/
  newMaster : Bool := false
  /-- Elapsed instant of the last Announce of the selected master [R422]. -/
  announceAt : Nat := 0
  /-- Announce interval of the selected master, log2 seconds [R422]. -/
  announceLog : Int := 1
  /-- A step waits for a cast at a time or an armed start barrier: the master time (ns) less device time [R421]. -/
  stepWait : Option Int := none
  /-- PPS_OUT stays high until this elapsed instant [R418]. -/
  ppsUntil : Nat := 0
  /-- Chain: filtered offset within ±0.5 ns without a break since this instant [R424]. -/
  chainOkSince : Option Nat := none
  /-- Chain: the upstream device is the time root or is itself locked [R424]. -/
  upstreamLocked : Bool := false
  deriving DecidableEq, Repr

/-- A share message [R436]. -/
structure ShareMsg where
  /-- Class [R436]. -/
  cls : Nat := 0
  /-- Segment index [R436]. -/
  seg : Int := 0
  /-- Aligned lead [R436]. -/
  lead : Nat := 0
  /-- Kind: 0 DONE, 1 REFUSED, 2 CORRUPT, 3 FAULT [R436]. -/
  kind : Nat := 0
  deriving DecidableEq, Repr

/-- A frame on the Nolox link, Table 19.3 [R427]. -/
structure NlxFrame where
  /-- Destination chain ID [R427]. -/
  dst : Nat := 0
  /-- Source chain ID [R427]. -/
  src : Nat := 0
  /-- Type 0–4 [R427]. -/
  typ : Nat := 0
  /-- Link sequence modulo 4,096 [R427]. -/
  lseq : Nat := 0
  /-- Sending context [R427]. -/
  ctx : Nat := 0
  /-- Window offset [R427]. -/
  addr : Nat := 0
  /-- Payload [R427]. -/
  payload : List Byte := []
  /-- Content of a share message; R436 gives no layout for its payload [R436]. -/
  share : Option ShareMsg := none
  deriving DecidableEq, Repr

/-- A window frame of this device that has not been answered end to end [R432]. -/
structure Flying where
  /-- Destination chain ID [R427]. -/
  dst : Nat := 0
  /-- Sending context [R427]. -/
  ctx : Nat := 0
  /-- Window offset [R427]. -/
  addr : Nat := 0
  /-- It ends its element [R432]. -/
  last : Bool := true
  /-- Ladle that sends it: flask × 2 + ladle [R432]. -/
  ladle : Nat := 0
  /-- Ticket of the transfer [R432]. -/
  ticket : Nat := 0
  /-- Element [R432]. -/
  elem : Nat := 0
  deriving DecidableEq, Repr

/-- One Nolox port [R426–R429]. -/
structure NlxPort where
  /-- Next link sequence sent [R428]. -/
  txSeq : Nat := 0
  /-- Next link sequence expected [R428]. -/
  rxSeq : Nat := 0
  /-- Unacknowledged frames in the replay buffer, oldest first [R428]. -/
  replay : List NlxFrame := []
  /-- Resends of the oldest unacknowledged frame [R428]. -/
  resends : Nat := 0
  /-- Elapsed instant of the last acknowledgement or (re)send [R428]. -/
  ackAt : Nat := 0
  /-- The acknowledgement last sent: negative, and the lseq it names [R428]. -/
  ack : Option (Bool × Nat) := none
  /-- Chain IDs reachable through the port, as announced at link-up [R429]. -/
  reach : List Nat := []
  /-- End-to-end answers that leave by the port, since the last arrival [R432]. -/
  answers : List NlxAnswer := []
  /-- The next frame of its round robin is one this device injects, not one in transit [R429]. -/
  ownNext : Bool := true
  deriving DecidableEq, Repr

/-- A grant of a chain window by a loaded program [R431]. -/
structure WinGrant where
  /-- Sender's chain ID [R431]. -/
  src : Nat := 0
  /-- Sender's context [R431]. -/
  srcCtx : Nat := 0
  /-- Context whose region it is [R431]. -/
  ctx : Nat := 0
  /-- Grant base in that context's space [R431]. -/
  base : Nat := 0
  /-- Size in bytes [R431]. -/
  size : Nat := 0
  deriving DecidableEq, Repr

/-- Count alignment of one encoder channel [R434]. -/
structure Align where
  /-- Offsets of the last pairs while not aligned, newest first [R434]. -/
  offs : List Int := []
  /-- Own p at the last pair [R434]. -/
  lastP : Nat := 0
  deriving DecidableEq, Repr

/-- Chain state beside the `LNK_` registers [R423–R437]. -/
structure Chain where
  /-- The four ports [R426]. -/
  ports : List NlxPort := [{}, {}, {}, {}]
  /-- Chain IDs unreachable that the chain names [R433]. -/
  lost : List Nat := []
  /-- Window grants [R431]. -/
  grants : List WinGrant := []
  /-- Alignment of the two channels [R434]. -/
  align : List Align := [{}, {}]
  /-- Members whose DONE the head has, as (ledger index, member) [R436]. -/
  done : List (Nat × Nat) := []
  /-- Frames this device injects, waiting for a port, oldest first [R430]. -/
  inject : List NlxFrame := []
  /-- Frames in transit, waiting for a port, oldest first [R429]. -/
  transit : List NlxFrame := []
  /-- Window frames not answered end to end, oldest first [R432]. -/
  flying : List Flying := []
  /-- Instant and bytes of the frames injected within the last 1 ms [R430]. -/
  sent : List (Nat × Nat) := []
  /-- The injection limiter holds frames back since this instant [R430]. -/
  heldAt : Option Nat := none
  /-- Intervals of the last 1 ms in which the limiter held frames back: from, to [R430]. -/
  held : List (Nat × Nat) := []
  /-- Members that have withdrawn alignment, with the channel [R437]. -/
  unaligned : List (Nat × Nat) := []
  /-- WEB fields of shared classes as heads announced them, by head × 64 + class: len and origin [R435]. -/
  heads : KMap (Nat × Nat) := []
  deriving DecidableEq, Repr

/-- A model bundle in the bundle store [R446, R448]. -/
structure Bundle where
  /-- SHA-384 over the bundle as delivered [R446]. -/
  digest : Nat := 0
  /-- Signer public key, X then Y as one number [R446]. -/
  signer : Nat := 0
  /-- SHA-384 of the program images it allows [R446]. -/
  allowed : List Nat := []
  /-- Delivered length in bytes [R448]. -/
  len : Nat := 0
  /-- The bundle as delivered [R448]. -/
  data : List Byte := []
  /-- Decrypted into protected pages of the SYSTEM context [R448]. -/
  loaded : Bool := false
  deriving DecidableEq, Repr

/-- The security core beside the `SEC_` registers [R440–R459]. -/
structure Sec where
  /-- Public key of the owner bound, X then Y [R452]. -/
  owner : Option Nat := none
  /-- Bundle store [R448]. -/
  bundles : List Bundle := []
  /-- Open challenge: nonce and the instant it was issued [R444]. -/
  challenge : Option (Nat × Nat) := none
  /-- Challenges issued since manufacture, which numbers the nonces [R444]. -/
  nonces : Nat := 0
  /-- JTAG was unlocked since boot, quote flag 0 [R445]. -/
  jtagSince : Bool := false
  /-- Live-register debug was used since boot, quote flag 1 [R445]. -/
  liveSince : Bool := false
  /-- SC crashed since boot, quote flag 5 [R445]. -/
  crashed : Bool := false
  /-- The device secret passes its fuse check [R442]. -/
  keysOk : Bool := true
  /-- SC has derived its keys since the reset, `SEC_STAT` identity [R441]. -/
  identity : Bool := false
  /-- The IK certificate matches the derived IK [R442]. -/
  certOk : Bool := false
  /-- A JTAG unlock unloaded every bundle; none loads before the next reset [R455]. -/
  noLoad : Bool := false
  /-- Configuration hash of the live generation, computed as its cast took effect [R445]. -/
  cfgHash : Option Nat := none
  /-- New link-ups waiting for authentication while SC is absent: port and whether the peers' checks pass [R456]. -/
  authWait : List (Nat × Bool × Nat) := []
  /-- The security fault state is in force [R457]. -/
  fault : Bool := false
  deriving DecidableEq, Repr

/-- A page-table leaf, Table 9.4 [R184, R185]. -/
structure Pte where
  /-- DRAM frame address, or host-tier offset for tier 1 [R184]. -/
  frame : Nat := 0
  /-- w: writable [R184]. -/
  w : Bool := true
  /-- prot: protected by SC [R187]. -/
  prot : Bool := false
  /-- tier: 0 DRAM, 1 host tier, 2 migrating, 3 lost [R184]. -/
  tier : Nat := 0
  /-- A page that is being moved from the host tier: its bytes are still there [R185, R194]. -/
  back : Bool := false
  /-- A page of host memory that a JOB pour may name: `frame` is a host address [R74]. -/
  host : Bool := false
  deriving DecidableEq, Repr

/-- A ticket a task holds, of a crucible (engine 0) or a ladle (engine 1) [R238, R239]. -/
structure Ticket where
  /-- Engine kind [R238]. -/
  eng : Nat := 0
  /-- Crucible c or ladle l of the flask [R238]. -/
  unit : Nat := 0
  /-- Command number [R238]. -/
  num : Nat := 0
  /-- 0 outstanding, 1 completed, 2 refused or aborted [R241]. -/
  st : Nat := 0
  deriving DecidableEq, Repr

/-- What a fettler stopped inside an instruction waits for [R250]. -/
inductive WaitOp where
  /-- Not waiting. -/
  | none
  /-- EVWAIT. -/
  | evwait (w : QueF)
  /-- BAR, its arrival made. -/
  | bar (w : QueF)
  /-- CAST on a full queue. -/
  | cast (w : QueF)
  /-- LDQ on a full queue. -/
  | ldq (w : QueF)
  /-- CWAIT. -/
  | cwait (w : QueF)
  /-- LDW. -/
  | ldw (w : QueF)
  /-- CHKPT settling earlier work. -/
  | chkpt (w : SysF)
  /-- TEND settling earlier work. -/
  | tend (w : SysF)
  /-- Parked on a resolvable translation fault: cause and virtual address. -/
  | park (cause va : Nat)
  deriving DecidableEq, Repr

/-- A fettler running a task, or the record a chill keeps of it [R217, R251]. -/
structure Fet where
  /-- Pour of its task [R320]. -/
  pour : Nat := 0
  /-- Task number, TASKNO [R242]. -/
  task : Nat := 0
  /-- Context, CTXID [R242]. -/
  ctx : Nat := 0
  /-- pc, 48 bits [R217]. -/
  pc : BitVec 48 := 0
  /-- x1–x31; x0 is never listed [R217]. -/
  x : KMap W64 := []
  /-- v0–v31 [R217]. -/
  v : KMap (BitVec 512) := []
  /-- p1–p7; p0 is never listed [R217]. -/
  p : KMap W64 := []
  /-- CSRs of Table 11.7 that are not 0, by index [R242]. -/
  csr : KMap W64 := []
  /-- Tickets held and not yet settled by a commit [R241]. -/
  tickets : List Ticket := []
  /-- Next command number on crucibles 0, 1 and ladles 0, 1 [R238]. -/
  nextTicket : List Nat := [0, 0, 0, 0]
  /-- Pending digest sums, by register + 256 × (ledger index + 1) for a per-piece digest, register alone for a bank's [R347]. -/
  pend : List (Nat × Nat) := []
  /-- Wait in force [R250]. -/
  wait : WaitOp := .none
  /-- Token committed in this run of the task, if any [R241]. -/
  token : Option Nat := none
  deriving DecidableEq, Repr

/-- A descriptor in a crucible's queue, and what its run has left [R252, R258]. -/
structure CDesc where
  /-- The sixteen words [R259]. -/
  words : List Nat := []
  /-- Pour whose task queued it [R253]. -/
  pour : Nat := 0
  /-- Task that queued it [R253]. -/
  task : Nat := 0
  /-- Context [R261]. -/
  ctx : Nat := 0
  /-- Ticket number [R238]. -/
  ticket : Nat := 0
  /-- Stage: 0 queued, 4 loaded and waiting for the command before it, 1 permit wait, 2 granted and issued, 3 run done, completion
  due [R252]. -/
  stage : Nat := 0
  /-- The bytes fetched from virtual memory stand in the stage region; or the fetch waits on a resolvable fault (cause, va) [R256]. -/
  parked : Option (Nat × Nat) := none
  /-- Instant of the permit request [R274]. -/
  askedAt : Nat := 0
  /-- Code of the completion record after the run [R275]. -/
  code : Nat := 0
  /-- Tile status word after the run [R275]. -/
  status : Nat := 0
  /-- sat of the completion record [R275]. -/
  sat : Nat := 0
  /-- The column scales an `ACCMOVE` read at load [R267]. -/
  scales : List Nat := []
  /-- Virtual ranges, as address and bytes, whose pages it pins from its fetch to its completion [R186]. -/
  pins : List (Nat × Nat) := []
  /-- Bytes of its stage region, 0 where it has none [R253]. -/
  stageLen : Nat := 0
  deriving DecidableEq, Repr

/-- One accumulator cell: v modulo 2^128 and its tag [R203, R206]. -/
structure Cell where
  /-- v, two's complement modulo 2^128 [R207]. -/
  v : BitVec 128 := 0
  /-- Tag: 0 finite, 1 +infinity, 2 −infinity, 3 NaN [R206]. -/
  tag : BitVec 2 := 0
  deriving DecidableEq, Repr

/-- An accumulator tile [R203, R261]. -/
structure Tile where
  /-- VALID [R261]. -/
  valid : Bool := false
  /-- Task it is allotted to: (pour, task) [R261]. -/
  owner : Option (Nat × Nat) := none
  /-- Its allotment ended while a command that uses it runs: it is allotted anew when that completes [R255, R261]. -/
  stale : Bool := false
  /-- Operand pair class of Table 10.5 [R203]. -/
  pair : Nat := 0
  /-- Placement L [R203]. -/
  lsb : Int := 0
  /-- Cells other than (0, finite), by row × 64 + column [R203]. -/
  cells : KMap Cell := []
  /-- Range flag [R208]. -/
  range : Bool := false
  /-- Some drained cell had tag ±infinity [R209]. -/
  inf : Bool := false
  /-- Some drained cell had tag NaN [R209]. -/
  nan : Bool := false
  /-- Underflow count; at 0xFFFF_FFFF it has saturated once ufSat is set [R209]. -/
  uf : Nat := 0
  /-- uf_sat [R209]. -/
  ufSat : Bool := false
  deriving DecidableEq, Repr

/-- A crucible: its queue of 32 descriptors and its tiles a0–a3 [R203, R252]. -/
structure Cru where
  /-- Queue, the head first [R253]. -/
  queue : List CDesc := []
  /-- The command that has issued and not completed [R252]. -/
  run : Option CDesc := none
  /-- Tiles a0–a3 [R203]. -/
  tiles : List Tile := [{}, {}, {}, {}]
  deriving DecidableEq, Repr

/-- A descriptor in a ladle's queue, with its transfer [R190, R191]. -/
structure LDesc where
  /-- The sixteen words [R188]. -/
  words : List Nat := []
  /-- Pour whose task queued it [R239]. -/
  pour : Nat := 0
  /-- Task that queued it [R239]. -/
  task : Nat := 0
  /-- Context [R189]. -/
  ctx : Nat := 0
  /-- Ticket number [R239]. -/
  ticket : Nat := 0
  /-- 0 queued, 1 running, 2 parking, 3 parked [R191]. -/
  state : Nat := 0
  /-- Elements known written [R190]. -/
  done : Nat := 0
  /-- Elements sent into a chain window, the last of them not yet acknowledged [R432]. -/
  issued : Nat := 0
  /-- Times the transfer parked [R193]. -/
  parks : Nat := 0
  /-- Pending translation-fault cause and its virtual address [R191]. -/
  cause : Option (Nat × Nat) := none
  /-- It waits for a pour permit [R190]. -/
  permitWait : Bool := false
  /-- A permit has been granted for what remains [R190]. -/
  permit : Bool := false
  /-- Instant of the permit request [R337]. -/
  askedAt : Nat := 0
  deriving DecidableEq, Repr

/-- A barrier in use [R174]. -/
structure Barrier where
  /-- Epoch, 32 bits [R174]. -/
  epoch : Nat := 0
  /-- Participant task numbers [R174]. -/
  parts : List Nat := []
  /-- Tasks arrived for the current epoch [R174]. -/
  arrived : List Nat := []
  /-- Pour it is allocated to [R174]. -/
  pour : Nat := 0
  /-- Context of that pour [R196]. -/
  ctx : Nat := 0
  deriving DecidableEq, Repr

/-- A stripe placed on a flask [R286, R301]. -/
structure StripeAt where
  /-- Runner [R301]. -/
  runner : Nat := 0
  /-- Slot [R301]. -/
  slot : Nat := 0
  /-- Stripe index within the slot [R301]. -/
  stripe : Nat := 0
  /-- Owning crucible, 0–63 [R286]. -/
  cru : Nat := 0
  /-- First line buffer [R286]. -/
  base : Nat := 0
  /-- Buffers, or mould slots for dest = 1 [R301]. -/
  depth : Nat := 0
  /-- dest = 1: a mould ring [R161]. -/
  ring : Bool := false
  /-- Event counter bound as FILL [R287]. -/
  fill : Nat := 0
  /-- Event counter bound as FREE [R287]. -/
  free : Nat := 0
  /-- Rows delivered since its configuration took effect [R287]. -/
  n : Nat := 0
  /-- Context the stripe belongs to [R171]. -/
  ctx : Nat := 0
  /-- dest = 1: bytes of one slot of the ring [R161]. -/
  pitch : Nat := 0
  /-- Generation its configuration took effect with [R103]. -/
  gen : Nat := 0
  /-- Generation from which on another configuration holds; rows and pieces of earlier ones still use this one [R103]. -/
  till : Option Nat := none
  deriving DecidableEq, Repr

/-- The compute fabric: memory, page tables, moulds, fettlers, crucibles, ladles and sync objects [R169–R301]. -/
structure Fabric where
  /-- Device memory, by physical byte address [R178]. -/
  dram : List Host.Cell := []
  /-- Lines in the poison map, ascending [R182]. -/
  poison : List Nat := []
  /-- Moulds, by flask × 2^23 + offset [R170]. -/
  mould : List Host.Cell := []
  /-- 4 KiB leaves, by context × 2^36 + va / 2^12 [R184]. -/
  pt4 : KMap Pte := []
  /-- 2 MiB leaves, by context × 2^27 + va / 2^21 [R184]. -/
  pt2 : KMap Pte := []
  /-- Fettlers with a task, by flask × 4 + fettler [R217]. -/
  fets : KMap Fet := []
  /-- INSTRET of each fettler, by flask × 4 + fettler [R242]. -/
  instret : KMap Nat := []
  /-- Crucibles, by crucible ID 0–63 [R252]. -/
  crus : KMap Cru := []
  /-- Ladle queues, by flask × 2 + ladle, the head first [R189]. -/
  ladles : KMap (List LDesc) := []
  /-- Event counters that are not 0, by flask × 256 + counter [R174]. -/
  evcs : KMap Nat := []
  /-- Barriers allocated, by ID [R174]. -/
  bars : KMap Barrier := []
  /-- Gate counters that are not 0, by number [R174]. -/
  gcs : KMap Nat := []
  /-- Line buffer samples, by (crucible × 32 + buffer) × 4096 + column [R286]. -/
  lbuf : KMap Nat := []
  /-- Stripes placed on flasks, in ascending order of runner, slot and stripe [R286]. -/
  stripes : List StripeAt := []
  /-- Line position of patrol scrub [R182]. -/
  scrub : Nat := 0
  /-- Digest banks in use, by bank: registers that are not 0 [R346]. -/
  banks : KMap (KMap Nat) := []
  /-- Owner of each bank in use: (context, pour, set B, reserved for program + 1) [R346, R359]. -/
  bankOwner : KMap (Nat × Nat × Bool × Nat) := []
  deriving DecidableEq, Repr

/-- A permit request waiting in PMC [R337]. -/
structure PermitReq where
  /-- A ladle's request: flask × 2 + ladle; else a crucible's [R335]. -/
  ladle : Bool := false
  /-- Crucible ID, or flask × 2 + ladle [R335]. -/
  unit : Nat := 0
  /-- Charge in pu [R336]. -/
  charge : Nat := 0
  /-- Instant it arrived [R337]. -/
  at' : Nat := 0
  /-- The start-rate limit has held it back [R341]. -/
  rated : Bool := false
  deriving DecidableEq, Repr

/-- The permit arbiter of PMC [R335–R339]. -/
structure Permits where
  /-- Requests waiting, in order of arrival [R337]. -/
  waiting : List PermitReq := []
  /-- Window in force: floordiv(device time, 100 µs) [R337]. -/
  window : Nat := 0
  /-- pu granted in the window in force [R337]. -/
  used : Nat := 0
  /-- Instants of crucible grants in the last 100 ns [R337]. -/
  recent : List Nat := []
  deriving DecidableEq, Repr

/-- A program loaded in a context [R319]. -/
structure LoadedProg where
  /-- Program ID [R351]. -/
  id : Nat := 0
  /-- Context [R319]. -/
  ctx : Nat := 0
  /-- What it declares [R319]. -/
  prog : Program
  deriving DecidableEq, Repr

/-- A task of a pour [R320]. -/
structure TaskSt where
  /-- 0 not ready, 1 ready in a deque, 2 running on a flask, 3 done, 4 faulted [R320], 5 discarded by a reset of its FC and not yet placed again [R480]. -/
  st : Nat := 0
  /-- Flask whose deque holds it or that runs it [R321]. -/
  flask : Nat := 0
  /-- Last committed token, 0 before the first [R241]. -/
  token : Nat := 0
  deriving DecidableEq, Repr

/-- A piece of a replay pour, from its input table [R352]. -/
structure RePiece where
  /-- Serial number [R352]. -/
  serial : Nat := 0
  /-- Class seed [R352]. -/
  seed : Nat := 0
  /-- Rows of its capture record [R167]. -/
  rows : Nat := 0
  /-- Its tokens [R302]. -/
  tokens : Nat := 0
  /-- Tokens processed [R352]. -/
  fed : Nat := 0
  /-- Per-piece digests of set A [R349]. -/
  dA : List Nat := [0, 0, 0, 0, 0, 0, 0, 0]
  /-- Per-piece digests of set B [R349]. -/
  dB : List Nat := [0, 0, 0, 0, 0, 0, 0, 0]
  deriving DecidableEq, Repr

/-- A pour [R320, R351]. -/
structure Pour where
  /-- Pour ID, POURID [R242]. -/
  id : Nat := 0
  /-- Order tag of POUR_START [R324]. -/
  tag : Nat := 0
  /-- Context [R320]. -/
  ctx : Nat := 0
  /-- Program ID [R351]. -/
  prog : Nat := 0
  /-- 0 waiting for sync objects or digest banks, 1 waiting for a start barrier, 2 running, 3 stopping, 4 ended with its bank kept [R323, R324]. -/
  st : Nat := 0
  /-- Start barrier it waits on [R351]. -/
  sbar : Option Nat := none
  /-- A replay pour [R352]. -/
  replay : Bool := false
  /-- Step counter [R312, R351]. -/
  step : Nat := 0
  /-- Steps run [R348]. -/
  steps : Nat := 0
  /-- Digest register reported in the result [R351]. -/
  dres : Nat := 0
  /-- Input table: address and entries [R351]. -/
  inTab : Nat × Nat := (0, 0)
  /-- Output table: address and entries [R351]. -/
  outTab : Nat × Nat := (0, 0)
  /-- Input entries, read when it was collected: address, length, tensor ID [R351]. -/
  ins : List (Nat × Nat × Nat) := []
  /-- Output entries [R351]. -/
  outs : List (Nat × Nat × Nat) := []
  /-- Pieces of a replay pour, in the order of its input table [R352]. -/
  pieces : List RePiece := []
  /-- Tasks, by number [R320]. -/
  tasks : List TaskSt := []
  /-- Code of its first fault, 0 none [R323]. -/
  fault : Nat := 0
  /-- Digest banks of sets A and B [R346]. -/
  banks : List Nat := []
  /-- POUR_CANCEL stopped it: its result carries E_NONE [R324]. -/
  cancelled : Bool := false
  deriving DecidableEq, Repr

/-- One flask's section of a chill image, Table 15.3 [R328]. -/
structure Section where
  /-- Source flask [R327]. -/
  flask : Nat := 0
  /-- 0 core, 1 full, 2 restart [R327]. -/
  kind : Nat := 0
  /-- Fettler records, by fettler [R251]. -/
  fets : KMap Fet := []
  /-- Crucible queues: descriptors of crucibles 0 and 1 [R258]. -/
  queues : List (List CDesc) := [[], []]
  /-- Ladle queues [R191]. -/
  ladles : List (List LDesc) := [[], []]
  /-- Event counters of the context on the flask [R176]. -/
  evcs : KMap Nat := []
  /-- Gate counters of the context's pours [R176]. -/
  gcs : KMap Nat := []
  /-- Barriers of the context's pours [R176]. -/
  bars : KMap Barrier := []
  /-- Allotted tiles, by c × 4 + tile [R328]. -/
  tiles : KMap Tile := []
  /-- Region table words of the context [R327]. -/
  regions : List Nat := []
  /-- Mould bytes of those regions, by offset; full chill only [R327]. -/
  mould : List Host.Cell := []
  deriving DecidableEq, Repr

/-- A context [R316–R340]. -/
structure Ctx where
  /-- 0 SYSTEM, 1 LINE, 2 JOB [R316]. -/
  cls : Nat := 0
  /-- Priority 0–7 [R317]. -/
  prio : Nat := 0
  /-- Slice in µs [R317]. -/
  slice : Nat := 0
  /-- Physical flasks of the effective mask [R317]. -/
  mask : BitVec 32 := 0
  /-- 1 READY, 2 RUNNING, 3 CHILLING, 4 CHILLED, 5 REMELTING, 6 FAILED [R340]. -/
  st : Nat := 1
  /-- R83 applies to it [R340]. -/
  restored : Bool := false
  /-- Chilled by order or host loss [R330]. -/
  held : Bool := false
  /-- Code that failed it [R340]. -/
  code : Nat := 0
  /-- Physical flasks it runs on now [R340]. -/
  running : BitVec 32 := 0
  /-- Slice debt, ns; `CMD_CTX_STAT` shows it in µs [R326]. -/
  debt : Nat := 0
  /-- KiB written by the last chill [R340]. -/
  image : Nat := 0
  /-- Chills since creation [R340]. -/
  chills : Nat := 0
  /-- Tasks stolen since creation [R340]. -/
  steals : Nat := 0
  /-- Mapped ranges of its virtual space: base and size [R185]. -/
  ranges : List (Nat × Nat) := []
  /-- Sections of its chill image [R327]. -/
  sections : List Section := []
  /-- Instant its slice started and the granted length in ns [R325]. -/
  sliceAt : Nat := 0
  /-- Granted length of its slice, ns [R326]. -/
  granted : Nat := 0
  /-- Its slice ended at this instant, its overrun still running [R326]. -/
  endedAt : Option Nat := none
  deriving DecidableEq, Repr

/-- A piece SCH holds [R305]. -/
structure Piece where
  /-- Ledger index [R305]. -/
  entry : Nat := 0
  /-- Context of its class [R305]. -/
  ctx : Nat := 0
  /-- Class [R307]. -/
  cls : Nat := 0
  /-- Generation at its leading edge [R315]. -/
  gen : Nat := 0
  /-- Serial number [R309]. -/
  serial : Nat := 0
  /-- Leading-edge row-trigger count [R309]. -/
  lead : Nat := 0
  /-- 0 OPENED, 1 ADMITTED, 2 LIVE, 3 DONE, 4 LEFT [R305]. -/
  st : Nat := 0
  /-- Tokens processed [R312]. -/
  tokens : Nat := 0
  /-- Tokens of the piece once its trailing edge is known [R302]. -/
  total : Option Nat := none
  /-- Marked UNDECIDED_LATE [R313]. -/
  late : Bool := false
  /-- Marked corrupt or faulted: it leaves at the next step [R313]. -/
  voided : Bool := false
  /-- DRAM page groups held [R307]. -/
  groups : Nat := 0
  /-- Mould groups held on the home flask [R308]. -/
  mouldGroups : Nat := 0
  /-- Home flask [R308]. -/
  home : Nat := 0
  /-- Mould groups held on the home flask of set B [R308, R353]. -/
  mouldB : Nat := 0
  /-- Home flask of set B [R353]. -/
  homeB : Nat := 0
  /-- Row and start of each sample [R164]. -/
  places : List (Nat × Nat) := []
  /-- Tokens taken in the step in progress [R312]. -/
  taken : Nat := 0
  /-- Per-piece digests of set A [R349]. -/
  dA : List Nat := [0, 0, 0, 0, 0, 0, 0, 0]
  /-- Per-piece digests of set B [R349]. -/
  dB : List Nat := [0, 0, 0, 0, 0, 0, 0, 0]
  /-- Segment index carried on from a truncated segment [R105]. -/
  seg : Option Int := none
  deriving DecidableEq, Repr

/-- A segment of a packed row: one sample of a piece [R164, Table 8.2]. -/
structure Seg where
  /-- First token position [Table 8.2]. -/
  start : Nat := 0
  /-- Positions it occupies, Lc [R164]. -/
  span : Nat := 0
  /-- Ledger index of the piece [Table 8.2]. -/
  entry : Nat := 0
  /-- Sample index [Table 8.2]. -/
  sample : Nat := 0
  /-- Tokens filled so far [Table 8.2]. -/
  len : Nat := 0
  /-- A void segment [R166]. -/
  void : Bool := false
  /-- The trailing edge has been processed [Table 8.2]. -/
  last : Bool := false
  deriving DecidableEq, Repr

/-- A packed tensor row of a class [R164]. -/
structure PackRow where
  /-- Context of the class's sequence pour [R302]. -/
  ctx : Nat := 0
  /-- Class [R164]. -/
  cls : Nat := 0
  /-- Row number within the class [R164]. -/
  row : Nat := 0
  /-- The row is one sample's alone: it was placed with pack_en = 0 [R164]. -/
  solo : Bool := false
  /-- Its segments, in start order [R164]. -/
  segs : List Seg := []
  deriving DecidableEq, Repr

/-- The scheduler's state of one sequence pour [R307–R315]. -/
structure SeqSt where
  /-- Step counter s [R312]. -/
  step : Nat := 0
  /-- A step is in progress [R312]. -/
  busy : Bool := false
  /-- Entries of its batch: ledger index, t0, n [R312]. -/
  batch : List (Nat × Nat × Nat) := []
  /-- Tokens in the last step's batch [R315]. -/
  last : Nat := 0
  /-- DRAM groups free [R315]. -/
  free : Nat := 0
  /-- Mould groups free of each flask, by flask [R307]. -/
  mould : KMap Nat := []
  /-- Sets A and B have committed the step; instant of each commit [R354]. -/
  commits : List Nat := []
  /-- The step waits for its twin comparison [R354]. -/
  compare : Bool := false
  deriving DecidableEq, Repr

/-- A report of SCH to line control [R305]. -/
structure Report where
  /-- Ledger index [R305]. -/
  entry : Nat := 0
  /-- Serial number of the piece it speaks of [R305]. -/
  serial : Nat := 0
  /-- 0 ADMITTED, 1 REFUSED, 2 LEFT, 3 RELEASED [R305]. -/
  kind : Nat := 0
  /-- Step number [R305]. -/
  step : Nat := 0
  /-- Class, generation and leading-edge count of the piece, for a share message [R436]. -/
  what : Nat × Nat × Nat := (0, 0, 0)
  deriving DecidableEq, Repr

/-- What SCH does on a flask for JOB contexts and LINE claims [R325–R340]. -/
structure FlaskSt where
  /-- JOB context on the flask [R340]. -/
  job : Option Nat := none
  /-- LINE context that has claimed it [R331]. -/
  line : Option Nat := none
  /-- 0 none, 1 stopping, 2 chilling, 3 remelting [R340]. -/
  phase : Nat := 0
  /-- The chill in progress is a full one [R327]. -/
  full : Bool := false
  /-- Instant of the pre-emption request in progress [R332]. -/
  askedAt : Option Nat := none
  /-- Last pre-emption latency, ns [R340]. -/
  latency : Nat := 0
  /-- Instant LINE last had a ready task for the claimed flask [R331]. -/
  lineAt : Nat := 0
  /-- Tasks that ran on the flask when its FC was reset during a chill: the section is marked restart [R334, R480]. -/
  crashed : List (Nat × Fet) := []
  deriving DecidableEq, Repr

/-- The scheduler core [R305–R358]. -/
structure Sched where
  /-- Contexts that exist, by number; context 0 is SYSTEM's [R316]. -/
  ctxs : KMap Ctx := [(0, {})]
  /-- Programs loaded [R319]. -/
  progs : List LoadedProg := []
  /-- Next program ID [R351]. -/
  nextProg : Nat := 1
  /-- Pours, in order of collection [R324]. -/
  pours : List Pour := []
  /-- Next pour ID [R320]. -/
  nextPour : Nat := 1
  /-- Deques of ready tasks, bottom last: (flask, context, pour, task) in order of pushing [R321]. -/
  deques : List (Nat × Nat × Nat × Nat) := []
  /-- Flasks with a JOB context or a claim, by flask [R331]. -/
  flasks : KMap FlaskSt := []
  /-- JOB context that ran last at each priority [R325]. -/
  lastRan : KMap Nat := []
  /-- Pieces SCH holds, in order of opening [R305]. -/
  pieces : List Piece := []
  /-- Pieces that have left and whose returns are pending, with the step they left in [R311]. -/
  pendRet : List (Piece × Nat) := []
  /-- Sequence pours, by context [R312]. -/
  seqs : KMap SeqSt := []
  /-- Packed rows [R164]. -/
  packRows : List PackRow := []
  /-- Reports waiting for line control [R305]. -/
  reports : List Report := []
  /-- Pieces that are DONE and whose head outputs have not been handed to the gate sequencer: entry and serial [R305, R356]. -/
  handoffs : List (Nat × Nat) := []
  /-- Mould regions moved to DRAM: flask and region word [R194]. -/
  spilled : List (Nat × Nat) := []
  /-- Their bytes, at (flask × 16 + context) × 2^23 + mould offset [R194]. -/
  spill : List Host.Cell := []
  deriving DecidableEq, Repr

/-- A pending request to open a ledger entry [R159]. -/
structure OpenReq where
  /-- Number of the piece in segmentation, for its trailing edge [R159]. -/
  rid : Nat := 0
  /-- runner × 4 + slot [R159]. -/
  slot : Nat := 0
  /-- Lane [R159]. -/
  lane : Nat := 0
  /-- Stream [R159]. -/
  stream : Nat := 0
  /-- Class [R159]. -/
  cls : Nat := 0
  /-- Leading-edge count [R159]. -/
  lead : Nat := 0
  /-- Device time (ns) of its row trigger [R104]. -/
  leadTime : Nat := 0
  /-- Generation [R159]. -/
  gen : Nat := 0
  /-- corrupt [R159]. -/
  corrupt : Bool := false
  /-- Status code that made it corrupt [R360]. -/
  cause : Nat := 0
  /-- edge-uncertain [R159]. -/
  edgeUnc : Bool := false
  /-- Segment index carried on from a truncated segment [R105]. -/
  seg : Option Int := none
  deriving DecidableEq, Repr

/-- A trigger waiting for the uplink or in the stamp queue, or a line's stamp: count and device time in ns [R121, R122]. -/
structure Stamp where
  /-- Triggers dropped between the previous stamp and this one: counts of the first and last, and their number [R122]. -/
  lost : Option (Nat × Nat × Nat) := none
  /-- Source count [R122]. -/
  count : Nat := 0
  /-- Device time in ns [R122]. -/
  time : Nat := 0
  deriving DecidableEq, Repr

/-- A camera, by its master port [R115]. -/
structure Cam where
  /-- The stamp queue, oldest first [R122]. -/
  stamps : List Stamp := []
  /-- Triggers dropped since the newest stamp: counts of the first and last, and their number [R122]. -/
  dropped : Option (Nat × Nat × Nat) := none
  /-- Instants at which the uplink sends the triggers that wait for it, at most 4 [R121]. -/
  uplink : List Nat := []
  /-- Edge reports of Ronyr not yet acted on, oldest first: source count, device time (ns), dropped by Ronyr [R121, R407]. -/
  edges : List (Nat × Nat × Bool) := []
  /-- Bring-up is repeated at this elapsed instant [R132]. -/
  retryAt : Option Nat := none
  /-- Writes of the init list acknowledged in this bring-up [R116]. -/
  initDone : Nat := 0
  /-- Writes of the init list sent in this bring-up: camera register and value, in order [R116]. -/
  wrote : List (Nat × Nat) := []
  /-- The mailbox has put the camera into its test mode [R129]. -/
  testMode : Bool := false
  deriving DecidableEq, Repr

/-- The mailbox command outstanding [R118]. -/
structure CtlOp where
  /-- Master port [R118]. -/
  port : Nat := 0
  /-- A write [R118]. -/
  write : Bool := false
  /-- Camera register address [R118]. -/
  addr : Nat := 0
  /-- Write data [R118]. -/
  data : Nat := 0
  /-- It waits for bring-up to end [R118]. -/
  held : Bool := false
  /-- Times it was resent [R132]. -/
  resends : Nat := 0
  /-- Instant it was last sent [R132]. -/
  sentAt : Nat := 0
  deriving DecidableEq, Repr

/-- One Nolox lane beside its registers [R128–R132]. -/
structure Lane where
  /-- Instants of its retrains in the last 1 s [R132]. -/
  retrains : List Nat := []
  /-- Check-block errors in the current ms, and that ms [R132]. -/
  errs : Nat × Nat := (0, 0)
  /-- Most invalid sync headers in one of the groups of 64 blocks since the last check block [R132]. -/
  hdrs : Nat := 0
  /-- Instant it last had a frame to send [R130]. -/
  frameAt : Nat := 0
  /-- The receive direction is in electrical idle: the peer has sent enter-idle blocks [R130]. -/
  rxIdle : Bool := false
  deriving DecidableEq, Repr

/-- An eye-scan engine's scan in progress [R126]. -/
structure EyeScan where
  /-- Lane [R126]. -/
  lane : Nat := 0
  /-- Dwell [R126]. -/
  dwell : Nat := 10
  /-- Phase first, step, points [R126]. -/
  phase : Nat × Nat × Nat := (0, 1, 1)
  /-- Voltage first, step, points [R126]. -/
  volt : Int × Nat × Nat := (0, 1, 1)
  /-- Next point, phase-major [R127]. -/
  next : Nat := 0
  deriving DecidableEq, Repr

/-- A row with its stamp and, where rows before it were dropped, the counts of the first and last dropped [R146]. -/
structure Row where
  /-- Pixels [R140]. -/
  px : List Nat := []
  /-- Row-trigger count [R143]. -/
  count : Nat := 0
  /-- Device time in ns of the row trigger [R143]. -/
  time : Nat := 0
  /-- Gap before this row: counts of the first and last dropped row trigger, and the number dropped [R146]. -/
  gap : Option (Nat × Nat × Nat) := none
  /-- Device time in ns of the row trigger of its block's first row [R140]. -/
  t0 : Nat := 0
  /-- It is a row of a dropped ROI [R150]. -/
  bad : Bool := false
  /-- Number of its block, or of the block of its first line [R140]. -/
  block : Nat := 0
  /-- Generations of the pieces the row belongs to, for the stripes it goes to [R103]. -/
  gens : List Nat := []
  deriving DecidableEq, Repr

/-- An input line waiting in the in-line FIFO, a through-memory ring or a decoded tile [R136]. -/
structure InLine where
  /-- The line [R136]. -/
  row : Row := {}
  /-- Block number [R140]. -/
  block : Nat := 0
  /-- Line of its block [R140]. -/
  idx : Nat := 0
  /-- Last line of its block [R137]. -/
  last : Bool := false
  /-- Lines its block declares [R139]. -/
  lines : Nat := 1
  /-- Pixel format [R140]. -/
  fmt : Nat := 0
  deriving DecidableEq, Repr

/-- Segmentation state of one lane, or of WEB mode [R155–R158]. -/
structure SegLane where
  /-- A piece is open [R155]. -/
  opened : Bool := false
  /-- run of R155 [R155]. -/
  run : Nat := 0
  /-- Count, device time and generation of the first of the counted rows while IDLE [R155]. -/
  first : Nat × Nat × Nat := (0, 0, 0)
  /-- Count of the last occupied row [R155]. -/
  last : Nat := 0
  /-- Number of the open piece [R159]. -/
  rid : Nat := 0
  /-- Class of the open piece [R157]. -/
  cls : Nat := 0
  /-- Generation of the open piece [R155]. -/
  gen : Nat := 0
  /-- Leading-edge count [R155]. -/
  lead : Nat := 0
  /-- Stream row number of the leading edge [R163]. -/
  leadRow : Nat := 0
  /-- Device time (ns) of the leading edge's row trigger [R104]. -/
  leadTime : Nat := 0
  /-- Rows from the leading edge, dropped ones included [R158]. -/
  rows : Nat := 0
  /-- Rows from the leading edge to the last occupied row [R155]. -/
  rowsLast : Nat := 0
  /-- WEB: last count of the segment [R156]. -/
  endC : Nat := 0
  /-- The open piece is corrupt, or a counted row belongs to a dropped ROI [R150, R158]. -/
  corrupt : Bool := false
  /-- WEB: rows belong to no segment until a count passes this one [R156]. -/
  skipTo : Option Nat := none
  /-- PROGRAM: stream row number of the previous edge [R157]. -/
  lastEdge : Nat := 0
  /-- WEB: index the segment carries on from the one it continues [R105]. -/
  seg : Option Int := none
  /-- Stream row number after the last occupied row [R155]. -/
  stop : Nat := 0
  /-- Class of a piece that closed at its maximum length and that the next row continues, if the lane is still occupied [R158]. -/
  cont : Option Nat := none
  deriving DecidableEq, Repr

/-- The tap record being formed [R148]. -/
structure TapRec where
  /-- Rows that have reached the point [R148]. -/
  rows : List Row := []
  /-- Block number [R148]. -/
  block : Nat := 0
  /-- Once the block's last line has entered the pipeline: whether the block is truncated [R148]. -/
  last : Option Bool := none
  deriving DecidableEq, Repr

/-- An ROI of the block in the pipeline, from its first row to its last [R150]. -/
structure RoiRec where
  /-- It found no room and is dropped [R150]. -/
  drop : Bool := false
  /-- Block number [R150]. -/
  block : Nat := 0
  /-- Entry index [R150]. -/
  idx : Nat := 0
  /-- Tag [R150]. -/
  tag : Nat := 0
  /-- x, y, w, h after clipping [R150]. -/
  rect : Nat × Nat × Nat × Nat := (0, 0, 0, 0)
  /-- Row-trigger count of the first row [R150]. -/
  count : Nat := 0
  /-- Row-trigger count of the last row taken [R150]. -/
  lastC : Nat := 0
  /-- Pixels of its rows so far, U16 [R150]. -/
  px : List Nat := []
  /-- Byte offset in the ring [R150]. -/
  offset : Nat := 0
  deriving DecidableEq, Repr

/-- A capture record in a class's ring [R167]. -/
structure CaptRec where
  /-- Ledger index [R167]. -/
  entry : Nat := 0
  /-- Serial number [R167]. -/
  serial : Nat := 0
  /-- Sample; none: the piece's rows [R167]. -/
  sample : Option Nat := none
  /-- Generation [R167]. -/
  gen : Nat := 0
  /-- Records lost before it [R167]. -/
  lost : Bool := false
  /-- Rows of the piece's extent, lane columns only in LANE and PROGRAM modes [R167]. -/
  rows : List Row := []
  /-- Byte offset in the ring and length [R167]. -/
  place : Nat × Nat := (0, 0)
  deriving DecidableEq, Repr

/-- A piece's rows as the packer has received them, for its samples and its capture [R163, R167]. -/
structure Held where
  /-- Number of the piece in segmentation [R159]. -/
  rid : Nat := 0
  /-- Class [R163]. -/
  cls : Nat := 0
  /-- runner × 4 + slot [R159]. -/
  slot : Nat := 0
  /-- Generation [R163]. -/
  gen : Nat := 0
  /-- Stream row number of its leading edge [R163]. -/
  leadRow : Nat := 0
  /-- First and last column [R163]. -/
  cols : Nat × Nat := (0, 0)
  /-- Rows of its columns, with their stream row numbers [R163]. -/
  rows : List (Nat × Row) := []
  /-- The trailing edge is known [R167]. -/
  closed : Bool := false
  /-- Its trailing edge has been processed by line control [R163]. -/
  done : Bool := false
  deriving DecidableEq, Repr

/-- A sample as the packer has written it into its destination [R163]. -/
structure SampleRec where
  /-- Number of the piece in segmentation [R159]. -/
  rid : Nat := 0
  /-- runner × 4 + slot of its rows [R159]. -/
  slot : Nat := 0
  /-- Ledger index of the piece [R164]. -/
  entry : Nat := 0
  /-- Its serial number [R163]. -/
  serial : Nat := 0
  /-- Sample index [R163]. -/
  sample : Nat := 0
  /-- Its rows, with their stream row numbers [R163]. -/
  rows : List (Nat × Row) := []
  deriving DecidableEq, Repr

/-- A slot of a runner [R136–R168]. -/
structure Slot where
  /-- Number of the next block [R140]. -/
  nextBlock : Nat := 0
  /-- A block is being received: number, declared lines, lines received [R139]. -/
  blk : Option (Nat × Nat × Nat) := none
  /-- The rest of the block in progress is dropped [R146]. -/
  dropRest : Bool := false
  /-- A cast has truncated the block in progress; its lines triggered before the instant still come [R146]. -/
  blkCut : Bool := false
  /-- Device time in ns of the row trigger of that block's first row [R140]. -/
  blkT0 : Nat := 0
  /-- Instant of the last packet of the block in progress [R146]. -/
  pktAt : Nat := 0
  /-- That block's logical stream, its camera's master port, and its declared width and format [R139]. -/
  blkHdr : Nat × Nat × Nat × Nat := (0, 0, 0, 0)
  /-- Lines waiting: in-line FIFO, through-memory ring or decoded tile [R136]. -/
  inq : List InLine := []
  /-- Dropped counts since the last line entered the pipeline [R146]. -/
  gapIn : Option (Nat × Nat × Nat) := none
  /-- Dropped counts since the last row was delivered [R146]. -/
  gapOut : Option (Nat × Nat × Nat) := none
  /-- Lines of the open merge group [R142]. -/
  merge : List Row := []
  /-- Row after the defect stage, for mode 3 [R142]. -/
  prev : Option (List Nat) := none
  /-- Rows of the open binning group [R142]. -/
  bin : List Row := []
  /-- Rows in the deskew delay line [R142]. -/
  delay : List Row := []
  /-- Rows leaving the runner and not yet delivered, oldest first, with their block [R162]. -/
  outq : List Row := []
  /-- Next stream row number [R157]. -/
  rowNo : Nat := 0
  /-- Count of the last row delivered, and the generation in force there [R156, R158]. -/
  lastRow : Option (Nat × Nat) := none
  /-- Stamps of the last 65,536 rows: (stream row number, count, time, generation) [R157]. -/
  hist : List (Nat × Nat × Nat × Nat) := []
  /-- Segmentation by lane; entry 16 in WEB mode [R155, R156]. -/
  lanes : KMap SegLane := []
  /-- The last rows, with their stream row numbers: those a piece opened late takes in [R155, R157]. -/
  recent : List (Nat × Row) := []
  /-- Table banks 0 and 1 [R145]. -/
  banks : List CorrTable := [{}, {}]
  /-- Table bank in use [R145]. -/
  bank : Nat := 0
  /-- Instant of the cast that retired the other bank, while it is not free [R145]. -/
  retired : Option Nat := none
  /-- ROI lists committed: target block and its entries [R149]. -/
  rois : List (Nat × List Nat) := []
  /-- Rows after merge of the block in the pipeline, and the first block that has not entered it [R149]. -/
  roiRow : Nat × Nat := (0, 0)
  /-- ROIs of the block in the pipeline that are not yet complete [R150]. -/
  roiRecs : List RoiRec := []
  /-- Next byte offset in the ROI ring, and records lost before the next [R150]. -/
  roiWr : Nat × Bool := (0, false)
  /-- Tap record in formation [R148]. -/
  tap : Option TapRec := none
  /-- Tap records lost before the next [R148]. -/
  tapLost : Bool := false
  /-- Generation live when the slot's enable took effect [R158]. -/
  enGen : Nat := 0
  deriving DecidableEq, Repr

/-- Lanes, runners, segmentation and packing beside their registers [R113–R168]. -/
structure Intake where
  /-- Cameras, by master port [R115]. -/
  cams : KMap Cam := []
  /-- Mailbox command outstanding [R118]. -/
  ctl : Option CtlOp := none
  /-- Nolox lanes with history, by lane [R132]. -/
  lanes : KMap Lane := []
  /-- Scans in progress: engine 0 `CXP_`, 1 `LNK_` [R126]. -/
  eye : KMap EyeScan := []
  /-- Runner slots, by runner × 4 + slot [R136]. -/
  slots : KMap Slot := []
  /-- Through-memory slot served next, by runner [R137]. -/
  rr : KMap Nat := []
  /-- Requests to open ledger entries, oldest first [R159]. -/
  opens : List OpenReq := []
  /-- Trailing edges for line control, oldest first: piece number, count, rows, truncated by a cast [R159]. -/
  trails : List (Nat × Nat × Nat × Bool) := []
  /-- Next piece number [R159]. -/
  nextRid : Nat := 1
  /-- Pieces whose rows the packer holds [R163]. -/
  held : List Held := []
  /-- Samples of admitted pieces, as the packer has written them [R163]. -/
  samples : List SampleRec := []
  /-- Capture records, by class in order of writing [R167]. -/
  capts : List (Nat × CaptRec) := []
  /-- Next byte offset of each class's capture ring; bit 31 of the value marks lost records [R167]. -/
  captWr : KMap Nat := []
  deriving DecidableEq, Repr

/-- What the measuring registers of the flasks count, by flask [R196]. -/
structure Meter where
  /-- Translation-cache hits [R184]. -/
  hits : KMap Nat := []
  /-- Translation-cache misses [R184]. -/
  misses : KMap Nat := []
  /-- Bytes sent through the fabric port [R173]. -/
  tx : KMap Nat := []
  /-- Bytes received through it [R173]. -/
  rx : KMap Nat := []
  deriving DecidableEq, Repr

/-- The state of the whole block. -/
structure State where
  /-- Elapsed time on the device's own clock, in ns; unaffected by steps of device time [R492]. -/
  now : Nat := 0
  /-- MODEL: counter the free values of the Config are taken at (log 2); not the spec's. -/
  free : Nat := 0
  /-- BAR0 register words that differ from `resetWord`, by offset [R75]. -/
  regs : KMap W32 := []
  /-- Ronyr's live register words that differ from `rnyResetWord`, by index [R414]. -/
  rny : KMap W32 := []
  /-- Levels driven on J1 and J2 [R25, R28]. -/
  pins : Pins := {}
  /-- The module around the chips [R31]. -/
  mod : Module := {}
  /-- PoCXP chain [R47]. -/
  pocxp : Pocxp := {}
  /-- Boot state [R52]. -/
  boot : Boot := {}
  /-- Host interface [R79]. -/
  host : HostIf := {}
  /-- Staging and cast [R93]. -/
  stage : Stage := {}
  /-- Line control [R360]. -/
  line : Line := {}
  /-- The journal [R380]. -/
  jrn : Journal := {}
  /-- Ronyr [R388]. -/
  ron : Ronyr := {}
  /-- Time unit [R416]. -/
  tim : Tim := {}
  /-- Nolox chain [R426]. -/
  chain : Chain := {}
  /-- Security core [R440]. -/
  sec : Sec := {}
  /-- Power management and the safety monitor [R460]. -/
  pwr : Power := {}
  /-- Log, trace and firmware processors [R479]. -/
  dbg : Debug := {}
  /-- Host memory the device masters: rings, host tier, pour buffers [R74]. -/
  hostMem : List Host.Cell := []
  /-- Compute fabric [R169]. -/
  fab : Fabric := {}
  /-- Counts of the flasks' translation caches and fabric ports [R196]. -/
  meter : Meter := {}
  /-- Permit arbiter [R335]. -/
  permits : Permits := {}
  /-- Scheduler core [R305]. -/
  sch : Sched := {}
  /-- Lanes, runners and segmentation [R113]. -/
  intk : Intake := {}
  /-- Commands waiting, first in, first out. -/
  pending : List Instr := []
  deriving DecidableEq, Repr

/-- Why a command stops without a next state. -/
inductive Fault where
  /-- No command of this model faults: the block reports failures in its registers and events. Kept so that the
  type is inhabited; raised by nothing, so safe. -/
  | none
  deriving DecidableEq, Repr

/-- Why a command has no meaning. -/
inductive Refusal where
  /-- The command is not modelled yet; raised by the dispatch alone; safe. -/
  | notModelled (mnemonic : String)
  deriving DecidableEq, Repr

/-- The machine right after reset: PWR_GOOD is high, Cuette's reset is about to be released and the ROM has not
started; every register holds its reset or factory value, retained state and the command queue are empty (log 1). -/
def State.reset : State := {}

end Sys2Proof.Machine
end

