-- ==== Sys2Proof/Machine/Ops.lean ====
section
/-! DEFINITION. The operations every family of commands shares: register words and fields, elapsed and device
time, the event and result rings with MSI-X, the log and trace, and the pins. -/

namespace Sys2Proof.Machine

/-! ### Registers -/

/-- BAR0 register word at offset `a`. -/
def State.reg (s : State) (a : Nat) : W32 := KMap.getD s.regs a (BitVec.ofNat 32 (resetWord a))

/-- Set BAR0 register word `a`; the map lists no word equal to its reset word. -/
def State.setReg (s : State) (a : Nat) (v : W32) : State :=
  { s with regs := if v = BitVec.ofNat 32 (resetWord a) then KMap.del s.regs a else KMap.put s.regs a v }

/-- Register word as a number. -/
def State.rd (s : State) (a : Nat) : Nat := (s.reg a).toNat

/-- Set a register word from a number, modulo 2^32. -/
def State.wr (s : State) (a v : Nat) : State := s.setReg a (BitVec.ofNat 32 v)

/-- Field `[lo + w - 1 : lo]` of register word `a`. -/
def State.fld (s : State) (a lo w : Nat) : Nat := s.rd a / 2 ^ lo % 2 ^ w

/-- Set field `[lo + w - 1 : lo]` of register word `a`. -/
def State.setFld (s : State) (a lo w v : Nat) : State := s.wr a (putBits (s.rd a) lo w v)

/-- Bit `i` of register word `a`. -/
def State.bit (s : State) (a i : Nat) : Bool := decide (s.fld a i 1 = 1)

/-- Set bit `i` of register word `a`. -/
def State.setBit (s : State) (a i : Nat) (b : Bool) : State := s.setFld a i 1 (b2n b)

/-- A 64-bit register: two words, low word first (R8). -/
def State.rd64 (s : State) (a : Nat) : Nat := s.rd a + 2 ^ 32 * s.rd (a + 4)

/-- Set a 64-bit register. -/
def State.wr64 (s : State) (a v : Nat) : State := (s.wr a (lo32 v)).wr (a + 4) (hi32 v)

/-- Count up a 32-bit counter that wraps. -/
def State.inc (s : State) (a : Nat) : State := s.wr a (s.rd a + 1)

/-- Count up a saturating counter field. -/
def State.incSat (s : State) (a lo w : Nat) : State := s.setFld a lo w (satInc (s.fld a lo w) w)

/-- Ronyr's live register word at index `i` (R414). -/
def State.rreg (s : State) (i : Nat) : Nat := (KMap.getD s.rny i (BitVec.ofNat 32 (rnyResetWord i))).toNat

/-- Set Ronyr's live register word `i`. -/
def State.setRreg (s : State) (i v : Nat) : State :=
  { s with rny := if BitVec.ofNat 32 v = BitVec.ofNat 32 (rnyResetWord i) then KMap.del s.rny i
                  else KMap.put s.rny i (BitVec.ofNat 32 v) }

/-- Field of a Ronyr register. -/
def State.rfld (s : State) (i lo w : Nat) : Nat := s.rreg i / 2 ^ lo % 2 ^ w

/-- Set a field of a Ronyr register. -/
def State.setRfld (s : State) (i lo w v : Nat) : State := s.setRreg i (putBits (s.rreg i) lo w v)

/-- Bit of a Ronyr register. -/
def State.rbit (s : State) (i b : Nat) : Bool := decide (s.rfld i b 1 = 1)

/-! ### Free values and time -/

/-- Move on to a fresh free value (log 2). -/
def State.fresh (s : State) : State := { s with free := s.free + 1 }

/-- Device time runs on by `dt` ns of elapsed time: at the rate of SERREF with the servo's adjustment (R417), or of
the on-die oscillator while SERREF is lost (R466). The fraction keeps 2^−16 ns (R416). -/
def Tim.run (m : Tim) (serref : Bool) (dt : Nat) : Tim :=
  let tot : Int := (m.ns * 65536 + m.frac : Nat)
  let step : Int :=
    if serref then (dt * 65536 : Int) + (dt * 65536 : Int) * m.freq / 1000000000
    else (dt * 65536 : Int) + (dt * 65536 : Int) * (max (-50000) (min 50000 Config.oscillatorPpm)) / 1000000
  let n := (tot + step).toNat
  { m with ns := n / 65536, frac := n % 65536 }

/-- A command lands at elapsed instant `t`; one said to land in the past lands now (log 5). -/
def State.at' (s : State) (t : Nat) : State :=
  if s.now < t then { s with now := t, tim := s.tim.run s.mod.serrefOk (t - s.now) } else s

/-- Device time, seconds (R416). -/
def State.devS (s : State) : Nat := s.tim.ns / 1000000000

/-- Device time, nanoseconds (R416). -/
def State.devNs (s : State) : Nat := s.tim.ns % 1000000000

/-- The timebase: floordiv(seconds × 10^9 + nanoseconds, 4) (R416). -/
def State.timebase (s : State) : Nat := s.tim.ns / 4

/-! ### State predicates -/

/-- `CMD_HOST_STATE` reads ATTACHED (R87). -/
def State.attached (s : State) : Bool := decide (s.fld R.CMD_HOST_STATE 0 2 = 1)

/-- `CMD_HOST_STATE` reads GONE (R87). -/
def State.gone (s : State) : Bool := decide (s.fld R.CMD_HOST_STATE 0 2 = 2)

/-- A handshake has agreed and not lapsed (R71). -/
def State.agreed (s : State) : Bool := s.host.agreed

/-- Boot phase (Table 3.7). -/
def State.phase (s : State) : Nat := s.fld R.GLB_BOOT_STATUS 0 4

/-- State of firmware processor `i` in `DBG_FW_STAT`: 0 in reset, 1 running, 2 restarting, 3 retired (Table 22.7). -/
def State.fwState (s : State) (i : Nat) : Nat := s.fld (R.DBG_FW_STAT i) 0 2

/-- SC is up: running and not in the security fault state (R456, R458). -/
def State.scUp (s : State) : Bool := decide (s.fwState 0 = 1) && !s.sec.fault

/-- PMC runs (R486). -/
def State.pmcUp (s : State) : Bool := decide (s.fwState 1 = 1)

/-- SCH runs (R484). -/
def State.schUp (s : State) : Bool := decide (s.fwState 2 = 1)

/-- The device safe state is in force (R471). -/
def State.safe (s : State) : Bool := s.bit R.PWR_SAFE_STAT 0

/-- Cuette is out of reset and runs commands of its own: not held, not stopped by the power-fail sequence. -/
def State.running (s : State) : Bool := !s.mod.held && !s.pwr.failStop && s.mod.railsUp

/-- Count mirror of an encoder channel, 48 bits (R391). -/
def State.mirror (s : State) (ch : Nat) : Nat := s.rd64 (R.LIN_MIRROR ch) % 2 ^ 48

/-- PCIe lane `j` is active: the link is up and as wide (R73). -/
def State.pcieLane (s : State) (j : Nat) : Bool := s.mod.pcieUp && decide (j < 2 ^ s.mod.pcieWidth)

/-! ### MSI-X, rings, log and trace -/

/-- Word `i` of the MSI-X table (Table 4.1): four words an entry, address, data and vector control, whose bit 0 masks the vector and is 1
at reset (log 98). -/
def State.msixWord (s : State) (i : Nat) : Nat :=
  match KMap.find s.host.msixTable i with | some v => v.toNat | none => b2n (i % 4 == 3)

/-- Send MSI-X message `v` (R86). A masked vector becomes pending. While GONE the device masters no host memory (R74); with the link down
but the host ATTACHED the message is lost, and the ring that it signals counts as signalled: a DESIGN CHOICE (log 104). -/
def State.msix (s : State) (v : Nat) : State :=
  if s.msixWord (4 * v + 3) % 2 = 1 then { s with host := { s.host with msixPend := v :: s.host.msixPend.filter (fun i => i != v) } }
  else if s.gone || !s.mod.pcieUp then s
  else { s with host := { s.host with msix := s.host.msix ++ [{ vector := v, addr := s.msixWord (4 * v) + 2 ^ 32 * s.msixWord (4 * v + 1)
                                                                data := s.msixWord (4 * v + 2) }] } }

/-- The host writes word `i` of the MSI-X table: a pending vector whose mask it clears is sent (log 98). -/
def State.msixWrite (s : State) (i v : Nat) : State :=
  let w := if i % 4 = 0 then v / 4 * 4 else if i % 4 = 3 then v % 2 else v
  let s1 : State := { s with host := { s.host with msixTable := KMap.put s.host.msixTable i (BitVec.ofNat 32 w) } }
  if i % 4 = 3 ∧ w = 0 ∧ s.host.msixPend.contains (i / 4) = true then
    ({ s1 with host := { s1.host with msixPend := s1.host.msixPend.filter (fun k => k != i / 4) } } : State).msix (i / 4)
  else s1

/-- Vector of a ring: 0 for the event ring 8, 1 + r for result ring r (R86). -/
def ringVector (r : Nat) : Nat := if r = 8 then 0 else r + 1

/-- The eight words of a ring entry as they stand in host memory (Table 4.5). -/
def RingEntry.words (e : RingEntry) (phase : Nat) : List Nat :=
  [e.seq % 65536 + e.opcode % 256 * 65536 + e.queue % 16 * 2 ^ 24 + e.kind % 4 * 2 ^ 28 + phase % 2 * 2 ^ 31,
   e.code % 65536 + e.ctx % 16 * 65536, e.tag % 2 ^ 32, e.v3 % 2 ^ 32, e.v4 % 2 ^ 32, e.v5 % 2 ^ 32,
   e.timeS % 2 ^ 32, e.timeNs % 2 ^ 32]

/-- Write 32-bit words to a memory, little-endian, in address order. -/
def Mem.writeWords (m : Mem) (a : Nat) : List Nat → Mem
  | [] => m
  | w :: ws => Mem.writeWords (Mem.writeLE m a w 4) (a + 4) ws

/-- Entries of ring `r` that SCH has reserved for orders it collected (R80). -/
def State.reserved (s : State) (r : Nat) : Nat := (s.host.orders.filter (fun o => o.ring == some r)).length

/-- Entries a ring can still take: its size less what the host has not consumed (R85). -/
def Ring.room (g : Ring) : Nat := 2 ^ g.log2 - (g.written - g.consumed)

/-- Signal a ring if its coalesce count is reached, or at once for a coalesce time of 0 (R84). -/
def State.signalRing (s : State) (r : Nat) : State :=
  match KMap.find s.host.rings r with
  | none => s
  | some g =>
    if 0 < g.unsig ∧ (g.timeUs = 0 ∨ g.count ≤ g.unsig) then
      ({ s with host := { s.host with rings := KMap.put s.host.rings r { g with unsig := 0 } } }).msix (ringVector r)
    else s

/-- Write the next entry of ring `r` to host memory, words 1–7 before word 0, and signal it (R84). -/
def State.ringWrite (s : State) (r : Nat) (e : RingEntry) : State :=
  match KMap.find s.host.rings r with
  | none => s
  | some g =>
    let phase := 1 - (g.written / 2 ^ g.log2) % 2
    let addr := g.base + 32 * (g.written % 2 ^ g.log2)
    let g' := { g with written := g.written + 1, unsig := g.unsig + 1,
                       unsigAt := if g.unsig = 0 then s.now else g.unsigAt }
    ({ s with hostMem := Mem.writeWords s.hostMem addr (e.words phase),
              host := { s.host with rings := KMap.put s.host.rings r g' } }).signalRing r

/-- Words 2–5 of an event; `none` where the spec gives that word no content (log 2). -/
structure EvWords where
  /-- Word 2. -/
  w2 : Option Nat := none
  /-- Word 3. -/
  w3 : Option Nat := none
  /-- Word 4. -/
  w4 : Option Nat := none
  /-- Word 5. -/
  w5 : Option Nat := none

/-- Word `i` of an event, free where the spec gives it no content (log 2). -/
def State.evWord (s : State) (code i : Nat) (o : Option Nat) : Nat :=
  match o with
  | some v => v % 2 ^ 32
  | none => (Config.eventWord code i s.free).toNat

/-- Most entries the backlog holds (R89). -/
def backlogMax : Nat := 2097152

/-- Records the log ring holds (R488). -/
def logMax : Nat := 131072

/-- Write a log record, and print it on the console when its level asks and the console is idle (R488, R489). -/
def State.logWrite (s : State) (code : Nat) (detail : List Nat) : State :=
  let origin := (Config.logOrigin code s.free).toNat
  let r : LogRec := { w0 := code % 65536 + origin * 65536, detail := detail, seq := s.dbg.logSeq + 1,
                      timeS := lo32 s.devS, timeNs := s.devNs }
  let s1 := { s with dbg := { s.dbg with log := keepLast (s.dbg.log ++ [r]) logMax, logSeq := s.dbg.logSeq + 1 } }
  if s1.fld R.DBG_LOG_CFG 0 2 ≤ origin / 64 % 4 then
    (if Config.uartBusy s.free then s1.incSat R.DBG_LOG_UART_DROP 0 32
     else { s1 with dbg := { s1.dbg with uart := s1.dbg.uart ++ [s1.dbg.logSeq] } })
  else s1

/-- Put an event entry on its way: the backlog while GONE or while older events wait there (R89, R90), else the event
ring where it has room, else dropped and counted (R85). With no event ring set up the entry goes nowhere (log 9). -/
def State.postEvent (s : State) (e : RingEntry) : State :=
  if s.gone then
    (if s.host.backlog.length < backlogMax then { s with host := { s.host with backlog := s.host.backlog ++ [e] } } else s)
  else if s.host.backlog.any (fun b => b.kind == 1) then
    (if s.host.backlog.length < backlogMax then { s with host := { s.host with backlog := s.host.backlog ++ [e] } } else s)
  else match KMap.find s.host.rings 8 with
    | none => s
    | some g =>
      if 0 < g.room ∧ s.host.evtLostPending = 0 then s.ringWrite 8 e
      else ({ s with host := { s.host with evtLostPending := s.host.evtLostPending + 1 } }).inc R.CMD_EVT_LOST

/-- The entry an event makes (Table 4.5). -/
def State.eventEntry (s : State) (code ctx : Nat) (d : List Nat) : RingEntry :=
  { seq := s.host.evtNumber % 65536, opcode := 0xFF, kind := 1, code := code, ctx := ctx, tag := nth d 0 0,
    v3 := nth d 1 0, v4 := nth d 2 0, v5 := nth d 3 0, timeS := lo32 s.devS, timeNs := s.devNs }

/-- Words 2–5 of an event as numbers. -/
def State.evWords (s : State) (code : Nat) (w : EvWords) : List Nat :=
  [s.evWord code 2 w.w2, s.evWord code 3 w.w3, s.evWord code 4 w.w4, s.evWord code 5 w.w5]

/-- Raise an event: an event-ring entry and a log record with the same code and details (R84, R488). -/
def State.raise (s : State) (code : Nat) (w : EvWords) (ctx : Nat := 0) : State :=
  let d := s.evWords code w
  let s1 := s.postEvent (s.eventEntry code ctx d)
  let s2 := s1.logWrite code d
  { s2 with free := s2.free + 1, host := { s2.host with evtNumber := s2.host.evtNumber + 1 } }

/-- Whether a rate-limited event may be raised now: none of the same code and key within the preceding period (R492). -/
def State.rateOk (s : State) (code key period : Nat) : Bool :=
  match s.host.rate.find? (fun e => e.1 == (code, key)) with
  | none => true
  | some e => decide (e.2 + period ≤ s.now)

/-- Note that a rate-limited event is raised now (R492). -/
def State.rateMark (s : State) (code key : Nat) : State :=
  { s with host := { s.host with rate := ((code, key), s.now) :: s.host.rate.filter (fun e => e.1 != (code, key)) } }

/-- Raise an event at most once per `period` ns for its key (R492). -/
def State.raiseLim (s : State) (code key period : Nat) (w : EvWords) (ctx : Nat := 0) : State :=
  if s.rateOk code key period then (s.rateMark code key).raise code w ctx else s

/-- One millisecond in ns. -/
def ms : Nat := 1000000

/-- Trace records the buffer holds (R490). -/
def traceMax : Nat := 524288

/-- Pass trace point `p` of source `src`: a record is written while its enable bit is set and the buffer has not
stopped (R490). -/
def State.trace (s : State) (p src arg : Nat) : State :=
  if s.bit (R.DBG_TRACE_EN + 4 * (p / 32)) (p % 32) && !s.bit R.DBG_TRACE_STAT 0 then
    let i := s.rd R.DBG_TRACE_WR
    let r : TraceRec := { point := p, source := src, timebase := s.timebase % 2 ^ 48, arg := arg % 2 ^ 64 }
    let s1 := { s with dbg := { s.dbg with trace := KMap.put s.dbg.trace i r } }
    let s2 := (s1.wr R.DBG_TRACE_WR ((i + 1) % traceMax)).incSat R.DBG_TRACE_STAT 1 31
    if s2.bit R.DBG_TRACE_CTRL 0 && decide (i + 1 = traceMax) then s2.setBit R.DBG_TRACE_STAT 0 true else s2
  else s

/-! ### Boot status -/

/-- Change the boot phase; a change sends MSI-X vector 9 (R86). -/
def State.setPhase (s : State) (p : Nat) : State :=
  if s.phase = p then s else (s.setFld R.GLB_BOOT_STATUS 0 4 p).msix 9

/-- Set the code that ends or holds the boot (Table 3.7). -/
def State.setBootCode (s : State) (c : Nat) : State := s.setFld R.GLB_BOOT_STATUS 16 16 c

/-- Change `GLB_HIV_STATUS.state` and its code; a change of state sends MSI-X vector 9 (R86). -/
def State.setHiv (s : State) (st code : Nat) : State :=
  let s1 := (s.setFld R.GLB_HIV_STATUS 0 2 st).setFld R.GLB_HIV_STATUS 16 16 code
  if s.fld R.GLB_HIV_STATUS 0 2 = st then s1 else s1.msix 9

/-! ### Pins -/

/-- Ronyr's cut-off switch is closed (R388). -/
def State.cutoffClosed (s : State) : Bool :=
  s.mod.visoUp && !s.ron.safe && s.ron.wdogServed && !s.ron.supplyLow

/-- Output `k` is commanded on: a fire window is active on it, or `RNY_OUT_SET` holds it (R399). -/
def State.commandedOn (s : State) (k : Nat) : Bool :=
  s.ron.fires.any (fun f => f.phase == 2 && f.order.k == k) || (decide (8 ≤ k) && s.rbit R.RNY_OUT_SET k)

/-- Output `k` is energised: commanded on, not latched off, behind a closed cut-off switch (R399). -/
def State.driven (s : State) (k : Nat) : Bool :=
  s.cutoffClosed && s.commandedOn k && !(nth s.ron.drv k {}).off

/-- Sixteen bits from a predicate on 0–15. -/
def bits16 (f : Nat → Bool) : BitVec 16 :=
  BitVec.ofNat 16 ((List.range 16).foldl (fun a k => a + b2n (f k) * 2 ^ k) 0)

/-- A cause of MSMB_ALERT# is in force (R467). -/
def State.alertCause (s : State) : Bool :=
  s.pwr.throttling || s.safe || s.mod.warning || s.ron.supplyLow

/-- Two bits from a predicate on 0 and 1. -/
def bits2 (f : Nat → Bool) : BitVec 2 := BitVec.ofNat 2 (b2n (f 0) + b2n (f 1) * 2)

/-- Ronyr's RS-422 drivers may drive: it is powered and not in its field safe state (R29, R394). -/
def State.rs422 (s : State) : Bool := s.mod.visoUp && !s.ron.safe

/-- The clock driver of encoder channel `ch` is enabled: in the SSI and BiSS-C modes only (R29). -/
def State.clkDriven (s : State) (ch : Nat) : Bool :=
  let c := s.rreg (R.RNY_ENC_CFG ch)
  s.rs422 && decide (c % 2 = 1) && decide (c / 2 % 8 = 4 ∨ c / 2 % 8 = 5)

/-- The driver of emulated output `e` is enabled: it drives A± on J2 (R29, R407). -/
def State.emuDriven (s : State) (e : Nat) : Bool := s.rs422 && s.rbit (R.RNY_EMU_CFG e) 0 && s.rbit (R.RNY_EMU_CFG e) 3

/-- The levels the state drives onto J1 and J2. -/
def State.pinsOf (s : State) : Pins :=
  { pwrGood := s.mod.railsUp
    thermAlertLow := s.pwr.throttling
    msmbAlertLow := s.pwr.alert || s.alertCause
    hostWakeLow := decide (s.now < s.mod.hostWakeUntil)
    ppsHigh := decide (s.now < s.tim.ppsUntil)
    dq := bits16 s.driven
    lhClosed := s.mod.visoUp && !s.ron.safe && s.ron.healthy && s.ron.beatSince.isSome
    clkDrive := bits2 s.clkDriven
    emuDrive := bits2 s.emuDriven
    emuHigh := bits2 (fun e => s.emuDriven e && decide (s.now < (nth s.ron.emu e {}).highUntil)) }

/-- A safe-state cause is present (Table 21.5): causes 4, 5 and 8 are absent at once, cause 3 stays until reset. -/
def State.causePresent (s : State) (i : Nat) : Bool :=
  match i with
  | 0 => !s.mod.serrefOk
  | 1 => s.pwr.hot
  | 2 => match s.line.validSince with | some t => decide (s.now < t + 10 * ms) | none => true
  | 3 => true
  | 6 => s.line.fieldOwn
  | 7 => match s.line.sweepOkSince with | some t => decide (s.now < t + 10 * ms) | none => true
  | _ => false

/-- Every latched safe-state cause is absent (R473). -/
def State.causesAbsent (s : State) : Bool :=
  (List.range 9).all (fun i => !(s.bit R.PWR_SAFE_STAT (4 + i) && s.causePresent i))

/-- A cast is pending: `STG_STATUS.state` reads PENDING (Table 5.10). -/
def State.castPending (s : State) : Bool := decide (s.fld R.STG_STATUS 0 3 = 2)

/-- Context `x` is a JOB context. -/
def State.isJob (s : State) (x : Nat) : Bool :=
  match KMap.find s.sch.ctxs x with
  | some c => c.cls == 2
  | none => false

/-- A JOB context has a ready or running task (R461). -/
def State.jobBusy (s : State) : Bool :=
  s.sch.deques.any (fun d => s.isJob d.2.1) || s.fab.fets.any (fun e => s.isJob e.2.ctx)

/-- Slot 0 of runner `r` takes no free-running camera: it is off, feeds from memory, or its camera is triggered by an emulated
output (R461). -/
def State.slotTriggered (s : State) (r : Nat) : Bool :=
  let w := s.rd (R.RUN_SRC r 0)
  let cam := s.fld (R.CXP_STREAM_MAP (w / 4 % 64)) 1 5
  let src := s.fld (R.CXP_TRIG_CFG cam) 0 2
  decide (w % 2 = 0) || decide (w / 2 % 2 = 1) || decide (src = 1) || decide (src = 2)

/-- The conditions of S1 beside counts and request: no JOB context has a ready or running task, no cast is pending, and no camera
free-runs (R461). -/
def State.s1Conds (s : State) : Bool := !s.jobBusy && !s.castPending && (List.range 16).all s.slotTriggered

/-- Let the outputs follow the state: the alert latch takes a cause in force, the instants since when every safe-state cause has been
absent (R473) and the conditions of S1 have held (R461) are kept, and the pins take their levels. -/
def State.settle (s : State) : State :=
  { s with
    pwr := { s.pwr with
      alert := s.pwr.alert || s.alertCause
      absentSince := if s.safe && s.causesAbsent then some (s.pwr.absentSince.getD s.now) else none
      idleSince := if s.bit R.PWR_S1_CFG 0 && s.s1Conds then some (s.pwr.idleSince.getD s.now) else none }
    pins := s.pinsOf }

/-- A command ends: the pins follow, and the block answers its next state. -/
def done (s : State) : Host.Outcome State Fault Refusal := .next s.settle

end Sys2Proof.Machine
end

