-- ==== Sys2Proof/Machine/MemOps.lean ====
section
/-! DEFINITION. Device memory, moulds and translation (R170–R188): the accesses every agent of the fabric shares. -/

namespace Sys2Proof

/-! ### The codes of a line (R179) -/

/-- Bytes in error in codeword `k`: the even-numbered bytes of the line form codeword 0, the odd-numbered ones codeword 1. -/
def LineErr.inWord (e : LineErr) (k : Nat) : Nat := ((e.wrong.map Fin.val).eraseDups.filter (fun i => i % 2 == k)).length

/-- A codeword holds more than 2 bytes in error: the line lies outside the guarantee. -/
def LineErr.beyond (e : LineErr) : Bool := decide (2 < e.inWord 0) || decide (2 < e.inWord 1)

/-- The decoder reports the line uncorrectable: it finds no codeword within distance 2. -/
def LineErr.bad (e : LineErr) : Bool := e.beyond && !e.near

/-- The decoder miscorrects: what it delivers is not what was stored. -/
def LineErr.wrongWord (e : LineErr) : Bool := e.beyond && e.near

/-- The decoder corrects the line. -/
def LineErr.corrected (e : LineErr) : Bool := !e.wrong.isEmpty && !e.bad

/-- Bytes as a read delivers them: free ones of a line that was miscorrected (R179; log 2). -/
def LineErr.deliver (e : LineErr) (free a : Nat) (bs : List Byte) : List Byte :=
  if e.wrongWord then (List.range bs.length).map (fun i => Config.freeByte free (a + i)) else bs

end Sys2Proof

namespace Sys2Proof.Machine

/-- Bytes of a mould (R170). -/
def mouldSize : Nat := 6291456

/-- First address of the device register window (R188). -/
def windowBase : Nat := 0xFFFFFC000000

/-- Package of a physical line (R178). -/
def linePackage (p : Nat) : Nat := (Nat.xor (Nat.xor p (p / 32)) (p / 1024)) % 32 / 4

/-- What a translation gives (Table 9.5): a physical address, or a resolvable or an unresolvable cause with the address that met
it. -/
inductive XRes where
  | ok (phys : Nat)
  | park (cause va : Nat)
  | fault (cause va : Nat)
  deriving DecidableEq, Repr

/-- The leaf that maps `va` in context `x`, with the offset in its page (R184). -/
def State.leaf (s : State) (x va : Nat) : Option (Pte × Nat) :=
  match KMap.find s.fab.pt2 (x * 2 ^ 27 + va / 2 ^ 21) with
  | some p => some (p, va % 2 ^ 21)
  | none =>
    match KMap.find s.fab.pt4 (x * 2 ^ 36 + va / 2 ^ 12) with
    | some p => some (p, va % 2 ^ 12)
    | none => none

/-- `va` lies in a mapped range of context `x` (Table 9.5 cause 7). -/
def State.inRanges (s : State) (x va : Nat) : Bool :=
  match KMap.find s.sch.ctxs x with
  | some c => c.ranges.any (fun r => decide (r.1 ≤ va ∧ va < r.1 + r.2))
  | none => false

/-- The page's bytes are on the host tier: it rests there, or a move from there is not over (R185). -/
def Pte.onHost (p : Pte) : Bool := decide (p.tier = 1) || (decide (p.tier = 2) && p.back)

/-- The page holds a frame of device memory. -/
def Pte.inDram (p : Pte) : Bool := !p.host && !p.onHost && decide (p.tier ≠ 3)

/-- Change the leaf that maps `va` in context `x`. -/
def State.setLeaf (s : State) (x va : Nat) (f : Pte → Pte) : State :=
  let k2 := x * 2 ^ 27 + va / 2 ^ 21
  if (KMap.find s.fab.pt2 k2).isSome then { s with fab := { s.fab with pt2 := KMap.adjust s.fab.pt2 k2 f } }
  else { s with fab := { s.fab with pt4 := KMap.adjust s.fab.pt4 (x * 2 ^ 36 + va / 2 ^ 12) f } }

/-- SCH begins to move a page from the host tier for the agent that met it there: it is MIGRATING until the move ends (R185). -/
def State.startMove (s : State) (x cause va : Nat) : State :=
  if cause = 2 then s.setLeaf x va (fun p => if p.tier = 1 then { p with tier := 2, back := true } else p) else s

/-- The page of `va` is on its way from the host tier. -/
def State.moving (s : State) (x va : Nat) : Bool := match s.leaf x va with | some (p, _) => decide (p.tier = 2) && p.back | none => false

/-- A move from the host tier is abandoned: the page stays there (R194). -/
def State.stopMove (s : State) (x va : Nat) : State :=
  s.setLeaf x va (fun p => if p.tier = 2 ∧ p.back then { p with tier := 1, back := false } else p)

/-- Translate a virtual address (R184–R187). `protOk`: the access is one that R187 allows on a protected page. Where
several causes of Table 9.5 hold, the order judged is RANGE, NOT_PRESENT, LOST, PROTECTED, WRITE_RO, HOST_TIER, MIGRATING
(log 14). A page of host memory is no address of an agent but a ladle (R74; log 52). -/
def State.xlate (s : State) (x va : Nat) (write protOk : Bool) : XRes :=
  if !s.inRanges x va then .fault 7 va
  else match s.leaf x va with
    | none => .fault 1 va
    | some (p, off) =>
      if p.host then .fault 7 va
      else if p.tier = 3 then .fault 6 va
      else if p.prot && !protOk then .fault 5 va
      else if write && !p.w then .fault 4 va
      else if p.tier = 1 then .park 2 va
      else if p.tier = 2 then .park 3 va
      else .ok (p.frame + off)

/-- The first failure that `one` meets over the pages of `n` bytes from `va`, else the physical address of the first byte; the
bytes of one access to the fabric never span a 4 KiB page, so this looks at each page in turn. -/
def xlatePages (one : Nat → XRes) : Nat → Nat → Nat → XRes
  | 0, va, _ => one va
  | fuel + 1, va, n =>
    match one va with
    | .ok a =>
      let step := 4096 - va % 4096
      if n ≤ step then .ok a
      else match xlatePages one fuel (va + step) (n - step) with
        | .ok _ => .ok a
        | r => r
    | r => r

/-- Translate the pages of `n` bytes from `va`. -/
def State.xlateAll (s : State) (x : Nat) (write protOk : Bool) (fuel va n : Nat) : XRes :=
  xlatePages (fun a => s.xlate x a write protOk) fuel va n

/-- Physical address of a byte whose translation succeeds. -/
def State.physOf (s : State) (x va : Nat) : Nat :=
  match s.leaf x va with
  | some (p, off) => p.frame + off
  | none => 0

/-- The page of `va` is one of host memory (R74). -/
def State.hostPage (s : State) (x va : Nat) : Bool := match s.leaf x va with | some (p, _) => p.host | none => false

/-- Read one byte of virtual memory whose translation succeeds. -/
def State.vread (s : State) (x va : Nat) : Byte :=
  Mem.read (if s.hostPage x va then s.hostMem else s.fab.dram) (s.physOf x va)

/-- Read bytes of virtual memory whose translation succeeds. -/
def State.vreadBytes (s : State) (x va n : Nat) : List Byte := (List.range n).map (fun i => s.vread x (va + i))

/-- The physical lines of device memory among those of `n` bytes from `va`. -/
def State.linesOf (s : State) (x va n : Nat) : List Nat :=
  ((List.range ((va % 256 + n + 255) / 256)).filter (fun i => !s.hostPage x (va - va % 256 + 256 * i))).map
    (fun i => s.physOf x (va - va % 256 + 256 * i) / 256)

/-- The physical lines, among those of `n` bytes from `va`, that the poison map holds (R182). -/
def State.poisonedIn (s : State) (x va n : Nat) : Option Nat :=
  (s.linesOf x va n).find? (fun l => s.fab.poison.contains l)

/-- The lines that a write of `n` bytes from `va` covers only in part hold a poisoned one: that write reads it first (R180). -/
def State.partPoison (s : State) (x va n : Nat) : Option Nat :=
  let head := if va % 256 ≠ 0 ∨ n < 256 then s.linesOf x va 1 else []
  let tail := if (va + n) % 256 ≠ 0 then s.linesOf x (va + n - 1) 1 else []
  (head ++ tail).find? (fun l => s.fab.poison.contains l)

/-- Write bytes to device memory at a physical address; a line written whole leaves the poison map (R180). -/
def State.pwrite (s : State) (a : Nat) (bs : List Byte) : State :=
  let first := (a + 255) / 256
  let last := (a + bs.length) / 256
  let poison := s.fab.poison.filter (fun l => !(decide (first ≤ l) && decide (l < last)))
  let s1 := { s with fab := { s.fab with dram := Mem.writeBytes s.fab.dram a bs, poison := poison } }
  if s.fab.poison = poison then s1 else s1.wr R.MEM_POISONED poison.length

/-- Write bytes at the place a virtual address maps to. -/
def State.placeWrite (s : State) (x va : Nat) (bs : List Byte) : State :=
  if s.hostPage x va then { s with hostMem := Mem.writeBytes s.hostMem (s.physOf x va) bs } else s.pwrite (s.physOf x va) bs

/-- Write bytes to virtual memory, page by page, where translation succeeds. -/
def State.vwrite (s : State) (x : Nat) : Nat → Nat → List Byte → State
  | 0, _, _ => s
  | fuel + 1, va, bs =>
    let step := 4096 - va % 4096
    let s1 := s.placeWrite x va (bs.take step)
    if bs.length ≤ step then s1 else s1.vwrite x fuel (va + step) (bs.drop step)

/-- Count what the codes corrected in line `l` (Table 9.12): the inner code's correction, and the outer code's. -/
def State.countCorr (s : State) (l : Nat) (e : LineErr) : State :=
  let s1 := if e.inner then s.incSat (R.MEM_CORR_INNER (linePackage l)) 0 32 else s
  if e.corrected then s1.incSat (R.MEM_CORR_OUTER (linePackage l)) 0 32 else s1

/-- A line that was miscorrected and is written back holds bytes that are free (R179; log 2). -/
def State.miscorrect (s : State) (l : Nat) (e : LineErr) : State :=
  if e.wrongWord then
    let bs := e.deliver s.free (l * 256) (Mem.readBytes s.fab.dram (l * 256) 256)
    ({ s with fab := { s.fab with dram := Mem.writeBytes s.fab.dram (l * 256) bs } } : State).fresh
  else s

/-! ### The meters of a flask (R196) -/

/-- Flask `n` looks `k` pages up in its translation cache: which of them hit is open (R184; log 2). -/
def State.lookUp (s : State) (n k : Nat) : State :=
  let h := KMap.getD s.meter.hits n 0
  let m := KMap.getD s.meter.misses n 0
  let hit := (Config.measure (2 ^ 33 + n) (h + m)).toNat % (k + 1)
  { s with meter := { s.meter with hits := KMap.put s.meter.hits n ((h + hit) % 2 ^ 64)
                                   misses := KMap.put s.meter.misses n ((m + (k - hit)) % 2 ^ 64) } }

/-- Flask `n` sends `k` bytes of payload through its fabric port (log 99). -/
def State.sendBytes (s : State) (n k : Nat) : State :=
  { s with meter := { s.meter with tx := KMap.put s.meter.tx n ((KMap.getD s.meter.tx n 0 + k) % 2 ^ 64) } }

/-- Flask `n` receives `k` bytes of payload through its fabric port (log 99). -/
def State.recvBytes (s : State) (n k : Nat) : State :=
  { s with meter := { s.meter with rx := KMap.put s.meter.rx n ((KMap.getD s.meter.rx n 0 + k) % 2 ^ 64) } }

/-- Pages that `n` bytes from `va` meet. -/
def pagesOf (va n : Nat) : Nat := (va % 4096 + n + 4095) / 4096

/-- Record an uncorrectable read (R181): the line, the package's count, and E_MEM_UNCORR with reader and context. -/
def State.memUncorr (s : State) (line reader x flask : Nat) : State :=
  let s1 := s.wr64 R.MEM_LAST_UNCORR line
  let s2 := s1.wr R.MEM_LAST_UNCORR_SRC (reader % 16 + x % 16 * 16 + flask % 32 * 256)
  let s3 := s2.incSat (R.MEM_UNCORR (linePackage line)) 0 32
  s3.raise E_MEM_UNCORR { w2 := some reader, w3 := some x } x

/-- Count a translation fault of flask `n` (Tables 9.11, 9.12). -/
def State.countXlate (s : State) (n : Nat) (resolved : Bool) : State :=
  let lo := if resolved then 0 else 16
  (s.incSat (R.FLK_XLATE_FAULT n) lo 16).incSat R.MEM_XLATE_FAULTS lo 16

/-- An unresolvable translation fault (R185). -/
def State.xlateFault (s : State) (n x : Nat) : State := (s.countXlate n false).raise E_XLATE_FAULT {} x

/-- Mould byte address in the state's store. -/
def mouldAt (n off : Nat) : Nat := n * 2 ^ 23 + off

/-- Read bytes of a mould. -/
def State.mread (s : State) (n off len : Nat) : List Byte := Mem.readBytes s.fab.mould (mouldAt n off) len

/-- Read a number of a mould, little-endian. -/
def State.mnum (s : State) (n off len : Nat) : Nat := Mem.readLE s.fab.mould (mouldAt n off) len

/-- Write bytes of a mould. -/
def State.mwrite (s : State) (n off : Nat) (bs : List Byte) : State :=
  { s with fab := { s.fab with mould := Mem.writeBytes s.fab.mould (mouldAt n off) bs } }

/-- Write a number to a mould, little-endian. -/
def State.mnumW (s : State) (n off v len : Nat) : State :=
  { s with fab := { s.fab with mould := Mem.writeLE s.fab.mould (mouldAt n off) v len } }

/-- The regions of context `x` in flask `n`'s region table: offset and size in bytes, and prot (R171, Table 9.11). -/
def State.regions (s : State) (n x : Nat) : List (Nat × Nat × Bool) :=
  (List.range 16).filterMap (fun i =>
    let w := s.rd (R.FLK_REGION n i)
    if w.testBit 29 && w / 2 ^ 24 % 16 == x then some (w % 2048 * 4096, w / 4096 % 2048 * 4096, w.testBit 28) else none)

/-- Every byte of `[off, off + len)` lies in some region of the list. -/
def covered (rs : List (Nat × Nat × Bool)) : Nat → Nat → Nat → Bool
  | 0, _, len => decide (len = 0)
  | fuel + 1, off, len =>
    if len = 0 then true
    else match rs.find? (fun r => decide (r.1 ≤ off ∧ off < r.1 + r.2.1)) with
      | none => false
      | some r => let k := r.1 + r.2.1 - off
                  if len ≤ k then true else covered rs fuel (off + k) (len - k)

/-- A mould range is in the mould and in regions of the acting context (R171). -/
def State.mouldOk (s : State) (n x off len : Nat) : Bool :=
  decide (off + len ≤ mouldSize) && covered (s.regions n x) 16 off len

/-- The range meets a protected region of the context (R187). -/
def State.mouldProt (s : State) (n x off len : Nat) : Bool :=
  (s.regions n x).any (fun r => r.2.2 && decide (r.1 < off + len ∧ off < r.1 + r.2.1))

/-- Two byte ranges meet. -/
def overlap (a b : Nat × Nat) : Bool := decide (a.1 < b.1 + b.2 ∧ b.1 < a.1 + a.2)

/-- Flag the regions of context `x` that a range of mould `n` meets as protected (R187, R450). -/
def State.protect (s : State) (n x off len : Nat) : State :=
  (List.range 16).foldl (fun s i =>
    let w := s.rd (R.FLK_REGION n i)
    if w.testBit 29 ∧ w / 2 ^ 24 % 16 = x ∧ overlap (w % 2048 * 4096, w / 4096 % 2048 * 4096) (off, len) then
      s.setBit (R.FLK_REGION n i) 28 true
    else s) s

/-- Corrected width of a slot, W = cw / hx (R159). -/
def State.corrW (s : State) (r k : Nat) : Nat := s.fld (R.RUN_CROP r k) 16 15 / max 1 (s.fld (R.RUN_BIN r k) 0 4)

/-- Physical flasks in use, ascending (R63, R317). -/
def State.flasksUsed (s : State) : List Nat := (List.range 32).filter (fun n => s.fld (R.FLK_STAT n) 0 3 ≠ 0 && s.fld (R.FLK_STAT n) 0 3 ≠ 4)

/-- Flasks of a mask, ascending. -/
def maskList (m : BitVec 32) : List Nat := (List.range 32).filter (fun n => m.toNat.testBit n)

/-- A mask from a list of flasks. -/
def maskOf (l : List Nat) : BitVec 32 := BitVec.ofNat 32 ((List.range 32).foldl (fun a n => a + b2n (l.contains n) * 2 ^ n) 0)

/-- Context `x`. -/
def State.ctx (s : State) (x : Nat) : Option Ctx := KMap.find s.sch.ctxs x

/-- Store context `x`. -/
def State.setCtx (s : State) (x : Nat) (c : Ctx) : State :=
  { s with sch := { s.sch with ctxs := KMap.put s.sch.ctxs x c } }

/-- Flask of a crucible. -/
def cruFlask (c : Nat) : Nat := c / 2

/-- Crucible `c`. -/
def State.cru (s : State) (c : Nat) : Cru := KMap.getD s.fab.crus c {}

/-- Store crucible `c`. -/
def State.setCru (s : State) (c : Nat) (q : Cru) : State :=
  { s with fab := { s.fab with crus := KMap.put s.fab.crus c q } }

/-- Tile `i` of crucible `c`. -/
def State.tile (s : State) (c i : Nat) : Tile := nth (s.cru c).tiles i {}

/-- Store tile `i` of crucible `c`. -/
def State.setTile (s : State) (c i : Nat) (t : Tile) : State :=
  let q := s.cru c
  s.setCru c { q with tiles := setNth q.tiles i t }

/-- Queue of ladle `l` of flask `n`. -/
def State.ladle (s : State) (n l : Nat) : List LDesc := KMap.getD s.fab.ladles (n * 2 + l) []

/-- Store a ladle's queue. -/
def State.setLadle (s : State) (n l : Nat) (q : List LDesc) : State :=
  { s with fab := { s.fab with ladles := if q = [] then KMap.del s.fab.ladles (n * 2 + l) else KMap.put s.fab.ladles (n * 2 + l) q } }

/-- Event counter `c` of flask `n` (Table 9.2). -/
def State.evc (s : State) (n c : Nat) : Nat := KMap.getD s.fab.evcs (n * 256 + c) 0

/-- Add to an event counter, modulo 2^32 (Table 9.2). -/
def State.evcAdd (s : State) (n c v : Nat) : State :=
  let w := (s.evc n c + v) % 2 ^ 32
  { s with fab := { s.fab with evcs := if w = 0 then KMap.del s.fab.evcs (n * 256 + c) else KMap.put s.fab.evcs (n * 256 + c) w } }

/-- A wait on an event counter is over: value − target, as signed 32-bit, is not negative (Table 9.2). -/
def evcReached (value target : Nat) : Bool := decide (0 ≤ sextI (value + 2 ^ 32 - target % 2 ^ 32) 32)

/-- The pour with an ID. -/
def State.pour (s : State) (id : Nat) : Option Pour := s.sch.pours.find? (fun p => p.id == id)

/-- Change the pour with an ID. -/
def State.setPour (s : State) (p : Pour) : State :=
  { s with sch := { s.sch with pours := s.sch.pours.map (fun q => if q.id = p.id then p else q) } }

/-- The program with an ID. -/
def State.program (s : State) (id : Nat) : Option LoadedProg := s.sch.progs.find? (fun p => p.id == id)

/-- Write a stored CSR. -/
def Fet.wc (f : Fet) (i : Nat) (v : W64) : Fet := { f with csr := KMap.put f.csr i v }

/-- Fettler `i` with its task. -/
def State.fet (s : State) (i : Nat) : Option Fet := KMap.find s.fab.fets i

/-- Store fettler `i`. -/
def State.setFet (s : State) (i : Nat) (f : Fet) : State := { s with fab := { s.fab with fets := KMap.put s.fab.fets i f } }

/-- The task of fettler `i` has left it. -/
def State.dropFet (s : State) (i : Nat) : State := { s with fab := { s.fab with fets := KMap.del s.fab.fets i } }

/-- What the program of a pour declares. -/
def State.pourProg (s : State) (p : Pour) : Option Program := (s.program p.prog).map (fun l => l.prog)

/-- A pour holds its sync objects from its start to its end (R174, R324). -/
def Pour.holds (p : Pour) : Bool := p.st == 1 || p.st == 2 || p.st == 3

/-- Flask `n` is in the effective mask of context `x` (R317). -/
def State.inMask (s : State) (x n : Nat) : Bool :=
  match s.ctx x with
  | some c => c.mask.toNat.testBit n
  | none => false

/-- Event counter `c` of flask `n` is allocated to pour `id` (R174). -/
def State.evcOwned (s : State) (id n c : Nat) : Bool :=
  match s.pour id with
  | none => false
  | some p => p.holds && s.inMask p.ctx n && (match s.pourProg p with | some g => g.evcs.contains c | none => false)

/-- A descriptor's event counter counts its completion: one that its pour does not own is out of its reach (R174; log 100). -/
def State.evcDone (s : State) (pour n c : Nat) : State := if s.evcOwned pour n c then s.evcAdd n c 1 else s

/-- Settle the ticket of a completed command or transfer: its task's record of it, wherever the task runs (R238, R241). -/
def State.settleTicket (s : State) (pour task eng unit num : Nat) (ok : Bool) : State :=
  let upd (f : Fet) : Fet :=
    if f.pour = pour ∧ f.task = task then
      { f with tickets := f.tickets.map (fun k =>
          if k.eng = eng ∧ k.unit = unit ∧ k.num = num ∧ k.st = 0 then { k with st := if ok then 1 else 2 } else k) }
    else f
  { s with fab := { s.fab with fets := s.fab.fets.map (fun e => (e.1, upd e.2)) } }

end Sys2Proof.Machine
end

