-- ==== Sys2Proof/Machine/CruOps.lean ====
section
/-! DEFINITION. Crucible arithmetic (R203–R216): terms, placement, tags, cells, tiles, the drain, and where the taps of
a window read (R279–R285). -/

namespace Sys2Proof.Machine

/-! ### Descriptor words -/

/-- Field `[lo + w - 1 : lo]` of word `i` of a descriptor. -/
def dfld (d : List Nat) (i lo w : Nat) : Nat := nth d i 0 / 2 ^ lo % 2 ^ w

/-- A signed field. -/
def dsgn (d : List Nat) (i lo w : Nat) : Int := sextI (dfld d i lo w) w

/-- A tensor reference (Table 12.3). -/
structure TRef where
  /-- Address, 48 bits. -/
  addr : Nat
  /-- 1 virtual. -/
  space : Nat
  /-- Format code. -/
  fmt : Nat
  /-- Row stride in 64-byte units. -/
  stride : Nat
  deriving DecidableEq, Repr

/-- The reference in words `i` and `i + 1` (R260). -/
def tref (d : List Nat) (i : Nat) : TRef :=
  let v := nth d i 0 % 2 ^ 32 + nth d (i + 1) 0 % 2 ^ 32 * 2 ^ 32
  { addr := v % 2 ^ 48, space := v / 2 ^ 48 % 2, fmt := v / 2 ^ 49 % 16, stride := v / 2 ^ 53 % 2048 }

/-- Pair class of two operand formats (Table 10.5); none where the pair is not one of the table. -/
def pairClass (a b : Nat) : Option Nat :=
  let int (f : Nat) := f = 1 ∨ f = 5 ∨ f = 4 ∨ f = 3 ∨ f = 6
  let fp8 (f : Nat) := f = 8 ∨ f = 9
  if int a ∧ int b then some 0 else if fp8 a ∧ fp8 b then some 1 else if a = 10 ∧ b = 10 then some 2
  else if a = 11 ∧ b = 11 then some 3 else if a = 14 ∧ b = 14 then some 4 else if a = 13 ∧ b = 13 then some 5 else none

/-- Placement L of a pair class (Table 10.5). -/
def placement (pair : Nat) (accLsb : Int) : Int :=
  if pair = 0 then 0 else if pair = 1 then -32 else if pair = 2 then -48 else accLsb

/-- `acc_lsb` is allowed with the pair class (R261). -/
def accLsbOk (pair : Nat) (accLsb : Int) : Bool :=
  if pair ≤ 2 then decide (accLsb = 0) else decide (-320 ≤ accLsb ∧ accLsb ≤ 200)

/-! ### Terms and cells -/

/-- Tags (Table 10.6): 0 finite, 1 +infinity, 2 −infinity, 3 NaN; ⊕ is their bitwise or. -/
def tagJoin (t u : Nat) : Nat := Nat.lor t u

/-- What terms add to a cell: their placed sum in units of 2^L, their joined tag, and the terms lost below the window
(R205–R207). -/
structure Acc where
  /-- Sum of placed values. -/
  v : Int := 0
  /-- Joined tag. -/
  tag : Nat := 0
  /-- Underflowed terms. -/
  uf : Nat := 0
  deriving DecidableEq, Repr

/-- Terms of two multisets together (R207). -/
def Acc.add (a b : Acc) : Acc := { v := a.v + b.v, tag := tagJoin a.tag b.tag, uf := a.uf + b.uf }

/-- The sum of a list of contributions. -/
def Acc.sum (l : List Acc) : Acc := l.foldl Acc.add {}

/-- Place an exact term (−1)^neg × m × 2^e at 2^L: its magnitude is truncated toward zero, and a term that vanishes is
counted (R205). In the exact classes nothing is lost. -/
def placeTerm (lsb : Int) (neg : Bool) (m : Nat) (e : Int) : Acc :=
  let mag := if lsb ≤ e then m * 2 ^ (e - lsb).toNat else m / 2 ^ (lsb - e).toNat
  { v := if neg then -(mag : Int) else mag, uf := if mag = 0 ∧ m ≠ 0 then 1 else 0 }

/-- The exact product of two values with its tag (R204, R206), placed. -/
def termOf (lsb : Int) (a b : Num) : Acc :=
  match a, b with
  | .nan, _ => { tag := 3 }
  | _, .nan => { tag := 3 }
  | .inf s, .inf t => { tag := if s = t then 1 else 2 }
  | .inf s, .fin t m _ => { tag := if m = 0 then 3 else if s = t then 1 else 2 }
  | .fin s m _, .inf t => { tag := if m = 0 then 3 else if s = t then 1 else 2 }
  | .fin s m e, .fin t n f => placeTerm lsb (s != t) (m * n) (e + f)

/-- A finite value less an integer zero point (class 0, R204). -/
def subZero (a : Num) (z : Int) : Num :=
  match a with
  | .fin s m e => Num.ofInt ((if s then -(m : Int) else m) * 2 ^ e.toNat - z)
  | x => x

/-- The value 1. -/
def Num.one : Num := .fin false 1 0

/-- The exact sum of finite values as sign, magnitude and exponent. -/
def dySum (l : List (Bool × Nat × Int)) : Bool × Nat × Int :=
  let e := l.foldl (fun a t => min a t.2.2) 0
  let s : Int := l.foldl (fun a t => a + (if t.1 then -1 else 1) * ((t.2.1 * 2 ^ (t.2.2 - e).toNat : Nat) : Int)) 0
  (decide (s < 0), s.natAbs, e)

/-- The term of one pair of blocks: their exact dot product under both scales, placed once (R205, R206). -/
def blockTerm (lsb : Int) (b4 : Bool) (xa xb : Nat) (as bs : List Nat) : Acc :=
  let f := if b4 then 4 else 8
  if xa = 255 ∨ xb = 255 then { tag := 3 }
  else
    let ps := List.zipWith (fun a b => (numOf f a, numOf f b)) as bs
    if ps.any (fun p => p.1 == .nan || p.2 == .nan) then { tag := 3 }
    else
      let ts := ps.filterMap (fun p => match p with
        | (.fin s m e, .fin t n g) => some (s != t, m * n, e + g)
        | _ => none)
      let (neg, m, e) := dySum ts
      placeTerm lsb neg m (e + xa + xb - 254)

/-- Add contributions to a cell (R207). -/
def Cell.add (c : Cell) (a : Acc) : Cell :=
  { v := c.v + BitVec.ofInt 128 a.v, tag := c.tag ||| BitVec.ofNat 2 a.tag }

/-- Cell (r, c) of a tile. -/
def Tile.cell (t : Tile) (r c : Nat) : Cell := KMap.getD t.cells (r * 64 + c) {}

/-- Store a cell; a (0, finite) cell is not listed. -/
def Tile.setCell (t : Tile) (r c : Nat) (x : Cell) : Tile :=
  { t with cells := if x = {} then KMap.del t.cells (r * 64 + c) else KMap.put t.cells (r * 64 + c) x }

/-- Count underflowed terms, saturating (Table 10.7). -/
def Tile.addUf (t : Tile) (n : Nat) : Tile :=
  if t.uf + n < 2 ^ 32 then { t with uf := t.uf + n } else { t with uf := 2 ^ 32 - 1, ufSat := true }

/-- Accumulate into the rectangle of M rows and N columns at (r0, c0): `f m n` are the terms of cell (m, n). -/
def Tile.accumulate (t : Tile) (r0 c0 mm nn : Nat) (f : Nat → Nat → Acc) : Tile :=
  (List.range mm).foldl (fun t m => (List.range nn).foldl (fun t n =>
    let a := f m n
    (t.setCell (r0 + m) (c0 + n) ((t.cell (r0 + m) (c0 + n)).add a)).addUf a.uf) t) t

/-- Clear a tile for a pair class and placement (R203). -/
def Tile.clear (t : Tile) (pair : Nat) (lsb : Int) : Tile := { valid := true, owner := t.owner, pair := pair, lsb := lsb }

/-- The tile status word (Table 10.7). -/
def Tile.status (t : Tile) : Nat :=
  b2n t.range + 2 * b2n t.inf + 4 * b2n t.nan + 8 * b2n t.ufSat + t.pair % 256 * 2 ^ 8 + wrapI t.lsb 10 * 2 ^ 16
    + t.uf % 2 ^ 32 * 2 ^ 32

/-- A cell's value lies in the 112-bit range (R208). -/
def Cell.inRange (c : Cell) : Bool := decide (-(2 ^ 111) ≤ c.v.toInt ∧ c.v.toInt ≤ 2 ^ 111 - 1)

/-! ### Elements in the mould -/

/-- Bits of an element in memory: an S4 element's four bits, a U12 element's twelve of its triple (Table 10.1). -/
def elemAt (m : Mem) (a f n : Nat) : Nat :=
  if f = 4 ∨ f = 13 then (Mem.read m (a + n / 2)).toNat / (if n % 2 = 0 then 1 else 16) % 16
  else if f = 2 then Mem.readLE m (a + 3 * (n / 2)) 3 / (if n % 2 = 0 then 1 else 4096) % 4096
  else Mem.readLE m (a + n * (fmtBits f / 8)) (fmtBits f / 8)

/-- Write an element's bits. -/
def elemPut (m : Mem) (a f n v : Nat) : Mem :=
  if f = 4 ∨ f = 13 then
    let b := (Mem.read m (a + n / 2)).toNat
    Mem.write m (a + n / 2) (BitVec.ofNat 8 (putBits b (if n % 2 = 0 then 0 else 4) 4 v))
  else if f = 2 then
    Mem.writeLE m (a + 3 * (n / 2)) (putBits (Mem.readLE m (a + 3 * (n / 2)) 3) (if n % 2 = 0 then 0 else 12) 12 v) 3
  else Mem.writeLE m (a + n * (fmtBits f / 8)) v (fmtBits f / 8)

/-- Two-bit tag of element `i` of a tag array (R210). -/
def tagAt (m : Mem) (a i : Nat) : Nat := (Mem.read m (a + i / 4)).toNat / 4 ^ (i % 4) % 4

/-- Write a tag (R210). -/
def tagPut (m : Mem) (a i t : Nat) : Mem :=
  Mem.write m (a + i / 4) (BitVec.ofNat 8 (putBits (Mem.read m (a + i / 4)).toNat (2 * (i % 4)) 2 t))

/-- Bytes that `n` elements of a format occupy (R210: Q128 values only). -/
def elemBytes (f n : Nat) : Nat := if f = 2 then (n + 1) / 2 * 3 else (n * fmtBits f + 7) / 8

/-! ### Window taps -/

/-- fold of R282. -/
def foldCol (x : Int) (w : Nat) : Nat :=
  if w = 1 then 0
  else
    let p : Int := 2 * ((w : Int) - 1)
    let r := x % p
    (if r ≤ (w : Int) - 1 then r else p - r).toNat

/-- The column a tap reads under its padding mode; none for a zero-padded tap (Table 13.1). -/
def tapCol (pad w : Nat) (x : Int) : Option Nat :=
  if 0 ≤ x ∧ x < w then some x.toNat
  else if pad = 0 then none
  else if pad = 1 then some (if x < 0 then 0 else w - 1)
  else some (foldCol x w)

/-- Column of tap kx of output position m before padding (R279). -/
def tapX (x0 : Int) (sx kw dx m kx : Nat) : Int :=
  x0 + (m * sx : Nat) + ((kx : Int) - ((kw - 1) / 2 : Nat)) * dx

/-- All taps (ky, kx) of a window in weight order. -/
def windowTaps (kh kw : Nat) : List (Nat × Nat) :=
  (List.range kh).foldl (fun l ky => l ++ (List.range kw).map (fun kx => (ky, kx))) []

/-- x < y of two finite values, −0 ranking below +0 (R265). -/
def numLt (a b : Num) : Bool :=
  match a, b with
  | .inf s, .inf t => s && !t
  | .inf s, _ => s
  | _, .inf t => !t
  | .fin s m e, .fin t n f =>
    let x : Int := (if s then -1 else 1) * ((m * 2 ^ (e - min e f).toNat : Nat) : Int)
    let y : Int := (if t then -1 else 1) * ((n * 2 ^ (f - min e f).toNat : Nat) : Int)
    if m = 0 ∧ n = 0 then s && !t else decide (x < y)
  | _, _ => false

/-- Larger (or smaller) of two encodings of a format; a NaN gives the canonical NaN (R265). -/
def pickMax (f : Nat) (isMax : Bool) (a b : Nat) : Nat :=
  let nan := match floatFmt f with | some ff => ff.nan | none => 0
  if numOf f a = .nan ∨ numOf f b = .nan then nan
  else if numLt (numOf f a) (numOf f b) then (if isMax then b else a) else (if isMax then a else b)

/-! ### Drain -/

/-- Drain one cell to a format (R211, R212): the element's bits, whether it counts in sat, and the exact value's scale
applied. `s` is the F32 scale. -/
def drainCell (c : Cell) (lsb : Int) (f mode : Nat) (s : Num) (z : Int) (draw : Nat) : Nat × Bool :=
  match floatFmt f with
  | some ff =>
    if c.tag = 3 then (ff.nan, true)
    else if c.tag ≠ 0 then (if ff.hasInf then ff.infinity (c.tag == 2) else ff.nan, true)
    else match s with
      | .fin sn sm se =>
        let m := c.v.toInt.natAbs * sm
        let r := ff.round mode draw (if m = 0 then false else (decide (c.v.toInt < 0)) != sn) m (lsb + se)
        (r.bits, r.ovf)
      | _ => (0, false)
  | none =>
    match intRange f with
    | none => (0, false)
    | some (lo, hi) =>
      if c.tag = 3 then (wrapI (max lo (min hi z)) (fmtBits f), true)
      else if c.tag ≠ 0 then (wrapI (if c.tag = 2 then lo else hi) (fmtBits f), true)
      else match s with
        | .fin sn sm se =>
          let r := roundInt lo hi (fmtBits f) mode draw ((decide (c.v.toInt < 0)) != sn) (c.v.toInt.natAbs * sm) (lsb + se) z
          (r.bits, r.ovf)
        | _ => (0, false)

/-- A drain notes the cell's tag in the status, and outside Q128 its range (R208, R212). -/
def Tile.noteDrain (t : Tile) (c : Cell) (q128 : Bool) : Tile :=
  { t with
    range := t.range || (!q128 && c.tag == 0 && !c.inRange)
    inf := t.inf || c.tag == 1 || c.tag == 2
    nan := t.nan || c.tag == 3 }

end Sys2Proof.Machine
end

