-- ==== Sys2Proof/Machine/Desc.lean ====
section
/-! DEFINITION. Crucible descriptors: cost (Table 12.12), stage size, and the load checks of Table 12.14. -/

namespace Sys2Proof.Machine

/-- ceil(a / b). -/
def ceilDiv (a b : Nat) : Nat := (a + b - 1) / b

/-- Type of a descriptor (Table 12.2). -/
def dType (d : List Nat) : Nat := dfld d 0 0 4

/-- Twice the element size b of R272: S4 = 1, U12 = 3, Q128 = 34. -/
def halfBytes (f : Nat) : Nat := if f = 15 then 34 else fmtBits f / 4

/-- Rate factor of an operand pair (R272). -/
def rateOf (a b : Nat) : Nat :=
  let four (f : Nat) := f = 4 ∨ f = 13
  let wide (f : Nat) := f = 3 ∨ f = 6 ∨ f = 10 ∨ f = 11
  if four a ∧ four b then 8 else if wide a ∨ wide b then 1 else 4

/-- Where a field of a type is M, N and the origin of its rectangle: M, N, r0, c0 (Tables 12.5–12.10). -/
structure Rect where
  /-- Rows. -/
  m : Nat := 0
  /-- Columns. -/
  n : Nat := 0
  /-- First tile row. -/
  r0 : Nat := 0
  /-- First tile column. -/
  c0 : Nat := 0
  deriving DecidableEq, Repr

/-- The rectangle a descriptor names. -/
def dRect (d : List Nat) : Rect :=
  let t := dType d
  if t = 4 then ⟨dfld d 6 2 7 + 1, dfld d 6 9 6 + 1, dfld d 9 0 7, dfld d 9 7 6⟩
  else if t = 5 then ⟨dfld d 6 2 7 + 1, dfld d 6 9 6 + 1, dfld d 6 15 7, dfld d 6 22 6⟩
  else if t = 6 then ⟨dfld d 7 3 7 + 1, dfld d 7 10 6 + 1, dfld d 7 16 7, dfld d 7 23 6⟩
  else ⟨dfld d 6 0 7 + 1, dfld d 6 7 6 + 1, dfld d 11 0 7, dfld d 11 7 6⟩

/-- Window fields of `CONV`, `DWCONV` and `POOL` (Tables 12.6, 12.7). -/
structure Win where
  /-- Window width. -/
  kw : Nat
  /-- Window height. -/
  kh : Nat
  /-- Stride. -/
  sx : Nat
  /-- Padding mode. -/
  pad : Nat
  /-- Line-buffer input. -/
  lb : Bool
  /-- Dilation along x. -/
  dx : Nat
  /-- Dilation along y. -/
  dy : Nat
  /-- Input column of the first centre tap. -/
  x0 : Int
  /-- Input width. -/
  w : Nat
  /-- Input channels. -/
  cin : Nat
  deriving DecidableEq, Repr

/-- The window a descriptor names. -/
def dWin (d : List Nat) : Win :=
  if dType d = 4 then
    { kw := dfld d 6 15 4, kh := dfld d 6 19 4, sx := dfld d 6 23 3 + 1, pad := dfld d 6 26 2, lb := decide (dfld d 6 28 1 = 1)
      dx := dfld d 7 0 8, dy := dfld d 7 8 8, x0 := dsgn d 7 16 15, w := dfld d 8 0 15, cin := dfld d 6 9 6 + 1 }
  else
    { kw := dfld d 6 13 4, kh := dfld d 6 17 4, sx := dfld d 6 21 3 + 1, pad := dfld d 6 24 2, lb := decide (dfld d 6 26 1 = 1)
      dx := dfld d 7 0 8, dy := dfld d 7 8 8, x0 := dsgn d 8 0 15, w := dfld d 8 16 15, cin := dfld d 7 16 13 + 1 }

/-- `POOL` or `EWISE` op. -/
def dOp (d : List Nat) : Nat := dfld d 6 0 2

/-- The operand pair's formats (Table 12.4, R272). -/
def dPair (d : List Nat) : Nat × Nat :=
  let t := dType d
  if t = 4 then ((tref d 2).fmt, (tref d 2).fmt)
  else if t = 5 then ((tref d 2).fmt, if dOp d = 0 then (tref d 4).fmt else (tref d 2).fmt)
  else if t = 7 ∨ t = 8 then ((tref d 2).fmt, dfld d 5 17 4)
  else ((tref d 2).fmt, (tref d 4).fmt)

/-- acc_lsb of a descriptor. -/
def dAccLsb (d : List Nat) : Int :=
  let t := dType d
  if t = 1 ∨ t = 5 then dsgn d 7 0 10 else if t = 4 then dsgn d 8 16 10
  else if t = 7 ∨ t = 8 then dsgn d 8 0 10 else dsgn d 9 0 10

/-- Rate factor q of a command (R272). -/
def dRate (d : List Nat) : Nat :=
  let t := dType d
  if t = 6 ∨ t = 9 ∨ (t = 5 ∧ dOp d = 2) then 4 else rateOf (dPair d).1 (dPair d).2

/-- Rows and columns of a `LAYOUT`. -/
def dLayout (d : List Nat) : Nat × Nat := (dfld d 6 0 16 + 1, dfld d 6 16 16 + 1)

/-- Bytes a `LAYOUT` side reads or writes, its aux array included (Table 12.12). -/
def layoutBytes (f rows cols : Nat) : Nat :=
  if f = 15 then rows * cols * 16 + ceilDiv (rows * cols) 4
  else rows * elemBytes f cols + (if f = 13 ∨ f = 14 then rows * cols / 32 else 0)

/-- Pages an attention command touches (R272). -/
def dPages (d : List Nat) : Nat :=
  let p := 2 ^ dfld d 8 10 4
  let k0 := dfld d 7 0 16
  let n := if dType d = 7 then (dRect d).n else dfld d 6 13 16 + 1
  (k0 + n - 1) / p - k0 / p + 1

/-- Cost in crucible cycles (Table 12.12). -/
def dCost (d : List Nat) : Nat :=
  let t := dType d
  let q := dRate d
  let r := dRect d
  let w := dWin d
  if t = 1 then 24 + ceilDiv (4 * (dfld d 6 13 16 + 1)) q
  else if t = 2 then 32 + ceilDiv (4 * w.cin * w.kh * w.kw) q
  else if t = 3 then 32 + ceilDiv (4 * w.kh * w.kw) q
  else if t = 4 then
    32 + ceilDiv (4 * w.kh * w.kw) q + (if dOp d = 0 then 0 else r.m * ceilDiv (r.n * halfBytes (tref d 2).fmt) 128)
  else if t = 5 then
    24 + ceilDiv (r.m * r.n * (halfBytes (tref d 2).fmt + (if dOp d = 0 then halfBytes (tref d 4).fmt else 0))) 512
  else if t = 6 then 24 + 16 * (1 - dfld d 4 31 1) + r.m * ceilDiv (r.n * halfBytes (tref d 2).fmt) 128
  else if t = 7 then 24 + ceilDiv (4 * (dfld d 6 13 16 + 1)) q + 8 * dPages d
  else if t = 8 then 24 + ceilDiv (4 * (dfld d 6 13 16 + 1)) q + 8 * dPages d
  else if t = 9 then
    let (rows, cols) := dLayout d
    let bd := if dfld d 7 0 1 = 1 then layoutBytes (tref d 4).fmt cols rows else layoutBytes (tref d 4).fmt rows cols
    24 + ceilDiv (layoutBytes (tref d 2).fmt rows cols + bd) 128 * (1 + dfld d 7 0 1)
  else 0

/-- Stage bytes of one row of `width` elements (R272). -/
def stageRow (f width : Nat) : Nat := ceilDiv (fmtBits f * width) 512 * 64

/-- A page-list entry is virtual, by the entries in list order from the first page touched. -/
def dListSpace (d : List Nat) : Nat := dfld d 5 16 1

/-- A descriptor names some virtual operand, pages apart (R256). -/
def dVirtual (d : List Nat) : Bool :=
  let t := dType d
  if t = 1 then (tref d 2).space == 1 || (tref d 4).space == 1 else if t = 7 ∨ t = 8 then dListSpace d == 1 else false

/-- Key or value rows an attention command reads, and the elements of each (R272). -/
def dAttnRows (d : List Nat) : Nat × Nat :=
  if dType d = 7 then ((dRect d).n, dfld d 6 13 16 + 1) else (dfld d 6 13 16 + 1, (dRect d).n)

/-- Stage size V (Table 12.12); `pagesVirtual`: some page touched is virtual. -/
def dStage (d : List Nat) (pagesVirtual : Bool) : Nat :=
  let t := dType d
  if t = 1 then
    let k := dfld d 6 13 16 + 1
    (if (tref d 2).space = 1 then (dRect d).m * stageRow (tref d 2).fmt k else 0)
      + (if (tref d 4).space = 1 then (dRect d).n * stageRow (tref d 4).fmt k else 0)
  else if t = 7 ∨ t = 8 then
    (if dListSpace d = 1 then 64 * ceilDiv (8 * dPages d) 64 else 0)
      + (if pagesVirtual then (dAttnRows d).1 * stageRow (dfld d 5 17 4) (dAttnRows d).2 else 0)
  else 0

/-- The type accumulates into or reads a tile (Table 12.4). -/
def dUsesTile (d : List Nat) : Bool :=
  let t := dType d
  t == 1 || t == 2 || t == 3 || t == 5 || t == 6 || t == 7 || t == 8 || (t == 4 && dOp d == 0)

/-- Pair class and placement that a tile would take (Table 12.4, R266). -/
def dPlace (d : List Nat) : Option (Nat × Int) :=
  if dType d = 5 ∧ dOp d = 2 then some (dfld d 7 10 3, placement (dfld d 7 10 3) (dAccLsb d))
  else match pairClass (dPair d).1 (dPair d).2 with
    | some p => some (p, placement p (dAccLsb d))
    | none => none

/-- All the listed fields are 0: (word, low bit, width). -/
def zeros (d : List Nat) (l : List (Nat × Nat × Nat)) : Bool := l.all (fun f => dfld d f.1 f.2.1 f.2.2 == 0)

/-- The tensor references a command uses, by the words they start at (Tables 12.5–12.11). -/
def dRefs (d : List Nat) : List Nat :=
  let t := dType d
  if t = 1 ∨ t = 9 then [2, 4]
  else if t = 2 ∨ t = 3 then (if (dWin d).lb then [4] else [2, 4])
  else if t = 4 then (if (dWin d).lb then [] else [2]) ++ (if dOp d = 0 then [] else [4])
  else if t = 5 then (if dOp d = 0 then [2, 4] else [2])
  else [2]

/-- B4 or B8. -/
def isBlock (f : Nat) : Bool := f == 13 || f == 14

/-- Reason RESERVED: reserved bits and fields the type, or its operation, does not use (R259, Tables 12.2–12.11; log 15). Zero points
are a field of the type whatever the pair class. -/
def dReservedBad (d : List Nat) : Bool :=
  let t := dType d
  let mouldHigh := (dRefs d).any (fun i => (tref d i).space == 0 && decide (2 ^ 23 ≤ (tref d i).addr))
  let common := zeros d [(0, 17, 15), (1, 23, 9)]
  let typed :=
    if t = 1 then
      zeros d [(6, 29, 3), (7, 10, 22), (9, 23, 9), (10, 23, 9), (11, 13, 19), (12, 23, 8), (13, 0, 32), (14, 0, 32)]
        && (isBlock (tref d 2).fmt || zeros d [(9, 0, 23)]) && (isBlock (tref d 4).fmt || zeros d [(10, 0, 23)])
    else if t = 2 ∨ t = 3 then
      zeros d [(6, 27, 5), (7, 29, 3), (8, 15, 1), (8, 31, 1), (9, 10, 22), (11, 13, 19), (12, 0, 32), (13, 0, 32), (14, 0, 32)]
        && (!(dWin d).lb || zeros d [(2, 16, 16), (3, 0, 17), (3, 21, 11)])
    else if t = 4 then
      zeros d [(6, 29, 3), (7, 31, 1), (8, 15, 1), (8, 26, 6), (9, 13, 19), (10, 16, 16), (11, 25, 7), (13, 16, 16), (14, 24, 8)]
        && (if dOp d = 0 then zeros d [(4, 0, 32), (5, 0, 32), (11, 0, 32), (12, 0, 32), (13, 0, 32), (14, 0, 32)]
            else dOp d == 3 || zeros d [(8, 16, 10), (9, 0, 13), (10, 0, 16)])
        && (!(dWin d).lb || zeros d [(2, 16, 16), (3, 0, 17), (3, 21, 11)])
    else if t = 5 then
      zeros d [(6, 28, 4), (7, 13, 19), (9, 23, 9), (11, 0, 32), (12, 0, 32), (13, 0, 32), (14, 0, 32)]
        && (dOp d == 0 || dOp d == 3 || zeros d [(4, 0, 32), (5, 0, 32)])
        && (dOp d == 2 || dOp d == 3 || zeros d [(7, 10, 3), (9, 0, 23), (10, 0, 32)])
        && (dOp d != 1 || zeros d [(8, 16, 16)]) && (dOp d != 2 || zeros d [(8, 0, 32)])
    else if t = 6 then
      zeros d [(4, 23, 8), (7, 31, 1), (10, 24, 8), (13, 24, 8), (14, 23, 9)]
        && (dfld d 4 31 1 == 1 || zeros d [(5, 0, 32)])
        && (dfld d 7 30 1 == 1 || zeros d [(12, 16, 16), (14, 0, 23)])
        && ((tref d 2).fmt != 15 || zeros d [(7, 29, 2), (13, 23, 1)])
    else if t = 7 ∨ t = 8 then
      zeros d [(5, 21, 11), (6, 29, 3), (8, 15, 17), (10, 27, 5), (11, 13, 19), (12, 23, 8), (13, 0, 32), (14, 0, 32)]
        && (t == 8 || zeros d [(10, 11, 16)])
        && (dListSpace d == 1 || zeros d [(4, 23, 9), (5, 0, 16)])
    else
      zeros d [(7, 15, 17), (8, 23, 9), (9, 23, 9), (12, 24, 8), (14, 16, 16)]
        && (isBlock (tref d 2).fmt || (tref d 2).fmt == 15 || zeros d [(8, 0, 23)])
        && (isBlock (tref d 4).fmt || (tref d 4).fmt == 15 || zeros d [(9, 0, 23)])
        && ((tref d 2).fmt == 15 || zeros d [(7, 4, 10)])
        && (!(isBlock (tref d 4).fmt || (tref d 4).fmt == 15) || zeros d [(7, 14, 1)])
  mouldHigh || !common || !typed

/-- Reason RANGE (Table 12.14). -/
def dRangeBad (d : List Nat) : Bool :=
  let t := dType d
  let r := dRect d
  let w := dWin d
  let strides := (dRefs d).any (fun i => (tref d i).stride == 0)
  let rect := dUsesTile d && (decide (128 < r.m + r.r0) || decide (64 < r.n + r.c0))
  let lsb := t != 6 && dUsesTile d && (match dPlace d with | some (p, _) => !accLsbOk p (dAccLsb d) | none => false)
  let typed :=
    if t = 2 ∨ t = 3 ∨ t = 4 then
      decide (w.kw = 0 ∨ 11 < w.kw ∨ w.kh = 0 ∨ 11 < w.kh ∨ w.pad = 3 ∨ w.dx = 0 ∨ w.dy = 0 ∨ w.w = 0 ∨ 16384 < w.w)
        || (t == 2 && decide (4096 < w.cin)) || (t == 3 && decide (w.cin ≠ 1)) || (t == 4 && dOp d == 3)
    else if t = 5 then dOp d == 3 || (dOp d == 2 && decide (5 < dfld d 7 10 3))
    else if t = 6 then
      ((tref d 2).fmt != 15 && decide (4 < dfld d 7 0 3)) || (dfld d 7 30 1 == 1 && decide (dfld d 12 16 16 < 64 ∨ 4096 < dfld d 12 16 16))
        || ((tref d 2).fmt != 15 && dfld d 13 0 24 == 0)
    else if t = 7 ∨ t = 8 then decide (12 < dfld d 8 10 4) || dfld d 10 0 11 == 0
    else if t = 9 then decide (4 < dfld d 7 1 3)
    else false
  strides || rect || lsb || typed

/-- Reason FORMAT (Table 12.14). Block formats are accepted only where the descriptor names their scale arrays (log 15). -/
def dFormatBad (d : List Nat) : Bool :=
  let t := dType d
  let a := (tref d 2).fmt
  let b := (tref d 4).fmt
  let zero := (dRefs d).any (fun i => (tref d i).fmt == 0)
  let typed :=
    if t = 1 then (pairClass a b).isNone
    else if t = 2 ∨ t = 3 then isBlock a || isBlock b || (pairClass a b).isNone || ((dWin d).lb && decide (a ≠ 1 ∧ a ≠ 3))
    else if t = 4 then
      isBlock a || ((dWin d).lb && decide (a ≠ 1 ∧ a ≠ 3))
        || (if dOp d = 0 then (pairClass a a).isNone else decide (b ≠ a) || a == 15 || a == 0)
    else if t = 5 then
      (if dOp d = 0 then (pairClass a b).isNone || isBlock a else if dOp d = 1 then (pairClass a a).isNone || isBlock a
       else a != 15)
    else if t = 6 then a == 2 || isBlock a
    else if t = 7 ∨ t = 8 then (pairClass a (dfld d 5 17 4)).isNone || isBlock a
    else if t = 9 then
      b == 0 || (dfld d 7 0 1 == 1 && (isBlock a || isBlock b)) || ((isBlock a || isBlock b) && decide ((dLayout d).2 % 32 ≠ 0))
        || (b == 15 && a != 15)
    else false
  zero || typed

/-- The mould range of a reference, if it is one to the mould: its first row to the end of its last. -/
def refRange (r : TRef) (rows elems : Nat) : List (Nat × Nat) :=
  if r.space = 0 then [(r.addr, (rows - 1) * r.stride * 64 + elemBytes r.fmt elems)] else []

/-- Mould ranges a command reads (index 0) and writes (index 1), the completion record and the stage apart (R171, R256). -/
def dRanges (d : List Nat) : List (Nat × Nat) × List (Nat × Nat) :=
  let t := dType d
  let r := dRect d
  let w := dWin d
  let A := tref d 2
  let B := tref d 4
  let inp := if w.lb then [] else refRange A ((w.kh - 1) * w.dy + 1) (w.w * (if t = 2 then w.cin else r.n))
  let scale (f rows k off : Nat) := if isBlock f then [(off, rows * ceilDiv k 32)] else []
  if t = 1 then
    let k := dfld d 6 13 16 + 1
    (refRange A r.m k ++ refRange B r.n k
      ++ scale A.fmt r.m k (dfld d 9 0 23) ++ scale B.fmt r.n k (dfld d 10 0 23), [])
  else if t = 2 then (inp ++ refRange B r.n (w.kh * w.kw * w.cin), [])
  else if t = 3 then (inp ++ refRange B r.n (w.kh * w.kw), [])
  else if t = 4 then (inp, if dOp d = 0 then [] else refRange B r.m r.n)
  else if t = 5 then
    (refRange A r.m r.n ++ (if dOp d = 0 then refRange B r.m r.n else [])
      ++ (if dOp d = 2 then [(dfld d 9 0 23, ceilDiv (r.m * r.n) 4)] else []), [])
  else if t = 6 then
    let idx0 := nth d 11 0 % 2 ^ 32 + dfld d 12 0 16 * 2 ^ 32
    let D := dfld d 13 0 24
    let R := dfld d 12 16 16
    let segs := if dfld d 7 30 1 = 1 ∧ D ≠ 0 ∧ R ≠ 0 then
        let lo := idx0 / D / R
        let hi := (idx0 + (r.m - 1) * D + r.n - 1) / D / R
        [(dfld d 14 0 23 + 512 * lo, 512 * (hi - lo + 1))] else []
    ((if dfld d 4 31 1 = 0 then [(dfld d 4 0 23, 256)] else []) ++ segs,
     refRange A r.m r.n ++ (if A.fmt = 15 then [(dfld d 13 0 23, ceilDiv (r.m * r.n) 4)] else []))
  else if t = 7 then
    (refRange A r.m (dfld d 6 13 16 + 1)
      ++ (if dListSpace d = 0 then [(dfld d 4 0 23 + 8 * (dfld d 7 0 16 / 2 ^ dfld d 8 10 4), 8 * dPages d)] else []), [])
  else if t = 8 then
    (refRange A r.m (dfld d 6 13 16 + 1)
      ++ (if dListSpace d = 0 then [(dfld d 4 0 23 + 8 * (dfld d 7 0 16 / 2 ^ dfld d 8 10 4), 8 * dPages d)] else []), [])
  else if t = 9 then
    let (rows, cols) := dLayout d
    let (dr, dc) := if dfld d 7 0 1 = 1 then (cols, rows) else (rows, cols)
    let aux (f off : Nat) := if f = 15 then [(off, ceilDiv (rows * cols) 4)] else if isBlock f then [(off, rows * cols / 32)] else []
    (refRange A rows cols ++ aux A.fmt (dfld d 8 0 23), refRange B dr dc ++ aux B.fmt (dfld d 9 0 23))
  else ([], [])

/-- Reason ALIGN: a mould offset not 64-byte aligned, or cpl not 32-byte aligned (R260). -/
def dAlignBad (d : List Nat) : Bool :=
  let t := dType d
  let bad (x : Nat) := decide (x % 64 ≠ 0)
  decide (dfld d 1 0 23 % 32 ≠ 0)
    || (dRefs d).any (fun i => (tref d i).space == 0 && bad (tref d i).addr)
    || (if t = 1 then bad (dfld d 9 0 23) || bad (dfld d 10 0 23) || bad (dfld d 12 0 23)
        else if t = 5 then bad (dfld d 9 0 23)
        else if t = 6 then bad (dfld d 4 0 23) || bad (dfld d 14 0 23) || ((tref d 2).fmt == 15 && bad (dfld d 13 0 23))
        else if t = 7 ∨ t = 8 then (dListSpace d == 0 && bad (dfld d 4 0 23)) || bad (dfld d 12 0 23)
        else if t = 9 then bad (dfld d 8 0 23) || bad (dfld d 9 0 23)
        else false)

/-- Virtual range of the page list, where it is virtual (R269). -/
def listRange (d : List Nat) : List (Nat × Nat) :=
  if (dType d = 7 ∨ dType d = 8) ∧ dListSpace d = 1 then
    [((tref d 4).addr + 8 * (dfld d 7 0 16 / 2 ^ dfld d 8 10 4), 8 * dPages d)]
  else []

/-- Page-list entries an attention command touches, in list order (R269), as they stand at its load: in mould `n`, or in virtual memory
through translation; none yet where that cannot be read. -/
def State.pageList (s : State) (n x : Nat) (d : List Nat) : List Nat :=
  if dType d ≠ 7 ∧ dType d ≠ 8 then []
  else match listRange d with
    | (a, len) :: _ =>
      (match s.xlateAll x false true (len / 4096 + 2) a len, s.poisonedIn x a len with
       | .ok _, none => (List.range (dPages d)).map (fun i => ofBytes ((s.vreadBytes x (a + 8 * i) 8).map BitVec.toNat))
       | _, _ => [])
    | [] => (List.range (dPages d)).map (fun i => s.mnum n ((tref d 4).addr + 8 * (dfld d 7 0 16 / 2 ^ dfld d 8 10 4 + i)) 8)

/-- A page-list entry is virtual. -/
def pageVirtual (e : Nat) : Bool := e / 2 ^ 48 % 2 == 1

/-- The F32 scales an `ACCMOVE` uses: its tensor scale or 64 column scales (R211, R267). -/
def State.dScales (s : State) (n : Nat) (d : List Nat) : List Nat :=
  if dfld d 4 31 1 = 1 then [nth d 5 0] else (List.range 64).map (fun j => s.mnum n (dfld d 4 0 23 + 4 * j) 4)

/-- Reason SCALE (R211). -/
def State.dScaleBad (s : State) (n : Nat) (d : List Nat) : Bool :=
  dType d == 6 && (tref d 2).fmt != 15
    && (((floatFmt (tref d 2).fmt).isSome && nth d 6 0 != 0)
        || (s.dScales n d).any (fun w => match numOf 12 w with | .fin _ _ _ => false | _ => true))

/-- The stripe whose line buffers a command with lb = 1 names: its window row 0 buffer, base and depth (R260, R288). -/
def dLb (d : List Nat) : Nat × Nat × Nat :=
  let a := (tref d 2).addr
  (a % 32, a / 32 % 32, a / 1024 % 64)

/-- Row `j` of the keys or values an attention command reads: its list entry and the byte offset of the row in its page (R269,
R270). -/
def dAttnRow (d : List Nat) (j : Nat) : Nat × Nat :=
  let p := 2 ^ dfld d 8 10 4
  let k := dfld d 7 0 16 + j
  (k / p - dfld d 7 0 16 / p, k % p * (dfld d 10 0 11 * 64))

/-- First element of a row that an attention command reads (R270). -/
def dAttnFirst (d : List Nat) : Nat := if dType d = 8 then dfld d 10 11 16 else 0

/-- The bytes of a row an attention command reads: how far into the row they begin, and their number. -/
def dAttnBytes (d : List Nat) : Nat × Nat :=
  let b := fmtBits (dfld d 5 17 4)
  let a := dAttnFirst d * b
  (a / 8, (a % 8 + (dAttnRows d).2 * b + 7) / 8)

/-- The rows an attention command reads from pages in virtual memory, or in the mould: address and bytes, by the list `es`. -/
def dPageRows (d es : List Nat) (virt : Bool) : List (Nat × Nat) :=
  if dType d = 7 ∨ dType d = 8 then
    (List.range (dAttnRows d).1).filterMap (fun j =>
      match es[(dAttnRow d j).1]? with
      | none => none
      | some e => if pageVirtual e == virt then some (e % 2 ^ 48 + (dAttnRow d j).2 + (dAttnBytes d).1, (dAttnBytes d).2) else none)
  else []

/-- The stage region a descriptor needs (R256). -/
def dStageRange (d es : List Nat) : List (Nat × Nat) :=
  if dVirtual d || es.any pageVirtual then [(dfld d 12 0 23, dStage d (es.any pageVirtual))] else []

/-- Reason SPACE (R256). -/
def dSpaceBad (d es : List Nat) : Bool :=
  (dRefs d).any (fun i => (tref d i).space == 1 && dType d != 1)
    || (dStageRange d es).any (fun stage => dfld d 12 31 1 == 0
        || ((dRanges d).1 ++ (dRanges d).2 ++ [(dfld d 1 0 23, 32)] ++ dPageRows d es false).any (overlap stage)
        || decide (mouldSize < stage.1 + stage.2))

/-- Reason REGION (R171, R275, R288). -/
def State.dRegionBad (s : State) (n x c : Nat) (d es : List Nat) : Bool :=
  let rs := (dRanges d).1 ++ (dRanges d).2 ++ [(dfld d 1 0 23, 32)] ++ dStageRange d es ++ dPageRows d es false
  rs.any (fun r => !s.mouldOk n x r.1 r.2)
    || ((dType d == 2 || dType d == 3 || dType d == 4) && (dWin d).lb
        && !s.fab.stripes.any (fun p => p.cru == c && p.ctx == x && !p.ring && p.base == (dLb d).2.1 && p.depth == (dLb d).2.2))

/-- Reason LBUF (Table 12.14). -/
def dLbufBad (d : List Nat) : Bool :=
  let w := dWin d
  (dType d == 2 || dType d == 3 || dType d == 4) && w.lb
    && ((if dType d = 2 then decide (w.cin ≠ 1) else decide ((dRect d).n ≠ 1)) || decide ((dLb d).2.2 = 0)
        || decide ((dLb d).2.2 < (w.kh - 1) * w.dy + 1))

/-- Reason PAGE (R270). -/
def dPageBad (es : List Nat) : Bool := es.any (fun e => decide (2 ^ 49 ≤ e))

/-- The task that tile `i` of crucible `c` is allotted to when it is allotted anew: the one on its fettler (R261). -/
def State.tileOwner (s : State) (c i : Nat) : Option (Nat × Nat) :=
  (s.fet (4 * (c / 2) + (Config.tileFettler c i).toNat)).map (fun f => (f.pour, f.task))

/-- Tile `i` of crucible `c` as a descriptor that loads meets it (R252, R261): as the command that runs now leaves its clear. -/
def State.tileSeen (s : State) (c i : Nat) : Tile :=
  let t := s.tile c i
  if t.stale then { owner := s.tileOwner c i }
  else match (s.cru c).run with
    | none => t
    | some d =>
      if d.stage = 2 ∧ dUsesTile d.words ∧ dfld d.words 0 4 2 = i ∧ dfld d.words 0 6 1 = 1 then
        (match dPlace d.words with | some (p, l) => t.clear p l | none => t)
      else t

/-- Reason PAIR (R261). -/
def State.dPairBad (s : State) (c : Nat) (d : List Nat) : Bool :=
  let t := s.tileSeen c (dfld d 0 4 2)
  dUsesTile d && dfld d 0 6 1 == 0
    && (!t.valid || (dType d != 6 && (match dPlace d with | some (p, l) => decide (t.pair ≠ p ∨ t.lsb ≠ l) | none => false)))

/-- Reason TILE (R261). -/
def State.dTileBad (s : State) (c : Nat) (d : List Nat) (pour task : Nat) : Bool :=
  if dUsesTile d then
    decide ((s.tileSeen c (dfld d 0 4 2)).owner ≠ some (pour, task)) || (dType d == 6 && dfld d 0 6 1 == 1)
  else !zeros d [(0, 4, 2), (0, 6, 1)]

/-- The lowest reason of Table 12.14 that applies, `es` being the page list as far as it can be read; 0 none (R276). -/
def State.dReason (s : State) (n x c : Nat) (d es : List Nat) (pour task : Nat) : Nat :=
  let t := dType d
  if t = 0 ∨ 10 ≤ t then 1
  else if dReservedBad d then 2
  else if dRangeBad d then 3
  else if dFormatBad d then 4
  else if s.dPairBad c d then 5
  else if s.dTileBad c d pour task then 6
  else if dAlignBad d then 7
  else if s.dRegionBad n x c d es then 8
  else if s.dScaleBad n d then 9
  else if dSpaceBad d es then 10
  else if dLbufBad d then 11
  else if dPageBad es then 12
  else 0

end Sys2Proof.Machine
end

