-- ==== Sys2Proof/Machine/CruRun.lean ====
section
/-! DEFINITION. What the run of a crucible command does to its tile, its outputs and its digests (R262–R271). -/

namespace Sys2Proof.Machine

/-- Add to a pending digest sum of a task, modulo 2^128 (R347). -/
def State.pendAdd (s : State) (pour task key v : Nat) : State :=
  let upd (f : Fet) : Fet :=
    if f.pour = pour ∧ f.task = task then { f with pend := KMap.put f.pend key ((KMap.getD f.pend key 0 + v) % 2 ^ 128) } else f
  { s with fab := { s.fab with fets := s.fab.fets.map (fun e => (e.1, upd e.2)) } }

/-- Key of a pending per-piece sum: digest register `r` of ledger entry `i`. -/
def pieceKey (i r : Nat) : Nat := r + 256 * (i + 1)

/-- The command issued on crucible `c` whose run is not done. -/
def State.issued (s : State) (c : Nat) : Option CDesc :=
  match (s.cru c).run with
  | some d => if d.stage = 2 then some d else none
  | none => none

/-- Replace the running command of crucible `c`. -/
def State.setRun (s : State) (c : Nat) (d : Option CDesc) : State := s.setCru c { s.cru c with run := d }

/-- Replace the head of crucible `c`'s queue. -/
def State.setHead (s : State) (c : Nat) (d : CDesc) : State :=
  let q := s.cru c
  s.setCru c { q with queue := d :: q.queue.drop 1 }

/-- The run is done: its results wait for completion (R252). -/
def State.runDone (s : State) (c : Nat) (d : CDesc) (code status sat : Nat) : State :=
  s.setRun c (some { d with stage := 3, code := code, status := status, sat := sat })

/-- The pour's step counter (R211). -/
def State.stepOf (s : State) (pour : Nat) : Nat := match s.pour pour with | some p => p.step | none => 0

/-- Accumulate the terms of a command into its rectangle, clearing the tile first where the descriptor says (R203, R262). -/
def State.runAccum (s : State) (c : Nat) (d : CDesc) (uf : Nat) (f : Nat → Nat → Acc) : State :=
  let w := d.words
  let i := dfld w 0 4 2
  let t0 := s.tile c i
  let t1 := if dfld w 0 6 1 = 1 then (match dPlace w with | some (p, l) => t0.clear p l | none => t0) else t0
  let r := dRect w
  let t2 := (t1.accumulate r.r0 r.c0 r.m r.n f).addUf uf
  (s.setTile c i t2).runDone c d 0 t2.status 0

/-- Placement of the command's tile after its clear. -/
def cmdLsb (w : List Nat) : Int := match dPlace w with | some (_, l) => l | none => 0

/-- Whether the command's pair class is the integer one, with zero points. -/
def cmdInt (w : List Nat) : Bool := match dPlace w with | some (p, _) => p == 0 | none => false

/-- Mould offset of row `r` of a reference, or of its bytes in the stage region from `stage` (R256, R260). -/
def rowOff (a : TRef) (stage elems r : Nat) : Nat :=
  if a.space = 1 then stage + r * stageRow a.fmt elems else a.addr + r * a.stride * 64

/-- Element value in mould `n` at a row offset. -/
def State.mval (s : State) (n off f k : Nat) : Num := numOf f (elemAt s.fab.mould (mouldAt n off) f k)

/-- One term of an operand pair, with zero points in class 0 (R204). -/
def pairTerm (w : List Nat) (za zb : Int) (a b : Num) : Acc :=
  if cmdInt w then termOf 0 (subZero a za) (subZero b zb) else termOf (cmdLsb w) a b

/-- Terms of cell (m, n) of an `MMA` (R262, R205). -/
def State.mmaTerms (s : State) (n : Nat) (w : List Nat) (i j : Nat) : Acc :=
  let A := tref w 2
  let B := tref w 4
  let k := dfld w 6 13 16 + 1
  let st := dfld w 12 0 23
  let stB := st + (if A.space = 1 then (dRect w).m * stageRow A.fmt k else 0)
  let ra := rowOff A st k i
  let rb := rowOff B stB k j
  if isBlock A.fmt then
    let nb := ceilDiv k 32
    Acc.sum ((List.range nb).map (fun b =>
      let es := (List.range (min 32 (k - 32 * b))).map (fun e => 32 * b + e)
      blockTerm (cmdLsb w) (A.fmt == 13) (s.mnum n (dfld w 9 0 23 + i * nb + b) 1) (s.mnum n (dfld w 10 0 23 + j * nb + b) 1)
        (es.map (elemAt s.fab.mould (mouldAt n ra) A.fmt)) (es.map (elemAt s.fab.mould (mouldAt n rb) B.fmt))))
  else
    Acc.sum ((List.range k).map (fun e =>
      pairTerm w (dsgn w 8 0 16) (dsgn w 8 16 16) (s.mval n ra A.fmt e) (s.mval n rb B.fmt e)))

/-- Sample of channel `ci` at window row `ky` and column `x` (R260, R280): mould row or line buffer. -/
def State.winSample (s : State) (c : Nat) (w : List Nat) (ch ky x ci : Nat) : Nat :=
  let v := dWin w
  let A := tref w 2
  if v.lb then
    let (row0, base, depth) := dLb w
    let buf := base + (((row0 : Int) - base + (ky * v.dy : Nat)) % (depth : Int)).toNat
    KMap.getD s.fab.lbuf ((c * 32 + buf) * 4096 + x) 0 % (if A.fmt = 1 then 256 else 65536)
  else elemAt s.fab.mould (mouldAt (cruFlask c) (A.addr + ky * v.dy * A.stride * 64)) A.fmt (x * ch + ci)

/-- The taps of output position `m`: (ky, kx, column, or none where zero padding gives no term) (R279, R282). -/
def winCols (v : Win) (m : Nat) : List (Nat × Nat × Option Nat) :=
  (windowTaps v.kh v.kw).map (fun t => (t.1, t.2, tapCol v.pad v.w (tapX v.x0 v.sx v.kw v.dx m t.2)))

/-- Terms of cell (m, n) of a `CONV` (R263, R283). -/
def State.convTerms (s : State) (c : Nat) (w : List Nat) (m n : Nat) : Acc :=
  let v := dWin w
  let B := tref w 4
  Acc.sum ((winCols v m).map (fun t =>
    match t.2.2 with
    | none => {}
    | some x => Acc.sum ((List.range v.cin).map (fun ci =>
        pairTerm w (dsgn w 10 0 16) (dsgn w 10 16 16) (numOf (tref w 2).fmt (s.winSample c w v.cin t.1 x ci))
          (s.mval (cruFlask c) (B.addr + n * B.stride * 64) B.fmt ((t.1 * v.kw + t.2.1) * v.cin + ci))))))

/-- Terms of cell (m, n) of a `DWCONV`: the taps of channel `n` only (R264). -/
def State.dwTerms (s : State) (c : Nat) (w : List Nat) (m n : Nat) : Acc :=
  let v := dWin w
  let B := tref w 4
  Acc.sum ((winCols v m).map (fun t =>
    match t.2.2 with
    | none => {}
    | some x =>
        pairTerm w (dsgn w 10 0 16) (dsgn w 10 16 16) (numOf (tref w 2).fmt (s.winSample c w (dRect w).n t.1 x n))
          (s.mval (cruFlask c) (B.addr + n * B.stride * 64) B.fmt (t.1 * v.kw + t.2.1))))

/-- Terms of cell (m, n) of a `POOL` SUM: each tap is x × 1 (R265, R283). -/
def State.poolTerms (s : State) (c : Nat) (w : List Nat) (m n : Nat) : Acc :=
  let v := dWin w
  Acc.sum ((winCols v m).map (fun t =>
    match t.2.2 with
    | none => {}
    | some x => pairTerm w (dsgn w 10 0 16) 0 (numOf (tref w 2).fmt (s.winSample c w (dRect w).n t.1 x n)) Num.one))

/-- Result of output element (m, n) of a `POOL` MAX or MIN; a zero-padded tap takes part as the all-zero encoding (R265). -/
def State.poolPick (s : State) (c : Nat) (w : List Nat) (isMax : Bool) (m n : Nat) : Nat :=
  let v := dWin w
  let f := (tref w 2).fmt
  let vals := (winCols v m).map (fun t => match t.2.2 with | none => 0 | some x => s.winSample c w (dRect w).n t.1 x n)
  match vals with
  | [] => 0
  | a :: l => l.foldl (pickMax f isMax) (pickMax f isMax a a)

/-- 48-bit element index in words `i` and `i + 1`. -/
def dIdx (w : List Nat) (i : Nat) : Nat := nth w i 0 % 2 ^ 32 + dfld w (i + 1) 0 16 * 2 ^ 32

/-- One written element: its place, its bits, its tag for Q128, whether it counts in sat, and what it adds to digests:
(key, hash). -/
structure OutElem where
  /-- Row offset in the mould. -/
  off : Nat
  /-- Element of the row. -/
  col : Nat
  /-- Bits. -/
  bits : Nat
  /-- Digest contributions. -/
  digs : List (Nat × Nat) := []

/-- Write output elements to mould `n` and add their digest contributions to the task's pending sums. -/
def State.writeOuts (s : State) (n f pour task : Nat) (l : List OutElem) : State :=
  l.foldl (fun s o =>
    let s1 := { s with fab := { s.fab with mould := elemPut s.fab.mould (mouldAt n o.off) f o.col o.bits } }
    o.digs.foldl (fun s g => s.pendAdd pour task g.1 g.2) s1) s

/-- All (m, n) of a rectangle, row by row. -/
def rectCells (mm nn : Nat) : List (Nat × Nat) :=
  (List.range mm).foldl (fun l m => l ++ (List.range nn).map (fun n => (m, n))) []

/-- Run a `POOL` MAX or MIN (R265). -/
def State.runPick (s : State) (c : Nat) (d : CDesc) (isMax : Bool) : State :=
  let w := d.words
  let B := tref w 4
  let r := dRect w
  let dig := dfld w 11 24 1 = 1
  let outs := (rectCells r.m r.n).map (fun p =>
    let v := s.poolPick c w isMax p.1 p.2
    let idx := dIdx w 12 + p.1 * dfld w 14 0 24 + p.2
    { off := B.addr + p.1 * B.stride * 64, col := p.2, bits := v,
      digs := if dig then [(dfld w 11 16 8, assayHash (dfld w 11 0 16) (idx % 2 ^ 48) v)] else [] : OutElem })
  (s.writeOuts (cruFlask c) B.fmt d.pour d.task outs).runDone c d 0 0 0

/-- The segment mark that covers position `pos`, in the array at mould offset `a` (Table 8.2, R268). -/
def State.segMark (s : State) (n a pos : Nat) : Option Nat :=
  ((List.range 64).map (fun i => s.mnum n (a + 8 * i) 8)).find? (fun m =>
    m.testBit 47 && decide (m % 4096 ≤ pos ∧ pos < m % 4096 + m / 2 ^ 48 % 2 ^ 13))

/-- The live mark that covers element `idx` of a drain with seg = 1 (R268). -/
def State.segLive (s : State) (n : Nat) (w : List Nat) (idx : Nat) : Option Nat :=
  let R := dfld w 12 16 16
  let tok := idx / dfld w 13 0 24
  (s.segMark n (dfld w 14 0 23 + tok / R * 512) (tok % R)).filter (fun m => !m.testBit 45)

/-- The per-piece contribution of element `idx` of bits `v` under mark `m` (R268). -/
def segHash (w : List Nat) (m idx v : Nat) : Nat × Nat :=
  let D := dfld w 13 0 24
  let e' := (idx / D % dfld w 12 16 16 - m % 4096) * D + idx % D
  (pieceKey (m / 2 ^ 25 % 2 ^ 17) (dfld w 10 16 8), assayHash (dfld w 10 0 16) ((m / 2 ^ 42 % 8) * 2 ^ 44 + e') v)

/-- One element of an `ACCMOVE`: the cell drained, bits, whether it counts in sat (R211, R267). -/
def State.drainElem (s : State) (d : CDesc) (t : Tile) (m n : Nat) : Cell × Nat × Bool × Nat :=
  let w := d.words
  let r := dRect w
  let f := (tref w 2).fmt
  let cell := t.cell (r.r0 + m) (r.c0 + n)
  let idx := (dIdx w 11 + m * dfld w 13 0 24 + n) % 2 ^ 48
  if f = 15 then (cell, cell.v.toNat, cell.tag != 0, idx)
  else
    let sw := if dfld w 4 31 1 = 1 then nth w 5 0 else nth d.scales (r.c0 + n) 0
    let mode := dfld w 7 0 3
    let draw := if mode = 4 then kcg (nth w 8 0 % 2 ^ 32 + nth w 9 0 % 2 ^ 32 * 2 ^ 32) (s.stepOf d.pour % 2 ^ 64) (dfld w 10 0 16) idx % 2 ^ 32 else 0
    let (b, sat) := drainCell cell t.lsb f mode (numOf 12 sw) (sextI (nth w 6 0) 32) draw
    (cell, b, sat, idx)

/-- Run an `ACCMOVE` (R211, R212, R267, R268). With seg = 1 an element under no live mark is written as zero bits and its cell is not
drained: it counts nowhere and is not judged (log 97). -/
def State.runDrain (s : State) (c : Nat) (d : CDesc) : State :=
  let w := d.words
  let n := cruFlask c
  let A := tref w 2
  let r := dRect w
  let seg := dfld w 7 30 1 == 1
  let t := s.tile c (dfld w 0 4 2)
  let els := (rectCells r.m r.n).map (fun p =>
    let e := s.drainElem d t p.1 p.2
    (p, e, if seg then s.segLive n w e.2.2.2 else none))
  let drained := els.filter (fun e => !seg || e.2.2.isSome)
  let t1 := drained.foldl (fun t e => t.noteDrain e.2.1.1 (A.fmt == 15)) t
  let sat := drained.foldl (fun k e => k + b2n e.2.1.2.2.1) 0
  let outs := els.map (fun e =>
    let b := if seg && e.2.2.isNone then 0 else e.2.1.2.1
    let idx := e.2.1.2.2.2
    { off := A.addr + e.1.1 * A.stride * 64, col := e.1.2, bits := b,
      digs := (match e.2.2 with | some m => [segHash w m idx b] | none => [])
        ++ (if dfld w 7 29 1 = 1 then [(dfld w 10 16 8, assayHash (dfld w 10 0 16) idx b)] else []) : OutElem })
  let s1 := s.writeOuts n A.fmt d.pour d.task outs
  let s2 := if A.fmt = 15 then
      { s1 with fab := { s1.fab with mould := els.foldl (fun m e =>
          tagPut m (mouldAt n (dfld w 13 0 23)) (e.1.1 * r.n + e.1.2) e.2.1.1.tag.toNat) s1.fab.mould } } else s1
  let outRange := A.fmt != 15 && drained.any (fun e => e.2.1.1.tag == 0 && !e.2.1.1.inRange)
  (s2.setTile c (dfld w 0 4 2) t1).runDone c d (if outRange then E_ACC_RANGE else 0) t1.status (min sat 65535)

/-- Element (m, n) of an `EWISE` (R266). -/
def State.ewiseTerm (s : State) (c : Nat) (w : List Nat) (op m n : Nat) : Acc :=
  let k := cruFlask c
  let A := tref w 2
  let B := tref w 4
  let ra := A.addr + m * A.stride * 64
  if op = 0 then
    pairTerm w (dsgn w 8 0 16) (dsgn w 8 16 16) (s.mval k ra A.fmt n) (s.mval k (B.addr + m * B.stride * 64) B.fmt n)
  else if op = 1 then pairTerm w (dsgn w 8 0 16) 0 (s.mval k ra A.fmt n) Num.one
  else
    { v := sextI (elemAt s.fab.mould (mouldAt k ra) 15 n) 128
      tag := tagAt s.fab.mould (mouldAt k (dfld w 9 0 23)) (m * (dRect w).n + n) }

/-- Run an `EWISE` op (R266). QADD adds the source tile's underflow count, and its terms add v whatever their tag. -/
def State.runEwise (s : State) (c : Nat) (d : CDesc) (op : Nat) : State :=
  s.runAccum c d (if op = 2 then nth d.words 10 0 % 2 ^ 32 else 0) (s.ewiseTerm c d.words op)

/-- The page list a run walks: the copy in its stage region where it is virtual (R256). -/
def State.runList (s : State) (n : Nat) (w : List Nat) : List Nat :=
  let base := if dListSpace w = 1 then dfld w 12 0 23 else (tref w 4).addr + 8 * (dfld w 7 0 16 / 2 ^ dfld w 8 10 4)
  (List.range (dPages w)).map (fun i => s.mnum n (base + 8 * i) 8)

/-- Mould offset of row `j` of the keys or values of an attention command, and the element of it that comes first: its page, or the
stage region, which holds the elements read from its start (R256, R269). -/
def State.attnRowOff (s : State) (n : Nat) (w : List Nat) (j : Nat) : Nat × Nat :=
  let (i, off) := dAttnRow w j
  let e := nth (s.runList n w) i 0
  let listBytes := if dListSpace w = 1 then 64 * ceilDiv (8 * dPages w) 64 else 0
  if pageVirtual e then (dfld w 12 0 23 + listBytes + j * stageRow (dfld w 5 17 4) (dAttnRows w).2, 0)
  else (e % 2 ^ 48 + off, dAttnFirst w)

/-- Terms of cell (m, n) of an `ATTN_QK`; with causal = 1 a key beyond the query's position gives none (R269). -/
def State.qkTerms (s : State) (c : Nat) (w : List Nat) (m n : Nat) : Acc :=
  let k := cruFlask c
  let A := tref w 2
  if dfld w 8 14 1 = 1 ∧ dfld w 7 16 16 + m < dfld w 7 0 16 + n then {}
  else
    let row := s.attnRowOff k w n
    Acc.sum ((List.range (dfld w 6 13 16 + 1)).map (fun e =>
      pairTerm w (dsgn w 9 0 16) (dsgn w 9 16 16) (s.mval k (A.addr + m * A.stride * 64) A.fmt e)
        (s.mval k row.1 (dfld w 5 17 4) (row.2 + e))))

/-- Terms of cell (m, n) of an `ATTN_PV` (R270). -/
def State.pvTerms (s : State) (c : Nat) (w : List Nat) (m n : Nat) : Acc :=
  let k := cruFlask c
  let A := tref w 2
  Acc.sum ((List.range (dfld w 6 13 16 + 1)).map (fun j =>
    if dfld w 8 14 1 = 1 ∧ dfld w 7 16 16 + m < dfld w 7 0 16 + j then {}
    else pairTerm w (dsgn w 9 0 16) (dsgn w 9 16 16) (s.mval k (A.addr + m * A.stride * 64) A.fmt j)
      (s.mval k (s.attnRowOff k w j).1 (dfld w 5 17 4) ((s.attnRowOff k w j).2 + n))))

/-- Value of source element (r, q) of a `LAYOUT`, with its range judged for Q128 (R271). -/
def State.layoutSrc (s : State) (n : Nat) (w : List Nat) (r q : Nat) : Num × Cell :=
  let A := tref w 2
  let cols := (dLayout w).2
  let bits := elemAt s.fab.mould (mouldAt n (A.addr + r * A.stride * 64)) A.fmt q
  if A.fmt = 15 then
    let cell : Cell := { v := BitVec.ofNat 128 bits, tag := BitVec.ofNat 2 (tagAt s.fab.mould (mouldAt n (dfld w 8 0 23)) (r * cols + q)) }
    (if cell.tag = 3 then .nan else if cell.tag ≠ 0 then .inf (cell.tag == 2)
     else .fin (decide (cell.v.toInt < 0)) cell.v.toInt.natAbs (dsgn w 7 4 10), cell)
  else if isBlock A.fmt then
    (blockNum (A.fmt == 13) (s.mnum n (dfld w 8 0 23 + (r * cols + q) / 32) 1) bits, {})
  else (numOf A.fmt bits, {})

/-- A cell's tag counts in sat: it is not finite (Table 12.13). -/
def tagCounts (c : Cell) : Bool := c.tag != 0

/-- Index of destination element for source (r, q) (R271). -/
def layoutIdx (w : List Nat) (r q : Nat) : Nat :=
  let (rows, cols) := dLayout w
  if dfld w 7 0 1 = 1 then q * rows + r else r * cols + q

/-- SR draw of a `LAYOUT` element (R211). -/
def State.layoutDraw (s : State) (d : CDesc) (i : Nat) : Nat :=
  let w := d.words
  if dfld w 7 1 3 = 4 then
    kcg (nth w 10 0 % 2 ^ 32 + nth w 11 0 % 2 ^ 32 * 2 ^ 32) (s.stepOf d.pour % 2 ^ 64) (dfld w 12 0 16) ((dIdx w 13 + i) % 2 ^ 48) % 2 ^ 32
  else 0

/-- Run a `LAYOUT` (R271). -/
def State.runLayout (s : State) (c : Nat) (d : CDesc) : State :=
  let w := d.words
  let n := cruFlask c
  let A := tref w 2
  let B := tref w 4
  let (rows, cols) := dLayout w
  let tr := dfld w 7 0 1 = 1
  let mode := dfld w 7 1 3
  let dst (p : Nat × Nat) : Nat × Nat := if tr then (B.addr + p.2 * B.stride * 64, p.1) else (B.addr + p.1 * B.stride * 64, p.2)
  let cells := rectCells rows cols
  let outRange := A.fmt = 15 ∧ B.fmt ≠ 15 ∧ cells.any (fun p => let x := (s.layoutSrc n w p.1 p.2).2; x.tag == 0 && !x.inRange)
  let code := if outRange then E_ACC_RANGE else 0
  if isBlock B.fmt ∧ A.fmt ≠ B.fmt then
    let blocks := rectCells rows (cols / 32)
    let res := blocks.map (fun p => (p, toBlock (B.fmt == 13) mode (fun i => s.layoutDraw d (p.1 * cols + 32 * p.2 + i))
      ((List.range 32).map (fun i => (s.layoutSrc n w p.1 (32 * p.2 + i)).1))))
    let mem := res.foldl (fun m b =>
      let m1 := Mem.writeLE m (mouldAt n (dfld w 9 0 23 + b.1.1 * (cols / 32) + b.1.2)) b.2.1 1
      (List.range 32).foldl (fun m i => elemPut m (mouldAt n (B.addr + b.1.1 * B.stride * 64)) B.fmt (32 * b.1.2 + i) (nth b.2.2 i {}).bits) m1)
      s.fab.mould
    let sat := res.foldl (fun k b => k + b.2.2.foldl (fun k e => k + b2n e.counts) 0) 0
      + cells.foldl (fun k p => k + b2n (A.fmt == 15 && tagCounts (s.layoutSrc n w p.1 p.2).2)) 0
    ({ s with fab := { s.fab with mould := mem } }).runDone c d code 0 (min sat 65535)
  else
    let outs := cells.map (fun p =>
      let (v, cell) := s.layoutSrc n w p.1 p.2
      let i := layoutIdx w p.1 p.2
      let res : Nat × Bool :=
        if B.fmt = 15 then (cell.v.toNat, cell.tag != 0)
        else if A.fmt = B.fmt ∧ isBlock A.fmt then
          (let b := elemAt s.fab.mould (mouldAt n (A.addr + p.1 * A.stride * 64)) A.fmt p.2
           if A.fmt = 14 then (convertTo 8 0 0 (numOf 8 b)).bits else b, false)
        else if A.fmt = 15 then
          drainCell cell (dsgn w 7 4 10) B.fmt mode Num.one 0 (s.layoutDraw d i)
        else let r := convertTo B.fmt mode (s.layoutDraw d i) v; (r.bits, r.counts)
      (p, cell, res, i))
    let els := outs.map (fun o =>
      { off := (dst o.1).1, col := (dst o.1).2, bits := o.2.2.1.1,
        digs := if dfld w 7 14 1 = 1 then [(dfld w 12 16 8, assayHash (dfld w 12 0 16) ((dIdx w 13 + o.2.2.2) % 2 ^ 48) o.2.2.1.1)] else [] : OutElem })
    let s1 := s.writeOuts n B.fmt d.pour d.task els
    let mem := if B.fmt = 15 then outs.foldl (fun m o => tagPut m (mouldAt n (dfld w 9 0 23)) o.2.2.2 o.2.1.tag.toNat) s1.fab.mould
      else if A.fmt = B.fmt ∧ isBlock A.fmt then
        Mem.writeBytes s1.fab.mould (mouldAt n (dfld w 9 0 23)) (s.mread n (dfld w 8 0 23) (rows * cols / 32))
      else s1.fab.mould
    let sat := outs.foldl (fun k o => k + b2n o.2.2.1.2) 0
    ({ s1 with fab := { s1.fab with mould := mem } }).runDone c d code 0 (min sat 65535)

/-- Bytes of `n` elements, rows of `width`, copied from virtual memory row by row into the stage region (R256). -/
def State.stageRows (s : State) (n x stage f width : Nat) (addrs : List Nat) : State :=
  (List.range addrs.length).foldl (fun s i =>
    s.mwrite n (stage + i * stageRow f width) (s.vreadBytes x (nth addrs i 0) (elemBytes f width))) s

/-- Virtual ranges a command's fetch reads, in order: address and bytes, by its page list (R256). -/
def fetchRanges (w es : List Nat) : List (Nat × Nat) :=
  let rows (r : TRef) (k elems : Nat) := (List.range k).map (fun i => (r.addr + i * r.stride * 64, elemBytes r.fmt elems))
  if dType w = 1 then
    let k := dfld w 6 13 16 + 1
    (if (tref w 2).space = 1 then rows (tref w 2) (dRect w).m k else [])
      ++ (if (tref w 4).space = 1 then rows (tref w 4) (dRect w).n k else [])
  else listRange w ++ dPageRows w es true

/-- Bytes moved down by half a byte, so that the element in a high nibble comes first. -/
def halfDown (bs : List Byte) : List Byte :=
  (List.range bs.length).map (fun i => BitVec.ofNat 8 ((nth bs i 0).toNat / 16 + (nth bs (i + 1) 0).toNat % 16 * 16))

/-- Copy the bytes of a fetch into the stage region (R256). -/
def State.stageAll (s : State) (n x : Nat) (w es : List Nat) : State :=
  let st := dfld w 12 0 23
  if dType w = 1 then
    let k := dfld w 6 13 16 + 1
    let A := tref w 2
    let B := tref w 4
    let addrs (r : TRef) (c : Nat) := (List.range c).map (fun i => r.addr + i * r.stride * 64)
    let s1 := if A.space = 1 then s.stageRows n x st A.fmt k (addrs A (dRect w).m) else s
    if B.space = 1 then s1.stageRows n x (st + (if A.space = 1 then (dRect w).m * stageRow A.fmt k else 0)) B.fmt k (addrs B (dRect w).n) else s1
  else
    let s1 := (listRange w).foldl (fun s r => s.mwrite n st (s.vreadBytes x r.1 r.2)) s
    let lb := if dListSpace w = 1 then 64 * ceilDiv (8 * dPages w) 64 else 0
    let half := dAttnFirst w * fmtBits (dfld w 5 17 4) % 8 != 0
    (List.range (dAttnRows w).1).foldl (fun s j =>
      let e := nth es (dAttnRow w j).1 0
      if pageVirtual e then
        let bs := s.vreadBytes x (e % 2 ^ 48 + (dAttnRow w j).2 + (dAttnBytes w).1) (dAttnBytes w).2
        s.mwrite n (st + lb + j * stageRow (dfld w 5 17 4) (dAttnRows w).2) ((if half then halfDown bs else bs).take (elemBytes (dfld w 5 17 4) (dAttnRows w).2))
      else s) s1

end Sys2Proof.Machine
end

