-- ==== Sys2Proof/Machine/Keys.lean ====
section
/-! DEFINITION. Byte strings as numbers, hashes and key derivation, and the device's keys IK and BK (R441–R443). The primitives SHA-384,
P-384 and X.509 are opaque functions of the Config (log 3). -/

namespace Sys2Proof.Machine

/-- The low `n` bytes of a number, little-endian. -/
def leBytes (v : Nat) : Nat → List Byte
  | 0 => []
  | n + 1 => BitVec.ofNat 8 v :: leBytes (v / 256) n

/-- Bytes as the number they spell, low byte first (R8). -/
def leNum (bs : List Byte) : Nat := ofBytes (bs.map BitVec.toNat)

/-- Zero bytes. -/
def zeroBytes (n : Nat) : List Byte := List.replicate n 0

/-- SHA-384 as 48 bytes. -/
def shaBytes (bs : List Byte) : List Byte := leBytes (Config.sha384 bs).toNat 48

/-- HMAC-SHA-384, whose block is 128 bytes. -/
def hmac384 (key msg : List Byte) : List Byte :=
  let k := if 128 < key.length then shaBytes key else key
  let block := k ++ zeroBytes (128 - k.length)
  shaBytes (block.map (fun b => b ^^^ 0x5C) ++ shaBytes (block.map (fun b => b ^^^ 0x36) ++ msg))

/-- `n` blocks of HKDF-Expand-SHA-384 from number `i` on, `prev` being the block before. -/
def hkdfBlocks (prk info prev : List Byte) (i : Nat) : Nat → List Byte
  | 0 => []
  | n + 1 =>
    let b := hmac384 prk (prev ++ info ++ [BitVec.ofNat 8 i])
    b ++ hkdfBlocks prk info b (i + 1) n

/-- HKDF-Expand-SHA-384 to `len` bytes. -/
def hkdfExpand (prk info : List Byte) (len : Nat) : List Byte := (hkdfBlocks prk info [] 1 ((len + 47) / 48)).take len

/-- The group order n of P-384. -/
def p384Order : Nat :=
  0xFFFFFFFFFFFFFFFFFFFFFFFFFFFFFFFFFFFFFFFFFFFFFFFFC7634D81F4372DDF581A0DB248B0A77AECEC196ACCC52973

/-- The private scalar derived from the device secret under a label (R441); secret and output as numbers in the order of R8 (DEDUCED,
log 3). -/
def keyScalar (label : List Byte) : Nat := leNum (hkdfExpand (leBytes Config.deviceSecret.toNat 32) label 72) % (p384Order - 1) + 1

/-- The text "LX-9640 " with which the labels begin (R441). -/
def keyLabel : List Byte := [0x4C, 0x58, 0x2D, 0x39, 0x36, 0x34, 0x30, 0x20]

/-- Private scalar of the identity key: label "LX-9640 IK" (R441). -/
def ikScalar : Nat := keyScalar (keyLabel ++ [0x49, 0x4B])

/-- Private scalar of the bundle key: label "LX-9640 BK" (R441). -/
def bkScalar : Nat := keyScalar (keyLabel ++ [0x42, 0x4B])

/-- Public key of IK, X then Y. -/
def ikPublic : BitVec 768 := Config.p384Public ikScalar

/-- Public key of BK, X then Y. -/
def bkPublic : BitVec 768 := Config.p384Public bkScalar

/-- The signature IK makes over a digest: r then s (R443). -/
def ikSign (h : BitVec 384) : BitVec 768 := Config.ecdsaSign ikScalar h

/-- X coordinate of the ECDH product of BK with a public point (R447). -/
def bkEcdh (e : BitVec 768) : BitVec 384 := Config.ecdhX bkScalar e

/-- The BK certificate, which SC issues itself: signed by IK, it marks BK for key agreement only (R442). -/
def bkCert : List Byte :=
  let body := Config.certBody bkPublic
  Config.certOf body (ikSign (Config.sha384 body))

/-- The IK certificate is there and certifies the derived IK (R442). -/
def ikCertOk : Bool := match Config.ikCert with | some c => Config.certKey c == ikPublic | none => false

end Sys2Proof.Machine
end

