-- ==== Sys2Proof/Machine/JournalOps.lean ====
section
/-! DEFINITION. The journal (R380–R385): placing records in the open block, sealing, signing, and the records
other chapters write. -/

namespace Sys2Proof.Machine

/-! ### Retained records -/

/-- A configuration as numbers: offset and value of each word. -/
def cfgWords (m : KMap W32) : List Nat := m.flatMap (fun e => [e.1, e.2.toNat])

/-- The body of a retained record as its hash takes it (R110). -/
def RetRecord.words (r : RetRecord) : List Nat :=
  [r.seq] ++ cfgWords r.cfg ++ cfgWords r.rny ++ r.progs.flatMap (fun p => [p.1, p.2.1, p.2.2.hash.toNat])
    ++ r.lines.flatMap (fun l => [l.1, l.2.1, l.2.2.toNat])
    ++ r.tables.flatMap (fun t => [t.1] ++ t.2.l ++ t.2.d ++ t.2.g ++ t.2.defects.flatMap (fun d => [d.1, d.2]))

/-- Digest of a retained record's header and body (R110). -/
def RetRecord.digest (r : RetRecord) : BitVec 384 := Config.sha384Words r.words

/-- SC writes the trailer of a retained record (R110). -/
def RetRecord.seal (r : RetRecord) : RetRecord := { r with trailer := some (r.digest.toNat, (ikSign r.digest).toNat, r.seq) }

/-- A retained record is complete: its trailer is there with the digest of the rest, the signature of the device identity key over it and
the matching sequence number (R110). -/
def RetRecord.complete (r : RetRecord) : Bool :=
  match r.trailer with
  | some (d, g, q) => decide (q = r.seq) && decide (d = r.digest.toNat) && decide (g = (ikSign r.digest).toNat)
  | none => false

/-! ### The journal -/

/-- Blocks the journal ring holds (R380). -/
def journalBlocks : Nat := 1572864

/-- First slot of a page past its last record slot: slots 30–31 of page 15 hold the trailer (R380). -/
def pageEnd (page : Nat) : Nat := if page = 15 then 30 else 32

/-- Latch halt condition `i` (0 undec, 1 ledger_full, 2 tap_late, 3 journal_full) and note its cause (R378, R379). -/
def State.latchHalt (s : State) (i : Nat) : State :=
  let s1 := s.setBit R.LIN_HALT_STAT i true
  { s1 with line := { s1.line with causeAt := KMap.put s1.line.causeAt i s1.now } }

/-- Words of a block as its hash takes them: its records, its trailer's flags, number and seal time (R382). -/
def JBlock.content (b : JBlock) : List Nat :=
  b.num :: b2n b.byTimeout :: b2n b.atBoot :: b2n b.late :: b.sealNs ::
    b.recs.foldl (fun a r => a ++ (r.typ :: r.page :: r.slot :: r.seq :: r.words)) []

/-- SHA-384 of a whole block as signed (R382). -/
def JBlock.hash (b : JBlock) : Nat :=
  match b.trailer with
  | none => (Config.sha384Words b.content).toNat
  | some (p, h, g) => (Config.sha384Words (b.content ++ [p, h, g])).toNat

/-- Fill a block's trailer: flags, hash of the previous block, hash of this block, signature, in that order (R382). -/
def JBlock.sign (b prev : JBlock) : JBlock :=
  let h := (Config.sha384Words (b.content ++ [prev.hash])).toNat
  { b with trailer := some (prev.hash, h, (ikSign (BitVec.ofNat 384 h)).toNat) }

/-- Raise E_JOURNAL_FULL for the block about to be overwritten, at most once an hour, and latch journal_full (R384). -/
def State.journalFull (s : State) : State :=
  let s1 := (s.setBit R.LIN_JRN_STAT 0 true).latchHalt 3
  match s1.jrn.fullAt with
  | some t => if t + 3600000 * ms ≤ s1.now then
                ({ s1 with jrn := { s1.jrn with fullAt := some s1.now } }).raise E_JOURNAL_FULL {} else s1
  | none => ({ s1 with jrn := { s1.jrn with fullAt := some s1.now } }).raise E_JOURNAL_FULL {}

/-- Make room in the ring for one more sealed block: the oldest goes; if it is younger than the retention, E_JOURNAL_FULL
(R384). -/
def State.dropOldestBlock (s : State) : State :=
  match s.jrn.sealedBlocks with
  | [] => s
  | b :: rest =>
    if s.jrn.sealedBlocks.length + 1 < journalBlocks then s
    else
      let young := decide (s.tim.ns < b.sealNs + s.fld R.LIN_JRN_CFG 0 5 * 86400 * 1000000000)
      let s1 := { s with jrn := { s.jrn with sealedBlocks := rest } }
      if young then s1.journalFull else s1

/-- Seal the open block and open the next one; SC signs it at its next turn, late where it is absent now (R382, R383). -/
def State.sealBlock (s : State) (byTimeout atBoot : Bool) : State :=
  let b := { s.jrn.openBlock with byTimeout := byTimeout, atBoot := atBoot, late := !s.scUp, sealNs := s.tim.ns }
  let s1 := s.dropOldestBlock
  { s1 with jrn := { s1.jrn with
      sealedBlocks := s1.jrn.sealedBlocks ++ [b], openBlock := { num := b.num + 1 }, stored := 0, page := 0, slot := 1 } }

/-- Write the open page to the NAND (R383). -/
def State.pageWrite (s : State) : State :=
  { s with jrn := { s.jrn with stored := s.jrn.openBlock.recs.length, pageAt := s.now } }

/-- Go to the next page when a record of `n` slots does not fit the rest of the open page; past the last page the block
is full and is sealed (R380, R382). -/
def State.pageRoom (s : State) (n : Nat) : State :=
  if s.jrn.slot + n ≤ pageEnd s.jrn.page then s
  else if s.jrn.page < 15 then
    let s1 := s.pageWrite
    { s1 with jrn := { s1.jrn with page := s1.jrn.page + 1, slot := 1 } }
  else s.pageWrite.sealBlock false false

/-- Place a record of `n` slots, with its 64-bit sequence, in the open page (R380). -/
def State.journal (s : State) (typ n : Nat) (words : List Nat) : State :=
  let s1 := s.pageRoom n
  let s2 := if s1.jrn.slot + n ≤ pageEnd s1.jrn.page then s1 else s1.pageRoom n
  let j := s2.jrn
  let r : JRec := { typ := typ, slots := n, words := words, seq := j.nextSeq, page := j.page, slot := j.slot }
  let s3 := { s2 with jrn := { j with
      openBlock := { j.openBlock with recs := j.openBlock.recs ++ [r] }
      nextSeq := j.nextSeq + 1, slot := j.slot + n
      firstAt := if j.openBlock.recs = [] then s2.now else j.firstAt
      recent := j.recent.filter (fun t => decide (s2.now < t + 1000 * ms)) ++ [s2.now] } }
  if s3.jrn.slot < pageEnd s3.jrn.page then s3
  else if s3.jrn.page < 15 then s3.pageWrite
  else s3.pageWrite.sealBlock false false

/-- Word 0 of a record: type, version 1, and two more bytes (R380). -/
def recWord0 (typ b2 b3 : Nat) : Nat := typ + 256 + b2 % 256 * 65536 + b3 % 256 * 2 ^ 24

/-- An EVENT record: ring words 1–5, the time and the count mirrors (Table 17.6; layout log 8). One made while SERREF is lost carries the
flag of `E_CLOCK_LOSS`, bit 16 of its first word (R466). -/
def State.journalEvent (s : State) (code ctx : Nat) (d : List Nat) : State :=
  s.journal 3 1 ([recWord0 3 (b2n (!s.mod.serrefOk)) 0, code + ctx * 65536] ++ d ++
    [lo32 s.devS, hi32 s.devS, s.devNs, lo32 (s.mirror 0), hi32 (s.mirror 0), lo32 (s.mirror 1), hi32 (s.mirror 1)])

/-- Raise an event that concerns a piece, or a refusal of line control: event, log and EVENT record (Table 17.6). -/
def State.raiseJ (s : State) (code : Nat) (w : EvWords) (ctx : Nat := 0) : State :=
  let d := s.evWords code w
  (s.raise code w ctx).journalEvent code ctx d

/-- A code goes to the log and the journal, and to no ring (R88). -/
def State.logJournal (s : State) (code : Nat) : State :=
  let d := s.evWords code {}
  ((s.logWrite code d).journalEvent code 0 d).fresh

/-- As `raiseJ`, the event limited to once per period for its key; the EVENT record is made every time (R492). -/
def State.raiseLimJ (s : State) (code key period : Nat) (w : EvWords) (ctx : Nat := 0) : State :=
  let d := s.evWords code w
  (s.raiseLim code key period w ctx).journalEvent code ctx d

/-- A sequence record: the reserve mark (R477). -/
def State.sequenceRecord (s : State) (mark : Nat) : State :=
  let s1 := { s with line := { s.line with mark := mark },
                     jrn := { s.jrn with seqRecords := keepLast (s.jrn.seqRecords ++ [({ mark := mark } : SeqRecord)]) 2 } }
  s1.wr64 R.PWR_SERIAL_MARK mark

/-- The boot record: cause, phase, code, grade and restored generation (Table 17.6); an open block that holds records is
sealed before it (R383). -/
def State.bootRecord (s : State) (code gen : Nat) : State :=
  let s1 := if s.jrn.openBlock.recs = [] then s else s.sealBlock false true
  s1.journal 5 1 [recWord0 5 (s.fld R.GLB_BOOT_STATUS 4 4) s.phase, code, s.rd R.GLB_GRADE, gen]

/-- BIST records: up to seven self-test records each (Table 17.6). -/
def State.bistRecords (s : State) (rs : List (List Nat)) : State :=
  (List.range ((rs.length + 6) / 7)).foldl (fun s i =>
    s.journal 6 1 (recWord0 6 0 0 :: ((rs.drop (7 * i)).take 7).foldl (fun a r => a ++ r) [])) s

/-- Sign the oldest block that awaits a signature, over the one before it (R382). -/
def signFirst (prev : JBlock) : List JBlock → List JBlock
  | [] => []
  | b :: bs => if b.trailer.isSome then b :: signFirst b bs else b.sign prev :: bs

/-- SC signs the oldest sealed block that is unsigned, where there is one (R382, R383). -/
def State.signBlock (s : State) : State :=
  match s.jrn.sealedBlocks.find? (fun b => b.trailer.isNone) with
  | none => s
  | some b => ({ s with jrn := { s.jrn with sealedBlocks := signFirst {} s.jrn.sealedBlocks } }).trace 0x31 0 b.num

/-- Sealed blocks awaiting their signature (`LIN_JRN_UNSIGNED`). -/
def State.unsigned (s : State) : Nat := (s.jrn.sealedBlocks.filter (fun b => b.trailer.isNone)).length

end Sys2Proof.Machine
end

