-- ==== Sys2Proof/Machine/HostOps.lean ====
section
/-! DEFINITION. Orders and their results (R79–R90): finding a collected order, starting it in the order its queue asks
for, completing it with one result record, and delivering the backlog. -/

namespace Sys2Proof.Machine

/-- The collected order of queue `q` with sequence number `seq` and opcode `op`, where it may start now: SCH runs, it is the first of its
queue that has not started, and under fence every earlier one has completed (R81, R484). -/
def State.orderReady (s : State) (q seq op : Nat) : Option Order :=
  if !s.running || !s.schUp then none
  else
    let same := s.host.orders.filter (fun o => o.queue == q)
    match same.find? (fun o => !o.started) with
    | none => none
    | some o => if o.seq = seq ∧ o.opcode = op ∧ (o.fence = true → same.takeWhile (fun p => p.started) = []) then some o else none

/-- Mark an order as started. -/
def State.orderStart (s : State) (o : Order) : State :=
  { s with host := { s.host with orders := s.host.orders.map (fun p => if p.id = o.id then { p with started := true } else p) } }

/-- An order is open no more. -/
def State.orderEnd (s : State) (o : Order) : State :=
  { s with host := { s.host with orders := s.host.orders.filter (fun p => p.id != o.id) } }

/-- Put a result entry into the backlog, or into the journal once the backlog is full (R89). -/
def State.backlogResult (s : State) (e : RingEntry) : State :=
  if s.host.backlog.length < backlogMax then
    { s with host := { s.host with backlog := s.host.backlog ++ [{ e with kind := 2 }] } }
  else s.journal 8 1 (recWord0 8 0 0 :: e.words 0)

/-- Complete an order with exactly one result record (R81): it goes to its ring; to the backlog while GONE, once its ring
lapsed, or behind results that still wait there (R89, R90); or, refused with no ring to take it, to `CMD_LAST_REFUSAL`
(R83). -/
def State.complete (s : State) (o : Order) (code : Nat) (ctx : Nat := 0) (v3 : Nat := 0) (v4 : Nat := 0) (v5 : Nat := 0) : State :=
  let e : RingEntry := { seq := o.seq, opcode := o.opcode, queue := o.queue, kind := 0, code := code, ctx := ctx, tag := o.tag,
                         v3 := v3, v4 := v4, v5 := v5, timeS := lo32 s.devS, timeNs := s.devNs }
  let s1 := s.orderEnd o
  match (if s.gone then none else o.ring) with
  | none => s1.backlogResult e
  | some r =>
    if (KMap.find s1.host.rings r).isNone then
      s1.wr R.CMD_LAST_REFUSAL (code % 65536 + o.queue % 16 * 65536 + o.seq % 4096 * 2 ^ 20)
    else if s.host.backlog.any (fun b => b.kind == 2) then s1.backlogResult e
    else s1.ringWrite r e

/-- The order a pour started from, by context and tag. -/
def State.openOrder (s : State) (op ctx tag : Nat) : Option Order :=
  s.host.orders.find? (fun o => o.opcode == op && o.ctx == ctx && o.tag == tag && o.started)

/-- Complete every open order of context `x`, started or not, with a code (R88, R324), but the one named by `skip`. -/
def State.completeCtx (s : State) (x code : Nat) (skip : Option Nat) : State :=
  let os := s.host.orders.filter (fun o => decide (64 ≤ o.opcode) && o.ctx == x && (skip != some o.id))
  os.foldl (fun s o => s.complete o code x) s

/-- Entries ring `r` can take beside those reserved for collected orders (R80). -/
def State.ringFree (s : State) (r : Nat) : Nat :=
  match KMap.find s.host.rings r with
  | none => 0
  | some g => g.room - s.reserved r

/-- Deliver entries of one kind from the backlog to a ring, in order, while it has space (R90). -/
def State.deliverKind (s : State) (kind r : Nat) : List RingEntry → State
  | [] => s
  | e :: es =>
    if e.kind = kind then
      (if 0 < s.ringFree r then
        ({ s.ringWrite r e with host := { (s.ringWrite r e).host with backlog := s.host.backlog.erase e } }).deliverKind kind r es
       else s)
    else s.deliverKind kind r es

/-- Deliver the backlog: results into ring 0, events into the event ring, each in its original order (R90). -/
def State.deliver (s : State) : State :=
  if s.gone then s
  else
    let s1 := s.deliverKind 2 0 s.host.backlog
    s1.deliverKind 1 8 s1.host.backlog

/-- Space has returned to the event ring: one E_EVT_LOST reports the events lost (R85). -/
def State.reportLost (s : State) : State :=
  match KMap.find s.host.rings 8 with
  | none => s
  | some g =>
    if 0 < s.host.evtLostPending ∧ 0 < g.room then
      ({ s with host := { s.host with evtLostPending := 0 } }).raise E_EVT_LOST { w3 := some s.host.evtLostPending }
    else s

end Sys2Proof.Machine
end

