-- ==== Sys2Proof/Machine/NlxOps.lean ====
section
/-! DEFINITION. The Nolox chain's shared operations (R426–R437): routes, sending frames with link retry, acknowledgements, and
what a device sends into a chain window or as a share message. -/

namespace Sys2Proof.Machine

/-- Own chain ID. -/
def State.chainId (s : State) : Nat := s.fld R.LNK_CHAIN_CFG 0 6

/-- Topology: 0 none, 1 ring, 2 tree. -/
def State.topo (s : State) : Nat := s.fld R.LNK_CHAIN_CFG 6 2

/-- Port `p`. -/
def State.nlx (s : State) (p : Nat) : NlxPort := nth s.chain.ports p {}

/-- Store port `p`. -/
def State.setNlx (s : State) (p : Nat) (x : NlxPort) : State :=
  { s with chain := { s.chain with ports := setNth s.chain.ports p x } }

/-- History of Nolox lane `l`. -/
def State.lane (s : State) (l : Nat) : Lane := KMap.getD s.intk.lanes l {}

/-- Store the history of lane `l`. -/
def State.setLane (s : State) (l : Nat) (x : Lane) : State :=
  { s with intk := { s.intk with lanes := KMap.put s.intk.lanes l x } }

/-- Port `p` is UP (Table 19.9). -/
def State.portUp (s : State) (p : Nat) : Bool := decide (s.fld (R.LNK_NLX_PORT_STAT p) 0 2 = 2)

/-- Port `p` carries frames now: UP, and both its lanes UP, neither idle nor retraining (Table 6.5). -/
def State.portOpen (s : State) (p : Nat) : Bool :=
  s.portUp p && decide (s.fld (R.LNK_NLX_LANE_STAT (2 * p)) 0 3 = 2) && decide (s.fld (R.LNK_NLX_LANE_STAT (2 * p + 1)) 0 3 = 2)

/-- Port `p` is up and reaches device `d`. -/
def State.reaches (s : State) (p d : Nat) : Bool := s.portUp p && (s.nlx p).reach.contains d

/-- Port a frame to device `d` leaves by (R429): in a ring the shorter way, ties to port 1, or the way still open; in a tree the
child port whose subtree holds it, else the parent. -/
def State.route (s : State) (d : Nat) : Option Nat :=
  if s.topo = 1 then
    let n := max 1 (s.fld R.LNK_CHAIN_CFG 18 7)
    let up := (d + n - s.chainId % n) % n
    let order := if up ≤ n - up then [1, 0] else [0, 1]
    order.find? (fun p => s.reaches p d)
  else if s.topo = 2 then
    match [1, 2, 3].find? (fun p => s.reaches p d) with
    | some p => some p
    | none => if s.portUp 0 then some 0 else none
  else none

/-- Bytes a frame takes on the link and in the replay buffer: header, payload and CRC (R427). -/
def NlxFrame.bytes (f : NlxFrame) : Nat := 20 + f.payload.length

/-- Unacknowledged bytes of a port. -/
def NlxPort.held (x : NlxPort) : Nat := x.replay.foldl (fun a f => a + f.bytes) 0

/-- Count bytes sent on port `p`. -/
def State.txBytes (s : State) (p n : Nat) : State := s.wr64 (R.LNK_NLX_TX_BYTES p) (s.rd64 (R.LNK_NLX_TX_BYTES p) + n)

/-- Send a frame on open port `p`: it takes the next link sequence and stays in the replay buffer of 64 KiB (R428). -/
def State.sendOn (s : State) (p : Nat) (f : NlxFrame) : State :=
  let x := s.nlx p
  let s1 := s.setNlx p { x with txSeq := (x.txSeq + 1) % 4096, replay := x.replay ++ [{ f with lseq := x.txSeq }],
                                ackAt := if x.replay = [] then s.now else x.ackAt }
  let mark (s : State) (l : Nat) : State :=
    { s with intk := { s.intk with lanes := KMap.put s.intk.lanes l { KMap.getD s.intk.lanes l {} with frameAt := s.now } } }
  (mark (mark s1 (2 * p)) (2 * p + 1)).txBytes p f.bytes

/-- Bytes this device has injected within the last `d` ns (R430). -/
def State.injected (s : State) (d : Nat) : Nat :=
  (s.chain.sent.filter (fun e => decide (s.now < e.1 + d))).foldl (fun a e => a + e.2) 0

/-- The injection limiter lets frame `f` go: 25 GB/s over every 10 µs (R430). That the 20 bytes of header and trailer count is a DESIGN
CHOICE (log 63). -/
def State.mayInject (s : State) (f : NlxFrame) : Bool := decide (s.injected 10000 + f.bytes ≤ 250000)

/-- The next frame for port `p`, and whether it is one this device injects: those and transit frames take turns (R429), and a frame the
limiter holds back leaves the turn to transit (R430). -/
def State.nextFrame (s : State) (p : Nat) : Option (Bool × NlxFrame) :=
  let own := match s.chain.inject.find? (fun f => s.route f.dst == some p) with
    | some f => if s.mayInject f then some f else none
    | none => none
  match own, s.chain.transit.find? (fun f => s.route f.dst == some p) with
  | some f, some g => if (s.nlx p).ownNext then some (true, f) else some (false, g)
  | some f, none => some (true, f)
  | none, some g => some (false, g)
  | none, none => none

/-- Frame `f` leaves by port `p`: one of this device's own, or one in transit. -/
def State.takeFrame (s : State) (p : Nat) (own : Bool) (f : NlxFrame) : State :=
  let s1 := (s.setNlx p { s.nlx p with ownNext := !own }).sendOn p f
  if own then
    let recent := s1.chain.sent.filter (fun e => decide (s1.now < e.1 + ms))
    { s1 with chain := { s1.chain with inject := s1.chain.inject.erase f, sent := recent ++ [(s1.now, f.bytes)] } }
  else { s1 with chain := { s1.chain with transit := s1.chain.transit.erase f } }

/-- Send what port `p` can take now, at most `n` frames: while it is open and its replay buffer has room (R428, R429). -/
def State.flushPort (s : State) (p : Nat) : Nat → State
  | 0 => s
  | n + 1 => match s.nextFrame p with
    | none => s
    | some (own, f) =>
      if s.portOpen p && decide ((s.nlx p).held + f.bytes ≤ 65536) then State.flushPort (s.takeFrame p own f) p n else s

/-- The injection limiter holds a frame back now: its port could take it (R430). -/
def State.limited (s : State) : Bool :=
  [0, 1, 2, 3].any (fun p => s.portOpen p && (match s.chain.inject.find? (fun f => s.route f.dst == some p) with
    | some f => !s.mayInject f && decide ((s.nlx p).held + f.bytes ≤ 65536)
    | none => false))

/-- Note from when to when the limiter holds frames back (`LNK_INJECT`, R430). -/
def State.noteLimit (s : State) : State :=
  match s.chain.heldAt, s.limited with
  | none, true => { s with chain := { s.chain with heldAt := some s.now } }
  | some a, false =>
    { s with chain := { s.chain with
      heldAt := none, held := s.chain.held.filter (fun e => decide (s.now < e.2 + ms)) ++ [(a, s.now)] } }
  | _, _ => s

/-- Frames waiting for a port go as far as their ports are open and have room, in order for each port (R428, R429), and as far as the
injection limiter lets them (R430). -/
def State.flushFrames (s : State) : State :=
  ([0, 1, 2, 3].foldl (fun s p => s.flushPort p (s.chain.inject.length + s.chain.transit.length)) s).noteLimit

/-- `LNK_INJECT`: injection in the last 1 ms in units of 10 MB/s, and the share of that time the limiter held frames back, in percent
(Table 19.9). -/
def State.injectWord (s : State) : Nat :=
  let from' := s.now - ms
  let part (e : Nat × Nat) : Nat := e.2 - max e.1 from'
  let held := s.chain.held ++ (match s.chain.heldAt with | some a => [(a, s.now)] | none => [])
  min 65535 (s.injected ms / 10000) + (held.map part).sum * 100 / ms * 65536

/-- A frame for another device goes on (R429). -/
def State.forwardFrame (s : State) (f : NlxFrame) : State :=
  ({ s with chain := { s.chain with transit := s.chain.transit ++ [f] } }).flushFrames

/-- Give a frame to the chain. -/
def State.injectFrame (s : State) (f : NlxFrame) : State :=
  ({ s with chain := { s.chain with inject := s.chain.inject ++ [f] } }).flushFrames

/-! ### Windows -/

/-- First address of the chain windows (R431). -/
def chainBase : Nat := 0xF00000000000

/-- Address `a` lies in a chain window. -/
def inChain (a : Nat) : Bool := decide (chainBase ≤ a ∧ a < chainBase + 64 * 2 ^ 32)

/-- A program loaded in context `x` maps the window onto device `d` (R431). -/
def State.winMapped (s : State) (x d : Nat) : Bool := s.sch.progs.any (fun l => l.ctx == x && l.prog.chainWins.contains d)

/-- Bytes in pieces of 256. -/
def chunks256 : Nat → List Byte → List (List Byte)
  | 0, _ => []
  | _, [] => []
  | n + 1, bs => bs.take 256 :: chunks256 n (bs.drop 256)

/-- Send one element of a transfer into a chain window, at address `a`: frames of at most 256 bytes, counter adds from offset
0xFFF0_0000 (R427, R431). Each is in flight until it is answered end to end; the element counts as written with the answer to its last
frame (R432). -/
def State.sendElem (s : State) (x a : Nat) (bs : List Byte) (who : Nat × Nat × Nat) : State :=
  let d := (a - chainBase) / 2 ^ 32
  let off := a % 2 ^ 32
  let ps := chunks256 (bs.length / 256 + 1) bs
  (List.range ps.length).foldl (fun s i =>
    let o := off + 256 * i
    let y : Flying := { dst := d, ctx := x, addr := o, last := decide (i + 1 = ps.length), ladle := who.1, ticket := who.2.1, elem := who.2.2 }
    let s1 : State := { s with chain := { s.chain with flying := s.chain.flying ++ [y] } }
    s1.injectFrame { dst := d, src := s.chainId, typ := if 0xFFF00000 ≤ o then 1 else 0, ctx := x, addr := o, payload := nth ps i [] }) s

/-! ### Share messages -/

/-- Role of class `c` in generation `g`: 0 none, 1 head, 2 member (R435). -/
def State.shareRole (s : State) (g c : Nat) : Nat :=
  let w := R.LNK_SHARE c
  (if g = s.rd R.STG_GEN_LIVE then s.rd w
   else match s.stage.gens.find? (fun e => e.gen == g) with
     | some e => (KMap.getD e.cfg w (BitVec.ofNat 32 (resetWord w))).toNat
     | none => s.rd w) % 4

/-- Send a share message of class `c` to its head; a member that cannot reach its head discards it and journals E_NLX_DOWN
(R436, R437). -/
def State.sendShare (s : State) (m : ShareMsg) : State :=
  let h := s.fld (R.LNK_SHARE m.cls) 2 6
  match s.route h with
  | none => s.journalEvent E_NLX_DOWN 0 (s.evWords E_NLX_DOWN { w2 := some h, w3 := some 4 })
  | some _ => s.injectFrame { dst := h, src := s.chainId, typ := 2, share := some m }

end Sys2Proof.Machine
end

