-- ==== Sys2Proof/Machine/LadleOps.lean ====
section
/-! DEFINITION. Ladle descriptors (Table 9.6), one element of a transfer, and completion or abort (R189–R193). -/

namespace Sys2Proof.Machine

/-- Element size in bytes (Table 9.6). -/
def lEsize (w : List Nat) : Nat := 2 ^ dfld w 0 6 4

/-- Elements per row, rows and planes. -/
def lCounts (w : List Nat) : Nat × Nat × Nat := (dfld w 6 0 16, dfld w 6 16 16, dfld w 7 0 16)

/-- Elements of a transfer. -/
def lTotal (w : List Nat) : Nat := (lCounts w).1 * (lCounts w).2.1 * (lCounts w).2.2

/-- 48-bit address in words `i`, `i + 1`. -/
def lAddr (w : List Nat) (i : Nat) : Nat := nth w i 0 % 2 ^ 32 + dfld w (i + 1) 0 16 * 2 ^ 32

/-- Start of element `e` on a side: address word `a`, strides in words `s1` and `s1 + 1` (Table 9.6). -/
def lElem (w : List Nat) (a s1 e : Nat) : Nat :=
  let (n0, n1, _) := lCounts w
  lAddr w a + e % n0 * lEsize w + e / n0 % n1 * (nth w s1 0 % 2 ^ 32) + e / (n0 * n1) * (nth w (s1 + 1) 0 % 2 ^ 32)

/-- Source start of element `e`. -/
def lSrc (w : List Nat) (e : Nat) : Nat := lElem w 2 8 e

/-- Destination start of element `e`. -/
def lDst (w : List Nat) (e : Nat) : Nat := lElem w 4 10 e

/-- op: FILL. -/
def lFill (w : List Nat) : Bool := dfld w 0 0 2 == 1

/-- Kind of the source and of the destination: 0 local mould, 1 remote mould, 2 virtual. -/
def lKinds (w : List Nat) : Nat × Nat := (dfld w 0 2 2, dfld w 0 4 2)

/-- Address space of a side: a flask's mould, or 32 for virtual memory. -/
def lSpace (n kind flask : Nat) : Nat := if kind = 2 then 32 else if kind = 1 then flask else n

/-- Source and destination overlap within one address space (R189). -/
def lOverlap (n : Nat) (w : List Nat) : Bool :=
  let (sk, dk) := lKinds w
  !lFill w && lSpace n sk (dfld w 0 10 5) == lSpace n dk (dfld w 0 15 5)
    && (let last := lTotal w - 1
        overlap (lSrc w 0, lSrc w last + lEsize w - lSrc w 0) (lDst w 0, lDst w last + lEsize w - lDst w 0)
        && (List.range (lTotal w)).any (fun e => (List.range (lTotal w)).any (fun g =>
             overlap (lSrc w e, lEsize w) (lDst w g, lEsize w))))

/-- A descriptor is refused with reason FIELD, its record range apart (R189). -/
def State.lFieldBad (s : State) (n x : Nat) (w : List Nat) : Bool :=
  let (sk, dk) := lKinds w
  let (n0, n1, n2) := lCounts w
  let held (f : Nat) : Bool := match s.ctx x with | some c => c.mask.toNat.testBit f | none => false
  let odd (a s1 : Nat) : Bool :=
    decide (lAddr w a % 64 ≠ 0) || (decide (1 < n1) && decide (nth w s1 0 % 64 ≠ 0)) || (decide (1 < n2) && decide (nth w (s1 + 1) 0 % 64 ≠ 0))
  let esz := dfld w 0 6 4
  decide (2 ≤ dfld w 0 0 2) || sk == 3 || dk == 3 || decide (esz < 6 ∨ 12 < esz) || dfld w 0 21 11 != 0
    || dfld w 1 8 24 != 0 || dfld w 3 16 16 != 0 || dfld w 5 16 16 != 0 || n0 == 0 || n1 == 0 || n2 == 0 || dfld w 7 16 16 != 0
    || dfld w 14 23 9 != 0 || dfld w 14 0 4 != 0
    || (!lFill w && odd 2 8) || odd 4 10
    || (!lFill w && sk == 1 && !held (dfld w 0 10 5)) || (dk == 1 && !held (dfld w 0 15 5))
    || lOverlap n w

/-- The record range at cpl lies in the mould and the context's regions (R189). -/
def State.lRecordOk (s : State) (n x : Nat) (w : List Nat) : Bool := s.mouldOk n x (dfld w 14 0 23) 16

/-- What one element of a transfer meets: written, sent into a chain window (R432), parked on a resolvable fault, or an abort with reason and cause. -/
inductive LElem where
  | written (s : State)
  | sent (s : State)
  | park (cause va : Nat)
  | abort (reason cause : Nat) (line : Option Nat)

/-- Some page of `n` bytes from `va` is protected, or with `all` every one. -/
def State.pagesProt (s : State) (x va n : Nat) (all : Bool) : Bool :=
  let ps := (List.range (pagesOf va n)).map (fun i => match s.leaf x (va - va % 4096 + 4096 * i) with | some (p, _) => p.prot | none => false)
  if all then ps.all id else ps.any id

/-- The whole destination of element `e` is protected (R187): protected regions of the context, or protected pages. -/
def State.lDstProt (s : State) (n x : Nat) (w : List Nat) (e : Nat) : Bool :=
  let dk := (lKinds w).2
  if dk = 2 then s.pagesProt x (lDst w e) (lEsize w) true
  else covered ((s.regions (lSpace n dk (dfld w 0 15 5)) x).filter (fun r => r.2.2)) 16 (lDst w e) (lEsize w)

/-- Element `e` carries protected data (R187). -/
def State.lSrcProt (s : State) (n x : Nat) (w : List Nat) (e : Nat) : Bool :=
  let sk := (lKinds w).1
  !lFill w && (if sk = 2 then s.pagesProt x (lSrc w e) (lEsize w) false
               else s.mouldProt (lSpace n sk (dfld w 0 10 5)) x (lSrc w e) (lEsize w))

/-- Host memory at `va` is named in a running pour of context `x`, a JOB context, and the host is attached (R74; log 52). -/
def State.hostNamed (s : State) (x va : Nat) : Bool :=
  s.attached && (match s.ctx x with | some c => c.cls == 2 | none => false)
    && s.sch.pours.any (fun p => p.ctx == x && p.st == 2 && (p.ins ++ p.outs).any (fun r => decide (r.1 ≤ va ∧ va < r.1 + r.2.1)))

/-- Translate the pages of `z` bytes from `a` for a ladle, which also reaches host memory that a pour names (R74). -/
def State.lXlate (s : State) (x : Nat) (write protOk : Bool) (a z : Nat) : XRes :=
  xlatePages (fun v => match s.leaf x v with
    | some (p, off) => if p.host then (if s.hostNamed x v && (p.w || !write) then .ok (p.frame + off) else .fault 7 v) else s.xlate x v write protOk
    | none => s.xlate x v write protOk) 2 a z

/-- Element `e` reads or writes host memory (R88). -/
def State.lHost (s : State) (x : Nat) (w : List Nat) (e : Nat) : Bool :=
  let at' (a : Nat) : Bool := (List.range (pagesOf a (lEsize w))).any (fun i => s.hostPage x (a - a % 4096 + 4096 * i))
  (!lFill w && decide ((lKinds w).1 = 2) && at' (lSrc w e)) || (decide ((lKinds w).2 = 2) && at' (lDst w e))

/-- Bytes a FILL writes into one element. -/
def lPattern (w : List Nat) : List Byte :=
  let v := nth w 12 0 % 2 ^ 32 + nth w 13 0 % 2 ^ 32 * 2 ^ 32
  (List.range (lEsize w)).map (fun i => BitVec.ofNat 8 (v / 256 ^ (i % 8)))

/-- The line that `err` names among those of one side of an element, if the codes meet it there. -/
def State.errLine (s : State) (x a z e : Nat) (dst : Bool) (err : Option LadleErr) : Option (Nat × LineErr) :=
  match err with
  | none => none
  | some r => if r.elem = e ∧ r.dst = dst then ((s.linesOf x a z)[r.line]?).map (fun l => (l, r.err)) else none

/-- Read the source of element `e`: its bytes, or what stopped the read (R171, R181, R185, R187, R188). -/
def State.lRead (s : State) (n x : Nat) (w : List Nat) (e : Nat) (err : Option LadleErr) : List Byte ⊕ LElem :=
  let z := lEsize w
  let a := lSrc w e
  let sk := (lKinds w).1
  if lFill w then .inl (lPattern w)
  else if sk = 2 then
    if windowBase ≤ a then .inr (.abort 2 0 none)
    else match s.lXlate x false (s.lDstProt n x w e) a z with
      | .park c va => .inr (.park c va)
      | .fault c _ => .inr (.abort 3 c none)
      | .ok _ =>
        let bs := s.vreadBytes x a z
        match s.errLine x a z e false err, s.poisonedIn x a z with
        | some (l, r), none => if r.bad then .inr (.abort 4 0 (some l)) else .inl (r.deliver s.free a bs)
        | some (l, r), some k => .inr (.abort 4 0 (some (if r.bad && decide (l < k) then l else k)))
        | none, some k => .inr (.abort 4 0 (some k))
        | none, none => .inl bs
  else
    let m := lSpace n sk (dfld w 0 10 5)
    if !s.mouldOk m x a z then .inr (.abort 2 0 none)
    else if s.mouldProt m x a z && !s.lDstProt n x w e then .inr (.abort 3 5 none)
    else .inl (s.mread m a z)

/-- What an element's read counts: translations, fabric traffic, corrections (R196, R179). -/
def State.lReadCounts (s : State) (n x : Nat) (w : List Nat) (e : Nat) (err : Option LadleErr) : State :=
  let z := lEsize w
  let sk := (lKinds w).1
  if lFill w ∨ sk = 0 then s
  else if sk = 1 then (s.sendBytes (dfld w 0 10 5) z).recvBytes n z
  else
    let s1 := (s.lookUp n (pagesOf (lSrc w e) z)).recvBytes n z
    match s.errLine x (lSrc w e) z e false err with
    | some (l, r) => s1.countCorr l r
    | none => s1

/-- A write of element `e` to virtual memory reads the lines it covers only in part: the one it cannot read (R180). -/
def State.lPartBad (s : State) (x : Nat) (w : List Nat) (e : Nat) (err : Option LadleErr) : Option Nat :=
  let a := lDst w e
  let z := lEsize w
  match s.partPoison x a z, s.errLine x a z e true err with
  | some l, _ => some l
  | none, some (l, r) =>
    if r.bad && ((decide (a % 256 ≠ 0 ∨ z < 256) && (s.linesOf x a 1).contains l)
        || (decide ((a + z) % 256 ≠ 0) && (s.linesOf x (a + z - 1) 1).contains l)) then some l else none
  | none, none => none

/-- Move element `e` of the transfer of ladle `l` with ticket `k` (R190). -/
def State.lMove (s : State) (n l k x : Nat) (w : List Nat) (e : Nat) (err : Option LadleErr) : LElem :=
  let z := lEsize w
  let a := lDst w e
  let dk := (lKinds w).2
  match s.lRead n x w e err with
  | .inr r => r
  | .inl bs =>
    let s := s.lReadCounts n x w e err
    if dk = 2 then
      if windowBase ≤ a then .abort 2 0 none
      else if inChain a then
        (if s.winMapped x ((a - chainBase) / 2 ^ 32) then .sent ((s.sendBytes n z).sendElem x a bs (2 * n + l, k, e)) else .abort 3 7 none)
      else match s.lXlate x true true a z with
        | .park c va => .park c va
        | .fault c _ => .abort 3 c none
        | .ok _ =>
          match s.lPartBad x w e err with
          | some line => .abort 4 0 (some line)
          | none => .written (((s.lookUp n (pagesOf a z)).sendBytes n z).vwrite x 3 a bs)
    else
      let m := lSpace n dk (dfld w 0 15 5)
      if !s.mouldOk m x a z then .abort 2 0 none
      else
        let s1 := if dk = 1 then (s.sendBytes n z).recvBytes m z else s
        let s2 := s1.mwrite m a bs
        .written (if s.lSrcProt n x w e then s2.protect m x a z else s2)

/-- Write the record of Table 9.8, unless its range is outside the mould or the regions (R189, R193). -/
def State.lRecord (s : State) (n : Nat) (d : LDesc) (code reason cause : Nat) : State :=
  if s.lRecordOk n d.ctx d.words then
    s.mwrite n (dfld d.words 14 0 23) (((List.range 4).map (fun i =>
      let v := if i = 0 then code % 65536 + reason % 256 * 65536 + cause % 256 * 2 ^ 24
               else if i = 1 then d.done else if i = 2 then nth d.words 15 0 else d.parks
      (List.range 4).map (fun k => BitVec.ofNat 8 (v / 256 ^ k)))).foldl (fun a l => a ++ l) [])
  else s

/-- Completion or abort of a transfer, in the order of R193; an abort raises `E_LADLE_ABORT` (R189). -/
def State.lFinish (s : State) (n l : Nat) (d : LDesc) (code reason cause : Nat) : State :=
  let s1 := s.lRecord n d code reason cause
  let s2 := if dfld d.words 0 20 1 = 1 then s1.evcDone d.pour n (dfld d.words 1 0 8) else s1
  let s3 := s2.settleTicket d.pour d.task 1 l d.ticket (code == 0)
  if code = 0 then s3 else (s3.incSat (R.FLK_LADLE_EVT n l) 16 16).raise E_LADLE_ABORT {} d.ctx

/-- The head of a ladle's queue leaves it. -/
def State.lPop (s : State) (n l : Nat) : State := s.setLadle n l ((s.ladle n l).drop 1)

/-- The transfer at the head parks (Table 9.7): it issues nothing new and waits for the elements in flight, as into a chain window, then
it is parked. `cause`: the fault whose resolution is requested; none at a chill. -/
def State.lPark (s : State) (n l : Nat) (d : LDesc) (cause : Option (Nat × Nat)) : State :=
  let s1 := s.incSat (R.FLK_LADLE_EVT n l) 0 16
  match s1.ladle n l with
  | _ :: rest =>
    let s2 := s1.setLadle n l ({ d with state := if d.done < d.issued then 2 else 3, parks := (d.parks + 1) % 2 ^ 32, cause := cause,
                                        permit := false, permitWait := false } :: rest)
    match cause with | some (c, va) => s2.startMove d.ctx c va | none => s2
  | [] => s1

/-- Flask, context, cause and address of the fault an agent is parked on. -/
def State.parkedAt (s : State) (g : Agent) : Option (Nat × Nat × Nat × Nat) :=
  match g with
  | .fettler i => match s.fet i with
    | some f => (match f.wait with | .park c va => some (i / 4, f.ctx, c, va) | _ => none)
    | none => none
  | .ladle n l => match s.ladle n l with
    | d :: _ => if d.state = 3 then d.cause.map (fun c => (n.val, d.ctx, c.1, c.2)) else none
    | [] => none
  | .crucible c => match (s.cru c).queue with
    | d :: _ => d.parked.map (fun p => (cruFlask c, d.ctx, p.1, p.2))
    | [] => none

end Sys2Proof.Machine
end

