-- ==== Sys2Proof/Machine/LineOps.lean ====
section
/-! DEFINITION. The piece ledger's shared operations (chapter Piece ledger): configuration by generation, deadlines,
verdict codes, default actions, tap planning, and freeing an entry with its PIECE record. -/

namespace Sys2Proof.Machine

/-- Configuration of generation `g`: register word `a` as that generation has it (R104). -/
def State.cfg (s : State) (g a : Nat) : Nat :=
  if g = s.rd R.STG_GEN_LIVE then s.rd a
  else match s.stage.gens.find? (fun e => e.gen == g) with
    | some e => (KMap.getD e.cfg a (BitVec.ofNat 32 (resetWord a))).toNat
    | none => s.rd a

/-- A field of a generation's configuration. -/
def State.cfgF (s : State) (g a lo w : Nat) : Nat := s.cfg g a / 2 ^ lo % 2 ^ w

/-- Signed difference `a − b` of 48-bit counts (R401: counters wrap at 2^48). -/
def diff48 (a b : Nat) : Int := sextI (a + 2 ^ 48 - b % 2 ^ 48) 48

/-- Word `w` of `LIN_CLASS[c]` in generation `g` (Table 17.11). -/
def State.classWord (s : State) (g c w : Nat) : Nat := s.cfg g (R.LIN_CLASS c + 4 * w)

/-- Encoder channel of class `c` (Table 17.11). -/
def State.classChan (s : State) (g c : Nat) : Nat := s.classWord g c 0 / 2 % 2

/-- The class counts in reverse: dir = 1 (Table 17.11). -/
def State.classRev (s : State) (g c : Nat) : Bool := decide (s.classWord g c 0 / 4 % 2 = 1)

/-- Offset along the class direction added to a count (R365). -/
def along (rev : Bool) (lead : Nat) (off : Int) : Nat := wrapI ((lead : Int) + (if rev then -off else off)) 48

/-- Distance from `lead` to `c` along the class direction (R365). -/
def dist (rev : Bool) (lead c : Nat) : Int := if rev then diff48 lead c else diff48 c lead

/-- Offset of an anchor from the leading edge: 0 lead, 1 centre, 2 trail; `len` is the distance from lead to trail (R365). -/
def anchorOff (anchor : Nat) (len : Int) : Int :=
  if anchor = 0 then 0 else if anchor = 1 then (len + 1) / 2 else len

/-- One enabled tap of an action of a class (Table 17.11). -/
structure TapPlan where
  /-- Tap 0–3. -/
  tap : Nat
  /-- Anchor. -/
  anchor : Nat
  /-- Output. -/
  k : Nat
  /-- Width unit. -/
  wmode : Nat
  /-- Width. -/
  w : Nat
  /-- Signed offset d. -/
  d : Int

/-- Tap `t` of action `a` of class `c`, where it is enabled (Table 17.11). -/
def State.tapPlan (s : State) (g c a t : Nat) : Option TapPlan :=
  let w0 := s.cfg g (R.LIN_TAP c a t)
  let w1 := s.cfg g (R.LIN_TAP c a t + 4)
  if w0 % 2 = 1 then
    some { tap := t, anchor := w0 / 2 % 4, k := w0 / 8 % 16, wmode := w0 / 128 % 2, w := w0 / 256 % 65536, d := sextI w1 32 }
  else none

/-- The enabled taps of an action (R374). -/
def State.actionTaps (s : State) (g c a : Nat) : List TapPlan := (List.range 4).filterMap (s.tapPlan g c a)

/-- Nominal distance from lead to trail: Ln − 1 (R365). -/
def State.nominalLen (s : State) (g c : Nat) : Int := ((s.classWord g c 1 % 2 ^ 24 : Nat) : Int) - 1

/-- Centre offset from nominal anchors is floordiv(Ln, 2), which is `anchorOff` at length Ln − 1. The least tap offset
of a class for a given length, over every enabled tap of every action (R366). -/
def State.leastTap (s : State) (g c : Nat) (len : Int) : Option Int :=
  (List.range 8).foldl (fun acc a =>
    (s.actionTaps g c a).foldl (fun acc p =>
      let o := anchorOff p.anchor len + p.d
      match acc with
      | none => some o
      | some m => some (min m o)) acc) none

/-- Deadline of a piece: lead + least tap offset − margin, along the class direction (R366). -/
def State.deadlineFor (s : State) (g c lead : Nat) (len : Int) : Nat :=
  let margin : Int := (s.classWord g c 0 / 256 % 65536 : Nat)
  along (s.classRev g c) lead ((s.leastTap g c len).getD 0 - margin)

/-- Ledger entry `i`. -/
def State.entry (s : State) (i : Nat) : Option LEntry := KMap.find s.line.ledger i

/-- Store ledger entry `i`. -/
def State.setEntry (s : State) (i : Nat) (e : LEntry) : State :=
  { s with line := { s.line with ledger := KMap.put s.line.ledger i e } }

/-- The count mirror has reached `c` along the class direction of entry `e` (R367). -/
def State.reached (s : State) (e : LEntry) (c : Nat) : Bool :=
  let rev := s.classRev e.gen e.cls
  decide (0 ≤ dist rev c (s.mirror (s.classChan e.gen e.cls)))

/-- Every tap of the planned action is confirmed fired or marked unfired (R361). -/
def LEntry.tapsSettled (e : LEntry) : Bool :=
  e.taps.all (fun t => t == .off || t == .fired || t == .unfired)

/-- The 32-bit words of a PIECE record (Table 17.7). -/
def pieceWords (e : LEntry) (full : Bool) : List Nat :=
  let w64 (x : Nat) := [lo32 x, hi32 x]
  [recWord0 1 e.cls e.lane, e.gen]
  ++ w64 (e.serial % 2 ^ 48 + e.cause * 2 ^ 48)
  ++ w64 (e.lead % 2 ^ 48 + e.stream % 64 * 2 ^ 48)
  ++ w64 (e.trail % 2 ^ 48) ++ w64 (e.deadline % 2 ^ 48) ++ w64 (e.vcount % 2 ^ 48)
  ++ w64 e.vs ++ [e.vns]
  ++ [e.verdict + e.ruleVerdict * 256 + (e.action + 8 * b2n e.dflt) * 65536
      + (e.fired.toNat + 16 * e.unfired.toNat) * 2 ^ 24]
  ++ w64 (e.tap0N % 2 ^ 48) ++ [lo32 e.admitStep, lo32 e.leave]
  ++ [slice e.pd 31 0, slice e.pd 63 32, slice e.pd 95 64, slice e.pd 127 96]
  ++ e.ruleIn
  ++ [b2n e.edgeUnc + 2 * b2n e.twin + 4 * b2n e.nominal + 8 * b2n e.castTrunc + 16 * b2n e.lateOut
      + 32 * b2n e.captured + 64 * b2n full + 128 * b2n e.retried, 0]

/-- The 32-bit words of 128-bit digests. -/
def digestWords (ds : List Nat) : List Nat :=
  ds.foldl (fun l d => l ++ [slice d 31 0, slice d 63 32, slice d 95 64, slice d 127 96]) []

/-- Write the PIECE record, and with it the ASSAY record of its digests where the class asks for one (R381, Table 17.6). -/
def State.pieceRecord (s : State) (e : LEntry) (full : Bool) : State :=
  let s1 := s.journal 1 1 (pieceWords e full)
  let s2 := if s.classWord e.gen e.cls 5 % 2 = 1 ∧ e.admitted
    then s1.journal 2 (if e.twin then 3 else 2) (recWord0 2 e.cls 0 :: (digestWords e.digA ++ digestWords e.digB)) else s1
  let s3 := s2.inc (R.LIN_VERDICTS e.verdict)
  { s3 with jrn := { s3.jrn with topSerial := max s3.jrn.topSerial e.serial } }

/-- Free entry `i` when its code is set, its taps settled, SCH holds it no longer and its trailing edge is known: the
PIECE record is written and the entry becomes FREE in the same operation (R361). -/
def State.tryFree (s : State) (i : Nat) : State :=
  match s.entry i with
  | none => s
  | some e =>
    if e.verdict ≠ 0 ∧ e.state = 4 ∧ e.tapsSettled ∧ e.held = false ∧ e.trailKnown then
      let s1 := s.pieceRecord e false
      { s1 with line := { s1.line with ledger := KMap.del s1.line.ledger i },
                stage := { s1.stage with openAtCast := s1.stage.openAtCast.filter (fun k => k != i) } }
    else s

/-- The tap order for tap `p` of a piece (R374, Table 17.5). -/
def tapOrderOf (chan : Nat) (rev : Bool) (p : TapPlan) (lead : Nat) (len : Int) (entry : Nat) (noent : Bool)
    (serial : Nat) : TapOrder :=
  { k := p.k, chan := chan, dir := b2n rev, wmode := p.wmode, noent := noent, entry := if noent then 0 else entry,
    tap := p.tap, n := along rev lead (anchorOff p.anchor len + p.d), w := p.w, serial := lo32 serial }

/-- Queue tap orders for the barrier link (R376). -/
def State.sendTaps (s : State) (os : List TapOrder) : State :=
  let s1 := { s with line := { s.line with tx := s.line.tx ++ os.map Msg.tap } }
  os.foldl (fun s o => s.trace 0x42 35 (o.n + o.k * 2 ^ 48)) s1

/-- Plan action `a` of entry `i`: its tap orders are sent and the entry is PLANNED (R369, R374); nothing once the ledger
is frozen (R475). -/
def State.planAction (s : State) (i a : Nat) (dflt : Bool) : State :=
  match if s.line.frozen then none else s.entry i with
  | none => s
  | some e =>
    let rev := s.classRev e.gen e.cls
    let chan := s.classChan e.gen e.cls
    let len := if e.trailKnown then dist rev e.lead e.trail else s.nominalLen e.gen e.cls
    let plans := s.actionTaps e.gen e.cls a
    let os := plans.map (fun p => tapOrderOf chan rev p e.lead len i false e.serial)
    let sentTap := fun t => plans.any (fun p => p.tap == t)
    let e' := { e with
      action := a, dflt := dflt, state := 4, nominal := !e.trailKnown,
      tap0N := match os.find? (fun o => o.tap == 0) with | some o => o.n | none => 0,
      taps := (List.range 4).map (fun t => if sentTap t then TapState.sent else TapState.off),
      tapEpoch := List.replicate 4 s.line.epochSeen }
    ((s.setEntry i e').sendTaps os).tryFree i

/-- The class default: action 0, or eject_act (R369). -/
def State.defaultAction (s : State) (g c : Nat) : Nat :=
  let w := s.classWord g c 0
  if w / 8 % 2 = 1 then w / 16 % 8 else 0

/-- Note an UNDECIDED_ code for the undec halt condition: N or more within the window latch it, and their count falls below N as the N-th newest leaves the window
(R378, R379). -/
def State.noteUndec (s : State) : State :=
  let n := s.fld R.LIN_HALT_UNDEC 0 16
  let win := s.fld R.LIN_HALT_UNDEC 16 16 * ms
  let ts := s.line.undecAt.filter (fun t => decide (s.now < t + win)) ++ [s.now]
  let s1 := { s with line := { s.line with undecAt := ts } }
  if n ≤ ts.length then
    let s2 := s1.latchHalt 0
    { s2 with line := { s2.line with causeAt := KMap.put s2.line.causeAt 0 (nth ts (ts.length - n) 0 + win) } }
  else s1

/-- SCH hears of a code set on entry `i` (R305, R313): corrupt or faulted, a piece still OPENED is no longer held and one
in the batch leaves at the next step; late, it goes last, or with late_abandon it is treated the same way. -/
def State.schMark (s : State) (i v : Nat) : State :=
  match s.sch.pieces.find? (fun p => p.entry == i) with
  | none => s
  | some p =>
    let out := v = 4 ∨ v = 6 ∨ (v = 3 ∧ s.cfg p.gen (R.CMD_SEQ_CLASS p.cls) / 2 ^ 28 % 2 = 1)
    let upd (f : Piece → Piece) := s.sch.pieces.map (fun q => if q.entry = i then f q else q)
    if out ∧ p.st = 0 then
      let s1 := { s with sch := { s.sch with pieces := s.sch.pieces.filter (fun q => q.entry != i) } }
      match s1.entry i with
      | some e => s1.setEntry i { e with held := false }
      | none => s1
    else if out then { s with sch := { s.sch with pieces := upd (fun q => { q with voided := true, late := q.late || v == 3 }) } }
    else if v = 3 then { s with sch := { s.sch with pieces := upd (fun q => { q with late := true }) } }
    else s

/-- First of the numbers a member's parts of shared pieces go by in SCH, since they take no ledger entry (R436). -/
def memberBase : Nat := 131072

/-- Segment index of a piece of a WEB class in its generation (R156, R436); a continuation carries that of the segment it continues
(R105). -/
def State.segIndex (s : State) (p : Piece) : Int :=
  let slot := (List.range 64).find? (fun j => s.cfgF p.gen (R.RUN_SRC (j / 4) (j % 4)) 0 1 = 1
    ∧ s.cfgF p.gen (R.RUN_SEG_CFG (j / 4) (j % 4)) 0 2 = 1 ∧ s.cfgF p.gen (R.RUN_SEG_LEN (j / 4) (j % 4)) 24 6 = p.cls)
  match p.seg, slot with
  | some i, _ => i
  | none, some j =>
    let o : Nat := (s.cfg p.gen (R.RUN_SEG_ORIGIN (j / 4) (j % 4)) + 2 ^ 32 * s.cfg p.gen (R.RUN_SEG_ORIGIN (j / 4) (j % 4) + 4)) % 2 ^ 48
    ((p.lead : Int) - o) / (max 1 (s.cfgF p.gen (R.RUN_SEG_LEN (j / 4) (j % 4)) 0 24) : Nat)
  | none, none => 0

/-- Send the head the settlement of a member's part (R436): kind 0 DONE, 1 REFUSED, 2 CORRUPT, 3 FAULT. A member whose channel is not
aligned sends no part (R434). -/
def State.shareSettle (s : State) (p : Piece) (kind : Nat) : State :=
  if !s.bit (R.LNK_ALIGN (s.classChan p.gen p.cls) + 4) 16 then s
  else s.sendShare { cls := p.cls, seg := s.segIndex p, lead := p.lead, kind := kind }

/-- A member's part ends corrupt or faulted (R436): its head hears of it once, and SCH treats it as a marked piece. -/
def State.memberCode (s : State) (i v : Nat) : State :=
  match s.sch.pieces.find? (fun p => p.entry == i) with
  | none => s
  | some p =>
    if p.voided || (v != 4 && v != 6) then s
    else (s.shareSettle p (if v = 4 then 2 else 3)).schMark i v

/-- Set verdict code `v` with cause `c` on entry `i`. The first code is final: a later cause is journalled as an event
(R368); none is set once the ledger is frozen (R475). An UNDECIDED_ code plans the default action when the trailing edge is known (R369). -/
def State.setCode (s : State) (i v c : Nat) : State :=
  match s.entry i with
  | none => if memberBase ≤ i then s.memberCode i v else s
  | some e =>
    if s.line.frozen then s
    else if e.verdict ≠ 0 then
      (if c = 0 then s else s.journalEvent c 0 (s.evWords c { w2 := some i, w3 := some (lo32 e.serial) }))
    else
      let e' := { e with verdict := v, cause := if 3 ≤ v then c else 0, state := 3, vs := s.devS, vns := s.devNs,
                         vcount := s.mirror (s.classChan e.gen e.cls) }
      let s1 := ((s.setEntry i e').trace 0x41 35 (i + v * 2 ^ 17)).schMark i v
      if 3 ≤ v then
        let s2 := s1.noteUndec
        if e.trailKnown then s2.planAction i (s2.defaultAction e.gen e.cls) true else s2
      else s1

/-- Plan the default action of a piece with an `UNDECIDED_` code that has none yet (R369). -/
def State.planDefault (s : State) (i : Nat) : State :=
  match s.entry i with
  | some e => if e.state = 3 ∧ 3 ≤ e.verdict then s.planAction i (s.defaultAction e.gen e.cls) true else s
  | none => s

/-- Give every open piece without a code `UNDECIDED_FAULT` with cause `c`, its default action planned at once, since Ronyr
answers it as safe (R471, R458). -/
def State.faultOpenPieces (s : State) (c : Nat) : State :=
  (s.line.ledger.map Prod.fst).foldl (fun s i =>
    match s.entry i with
    | some e => if e.verdict = 0 then (s.setCode i 6 c).planDefault i else s
    | none => s) s

/-- Let go of the SCH hold on entry `i` (R361). -/
def State.releaseHold (s : State) (i : Nat) : State :=
  match s.entry i with
  | none => s
  | some e => (s.setEntry i { e with held := false }).tryFree i

/-- Fixed halt conditions in force: not_started, safe, sec_fault, host_req (R378). -/
def State.fixedHalt (s : State) : Bool :=
  !s.boot.lineStarted || s.safe || s.sec.fault || s.bit R.LIN_HALT_REQ 0

/-- The healthy flag line control sends in every barrier frame (R378). -/
def State.healthy (s : State) : Bool :=
  !s.fixedHalt && (List.range 4).all (fun i => !(s.bit R.LIN_HALT_STAT i && s.bit R.LIN_HALT_CFG i))

end Sys2Proof.Machine
end

