-- ==== Sys2Proof/Machine/SchedOps.lean ====
section
/-! DEFINITION. Contexts, pours and tasks (R316–R324): sync objects, readiness and deques, mould regions, and what ends a
task or a pour. -/

namespace Sys2Proof.Machine

/-! ### Programs and sync objects -/

/-- Two lists share an element. -/
def shares (a b : List Nat) : Bool := a.any (fun i => b.contains i)

/-- The sync objects a program declares are free for context `x` (R324): barriers and gate counters are global, event
counters are those of the context's flasks. -/
def State.syncFree (s : State) (x : Nat) (g : Program) : Bool :=
  s.sch.pours.all (fun p =>
    !p.holds ||
      (match s.pourProg p with
       | none => true
       | some h =>
         !shares (g.barriers.map Prod.fst) (h.barriers.map Prod.fst) && !shares g.gates h.gates
           && !(shares g.evcs h.evcs && (List.range 32).any (fun n => s.inMask x n && s.inMask p.ctx n))))

/-- Gate counter `g` is allocated to pour `id`. -/
def State.gateOwned (s : State) (id g : Nat) : Bool :=
  match s.pour id with
  | none => false
  | some p => p.holds && (match s.pourProg p with | some h => h.gates.contains g | none => false)

/-- Set the event counters `cs` of every flask of context `x` to 0. -/
def State.zeroEvcs (s : State) (x : Nat) (cs : List Nat) : State :=
  { s with fab := { s.fab with evcs := s.fab.evcs.filter (fun e => !(cs.contains (e.1 % 256) && s.inMask x (e.1 / 256))) } }

/-- Flask of the `k`-th place in the mask of context `x`. -/
def State.nthFlask (s : State) (x k : Nat) : Nat :=
  match s.ctx x with
  | some c => nth (maskList c.mask) k 32
  | none => 32

/-- Register of the producer waits of halo channel `d` of a program in context `x` (Table 13.7). -/
def State.haloWaits (s : State) (x : Nat) (d : HaloDecl) : Nat := R.FLK_HALO (s.nthFlask x d.pflask) d.chan + 20

/-- A task of pour `id` waits on event counter `c` of flask `n`: a wait of the producer of each halo channel whose ACK it is
(R296, Table 13.7). -/
def State.haloWait (s : State) (id n c : Nat) : State :=
  match s.pour id with
  | none => s
  | some p => match s.pourProg p with
    | none => s
    | some g => (g.halos.filter (fun d => d.ack == c && s.nthFlask p.ctx d.pflask == n)).foldl
        (fun s d => s.incSat (s.haloWaits p.ctx d) 0 32) s

/-- Allocate a pour's sync objects, at zero (R174); the producer waits of its halo channels count from its start
(Table 13.7). -/
def State.allocSync (s : State) (p : Pour) (g : Program) : State :=
  let s0 := g.halos.foldl (fun s d => s.wr (s.haloWaits p.ctx d) 0) s
  let s1 := s0.zeroEvcs p.ctx g.evcs
  { s1 with fab := { s1.fab with
      gcs := s1.fab.gcs.filter (fun e => !g.gates.contains e.1)
      bars := g.barriers.foldl (fun m b =>
        KMap.put m b.1 ({ epoch := 0, parts := b.2, arrived := [], pour := p.id, ctx := p.ctx } : Barrier)) s1.fab.bars } }

/-- Free a pour's sync objects (R174). -/
def State.freeSync (s : State) (p : Pour) : State :=
  match s.pourProg p with
  | none => s
  | some g =>
    let s1 := s.zeroEvcs p.ctx g.evcs
    { s1 with fab := { s1.fab with
        gcs := s1.fab.gcs.filter (fun e => !g.gates.contains e.1)
        bars := s1.fab.bars.filter (fun b => b.2.pour != p.id) } }

/-! ### Digest banks -/

/-- Banks a program takes: none, one, or two for a twin program (R346). -/
def banksNeeded (g : Program) : Nat :=
  if g.digests then (match g.seq with | some q => if q.twin then 2 else 1 | none => 1) else 0

/-- Banks neither reserved nor in use, ascending (R346). -/
def State.freeBanks (s : State) : List Nat :=
  (List.range 32).filter (fun k => (KMap.find s.fab.bankOwner k).isNone)

/-- Take banks for pour `id` of context `x`, zeroed; `prog + 1` where they are reserved for a program (R346). -/
def State.takeBanks (s : State) (ks : List Nat) (x id rsv : Nat) : State :=
  (List.range ks.length).foldl (fun s i =>
    let k := nth ks i 0
    { s with fab := { s.fab with banks := KMap.put s.fab.banks k [],
                                 bankOwner := KMap.put s.fab.bankOwner k (x, id, i == 1, rsv) } }) s

/-- Free banks. -/
def State.dropBanks (s : State) (ks : List Nat) : State :=
  { s with fab := { s.fab with banks := s.fab.banks.filter (fun b => !ks.contains b.1),
                               bankOwner := s.fab.bankOwner.filter (fun b => !ks.contains b.1) } }

/-- Register `r` of bank `k` (R348). -/
def State.digest (s : State) (k r : Nat) : Nat := KMap.getD (KMap.getD s.fab.banks k []) r 0

/-! ### Mould regions -/

/-- Zero bytes of a mould (R172). -/
def State.mouldZero (s : State) (n off len : Nat) : State :=
  { s with fab := { s.fab with mould := Mem.zero s.fab.mould (mouldAt n off) len } }

/-- The word of a region entry (Table 9.11). -/
def regionWord (off size x : Nat) (prot : Bool) : Nat :=
  off % 2048 + size % 2048 * 4096 + x % 16 * 2 ^ 24 + b2n prot * 2 ^ 28 + 2 ^ 29

/-- Set `FLK_MOULD_USE` from the region table (Table 9.11). -/
def State.mouldUse (s : State) (n : Nat) : State :=
  s.wr (R.FLK_MOULD_USE n) ((List.range 16).foldl (fun a i =>
    let w := s.rd (R.FLK_REGION n i)
    if w.testBit 29 then a + w / 4096 % 2048 * 4 else a) 0)

/-- Entries of flask `n`'s region table. -/
def State.regionTable (s : State) (n : Nat) : List Nat :=
  ((List.range 16).map (fun i => s.rd (R.FLK_REGION n i))).filter (fun w => w.testBit 29)

/-- Two region words name the same region of the same context, whatever their protected flags. -/
def sameRegion (v w : Nat) : Bool := v % 2 ^ 28 == w % 2 ^ 28

/-- Offset and size of a region word, in 4 KiB. -/
def regionSpan (w : Nat) : Nat × Nat := (w % 2048, w / 4096 % 2048)

/-- A stripe ring of another context lies in the area (R171). -/
def State.ringMeets (s : State) (n x : Nat) (a : Nat × Nat) : Bool :=
  s.fab.stripes.any (fun e => e.ring && e.cru / 2 == n && e.ctx != x
    && overlap (e.base * 1024, e.depth * e.pitch) (a.1 * 4096, a.2 * 4096))

/-- Cells of a store at `at'` + mould offset, in the area of a region, that lie in no region of context `x` on flask `n`. -/
def State.outside (s : State) (n x at' : Nat) (a : Nat × Nat) (m : List Host.Cell) : List Host.Cell :=
  (KMap.within m (at' + a.1 * 4096) (a.2 * 4096)).filter (fun c =>
    !(s.regions n x).any (fun r => decide (at' + r.1 ≤ c.1 ∧ c.1 < at' + r.1 + r.2.1)))

/-- Base of the spilled bytes of context `x` on flask `n`. -/
def spillAt (n x : Nat) : Nat := (n * 16 + x) * 2 ^ 23

/-- Make the area of a region ready for context `x`: what lies in none of its regions yet is zeroed (R172), and a region that was moved
to DRAM has its bytes again (R194). -/
def State.takeArea (s : State) (n x : Nat) (w : Nat) : State :=
  let a := regionSpan w
  let old := s.outside n x (mouldAt n 0) a s.fab.mould
  let m0 := s.fab.mould.filter (fun c => !old.contains c)
  if s.sch.spilled.any (fun e => e.1 == n && sameRegion e.2 w) then
    let back := s.outside n x (spillAt n x) a s.sch.spill
    { s with fab := { s.fab with mould := KMap.overlay m0 (back.map (fun c => (c.1 - spillAt n x + mouldAt n 0, c.2))) }
             sch := { s.sch with spilled := s.sch.spilled.filter (fun e => !(e.1 == n && sameRegion e.2 w))
                                 spill := s.sch.spill.filter (fun c => !back.contains c) } }
  else { s with fab := { s.fab with mould := m0 } }

/-- Give context `x` a region of flask `n`, unless it has it already; none where the table is full or it would meet another
context's region or stripe ring (R171, R320). -/
def State.addRegion (s : State) (n x : Nat) (r : Nat × Nat × Bool) : Option State :=
  let w := regionWord r.1 r.2.1 x r.2.2
  if (s.regionTable n).any (sameRegion w) then some s
  else if 1536 < r.1 + r.2.1 ∨ s.ringMeets n x (r.1, r.2.1) then none
  else if (s.regionTable n).any (fun v => v / 2 ^ 24 % 16 != x && overlap (regionSpan v) (r.1, r.2.1)) then none
  else match (List.range 16).find? (fun i => !(s.rd (R.FLK_REGION n i)).testBit 29) with
    | none => none
    | some i => some (((s.takeArea n x w).wr (R.FLK_REGION n i) w).mouldUse n)

/-- Give a task its regions, all or none. -/
def State.addRegions (s : State) (n x : Nat) : List (Nat × Nat × Bool) → Option State
  | [] => some s
  | r :: rs => match s.addRegion n x r with
    | none => none
    | some t => t.addRegions n x rs

/-- Region words of the tasks that run on flask `n`. -/
def State.runningWords (s : State) (n : Nat) : List Nat :=
  (s.fab.fets.filter (fun e => e.1 / 4 == n)).foldl (fun a e =>
    match s.pour e.2.pour with
    | none => a
    | some p => match s.pourProg p with
      | none => a
      | some g => a ++ (nth g.tasks e.2.task ⟨0, none, false, false, false, false, []⟩).regions.map (fun r => regionWord r.1 r.2.1 e.2.ctx r.2.2)) []

/-- Move the region of a word to DRAM (R194): its bytes go, its entry is free, and `FLK_MOULD_SPILL` counts it. -/
def State.spillRegion (s : State) (n w : Nat) : State :=
  let x := w / 2 ^ 24 % 16
  let a := regionSpan w
  let cells := (KMap.within s.fab.mould (mouldAt n 0 + a.1 * 4096) (a.2 * 4096)).map (fun c => (c.1 - mouldAt n 0 + spillAt n x, c.2))
  let s1 : State := { s with sch := { s.sch with
    spilled := s.sch.spilled ++ [(n, w)], spill := KMap.overlay (KMap.without s.sch.spill (spillAt n x + a.1 * 4096) (a.2 * 4096)) cells } }
  let s2 := (List.range 16).foldl (fun (s : State) i =>
    if (s.rd (R.FLK_REGION n i)).testBit 29 ∧ sameRegion (s.rd (R.FLK_REGION n i)) w then s.wr (R.FLK_REGION n i) 0 else s) s1
  ((s2.mouldZero n (a.1 * 4096) (a.2 * 4096)).inc (R.FLK_MOULD_SPILL n)).mouldUse n

/-- A region of the table may be moved to DRAM (R194): no task that runs on flask `n` has it, no stop of its context is saved there with
its regions in place, and it is not protected. -/
def State.mayMove (s : State) (n w : Nat) : Bool :=
  !(s.runningWords n).any (sameRegion w) && !w.testBit 28
    && (match s.ctx (w / 2 ^ 24 % 16) with | some c => !c.sections.any (fun k => k.flask == n && k.kind == 0) | none => true)

/-- The regions to move to DRAM so that a region of context `x` finds room on flask `n`: those of other contexts it meets, or with a full
table the first that may go; with each, the regions of its own context that overlap it. -/
def State.spillFor (s : State) (n x : Nat) (r : Nat × Nat × Bool) : List Nat :=
  let ws := s.regionTable n
  let met := ws.filter (fun v => v / 2 ^ 24 % 16 != x && overlap (regionSpan v) (r.1, r.2.1))
  let first := if met = [] then (match ws.find? (s.mayMove n) with | some v => [v] | none => []) else met
  ws.filter (fun v => first.any (fun u => u / 2 ^ 24 % 16 == v / 2 ^ 24 % 16 && overlap (regionSpan u) (regionSpan v)))

/-- Give a task its regions, the FC moving regions of tasks that are not running to DRAM where they need the room (R2, R194). -/
def State.bringRegions (s : State) (n x : Nat) : List (Nat × Nat × Bool) → Option State
  | [] => some s
  | r :: rs =>
    match s.addRegion n x r with
    | some t => t.bringRegions n x rs
    | none =>
      let vs := s.spillFor n x r
      if vs.isEmpty || !vs.all (s.mayMove n) then none
      else match (vs.foldl (fun s v => s.spillRegion n v) s).addRegion n x r with
        | some t => t.bringRegions n x rs
        | none => none

/-- Take the regions of context `x` on flask `n` away; their bytes are zeroed before any other context has them (R172). -/
def State.dropRegions (s : State) (n x : Nat) : State :=
  let t := (List.range 16).foldl (fun s i =>
    let w := s.rd (R.FLK_REGION n i)
    if w.testBit 29 ∧ w / 2 ^ 24 % 16 = x then
      (s.mouldZero n (w % 2048 * 4096) (w / 4096 % 2048 * 4096)).wr (R.FLK_REGION n i) 0
    else s) s
  t.mouldUse n

/-- Forget the regions of context `x` on flask `n`, those in DRAM too. -/
def State.forgetRegions (s : State) (n x : Nat) : State :=
  let s1 := s.dropRegions n x
  { s1 with sch := { s1.sch with spilled := s1.sch.spilled.filter (fun e => !(e.1 == n && e.2 / 2 ^ 24 % 16 == x))
                                 spill := KMap.without s1.sch.spill (spillAt n x) (2 ^ 23) } }

/-! ### Tasks -/

/-- Change task `k` of pour `id`. -/
def State.setTask (s : State) (id k : Nat) (f : TaskSt → TaskSt) : State :=
  match s.pour id with
  | none => s
  | some p => s.setPour { p with tasks := setNth p.tasks k (f (nth p.tasks k {})) }

/-- Push task `k` of pour `p` at the bottom of the deque of flask `n` (R321). -/
def State.pushTask (s : State) (n x id k : Nat) : State :=
  let s1 := s.setTask id k (fun t => { t with st := 1, flask := n })
  { s1 with sch := { s1.sch with deques := s1.sch.deques ++ [(n, x, id, k)] } }

/-- Flasks context `x` runs on now, ascending. -/
def State.runs (s : State) (x : Nat) : List Nat :=
  match s.ctx x with
  | some c => maskList c.running
  | none => []

/-- Quiescing of flask `n` is requested: SCH places no task there (R109). -/
def State.quiesceAsked (s : State) (n : Nat) : Bool :=
  s.bit R.STG_QUIESCE 8 && decide (s.fld R.STG_QUIESCE 0 6 = n)

/-- Flasks SCH may place tasks of context `x` on. -/
def State.placeable (s : State) (x : Nat) : List Nat := (s.runs x).filter (fun n => !s.quiesceAsked n)

/-- Flasks the ready tasks of context `x` are handed to: those SCH may place them on; for a LINE context with none, those of its mask, where
they wait for LINE to claim one (R321, R331). -/
def State.places (s : State) (x : Nat) : List Nat :=
  let ns := s.placeable x
  if ns != [] then ns
  else match s.ctx x with
    | some c => if c.cls = 1 then (maskList c.mask).filter (fun n => s.flasksUsed.contains n && !s.quiesceAsked n) else []
    | none => []

/-- The task is ready when its pour starts (R320, R321): it has no start condition, or one that holds at count 0; a sequence task waits for its
step. -/
def taskAtStart (d : TaskDecl) : Bool :=
  !d.seq && (match d.start with | none => true | some (_, t) => evcReached 0 t.toNat)

/-- The start condition of a task holds on flask `n` (R320). -/
def State.condHolds (s : State) (n : Nat) (d : TaskDecl) : Bool :=
  match d.start with
  | none => true
  | some (c, t) => evcReached (s.evc n c.toNat) t.toNat

/-- Push every task that has become ready on a flask its context runs on (R320, R321). -/
def State.refresh (s : State) : State :=
  s.sch.pours.foldl (fun s p =>
    if p.st ≠ 2 then s
    else match s.pourProg p with
      | none => s
      | some g =>
        (List.range g.tasks.length).foldl (fun s k =>
          let d := nth g.tasks k ⟨0, none, false, false, false, false, []⟩
          if (nth p.tasks k {}).st = 0 ∧ !d.seq ∧ d.start.isSome then
            match (s.placeable p.ctx).find? (fun n => s.condHolds n d) with
            | some n => s.pushTask n p.ctx p.id k
            | none => s
          else s) s) s

/-- Hand the ready tasks of a pour to the flasks of its context, in ascending task number, round-robin (R321). -/
def State.handOut (s : State) (p : Pour) (ks : List Nat) : State :=
  let fl := s.places p.ctx
  if fl = [] then s
  else (List.range ks.length).foldl (fun s i => s.pushTask (nth fl (i % fl.length) 0) p.ctx p.id (nth ks i 0)) s

/-- Tiles the FC allots to the task it places on fettler `f` of flask `n`, as crucible and tile (R261; log 2). -/
def tilesOf (n f : Nat) : List (Nat × Nat) :=
  ((List.range 8).map (fun i => (2 * n + i / 4, i % 4))).filter (fun t => (Config.tileFettler t.1 t.2).toNat == f)

/-- The command that runs on crucible `c` uses tile `i`. -/
def State.tileBusy (s : State) (c i : Nat) : Bool :=
  match (s.cru c).run with | some d => dUsesTile d.words && dfld d.words 0 4 2 == i | none => false

/-- Give the tiles of fettler `f` of flask `n` to an owner; a tile just allotted is INVALID (R261). One that a running command uses is
allotted when that completes (R255). -/
def State.allotTiles (s : State) (n f : Nat) (o : Option (Nat × Nat)) : State :=
  (tilesOf n f).foldl (fun s t =>
    if s.tileBusy t.1 t.2 then s.setTile t.1 t.2 { s.tile t.1 t.2 with stale := true } else s.setTile t.1 t.2 ({ owner := o } : Tile)) s

/-- A tile whose allotment ended during a run goes to the task that is on its fettler now, if any (R255, R261). -/
def State.allotStale (s : State) (c i : Nat) : State :=
  if (s.tile c i).stale then
    s.setTile c i ({ owner := s.tileOwner c i } : Tile)
  else s

/-- Flask `n` has had a task until now, which counts where LINE holds it (R331). -/
def State.lineWas (s : State) (n : Nat) : State :=
  { s with sch := { s.sch with flasks := KMap.adjust s.sch.flasks n (fun k => { k with lineAt := s.now }) } }

/-- The task on fettler `i` leaves it, with its tiles; a flask that LINE holds has had work until now (R331). -/
def State.leave (s : State) (i : Nat) : State := ((s.dropFet i).allotTiles (i / 4) (i % 4) none).lineWas (i / 4)

/-- Fettlers that run a task of pour `id`. -/
def State.fetsOf (s : State) (id : Nat) : List Nat := (s.fab.fets.filter (fun e => e.2.pour == id)).map Prod.fst

/-- Forget the tasks of a pour that wait in deques. -/
def State.clearDeques (s : State) (id : Nat) : State :=
  { s with sch := { s.sch with deques := s.sch.deques.filter (fun d => d.2.2.1 != id) } }

/-! ### Descriptors of a pour -/

/-- Withdraw a crucible's permit request. -/
def State.dropPermit (s : State) (ladle : Bool) (u : Nat) : State :=
  { s with permits := { s.permits with waiting := s.permits.waiting.filter (fun r => !(r.ladle == ladle && r.unit == u)) } }

/-- Remove the descriptors of a pour that have not issued, without running and without a record (R258). -/
def State.dropDescs (s : State) (id : Nat) : State :=
  (s.fab.crus.map Prod.fst).foldl (fun s c =>
    let q := s.cru c
    let s1 := match q.queue with
      | d :: _ => if d.pour = id ∧ d.stage = 1 then s.dropPermit false c else s
      | [] => s
    s1.setCru c { q with queue := q.queue.filter (fun d => d.pour != id) }) s

/-- Bytes from element done on of an aborted transfer are undefined (R192; log 2): free bytes, where the transfer could
have written. -/
def State.lUndefined (s : State) (n : Nat) (d : LDesc) : State :=
  (List.range (lTotal d.words)).foldl (fun s e =>
    if e < d.done then s
    else
      let a := lDst d.words e
      let z := lEsize d.words
      let bs := (List.range z).map (fun i => Config.freeByte s.free (a + i))
      let dk := (lKinds d.words).2
      if dk = 2 then
        (if a < windowBase then (match s.lXlate d.ctx true true a z with | .ok _ => s.vwrite d.ctx 3 a bs | _ => s) else s)
      else
        let m := lSpace n dk (dfld d.words 0 15 5)
        if s.mouldOk m d.ctx a z then s.mwrite m a bs else s) s.fresh

/-- Abort a transfer that has started (Table 9.7): the destination from element done on is undefined, then R193. -/
def State.lAbort (s : State) (n l : Nat) (d : LDesc) (reason cause : Nat) : State :=
  (s.lUndefined n d).lFinish n l d E_LADLE_ABORT reason cause

/-- Abort the started transfers of a pour with reason CANCEL and remove its queued ones (R323, Table 9.7). -/
def State.dropLadles (s : State) (id : Nat) (reason : Nat) : State :=
  (s.fab.ladles.map Prod.fst).foldl (fun s k =>
    let n := k / 2
    let l := k % 2
    let q := s.ladle n l
    let s1 := match q with
      | d :: _ => if d.pour = id ∧ d.state ≠ 0 then (s.dropPermit true k).lAbort n l d reason 0 else s
      | [] => s
    s1.setLadle n l ((s1.ladle n l).filter (fun d => d.pour != id))) s

/-- A command of pour `id` has issued and not completed. -/
def State.cruBusy (s : State) (id : Nat) : Bool :=
  s.fab.crus.any (fun e => match e.2.run with | some d => d.pour == id | none => false)

/-! ### Ends of pours -/

/-- Release the mould regions of context `x` on every flask, once no pour of it runs. -/
def State.releaseRegions (s : State) (x : Nat) : State :=
  if s.sch.pours.any (fun p => p.ctx == x && p.holds) then s
  else (List.range 32).foldl (fun s n => if s.inMask x n then s.forgetRegions n x else s) s

/-- Complete the orders that wait for a pour to end: its `POUR_START`, then any `POUR_CANCEL` that names it (R323, R324,
R348). -/
def State.pourResult (s : State) (p : Pour) : State :=
  let d := match p.banks with | k :: _ => s.digest k p.dres | [] => 0
  let s1 := match s.openOrder 0x41 p.ctx p.tag with
    | some o => s.complete o (if p.cancelled then E_NONE else p.fault) p.ctx (lo32 d) (hi32 d) p.steps
    | none => s
  (s1.host.orders.filter (fun o => o.opcode == 0x42 && o.ctx == p.ctx && o.started && nth o.args 0 0 == p.tag)).foldl
    (fun s o => s.complete o E_NONE p.ctx) s1

/-- What chilled sections hold of pour `id` is dropped (R323, R334); a context with no other pour keeps none. -/
def State.dropSaved (s : State) (p : Pour) : State :=
  let last := !s.sch.pours.any (fun q => q.ctx == p.ctx && q.id != p.id && q.holds)
  let evs := match s.pourProg p with | some g => g.evcs | none => []
  let gates := match s.pourProg p with | some g => g.gates | none => []
  let cut (k : Section) : Section :=
    { k with fets := k.fets.filter (fun e => e.2.pour != p.id)
             queues := k.queues.map (fun q => q.filter (fun d => d.pour != p.id))
             ladles := k.ladles.map (fun q => q.filter (fun d => d.pour != p.id))
             evcs := k.evcs.filter (fun e => !evs.contains e.1)
             gcs := k.gcs.filter (fun e => !gates.contains e.1)
             bars := k.bars.filter (fun e => e.2.pour != p.id)
             tiles := k.tiles.filter (fun e => match e.2.owner with | some o => o.1 != p.id | none => true) }
  match s.ctx p.ctx with
  | none => s
  | some c =>
    if c.sections = [] then s
    else
      let ks := if last then [] else c.sections.map cut
      s.setCtx p.ctx { c with sections := ks, st := if c.st = 4 ∧ ks = [] ∧ !c.held then 1 else c.st }

/-- End a pour that has no command running (R323, R348): its objects are freed, its result is written, and its bank stays
readable until the context's next `POUR_START`. -/
def State.pourEnd (s : State) (p : Pour) : State :=
  let s1 := ((s.dropSaved p).freeSync p).pourResult p
  let s2 := if p.banks = [] ∧ p.replay = false then { s1 with sch := { s1.sch with pours := s1.sch.pours.filter (fun q => q.id != p.id) } }
            else s1.setPour { p with st := 4, tasks := [] }
  s2.releaseRegions p.ctx

/-- A stopping pour ends once its last running command has completed (R324). -/
def State.pourTryEnd (s : State) (id : Nat) : State :=
  match s.pour id with
  | none => s
  | some p => if p.st = 3 ∧ !s.cruBusy id then s.pourEnd p else s

/-- Stop a pour (R323): its tasks stop, its queued descriptors go, its transfers abort. -/
def State.pourStop (s : State) (id : Nat) (reason : Nat := 6) : State :=
  match s.pour id with
  | none => s
  | some p =>
    let s1 := (s.fetsOf id).foldl State.leave s
    let s2 := ((s1.clearDeques id).dropDescs id).dropLadles id reason
    (s2.setPour { p with st := 3 }).pourTryEnd id

/-- Stop a JOB pour for its first fault (R323). -/
def State.pourFault (s : State) (id code : Nat) : State :=
  match s.pour id with
  | none => s
  | some p => (s.setPour { p with fault := if p.fault = 0 then code else p.fault }).pourStop id

/-- Ledger entries of the batch of context `x`'s sequence step (R323). -/
def State.batchOf (s : State) (x : Nat) : List Nat :=
  match KMap.find s.sch.seqs x with
  | some q => if q.busy then q.batch.map (fun e => e.1) else []
  | none => []

/-- Give pieces `UNDECIDED_FAULT` with a cause (R18). -/
def State.faultPieces (s : State) (is : List Nat) (code : Nat) : State := is.foldl (fun s i => s.setCode i 6 code) s

/-- Open pieces of a context's classes that SCH holds: those a stripe task works on (R323). -/
def State.ctxPieces (s : State) (x : Nat) : List Nat := (s.sch.pieces.filter (fun p => p.ctx == x)).map (fun p => p.entry)

/-- A sequence step of context `x` ends faulted (R323): its tasks leave their fettlers and wait for the next step. -/
def State.stepFaulted (s : State) (x id : Nat) : State :=
  match s.pour id with
  | none => s
  | some p =>
    let g := match s.pourProg p with | some h => h.tasks | none => []
    let isSeq (k : Nat) : Bool := (nth g k ⟨0, none, false, false, false, false, []⟩).seq
    let s1 := (s.fab.fets.filter (fun e => e.2.pour == id && isSeq e.2.task)).foldl (fun s e => s.leave e.1) s
    let s2 := { s1 with sch := { s1.sch with
      deques := s1.sch.deques.filter (fun d => !(d.2.2.1 == id && isSeq d.2.2.2))
      seqs := KMap.adjust s1.sch.seqs x (fun q => { q with busy := false, batch := [], commits := [], compare := false }) } }
    s2.setPour { p with tasks := (List.range p.tasks.length).map (fun k =>
      let t := nth p.tasks k {}
      if isSeq k then { t with st := 0 } else t) }

/-- A task ends faulted (R323). In a JOB context its pour ends with the first code. In a LINE context its pieces take
`UNDECIDED_FAULT`; a stripe task starts again from its last committed token, a sequence task ends its step. -/
def State.taskFault (s : State) (id k code : Nat) : State :=
  match s.pour id with
  | none => s
  | some p =>
    match s.ctx p.ctx with
    | none => s
    | some c =>
      if c.cls ≠ 1 then s.pourFault id code
      else
        let d := match s.pourProg p with
          | some g => nth g.tasks k ⟨0, none, false, false, false, false, []⟩
          | none => ⟨0, none, false, false, false, false, []⟩
        if d.seq then (s.faultPieces (s.batchOf p.ctx) code).stepFaulted p.ctx id
        else
          let n := (nth p.tasks k {}).flask
          let s1 := (s.fab.fets.filter (fun e => e.2.pour == id && e.2.task == k)).foldl (fun s e => s.leave e.1) s
          let s2 := { s1 with sch := { s1.sch with deques := s1.sch.deques.filter (fun d => !(d.2.2.1 == id && d.2.2.2 == k)) } }
          let m := if s2.quiesceAsked n then (s2.placeable p.ctx).headD n else n
          (s2.faultPieces (s2.ctxPieces p.ctx) code).pushTask m p.ctx id k

/-- Fault the pours that `sel` picks: JOB pours end with the code, LINE pieces take `UNDECIDED_FAULT`. -/
def State.faultPoursOf (s : State) (sel : Pour → Bool) (code : Nat) : State :=
  (s.sch.pours.filter (fun p => p.holds && sel p)).foldl (fun s p =>
    match s.ctx p.ctx with
    | some c => if c.cls = 1 then ((s.faultPieces (s.batchOf p.ctx) code).stepFaulted p.ctx p.id).faultPieces (s.ctxPieces p.ctx) code
                else s.pourFault p.id code
    | none => s) s

/-- Fault every pour (R471, R458, R475). -/
def State.faultPours (s : State) (code : Nat) : State := s.faultPoursOf (fun _ => true) code

/-- Scramble a mould range whose contents are undefined (R255; log 2). -/
def State.mouldFree (s : State) (n off len : Nat) : State :=
  s.mwrite n off ((List.range len).map (fun i => Config.freeByte s.free (mouldAt n (off + i))))

/-- A hard stop abandons every issued command whole: no record, its tile INVALID, its output ranges undefined (R255). -/
def State.hardStop (s : State) : State :=
  (s.fab.crus.map Prod.fst).foldl (fun s c =>
    match (s.cru c).run with
    | none => s
    | some d =>
      let s1 := (dRanges d.words).2.foldl (fun s r => s.mouldFree (cruFlask c) r.1 r.2) s.fresh
      let i := dfld d.words 0 4 2
      let s2 := s1.setCru c { s1.cru c with run := none }
      if dUsesTile d.words then (s2.setTile c i { (s2.tile c i) with valid := false }).allotStale c i else s2) s

end Sys2Proof.Machine
end

