-- ==== Sys2Proof/Machine/ChillOps.lean ====
section
/-! DEFINITION. JOB contexts on flasks (R325–R334): stops, chills, remelts, failure and the choice of the next context. -/

namespace Sys2Proof.Machine

/-! ### Flasks -/

/-- What SCH does on flask `n`. -/
def State.flask (s : State) (n : Nat) : FlaskSt := KMap.getD s.sch.flasks n {}

/-- Store what SCH does on flask `n`. -/
def State.setFlask (s : State) (n : Nat) (k : FlaskSt) : State :=
  { s with sch := { s.sch with flasks := if k = {} then KMap.del s.sch.flasks n else KMap.put s.sch.flasks n k } }

/-- Flasks that JOB context `x` holds. -/
def State.jobFlasks (s : State) (x : Nat) : List Nat := (s.sch.flasks.filter (fun e => e.2.job == some x)).map Prod.fst

/-- A LINE context runs on the flasks of its mask that no JOB context holds (R318, R331). -/
def State.lineRuns (s : State) : State :=
  let free (n : Nat) : Bool := s.flasksUsed.contains n && (s.flask n).job.isNone
  { s with sch := { s.sch with ctxs := s.sch.ctxs.map (fun e =>
      if e.2.cls = 1 then (e.1, { e.2 with running := maskOf ((maskList e.2.mask).filter free) }) else e) } }

/-- A command of context `x` has issued and not completed. -/
def State.ctxIssued (s : State) (x : Nat) : Bool :=
  s.fab.crus.any (fun e => match e.2.run with | some d => d.ctx == x | none => false)

/-- A command of context `x` has issued on flask `n` and not completed. -/
def State.issuedOn (s : State) (n x : Nat) : Bool :=
  [2 * n, 2 * n + 1].any (fun c => match (s.cru c).run with | some d => d.ctx == x | none => false)

/-- A transfer of context `x` on flask `n` still waits for elements in flight (Table 9.7). -/
def State.draining (s : State) (n x : Nat) : Bool :=
  [0, 1].any (fun l => match s.ladle n l with | d :: _ => d.ctx == x && d.state == 2 | [] => false)

/-- A move from the host tier that an agent of flask `n` waits for is abandoned (R194). -/
def State.dropMoves (s : State) (n x : Nat) : State :=
  let ag : List Agent := ((List.range 4).filterMap (fun f => if h : 4 * n + f < 128 then some (.fettler ⟨4 * n + f, h⟩) else none))
    ++ (if h : n < 32 then [.ladle ⟨n, h⟩ 0, .ladle ⟨n, h⟩ 1] else [])
    ++ ((List.range 2).filterMap (fun c => if h : 2 * n + c < 64 then some (.crucible ⟨2 * n + c, h⟩) else none))
  ag.foldl (fun s g => match s.parkedAt g with
    | some (_, y, _, va) => if y = x then s.stopMove x va else s
    | none => s) s

/-- Flask `n` stops for context `x` (R326): fettlers stop at their interruption points, descriptors not yet issued are taken
back with their permit requests, ladle transfers park (Table 9.7), and moves from the host tier are abandoned. -/
def State.stopFlask (s : State) (n x : Nat) : State :=
  let s1 := [2 * n, 2 * n + 1].foldl (fun s c =>
    match (s.cru c).queue with
    | d :: rest => if d.ctx = x ∧ (d.stage = 1 ∨ d.stage = 4) then
        (s.dropPermit false c).setCru c { s.cru c with queue := { d with stage := 0, pins := [], scales := [] } :: rest } else s
    | [] => s) s
  let s2 := [0, 1].foldl (fun s l =>
    match s.ladle n l with
    | d :: rest =>
      if d.ctx ≠ x then s
      else
        let s1 := s.dropPermit true (2 * n + l)
        if d.state = 1 then s1.lPark n l d none else s1.setLadle n l ({ d with permitWait := false, permit := false } :: rest)
    | [] => s) s1
  s2.dropMoves n x

/-! ### Permit windows -/

/-- The permit window of device time (R337). -/
def State.permitWindow (s : State) : Nat := s.tim.ns / 100000

/-- A new window begins with the full budget; `PWR_PERMIT_USED` shows the last complete window (R337, Table 15.8). -/
def State.rollWindow (s : State) : State :=
  let k := s.permitWindow
  if k = s.permits.window then s
  else ({ s with permits := { s.permits with window := k, used := 0 } }).wr R.PWR_PERMIT_USED
    (if k = s.permits.window + 1 then s.permits.used else 0)

/-- Request `a` is served before request `b` (R337): in order of arrival, ties to the lower crucible ID, then to ladles. -/
def PermitReq.before (a b : PermitReq) : Bool :=
  decide (a.at' < b.at') || (decide (a.at' = b.at') && ((!a.ladle && b.ladle) || (a.ladle == b.ladle && decide (a.unit ≤ b.unit))))

/-- A permit request arrives (R335), and takes its place among those that wait (R337). -/
def State.askPermit (s : State) (ladle : Bool) (u charge : Nat) : State :=
  let r : PermitReq := { ladle := ladle, unit := u, charge := charge, at' := s.now }
  let ws := s.permits.waiting
  { s with permits := { s.permits with waiting := ws.filter (fun q => q.before r) ++ r :: ws.filter (fun q => !q.before r) } }

/-- PMC counts `k` KiB of chill or remelt traffic in the window it occurs in (R335), at the charge of a ladle transfer (R336; log 118). -/
def State.countTraffic (s : State) (k : Nat) : State :=
  let s1 := s.rollWindow
  { s1 with permits := { s1.permits with used := s1.permits.used + k } }

/-! ### Sections -/

/-- Pour `id` belongs to context `x`. -/
def State.pourOf (s : State) (x id : Nat) : Bool := match s.pour id with | some p => p.ctx == x | none => false

/-- Words of the region table of flask `n` that context `x` owns. -/
def State.regionWords (s : State) (n x : Nat) : List Nat :=
  ((List.range 16).map (fun i => s.rd (R.FLK_REGION n i))).filter (fun w => w.testBit 29 && w / 2 ^ 24 % 16 == x)

/-- Cells of mould `n` in the regions of context `x`, by offset. -/
def State.regionCells (s : State) (n x : Nat) : List Host.Cell :=
  ((s.fab.mould.filter (fun c => decide (mouldAt n 0 ≤ c.1 ∧ c.1 < mouldAt (n + 1) 0)))
    |>.filter (fun c => (s.regions n x).any (fun r => decide (mouldAt n r.1 ≤ c.1 ∧ c.1 < mouldAt n (r.1 + r.2.1))))).map
    (fun c => (c.1 - mouldAt n 0, c.2))

/-- An event counter of flask `n` is allocated to a pour of context `x`. -/
def State.evcOf (s : State) (x n c : Nat) : Bool := s.sch.pours.any (fun p => p.ctx == x && s.evcOwned p.id n c)

/-- The section a chill of context `x` on flask `n` writes (R328, Table 15.3). -/
def State.saveSection (s : State) (n x : Nat) (full : Bool) : Section :=
  { flask := n, kind := if full then 1 else 0
    fets := (s.fab.fets.filter (fun e => e.1 / 4 == n && e.2.ctx == x)).map (fun e => (e.1 % 4, e.2))
    queues := [0, 1].map (fun c => ((s.cru (2 * n + c)).queue.filter (fun d => d.ctx == x)).map (fun d =>
      { d with stage := 0, parked := none, pins := [], scales := [] }))
    ladles := [0, 1].map (fun l => ((s.ladle n l).filter (fun d => d.ctx == x)).map (fun d =>
      { d with state := if d.state = 0 then 0 else 3, issued := d.done, permitWait := false, permit := false }))
    evcs := ((List.range 256).filter (s.evcOf x n)).map (fun c => (c, s.evc n c))
    gcs := s.fab.gcs.filter (fun e => s.sch.pours.any (fun p => p.ctx == x && s.gateOwned p.id e.1))
    bars := s.fab.bars.filter (fun e => e.2.ctx == x)
    tiles := (List.range 8).filterMap (fun i =>
      let t := s.tile (2 * n + i / 4) (i % 4)
      match t.owner with
      | some o => if s.pourOf x o.1 then some (i, t) else none
      | none => none)
    regions := s.regionWords n x
    mould := if full then s.regionCells n x else [] }

/-- Context `x` leaves flask `n`: what its section holds is taken off the flask; its regions go with a full chill only (R327,
R172). -/
def State.clearFlask (s : State) (n x : Nat) (full : Bool) : State :=
  let s1 := ((s.fab.fets.filter (fun e => e.1 / 4 == n && e.2.ctx == x)).map Prod.fst).foldl State.dropFet s
  let s2 := [2 * n, 2 * n + 1].foldl (fun s c => s.setCru c { s.cru c with queue := (s.cru c).queue.filter (fun d => d.ctx != x) }) s1
  let s3 := [0, 1].foldl (fun s l => s.setLadle n l ((s.ladle n l).filter (fun d => d.ctx != x))) s2
  let s4 : State := { s3 with fab := { s3.fab with
    evcs := s3.fab.evcs.filter (fun e => !(e.1 / 256 == n && s.evcOf x n (e.1 % 256))) } }
  let s5 := (List.range 8).foldl (fun s i =>
    match (s.tile (2 * n + i / 4) (i % 4)).owner with
    | some o => if s.pourOf x o.1 then s.setTile (2 * n + i / 4) (i % 4) {} else s
    | none => s) s4
  if full then s5.dropRegions n x else s5

/-- Regions a section records: offset, size, protected. -/
def Section.regionList (k : Section) : List (Nat × Nat × Bool) := k.regions.map (fun w => (w % 2048, w / 4096 % 2048, w.testBit 28))

/-- The section's regions stand in flask `n`'s table again (R330); none where they find no room. -/
def State.restoreRegions (s : State) (n x : Nat) (k : Section) : Option State :=
  if k.kind = 0 then some s else s.bringRegions n x k.regionList

/-- Sections as they are remelted (R330): one with its regions in place on its own flask; another on its own if that is among `mine`, else on the
first flask of `ns` that no section is for (DESIGN CHOICE, log 117). -/
def placeSections (mine ns : List Nat) : List Section → List Section → List Section
  | out, [] => out
  | out, k :: ks =>
    let taken := (out ++ ks).map (fun e => e.flask)
    let k1 : Section :=
      if k.kind = 0 ∨ mine.contains k.flask then k
      else match ns.find? (fun n => !taken.contains n) with
        | some n => { k with flask := n }
        | none => k
    placeSections mine ns (out ++ [k1]) ks

/-- The tasks of context `x` on flask `a` go to flask `b`, with their deque. -/
def State.carryTasks (s : State) (x a b : Nat) : State :=
  { s with sch := { s.sch with
      deques := s.sch.deques.map (fun d => if d.1 = a ∧ d.2.1 = x then (b, d.2) else d)
      pours := s.sch.pours.map (fun p => if p.ctx = x then
        { p with tasks := p.tasks.map (fun t => if t.flask = a ∧ t.st ≠ 0 ∧ t.st ≠ 3 then { t with flask := b } else t) } else p) } }

/-- Give sections of context `x` the flasks they are remelted on: it has `mine`, and may take `ns` (R330). -/
def State.retarget (s : State) (x : Nat) (mine ns : List Nat) : State :=
  match s.ctx x with
  | none => s
  | some c =>
    let ks := placeSections mine ns [] c.sections
    let moved := (c.sections.zip ks).filter (fun e => e.1.flask != e.2.flask)
    moved.foldl (fun s e => s.carryTasks x e.1.flask e.2.flask) (s.setCtx x { c with sections := ks })

/-- A parked transfer at the head of a ladle translates element done afresh (Table 9.7): it resumes, or waits on the fault it meets; an
unresolvable one meets it as it runs. -/
def State.lAgain (s : State) (n l : Nat) : State :=
  match s.ladle n l with
  | [] => s
  | d :: rest =>
    if d.state ≠ 3 then s
    else
      let w := d.words
      let z := lEsize w
      let side (kind a : Nat) (wr : Bool) : XRes :=
        if kind ≠ 2 ∨ windowBase ≤ a ∨ inChain a then .ok 0 else s.lXlate d.ctx wr true a z
      let r := if lFill w then XRes.ok 0 else side (lKinds w).1 (lSrc w d.done) false
      match r, side (lKinds w).2 (lDst w d.done) true with
      | .park c va, _ => (s.setLadle n l ({ d with cause := some (c, va) } :: rest)).startMove d.ctx c va
      | .ok _, .park c va => (s.setLadle n l ({ d with cause := some (c, va) } :: rest)).startMove d.ctx c va
      | _, _ => s.setLadle n l ({ d with state := 1, cause := none } :: rest)

/-- Identity CSRs of a task on fettler `i` as the FC loads them, afresh at a remelt (R242, R251). -/
def Fet.place (f : Fet) (i : Nat) : Fet := (f.wc 0x030 (BitVec.ofNat 64 (i / 4))).wc 0x031 (BitVec.ofNat 64 (i % 4))

/-- Put a section back on flask `n` (R328): a restart section's tasks begin again from their committed tokens (R334); an instruction that
waited on a fault is executed again from its start (R250); an event counter has its saved value, with what tasks of the context on
other flasks added since (R176; log 101). -/
def State.restoreSection (s : State) (n x : Nat) (k : Section) : State :=
  let s1 := k.fets.foldl (fun s e =>
    if k.kind = 2 then s.pushTask n x e.2.pour e.2.task
    else s.setFet (4 * n + e.1) (({ e.2 with wait := match e.2.wait with | .park _ _ => .none | w => w } : Fet).place (4 * n + e.1))) s
  let s2 := [0, 1].foldl (fun s c => s.setCru (2 * n + c) { s.cru (2 * n + c) with
    queue := (s.cru (2 * n + c)).queue ++ nth k.queues c [] }) s1
  let s3 := [0, 1].foldl (fun s l => (s.setLadle n l (s.ladle n l ++ nth k.ladles l [])).lAgain n l) s2
  let s4 := k.evcs.foldl (fun s e => s.evcAdd n e.1 e.2) s3
  let s5 := k.tiles.foldl (fun s e => s.setTile (2 * n + e.1 / 4) (e.1 % 4) e.2) s4
  let alone := (match s.ctx x with | some c => c.running == 0 | none => false)
  { s5 with fab := { s5.fab with
    mould := k.mould.foldl (fun m c => Mem.write m (mouldAt n c.1) c.2) s5.fab.mould
    gcs := if alone then KMap.overlay s5.fab.gcs k.gcs else s5.fab.gcs
    bars := if alone then KMap.overlay s5.fab.bars k.bars else s5.fab.bars } }

/-- KiB a section's chill writes (Table 15.3). -/
def Section.kib (k : Section) : Nat :=
  64 + 128 * k.tiles.length + (if k.kind = 1 then k.regions.foldl (fun a w => a + w / 4096 % 2048 * 4) 0 else 0)

/-- KiB of a context's chill image: header and sections (Table 15.3). -/
def Ctx.imageKib (c : Ctx) : Nat := 64 + c.sections.foldl (fun a k => a + k.kib) 0

/-! ### Ends of a chill -/

/-- The context has a pour that is not over (R324). -/
def State.hasPours (s : State) (x : Nat) : Bool := s.sch.pours.any (fun p => p.ctx == x && p.holds)

/-- The chill of context `x` is over once no flask holds it and, for one held by order, no section is left resident: it is
CHILLED, or READY with nothing saved, and its `CTX_CHILL` orders complete with the image size (R330). -/
def State.chillDone (s : State) (x : Nat) : State :=
  match s.ctx x with
  | none => s
  | some c =>
    if s.jobFlasks x ≠ [] ∨ c.st = 6 ∨ (c.held ∧ c.sections.any (fun k => k.kind == 0)) then s
    else
      let c1 : Ctx := { c with st := if c.held ∨ c.sections ≠ [] then 4 else 1, image := c.imageKib }
      let s1 := s.setCtx x c1
      (s1.host.orders.filter (fun o => o.opcode == 0x43 && o.ctx == x && o.started)).foldl
        (fun s o => s.complete o E_NONE x c1.image) s1

/-- Stop context `x` on every flask it holds, for a full chill; a remelt in progress stops and leaves its sections, and a core chill in
progress completes and is then upgraded (R330, R334). -/
def State.chillAll (s : State) (x : Nat) : State :=
  match s.ctx x with
  | none => s
  | some c =>
    let s1 := (s.jobFlasks x).foldl (fun s n =>
      let k := s.flask n
      if k.phase = 3 ∧ c.sections.any (fun e => e.flask == n) then s.setFlask n { k with job := none, phase := 0 }
      else if k.phase = 0 ∨ k.phase = 3 then (s.setFlask n { k with phase := 1, full := true }).stopFlask n x
      else s) s
    let c1 : Ctx := { c with held := true, st := 3, running := maskOf (s1.jobFlasks x) }
    (s1.setCtx x c1).chillDone x

/-! ### Failure and removal -/

/-- Flasks on which context `x` is stopping or being chilled. -/
def State.chilling (s : State) (x : Nat) : List Nat := (s.jobFlasks x).filter (fun n => (s.flask n).phase == 1 || (s.flask n).phase == 2)

/-- Let go of every section of context `x`, and of every flask where no chill of it is under way: that completes first (R334). -/
def State.releaseFlasks (s : State) (x : Nat) : State :=
  let s1 := ((s.jobFlasks x).filter (fun n => !(s.chilling x).contains n)).foldl (fun s n =>
    s.setFlask n { s.flask n with job := none, phase := 0, full := false }) s
  match s1.ctx x with
  | none => s1
  | some c => s1.setCtx x { c with running := 0, sections := [] }

/-- Stop every pour of context `x`, with a code (R324, R88); pours that only wait are forgotten, kept banks are freed. -/
def State.stopPours (s : State) (x code : Nat) : State :=
  let ps := s.sch.pours.filter (fun p => p.ctx == x)
  let s1 := ps.foldl (fun s p =>
    if p.st = 2 then (s.setPour { p with fault := code }).pourStop p.id
    else if p.st = 3 then s
    else
      let s1 := (if p.st = 1 then s.freeSync p else s).dropBanks p.banks
      { s1 with sch := { s1.sch with pours := s1.sch.pours.filter (fun q => q.id != p.id) } }) s
  s1

/-- Context `x` fails with a code (R88, Table 9.3): its open orders complete with it, its pours stop and its flasks are free. -/
def State.ctxFail (s : State) (x code : Nat) : State :=
  match s.ctx x with
  | none => s
  | some _ =>
    let s1 := ((s.completeCtx x code none).stopPours x code).releaseFlasks x
    match s1.ctx x with
    | none => s1
    | some c => (s1.setCtx x { c with st := 6, code := code, held := false }).lineRuns

/-- Remove context `x`: its chill image, its pages and its regions go (R324, R329). -/
def State.ctxRemove (s : State) (x : Nat) : State :=
  let s1 := (List.range 32).foldl (fun s n => s.forgetRegions n x) (s.releaseFlasks x)
  { s1 with
    sch := { s1.sch with ctxs := KMap.del s1.sch.ctxs x, progs := s1.sch.progs.filter (fun p => p.ctx != x)
                         pours := s1.sch.pours.filter (fun p => p.ctx != x) }
    fab := { s1.fab with pt4 := s1.fab.pt4.filter (fun e => e.1 / 2 ^ 36 != x), pt2 := s1.fab.pt2.filter (fun e => e.1 / 2 ^ 27 != x)
                         banks := s1.fab.banks.filter (fun b => match KMap.find s1.fab.bankOwner b.1 with | some o => o.1 != x | none => true)
                         bankOwner := s1.fab.bankOwner.filter (fun b => b.2.1 != x) }
    chain := { s1.chain with grants := s1.chain.grants.filter (fun g => g.ctx != x) }
    host := { s1.host with bar2 := s1.host.bar2.filter (fun b => b.2.ctx != x) } }

/-- A destroyed context goes once its last running command has completed (R324), and every chill of it (R334). -/
def State.destroyCheck (s : State) (x : Nat) : State :=
  match s.host.orders.find? (fun o => o.opcode == 6 && o.started && nth o.args 0 0 % 16 == x) with
  | none => s
  | some o => if s.ctxIssued x || s.chilling x != [] then s else (s.ctxRemove x).complete o E_NONE x

/-- The instant to which slices and debts are charged: while SCH is absent, that of its reset (Table 22.2). -/
def State.schNow (s : State) : Nat :=
  if s.schUp then s.now else match KMap.find s.dbg.fw 2 with | some f => f.resets.getLast?.getD s.now | none => s.now

/-- The overrun of a slice ends with the last running command of its context: it is added to the debt (R326). -/
def State.overrunCheck (s : State) (x : Nat) : State :=
  match s.ctx x with
  | none => s
  | some c =>
    match c.endedAt with
    | none => s
    | some t =>
      if s.ctxIssued x then s
      else
        let past := s.schNow - t
        (s.setCtx x { c with debt := c.debt + past, endedAt := none }).trace 0x05 2 (x + past % 2 ^ 32 * 2 ^ 32)

/-- What waits for a command of context `x` to complete. -/
def State.cruFree (s : State) (x : Nat) : State := (s.overrunCheck x).destroyCheck x

/-! ### The next context -/

/-- Context `x` has a ready task: one in a deque or on a flask, one ready from the start that no flask has yet, or a step of a replay pour
that still has a piece to take. -/
def State.jobWork (s : State) (x : Nat) : Bool :=
  s.sch.pours.any (fun p => p.ctx == x && p.st == 2 &&
    (match s.pourProg p with
     | none => false
     | some g => (List.range p.tasks.length).any (fun k =>
         let t := nth p.tasks k {}
         let d := nth g.tasks k ⟨0, none, false, false, false, false, []⟩
         t.st == 1 || t.st == 2 || t.st == 5 || (t.st == 0 && (taskAtStart d || (d.seq && p.replay && p.pieces.any (fun r => decide (r.fed < r.tokens))))))))

/-- Flasks of a JOB context's mask that are its to use: in use, held by no JOB context and not claimed by LINE (R318). -/
def State.jobFree (s : State) (c : Ctx) : List Nat :=
  (maskList c.mask).filter (fun n => s.flasksUsed.contains n && (s.flask n).job.isNone && (s.flask n).line.isNone)

/-- A JOB context may be selected: READY or CHILLED and not held, with a ready task, with no flask of its mask held by another
JOB context (R325), and with a flask to run on. -/
def State.candidate (s : State) (x : Nat) (c : Ctx) : Bool :=
  c.cls == 2 && (c.st == 1 || (c.st == 4 && !c.held)) && s.jobWork x
    && s.sch.flasks.all (fun e => !(e.2.job.isSome && c.mask.toNat.testBit e.1)) && !(s.jobFree c).isEmpty
    && (c.sections.isEmpty || c.sections.any (fun k => k.kind != 0 || (s.jobFree c).contains k.flask))

/-- The better of two candidates: higher priority first; among equals, round-robin after the context that ran last (R325). -/
def State.prefer (s : State) (a b : Nat × Ctx) : Bool :=
  let after (e : Nat × Ctx) : Nat :=
    let last := KMap.getD s.sch.lastRan e.2.prio 0
    if last < e.1 then e.1 - last else e.1 + 16 - last
  decide (b.2.prio < a.2.prio) || (decide (a.2.prio = b.2.prio) && decide (after a < after b))

/-- A context of higher priority has a ready task, so that one of priority `prio` does not run (R325): one that has not failed, that no order
holds, and that is not passed over in this round (log 117). -/
def State.outranked (s : State) (prio : Nat) (skip : List Nat) : Bool :=
  s.sch.ctxs.any (fun e => e.2.cls == 2 && decide (prio < e.2.prio) && e.2.st != 6 && !e.2.held && !skip.contains e.1 && s.jobWork e.1)

/-- The candidate to select, but for those in `skip`. -/
def State.pick (s : State) (skip : List Nat) : Option (Nat × Ctx) :=
  (s.sch.ctxs.filter (fun e => !skip.contains e.1 && s.candidate e.1 e.2 && !s.outranked e.2.prio skip)).foldl (fun a e =>
    match a with | none => some e | some b => if s.prefer e b then some e else some b) none

/-- Hand the ready tasks of a context's pours that no flask has yet to its flasks (R321). -/
def State.handOutAll (s : State) (x : Nat) : State :=
  (s.sch.pours.filter (fun p => p.ctx == x && p.st == 2)).foldl (fun s p =>
    match s.pourProg p with
    | none => s
    | some g => s.handOut p ((List.range g.tasks.length).filter (fun k =>
        let d := nth g.tasks k ⟨0, none, false, false, false, false, []⟩
        (nth p.tasks k {}).st == 0 && taskAtStart d))) s

/-- Number of hops between two flasks in the 8 × 4 mesh (R173). -/
def hops (a b : Nat) : Nat :=
  ((a % 8 : Int) - b % 8).natAbs + ((a / 8 : Int) - b / 8).natAbs

/-- The pour's program is twin (R353). -/
def twinProg (g : Program) : Bool := match g.seq with | some q => q.twin | none => false

/-- Flasks of set A, or set B, of a twin pour (R353); all of them where the pour is not twin. -/
def State.setFlasks (s : State) (x : Nat) (twin b : Bool) : List Nat :=
  match s.ctx x with
  | none => []
  | some c =>
    let ns := maskList c.mask
    if !twin then ns else if b then (ns.drop (ns.length / 2)).take (ns.length / 2) else ns.take (ns.length / 2)

/-- The flask a task discarded on flask `n` is placed on again (R480, R481): a stripe task, or one marked bound, on its own; another on
the nearest of its context, ties to the lower index (R322), with an FC that runs. -/
def State.replaceOn (s : State) (x n : Nat) (twin : Bool) (d : TaskDecl) : Option Nat :=
  let ok (m : Nat) : Bool := (s.placeable x).contains m && decide (s.fwState (3 + m) = 1)
  let own := if ok n then some n else none
  if d.stripe || d.bound then own
  else
    let ms := (s.placeable x).filter (fun m => decide (m ≠ n) && ok m && (!(d.seq && twin) || (s.setFlasks x true d.setB).contains m))
    match ms.foldl (fun (b : Option Nat) m =>
        match b with | none => some m | some k => if hops n m < hops n k then some m else b) none with
    | some m => some m
    | none => own

/-- SCH places the tasks that an FC's reset discarded, where it can (R480, R483). -/
def State.placeWaiting (s : State) : State :=
  if !s.schUp then s
  else s.sch.pours.foldl (fun s p =>
    match (if p.st = 2 then s.pourProg p else none) with
    | none => s
    | some g => (List.range p.tasks.length).foldl (fun s k =>
        let t := nth p.tasks k {}
        if t.st ≠ 5 then s
        else match s.replaceOn p.ctx t.flask (twinProg g) (nth g.tasks k ⟨0, none, false, false, false, false, []⟩) with
          | some m => s.pushTask m p.ctx p.id k
          | none => s) s) s

/-- Context `x` runs: its slice starts (R325). -/
def State.ctxRun (s : State) (x : Nat) : State :=
  match s.ctx x with
  | none => s
  | some c =>
    let s1 := (s.jobFlasks x).foldl (fun s n => s.setFlask n { s.flask n with phase := 0 }) s
    let s2 := s1.setCtx x { c with st := 2, running := maskOf (s1.jobFlasks x), sliceAt := s1.now }
    let s3 : State := { s2 with sch := { s2.sch with lastRan := KMap.put s2.sch.lastRan c.prio x } }
    let s4 := ((s3.handOutAll x).refresh).placeWaiting
    (s4.host.orders.filter (fun o => o.opcode == 0x44 && o.ctx == x && o.started)).foldl (fun s o => s.complete o E_NONE x) s4

/-- Give a selected context its flasks: with nothing saved it runs at once, else its sections are remelted (R330). -/
def State.place (s0 : State) (x : Nat) (c0 : Ctx) : State :=
  let ns := s0.jobFree c0
  let s := s0.retarget x ns ns
  let c := (s.ctx x).getD c0
  let back := c.sections.filter (fun k => ns.contains k.flask)
  let s1 := ns.foldl (fun s n => s.setFlask n { s.flask n with job := some x, phase := if back.isEmpty then 0 else 3, full := false }) s
  let c1 : Ctx := { c with st := 5, debt := 0, granted := c.slice * 1000 - c.debt }
  let s2 := (s1.setCtx x c1).lineRuns
  if back.isEmpty then s2.ctxRun x else s2

/-- SCH selects JOB contexts for the flasks that are free (R325): a context whose debt is not less than its slice is passed
over, its debt falling by one slice (R326). -/
def State.selectJobs (s : State) : Nat → List Nat → State
  | 0, _ => s
  | k + 1, skip =>
    match s.pick skip with
    | none => s
    | some (x, c) =>
      if c.slice * 1000 ≤ c.debt then
        (s.setCtx x { c with debt := c.debt - c.slice * 1000 }).selectJobs k (x :: skip)
      else (s.place x c).selectJobs k skip

/-- Select JOB contexts, while SCH runs (R484). -/
def State.schedule (s : State) : State := if s.schUp then s.selectJobs 16 [] else s

/-- The regions of the work that comes to flask `n` fit beside those of the context that leaves it (R327): those of a full
section to be remelted there, or of every task of a context with nothing saved. -/
def State.incomingFits (s : State) (n x : Nat) : Bool :=
  let s1 := match s.ctx x with | some c => s.setCtx x { c with st := 3 } | none => s
  let s2 := s1.setFlask n {}
  match s2.pick [x] with
  | none => true
  | some (y, c) =>
    match c.sections.find? (fun k => k.flask == n) with
    | some k => k.kind == 0 || (s.addRegions n y k.regionList).isSome
    | none =>
      if c.mask.toNat.testBit n then
        ((s.sch.pours.filter (fun p => p.ctx == y && p.st == 2)).foldl (fun (a : Option State) p =>
          match a, s.pourProg p with
          | some t, some g => g.tasks.foldl (fun (b : Option State) d => match b with | some u => u.addRegions n y d.regions | none => none) (some t)
          | b, _ => b) (some s)).isSome
      else true

end Sys2Proof.Machine
end

