-- ==== Sys2Proof/Machine/SeqOps.lean ====
section
/-! DEFINITION. Ends of sequence steps (R305, R311–R314, R354) and the commit of a task's digests (R347). -/

namespace Sys2Proof.Machine

/-- Piece SCH holds for ledger entry `i`. -/
def State.piece (s : State) (i : Nat) : Option Piece := s.sch.pieces.find? (fun p => p.entry == i)

/-- Change the piece of entry `i`. -/
def State.setPiece (s : State) (i : Nat) (f : Piece → Piece) : State :=
  { s with sch := { s.sch with pieces := s.sch.pieces.map (fun p => if p.entry = i then f p else p) } }

/-- Queue a report to line control (R305). -/
def State.report (s : State) (p : Piece) (kind step : Nat) : State :=
  let r : Report := { entry := p.entry, serial := p.serial, kind := kind, step := step, what := (p.cls, p.gen, p.lead) }
  { s with sch := { s.sch with reports := s.sch.reports ++ [r] } }

/-- Declared piece slots of the program of context `x`'s sequence pour (R349). -/
def State.slotsOf (s : State) (x : Nat) : List Nat :=
  match s.sch.pours.find? (fun p => p.ctx == x && p.holds && (match s.pourProg p with | some g => g.seq.isSome | none => false)) with
  | none => []
  | some p => match s.pourProg p with | some g => g.pieceSlots | none => []

/-- Summary digest pd (R349). -/
def pieceDigest (slots ds : List Nat) : Nat :=
  ((List.range (min 8 slots.length)).foldl (fun a k => a + kcg (nth ds k 0) 0 0xFFFE k) 0) % 2 ^ 128

/-- A piece leaves the batch as of step `st` (R305): its returns are pending, and line control receives its digests
(R349). -/
def State.pieceLeave (s : State) (p : Piece) (st : Nat) : State :=
  let slots := s.slotsOf p.ctx
  let twin := match KMap.find s.line.ledger p.entry with | some e => e.twin | none => false
  let s1 := (s.report p 2 st).setPiece p.entry (fun q => { q with st := 4 })
  let s2 := { s1 with sch := { s1.sch with pendRet := s1.sch.pendRet ++ [(p, st)] } }
  match s2.entry p.entry with
  | some e => if e.serial = p.serial then
      s2.setEntry p.entry { e with digA := p.dA, digB := if twin then p.dB else [], pd := pieceDigest slots p.dA } else s2
  | none => s2

/-- First of the numbers the pieces of a replay pour go by in its batches, since they take no ledger entry (R352). -/
def replayBase : Nat := 2 ^ 60

/-- The replay pour of context `x` that runs (R352). -/
def State.replayPour (s : State) (x : Nat) : Option Pour := s.sch.pours.find? (fun p => p.ctx == x && p.st == 2 && p.replay)

/-- A step of the replay pour of context `x` has ended (R352): its piece has gone on; with the last piece through, the pour ends. -/
def State.replayEnd (s : State) (x : Nat) (batch : List (Nat × Nat × Nat)) : State :=
  match s.replayPour x with
  | none => s
  | some p =>
    let went (k : Nat) (r : RePiece) : RePiece :=
      match batch.find? (fun e => e.1 == replayBase + k) with
      | some e => { r with fed := e.2.1 + e.2.2 }
      | none => r
    let q : Pour := { p with pieces := p.pieces.mapIdx went }
    if q.pieces.all (fun r => decide (r.tokens ≤ r.fed)) then (s.setPour q).pourEnd q else s.setPour q

/-- The end of a sequence step of context `x` (R312, R313): tokens processed are counted, a piece whose final token was
in the batch is DONE, may hand over its outputs, and leaves in this step. -/
def State.stepEnd (s : State) (x : Nat) : State :=
  match KMap.find s.sch.seqs x with
  | none => s
  | some q =>
    let s1 := q.batch.foldl (fun s e =>
      match s.piece e.1 with
      | none => s
      | some p =>
        let tok := e.2.1 + e.2.2
        let s1 := s.setPiece e.1 (fun r => { r with tokens := tok, taken := 0, st := if r.st = 1 then 2 else r.st })
        if p.voided then s1
        else match p.total with
          | none => s1
          | some tot => if tot ≤ tok then
              let s2 := ({ s1 with sch := { s1.sch with handoffs := s1.sch.handoffs ++ [(e.1, p.serial)] } } : State).setPiece e.1 (fun r => { r with st := 3 })
              (match s2.piece e.1 with | some r => s2.pieceLeave r q.step | none => s2)
            else s1) s
    let q' : SeqSt := { q with busy := false, step := (q.step + 1) % 2 ^ 64, batch := [], commits := [], compare := false,
                               last := q.batch.foldl (fun a e => a + e.2.2) 0 }
    State.replayEnd { s1 with sch := { s1.sch with seqs := KMap.put s1.sch.seqs x q' } } x q.batch

/-- A sequence task of pour `id` has ended: once every task of the step has, the step ends, or in twin pour waits for its
comparison (R312, R354); while SCH is absent it stays in progress (R484). -/
def State.seqTaskDone (s : State) (x id : Nat) : State :=
  match s.pour id with
  | none => s
  | some p =>
    match s.pourProg p with
    | none => s
    | some g =>
      let seqTasks := (List.range g.tasks.length).filter (fun k => (nth g.tasks k ⟨0, none, false, false, false, false, []⟩).seq)
      let fin (b : Bool) : Bool := seqTasks.all (fun k => (nth p.tasks k {}).st == 3 ||
        (nth g.tasks k ⟨0, none, false, false, false, false, []⟩).setB != b)
      let ended := fin true && fin false
      if !ended then
        (if fin true || fin false then
          { s with sch := { s.sch with seqs := KMap.adjust s.sch.seqs x (fun q =>
              if q.commits = [] then { q with commits := [s.now] } else q) } } else s)
      else
        let s1 := s.setPour { p with steps := p.steps + 1 }
        let twin := match g.seq with | some q => q.twin | none => false
        if twin then
          { s1 with sch := { s1.sch with seqs := KMap.adjust s1.sch.seqs x (fun q => { q with compare := true, commits := q.commits ++ [s.now] }) } }
        else if s1.schUp then s1.stepEnd x else s1

/-- Add a task's pending digest sums to its bank and its pieces, and clear them (R347, R349). The marks of a replay pour number its pieces in
the order of its table (log 116). -/
def State.commitDigests (s : State) (f : Fet) (setB : Bool) : State :=
  match s.pour f.pour with
  | none => s
  | some p =>
    let slots := match s.pourProg p with | some g => g.pieceSlots | none => []
    f.pend.foldl (fun s e =>
      if e.1 < 256 then
        match (if setB then nth (p.banks.map some) 1 none else nth (p.banks.map some) 0 none) with
        | none => s
        | some k =>
          let b := KMap.getD s.fab.banks k []
          { s with fab := { s.fab with banks := KMap.put s.fab.banks k (KMap.put b e.1 ((KMap.getD b e.1 0 + e.2) % 2 ^ 128)) } }
      else
        let i := e.1 / 256 - 1
        match slots.findIdx? (fun r => r == e.1 % 256) with
        | none => s
        | some k =>
          let add (ds : List Nat) : List Nat := setNth ds k ((nth ds k 0 + e.2) % 2 ^ 128)
          if p.replay then
            let sum (r : RePiece) : RePiece := if setB then { r with dB := add r.dB } else { r with dA := add r.dA }
            match s.pour f.pour with
            | some q => s.setPour { q with pieces := q.pieces.modify i sum }
            | none => s
          else s.setPiece i (fun q => if setB then { q with dB := add q.dB } else { q with dA := add q.dA })) s

/-- The declaration of task `k` of pour `id`. -/
def State.taskDecl (s : State) (id k : Nat) : Option TaskDecl :=
  match s.pour id with
  | none => none
  | some p => match s.pourProg p with
    | none => none
    | some g => g.tasks[k]?

/-- Commit token `tok` of the task on fettler `i` (R241, R347). -/
def State.commit (s : State) (i : Nat) (f : Fet) (tok : Nat) : State :=
  let setB := match s.taskDecl f.pour f.task with | some d => d.setB | none => false
  let s1 := (s.commitDigests f setB).setTask f.pour f.task (fun t => { t with token := tok })
  (s1.setFet i { f with pend := [], tickets := [], token := some tok }).trace 0x11 (3 + i / 4) (f.task % 128 + tok % 2 ^ 56 * 256)

/-- The task on fettler `i` is done (R241): it leaves; a sequence task may end its step; a JOB pour ends with its last
task (R348). -/
def State.taskDone (s : State) (i : Nat) (f : Fet) : State :=
  let seq := match s.taskDecl f.pour f.task with | some d => d.seq | none => false
  let s1 := (s.leave i).setTask f.pour f.task (fun t => { t with st := 3 })
  if seq then s1.seqTaskDone f.ctx f.pour
  else match s1.pour f.pour, s1.ctx f.ctx with
    | some p, some c => if c.cls = 2 ∧ p.tasks.all (fun t => t.st == 3) then s1.pourEnd p else s1
    | _, _ => s1

end Sys2Proof.Machine
end

