-- ==== Sys2Proof/Machine/Operands.lean ====
section
/-! DEFINITION. Fettler registers, instruction words and the frame every fettler instruction runs in: fetch, traps,
waits and retirement (R217–R222, R248–R250). -/

namespace Sys2Proof.Machine

/-! ### Registers -/

/-- X[n]; x0 reads 0 (R217). -/
def Fet.rx (f : Fet) (n : BitVec 5) : W64 := if n = 0 then 0 else KMap.getD f.x n.toNat 0

/-- Write x[n]; a write to x0 is discarded (R217). -/
def Fet.wx (f : Fet) (n : BitVec 5) (v : W64) : Fet := if n = 0 then f else { f with x := KMap.put f.x n.toNat v }

/-- V[n]. -/
def Fet.rv (f : Fet) (n : BitVec 5) : BitVec 512 := KMap.getD f.v n.toNat 0

/-- Write v[n]. -/
def Fet.wv (f : Fet) (n : BitVec 5) (v : BitVec 512) : Fet := { f with v := KMap.put f.v n.toNat v }

/-- P[n]; p0 reads all ones (R217). -/
def Fet.rp (f : Fet) (n : Nat) : W64 := if n = 0 then BitVec.allOnes 64 else KMap.getD f.p n 0

/-- Write P[n]; a write to p0 is discarded (R217). -/
def Fet.wp (f : Fet) (n : Nat) (v : W64) : Fet := if n = 0 then f else { f with p := KMap.put f.p n v }

/-- A stored CSR (Table 11.7). -/
def Fet.rc (f : Fet) (i : Nat) : W64 := KMap.getD f.csr i 0

/-- Set sticky bits of FFLAGS (R231). -/
def Fet.flag (f : Fet) (bits : Nat) : Fet := f.wc 0 (f.rc 0 ||| BitVec.ofNat 64 (bits % 32))

/-! ### Instruction words (Table 11.1) -/

/-- A word of a class from its fields. -/
def fword (cls d a b f : Nat) : Nat := cls % 32 * 2 ^ 27 + d % 32 * 2 ^ 22 + a % 32 * 2 ^ 17 + b % 32 * 2 ^ 12 + f % 4096

/-- A word with a 17-bit immediate. -/
def fwordImm (cls d a imm : Nat) : Nat := cls % 32 * 2 ^ 27 + d % 32 * 2 ^ 22 + a % 32 * 2 ^ 17 + imm % 2 ^ 17

/-! ### Running an instruction -/

/-- What the effect of an instruction comes to. -/
inductive FRes where
  /-- It retires: the state beside the fettler, the fettler with its results. -/
  | ok (s : State) (f : Fet)
  /-- It retires and the next pc is not the following word. -/
  | jump (s : State) (f : Fet) (pc : BitVec 48)
  /-- It traps: cause, sub-cause, TVAL (Table 11.9). -/
  | trap (cause sub tval : Nat)
  /-- It waits inside itself (R250). -/
  | wait (s : State) (f : Fet) (w : WaitOp)
  /-- Its task has left the fettler. -/
  | ended (s : State)

/-- The fabric of the device runs: Cuette is not held, no power-fail sequence has stopped it (R475), and its clocks are not
gated as in S1 (Table 21.1). -/
def State.fabricUp (s : State) : Bool := s.running && decide (s.pwr.state = 0)

/-- Flask `n` is being emptied of context `x`: its fettlers have stopped (R326, R331). -/
def State.stopped (s : State) (n x : Nat) : Bool :=
  match KMap.find s.sch.flasks n with
  | none => false
  | some k => k.job == some x && decide (k.phase ≠ 0)

/-- Fettler `i` takes a trap (R248): EPC, CAUSE and TVAL are written, and it continues at TVEC or, with no handler or with
inh set, its task ends faulted (R249). -/
def State.fetTrap (s : State) (i : Nat) (f : Fet) (cause sub tval : Nat) : State :=
  let old := f.rc 0x22
  let low := BitVec.ofNat 64 (cause % 256 + sub % 256 * 256)
  let handled := f.rc 0x20 ≠ 0 ∧ old.getLsbD 63 = false
  let f1 := ((f.wc 0x21 (f.pc.setWidth 64)).wc 0x22
    ((if handled then 0x8000000000000000#64 else old &&& 0x8000000000000000#64) ||| low)).wc 0x23 (BitVec.ofNat 64 tval)
  if handled then s.setFet i { f1 with pc := (f.rc 0x20).setWidth 48, wait := .none }
  else
    ((s.setFet i f1).raise E_FETTLER_TRAP { w2 := some i, w3 := some (low.toNat % 65536), w4 := some (lo32 f.pc.toNat),
                                            w5 := some (lo32 tval) } f.ctx).taskFault f.pour f.task E_FETTLER_TRAP

/-- Retire an instruction of `len` bytes (R242). -/
def State.retire (s : State) (i : Nat) (f : Fet) (pc : BitVec 48) : State :=
  let s1 := s.setFet i { f with pc := pc, wait := .none }
  { s1 with fab := { s1.fab with instret := KMap.put s1.fab.instret i (KMap.getD s1.fab.instret i 0 + 1) } }

/-- Park fettler `i` on a resolvable translation fault (R185). -/
def State.fetPark (s : State) (i : Nat) (f : Fet) (cause va : Nat) : State :=
  (s.setFet i { f with wait := .park cause va }).startMove f.ctx cause va

/-- Apply what an instruction of `len` bytes came to. -/
def State.fetApply (s : State) (i : Nat) (f : Fet) (len : Nat) (r : FRes) : State :=
  match r with
  | .ok t g => t.retire i g (f.pc + BitVec.ofNat 48 len)
  | .jump t g pc => t.retire i g pc
  | .trap c sub tval => s.fetTrap i f c sub tval
  | .wait t g w => t.setFet i { g with wait := w }
  | .ended t => t

/-- Fetch `len` bytes at the pc and run an instruction: `legal` says its unused fields are 0 and its codes not reserved
(R221), `word` is the word an ILLEGAL trap reports (R219, R221). A fetch from a poisoned line is an uncorrectable read (R182; log 103). -/
def State.fetExec (s : State) (i : Nat) (f : Fet) (word len : Nat) (legal : Bool) (body : State → Fet → FRes) : State :=
  let pc := f.pc.toNat
  if pc % 4 ≠ 0 then s.fetTrap i f 2 0 pc
  else match s.xlateAll f.ctx false false 1 pc len with
    | .park c va => s.fetPark i f c va
    | .fault c va => (s.xlateFault (i / 4) f.ctx).fetTrap i f 5 c va
    | .ok _ =>
      match s.poisonedIn f.ctx pc len with
      | some l => (s.memUncorr l 1 f.ctx (i / 4)).fetTrap i f 6 0 pc
      | none => if legal then s.fetApply i f len (body s f) else s.fetTrap i f 1 0 word

/-- A fettler command: fettler `i` runs the instruction at its pc, whose fields the command carries; with no task, a wait
in progress or a stop in force it does nothing (R250; log 16). -/
def fetRun (t i word : Nat) (legal : Bool) (body : State → Fet → FRes) (s : State) : Host.Outcome State Fault Refusal :=
  let s1 := s.at' t
  match s1.fet i with
  | none => done s1
  | some f =>
    if !s1.fabricUp || f.wait != .none || s1.stopped (i / 4) f.ctx then done s1
    else done (s1.fetExec i f word 4 legal body)

/-- An instruction that only writes registers. -/
def regOnly (g : Fet → Fet) (s : State) (f : Fet) : FRes := .ok s (g f)

end Sys2Proof.Machine
end

