-- ==== Sys2Proof/Machine/Crucible.lean ====
section
/-! DEFINITION. Crucible commands: descriptor load, permits, the runs of every type, and completion (R252–R278,
R335–R338). -/

namespace Sys2Proof.Machine

/-! ### Load -/

/-- The device lets crucibles work: Cuette runs and no hard stop is in force (R255, R471, R466). -/
def State.crucibleUp (s : State) : Bool := s.running && decide (s.pwr.state = 0) && !s.pwr.crucibleStop

/-- The fields allow a cost (Table 12.13): the type and its operation exist, and so do the element sizes Table 12.12 takes. -/
def costDefined (w : List Nat) : Bool :=
  let t := dType w
  let a := (tref w 2).fmt != 0
  let b := (tref w 4).fmt != 0
  if t = 0 ∨ 9 < t then false
  else if t = 4 then dOp w == 0 || (dOp w != 3 && a)
  else if t = 5 then dOp w != 3 && a && (dOp w != 0 || b)
  else if t = 6 then a
  else if t = 7 ∨ t = 8 then decide (dfld w 8 10 4 ≤ 12) && dfld w 10 0 11 != 0
  else if t = 9 then a && b
  else true

/-- Cost a record reports: computed even on refusal where the fields allow it (Table 12.13), else open (log 2). -/
def recCost (w : List Nat) : Nat := if costDefined w then dCost w else (Config.undefCost w).toNat

/-- Write the completion record of a descriptor (Table 12.13), unless its range fails (R275). -/
def State.cruRecord (s : State) (n : Nat) (d : CDesc) (code reason status cycles cost sat : Nat) : State :=
  let a := dfld d.words 1 0 23
  if s.mouldOk n d.ctx a 32 then
    let w0 := code % 65536 + reason % 256 * 65536 + dType d.words * 2 ^ 24
    (List.range 8).foldl (fun s i =>
      s.mnumW n (a + 4 * i) (nth [w0, nth d.words 15 0, lo32 status, hi32 status, cycles, cost, sat, d.ticket] i 0) 4) s
  else s

/-- The event of a code other than `E_NONE`, at most once per crucible and code in a millisecond (R278). -/
def State.cruEvent (s : State) (c : Nat) (d : CDesc) (code reason cost : Nat) : State :=
  if code = 0 then s
  else s.raiseLim code c ms { w2 := some c, w3 := some (reason % 256 + dType d.words * 256), w4 := some (nth d.words 15 0),
                              w5 := some cost } d.ctx

/-- The head of crucible `c` leaves the queue. -/
def State.cruPop (s : State) (c : Nat) : State :=
  let q := s.cru c
  s.setCru c { q with queue := q.queue.drop 1 }

/-- Report a descriptor's end in the order of R275: record, event counter, ticket; then its event. `ok`: its ticket counts as
completed. -/
def State.cruReport (s : State) (c : Nat) (d : CDesc) (code reason status cycles cost sat : Nat) (ok : Bool) : State :=
  let n := cruFlask c
  let s1 := s.cruRecord n d code reason status cycles cost sat
  let s2 := if dfld d.words 0 7 1 = 1 then s1.evcDone d.pour n (dfld d.words 0 8 8) else s1
  (s2.settleTicket d.pour d.task 0 (c % 2) d.ticket ok).cruEvent c d code reason cost

/-- What the fetch of a list of virtual ranges meets first (R185, R256): nothing, a resolvable fault, an unresolvable one. -/
def State.fetchRes (s : State) (x : Nat) : List (Nat × Nat) → Option XRes
  | [] => none
  | (a, len) :: l =>
    match s.xlateAll x false true (len / 4096 + 2) a len with
    | .ok _ => s.fetchRes x l
    | r => some r

/-- The first poisoned line in a list of virtual ranges (R182). -/
def State.fetchPoison (s : State) (x : Nat) (l : List (Nat × Nat)) : Option Nat :=
  (l.filterMap (fun r => s.poisonedIn x r.1 r.2)).head?

/-- Any page of the ranges is protected (R187). -/
def State.fetchProt (s : State) (x : Nat) (l : List (Nat × Nat)) : Bool :=
  l.any (fun r => (List.range ((r.1 % 4096 + r.2 + 4095) / 4096)).any (fun i =>
    match s.leaf x (r.1 - r.1 % 4096 + 4096 * i) with | some (p, _) => p.prot | none => false))

/-- Refuse or abort a descriptor that has not run (R254). -/
def State.cruRefuse (s : State) (c : Nat) (d : CDesc) (code reason : Nat) : State :=
  (s.cruReport c d code reason 0 0 (recCost d.words) 0 false).cruPop c

/-- Abort in fetch: the record, then the task ends faulted (R256, Table 9.3). -/
def State.cruAbort (s : State) (c : Nat) (d : CDesc) (code reason : Nat) : State :=
  (s.cruRefuse c d code reason).taskFault d.pour d.task code

/-- Fetch meets a failure at the head of crucible `c`: it waits on a resolvable fault, or aborts (R256). -/
def State.cruFetchFail (s : State) (c : Nat) (d : CDesc) (r : XRes) : State :=
  match r with
  | .park k va => (s.setHead c { d with parked := some (k, va) }).startMove d.ctx k va
  | .fault k _ => ((s.countXlate (cruFlask c) false).raise E_XLATE_FAULT {} d.ctx).cruAbort c d E_XLATE_FAULT k
  | .ok _ => s

/-- Factor of a crucible command's charge (R336). -/
def chargeFactor (q : Nat) : Nat := if q = 1 then 3 else if q = 8 then 5 else 4


/-- The stage region of descriptor `d` meets that of the command running before it (R253). -/
def State.stageClash (s : State) (c : Nat) (d es : List Nat) : Bool :=
  match (s.cru c).run with
  | none => false
  | some r => (dStageRange d es).any (overlap (dfld r.words 12 0 23, r.stageLen))

/-- Load is over for the descriptor at the head: its permit is requested, once the command before it has completed (R252, R274). -/
def State.cruAsk (s : State) (c : Nat) (d : CDesc) : State :=
  if (s.cru c).run.isSome then s.setHead c { d with stage := 4 }
  else (s.setHead c { d with stage := 1, askedAt := s.now }).askPermit false c (chargeFactor (dRate d.words) * dCost d.words)

/-- The fetch of a descriptor at the head of crucible `c` from the ranges `rs`, with page list `es` (R256): its bytes come to the stage
region, its pages are pinned (R186), and its column scales are read (R267). -/
def State.cruFetch (s : State) (c : Nat) (d : CDesc) (es : List Nat) (rs : List (Nat × Nat)) (e : LineErr) : State :=
  let n := cruFlask c
  let w := d.words
  let st := dStageRange w es
  let d1 : CDesc := { d with parked := none, pins := rs, stageLen := st.foldl (fun a r => a + r.2) 0
                             scales := if dType w = 6 ∧ (tref w 2).fmt ≠ 15 then s.dScales n w else [] }
  if rs = [] then s.cruAsk c d1
  else
    let s1 := ((s.lookUp n (rs.foldl (fun a r => a + pagesOf r.1 r.2) 0)).recvBytes n (rs.foldl (fun a r => a + r.2) 0)).stageAll n d.ctx w es
    let s2 := (s1.linesOf d.ctx (nth rs 0 (0, 0)).1 1).foldl (fun s l => s.countCorr l e) s1
    let s3 := if e.wrongWord then (st.foldl (fun s r => s.mouldFree n r.1 r.2) s2).fresh else s2
    (if s.fetchProt d.ctx rs then st.foldl (fun s r => s.protect n d.ctx r.1 r.2) s3 else s3).cruAsk c d1

/-- Load the descriptor at the head of crucible `c` (R252): checks, cost, fetch into the stage region, and the permit
request. `e`: what the codes find in the first line the fetch reads. -/
def State.cruLoad (s : State) (c : Nat) (d : CDesc) (e : LineErr) : State :=
  let n := cruFlask c
  let w := d.words
  let es := s.pageList n d.ctx w
  let reason := s.dReason n d.ctx c w es d.pour d.task
  if reason ≠ 0 then s.cruRefuse c d E_DESC_FIELD reason
  else if 50000 < dCost w then s.cruRefuse c d E_DESC_COST 0
  else
    let rs := fetchRanges w es
    if s.stageClash c w es then s
    else match s.fetchRes d.ctx rs with
      | some r => s.cruFetchFail c d r
      | none =>
        match (if e.bad then (s.linesOf d.ctx (nth rs 0 (0, 0)).1 (b2n (rs != []))).head? else s.fetchPoison d.ctx rs) with
        | some line => (s.memUncorr line 0 d.ctx n).cruAbort c d E_MEM_UNCORR 0
        | none => s.cruFetch c d es rs e

/-- A descriptor at the head of crucible `c` is loaded (R252); it may be while the command before it runs. -/
def execDescriptorLoad (t : Nat) (c : Fin 64) (e : LineErr) (s : State) : Host.Outcome State Fault Refusal :=
  let s1 := s.at' t
  match (s1.cru c).queue with
  | [] => done s1
  | d :: _ =>
    if !s1.crucibleUp || d.stage != 0 || d.parked.isSome || s1.stopped (cruFlask c) d.ctx then done s1
    else done (s1.cruLoad c d e)

/-! ### Permits -/

/-- The permit budget in force: the safe budget while PMC is absent (R337, R338). -/
def State.permitBudget (s : State) : Nat := if s.pmcUp then s.rd R.PWR_PERMIT_BUDGET else 6500000

/-- A 100 µs window of device time begins (R337). -/
def execPermitWindow (t : Nat) (s : State) : Host.Outcome State Fault Refusal := done (s.at' t).rollWindow

/-- Give a permit: a crucible's head issues; a ladle may go on (R252, R190). -/
def State.permitTo (s : State) (r : PermitReq) : State :=
  if r.ladle then
    match s.ladle (r.unit / 2) (r.unit % 2) with
    | d :: l => s.setLadle (r.unit / 2) (r.unit % 2) ({ d with permit := true, permitWait := false } :: l)
    | [] => s
  else match (s.cru r.unit).queue with
    | d :: _ => if d.stage = 1 then (s.cruPop r.unit).setRun r.unit (some { d with stage := 2 }) else s
    | [] => s

/-- Crucible grants of the preceding 100 ns (R337). -/
def State.recentGrants (s : State) : List Nat := s.permits.recent.filter (fun k => decide (s.now < k + 100))

/-- PMC grants the oldest request when its charge fits the window and, for a crucible, the start rate allows (R337). -/
def execPermitGrant (t : Nat) (s : State) : Host.Outcome State Fault Refusal :=
  let s1 := (s.at' t).rollWindow
  match s1.permits.waiting with
  | [] => done s1
  | r :: rest =>
    let rec' := s1.recentGrants
    if !s1.crucibleUp || s1.permitBudget < s1.permits.used + r.charge then done s1
    else if !r.ladle ∧ 8 ≤ rec'.length then
      done { s1 with permits := { s1.permits with waiting := { r with rated := true } :: rest } }
    else
      let s2 := { s1 with permits := { s1.permits with waiting := rest, used := s1.permits.used + r.charge,
                                                       recent := if r.ladle then rec' else rec' ++ [s1.now] } }
      let s3 := if r.at' < s2.now then
          (s2.inc R.PWR_PERMIT_WAITS).wr64 R.PWR_PERMIT_WAIT_NS (s2.rd64 R.PWR_PERMIT_WAIT_NS + (s2.now - r.at')) else s2
      let s4 := if r.rated then s3.inc R.PWR_PERMIT_RATE else s3
      let s5 := if r.at' + 10000 < s4.now then
          s4.trace 0x21 1 ((if r.ladle then 0x7F else r.unit) + (s4.now - r.at') * 2 ^ 32) else s4
      done (s5.permitTo r)

/-! ### Runs -/

/-- Run the issued head of crucible `c` if it is of type `ty` and satisfies `sel`; else nothing is issued there to run. -/
def runType (t : Nat) (c : Fin 64) (ty : Nat) (sel : List Nat → Bool) (run : State → CDesc → State) (s : State) :
    Host.Outcome State Fault Refusal :=
  let s1 := s.at' t
  match s1.issued c with
  | none => done s1
  | some d => if s1.crucibleUp && dType d.words == ty && sel d.words then done (run s1 d) else done s1

/-- Outputs of a command that copies from a protected source are protected (R450). -/
def State.protectOut (s : State) (c : Nat) (d : CDesc) : State :=
  let n := cruFlask c
  if (dRanges d.words).1.any (fun r => s.mouldProt n d.ctx r.1 r.2) then
    (dRanges d.words).2.foldl (fun s r => s.protect n d.ctx r.1 r.2) s
  else s

/-- `MMA` (R262). -/
def execMma (t : Nat) (c : Fin 64) (s : State) : Host.Outcome State Fault Refusal :=
  runType t c 1 (fun _ => true) (fun s d => s.runAccum c d 0 (s.mmaTerms (cruFlask c) d.words)) s

/-- `CONV` (R263). -/
def execConv (t : Nat) (c : Fin 64) (s : State) : Host.Outcome State Fault Refusal :=
  runType t c 2 (fun _ => true) (fun s d => s.runAccum c d 0 (s.convTerms c d.words)) s

/-- `DWCONV` (R264). -/
def execDwconv (t : Nat) (c : Fin 64) (s : State) : Host.Outcome State Fault Refusal :=
  runType t c 3 (fun _ => true) (fun s d => s.runAccum c d 0 (s.dwTerms c d.words)) s

/-- `POOL` SUM (R265). -/
def execPoolSum (t : Nat) (c : Fin 64) (s : State) : Host.Outcome State Fault Refusal :=
  runType t c 4 (fun w => dOp w == 0) (fun s d => s.runAccum c d 0 (s.poolTerms c d.words)) s

/-- `POOL` MAX (R265). -/
def execPoolMax (t : Nat) (c : Fin 64) (s : State) : Host.Outcome State Fault Refusal :=
  runType t c 4 (fun w => dOp w == 1) (fun s d => (s.runPick c d true).protectOut c d) s

/-- `POOL` MIN (R265). -/
def execPoolMin (t : Nat) (c : Fin 64) (s : State) : Host.Outcome State Fault Refusal :=
  runType t c 4 (fun w => dOp w == 2) (fun s d => (s.runPick c d false).protectOut c d) s

/-- `EWISE` MUL (R266). -/
def execEwiseMul (t : Nat) (c : Fin 64) (s : State) : Host.Outcome State Fault Refusal :=
  runType t c 5 (fun w => dOp w == 0) (fun s d => s.runEwise c d 0) s

/-- `EWISE` ADD (R266). -/
def execEwiseAdd (t : Nat) (c : Fin 64) (s : State) : Host.Outcome State Fault Refusal :=
  runType t c 5 (fun w => dOp w == 1) (fun s d => s.runEwise c d 1) s

/-- `EWISE` QADD (R266). -/
def execEwiseQadd (t : Nat) (c : Fin 64) (s : State) : Host.Outcome State Fault Refusal :=
  runType t c 5 (fun w => dOp w == 2) (fun s d => s.runEwise c d 2) s

/-- `ACCMOVE` (R267). -/
def execAccmove (t : Nat) (c : Fin 64) (s : State) : Host.Outcome State Fault Refusal :=
  runType t c 6 (fun _ => true) (fun s d => s.runDrain c d) s

/-- `ATTN_QK` (R269). -/
def execAttnQk (t : Nat) (c : Fin 64) (s : State) : Host.Outcome State Fault Refusal :=
  runType t c 7 (fun _ => true) (fun s d => s.runAccum c d 0 (s.qkTerms c d.words)) s

/-- `ATTN_PV` (R270). -/
def execAttnPv (t : Nat) (c : Fin 64) (s : State) : Host.Outcome State Fault Refusal :=
  runType t c 8 (fun _ => true) (fun s d => s.runAccum c d 0 (s.pvTerms c d.words)) s

/-- `LAYOUT` (R271). -/
def execLayout (t : Nat) (c : Fin 64) (s : State) : Host.Outcome State Fault Refusal :=
  runType t c 9 (fun _ => true) (fun s d => (s.runLayout c d).protectOut c d) s

/-! ### Completion -/

/-- Crucible `c` is free: a tile that waited is allotted, and a descriptor loaded meanwhile requests its permit (R252, R255). -/
def State.cruIdle (s : State) (c : Nat) (d : CDesc) : State :=
  let s1 := s.setRun c none
  let s2 := if dUsesTile d.words then s1.allotStale c (dfld d.words 0 4 2) else s1
  match (s2.cru c).queue with
  | e :: _ => if e.stage = 4 then s2.cruAsk c e else s2
  | [] => s2

/-- The command that ran on crucible `c` completes (R275, R277): `cycles` is what it took, at most its cost (R255). -/
def State.cruComplete (s : State) (c : Nat) (d : CDesc) (cycles : Nat) : State :=
  let cost := dCost d.words
  let s1 := (s.cruReport c d d.code 0 d.status (min cycles cost) cost d.sat true).cruIdle c d
  let s2 := if d.code = E_ACC_RANGE ∧ dfld d.words 0 16 1 = 1 then s1.taskFault d.pour d.task E_ACC_RANGE else s1
  s2.pourTryEnd d.pour

/-- A crucible command completes (R275). -/
def execCrucibleComplete (t : Nat) (c : Fin 64) (cycles : W32) (s : State) : Host.Outcome State Fault Refusal :=
  let s1 := s.at' t
  match (s1.cru c).run with
  | none => done s1
  | some d => if d.stage = 3 then done ((s1.cruComplete c d cycles.toNat).cruFree d.ctx) else done s1

end Sys2Proof.Machine
end

