-- ==== Sys2Proof/Machine/Ladle.lean ====
section
/-! DEFINITION. Ladle transfers (R189–R193), resolution of translation faults (R185), patrol scrub (R182) and poisoned
TLPs (R74). -/

namespace Sys2Proof.Machine

/-- Bytes still to move. -/
def LDesc.left (d : LDesc) : Nat := (lTotal d.words - d.done) * lEsize d.words

/-- Code a started transfer's abort faults its task with: E_MEM_UNCORR for reason MEM, else E_LADLE_ABORT (R323). -/
def abortCode (reason : Nat) : Nat := if reason = 4 then E_MEM_UNCORR else E_LADLE_ABORT

/-- A started transfer aborts (Table 9.7): what the fault itself reports, the undefined rest, R193, and its task ends
faulted (R323). -/
def State.lStop (s : State) (n l : Nat) (d : LDesc) (reason cause : Nat) (line : Option Nat) : State :=
  let s1 := match line with
    | some k => s.memUncorr k 2 d.ctx n
    | none => if reason = 3 then s.xlateFault n d.ctx else s
  let s2 := (s1.lAbort n l d reason cause).lPop n l
  s2.taskFault d.pour d.task (abortCode reason)

/-- Element `e` may be issued: with it, at most 32 KiB are in flight (R190). -/
def LDesc.roomFor (d : LDesc) (e : Nat) : Bool := decide ((e + 1 - d.done) * lEsize d.words ≤ 32768)

/-- Issue up to `k` elements of the transfer at the head, in index order, each written whole before it is counted (R190);
`err` is an error the codes meet on the way. Answers the state and whether the transfer still runs. -/
def State.lIssue (s : State) (n l : Nat) (err : Option LadleErr) : Nat → LDesc → State × Bool
  | 0, d => (match s.ladle n l with | _ :: rest => s.setLadle n l (d :: rest) | [] => s, true)
  | k + 1, d =>
    let e := max d.done d.issued
    if lTotal d.words ≤ e ∨ !d.roomFor e then (match s.ladle n l with | _ :: rest => s.setLadle n l (d :: rest) | [] => s, true)
    else match s.lMove n l d.ticket d.ctx d.words e err with
      | .sent t => t.lIssue n l err k { d with issued := e + 1 }
      | .written t =>
        let t1 := t.wr64 (R.FLK_LADLE_BYTES n l) (t.rd64 (R.FLK_LADLE_BYTES n l) + lEsize d.words)
        t1.lIssue n l err k { d with done := d.done + 1 }
      | .park c va => (s.lPark n l d (some (c, va)), false)
      | .abort r c line => (s.lStop n l d r c line, false)

/-- A transfer needs a permit before it goes on: more than 1 MiB is left and none has been given (R190, R335). -/
def LDesc.needsPermit (d : LDesc) : Bool := decide (2 ^ 20 < d.left) && !d.permit

/-- The descriptor at the head of ladle `l` of flask `n` starts, or goes on: it requests a permit if more than 1 MiB is to
move, else issues `k` elements (R190). -/
def execLadleDescriptorStart (t : Nat) (n : Fin 32) (l : Fin 2) (k : Nat) (err : Option LadleErr) (s : State) :
    Host.Outcome State Fault Refusal :=
  let s1 := s.at' t
  match s1.ladle n l with
  | [] => done s1
  | d :: rest =>
    if !s1.fabricUp || s1.stopped n d.ctx || decide (2 ≤ d.state) || d.permitWait then done s1
    else if d.needsPermit then
      done ((s1.setLadle n l ({ d with permitWait := true, askedAt := s1.now } :: rest)).askPermit true (2 * n + l) (ceilDiv d.left 1024))
    else done (s1.lIssue n l err k { d with state := 1 }).1

/-- A running transfer moves its last elements and completes, or meets a fault on the way (R193); into a chain window it
completes once every element has been acknowledged (R432). -/
def execLadleComplete (t : Nat) (n : Fin 32) (l : Fin 2) (err : Option LadleErr) (s : State) : Host.Outcome State Fault Refusal :=
  let s1 := s.at' t
  match s1.ladle n l with
  | [] => done s1
  | d :: _ =>
    if !s1.fabricUp || s1.stopped n d.ctx || d.state != 1 || d.needsPermit then done s1
    else
      let r := s1.lIssue n l err (lTotal d.words - d.done) d
      if r.2 then
        match r.1.ladle n l with
        | e :: _ => if e.done < lTotal e.words then done r.1 else done ((r.1.lFinish n l e E_NONE 0 0).lPop n l)
        | [] => done r.1
      else done r.1

/-! ### Translation faults -/

/-- No leaf but the one that maps `va` of context `x` uses DRAM at `[f, f + len)`. -/
def State.frameFree (s : State) (key2 key4 f len : Nat) : Bool :=
  s.fab.pt2.all (fun e => e.1 == key2 || !e.2.inDram || !overlap (e.2.frame, 2 ^ 21) (f, len))
    && s.fab.pt4.all (fun e => e.1 == key4 || !e.2.inDram || !overlap (e.2.frame, 2 ^ 12) (f, len))

/-- Move `len` bytes into DRAM at `f` (R194). -/
def moveBytes (src dst : Mem) (a f len : Nat) : Mem :=
  KMap.overlay (Mem.zero dst f len) ((KMap.within src a len).map (fun c => (c.1 - a + f, c.2)))

/-- First byte past what contexts use of device memory (R178). -/
def dramEnd : Nat := 126976 * 2 ^ 20

/-- The page that maps `va` in context `x` is brought to DRAM frame `f`: from the host tier, or at the end of a move
(R185, R194); a page that another agent's fault has brought there stays where it is. None where the leaf is in no state to resolve, or
the frame is in use or not for contexts. -/
def State.bringPage (s : State) (x va f : Nat) : Option State :=
  let k2 := x * 2 ^ 27 + va / 2 ^ 21
  let k4 := x * 2 ^ 36 + va / 2 ^ 12
  let go (p : Pte) (len : Nat) : Option (Pte × List Host.Cell) :=
    if p.tier = 0 then some (p, s.fab.dram)
    else if p.tier = 3 ∨ f % len ≠ 0 ∨ dramEnd < f + len ∨ !s.frameFree k2 k4 f len then none
    else some ({ p with tier := 0, frame := f, back := false },
      if p.onHost then moveBytes s.hostMem s.fab.dram (s.rd64 R.MEM_HOST_TIER_BASE + p.frame) f len
      else moveBytes s.fab.dram s.fab.dram p.frame f len)
  match KMap.find s.fab.pt2 k2 with
  | some p => (go p (2 ^ 21)).map (fun q => { s with fab := { s.fab with pt2 := KMap.put s.fab.pt2 k2 q.1, dram := q.2 } })
  | none => match KMap.find s.fab.pt4 k4 with
    | none => none
    | some p => (go p (2 ^ 12)).map (fun q => { s with fab := { s.fab with pt4 := KMap.put s.fab.pt4 k4 q.1, dram := q.2 } })

/-- A command pins a page of context `x` that meets `len` bytes from `va` (R186). -/
def State.pinned (s : State) (x va len : Nat) : Bool :=
  let holds (d : CDesc) : Bool := d.ctx == x && d.pins.any (fun r => overlap (r.1 - r.1 % 4096, r.1 % 4096 + r.2) (va, len))
  s.fab.crus.any (fun e => e.2.queue.any holds || (match e.2.run with | some d => holds d | none => false))

/-- Free 2 MiB frames of device memory that contexts use, lowest first. -/
def State.freeFrames (s : State) : List Nat :=
  (List.range 63488).filter (fun f =>
    !(s.fab.pt2.any (fun e => e.2.inDram && e.2.frame / 2 ^ 21 == f)) && !(s.fab.pt4.any (fun e => e.2.inDram && e.2.frame / 2 ^ 21 == f)))

/-- The lowest free frame of the host tier, as an offset in it (R194). -/
def State.tierFree (s : State) : Option Nat :=
  (List.range (s.rd R.MEM_HOST_TIER_SIZE / 2)).findSome? (fun i =>
    if s.fab.pt2.any (fun e => e.2.onHost && e.2.frame / 2 ^ 21 == i) then none else some (i * 2 ^ 21))

/-- Move the 2 MiB page of JOB context `y` at `va` to the host tier, to make room for another (R194): only where device memory has no
free frame, the tier has one, and no command pins the page. None where it may not go. -/
def State.sendOut (s : State) (y va : Nat) : Option State :=
  let k := y * 2 ^ 27 + va / 2 ^ 21
  match KMap.find s.fab.pt2 k, s.tierFree with
  | some p, some f =>
    let job := match s.ctx y with | some c => c.cls == 2 | none => false
    if !job || !p.inDram || p.prot || s.pinned y (va - va % 2 ^ 21) (2 ^ 21) || !s.attached || !s.freeFrames.isEmpty then none
    else some { s with hostMem := moveBytes s.fab.dram s.hostMem p.frame (s.rd64 R.MEM_HOST_TIER_BASE + f) (2 ^ 21)
                       fab := { s.fab with pt2 := KMap.put s.fab.pt2 k { p with tier := 1, frame := f }
                                           dram := Mem.zero s.fab.dram p.frame (2 ^ 21) } }
  | _, _ => none

/-- The parked agent goes on: a fettler runs its instruction again, a ladle resumes at element done, a crucible's
descriptor is loaded again (R185, Table 9.7). A ladle of a context that is being stopped stays parked. -/
def State.unpark (s : State) (g : Agent) : State :=
  match g with
  | .fettler i => match s.fet i with
    | some f => s.setFet i { f with wait := .none }
    | none => s
  | .ladle n l => match s.ladle n l with
    | d :: rest => if s.stopped n d.ctx then s else s.setLadle n l ({ d with state := 1, issued := d.done, cause := none } :: rest)
    | [] => s
  | .crucible c => match (s.cru c).queue with
    | d :: _ => s.setHead c { d with parked := none }
    | [] => s

/-- A resolvable translation fault is resolved, its page in the DRAM frame named, and the parked agent resumes (R185). A page of a JOB
context goes to the host tier first, where one is named and device memory has no free frame (R194). -/
def execXlateFaultResolved (t : Nat) (g : Agent) (m : PageMove) (s : State) : Host.Outcome State Fault Refusal :=
  let s1 := s.at' t
  match s1.parkedAt g with
  | none => done s1
  | some (n, x, cause, va) =>
    match (match m.out with | none => some s1 | some o => s1.sendOut o.1 o.2) with
    | none => done s1
    | some s2 =>
      match s2.bringPage x va m.frame with
      | none => done s1
      | some s3 => done (((s3.countXlate n true).unpark g).trace 0x12 (3 + n) (va % 2 ^ 48 + cause * 2 ^ 48))

/-! ### Scrub and poisoned TLPs -/

/-- Lines of device memory: 127,100 MiB in lines of 256 bytes (R178). -/
def memLines : Nat := 520601600

/-- Patrol scrub reads a line (R182): within the guarantee it is corrected and written back; a line it finds uncorrectable, or that is
poisoned already, is uncorrectable under R181 and stands in the poison map. -/
def execScrubLine (t : Nat) (line : Nat) (e : LineErr) (s : State) : Host.Outcome State Fault Refusal :=
  let s0 := s.at' t
  if !s0.running || memLines ≤ line then done s0
  else
    let s1 := (({ s0 with fab := { s0.fab with scrub := line } }).wr R.MEM_SCRUB_POS (line * 65536 / memLines))
    let s2 := if line + 1 = memLines then s1.inc R.MEM_SCRUB_PASSES else s1
    if s0.fab.poison.contains line ∨ e.bad then
      let ps := if s2.fab.poison.contains line then s2.fab.poison
                else s2.fab.poison.filter (fun k => decide (k < line)) ++ line :: s2.fab.poison.filter (fun k => decide (line < k))
      let s3 := ({ s2 with fab := { s2.fab with poison := ps } }).wr R.MEM_POISONED ps.length
      done (s3.memUncorr line 5 0 0)
    else
      done ((s2.countCorr line e).miscorrect line e)

/-- The read of host memory an agent waits for is lost to an uncorrectable error (R74, Table 9.3): a ladle's transfer aborts with reason
MEM, a crucible's fetch aborts, a fettler traps; a page that was on its way from the host tier stays there. -/
def State.hostReadBad (s : State) (g : Agent) : State :=
  match g with
  | .ladle n l =>
    match s.ladle n l with
    | d :: _ =>
      if (d.state = 1 ∨ d.state = 2) ∧ s.lHost d.ctx d.words d.done then s.lStop n l d 4 0 none
      else match s.parkedAt g with
        | some (_, x, _, va) => if s.moving x va then (s.stopMove x va).lStop n l d 4 0 none else s
        | none => s
    | [] => s
  | .crucible c =>
    match (s.cru c).queue, s.parkedAt g with
    | d :: _, some (_, x, _, va) => if s.moving x va then (s.stopMove x va).cruAbort c d E_MEM_UNCORR 0 else s
    | _, _ => s
  | .fettler i =>
    match s.fet i, s.parkedAt g with
    | some f, some (_, x, _, va) => if s.moving x va then (s.stopMove x va).fetTrap i f 6 0 va else s
    | _, _ => s

/-- A poisoned TLP is discarded; the transfer it carried, a read of host memory for the agent named, is aborted as an uncorrectable
error (R74). -/
def execPoisonedTlpReceived (t : Nat) (g : Option Agent) (s : State) : Host.Outcome State Fault Refusal :=
  let s1 := s.at' t
  match g with
  | none => done s1
  | some a => done (s1.hostReadBad a)

end Sys2Proof.Machine
end

