-- ==== Sys2Proof/Machine/Time.lean ====
section
/-! DEFINITION. Device time (chapter Time): the servo, steps, masters, the pulse per second and chain time. -/

namespace Sys2Proof.Machine

/-- `TIM_CFG.src` (Table 19.8). -/
def State.timSrc (s : State) : Nat := s.fld R.TIM_CFG 0 2

/-- Servo state (Table 19.2): 0 FREE, 1 ACQUIRING, 2 LOCKED, 3 HOLDOVER, 4 REFUSED. -/
def State.servo (s : State) : Nat := s.fld R.TIM_STAT 0 3

/-- Mean of f over the last 1 s of LOCKED, or the f in force where none was noted (Table 19.2). -/
def Tim.meanFreq (m : Tim) : Int :=
  if m.freqs = [] then m.freq else (m.freqs.foldl (fun (a : Int) (x : Nat × Int) => a + x.2) 0).tdiv m.freqs.length

/-- Store the frequency adjustment in force. -/
def State.setFreq (s : State) (f : Int) : State :=
  ({ s with tim := { s.tim with freq := f } }).wr R.TIM_FREQ (wrapI f 32)

/-- Enter a servo state: the sum and the runs of samples start anew; FREE runs at f = 0, HOLDOVER and REFUSED freeze f at
its mean (Table 19.2). -/
def State.enterServo (s : State) (st : Nat) : State :=
  let s1 := s.setFld R.TIM_STAT 0 3 st
  let s2 := { s1 with tim := { s1.tim with sum := 0, runIn := 0, runAbove := 0, runWithin := 0 } }
  if st = 0 then s2.setFreq 0
  else if st = 3 ∨ st = 4 then s2.setFreq s2.tim.meanFreq
  else if st = 2 then { s2 with tim := { s2.tim with freqs := [] } }
  else s2

/-- A step waits while a cast at a time is pending or a start barrier is armed (R421). -/
def State.stepBlocked (s : State) : Bool :=
  (match s.stage.pend with | some p => p.arm && decide (p.mode = 1) && decide (s.fld R.STG_STATUS 0 3 = 2) | none => false)
  || (List.range 16).any (fun i => decide (s.fld (R.CMD_SBAR i + 8) 2 2 = 1))

/-- Set device time to master time, `o` being device time minus master time in ns; the step is journalled with the old and
the new time (R421). -/
def State.takeStep (s : State) (o : Int) : State :=
  let new := ((s.tim.ns : Int) - o).toNat
  let old := s.tim.ns
  let s1 := { s with tim := { s.tim with ns := new, stepWait := none, newMaster := false, runAbove := 0 } }
  let s2 := (s1.setBit R.TIM_STAT 3 true).setBit R.TIM_CTRL 0 false
  s2.journalEvent 0 0 [lo32 (old / 1000000000), old % 1000000000, lo32 (new / 1000000000), new % 1000000000]

/-- Take a step now, or keep it waiting while it is blocked (R421). -/
def State.stepOrWait (s : State) (o : Int) : State :=
  if s.stepBlocked then { s with tim := { s.tim with stepWait := some o } } else s.takeStep o

/-- Refuse a step: REFUSED, with E_PTP_STEP_REFUSED carrying o in µs (R421). -/
def State.refuseStep (s : State) (o : Int) : State :=
  let us := max (-2147483648) (min 2147483647 (o.tdiv 1000))
  let s1 := (s.enterServo 4).incSat R.TIM_EVENTS 0 16
  ({ s1 with tim := { s1.tim with newMaster := false } }).raise E_PTP_STEP_REFUSED { w3 := some (wrapI us 32) }

/-- The servo's update from a sample within the threshold: f = −(kp × o + ki × Σo) × 2^−16 ppb, clamped to ±500 ppm (R420). -/
def State.servoRun (s : State) (kp ki : Nat) (o : Int) : State :=
  let sum := s.tim.sum + o
  let f := max (-500000) (min 500000 (-(((kp : Int) * o + (ki : Int) * sum).tdiv 65536)))
  let runIn := if o.natAbs ≤ 1000 then s.tim.runIn + 1 else 0
  let s1 := ({ s with tim := { s.tim with sum := sum, runIn := runIn, runAbove := 0, newMaster := false } }).setFreq f
  if s1.servo = 2 then
    { s1 with tim := { s1.tim with freqs := s1.tim.freqs.filter (fun x => decide (s1.now < x.1 + 1000 * ms)) ++ [(s1.now, f)] } }
  else if s1.servo = 1 ∧ 16 ≤ runIn then s1.enterServo 2
  else s1

/-- A sample above the threshold: a permitted step, a refusal on the eighth in a row or the first of a new master, else
only counted (R421). -/
def State.sampleAbove (s : State) (o : Int) : State :=
  let n := s.tim.runAbove + 1
  let s1 := { s with tim := { s.tim with runAbove := n, runWithin := 0, runIn := 0 } }
  if s.bit R.TIM_CTRL 0 then s1.stepOrWait o
  else if s.servo = 4 then s1
  else if s.tim.newMaster ∨ 8 ≤ n then s1.refuseStep o
  else s1

/-- A sample within the threshold: in REFUSED the sixteenth in a row returns to ACQUIRING, else the servo runs (R421). -/
def State.sampleWithin (s : State) (kp ki : Nat) (o : Int) : State :=
  if s.servo = 4 then
    let n := s.tim.runWithin + 1
    let s1 := { s with tim := { s.tim with runWithin := n, runAbove := 0 } }
    if 16 ≤ n then s1.enterServo 1 else s1
  else if s.servo = 1 ∨ s.servo = 2 then s.servoRun kp ki o
  else s

/-- A measured offset `o` (ns, device time minus master or upstream time) under R420 and R421. -/
def State.timeSample (s : State) (kp ki : Nat) (o : Int) : State :=
  let s1 := s.wr R.TIM_OFFSET (wrapI (max (-2147483648) (min 2147483647 o)) 32)
  if s1.bit R.TIM_STAT 3 = false then s1.stepOrWait o
  else if (s1.rd R.TIM_STEP_THR * 1000 : Int) < o.natAbs then s1.sampleAbove o
  else s1.sampleWithin kp ki o

/-- The offset of a sample, device time minus master time in ns, from the timestamps of its messages and the PHY delays of
`TIM_PHY_DLY` (R419). `a` is the MAC's timestamp of the Sync less the master's; `b` is, end to end, the master's timestamp of the
Delay_Req less the MAC's, and peer to peer the two-way time of the Pdelay exchange less the peer's turnaround. That an odd difference
is halved toward zero is a DESIGN CHOICE (log 77). -/
def State.ptpOffset (s : State) (a b : Int) : Int :=
  let tx : Int := s.fld R.TIM_PHY_DLY 0 16
  let rx : Int := s.fld R.TIM_PHY_DLY 16 16
  if s.bit R.TIM_PTP_CFG 9 then a - rx - (b - rx - tx).tdiv 2 else ((a - rx) - (b - tx)).tdiv 2

/-- PTP_SYNC_SAMPLE (R419, R420): an offset sample updates the servo, and may step time or enter REFUSED. -/
def execPtpSyncSample (t : Nat) (m : PtpStamps) (s : State) : Host.Outcome State Fault Refusal :=
  let s := s.at' t
  if s.timSrc = 1 ∧ s.tim.master.isSome ∧ s.running then
    done (s.timeSample (s.fld R.TIM_SERVO 0 16) (s.fld R.TIM_SERVO 16 16) (s.ptpOffset m.sync m.delay))
  else done s

/-- PTP_MASTER_LOST (R422): the announce receipt timeout has passed; HOLDOVER. -/
def execPtpMasterLost (t : Nat) (s : State) : Host.Outcome State Fault Refusal :=
  let s := s.at' t
  let interval : Nat := if 0 ≤ s.tim.announceLog then 2 ^ s.tim.announceLog.toNat * 1000000000
                        else 1000000000 / 2 ^ (-s.tim.announceLog).toNat
  if s.timSrc = 1 ∧ s.tim.master.isSome ∧ s.tim.announceAt + s.fld R.TIM_PTP_CFG 10 4 * interval ≤ s.now then
    let s1 := { s with tim := { s.tim with master := none } }
    let s2 := ((s1.setBit R.TIM_STAT 5 false).enterServo 3).incSat R.TIM_EVENTS 16 16
    done (s2.raise E_PTP_MASTER_LOST {})
  else done s

/-- The values the best master clock comparison ranks by, in order: lower is better (R419). -/
def PtpMaster.rank (m : PtpMaster) : List Nat :=
  [m.prio1, m.cclass, m.accuracy, m.variance, m.prio2, m.gm, m.steps, m.ident, m.port]

/-- Lexicographic order on ranks. -/
def rankLt : List Nat → List Nat → Bool
  | a :: as, b :: bs => decide (a < b) || (decide (a = b) && rankLt as bs)
  | _, _ => false

/-- The data set an Announce carries. -/
def announceMaster (a : Announce) : PtpMaster :=
  { ident := a.ident.toNat, port := a.port.toNat, prio1 := a.prio1.toNat, cclass := a.cclass.toNat,
    accuracy := a.accuracy.toNat, variance := a.variance.toNat, prio2 := a.prio2.toNat, gm := a.gm.toNat,
    steps := a.steps.toNat }

/-- Note an Announce of the selected master. -/
def State.noteAnnounce (s : State) (a : Announce) : State :=
  let m := announceMaster a
  let s1 := { s with tim := { s.tim with master := some m, announceAt := s.now, announceLog := a.logInterval, everMaster := true } }
  let s2 := ((s1.wr64 R.TIM_MASTER m.ident).wr (R.TIM_MASTER + 8) m.port).setBit R.TIM_STAT 5 true
  match a.utc with
  | some u => s2.wr R.TIM_PTP_UTC (u.toNat + 65536)
  | none => s2.setBit R.TIM_PTP_UTC 16 false

/-- Select the sender as master: the servo acquires it under R421 (R422). -/
def State.selectMaster (s : State) (a : Announce) : State :=
  let s1 := s.noteAnnounce a
  ({ s1 with tim := { s1.tim with newMaster := true } }).enterServo 1

/-- A frame comes over the plant lane, which is locked then; its symbol errors are counted (R132, Table 6.7; log 107). -/
def State.plantFrame (s : State) (rx : PlantRx) : State :=
  if !s.running then s
  else
    let n := min 65535 (s.fld R.LNK_PLT_LANE_STAT 16 16 + rx.sym)
    s.wr R.LNK_PLT_LANE_STAT (1 + b2n rx.fast * 2 + n * 65536)

/-- PTP_ANNOUNCE_RECEIVED (R422): the best master clock comparison selects a master or keeps the one selected; a frame that
fails its check sequence is dropped (R132), and one of the other transport or domain is ignored (Table 19.8). -/
def execPtpAnnounceReceived (t : Nat) (m : AnnounceRx) (s : State) : Host.Outcome State Fault Refusal :=
  let s := (s.at' t).plantFrame m.rx
  if !m.rx.fcsOk then done s
  else if s.timSrc ≠ 1 ∨ m.msg.domain.toNat ≠ s.fld R.TIM_PTP_CFG 0 8 ∨ m.msg.udp ≠ s.bit R.TIM_PTP_CFG 8 then done s
  else match s.tim.master with
    | none => done (s.selectMaster m.msg)
    | some b =>
      if b.ident = m.msg.ident.toNat ∧ b.port = m.msg.port.toNat then done (s.noteAnnounce m.msg)
      else if rankLt (announceMaster m.msg).rank b.rank then done (s.selectMaster m.msg)
      else done s

/-- STEP_OK (R421): writing step_ok in TIM_CTRL permits a time step above the threshold (W1S). -/
def execStepOk (t : Nat) (v : W32) (s : State) : Host.Outcome State Fault Refusal :=
  let s := s.at' t
  if v.getLsbD 0 && s.running then done (s.setBit R.TIM_CTRL 0 true) else done s

/-- The whole second of device time lies within ± 10 ns (R418). -/
def State.nearSecond (s : State) : Bool := decide (s.tim.ns % 1000000000 ≤ 10 ∨ 999999990 ≤ s.tim.ns % 1000000000)

/-- PPS_PULSE (R418): at each whole second of device time PPS_OUT rises and stays high for 100 ms. -/
def execPpsPulse (t : Nat) (s : State) : Host.Outcome State Fault Refusal :=
  let s := s.at' t
  if s.bit R.TIM_CFG 2 && s.nearSecond then done { s with tim := { s.tim with ppsUntil := s.now + 100 * ms } } else done s

/-- This device is the time root of its chain (R423). -/
def State.isTimeRoot (s : State) : Bool := decide (s.fld R.LNK_CHAIN_CFG 0 6 = s.fld R.LNK_CHAIN_CFG 12 6)

/-- A follower reports chain time lock while its offset has stayed within ±0.5 ns for 10 ms, its upstream is locked and it
lies at most 32 hops from the time root (R424). -/
def State.chainLockNow (s : State) : Bool :=
  (match s.tim.chainOkSince with | some a => decide (a + 10 * ms ≤ s.now) | none => false)
  && s.tim.upstreamLocked && decide (s.fld R.TIM_STAT 8 8 ≤ 32)

/-- The route to the time root is lost: HOLDOVER, and chain_lock clears (R425). -/
def State.chainTimeLost (s : State) : State :=
  if s.timSrc = 2 ∧ s.servo ≠ 3 ∧ s.servo ≠ 0 then
    (({ s with tim := { s.tim with chainOkSince := none } }).enterServo 3).setBit R.TIM_STAT 4 false
  else s

/-- CHAIN_TIME_EXCHANGE (R423): a two-way exchange steers a follower toward its upstream device. `o`: filtered offset in
2^−16 ns; `upLocked`: the upstream is the time root or locked; `hops`: hops to the time root. -/
def execChainTimeExchange (t : Nat) (o : Int) (upLocked : Bool) (hops : BitVec 8) (s : State) :
    Host.Outcome State Fault Refusal :=
  let s := s.at' t
  if s.timSrc ≠ 2 then done s
  else
    let s0 := if s.servo = 0 ∨ s.servo = 3 then s.enterServo 1 else s
    let s1 := s0.timeSample Config.chainGains.1 Config.chainGains.2 (o.tdiv 65536)
    let near := decide (o.natAbs ≤ 32768)
    let since := if near then some (s1.tim.chainOkSince.getD s1.now) else none
    let s2 := { s1 with tim := { s1.tim with upstreamLocked := upLocked, chainOkSince := since } }
    let s3 := (s2.setFld R.TIM_STAT 8 8 hops.toNat).wr R.TIM_BOUND (250 * hops.toNat)
    done (s3.setBit R.TIM_STAT 4 s3.chainLockNow)

/-- The device's time is locked to the chain's: a follower by its chain_lock, the time root always (R424). -/
def State.chainLocked (s : State) : Bool := if s.timSrc = 2 then s.bit R.TIM_STAT 4 else s.isTimeRoot

/-- A step that waits is taken once nothing blocks it (R421). -/
def State.waitingStep (s : State) : State :=
  match s.tim.stepWait with
  | some o => if s.stepBlocked then s else s.takeStep o
  | none => s

end Sys2Proof.Machine
end

