-- ==== Sys2Proof/Machine/PourOps.lean ====
section
/-! DEFINITION. Starting pours (R321, R324, R346, R351, R358), the pours of LINE contexts, and the stripes the programs are
bound to (R159, R286, R287). -/

namespace Sys2Proof.Machine

/-! ### Classes of a configuration -/

/-- Program ID class `c` names in generation `g`, where the class is enabled (Table 17.11). -/
def State.classProgId (s : State) (g c : Nat) : Option Nat :=
  if s.classWord g c 0 % 2 = 1 then some (s.classWord g c 2 % 65536) else none

/-- Generation of the live configuration. -/
def State.liveGen (s : State) : Nat := s.rd R.STG_GEN_LIVE

/-- Some class is enabled in the live configuration (R68). -/
def State.anyClass (s : State) : Bool := (List.range 64).any (fun c => (s.classProgId s.liveGen c).isSome)

/-- Program IDs the enabled classes of the live configuration name. -/
def State.liveProgs (s : State) : List Nat := (List.range 64).filterMap (fun c => s.classProgId s.liveGen c)

/-- Generations open pieces refer to, the live one first (R107). -/
def State.gensUsed (s : State) : List Nat :=
  s.line.ledger.foldl (fun a e => if a.contains e.2.gen then a else a ++ [e.2.gen]) [s.liveGen]

/-- Context `x` has an enabled class in the live configuration: a class whose program is loaded in it. -/
def State.hasClass (s : State) (x : Nat) : Bool :=
  s.liveProgs.any (fun i => match s.program i with | some l => l.ctx == x | none => false)

/-! ### Stripes -/

/-- Stripes of enabled slots in the live configuration, in ascending order of runner, slot and index (R493). -/
def State.stripesOn (s : State) : List (Nat × Nat × Nat) :=
  (List.range 64).foldl (fun a j =>
    let r := j / 4
    let k := j % 4
    if s.bit (R.RUN_SRC r k) 0 then a ++ (List.range (min 16 (s.fld (R.RUN_SEG_CFG r k) 7 5))).map (fun i => (r, k, i)) else a) []

/-- The crucible in use that owns virtual crucible `vc` (R159). -/
def State.stripeCru (s : State) (vc : Nat) : Nat :=
  let cs := s.flasksUsed.foldl (fun a n => a ++ [2 * n, 2 * n + 1]) []
  if cs = [] then 0 else nth cs (vc % cs.length) 0

/-- The program bound to a stripe: one whose pour runs before one that is only loaded, the latest of those. -/
def State.stripeProg (s : State) (r k i : Nat) : Option (LoadedProg × StripeBind) :=
  let ps := s.sch.progs.filterMap (fun l =>
    (l.prog.stripes.find? (fun b => b.runner == r && b.slot == k && b.stripe == i)).map (fun b => (l, b)))
  match (ps.filter (fun e => s.sch.pours.any (fun p => p.prog == e.1.id && p.st == 2))).getLast? with
  | some e => some e
  | none => ps.getLast?

/-- Columns a stripe receives in generation `g` of rows `w` wide, halos included and clipped to the image: the first column and their number
(R161). -/
def State.stripeColsAt (s : State) (g w r k i : Nat) : Nat × Nat :=
  let w0 := s.cfg g (R.RUN_STRIPE r k i)
  let w1 := s.cfg g (R.RUN_STRIPE r k i + 4)
  let first := w0 % 2 ^ 14
  let lo := first - w1 / 2 ^ 6 % 128
  let hi := min w (first + w0 / 2 ^ 16 % 2 ^ 13 + w1 / 2 ^ 13 % 128)
  (lo, hi - lo)

/-- Bytes of a mould ring slot in the live configuration: a 32-byte header and the row's pixels, in 64-byte units (R161; log 23). -/
def State.ringPitch (s : State) (r k i : Nat) : Nat :=
  ((32 + (s.stripeColsAt s.liveGen (s.corrW r k) r k i).2 * (if s.bit (R.RUN_SRC r k) 10 then 2 else 1) + 63) / 64) * 64

/-- The stripe as it stands on its flask, but for its base among line buffers and its rows (R286, R301). A stripe no program
is bound to belongs to context 0 and counts nothing (log 23). -/
def State.stripeAt (s : State) (e : Nat × Nat × Nat) : StripeAt :=
  let (r, k, i) := e
  let w1 := s.rd (R.RUN_STRIPE r k i + 4)
  let w2 := s.rd (R.RUN_STRIPE r k i + 8)
  let ring := w1.testBit 20
  let b := s.stripeProg r k i
  { runner := r, slot := k, stripe := i, cru := s.stripeCru (w1 % 64)
    base := if ring then w2 % 2 ^ 13 else 0
    depth := if ring then (w2 / 2 ^ 16 % 2 ^ 13) * 1024 / s.ringPitch r k i else w1 / 2 ^ 21 % 64
    ring := ring
    fill := match b with | some q => q.2.fill | none => 0
    free := match b with | some q => q.2.free | none => 0
    n := 0
    pitch := if ring then s.ringPitch r k i else 0
    gen := s.liveGen
    ctx := match b with | some q => q.1.ctx | none => 0 }

/-- Give each stripe of the line buffers its base: consecutive buffers of its crucible, in order (R286). -/
def placeBases : List StripeAt → List StripeAt → List StripeAt
  | done, [] => done
  | done, e :: es =>
    let base := (done.filter (fun d => d.cru == e.cru && !d.ring)).foldl (fun a d => a + d.depth) 0
    placeBases (done ++ [if e.ring then e else { e with base := base }]) es

/-- Slot `j` = runner × 4 + slot. -/
def State.slot (s : State) (j : Nat) : Slot := KMap.getD s.intk.slots j {}

/-- Store slot `j`. -/
def State.setSlot (s : State) (j : Nat) (x : Slot) : State :=
  { s with intk := { s.intk with slots := KMap.put s.intk.slots j x } }

/-- Generation in force at device time `t` (R104): a row triggered exactly at a cast's instant takes the new one. -/
def State.genAt (s : State) (t : Nat) : Nat :=
  if s.stage.liveInstant ≤ t then s.liveGen
  else match s.stage.gens.find? (fun g => decide (g.instant ≤ t)) with
    | some g => g.gen
    | none => match s.stage.gens.getLast? with | some g => g.gen | none => s.liveGen

/-- The configuration of a stripe holds for rows and pieces of generation `g` (R103). -/
def StripeAt.holds (e : StripeAt) (g : Nat) : Bool :=
  decide (e.gen ≤ g) && (match e.till with | some t => decide (g < t) | none => true)

/-- Two stripes have the same place in the configuration. -/
def StripeAt.same (e o : StripeAt) : Bool := e.runner == o.runner && e.slot == o.slot && e.stripe == o.stripe

/-- A cast of the registers `changed` changes a stripe's configuration: its own fields, or what its ring's slots hold. -/
def StripeAt.touched (e : StripeAt) (changed : List Nat) : Bool :=
  changed.any (fun a =>
    decide (R.RUN_STRIPE e.runner e.slot e.stripe ≤ a ∧ a < R.RUN_STRIPE e.runner e.slot e.stripe + 12)
      || (e.ring && (a == R.RUN_CROP e.runner e.slot || a == R.RUN_BIN e.runner e.slot || a == R.RUN_SRC e.runner e.slot)))

/-- Rows on their way in slot `j`, or pieces open there, belong to a generation before `g`. -/
def State.oldRows (s : State) (j g : Nat) : Bool :=
  let x := s.slot j
  let rows := x.inq.map (fun l => l.row) ++ x.merge ++ x.bin ++ x.delay ++ x.outq
  rows.any (fun r => decide (s.genAt r.time < g)) || x.lanes.any (fun e => e.2.opened && decide (e.2.gen < g))

/-- Stripes of slot `j` whose configuration no row and no piece needs any more go (R103). -/
def State.pruneStripes (s : State) (j : Nat) : State :=
  if s.fab.stripes.all (fun e => e.till.isNone) then s
  else { s with fab := { s.fab with stripes := s.fab.stripes.filter (fun e =>
    match e.till with | some t => decide (4 * e.runner + e.slot ≠ j) || s.oldRows j t | none => true) } }

/-- Place the stripes of the live configuration after a cast changed the registers `changed`, or a program came (R286, R287): rows are counted
on, but for stripes whose configuration has changed, which start at row 0. The old configuration of those holds on for rows and pieces of the
generations before, beside the new one (R103). -/
def State.restripe (s : State) (changed : List Nat) : State :=
  let es := placeBases [] (s.stripesOn.map s.stripeAt)
  let cur := s.fab.stripes.filter (fun o => o.till.isNone)
  let next (e : StripeAt) : StripeAt :=
    match cur.find? e.same with
    | some o => if e.touched changed then e
                else { e with gen := o.gen, n := if o.cru = e.cru ∧ o.fill = e.fill ∧ o.free = e.free ∧ o.ctx = e.ctx then o.n else 0 }
    | none => e
  let olds := (cur.filter (fun o => (es.find? o.same).isNone || o.touched changed)).map (fun o => { o with till := some s.liveGen })
  let kept := (s.fab.stripes.filter (fun o => o.till.isSome) ++ olds).filter (fun o =>
    match o.till with | some t => s.oldRows (4 * o.runner + o.slot) t | none => false)
  { s with fab := { s.fab with stripes := es.map next ++ kept } }

/-! ### Pours -/

/-- Banks pour `p` takes: those reserved for a LINE program, the lowest free ones for a JOB pour; none where too few are
free (R346). A JOB pour takes none while a LINE `PROG_LOAD` collected before it waits for banks. -/
def State.banksFor (s : State) (p : Pour) (g : Program) : Option (List Nat) :=
  let k := banksNeeded g
  if k = 0 then some []
  else match s.ctx p.ctx with
    | none => none
    | some c =>
      if c.cls = 1 then some ((s.fab.bankOwner.filter (fun b => b.2.2.2.2 == p.prog + 1)).map Prod.fst)
      else
        let older := s.host.orders.takeWhile (fun o => !(o.opcode == 0x41 && o.ctx == p.ctx && o.tag == p.tag))
        let waits := older.any (fun o => o.opcode == 0x40 && (match s.ctx o.ctx with | some d => d.cls == 1 | none => false))
        if waits then none else if k ≤ s.freeBanks.length then some (s.freeBanks.take k) else none

/-- The tasks a pour hands out at its start (R320, R321). -/
def firstTasks (g : Program) : List Nat :=
  (List.range g.tasks.length).filter (fun k => taskAtStart (nth g.tasks k ⟨0, none, false, false, false, false, []⟩))

/-- The scheduler's state of a sequence pour at its start: every group of its pools free (R307). -/
def State.seqStart (s : State) (x : Nat) (g : Program) : State :=
  match g.seq, s.ctx x with
  | some q, some c =>
    let st : SeqSt := { free := q.dpool, mould := if q.mpool = 0 then [] else (maskList c.mask).map (fun n => (n, q.mpool)) }
    { s with sch := { s.sch with seqs := KMap.put s.sch.seqs x st } }
  | _, _ => s

/-- Pour `id` runs: its ready tasks go to the flasks its context runs on (R321). -/
def State.pourRun (s : State) (id : Nat) : State :=
  match s.pour id with
  | none => s
  | some p =>
    match s.pourProg p with
    | none => s
    | some g =>
      let job := match s.ctx p.ctx with | some c => c.cls == 2 | none => false
      let s1 := (s.setPour { p with st := 2, steps := b2n (job && g.seq.isNone) }).seqStart p.ctx g
      (s1.handOut p (firstTasks g)).refresh

/-- A waiting pour takes its sync objects and banks where all are free (R174, R324, R346), and runs, or waits at its start
barrier (R358). -/
def State.pourTake (s : State) (id : Nat) : State :=
  match s.pour id with
  | none => s
  | some p =>
    match s.pourProg p with
    | none => s
    | some g =>
      match s.banksFor p g with
      | none => s
      | some ks =>
        if p.st ≠ 0 ∨ !s.syncFree p.ctx g then s
        else
          let line := match s.ctx p.ctx with | some c => c.cls == 1 | none => false
          let p1 : Pour := { p with st := if p.sbar.isSome then 1 else 2, banks := ks, tasks := List.replicate g.tasks.length {} }
          let s1 := (((s.allocSync p g).takeBanks ks p.ctx p.id (if line then p.prog + 1 else 0))).setPour p1
          if p.sbar.isSome then s1 else s1.pourRun id

/-- Waiting pours take what has become free, in order of collection (R324). -/
def State.pourRetry (s : State) : State :=
  (s.sch.pours.filter (fun p => p.st == 0)).foldl (fun s p => s.pourTake p.id) s

/-- The programs of LINE contexts whose pours run with line work: those an enabled class of the live configuration names,
and the stripe programs of a context with a class; not those with a pour (R316, R351; log 24). -/
def State.lineProgs (s : State) : List LoadedProg :=
  s.sch.progs.filter (fun l =>
    (match s.ctx l.ctx with | some c => c.cls == 1 | none => false)
      && (s.liveProgs.contains l.id || (l.prog.stripeProgram && s.hasClass l.ctx))
      && !s.sch.pours.any (fun p => p.prog == l.id))

/-- Start the LINE pours that line work now has; the stripes follow the programs (R68, R351). -/
def State.linePours (s : State) : State :=
  if !s.boot.lineStarted then s
  else
    let s1 := s.lineProgs.foldl (fun s l =>
      let p : Pour := { id := s.sch.nextPour, ctx := l.ctx, prog := l.id }
      ({ s with sch := { s.sch with pours := s.sch.pours ++ [p], nextPour := s.sch.nextPour + 1 } }).pourTake p.id) s.lineRuns
    let s2 : State := { s1 with sch := { s1.sch with ctxs := s1.sch.ctxs.map (fun e =>
      if e.2.cls = 1 ∧ s1.hasClass e.1 ∧ e.2.st ≠ 6 then (e.1, { e.2 with st := 2 }) else e) } }
    s2.lineRuns.restripe []

end Sys2Proof.Machine
end

