-- ==== Sys2Proof/Machine/RunOps.lean ====
section
/-! DEFINITION. Runners (chapter Runners): slots and their configuration by generation, dropped rows and truncation, the
correction tables, and the exact arithmetic of the stages (R136–R147). -/

namespace Sys2Proof.Machine

/-! ### Slots and generations -/

/-- Generation of a row of slot `j` triggered at `t`: the one in force then (R104), but none from before the slot's enable took effect,
under which it had no configuration: a DESIGN CHOICE for old rows that a feed replays (log 112). -/
def State.rowGen (s : State) (j t : Nat) : Nat := max (s.genAt t) (s.slot j).enGen

/-- Device time of the crossing of a pending count cast, once Ronyr's counter has crossed N and the Cuette side has not yet
applied the cast (R101): its application report is on its way. -/
def State.crossing (s : State) : Option Nat :=
  match s.stage.pend with
  | some p =>
    if p.arm ∧ p.mode = 2 ∧ s.fld R.STG_STATUS 0 3 = 2 then
      (s.line.rx ++ s.ron.tx).findSome? (fun m => match m with | .applied t => if p.armedAt ≤ t then some t else none | _ => none)
    else none
  | none => none

/-- The staging block knows on which side of every cast a row triggered at `t` falls (R104). -/
def State.sideKnown (s : State) (t : Nat) : Bool :=
  match s.crossing with
  | some c => decide (t < c)
  | none => true

/-- Lines that make one output row of slot `j` in generation `g`: E × vy. -/
def State.linesPerRow (s : State) (g j : Nat) : Nat :=
  (s.cfgF g (R.RUN_LIN (j / 4) (j % 4)) 1 2 + 1) * max 1 (s.cfgF g (R.RUN_BIN (j / 4) (j % 4)) 4 4)

/-- The enabled slot that takes logical stream `str` from its camera in generation `g` (R136, R138). -/
def State.slotOf (s : State) (g str : Nat) : Option Nat :=
  (List.range 64).find? (fun j =>
    let w := s.cfg g (R.RUN_SRC (j / 4) (j % 4))
    decide (w % 2 = 1) && decide (w / 2 % 2 = 0) && decide (w / 4 % 64 = str))

/-- Slot `j` is enabled in the live configuration. -/
def State.slotOn (s : State) (j : Nat) : Bool := s.bit (R.RUN_SRC (j / 4) (j % 4)) 0

/-! ### Dropped rows -/

/-- Dropped row triggers put together, in order: first and last count, and their number. -/
def joinGap (a : Option (Nat × Nat × Nat)) (b : Nat × Nat × Nat) : Option (Nat × Nat × Nat) :=
  match a with
  | none => some b
  | some x => some (x.1, b.2.1, x.2.2 + b.2.2)

/-- Join with a gap that may be absent. -/
def joinGaps (a b : Option (Nat × Nat × Nat)) : Option (Nat × Nat × Nat) :=
  match b with
  | none => a
  | some g => joinGap a g

/-- Rows of slot `j` are dropped before they entered the pipeline: counted, and marked on the next line (R146). -/
def State.dropLines (s : State) (j : Nat) (g : Nat × Nat × Nat) : State :=
  let s1 := s.wr (R.RUN_ROWS_DROP (j / 4) (j % 4)) (s.rd (R.RUN_ROWS_DROP (j / 4) (j % 4)) + g.2.2)
  let x := s1.slot j
  s1.setSlot j { x with gapIn := joinGap x.gapIn g }

/-- A block of `w` columns, `n` lines and format `fmt` matches slot `j` in generation `g` (R139). -/
def State.geomOk (s : State) (g j w n fmt : Nat) : Bool :=
  let r := j / 4
  let k := j % 4
  decide (w = s.cfgF g (R.RUN_GEOM r k) 0 16 ∧ 1 ≤ n ∧ n ≤ s.cfgF g (R.RUN_GEOM r k) 16 16
    ∧ n % (s.cfgF g (R.RUN_LIN r k) 1 2 + 1) = 0 ∧ fmt = s.cfgF g (R.RUN_SRC r k) 8 2)

/-- The newest waiting line of block `b` becomes the last of its block. -/
def markLast (b : Nat) (q : List InLine) : List InLine :=
  match q.getLast? with
  | some l => if l.block = b then q.dropLast ++ [{ l with last := true }] else q
  | none => q

/-! ### Correction tables -/

/-- Address of the correction table of slot `j` (R145). -/
def State.tblAddr (s : State) (j : Nat) : Nat := s.rd64 (R.RUN_TBL_ADDR (j / 4) (j % 4)) % 2 ^ 48

/-- A line of the correction table of slot `j` that reads as uncorrectable (R182): the table's 0x13100 bytes are those of Table 7.4. -/
def State.tblPoison (s : State) (j : Nat) : Option Nat := s.poisonedIn 0 (s.tblAddr j) 0x13100

/-- One byte of the correction table of slot `j`; free where the address does not translate (log 2). -/
def State.tblByte (s : State) (j i : Nat) : Nat :=
  let a := s.tblAddr j + i
  match s.xlate 0 a false true with
  | .ok _ => (s.vread 0 a).toNat
  | _ => (Config.freeByte s.free a).toNat

/-- A 16-bit entry of the correction table. -/
def State.tbl16 (s : State) (j i : Nat) : Nat := s.tblByte j i + 256 * s.tblByte j (i + 1)

/-- The correction table of slot `j` as its address holds it, whole (Table 7.4, R145). -/
def State.readTable (s : State) (j : Nat) : CorrTable :=
  { l := (List.range 4097).map (fun i => s.tbl16 j (2 * i))
    d := (List.range 16384).map (fun i => s.tbl16 j (0x2100 + 2 * i))
    g := (List.range 16384).map (fun i => s.tbl16 j (0xA100 + 2 * i))
    defects := (List.range 1024).map (fun i => let v := s.tbl16 j (0x12100 + 4 * i); (v % 2 ^ 14, v / 2 ^ 14 % 4)) }

/-- The table a row triggered at `t` is corrected with (R145). -/
def Slot.table (x : Slot) (t : Nat) : CorrTable :=
  match x.retired with
  | some i => nth x.banks (if i ≤ t then 1 - x.bank else x.bank) {}
  | none => nth x.banks x.bank {}

/-- The slot has processed a row triggered at `t`: the new bank is in use, the retired one free (R145). -/
def Slot.usedAt (x : Slot) (t : Nat) : Slot :=
  match x.retired with
  | some i => if i ≤ t then { x with bank := 1 - x.bank, retired := none } else x
  | none => x

/-! ### Stages (R142) -/

/-- Stage 1, normalisation: format 0 U8, 1 U12, 2 U16. -/
def normPx (fmt v : Nat) : Nat := if fmt = 0 then v * 257 else if fmt = 1 then v * 16 + v / 256 else v

/-- Stage 1, linearisation. -/
def linPx (l : List Nat) (n : Nat) : Nat :=
  let a := nth l (n / 16) 0
  let b := nth l (n / 16 + 1) 0
  ((a : Int) + (((b : Int) - a) * (n % 16 : Nat) + 8) / 16).toNat

/-- Stage 2: the merged value of one pixel from its exposures, the longest first. -/
def mergePx (sat : Nat) (gain : List Nat) (ls : List Nat) : Nat :=
  let e := match ls.findIdx? (fun v => decide (v < sat)) with | some i => i | none => ls.length - 1
  min 65535 ((nth ls e 0 * nth gain e 0 + 128) / 256)

/-- Stage 3. -/
def ffPx (m d g : Nat) : Nat := min 65535 (((m - d) * g + 8192) / 16384)

/-- Stage 3 over a row. -/
def ffRow : List Nat → List Nat → List Nat → List Nat
  | m :: ms, d :: ds, g :: gs => ffPx m d g :: ffRow ms ds gs
  | ms, _, _ => ms

/-- Stage 4: one defect entry on a row; `prev` is the previous row after this stage. -/
def defectPx (prev : Option (List Nat)) (row : List Nat) (e : Nat × Nat) : List Nat :=
  let x := e.1
  let left := nth row (x - 1) 0
  if row.length ≤ x then row
  else row.set x
    (if e.2 = 0 then (left + nth row (x + 1) 0 + 1) / 2
     else if e.2 = 1 then left
     else if e.2 = 2 then nth row (x + 1) 0
     else match prev with | some p => (p[x]?).getD left | none => left)

/-- Stage 6: one output row from a group of vy rows. -/
def binRows (hx : Nat) (rows : List (List Nat)) : List Nat :=
  let w := match rows with | r :: _ => r.length / max 1 hx | [] => 0
  let n := hx * rows.length
  (List.range w).map (fun c =>
    (rows.foldl (fun a r => a + ((r.drop (c * hx)).take hx).foldl (· + ·) 0) 0 + n / 2) / max 1 n)

/-- Stage 8: the delay of column `c`. -/
def skewOf (slope : Nat) (c : Nat) : Int := ((c : Int) * sextI slope 32 + 0x8000) / 65536

/-- Stage 8: least delay and span over `w` columns. The delay is monotone in the column, so its ends bound it. -/
def skewSpan (slope w : Nat) : Int × Nat :=
  let a := skewOf slope 0
  let b := skewOf slope (w - 1)
  (min a b, (max a b - min a b).toNat)

/-- Stage 8: output row from the delay line, the row itself first. -/
def skewRow (slope w : Nat) (line : List (List Nat)) : List Nat :=
  let lo := (skewSpan slope w).1
  (List.range w).map (fun c => nth (nth line (skewOf slope c - lo).toNat []) c 0)

/-- Stage 9. -/
def outPx (u16 : Bool) (v : Nat) : Nat := if u16 then v else min 255 ((v + 128) / 256)

/-! ### The in-line FIFO and the through-memory ring -/

/-- Bytes of one input line in its format (R162): U12 packed takes ceil(1.5 × width). -/
def lineBytes (fmt w : Nat) : Nat := if fmt = 0 then w else if fmt = 1 then (3 * w + 1) / 2 else 2 * w

/-- Bytes of one line in a block record: its row padded to 64 bytes, and its stamp (R140). -/
def recLineBytes (fmt w : Nat) : Nat := (lineBytes fmt w + 63) / 64 * 64 + 16

/-- Bytes the waiting lines of a through-memory slot take in its ring: their rows and stamps, and a header a block (R140). -/
def ringUse (q : List InLine) : Nat :=
  (q.foldl (fun (a : Nat × Option Nat) l =>
    (a.1 + recLineBytes l.fmt l.row.px.length + (if a.2 = some l.block then 0 else 64), some l.block)) (0, none)).1

/-- Slot `j` has room for one more line of block `b`, of `w` pixels in format `fmt`, in generation `g`: in the in-line FIFO of 256 KiB
(R146 reason 1), or in its through-memory ring (reason 4). A row that waits for its stripes holds its line's place in the FIFO (R162). -/
def State.lineRoom (s : State) (g j fmt w b : Nat) : Bool :=
  let x := s.slot j
  if j % 4 = 0 then
    decide (x.inq.foldl (fun a l => a + lineBytes l.fmt l.row.px.length) ((x.outq.length + 1) * lineBytes fmt w) ≤ 262144)
  else decide (ringUse x.inq + recLineBytes fmt w + (match x.inq.getLast? with | some l => if l.block = b then 0 else 64 | none => 64)
    ≤ s.cfgF g (R.RUN_TM_SIZE (j / 4) (j % 4)) 0 11 * 1048576)

end Sys2Proof.Machine
end

