-- ==== Sys2Proof/Machine/Codec.lean ====
section
/-! DEFINITION. Block records and the Lumrin line codec (R140, R151–R153): the byte layout of records, tiles and stamps, the
encoder and the decoder. -/

namespace Sys2Proof.Machine

/-- A number from little-endian bytes. -/
def ofLe (bs : List Byte) : Nat := bs.foldr (fun b a => b.toNat + 256 * a) 0

/-- The number in `n` bytes of a byte string from `i`. -/
def leAt (bs : List Byte) (i n : Nat) : Nat := ofLe ((bs.drop i).take n)

/-- Bytes of a row's pixels in a format: 0 U8, 1 U12 packed, 2 U16 (R140). -/
def packPixels (fmt : Nat) : List Nat → List Byte
  | [] => []
  | [v] => if fmt = 0 then leBytes v 1 else if fmt = 1 then leBytes (v % 4096) 3 else leBytes v 2
  | v :: w :: ps =>
    if fmt = 0 then leBytes v 1 ++ leBytes w 1 ++ packPixels fmt ps
    else if fmt = 1 then leBytes (v % 4096 + w % 4096 * 4096) 3 ++ packPixels fmt ps
    else leBytes v 2 ++ leBytes w 2 ++ packPixels fmt ps

/-- `w` pixels from a row's bytes in a format (R140). -/
def unpackPixels (fmt w : Nat) (bs : List Byte) : List Nat :=
  (List.range w).map (fun i =>
    if fmt = 0 then leAt bs i 1 else if fmt = 1 then leAt bs (i / 2 * 3) 3 / 4096 ^ (i % 2) % 4096 else leAt bs (2 * i) 2)

/-- Bits of a pixel of a format. -/
def pxBits (fmt : Nat) : Nat := if fmt = 0 then 8 else if fmt = 1 then 12 else 16

/-- Format of a number of bits, where there is one. -/
def bitsFmt (b : Nat) : Option Nat := if b = 8 then some 0 else if b = 12 then some 1 else if b = 16 then some 2 else none

/-- Bytes a row of `w` pixels takes in a raw payload: U12 in whole triples, padded to 64 bytes (R140). -/
def rawRow (fmt w : Nat) : Nat := ((if fmt = 0 then w else if fmt = 1 then (w + 1) / 2 * 3 else 2 * w) + 63) / 64 * 64

/-- The 16 bytes of a row's stamp, `t0` being the device time of row 0 (Table 7.2). -/
def stampBytes (r : Row) (t0 : Nat) : List Byte :=
  leBytes (r.count % 2 ^ 48 + b2n r.gap.isSome * 2 ^ 48) 8 ++ leBytes (r.time - t0) 8

/-! ### The codec -/

/-- R151's predictor from the pixels left of, above and above left of one; `first` marks column 0, `top` line 0. -/
def predict (top first : Bool) (a b c : Nat) : Nat :=
  if top then (if first then 0 else a)
  else if first then b
  else if max a b ≤ c then min a b
  else if c ≤ min a b then max a b
  else a + b - c

/-- The residual of a value against its prediction, mapped to a non-negative number below 2^bits (R151). -/
def residual (bits v p : Nat) : Nat :=
  let r := sextI (v + 2 ^ bits - p % 2 ^ bits) bits
  if r < 0 then (-2 * r - 1).toNat else (2 * r).toNat

/-- The value a mapped residual gives (R151). -/
def unresidual (bits u p : Nat) : Nat :=
  wrapI ((p : Int) + (if u % 2 = 1 then -(((u + 1) / 2 : Nat) : Int) else ((u / 2 : Nat) : Int))) bits

/-- `n` bits of a number, most significant first. -/
def bitsOf (v : Nat) : Nat → List Bool
  | 0 => []
  | n + 1 => v.testBit n :: bitsOf v n

/-- Mapped residuals of a line against the line above it. -/
def residuals (bits : Nat) (top : Bool) : Bool → Nat → Nat → List Nat → List Nat → List Nat
  | first, a, c, v :: vs, b :: bs =>
    residual bits v (predict top first a b c) :: residuals bits top false v b vs bs
  | first, a, c, v :: vs, [] => residual bits v (predict top first a 0 c) :: residuals bits top false v 0 vs []
  | _, _, _, [], _ => []

/-- Bits mode 1 takes for a mapped residual with parameter `k`. -/
def riceBits (bits k u : Nat) : List Bool :=
  if u / 2 ^ k < 24 then List.replicate (u / 2 ^ k) true ++ [false] ++ bitsOf u k
  else List.replicate 24 true ++ bitsOf u bits

/-- The encodings of a line in the order of their modes and parameters (R153). -/
def lineCodes (bits : Nat) (line us : List Nat) : List (List Bool) :=
  ([false, false] ++ line.foldr (fun v a => bitsOf v bits ++ a) [])
  :: (List.range 16).map (fun k => [false, true] ++ bitsOf k 4 ++ us.foldr (fun u a => riceBits bits k u ++ a) [])
  ++ (if us.all (fun u => u == 0) then [[true, false]] else [])

/-- The shortest of some bit strings, the first of the shortest. -/
def shortest : List (List Bool) → List Bool
  | [] => []
  | b :: bs => bs.foldl (fun a c => if c.length < a.length then c else a) b

/-- Bits of the lines of a codec block. -/
def encodeLines (bits : Nat) : Option (List Nat) → List (List Nat) → List Bool
  | _, [] => []
  | prev, l :: ls => shortest (lineCodes bits l (residuals bits prev.isNone true 0 0 l (prev.getD []))) ++ encodeLines bits (some l) ls

/-- Bytes of a bit string, most significant bit first, the last padded with zeros. -/
def bytesOfBits : Nat → List Bool → List Byte
  | 0, _ => []
  | _, [] => []
  | n + 1, bs => BitVec.ofNat 8 ((List.range 8).foldl (fun a i => 2 * a + b2n (nth bs i false)) 0) :: bytesOfBits n (bs.drop 8)

/-- A codec block, padded with zero bytes until check 3 of R151 holds. -/
def encodeBlock (bits w : Nat) (ls : List (List Nat)) : List Byte :=
  let bs := encodeLines bits none ls
  let p := bytesOfBits (bs.length / 8 + 1) bs
  p ++ zeroBytes ((ls.length * w * bits + 2047) / 2048 - p.length)

/-- Lines in groups of 8. -/
def groups8 : Nat → List (List Nat) → List (List (List Nat))
  | 0, _ => []
  | _, [] => []
  | n + 1, ls => ls.take 8 :: groups8 n (ls.drop 8)

/-- The tile the device encoder makes of some rows of `w` pixels (Table 7.7, R153). -/
def encodeTile (bits w : Nat) (ls : List (List Nat)) : List Byte :=
  let gs := groups8 (ls.length + 1) ls
  let ps := gs.map (encodeBlock bits w)
  leBytes 0x434C 2 ++ leBytes 1 2 ++ leBytes w 2 ++ leBytes ls.length 2 ++ leBytes bits 1 ++ [0] ++ leBytes gs.length 2 ++ zeroBytes 20
  ++ (gs.zip ps).foldr (fun e a => leBytes e.1.length 2 ++ leBytes e.2.length 4 ++ zeroBytes 2 ++ a) []
  ++ ps.foldr (fun p a => p ++ a) []

/-- Take `n` bits, most significant first; none past the end. -/
def takeBits (n : Nat) (bs : List Bool) : Option (Nat × List Bool) :=
  if bs.length < n then none
  else some ((bs.take n).foldl (fun a b => 2 * a + b2n b) 0, bs.drop n)

/-- Count ones up to 24; the ending zero is taken when fewer. -/
def takeOnes : Nat → List Bool → Option (Nat × List Bool)
  | 0, bs => some (0, bs)
  | _ + 1, [] => none
  | _ + 1, false :: bs => some (0, bs)
  | n + 1, true :: bs => (takeOnes n bs).map (fun r => (r.1 + 1, r.2))

/-- One mapped residual of mode 1. -/
def takeRice (bits k : Nat) (bs : List Bool) : Option (Nat × List Bool) :=
  match takeOnes 24 bs with
  | none => none
  | some (q, r) =>
    match (if q = 24 then takeBits bits r else (takeBits k r).map (fun e => (q * 2 ^ k + e.1, e.2))) with
    | some (u, r') => if u < 2 ^ bits then some (u, r') else none
    | none => none

/-- The pixels of one line; `mode` 0 raw, 1 Rice, 2 zero residuals. -/
def decodePixels (bits mode k : Nat) (top : Bool) : Nat → Bool → Nat → Nat → List Nat → List Bool → Option (List Nat × List Bool)
  | 0, _, _, _, _, bs => some ([], bs)
  | n + 1, first, a, c, above, bs =>
    let b := above.headD 0
    match (if mode = 0 then takeBits bits bs else if mode = 1 then takeRice bits k bs else some (0, bs)) with
    | none => none
    | some (u, r) =>
      let v := if mode = 0 then u else unresidual bits u (predict top first a b c)
      (decodePixels bits mode k top n false v b above.tail r).map (fun e => (v :: e.1, e.2))

/-- One line of a codec block. -/
def decodeLine (bits w : Nat) (prev : Option (List Nat)) (bs : List Bool) : Option (List Nat × List Bool) :=
  match takeBits 2 bs with
  | none => none
  | some (m, r) =>
    if m = 3 then none
    else if m = 1 then
      match takeBits 4 r with
      | none => none
      | some (k, r') => decodePixels bits 1 k prev.isNone w true 0 0 (prev.getD []) r'
    else decodePixels bits m 0 prev.isNone w true 0 0 (prev.getD []) r

/-- The lines of a codec block that decode, and whether it decodes whole (R152). -/
def decodeLines (bits w : Nat) : Nat → Option (List Nat) → List Bool → List (List Nat) × Bool
  | 0, _, bs => ([], bs.all (fun b => !b))
  | n + 1, prev, bs =>
    match decodeLine bits w prev bs with
    | none => ([], false)
    | some (l, r) => let e := decodeLines bits w n (some l) r; (l :: e.1, e.2)

/-- Bits of some bytes, most significant first. -/
def bitsOfBytes (bs : List Byte) : List Bool := bs.foldr (fun b a => bitsOf b.toNat 8 ++ a) []

/-- Codec blocks one after another, up to the first that fails. -/
def decodeBlocks (bits w : Nat) : List (Nat × Nat) → List Byte → List (List Nat) × Bool
  | [], _ => ([], true)
  | (n, len) :: es, bs =>
    let d := decodeLines bits w n none (bitsOfBytes (bs.take len))
    if d.2 then let e := decodeBlocks bits w es (bs.drop len); (d.1 ++ e.1, e.2) else d

/-- What a tile's header says. -/
structure TileHdr where
  /-- Width. -/
  w : Nat
  /-- Height. -/
  h : Nat
  /-- Bits. -/
  bits : Nat
  /-- Lines and payload length of each codec block. -/
  entries : List (Nat × Nat)
  deriving DecidableEq, Repr

/-- Check 1 of R151 on a tile of `len` bytes. -/
def tileHdr (bs : List Byte) (len : Nat) : Option TileHdr :=
  let nb := leAt bs 10 2
  let es := (List.range nb).map (fun i => (leAt bs (32 + 8 * i) 2, leAt bs (34 + 8 * i) 4))
  let ok := leAt bs 0 2 = 0x434C ∧ leAt bs 2 2 = 1 ∧ (bitsFmt (leAt bs 8 1)).isSome = true ∧ leAt bs 9 1 = 0
    ∧ ((bs.drop 12).take 20).all (fun b => b == 0) = true ∧ 1 ≤ nb ∧ 1 ≤ leAt bs 4 2 ∧ leAt bs 4 2 ≤ 16384
    ∧ (List.range nb).all (fun i => leAt bs (38 + 8 * i) 2 == 0) = true
    ∧ 32 + 8 * nb + es.foldl (fun a e => a + e.2) 0 = len ∧ es.foldl (fun a e => a + e.1) 0 = leAt bs 6 2
  if ok then some { w := leAt bs 4 2, h := leAt bs 6 2, bits := leAt bs 8 1, entries := es } else none

/-! ### Records -/

/-- The block record of some rows, with a payload of their pixels in `fmt` or a codec tile (Table 7.2). -/
def blockRecord (stream point fmt block w : Nat) (codec trunc lost : Bool) (rows : List Row) : List Byte :=
  let r0 := nth rows 0 {}
  let payload : List Byte := if codec then encodeTile (pxBits fmt) w (rows.map (fun r => r.px))
    else rows.foldr (fun r a => let p := packPixels fmt r.px; p ++ zeroBytes (rawRow fmt w - p.length) ++ a) []
  leBytes 0x4B52 2 ++ leBytes 1 2 ++ leBytes stream 1
  ++ leBytes (b2n trunc + 2 * b2n codec + 4 * b2n r0.gap.isSome + 8 * b2n lost) 1 ++ leBytes point 1 ++ leBytes (pxBits fmt) 1
  ++ leBytes block 4 ++ leBytes rows.length 2 ++ leBytes w 2 ++ leBytes (r0.count % 2 ^ 48) 8 ++ leBytes (r0.time / 1000000000) 8
  ++ leBytes (r0.time % 1000000000) 4 ++ leBytes payload.length 4 ++ zeroBytes 24
  ++ rows.foldr (fun r a => stampBytes r r0.time ++ a) [] ++ payload

end Sys2Proof.Machine
end

