-- ==== Sys2Proof/Machine/Pack.lean ====
section
/-! DEFINITION. The piece packer (R163–R166): samples of a piece, packed rows, and the segment marks that drains read in the moulds. -/

namespace Sys2Proof.Machine

/-! ### Samples (R163) -/

/-- Samples a class has enabled in a generation (Table 8.6). -/
def State.samplesOn (s : State) (g c : Nat) : List Nat := (List.range 8).filter (fun k => s.cfg g (R.RUN_AUG 0 c k) % 2 == 1)

/-- The source column of column `k` of a sample `n` columns wide, both from its first: mirrored, then shifted with edge replication. -/
def sampleSrc (flip : Bool) (dx : Int) (n k : Nat) : Nat :=
  (max 0 (min ((n : Int) - 1) (((if flip then n - 1 - k else k : Nat) : Int) - dx))).toNat

/-- One pixel of sample `smp` (R163): descriptor words `w0` and `w1`, the piece's `row` in U16 scale over columns from `c0`, its column
`c0 + k`, and `y` = row − lead. -/
def samplePx (w0 w1 seed serial smp y c0 : Nat) (row : List Nat) (k : Nat) : Nat :=
  let v := nth row (sampleSrc (w0.testBit 1) (sextI (w0 / 4 % 256) 8) row.length k) 0
  let amp := w1 / 2 ^ 16 % 256
  let idx := y * 16384 + (c0 + k)
  let noise : Int := if amp = 0 then 0 else ((kcg seed serial smp idx % 65536 % (2 * amp + 1) : Nat) : Int) - amp
  let out : Int := (((v * (w0 / 2 ^ 16) + 2048) / 4096 : Nat) : Int) + sextI (w1 % 65536) 16 + noise
  (max 0 (min 65535 out)).toNat

/-- The output format of slot `j` in generation `g` is U16. -/
def State.outU16 (s : State) (g j : Nat) : Bool := decide (s.cfgF g (R.RUN_SRC (j / 4) (j % 4)) 10 1 = 1)

/-- Row `no` of a piece as sample `k` holds it (R163). A row's U8 values stand for `v × 257`, as R155 compares them, and a U8 output is formed
by stage 9. -/
def State.sampleRow (s : State) (h : Held) (serial k : Nat) (e : Nat × Row) : Nat × Row :=
  let u16 := s.outU16 (s.rowGen h.slot e.2.time) h.slot
  let w0 := s.cfg h.gen (R.RUN_AUG 0 h.cls k)
  let w1 := s.cfg h.gen (R.RUN_AUG 0 h.cls k + 4)
  let px := if u16 then e.2.px else e.2.px.map (fun v => v * 257)
  let out := (List.range px.length).map (samplePx w0 w1 (s.cfg h.gen (R.RUN_CLASS_SEED 0 h.cls)) serial k (e.1 - h.leadRow) h.cols.1 px)
  (e.1, { e.2 with px := out.map (outPx u16) })

/-- The rows of sample `k` of a piece (R163). -/
def State.sampleRows (s : State) (h : Held) (serial k : Nat) : List (Nat × Row) := h.rows.map (s.sampleRow h serial k)

/-! ### Marks (Table 8.2) -/

/-- The mark of a segment. -/
def Seg.mark (g : Seg) : Nat :=
  g.start % 2 ^ 12 + g.len % 2 ^ 13 * 2 ^ 12 + g.entry % 2 ^ 17 * 2 ^ 25 + g.sample % 8 * 2 ^ 42 + b2n g.void * 2 ^ 45 + b2n g.last * 2 ^ 46
    + 2 ^ 47 + g.span % 2 ^ 13 * 2 ^ 48

/-- The mark array of a row: 64 entries, the valid marks first, in start order. -/
def markArray (gs : List Seg) : List Byte := (List.range 64).foldr (fun i a => leBytes (nth (gs.map Seg.mark) i 0) 8 ++ a) []

/-- The pour of context `x` that runs a sequence program (R302). -/
def State.seqPour (s : State) (x : Nat) : Option (Pour × Program × SeqDecl) :=
  s.sch.pours.findSome? (fun p =>
    if p.ctx == x && p.st == 2 then
      match s.pourProg p with
      | some g => g.seq.map (fun q => (p, g, q))
      | none => none
    else none)

/-- Write the mark array of row `r` of context `x` on every flask of the context, where its program says the arrays lie (log 114). -/
def State.writeMarks (s : State) (x r : Nat) (gs : List Seg) : State :=
  match s.seqPour x, s.ctx x with
  | some (_, _, q), some c =>
    match q.marks with
    | some a => (maskList c.mask).foldl (fun s n => s.mwrite n (a + r * 512) (markArray gs)) s
    | none => s
  | _, _ => s

/-- Two rows are the same row. -/
def PackRow.same (a b : PackRow) : Bool := a.ctx == b.ctx && a.cls == b.cls && a.row == b.row

/-- The packed rows become `rs`: the marks of rows that changed are written, those of rows that are free again are no marks. -/
def State.setRows (s : State) (rs : List PackRow) : State :=
  let old := s.sch.packRows
  let s1 := (old.filter (fun o => !rs.any o.same)).foldl (fun s o => s.writeMarks o.ctx o.row []) s
  let s2 := (rs.filter (fun r => !old.contains r)).foldl (fun s r => s.writeMarks r.ctx r.row r.segs) s1
  { s2 with sch := { s2.sch with packRows := rs } }

/-- Change the segments of the piece of ledger index `i`. -/
def State.mapSegs (s : State) (i : Nat) (f : Seg → Seg) : State :=
  s.setRows (s.sch.packRows.map (fun r => { r with segs := r.segs.map (fun g => if g.entry = i then f g else g) }))

/-! ### Rows of a piece -/

/-- Number in segmentation of the piece of ledger index `i`, or of a member's part (R159, R436). -/
def State.ridOf (s : State) (i : Nat) : Option Nat :=
  if memberBase ≤ i then some (i - memberBase) else (s.entry i).map (fun e => e.rid)

/-- Tokens that `n` rows of a piece of class `c` fill, whole ones (R302). -/
def State.tokensFilled (s : State) (g c n : Nat) : Nat := n / max 1 (s.cfgF g (R.CMD_SEQ_CLASS c) 13 8)

/-- The packer takes a row for every open piece of slot `j` (R163): its own columns, with their row number, into each sample of an admitted
piece as well, whose marks count the tokens that are filled. -/
def State.packRow (s : State) (j no : Nat) (row : Row) : State :=
  let rids := (s.slot j).lanes.filterMap (fun e => if e.2.opened then some e.2.rid else none)
  let mine (h : Held) : Bool := rids.contains h.rid && !h.rows.any (fun e => e.1 == no)
  let cut (h : Held) : Nat × Row := (no, { row with px := (row.px.drop h.cols.1).take (h.cols.2 + 1 - h.cols.1) })
  let fed := s.intk.held.filter mine
  let grow (q : SampleRec) : SampleRec := match fed.find? (fun h => h.rid == q.rid) with
    | some h => { q with rows := q.rows ++ [s.sampleRow h q.serial q.sample (cut h)] }
    | none => q
  let held := s.intk.held.map (fun h => if mine h then { h with rows := h.rows ++ [cut h] } else h)
  let s1 : State := { s with intk := { s.intk with held := held, samples := s.intk.samples.map grow } }
  fed.foldl (fun s h =>
    match s.intk.samples.find? (fun q => q.rid == h.rid) with
    | some q => s.mapSegs q.entry (fun g => if g.void then g else { g with len := min g.span (s.tokensFilled h.gen h.cls q.rows.length) })
    | none => s) s1

/-- The packer forgets rows it needs no more (R163): those of a piece whose trailing edge has been processed, unless the piece waits for
admission. -/
def State.tidyHeld (s : State) : State :=
  let waits (h : Held) : Bool := s.sch.pieces.any (fun p => p.st == 0 && !p.voided && s.ridOf p.entry == some h.rid)
  { s with intk := { s.intk with held := s.intk.held.filter (fun h => !h.done || waits h) } }

/-- The trailing edge of the piece of ledger index `i` has been processed: `n` tokens are filled (R302, Table 8.2). -/
def State.packTrail (s : State) (i rid n : Nat) : State :=
  let s1 := s.mapSegs i (fun g => { g with last := true, len := if g.void then 0 else min g.span n })
  State.tidyHeld { s1 with intk := { s1.intk with held := s1.intk.held.map (fun h => if h.rid = rid then { h with done := true } else h) } }

/-! ### Placement (R164) -/

/-- First position after a row's last segment (R164). -/
def PackRow.fill (r : PackRow) : Nat := r.segs.foldl (fun a g => max a (g.start + g.span)) 0

/-- Put one sample of class `c` (R164) into the lowest-numbered open row that has room, where samples share rows; else into a new row, the
lowest number that is not in use: the rows, and the place. -/
def placeOne (x c rows tokens limit : Nat) (solo : Bool) (g : Seg) (rs : List PackRow) : Option (List PackRow × (Nat × Nat)) :=
  let used (r : Nat) : Option PackRow := rs.find? (fun e => e.ctx == x && e.cls == c && e.row == r)
  let room (r : Nat) : Option PackRow :=
    (used r).filter (fun e => !solo && !e.solo && decide (e.segs.length < limit ∧ e.fill + g.span ≤ tokens))
  match (List.range rows).findSome? room with
  | some e =>
    some (rs.map (fun y => if y.same e then { y with segs := y.segs ++ [{ g with start := e.fill }] } else y), (e.row, e.fill))
  | none =>
    match (List.range rows).find? (fun r => (used r).isNone) with
    | some r => if g.span ≤ tokens ∧ 0 < limit then
        some (rs ++ [{ ctx := x, cls := c, row := r, solo := solo, segs := [{ g with start := 0 }] }], (r, 0)) else none
    | none => none

/-- A packed row is free once every piece with a place in it has been released (R311). -/
def State.rowHeld (s : State) (r : PackRow) : Bool :=
  s.sch.pieces.any (fun p => p.ctx == r.ctx && p.cls == r.cls && p.places.any (fun e => e.1 == r.row))

/-- Rows nothing holds are free; samples of pieces that are gone go with them. -/
def State.freeRows (s : State) : State :=
  let s1 := s.setRows (s.sch.packRows.filter s.rowHeld)
  { s1 with intk := { s1.intk with samples := s1.intk.samples.filter (fun q =>
    s1.sch.pieces.any (fun p => p.entry == q.entry && p.serial == q.serial)) } }

end Sys2Proof.Machine
end

