-- ==== Sys2Proof/Machine/Segment.lean ====
section
/-! DEFINITION. Segmentation (R155–R159): the LANE, WEB and PROGRAM rules over corrected rows, gaps, maximum length, and the
truncation of pieces by a cast (R105). -/

namespace Sys2Proof.Machine

/-- Fields of a lane in some generation (Table 8.5). -/
structure LaneCfg where
  /-- First column. -/
  c0 : Nat
  /-- Last column. -/
  c1 : Nat
  /-- Threshold. -/
  thr : Nat
  /-- Occupied below the threshold. -/
  pol : Bool
  /-- Class. -/
  cls : Nat
  /-- Least pixels. -/
  npix : Nat
  /-- Rows of hysteresis. -/
  hyst : Nat
  deriving DecidableEq, Repr

/-- One row as segmentation sees it. -/
structure SegRow where
  /-- The row, after stage 9. -/
  row : Row
  /-- Generation of its row trigger [R104]. -/
  gen : Nat
  /-- Stream row number. -/
  no : Nat
  /-- Count and generation of the row before, where there was one. -/
  prev : Option (Nat × Nat)
  /-- Dropped rows before it, in rows of the output. -/
  lost : Nat
  /-- Generation of a leading edge on a dropped row [R158]. -/
  lostGen : Nat
  deriving DecidableEq, Repr

/-- Segmentation mode of slot `j` in generation `g` (Table 8.1). -/
def State.segMode (s : State) (g j : Nat) : Nat := s.cfgF g (R.RUN_SEG_CFG (j / 4) (j % 4)) 0 2

/-- Lane `l` of slot `j` in generation `g`, where that generation has it. -/
def State.laneCfg (s : State) (g j l : Nat) : Option LaneCfg :=
  let r := j / 4
  let k := j % 4
  let w0 := s.cfg g (R.RUN_LANE r k l)
  let w1 := s.cfg g (R.RUN_LANE r k l + 4)
  let w2 := s.cfg g (R.RUN_LANE r k l + 8)
  if s.segMode g j = 2 ∧ l < s.cfgF g (R.RUN_SEG_CFG r k) 2 5 ∧ l < 16 then
    some { c0 := w0 % 2 ^ 14, c1 := w0 / 2 ^ 16 % 2 ^ 14, thr := w1 % 2 ^ 16, pol := w1.testBit 16, cls := w1 / 2 ^ 24 % 64,
           npix := w2 % 2 ^ 14, hyst := w2 / 2 ^ 16 % 256 }
  else none

/-- The occupancy rule (R155); a U8 value is compared as v × 257. -/
def LaneCfg.occ (q : LaneCfg) (u16 : Bool) (px : List Nat) : Bool :=
  let vs := (px.drop q.c0).take (q.c1 + 1 - q.c0)
  let hit (v : Nat) : Bool := let x := if u16 then v else v * 257; if q.pol then decide (x < q.thr) else decide (q.thr ≤ x)
  decide (q.npix ≤ (vs.filter hit).length)

/-- Segmentation entry `l` of slot `j`. -/
def State.seg (s : State) (j l : Nat) : SegLane := KMap.getD (s.slot j).lanes l {}

/-- Store segmentation entry `l` of slot `j`. -/
def State.setSeg (s : State) (j l : Nat) (x : SegLane) : State :=
  s.setSlot j { s.slot j with lanes := KMap.put (s.slot j).lanes l x }

/-- Greatest length of a piece of class `c` in rows: Lc tokens of ct rows (R158, R315). -/
def State.maxRows (s : State) (g c : Nat) : Nat := s.cfgF g (R.CMD_SEQ_CLASS c) 0 13 * s.cfgF g (R.CMD_SEQ_CLASS c) 13 8

/-- The earliest instant of a cast after generation `g` that changed ROW-scoped fields of slot `j` (R105). -/
def State.cutAt (s : State) (g j : Nat) : Option Nat :=
  let l := (s.stage.gens.filter (fun e => decide (g < e.gen) && e.rows.contains j)).map (fun e => e.instant)
  match l.getLast? with
  | some t => some t
  | none => if g < s.liveGen ∧ s.stage.liveRows.contains j then some s.stage.liveInstant else none

/-- Columns a piece of lane `l` covers: its lane, or the whole width in WEB mode (R163). -/
def State.pieceCols (s : State) (g j l : Nat) : Nat × Nat :=
  let w0 := s.cfg g (R.RUN_LANE (j / 4) (j % 4) (l % 16))
  if s.segMode g j = 1 then (0, 2 ^ 14) else (w0 % 2 ^ 14, w0 / 2 ^ 16 % 2 ^ 14)

/-- A piece becomes corrupt for `cause`: line control marks it, or its open request carries the mark (R159). -/
def State.corruptPiece (s : State) (rid cause : Nat) : State :=
  match s.line.ledger.find? (fun e => e.2.rid == rid) with
  | some e => s.setCode e.1 4 cause
  | none => if s.sch.pieces.any (fun p => p.entry == memberBase + rid) then s.setCode (memberBase + rid) 4 cause else { s with intk := { s.intk with opens := s.intk.opens.map (fun q =>
      if q.rid = rid ∧ q.corrupt = false then { q with corrupt := true, cause := cause } else q) } }

/-- Mark the open piece of entry `x` corrupt, counting it once (Table 8.4). -/
def State.segCorrupt (s : State) (j : Nat) (x : SegLane) (cause : Nat) : State × SegLane :=
  if x.corrupt || !x.opened then (s, x)
  else ((s.inc (R.RUN_SEG_CORRUPT (j / 4) (j % 4))).corruptPiece x.rid cause, { x with corrupt := true })

/-- Open a piece at row `leadRow`: the request goes to line control, and the packer starts to hold its rows (R159, R163). -/
def State.segOpen (s : State) (j l : Nat) (x : SegLane) (leadRow : Nat) (edgeUnc : Bool) (cause : Nat) : State × SegLane :=
  let r := j / 4
  let k := j % 4
  let rid := s.intk.nextRid
  let q : OpenReq := { rid := rid, slot := j, lane := l % 16, stream := s.cfgF x.gen (R.RUN_SRC r k) 2 6, cls := x.cls,
                       lead := x.lead, leadTime := x.leadTime, gen := x.gen, corrupt := x.corrupt, edgeUnc := edgeUnc,
                       cause := if x.corrupt then cause else 0, seg := x.seg }
  let cols := s.pieceCols x.gen j l
  let rows := ((s.slot j).recent.filter (fun e => decide (leadRow ≤ e.1))).map (fun e =>
    (e.1, { e.2 with px := (e.2.px.drop cols.1).take (cols.2 + 1 - cols.1) }))
  let h : Held := { rid := rid, slot := j, cls := x.cls, gen := x.gen, leadRow := leadRow, cols := cols, rows := rows }
  let s1 : State := { s with intk := { s.intk with opens := s.intk.opens ++ [q], nextRid := rid + 1, held := s.intk.held ++ [h] } }
  let s2 := s1.inc (R.RUN_SEG_PIECES r k)
  let s3 := if x.corrupt then s2.inc (R.RUN_SEG_CORRUPT r k) else s2
  (s3, { x with opened := true, rid := rid, leadRow := leadRow, run := 0, cont := none })

/-- Close the open piece of entry `x` at trailing-edge count `trail` (R159): its extent ends before stream row `stop`. The entry is IDLE. -/
def State.segClose (s : State) (x : SegLane) (trail rows stop : Nat) (trunc : Bool) : State × SegLane :=
  ({ s with intk := { s.intk with
      trails := s.intk.trails ++ [(x.rid, trail, rows, trunc)]
      held := s.intk.held.map (fun h =>
        if h.rid = x.rid then { h with closed := true, rows := h.rows.filter (fun e => decide (e.1 < stop)) } else h)
      samples := s.intk.samples.map (fun q =>
        if q.rid = x.rid then { q with rows := q.rows.filter (fun e => decide (e.1 < stop)) } else q) } },
   { skipTo := x.skipTo, lastEdge := x.lastEdge })

/-- Trailing count of what came before a row: the last dropped row, else the row before. -/
def SegRow.before (c : SegRow) : Nat :=
  match c.row.gap with
  | some g => g.2.1
  | none => match c.prev with | some p => p.1 | none => c.row.count

/-- Cause of a row's own loss: free, since the spec names no code for a dropped ROI (R150, log 2). -/
def State.roiCause (s : State) : Nat := openCode (Config.corruptCause s.free).toNat

/-! ### Rows gone by, and casts -/

/-- A row as segmentation sees it, given count and generation of the row before (R158). -/
def State.segRow (s : State) (j : Nat) (prev : Option (Nat × Nat)) (no : Nat) (row : Row) : SegRow :=
  let g := s.rowGen j row.time
  let n := s.linesPerRow g j
  { row := row, gen := g, no := no, prev := prev
    lost := match row.gap with | some q => (q.2.2 + n - 1) / n | none => 0
    lostGen := match prev with | some p => p.2 | none => (s.slot j).enGen }

/-- Rows of slot `j` from stream row `no` on, among those it keeps. -/
def State.rowsFrom (s : State) (j no : Nat) : List SegRow :=
  ((s.slot j).recent.foldl (fun (a : List SegRow × Option (Nat × Nat)) e =>
    let c := s.segRow j a.2 e.1 e.2
    (a.1 ++ [c], some (e.2.count, c.gen))) ([], none)).1.filter (fun c => decide (no ≤ c.no))

/-- Rows a list of rows stands for, the dropped ones before each included. -/
def spanOf (cs : List SegRow) : Nat := cs.foldl (fun a c => a + c.lost + 1) 0

/-- A cast that changed ROW-scoped fields truncates what entry `x` has open, at the row triggered at `t` (R105). -/
def State.cutBy (s : State) (j : Nat) (x : SegLane) (t : Nat) : Bool :=
  match s.cutAt x.gen j with
  | some k => decide (k ≤ t)
  | none => false

/-- A cast truncates the open piece of entry `x`, whose rows so far include `cs`, at the last row before its instant (R105). Answers the rows
of `cs` from the instant on; the gap before the first of them stays with the old piece. -/
def State.segCut (s : State) (j : Nat) (x : SegLane) (cs : List SegRow) : (State × SegLane) × List SegRow :=
  let a := s.segCorrupt j x E_CAST_TRUNC
  let s1 := a.1.raiseLim E_CAST_TRUNC j ms {}
  match cs.dropWhile (fun c => !s.cutBy j x c.row.time) with
  | [] => (s1.segClose a.2 x.last x.rows (x.stop) true, [])
  | p :: ps => (s1.segClose a.2 p.before (x.rows + p.lost - spanOf (p :: ps)) p.no true, { p with row := { p.row with gap := none }, lost := 0 } :: ps)

/-! ### Maximum length (R158 rule 3) -/

/-- Count of dropped row `k` of the gap before row `c`: the first and the last are known, the others taken as evenly spaced between them
(DESIGN CHOICE, log 112). -/
def SegRow.lostCount (c : SegRow) (k : Nat) : Nat :=
  match c.row.gap with
  | some g => ((g.1 : Int) + diff48 g.2.1 g.1 * k / (c.lost - 1 : Nat)).toNat % 2 ^ 48
  | none => c.row.count

/-- The open piece of entry `x` reaches its class's maximum length (R158 rule 3): it closes corrupt at `trail`, and a piece of the class may
continue it. -/
def State.segLong (s : State) (j : Nat) (x : SegLane) (trail rows stop : Nat) : State × SegLane :=
  let a := s.segCorrupt j x E_PIECE_LENGTH
  let b := (a.1.raise E_PIECE_LENGTH {}).segClose a.2 trail rows stop false
  (b.1, { b.2 with cont := some x.cls, gen := x.gen })

/-- A piece marked corrupt continues one that was too long, from count `lead` (R158 rule 3). -/
def State.segMore (s : State) (j l : Nat) (x : SegLane) (cls gen lead : Nat) (c : SegRow) (cause : Nat) : State × SegLane :=
  s.segOpen j l { x with cls := cls, gen := gen, lead := lead, leadTime := c.row.time, corrupt := true, last := lead, rows := 0, rowsLast := 0,
                         stop := c.no } c.no false cause

/-- An occupied row belongs to the open piece of entry `x`, which closes when it has reached its maximum length. A piece that would outgrow it
because rows in between were not occupied closes at its last occupied row, and this row continues it (DEDUCED, log 112). -/
def State.segTake (s : State) (j l : Nat) (x : SegLane) (c : SegRow) : State × SegLane :=
  let most := max 1 (s.maxRows x.gen x.cls)
  let a := if most < x.rows + 1 then (let b := s.segLong j x x.last x.rowsLast x.stop; b.1.segMore j l b.2 x.cls c.gen c.row.count c E_PIECE_LENGTH)
           else (s, x)
  let n := a.2.rows + 1
  let y : SegLane := { a.2 with rows := n, rowsLast := n, last := c.row.count, stop := c.no + 1, run := 0 }
  if max 1 (a.1.maxRows y.gen y.cls) ≤ n then a.1.segLong j y y.last n y.stop else (a.1, y)

/-- The dropped rows before `c`, from row `k` of the gap on, belong to the open piece of entry `x`, or continue one that was too long (R158
rules 1 and 3). -/
def State.segGap (s : State) (j l : Nat) (x : SegLane) (c : SegRow) (k : Nat) : Nat → State × SegLane
  | 0 => (s, x)
  | n + 1 =>
    let left := c.lost - k
    if left = 0 then (s, x)
    else if !x.opened then
      match x.cont with
      | some cls => let b := s.segMore j l x cls c.lostGen (c.lostCount k) c E_PIECE_LENGTH; b.1.segGap j l b.2 c k n
      | none => (s, x)
    else
      let room := max 1 (s.maxRows x.gen x.cls) - x.rows
      if left < room then
        (s, { x with rows := x.rows + left, rowsLast := x.rows + left, last := c.lostCount (c.lost - 1), stop := c.no, run := 0 })
      else
        let b := if room = 0 then s.segLong j x x.last x.rowsLast x.stop
                 else s.segLong j x (c.lostCount (k + room - 1)) (x.rows + room) c.no
        b.1.segGap j l b.2 c (k + room) n

/-- The gap before `c` meets an open piece, or one to be continued (R158 rule 1): it is marked corrupt and goes on through the gap. -/
def State.segThrough (s : State) (j l : Nat) (x : SegLane) (c : SegRow) : State × SegLane :=
  let a := if c.lost = 0 then (s, x) else s.segCorrupt j x E_BLOCK_TRUNC
  a.1.segGap j l a.2 c 0 (2 * c.lost + 2)

/-! ### LANE -/

/-- A row counted as occupied belongs to the lane's open piece, or to one that continues it. -/
def State.laneOcc (s : State) (j l : Nat) (x : SegLane) (c : SegRow) : State × SegLane :=
  let a := match x.cont with
    | some cls => if x.opened then (s, x) else
        let k := match s.laneCfg c.gen j l with | some p => p.cls | none => cls
        s.segMore j l x k c.gen c.row.count c E_PIECE_LENGTH
    | none => (s, x)
  if a.2.opened then a.1.segTake j l a.2 c else a

/-- The counted rows `cs` of a lane open a piece (R155): their extent goes to it, up to a cast that truncates it; the rows from that
instant on count anew, as `again` says (R105). -/
def State.laneOpen (s : State) (again : State → SegLane → SegRow → State × SegLane) (j l : Nat) (x : SegLane) (cls : Nat)
    (cs : List SegRow) (edgeUnc : Bool) (cause : Nat) : State × SegLane :=
  let z : SegLane := { x with run := 0, cls := cls, gen := x.first.2.2, lead := x.first.1, leadTime := x.first.2.1, last := x.first.1, rows := 0,
                              rowsLast := 0, stop := x.leadRow, corrupt := x.corrupt || edgeUnc }
  let b := s.segOpen j l z x.leadRow edgeUnc cause
  let old := cs.takeWhile (fun c => !s.cutBy j z c.row.time)
  let d := old.foldl (fun a c => a.1.laneOcc j l a.2 c) b
  match cs.drop old.length with
  | [] => d
  | ps =>
    let e := if d.2.opened then d.1.segCut j { d.2 with rows := d.2.rows + spanOf ps } ps else (d, ps)
    e.2.foldl (fun a c => again a.1 a.2 c) e.1

/-- IDLE lane, no gap before the row (R155, R158 rule 3). -/
def State.laneIdle (s : State) (again : State → SegLane → SegRow → State × SegLane) (j l : Nat) (x : SegLane) (q : LaneCfg) (c : SegRow)
    (occ : Bool) : State × SegLane :=
  if !occ then (s, { x with run := 0, corrupt := false, cont := none })
  else if x.cont.isSome then
    let b := s.laneOcc j l x c
    if c.row.bad then b.1.segCorrupt j b.2 b.1.roiCause else b
  else
    let y : SegLane := if x.run = 0 then
        { x with run := 1, first := (c.row.count, c.row.time, c.gen), leadRow := c.no, corrupt := c.row.bad }
      else { x with run := x.run + 1, corrupt := x.corrupt || c.row.bad }
    if q.hyst ≤ y.run then
      let cls := match s.laneCfg y.first.2.2 j l with | some p => p.cls | none => q.cls
      s.laneOpen again j l y cls ((s.rowsFrom j y.leadRow).filter (fun d => decide (d.no ≤ c.no))) false s.roiCause
    else (s, y)

/-- An open lane takes a row after the gap before it (R155): occupied rows at or after the instant of a cast end its piece there (R105). -/
def State.laneRun (s : State) (again : State → SegLane → SegRow → State × SegLane) (j l : Nat) (x : SegLane) (q : LaneCfg) (c : SegRow)
    (occ : Bool) : State × SegLane :=
  if occ && s.cutBy j x c.row.time then
    let d := s.segCut j { x with rows := x.rows + 1 } ((s.rowsFrom j x.leadRow).filter (fun d => decide (d.no ≤ c.no)))
    d.2.foldl (fun a c => again a.1 a.2 c) d.1
  else if occ then s.segTake j l x c
  else if q.hyst ≤ x.run + 1 then s.segClose x x.last x.rowsLast x.stop false
  else (s, { x with rows := x.rows + 1, run := x.run + 1 })

/-- The gap before row `c` meets lane `l` (R158 rules 1 and 2): an IDLE lane opens a piece where it counts occupied rows, or where the row
after the gap is occupied. A cast among the counted rows may leave the lane counting anew; `n` bounds the casts. -/
def State.laneGap (s : State) (again : State → SegLane → SegRow → State × SegLane) (j l : Nat) (x : SegLane) (q : LaneCfg) (c : SegRow)
    (occ : Bool) : Nat → State × SegLane
  | 0 => (s, x)
  | n + 1 =>
    match c.row.gap with
    | none => (s, x)
    | some g =>
      if x.opened || x.cont.isSome then s.segThrough j l x c
      else if 0 < x.run then
        let cls := match s.laneCfg x.first.2.2 j l with | some p => p.cls | none => q.cls
        let b := s.laneOpen again j l x cls ((s.rowsFrom j x.leadRow).filter (fun d => decide (d.no < c.no))) true E_BLOCK_TRUNC
        b.1.laneGap again j l b.2 q c occ n
      else if occ then
        let cls := match s.laneCfg c.lostGen j l with | some p => p.cls | none => q.cls
        let y : SegLane := { x with cls := cls, gen := c.lostGen, lead := g.1, leadTime := c.row.time, last := g.1, rows := 0, rowsLast := 0,
                                    stop := c.no, corrupt := true }
        let b := s.segOpen j l y c.no true E_BLOCK_TRUNC
        b.1.segThrough j l b.2 c
      else (s, x)

/-- One lane takes one row (R155, R158, R105): an open piece under its own generation, an idle lane under the row's. `n` bounds how many
casts may cut the rows that are taken again. -/
def State.laneRow (s : State) (j l : Nat) (x : SegLane) (c : SegRow) : Nat → State × SegLane
  | 0 => (s, x)
  | n + 1 =>
    let again (s : State) (x : SegLane) (c : SegRow) : State × SegLane := s.laneRow j l x c n
    let here := s.laneCfg c.gen j l
    let q? := if x.opened then (match s.laneCfg x.gen j l with | some q => some q | none => here) else here
    match q? with
    | none => if x.opened then s.segClose x x.last x.rowsLast x.stop false else (s, if x = {} then x else { x with run := 0, cont := none })
    | some q =>
      let occ := q.occ (decide (s.cfgF c.gen (R.RUN_SRC (j / 4) (j % 4)) 10 1 = 1)) c.row.px
      let a := s.laneGap again j l x q c occ (n + 1)
      let a := if a.2.opened && c.row.bad then a.1.segCorrupt j a.2 a.1.roiCause else a
      if a.2.opened then a.1.laneRun again j l a.2 q c occ else a.1.laneIdle again j l a.2 q c occ

/-- Casts that one row can meet at most: the generations still kept. -/
def State.castBound (s : State) : Nat := s.stage.gens.length + 3

/-- LANE mode: lane `l` of slot `j` takes row `c`. -/
def State.segLane (s : State) (j l : Nat) (c : SegRow) : State :=
  let x := s.seg j l
  let b := s.laneRow j l x c s.castBound
  if b.2 = x then b.1 else b.1.setSeg j l b.2

/-! ### WEB -/

/-- Origin, length and class of slot `j`'s web segments in generation `g`, in WEB mode (Table 8.4). -/
def State.webCfg (s : State) (g j : Nat) : Option (Nat × Nat × Nat) :=
  let r := j / 4
  let k := j % 4
  if s.segMode g j = 1 then
    some ((s.cfg g (R.RUN_SEG_ORIGIN r k) + 2 ^ 32 * s.cfg g (R.RUN_SEG_ORIGIN r k + 4)) % 2 ^ 48,
          max 1 (s.cfgF g (R.RUN_SEG_LEN r k) 0 24), s.cfgF g (R.RUN_SEG_LEN r k) 24 6)
  else none

/-- Open a web segment at count `lead`, ending at count `e` (R156). -/
def State.webOpen (s : State) (j : Nat) (x : SegLane) (c : SegRow) (cls lead e gen : Nat) (corrupt : Bool) : State × SegLane :=
  s.segOpen j 16 { x with cls := cls, gen := gen, lead := lead, leadTime := c.row.time, last := lead, corrupt := corrupt,
                          rows := 0, rowsLast := 0, endC := e, stop := c.no } c.no false E_BLOCK_TRUNC

/-- Dropped rows before `c` whose count lies from `lo` to `hi`. -/
def SegRow.lostIn (c : SegRow) (lo hi : Nat) : Nat :=
  ((List.range c.lost).filter (fun k => decide (lo ≤ c.lostCount k ∧ c.lostCount k ≤ hi))).length

/-- Segments whose start lies inside a gap open at their start count, corrupt, one after another (R158). -/
def State.webGap (s : State) (j : Nat) (x : SegLane) (c : SegRow) (o len cls i hi : Nat) : Nat → State × SegLane
  | 0 => (s, x)
  | n + 1 =>
    let st := o + i * len
    if hi < st then (s, x)
    else if x.opened && decide (st ≤ x.endC) then s.webGap j x c o len cls (i + 1) hi n
    else
      let a := if x.opened then s.segClose x x.endC x.rows c.no false else (s, x)
      let b := a.1.webOpen j a.2 c cls st (st + len - 1) c.lostGen true
      b.1.webGap j { b.2 with rows := c.lostIn st (st + len - 1) } c o len cls (i + 1) hi n

/-- The gap before a row, in WEB mode (R158): a segment it meets is corrupt. -/
def State.webAtGap (s : State) (j : Nat) (x : SegLane) (c : SegRow) : State × SegLane :=
  match c.row.gap with
  | none => (s, x)
  | some g =>
    let a := if x.opened && decide (g.1 ≤ x.endC) then
        (let b := s.segCorrupt j x E_BLOCK_TRUNC; (b.1, { b.2 with rows := x.rows + c.lostIn g.1 x.endC })) else (s, x)
    match s.webCfg c.lostGen j with
    | some (o, len, cls) => a.1.webGap j a.2 c o len cls ((g.1 + len - 1 - o) / len) g.2.1 (g.2.1 - g.1 + 2)
    | none => a

/-- A cast truncates the open segment (R105): a continuation opens at this row, in the new generation, with the index of the segment it
continues. -/
def State.webCut (s : State) (j : Nat) (x : SegLane) (c : SegRow) : State × SegLane :=
  let idx : Option Int := match x.seg, s.webCfg x.gen j with
    | some i, _ => some i
    | none, some (o, len, _) => some (((x.lead : Int) - o) / (len : Nat))
    | none, none => none
  let a := s.segCorrupt j x E_CAST_TRUNC
  let b := (a.1.raiseLim E_CAST_TRUNC j ms {}).segClose a.2 c.before x.rows c.no true
  match b.1.webCfg c.gen j with
  | some (o, len, cls) =>
    let e := if o ≤ c.row.count then o + ((c.row.count - o) / len + 1) * len - 1 else o - 1
    b.1.webOpen j { b.2 with seg := idx } c cls c.row.count e c.gen false
  | none => b

/-- The segment a row belongs to opens, where none is open (R156). -/
def State.webStart (s : State) (j : Nat) (x : SegLane) (c : SegRow) : State × SegLane :=
  if x.opened then (s, x)
  else match s.webCfg c.gen j with
    | some (o, len, cls) =>
      if o ≤ c.row.count then
        let st := o + (c.row.count - o) / len * len
        let met := match c.row.gap with | some g => decide (st ≤ g.2.1) | none => false
        s.webOpen j x c cls st (st + len - 1) c.gen met
      else (s, x)
    | none => (s, x)

/-- A row that moves forward, in WEB mode. -/
def State.webForward (s : State) (j : Nat) (x : SegLane) (c : SegRow) : State × SegLane :=
  let a := s.webAtGap j x c
  let a := if a.2.opened && a.1.cutBy j a.2 c.row.time && decide (c.row.count ≤ a.2.endC) then a.1.webCut j a.2 c else a
  let a := if a.2.opened && decide (a.2.endC < c.row.count) then a.1.segClose a.2 a.2.endC a.2.rows c.no false else a
  let a := a.1.webStart j a.2 c
  let a := if a.2.opened && c.row.bad then a.1.segCorrupt j a.2 a.1.roiCause else a
  (a.1, if a.2.opened then { a.2 with rows := a.2.rows + 1, rowsLast := a.2.rows + 1, last := c.row.count, stop := c.no + 1 } else a.2)

/-- What member alignment adds to the counts of slot `j`'s class in generation `g` (R434): nothing for a class this device does not
share as a member; none while a member is not aligned. -/
def State.alignOff (s : State) (g j : Nat) : Option Nat :=
  match s.webCfg g j with
  | none => some 0
  | some (_, _, cls) =>
    if s.shareRole g cls ≠ 2 then some 0
    else
      let ch := s.classChan g cls
      if s.bit (R.LNK_ALIGN ch + 4) 16 then some (s.rd64 (R.LNK_ALIGN ch) % 2 ^ 48) else none

/-- A row with its counts translated into aligned counts (R434). -/
def SegRow.aligned (c : SegRow) (off : Nat) : SegRow :=
  let up (n : Nat) : Nat := (n + off) % 2 ^ 48
  if off = 0 then c
  else { c with row := { c.row with count := up c.row.count, gap := c.row.gap.map (fun g => (up g.1, up g.2.1, g.2.2)) },
                prev := c.prev.map (fun p => (up p.1, p.2)) }

/-- A row whose gap belongs to no segment up to count `e` (R156): only what lies above is left of it. -/
def SegRow.past (c : SegRow) (e : Nat) : SegRow :=
  { c with lost := if (c.row.gap.map (fun g => decide (g.2.1 ≤ e))).getD true then 0 else c.lostIn (e + 1) (2 ^ 48)
           row := { c.row with gap := match c.row.gap with
             | some g => if g.2.1 ≤ e then none else some (max g.1 (e + 1), g.2.1, max 1 (c.lostIn (e + 1) (2 ^ 48)))
             | none => none } }

/-- The WEB rule on one row in the device's own or aligned counts (R156): forward motion only. -/
def State.webRow (s : State) (j : Nat) (c : SegRow) : State :=
  let x := s.seg j 16
  if !x.opened && decide (s.segMode c.gen j ≠ 1) then (if x = {} then s else s.setSeg j 16 {})
  else
    let back := match c.prev with | some p => decide (diff48 c.row.count p.1 ≤ 0) | none => false
    if back then
      (if x.opened then
        let a := s.segCorrupt j x E_WEB_REVERSE
        let s1 := a.1.raiseLim E_WEB_REVERSE j ms {}
        let b := s1.segClose a.2 (match c.prev with | some p => p.1 | none => x.last) x.rows c.no false
        b.1.setSeg j 16 { b.2 with skipTo := some x.endC }
       else s)
    else match x.skipTo with
      | some e => if c.row.count ≤ e then s else (let b := s.webForward j { x with skipTo := none } (c.past e); b.1.setSeg j 16 b.2)
      | none => let b := s.webForward j x c; b.1.setSeg j 16 b.2

/-- The WEB rule (R156, R434): a member that is not aligned forms no part; one it has open ends corrupt. -/
def State.segWeb (s : State) (j : Nat) (c : SegRow) : State :=
  match s.alignOff c.gen j with
  | some off => s.webRow j (c.aligned off)
  | none =>
    let x := s.seg j 16
    if x.opened then
      let a := s.segCorrupt j x E_NLX_DOWN
      let b := a.1.segClose a.2 x.last x.rows x.stop false
      b.1.setSeg j 16 b.2
    else s.setSeg j 16 {}

/-! ### PROGRAM -/

/-- The program's lane `x` takes row `c` while it is occupied, that is, between the program's edges (R157): gaps and maximum length of R158
apply. A piece that reaches its maximum length at or after the instant of a cast is truncated there (R105), and the rows from it on continue
as another; `n` bounds the casts. -/
def State.progRow (s : State) (j l : Nat) (x : SegLane) (c : SegRow) : Nat → State × SegLane
  | 0 => (s, x)
  | n + 1 =>
    let a := s.segThrough j l x c
    let a := match a.2.cont with
      | some cls => if a.2.opened then a else a.1.segMore j l a.2 cls c.gen c.row.count c E_PIECE_LENGTH
      | none => a
    let a := if a.2.opened && c.row.bad then a.1.segCorrupt j a.2 a.1.roiCause else a
    if a.2.opened && decide (max 1 (a.1.maxRows a.2.gen a.2.cls) ≤ a.2.rows + 1) && a.1.cutBy j a.2 c.row.time then
      let d := a.1.segCut j { a.2 with rows := a.2.rows + 1 } ((a.1.rowsFrom j a.2.leadRow).filter (fun d => decide (d.no ≤ c.no)))
      d.2.foldl (fun b c => b.1.progRow j l b.2 c n) (d.1.1, { d.1.2 with cont := some a.2.cls, gen := a.2.gen })
    else if a.2.opened then a.1.segTake j l a.2 c else a

/-- PROGRAM mode: lane `l` of slot `j` takes row `c`. -/
def State.segProg (s : State) (j l : Nat) (c : SegRow) : State :=
  let b := s.progRow j l (s.seg j l) c s.castBound
  b.1.setSeg j l b.2

/-- The program has posted a leading edge at row `c0`, the first of `cs` (R157). The rows since belong to the piece, with their gaps (R158);
right after a gap the lane was IDLE in, rule 2 applies. -/
def State.progLead (s : State) (j l : Nat) (x : SegLane) (cls : Nat) (c0 : SegRow) (cs : List SegRow) : State × SegLane :=
  let y : SegLane := { x with cls := cls, gen := c0.gen, lead := c0.row.count, leadTime := c0.row.time, corrupt := c0.row.bad, rows := 0,
                              rowsLast := 0, last := c0.row.count, stop := c0.no, lastEdge := c0.no }
  let b := match c0.row.gap with
    | some g => s.segOpen j l { y with gen := c0.lostGen, lead := g.1, last := g.1, corrupt := true } c0.no true E_BLOCK_TRUNC
    | none => s.segOpen j l y c0.no false s.roiCause
  cs.foldl (fun a c => a.1.progRow j l a.2 c s.castBound) b

/-- The program has posted a trailing edge at row `h` of its history, of the given count and time (R157): rows that came after it are not of
the piece, and a piece of before a cast is truncated at its instant (R105). An edge before the start of a continuation ends it at its first
row. -/
def State.progTrail (s : State) (j : Nat) (x : SegLane) (no count time : Nat) : State × SegLane :=
  if !x.opened then (s, { x with cont := none })
  else
    let cs := s.rowsFrom j x.leadRow
    let after := cs.filter (fun c => decide (no < c.no))
    let rows := x.rows - spanOf after
    if s.cutBy j x time then (s.segCut j { x with rows := rows } (cs.filter (fun c => decide (c.no ≤ no)))).1
    else if no < x.leadRow then s.segClose x x.lead 1 (x.leadRow + 1) false
    else s.segClose x count rows (no + 1) false

/-- An edge record posted to `RUN_SEG_POST` of slot `j` (R157): none where it names a row outside the history or breaks the
order of edges in its lane. -/
def State.segPost (s : State) (j : Nat) (rec : Nat) : Option State :=
  let kind := rec % 4
  let l := rec / 4 % 16
  let no := rec / 2 ^ 32 % 2 ^ 32
  let x := s.seg j l
  let occupied := x.opened || x.cont.isSome
  match (s.slot j).hist.find? (fun h => h.1 % 2 ^ 32 == no) with
  | none => none
  | some h =>
    if h.1 < x.lastEdge then none
    else if kind = 1 ∧ occupied = false then
      match s.rowsFrom j h.1 with
      | [] => none
      | c :: cs => let b := s.progLead j l x (rec / 64 % 64) c (c :: cs); some (b.1.setSeg j l b.2)
    else if kind = 2 ∧ occupied = true then
      let b := s.progTrail j x h.1 h.2.1 h.2.2.1
      some (b.1.setSeg j l { b.2 with lastEdge := h.1 })
    else none

/-! ### A row -/

/-- Stamps the gating network keeps (R157). -/
def histMax : Nat := 65536

/-- Segmentation takes one corrected row of slot `j` (R155–R158): every open piece under its own generation, every idle lane
under the row's. -/
def State.segmentRow (s : State) (j : Nat) (row : Row) : State :=
  let x := s.slot j
  let c := s.segRow j x.lastRow x.rowNo row
  let s0 := s.setSlot j { x with recent := keepLast (x.recent ++ [(x.rowNo, row)]) histMax }
  let s1 := (s0.packRow j c.no row).segWeb j c
  let s2 := (List.range 16).foldl (fun s l =>
    let y := s.seg j l
    if (y.opened || y.cont.isSome) && decide (s.segMode y.gen j = 3) then s.segProg j l c else s.segLane j l c) s1
  let z := s2.slot j
  s2.setSlot j { z with rowNo := z.rowNo + 1, lastRow := some (row.count, c.gen) }

/-- The stream of a slot that a cast switched off has ended: with its last waiting line gone, its open pieces are truncated at the
last row before the instant (R105, R146). -/
def State.slotEnd (s : State) (j : Nat) : State :=
  if s.slotOn j ∨ (s.slot j).inq ≠ [] then s
  else
    let last := (s.slot j).lastRow
    (List.range 17).foldl (fun s l =>
      let x := s.seg j l
      if x.opened then
        let a := s.segCorrupt j x E_CAST_TRUNC
        let b := (a.1.raiseLim E_CAST_TRUNC j ms {}).segClose a.2 (match last with | some p => p.1 | none => x.last) x.rows (s.slot j).rowNo true
        b.1.setSeg j l b.2
      else if x = {} then s else s.setSeg j l { x with run := 0, cont := none }) s

end Sys2Proof.Machine
end

