-- ==== Sys2Proof/Machine/Chain.lean ====
section
/-! DEFINITION. The Nolox chain (R123–R132, R426–R437, R453): lanes, ports, frames received, link retry, windows, share messages
and count alignment. -/

namespace Sys2Proof.Machine

/-! ### Ports -/

/-- `LNK_CHAIN_STAT` as the ports stand: ports up, devices reachable through them, and for a ring whether one of its two links is
down. -/
def State.chainStat (s : State) : State :=
  let up := (List.range 4).filter s.portUp
  let ids := (List.range 64).filter (fun d => up.any (fun p => (s.nlx p).reach.contains d))
  let broken := s.topo = 1 ∧ !(s.portUp 0 && s.portUp 1)
  s.wr R.LNK_CHAIN_STAT (up.foldl (fun a p => a + 2 ^ p) 0 + ids.length * 16 + b2n broken * 2 ^ 11)

/-- Frames a port gives back go to the front of those that wait, for the route that replaces it (R428). -/
def State.returnFrames (s : State) (p : Nat) : State :=
  let x := s.nlx p
  let own (f : NlxFrame) : Bool := f.src == s.chainId
  let s1 : State := { s with chain := { s.chain with
    inject := x.replay.filter own ++ s.chain.inject, transit := x.replay.filter (fun f => !own f) ++ s.chain.transit } }
  s1.setNlx p {}

/-- Chain time is lost with the route to the time root (R425). -/
def State.checkTimeRoute (s : State) : State :=
  if s.timSrc = 2 ∧ !s.isTimeRoot ∧ (s.route (s.fld R.LNK_CHAIN_CFG 12 6)).isNone then s.chainTimeLost else s

/-- Port `p` goes DOWN or is HELD, with E_NLX_DOWN word 3 = `why` (Table 19.10). -/
def State.portDrop (s : State) (p st why : Nat) : State :=
  let s1 := (s.setFld (R.LNK_NLX_PORT_STAT p) 0 2 st).inc (R.LNK_NLX_DOWNS p)
  let s2 := (s1.returnFrames p).chainStat
  ((s2.raise E_NLX_DOWN { w2 := some p, w3 := some why }).checkTimeRoute).flushFrames

/-- The live configuration enables port `p`. -/
def State.portOn (s : State) (p : Nat) : Bool := s.bit R.LNK_CHAIN_CFG (8 + p) && decide (s.topo ≠ 0)

/-! ### Lanes -/

/-- State of lane `l`: 0 DOWN, 1 TRAINING, 2 UP, 3 IDLE, 4 RETRAIN. -/
def State.laneState (s : State) (l : Nat) : Nat := s.fld (R.LNK_NLX_LANE_STAT l) 0 3

/-- Lane `l` begins a retrain (Table 6.5): counted, with E_LANE_RETRAIN. -/
def State.laneRetrain (s : State) (l : Nat) : State :=
  let x := s.lane l
  let s1 := ((s.setFld (R.LNK_NLX_LANE_STAT l) 0 3 4).setBit (R.LNK_NLX_LANE_STAT l) 3 false).inc (R.LNK_NLX_RETRAINS l)
  (s1.setLane l { x with retrains := x.retrains.filter (fun a => decide (s.now < a + 1000 * ms)) ++ [s.now], errs := (0, 0), hdrs := 0 }).raise
    E_LANE_RETRAIN {}

/-- Lane `l` goes to full training, or its port down where the lane's port is not enabled any more. -/
def State.laneTrain (s : State) (l : Nat) : State :=
  (s.setFld (R.LNK_NLX_LANE_STAT l) 0 3 1).setBit (R.LNK_NLX_LANE_STAT l) 3 false

/-- NLX_TRAINING_DONE (R124): full training of lane `l` ends; on success the taps in use are the peer's adjustment or the staged
ones (R123), else the lane and its port are down. -/
def execNlxTrainingDone (t : Nat) (l : Fin 8) (ok : Bool) (taps : BitVec 16) (ctle : BitVec 4) (s : State) :
    Host.Outcome State Fault Refusal :=
  let s := s.at' t
  let p := l.val / 2
  if !s.running || !s.portOn p || decide (1 < s.laneState l) then done s
  else if ok then
    let cfg := s.rd (R.LNK_NLX_TXEQ l)
    let lin := if s.fld (R.LNK_NLX_RXEQ l) 0 2 = 2 then s.fld (R.LNK_NLX_RXEQ l) 2 4 else ctle.toNat
    let s0 := s.setLane l { s.lane l with rxIdle := false }
    let s1 := (s0.wr (R.LNK_NLX_LANE_STAT l) (2 + 8 + lin * 16)).wr (R.LNK_NLX_TXEQ_USE l) (if cfg.testBit 16 then taps.toNat else cfg % 65536)
    let s2 := if s1.fld (R.LNK_NLX_PORT_STAT p) 0 2 = 0 then s1.setFld (R.LNK_NLX_PORT_STAT p) 0 2 1 else s1
    done s2.flushFrames
  else
    let s1 := s.wr (R.LNK_NLX_LANE_STAT l) 0
    done (if s.fld (R.LNK_NLX_PORT_STAT p) 0 2 = 0 then s1 else s1.portDrop p 0 1)

/-- NLX_LANE_RETRAIN (R132): a lane over its error thresholds, or after 16 resends of a frame, retrains; where the retrain fails, or
is the third within 1 s, full training follows. After a retrain that succeeds the check-block group is aligned again, which R128 does not
say: a DESIGN CHOICE (log 109); staged taps without training are in use from then on (R123). -/
def execNlxLaneRetrain (t : Nat) (l : Fin 8) (ok : Bool) (s : State) : Host.Outcome State Fault Refusal :=
  let s := s.at' t
  let x := s.lane l
  let bad := 16 ≤ x.hdrs ∨ s.fld R.LNK_NLX_LANE_CFG 16 16 < x.errs.2
  let st := s.laneState l
  if !s.running || !(decide (st = 4) || (decide (st = 2 ∨ st = 3) && decide bad)) then done s
  else
    let s1 := if st = 4 then s else s.laneRetrain l
    if ok ∧ (s1.lane l).retrains.length < 3 then
      let cfg := s.rd (R.LNK_NLX_TXEQ l)
      let s2 := if cfg.testBit 16 then s1 else s1.wr (R.LNK_NLX_TXEQ_USE l) (cfg % 65536)
      let s3 := s2.setLane l { s2.lane l with rxIdle := false }
      done (((s3.setFld (R.LNK_NLX_LANE_STAT l) 0 3 2).setBit (R.LNK_NLX_LANE_STAT l) 3 true).flushFrames)
    else done ((s1.laneTrain l).raise E_LANE_RETRAIN {})

/-- The receive direction of lane `l` carries blocks: the lane is neither training nor retraining, and the peer's transmitter not idle. -/
def State.laneHears (s : State) (l : Nat) : Bool := decide (s.laneState l = 2 ∨ s.laneState l = 3) && !(s.lane l).rxIdle

/-- NLX_CHECK_BLOCK_RECEIVED (R128): 64 check bits are compared and counted, and the invalid sync headers of all blocks since the last
check block, by group of 64 blocks; counting is suspended while the receive direction is idle, training or retraining. -/
def execNlxCheckBlockReceived (t : Nat) (l : Fin 8) (errs : Fin 65) (hdr : List (Fin 65)) (s : State) : Host.Outcome State Fault Refusal :=
  let s := s.at' t
  if s.running ∧ s.laneHears l = true then
    let x := s.lane l
    let m := s.now / ms
    let s1 := s.wr (R.LNK_NLX_CHK_ERR l) (min (2 ^ 32 - 1) (s.rd (R.LNK_NLX_CHK_ERR l) + errs))
    let s2 := s1.wr64 (R.LNK_NLX_CHK_BITS l) (s1.rd64 (R.LNK_NLX_CHK_BITS l) + 64)
    let s3 := s2.wr (R.LNK_NLX_HDR_ERR l) (min (2 ^ 32 - 1) (s2.rd (R.LNK_NLX_HDR_ERR l) + (hdr.map Fin.val).sum))
    done (s3.setLane l { x with errs := (m, (if x.errs.1 = m then x.errs.2 else 0) + errs), hdrs := (hdr.map Fin.val).foldl max 0 })
  else done s

/-- A start barrier is armed (R130). -/
def State.sbarArmed (s : State) : Bool := (List.range 16).any (fun i => decide (s.fld (R.CMD_SBAR i + 8) 2 2 = 1))

/-- NLX_IDLE_ENTER (R130): a transmitter that has had no frame to send for idle_delay µs enters electrical idle; with `peer`, the first
enter-idle block comes from the peer's transmitter, and the receiver freezes. The lane shows IDLE for either (log 109). -/
def execNlxIdleEnter (t : Nat) (l : LaneEnd) (s : State) : Host.Outcome State Fault Refusal :=
  let s := s.at' t
  let waits := (s.chain.inject ++ s.chain.transit).any (fun f => s.route f.dst == some (l.lane.val / 2))
  if l.peer then
    (if s.running ∧ s.laneHears l.lane = true then done (s.setLane l.lane { s.lane l.lane with rxIdle := true }) else done s)
  else if s.running ∧ s.laneState l.lane = 2 ∧ s.bit R.LNK_NLX_LANE_CFG 0 = true ∧ s.sbarArmed = false ∧ waits = false
      ∧ (s.lane l.lane).frameAt + s.fld R.LNK_NLX_LANE_CFG 8 8 * 1000 ≤ s.now then
    done (s.setFld (R.LNK_NLX_LANE_STAT l.lane) 0 3 3)
  else done s

/-- NLX_IDLE_EXIT (R131): a frame ready at an idle transmitter, which is up again after the alignment block; with `peer`, the peer's
alignment block has come, and the receiver's check-block group is aligned again (R128). -/
def execNlxIdleExit (t : Nat) (l : LaneEnd) (s : State) : Host.Outcome State Fault Refusal :=
  let s := s.at' t
  if l.peer then
    (if s.running ∧ (s.lane l.lane).rxIdle = true then
      done ((s.setBit (R.LNK_NLX_LANE_STAT l.lane) 3 true).setLane l.lane { s.lane l.lane with rxIdle := false })
    else done s)
  else if s.running ∧ s.laneState l.lane = 3 then
    let s1 := s.setFld (R.LNK_NLX_LANE_STAT l.lane) 0 3 2
    done ((s1.setLane l.lane { s1.lane l.lane with frameAt := s1.now }).flushFrames)
  else done s

/-! ### Link-up and authentication -/

/-- The peer's position is one the topology allows (R426, R429): in a ring port 0 joins the device before and port 1 the one after,
modulo n; in a tree the IDs do not tell, and the peer's hello does. -/
def State.positionAllowed (s : State) (p : Nat) (h : PeerHello) : Bool :=
  let n := max 1 (s.fld R.LNK_CHAIN_CFG 18 7)
  if s.topo = 1 then
    (p == 0 && h.id.toNat == (s.chainId + n - 1) % n) || (p == 1 && h.id.toNat == (s.chainId + 1) % n)
  else h.positionOk

/-- NLX_PORT_LINKUP (R426): both ends have announced ID and topology; a clash holds the port, else it waits for authentication. -/
def execNlxPortLinkup (t : Nat) (p : Fin 4) (h : PeerHello) (s : State) : Host.Outcome State Fault Refusal :=
  let s := s.at' t
  let lanesUp := decide (2 ≤ s.laneState (2 * p) ∧ s.laneState (2 * p) ≤ 3 ∧ 2 ≤ s.laneState (2 * p + 1) ∧ s.laneState (2 * p + 1) ≤ 3)
  if !s.running || !s.portOn p || !lanesUp || s.portUp p then done s
  else
    let s1 := s.wr (R.LNK_NLX_PORT_STAT p) (1 + h.id.toNat * 4 + 256)
    if h.id.toNat = s.chainId ∨ h.topo.toNat ≠ s.topo ∨ s.positionAllowed p h = false then done (s1.portDrop p 3 3)
    else done (s1.setNlx p { reach := (h.id.toNat :: h.reach.map (fun d => d.toNat)).eraseDups })

/-- Judge the authentication of port `p` (R453): it passes, and the port is UP; its devices are reachable again; or it is held. -/
def State.authJudge (s : State) (p : Nat) (pass : Bool) : State :=
  if s.fld (R.LNK_NLX_PORT_STAT p) 0 2 ≠ 1 then s
  else if pass then
    let s1 := (s.setFld (R.LNK_NLX_PORT_STAT p) 0 2 2)
    let r := (s1.nlx p).reach
    ({ s1 with chain := { s1.chain with lost := s1.chain.lost.filter (fun d => !r.contains d) } }).chainStat.flushFrames
  else s.portDrop p 3 3

/-- PEER_AUTH_COMPLETE (R453): the SCs have authenticated each other: chain to the Svaset root, signature, and where either has an
owner, the same owner. While SC is absent a new link-up waits (Table 20.7). -/
def execPeerAuthComplete (t : Nat) (p : Fin 4) (chainOk sigOk : Bool) (peerOwner : Option (BitVec 768)) (s : State) :
    Host.Outcome State Fault Refusal :=
  let s := s.at' t
  let pass := chainOk && sigOk && decide (peerOwner.map (fun o => o.toNat) = s.sec.owner)
  if !s.running || decide (s.fld (R.LNK_NLX_PORT_STAT p) 0 2 ≠ 1) then done s
  else if s.scUp then done (s.authJudge p pass)
  else done { s with sec := { s.sec with authWait := s.sec.authWait ++ [(p.val, pass, 0)] } }

/-- Link-ups that waited for SC are judged (R456). -/
def State.authWaiting (s : State) : State :=
  let ws := s.sec.authWait
  ws.foldl (fun s w => s.authJudge w.1 w.2.1) { s with sec := { s.sec with authWait := [] } }

/-! ### Frames -/

/-- An element of a transfer has been acknowledged end to end: its ladle counts it as written (R432), and a parking transfer with none
left in flight is parked (Table 9.7). -/
def State.elemAcked (s : State) (e : Nat × Nat × Nat) : State :=
  match KMap.getD s.fab.ladles e.1 [] with
  | d :: rest =>
    if d.ticket = e.2.1 ∧ d.done = e.2.2 ∧ (d.state = 1 ∨ d.state = 2) then
      let n := e.1 / 2
      let l := e.1 % 2
      let z := 2 ^ (nth d.words 0 0 / 2 ^ 6 % 16)
      let q : LDesc := { d with done := d.done + 1, state := if d.state = 2 ∧ d.issued ≤ d.done + 1 then 3 else d.state }
      ({ s with fab := { s.fab with ladles := KMap.put s.fab.ladles e.1 (q :: rest) } }).wr64
        (R.FLK_LADLE_BYTES n l) (s.rd64 (R.FLK_LADLE_BYTES n l) + z)
    else s
  | [] => s

/-- Frames up to and including link sequence `q` of port `p` are acknowledged (R428). -/
def State.acked (s : State) (p q : Nat) : State :=
  let x := s.nlx p
  match x.replay.findIdx? (fun f => f.lseq == q) with
  | none => s
  | some i =>
    s.setNlx p { x with replay := x.replay.drop (i + 1), resends := 0, ackAt := s.now }

/-- The transfer of a refused frame aborts with reason XLATE, cause RANGE (R432). -/
def State.elemRefused (s : State) (y : Flying) : State :=
  match KMap.getD s.fab.ladles y.ladle [] with
  | d :: _ =>
    if d.ticket = y.ticket ∧ (d.state = 1 ∨ d.state = 2) then s.lStop (y.ladle / 2) (y.ladle % 2) d 3 7 none else s
  | [] => s

/-- Pass an end-to-end answer on toward the device that sent the frame (R432). -/
def State.sendAnswer (s : State) (a : NlxAnswer) : State :=
  match s.route a.dst.toNat with
  | some p => s.setNlx p { s.nlx p with answers := (s.nlx p).answers ++ [a] }
  | none => s

/-- An end-to-end answer arrives: that to a frame of this device settles it, another goes on (R432). -/
def State.answerIn (s : State) (a : NlxAnswer) : State :=
  if a.dst.toNat ≠ s.chainId then s.sendAnswer a
  else match s.chain.flying.find? (fun y => y.dst == a.src.toNat && y.ctx == a.ctx.toNat && y.addr == a.addr.toNat) with
    | none => s
    | some y =>
      let s1 : State := { s with chain := { s.chain with flying := s.chain.flying.erase y } }
      if a.refused then s1.elemRefused y else if y.last then s1.elemAcked (y.ladle, y.ticket, y.elem) else s1

/-- Resend from the oldest unacknowledged frame of port `p`; after 16 resends of one frame the lane retrains (R428). -/
def State.resend (s : State) (p : Nat) : State :=
  let x := s.nlx p
  if x.replay = [] then s
  else
    let n := x.replay.length
    let s1 := (s.wr (R.LNK_NLX_RESENDS p) (min (2 ^ 32 - 1) (s.rd (R.LNK_NLX_RESENDS p) + n))).txBytes p x.held
    if 16 ≤ x.resends + 1 then ((s1.setNlx p { x with resends := 0, ackAt := s.now }).laneRetrain (2 * p)).laneRetrain (2 * p + 1)
    else s1.setNlx p { x with resends := x.resends + 1, ackAt := s.now }

/-- An acknowledgement arrives at port `p`: cumulative up to the lseq named, or a negative one naming the lseq expected (R428). -/
def State.ackIn (s : State) (p : Nat) (a : Bool × BitVec 12) : State :=
  if a.1 then ((s.acked p ((a.2.toNat + 4095) % 4096)).resend p).flushFrames else (s.acked p a.2.toNat).flushFrames

/-- The grant a window frame falls under (R431, R432). -/
def State.grantFor (s : State) (src ctx off len : Nat) : Option WinGrant :=
  s.chain.grants.find? (fun g => g.src == src && g.srcCtx == ctx && decide (off + len ≤ g.size))

/-- A window frame without a grant, outside it, or naming a counter not allocated is dropped and counted (R432). -/
def State.winDrop (s : State) : State := s.inc R.LNK_WIN_DROP

/-- A window write: the bytes go to the granted region (R431). Answers the state and whether the frame was dropped (R432). -/
def State.winWrite (s : State) (f : NlxRx) : State × Bool :=
  match s.grantFor f.src.toNat f.ctx.toNat f.addr.toNat f.payload.length with
  | none => (s.winDrop, true)
  | some g =>
    let a := g.base + f.addr.toNat
    match s.xlateAll g.ctx true false 2 a (max 1 f.payload.length) with
    | .ok _ => (s.vwrite g.ctx 2 a f.payload, false)
    | _ => (s.winDrop, true)

/-- Counter adds: element j of 64 bytes adds its first word to counter j mod 256 of flask floordiv(j, 256) of the receiving pour: the
running pour of the context that granted the sender (R431). Answers the state and whether the frame was dropped, which one that names a
counter not allocated to the pour is, whole (R432). -/
def State.winAdd (s : State) (f : NlxRx) : State × Bool :=
  match s.chain.grants.find? (fun g => g.src == f.src.toNat && g.srcCtx == f.ctx.toNat) with
  | none => (s.winDrop, true)
  | some g =>
    let j0 := (f.addr.toNat - 0xFFF00000) / 64
    let js := (List.range ((f.payload.length + 63) / 64)).map (fun i => (i, (j0 + i) / 256, (j0 + i) % 256))
    let owned (n c : Nat) : Bool := s.sch.pours.any (fun p => p.ctx == g.ctx && p.st == 2 && s.evcOwned p.id n c)
    if js.all (fun j => owned j.2.1 j.2.2) then
      (js.foldl (fun s j =>
        s.evcAdd j.2.1 j.2.2 (((f.payload.drop (64 * j.1)).take 4).foldr (fun b a => b.toNat + 256 * a) 0)) s, false)
    else (s.winDrop, true)

/-- Answer a window frame end to end (R432). -/
def State.giveAnswer (r : State × Bool) (f : NlxRx) : State :=
  r.1.sendAnswer { dst := f.src, src := BitVec.ofNat 6 r.1.chainId, ctx := f.ctx, addr := f.addr, refused := r.2 }

/-- An accepted frame for this device acts by its type (Table 19.3): contents of types 2 to 4 arrive as SHARE_MESSAGE and
ALIGN_PAIR (log 36); one for another device goes on (R429). -/
def State.frameIn (s : State) (f : NlxRx) : State :=
  if f.dst.toNat ≠ s.chainId then
    s.forwardFrame { dst := f.dst.toNat, src := f.src.toNat, typ := f.typ.toNat, ctx := f.ctx.toNat, addr := f.addr.toNat, payload := f.payload }
  else if f.typ = 0 then State.giveAnswer (s.winWrite f) f
  else if f.typ = 1 then State.giveAnswer (s.winAdd f) f
  else s

/-- Receive a frame of port `p` in link order: a failed CRC or a lseq out of order is discarded with a negative acknowledgement (R428). -/
def State.linkIn (s : State) (p : Nat) (f : NlxRx) : State :=
  let x := s.nlx p
  let s0 := s.wr64 (R.LNK_NLX_RX_BYTES p) (s.rd64 (R.LNK_NLX_RX_BYTES p) + 20 + f.payload.length)
  if f.crcOk = false then (s0.incSat (R.LNK_NLX_CRC_ERR p) 0 32).setNlx p { x with ack := some (true, x.rxSeq) }
  else if f.lseq.toNat ≠ x.rxSeq then s0.setNlx p { x with ack := some (true, x.rxSeq) }
  else (s0.setNlx p { x with rxSeq := (x.rxSeq + 1) % 4096, ack := some (false, x.rxSeq) }).frameIn f

/-- WEB fields that heads announce over the chain (R435) are kept. -/
def State.headsIn (s : State) (hs : List (BitVec 6 × BitVec 6 × BitVec 24 × BitVec 48)) : State :=
  { s with chain := { s.chain with heads := hs.foldl (fun m h =>
      KMap.put m (h.1.toNat * 64 + h.2.1.toNat) (h.2.2.1.toNat, h.2.2.2.toNat)) s.chain.heads } }

/-- NLX_RETRY_TIMEOUT (R428): 3 µs without an acknowledgement. -/
def execNlxRetryTimeout (t : Nat) (p : Fin 4) (s : State) : Host.Outcome State Fault Refusal :=
  let s := s.at' t
  let x := s.nlx p
  if s.running ∧ s.portUp p = true ∧ x.replay ≠ [] ∧ x.ackAt + 3000 ≤ s.now then done (s.resend p) else done s

/-! ### Shared pieces -/

/-- Device `d` is a member of class `c` in generation `g`, of which this device is the head (Table 19.9). -/
def State.shareMember (s : State) (g c d : Nat) : Bool :=
  s.shareRole g c == 1 && (if d < 32 then (s.cfg g (R.LNK_SHARE c + 4)).testBit d else (s.cfg g (R.LNK_SHARE c + 8)).testBit (d - 32))

/-- A head's piece lacks the DONE of an unreachable or unaligned member: `UNDECIDED_FAULT` with cause E_NLX_DOWN, counted (R437). -/
def State.shareFault (s : State) (i d : Nat) : State :=
  match s.entry i with
  | some e =>
    if e.verdict = 0 ∧ s.shareMember e.gen e.cls d = true ∧ !s.chain.done.contains (i, d) then
      (s.setCode i 6 E_NLX_DOWN).incSat R.LNK_SHARE_STAT 16 16
    else s
  | none => s

/-- Member `d` tells that it is aligned on channel `ch`, or has withdrawn alignment (R434): its head marks every open piece of a class on
that channel that lacks its DONE (R437). -/
def State.alignIn (s : State) (d ch : Nat) (ok : Bool) : State :=
  let rest := s.chain.unaligned.filter (fun e => e != (d, ch))
  let s1 : State := { s with chain := { s.chain with unaligned := if ok then rest else rest ++ [(d, ch)] } }
  if ok then s1
  else (s1.line.ledger.filter (fun e => s1.classChan e.2.gen e.2.cls == ch)).foldl (fun s e => s.shareFault e.1 d) s1

/-- Port `p` reaches the devices `ds` from now on (R429): those it did not are lost no more, and the route to the time root may be gone
(R425). -/
def State.reachIn (s : State) (p : Nat) (ds : List Nat) : State :=
  let s1 := s.setNlx p { s.nlx p with reach := ds.eraseDups }
  (({ s1 with chain := { s1.chain with lost := s1.chain.lost.filter (fun d => !ds.contains d) } }).chainStat).checkTimeRoute.flushFrames

/-- What comes beside a frame (log 63): heads' WEB fields, members' alignment, the peer's reach, and end-to-end answers. -/
def State.besideIn (s : State) (p : Nat) (f : NlxRx) : State :=
  let s0 : State := { s with chain := { s.chain with ports := s.chain.ports.map (fun x => { x with answers := [] }) } }
  let s1 := f.aligned.foldl (fun s e => s.alignIn e.1.toNat e.2.1.val e.2.2) (s0.headsIn f.heads)
  let s2 := match f.reach with | some ds => s1.reachIn p (ds.map BitVec.toNat) | none => s1
  f.answers.foldl State.answerIn s2

/-- NLX_FRAME_RECEIVE (R428): a frame, a control block's acknowledgement, or both arrive at a port that is UP. R429, R432, R434 and R435
do not say what carries reach, end-to-end answers, alignment and a head's announcement: that they come beside them is a DESIGN CHOICE
(log 63). -/
def execNlxFrameReceive (t : Nat) (p : Fin 4) (f : NlxRx) (s : State) : Host.Outcome State Fault Refusal :=
  let s := s.at' t
  if !s.running || !s.portUp p then done s
  else
    let s0 := s.besideIn p f
    let s1 := match f.ack with | some a => s0.ackIn p a | none => s0
    done (if f.only then s1 else s1.linkIn p f)

/-- The open entry of class `c` that covers segment `seg` at the head and has member `d` in its own generation (R104, R436). -/
def State.shareEntry (s : State) (c d : Nat) (seg : Int) : Option Nat :=
  (s.line.ledger.find? (fun e => e.2.cls == c && s.shareMember e.2.gen c d
    && decide (s.segIndex { cls := c, gen := e.2.gen, lead := e.2.lead, seg := e.2.seg } = seg))).map Prod.fst

/-- SHARE_MESSAGE (R436): a member's settlement of its part of segment `seg` reaches the head; the cause of a refused, corrupt or
faulted part beyond the spec's names is free (log 2). -/
def execShareMessage (t : Nat) (src cls : BitVec 6) (seg : Int) (_lead : BitVec 48) (kind : BitVec 2) (s : State) :
    Host.Outcome State Fault Refusal :=
  let s := s.at' t
  if !s.running then done s
  else match s.shareEntry cls.toNat src.toNat seg with
    | none => done (s.incSat R.LNK_SHARE_STAT 0 16)
    | some i =>
      let cause := openCode (Config.corruptCause s.free).toNat
      if kind = 0 then done { s with chain := { s.chain with done := s.chain.done ++ [(i, src.toNat)] } }
      else if kind = 1 then done (s.setCode i 5 E_KV_REFUSED)
      else if kind = 2 then done (s.setCode i 4 cause).fresh
      else done (s.setCode i 6 cause).fresh

/-- A pour that maps a window onto a device that is gone (R433, R323): a JOB pour faults; in a LINE context its transfers abort as
CANCEL and its pieces fault. -/
def State.winFault (s : State) (p : Pour) : State :=
  match s.ctx p.ctx with
  | some c =>
    if c.cls = 1 then
      ((((s.dropLadles p.id 6).faultPieces (s.batchOf p.ctx) E_NLX_DOWN).stepFaulted p.ctx p.id).faultPieces (s.ctxPieces p.ctx) E_NLX_DOWN)
    else s.pourFault p.id E_NLX_DOWN
  | none => s

/-- NLX_DEST_UNREACHABLE (R433, R437): no route is left to a device the chain names. -/
def execNlxDestUnreachable (t : Nat) (d : BitVec 6) (s : State) : Host.Outcome State Fault Refusal :=
  let s := s.at' t
  let n := d.toNat
  if !s.running || (s.route n).isSome || s.chain.lost.contains n || decide (n = s.chainId) then done s
  else
    let ps := s.sch.pours.filter (fun p => p.holds && (match s.pourProg p with | some g => g.chainWins.contains n | none => false))
    let away (fs : List NlxFrame) : List NlxFrame := fs.filter (fun f => f.dst != n)
    let s1 : State := { s with chain := { s.chain with
      lost := s.chain.lost ++ [n], inject := away s.chain.inject, transit := away s.chain.transit,
      flying := s.chain.flying.filter (fun y => y.dst != n) } }
    let s2 := ps.foldl State.winFault s1
    let s3 := s2.raise E_NLX_DOWN { w2 := some n, w3 := some 4 }
    done ((s3.line.ledger.map Prod.fst).foldl (fun s i => s.shareFault i n) s3)

/-! ### Count alignment (R434) -/

/-- Alignment of channel `ch` is withdrawn: E_NLX_DOWN, word 3 = 2. -/
def State.alignLost (s : State) (ch : Nat) : State :=
  let s1 := (s.setBit (R.LNK_ALIGN ch + 4) 16 false).setBit (R.LNK_ALIGN ch + 4) 17 true
  ({ s1 with chain := { s1.chain with align := setNth s1.chain.align ch {} } }).raise E_NLX_DOWN { w3 := some 2 }

/-- Where the count of an aligned channel has gone more than 2 × ppr past the last pair, no index has come: alignment is withdrawn. -/
def State.alignWatch (s : State) (ch : Nat) : State :=
  let ppr := s.rfld (R.RNY_ENC_CHK ch) 0 16
  if s.bit (R.LNK_ALIGN ch + 4) 16
      && decide (2 * ppr < (diff48 (s.rd64 (R.LIN_MIRROR ch)) (nth s.chain.align ch {}).lastP).natAbs) then s.alignLost ch
  else s

/-- A pair with offset `o` at own count `p`: three in a row with one offset align the channel; once aligned each is checked. -/
def State.alignTake (s : State) (ch p : Nat) (o : Int) : State :=
  let a := nth s.chain.align ch {}
  if s.bit (R.LNK_ALIGN ch + 4) 16 then
    if wrapI o 48 = s.rd64 (R.LNK_ALIGN ch) % 2 ^ 48 then
      ({ s with chain := { s.chain with align := setNth s.chain.align ch { a with lastP := p } } }).incSat (R.LNK_ALIGN_CNT ch) 0 16
    else (s.incSat (R.LNK_ALIGN_CNT ch) 16 16).alignLost ch
  else
    let os := (o :: a.offs).take 3
    let s1 : State := { s with chain := { s.chain with align := setNth s.chain.align ch { offs := os, lastP := p } } }
    if os = [o, o, o] then
      let w := wrapI o 48
      (s1.wr (R.LNK_ALIGN ch) (lo32 w)).wr (R.LNK_ALIGN ch + 4) (hi32 w + 65536 + s.fld (R.LNK_ALIGN ch + 4) 17 1 * 131072)
    else s1

/-- ALIGN_PAIR (R434): an index latch of this member and one of the head pair where their times differ by less than 1 µs; an own index
more than 2 × ppr counts after the last pair withdraws alignment first. -/
def execAlignPair (t : Nat) (ch : Fin 2) (headP : BitVec 48) (headT : Nat) (ownP : BitVec 48) (ownT : Nat) (s : State) :
    Host.Outcome State Fault Refusal :=
  let s := s.at' t
  let a := nth s.chain.align ch {}
  let ppr := s.rfld (R.RNY_ENC_CHK ch) 0 16
  let near := decide ((headT : Int) - ownT < 1000 ∧ (ownT : Int) - headT < 1000)
  if !s.running then done s
  else
    let late := s.bit (R.LNK_ALIGN ch + 4) 16 && decide (2 * ppr < (diff48 ownP.toNat a.lastP).natAbs)
    let s1 := if late then s.alignLost ch else s
    done (if near then s1.alignTake ch ownP.toNat (diff48 headP.toNat ownP.toNat) else s1)

end Sys2Proof.Machine
end

