-- ==== Sys2Proof/Machine/Taps.lean ====
section
/-! DEFINITION. What leaves a runner beside its rows (R147–R150): truncations, raw taps into DRAM rings, and ROI lists with
their records in a mould. -/

namespace Sys2Proof.Machine

/-! ### Raw taps (R148) -/

/-- Write bytes into a ring of `size` bytes at `base` in context `x`, from offset `off` on, wrapping at its end. -/
def State.ringBytes (s : State) (x base size off : Nat) (bs : List Byte) : State :=
  let a := size - off
  let s1 := s.vwrite x ((bs.take a).length / 4096 + 2) (base + off) (bs.take a)
  if bs.length ≤ a then s1 else s1.vwrite x (bs.length / 4096 + 2) base (bs.drop a)

/-- Whether a ring of context `x` can be written from `off` on for `n` bytes. -/
def State.ringOk (s : State) (x base size off n : Nat) : XRes :=
  let a := min n (size - off)
  match s.xlateAll x true false (a / 4096 + 2) (base + off) (max 1 a) with
  | .ok p => if n ≤ a then .ok p else s.xlateAll x true false (n / 4096 + 2) base (n - a)
  | r => r

/-- A tap record is dropped whole: counted, and marked on the next (R148). -/
def State.tapDropped (s : State) (j : Nat) : State :=
  let s1 := s.inc (R.RUN_TAP_DROP (j / 4) (j % 4))
  s1.setSlot j { s1.slot j with tapLost := true }

/-- The tap record being formed ends, truncated or not, and is written to its ring where it may be (R148). In consumer mode it
must leave a byte free before `RUN_TAP_RD`, so that a full ring differs from an empty one (log 30). -/
def State.tapClose (s : State) (j : Nat) (trunc : Bool) : State :=
  match (s.slot j).tap with
  | none => s
  | some tr =>
    let r := j / 4
    let k := j % 4
    let s0 := s.setSlot j { s.slot j with tap := none }
    let r0 := nth tr.rows 0 {}
    let g := s.rowGen j r0.t0
    let w := s.cfg g (R.RUN_TAP_CFG r k)
    let fmt := if w / 2 % 4 = 0 then s.cfgF g (R.RUN_SRC r k) 8 2 else 2
    let bs := blockRecord (s.cfgF g (R.RUN_SRC r k) 2 6) (w / 2 % 4) fmt tr.block r0.px.length (w.testBit 3) trunc (s.slot j).tapLost tr.rows
    let x := w / 2 ^ 16 % 16
    let base := (s.cfg g (R.RUN_TAP_BASE r k) + 2 ^ 32 * s.cfg g (R.RUN_TAP_BASE r k + 4)) % 2 ^ 48
    let size := s.cfgF g (R.RUN_TAP_SIZE r k) 0 13 * 1048576
    let off := s.rd (R.RUN_TAP_WR r k)
    let room := if w.testBit 4 then size - (off + size - s.rd (R.RUN_TAP_RD r k) % max 1 size) % max 1 size - 1 else size
    if tr.rows = [] then s0
    else if room < bs.length then s0.tapDropped j
    else match s.ringOk x base size off bs.length with
      | .ok _ =>
        let s1 := (s0.ringBytes x base size off bs).wr (R.RUN_TAP_WR r k) ((off + bs.length) % size)
        s1.setSlot j { s1.slot j with tapLost := false }
      | .park _ _ => s0.tapDropped j
      | .fault _ _ => (s0.raise E_XLATE_FAULT {} x).tapDropped j

/-- A row reaches point `p` of slot `j`: it joins the record of its block where the tap is on that point, with the tap fields
in force at the block's boundary (R145, R148). -/
def State.tapRow (s : State) (j p : Nat) (row : Row) : State :=
  let w := s.cfg (s.rowGen j row.t0) (R.RUN_TAP_CFG (j / 4) (j % 4))
  if w % 2 = 1 ∧ w / 2 % 4 = p ∧ row.block % max 1 (w / 2 ^ 8 % 256) = 0 then
    let s1 := match (s.slot j).tap with
      | some tr => if tr.block = row.block then s else s.tapClose j (tr.last.getD true)
      | none => s
    let x := s1.slot j
    let tr := x.tap.getD { block := row.block }
    s1.setSlot j { x with tap := some { tr with rows := tr.rows ++ [row] } }
  else s

/-- Close the record of a block that has entered the pipeline to its last line and has no row left before point T3. -/
def State.tapEnd (s : State) (j : Nat) : State :=
  let x := s.slot j
  match x.tap with
  | none => s
  | some tr =>
    match tr.last with
    | none => s
    | some trunc =>
      let r0 := nth tr.rows 0 {}
      let t3 := s.cfgF (s.rowGen j r0.t0) (R.RUN_TAP_CFG (j / 4) (j % 4)) 1 2 = 3
      if t3 ∧ (x.bin ++ x.delay).any (fun r => r.block == tr.block) then s else s.tapClose j trunc

/-- The last line of block `b` has entered the pipeline: its tap record knows how it ends. -/
def State.tapLast (s : State) (j b : Nat) (trunc : Bool) : State :=
  let x := s.slot j
  s.setSlot j { x with tap := x.tap.map (fun tr => if tr.block = b then { tr with last := some trunc } else tr) }

/-! ### Truncation (R146, R147) -/

/-- A truncation of block `b` of slot `j` with reason `why` (Table 7.5) is counted and raised (R147). Word 5, the rows delivered from the
block, counts the rows that its `got` lines accepted make at E × vy lines a row, those still on their way with them: a DESIGN CHOICE
(log 113). -/
def State.truncCount (s : State) (j why b got : Nat) : State :=
  let r := j / 4
  let k := j % 4
  let s1 := (s.inc (R.RUN_TRUNC r k)).wr (R.RUN_LAST_TRUNC r k) (why + b % 2 ^ 24 * 256)
  let rows := got / s.linesPerRow (s.rowGen j (s.slot j).blkT0) j
  s1.raiseLim E_BLOCK_TRUNC j ms { w2 := some (r + 16 * k), w3 := some why, w4 := some b, w5 := some rows }

/-- Block `b` of slot `j` is truncated after `got` lines (R146, R147): once, and the rest of it, where it is still coming in, is dropped. -/
def State.truncBlock (s : State) (j why b got : Nat) : State :=
  let x0 := s.slot j
  let mine := match x0.blk with | some c => c.1 == b | none => false
  let s1 := if mine && x0.blkCut then s else s.truncCount j why b got
  let x := s1.slot j
  let s2 := s1.setSlot j { x with dropRest := x.dropRest || mine, inq := markLast b x.inq }
  if x.inq.any (fun l => l.block == b) then s2 else (s2.tapLast j b true).tapEnd j

/-- Truncate the block in progress of slot `j`, where there is one that is not truncated yet: the first cause in row order is
the one recorded (R147). -/
def State.truncNow (s : State) (j why : Nat) : State :=
  let x := s.slot j
  match x.blk with
  | some (b, _, n) => if x.dropRest then s else s.truncBlock j why b n
  | none => s

/-! ### ROI (R149, R150) -/

/-- A list committed to block `b` comes too late once the block's first row has entered stage 1 (R149). -/
def Slot.roiLate (x : Slot) (b : Nat) : Bool := decide (sextI (b + 2 ^ 32 - x.roiRow.2 % 2 ^ 32) 32 < 0)

/-- A write of `v` to `RUN_ROI_COMMIT` of slot `j` (R149). -/
def State.roiCommit (s : State) (j v : Nat) : State :=
  let r := j / 4
  let k := j % 4
  let n := s.fld (R.RUN_ROI_COUNT r k) 0 10
  let buf := s.fld (R.RUN_ROI_COUNT r k) 16 1
  let x := s.slot j
  let others := x.rois.filter (fun e => e.1 != v)
  if 256 < n then (s.setSlot j { x with rois := others }).raise E_ROI_LIMIT {}
  else if x.roiLate v then s.inc (R.RUN_ROI_LATE r k)
  else s.setSlot j { x with rois := others ++ [(v, (List.range n).map (fun i => s.rd64 (R.RUN_ROI_LIST r k buf i)))] }

/-- ROI_COMMIT (R149): an ROI list is committed to a target block, or refused with E_ROI_LIMIT. -/
def execRoiCommit (t : Nat) (r : Fin 16) (k : Fin 4) (v : W32) (s : State) : Host.Outcome State Fault Refusal :=
  let s := s.at' t
  if s.running then done (s.roiCommit (4 * r + k) v.toNat) else done s

/-- Pieces of slot `j` whose extent meets the row-trigger counts from `lo` to `hi` become corrupt: rows of theirs belong to an ROI that is
dropped (R150). -/
def State.roiCorrupt (s : State) (j lo hi : Nat) : State :=
  let meets (g c lead : Nat) (trail : Option Nat) : Bool :=
    let rev := s.classRev g c
    decide (0 ≤ dist rev lead hi) && (match trail with | some z => decide (0 ≤ dist rev lo z) | none => true)
  let cause := openCode (Config.corruptCause s.free).toNat
  let s1 := (s.line.ledger.filter (fun e => e.2.slot == j && meets e.2.gen e.2.cls e.2.lead (if e.2.trailKnown then some e.2.trail else none))).foldl
    (fun s e => s.setCode e.1 4 cause) s
  let mark (q : OpenReq) : OpenReq :=
    if q.slot == j && !q.corrupt && meets q.gen q.cls q.lead none then { q with corrupt := true, cause := cause } else q
  State.fresh { s1 with intk := { s1.intk with opens := s1.intk.opens.map mark } }

/-- A block enters the pipeline: ROIs the block before it left incomplete are dropped (log 31), and lists for blocks that have
passed are forgotten. -/
def State.roiBlock (s : State) (j b : Nat) : State :=
  let x := s.slot j
  let cut := x.roiRecs.filter (fun q => !q.drop)
  let s1 := s.wr (R.RUN_ROI_DROP (j / 4) (j % 4)) (s.rd (R.RUN_ROI_DROP (j / 4) (j % 4)) + cut.length)
  let s2 := s1.setSlot j { x with roiRecs := [], roiWr := (x.roiWr.1, x.roiWr.2 || cut != []), roiRow := (0, b + 1),
                                  rois := x.rois.filter (fun e => decide (0 ≤ sextI (e.1 + 2 ^ 32 - b % 2 ^ 32) 32)) }
  cut.foldl (fun s q => s.roiCorrupt j q.count q.lastC) s2

/-- Bytes of an ROI record: a 32-byte header and U16 pixels, padded to 32 bytes (R150). -/
def roiBytes (w h : Nat) : Nat := (32 + 2 * w * h + 31) / 32 * 32

/-- The entries of the list for block `b` whose first row is `y`, clipped to `w` columns and `rows` rows; those that hold no
pixel are skipped (R150). -/
def roiStart (x : Slot) (b y w rows : Nat) : List RoiRec :=
  match x.rois.find? (fun e => e.1 == b) with
  | none => []
  | some e =>
    (List.range e.2.length).filterMap (fun i =>
      let v := nth e.2 i 0
      let rx := v % 2 ^ 14
      let ry := v / 2 ^ 29 % 2 ^ 12
      let rw := min (v / 2 ^ 14 % 2 ^ 15) (w - rx)
      let rh := min (v / 2 ^ 41 % 2 ^ 13) (rows - ry)
      if ry = y ∧ 0 < rw ∧ 0 < rh then some { block := b, idx := i, tag := v / 2 ^ 54 % 256, rect := (rx, ry, rw, rh) } else none)

/-- Place an ROI that starts in its ring of `size` bytes; one that does not fit before `RUN_ROI_HEAD` is dropped (R150). -/
def State.roiPlace (s : State) (j size : Nat) (q : RoiRec) : State :=
  let x := s.slot j
  let need := roiBytes q.rect.2.2.1 q.rect.2.2.2
  let used := (x.roiWr.1 + size - s.rd (R.RUN_ROI_HEAD (j / 4) (j % 4)) % max 1 size) % max 1 size
  if used + need < size then
    s.setSlot j { x with roiRecs := x.roiRecs ++ [{ q with offset := x.roiWr.1 }], roiWr := ((x.roiWr.1 + need) % size, x.roiWr.2) }
  else
    (s.inc (R.RUN_ROI_DROP (j / 4) (j % 4))).setSlot j
      { x with roiRecs := x.roiRecs ++ [{ q with drop := true }], roiWr := (x.roiWr.1, true) }

/-- Write a completed ROI record of logical stream `str` into the ring of `size` bytes at `base` in the mould of flask `n`. R150 lists what
the header holds but not where: its bytes are those values in a layout that is not known (log 31). -/
def State.roiWrite (s : State) (j str n base size : Nat) (q : RoiRec) : State :=
  let x := s.slot j
  let vs := [str, q.block, q.idx, q.tag, q.rect.1, q.rect.2.1, q.rect.2.2.1, q.rect.2.2.2, q.count, b2n x.roiWr.2]
  let hdr := (List.range 32).map (Config.roiHeader vs)
  let bs := hdr ++ q.px.foldr (fun v a => leBytes v 2 ++ a) []
  let bs := bs ++ zeroBytes (roiBytes q.rect.2.2.1 q.rect.2.2.2 - bs.length)
  let a := size - q.offset
  ((s.mwrite n (base + q.offset) (bs.take a)).mwrite n base (bs.drop a)).setSlot j { x with roiWr := (x.roiWr.1, false) }

/-- A row of the block in the pipeline reaches the ROI source: ROIs start, take its pixels, and are written at their last row.
Answers whether the row belongs to a dropped ROI (R150). -/
def State.roiTake (s : State) (j : Nat) (row : Row) (y rows : Nat) : State × Bool :=
  let r := j / 4
  let k := j % 4
  let g := s.rowGen j row.time
  let n := s.cfgF g (R.RUN_ROI_CFG r k) 1 5
  let base := s.cfgF g (R.RUN_ROI_RING r k) 0 13 * 1024
  let size := s.cfgF g (R.RUN_ROI_RING r k) 16 13 * 1024
  let s1 := (roiStart (s.slot j) row.block y row.px.length rows).foldl (fun s q => s.roiPlace j size { q with count := row.count, lastC := row.count }) s
  let here (q : RoiRec) : Bool := decide (q.rect.2.1 ≤ y ∧ y < q.rect.2.1 + q.rect.2.2.2)
  let x := s1.slot j
  let taken := x.roiRecs.map (fun q => if here q ∧ q.drop = false then { q with px := q.px ++ (row.px.drop q.rect.1).take q.rect.2.2.1, lastC := row.count } else q)
  let last (q : RoiRec) : Bool := decide (y + 1 = q.rect.2.1 + q.rect.2.2.2)
  let s2 := s1.setSlot j { x with roiRecs := taken.filter (fun q => !last q) }
  (((taken.filter (fun q => last q && !q.drop)).foldl (fun s q => s.roiWrite j (s.cfgF g (R.RUN_SRC r k) 2 6) n base size q) s2),
   taken.any (fun q => q.drop && here q))

/-- The row at ROI source `src` (0 T2, 1 T1), where ROIs are enabled there. -/
def State.roiPoint (s : State) (j src : Nat) (row : Row) (y rows : Nat) : State × Row :=
  let w := s.cfg (s.rowGen j row.time) (R.RUN_ROI_CFG (j / 4) (j % 4))
  if w % 2 = 1 ∧ w / 64 % 2 = src then let a := s.roiTake j row y rows; (a.1, { row with bad := row.bad || a.2 })
  else (s, row)

end Sys2Proof.Machine
end

