-- ==== Sys2Proof/Machine/Capture.lean ====
section
/-! DEFINITION. Capture records (R167): the rows of a piece, or of one of its samples, in the class's ring, the capture
store, and the CAPTURE record of the journal. -/

namespace Sys2Proof.Machine

/-- Capture store size in bytes (R380). -/
def captureStore : Nat := 16 * 2 ^ 30

/-- A capture record is stored and vouched for in the journal: offset, length and hash (Table 17.6). The store is overwritten oldest
first. -/
def State.captStore (s : State) (bs : List Byte) : State :=
  let off := match s.jrn.captures.getLast? with
    | some e => if e.1 + e.2.1 + bs.length ≤ captureStore then e.1 + e.2.1 else 0
    | none => 0
  let h := (Config.sha384Words (bs.map (fun b => b.toNat))).toNat
  let kept := s.jrn.captures.filter (fun e => decide (e.1 + e.2.1 ≤ off) || decide (off + bs.length ≤ e.1))
  let s1 : State := { s with jrn := { s.jrn with captures := kept ++ [(off, bs.length, h)] } }
  s1.journal 7 1 ([recWord0 7 0 0, lo32 off, hi32 off, bs.length] ++ (List.range 12).map (fun i => slice h (32 * i + 31) (32 * i)))

/-- Mark whether records of class `c` were lost before the next, with the ring's next offset. -/
def State.setCaptWr (s : State) (c off : Nat) (lost : Bool) : State :=
  { s with intk := { s.intk with captWr := KMap.put s.intk.captWr c (off + b2n lost * 2 ^ 31) } }

/-- A capture record is dropped whole and counted (R167). -/
def State.captDropped (s : State) (c off : Nat) : State := (s.inc (R.RUN_CAPT_DROP 0 c)).setCaptWr c off true

/-- Write one capture record of a piece into its class's ring (R167): a header of 32 bytes, which holds entry, serial, sample (none: 0xFF),
generation and the mark of lost records in a layout that is not given (log 31), and a block record with point 0xFF. Answers whether it was
written. -/
def State.captWrite (s : State) (h : Held) (e : LEntry) (i : Nat) (smp : Option Nat) (u16 : Bool) (rows : List Row) : State × Bool :=
  let w := s.cfg h.gen (R.RUN_CAPT_CFG 0 h.cls)
  let x := w / 2 ^ 17 % 16
  let size := w / 2 ^ 21 * 1048576
  let base := (s.cfg h.gen (R.RUN_CAPT_BASE 0 h.cls) + 2 ^ 32 * s.cfg h.gen (R.RUN_CAPT_BASE 0 h.cls + 4)) % 2 ^ 48
  let wr := KMap.getD s.intk.captWr h.cls 0
  let off := wr % 2 ^ 31
  let lost := decide (2 ^ 31 ≤ wr)
  let r0 := nth rows 0 {}
  let hdr := (List.range 32).map (Config.captHeader [i, e.serial, smp.getD 0xFF, h.gen, b2n lost])
  let bs := hdr ++ blockRecord e.stream 0xFF (if u16 then 2 else 0) r0.block r0.px.length false false lost rows
  let room := size - (off + size - s.rd (R.RUN_CAPT_RD 0 h.cls) % max 1 size) % max 1 size - 1
  if rows = [] then (s, false)
  else if room < bs.length then (s.captDropped h.cls off, false)
  else match s.ringOk x base size off bs.length with
    | .ok _ =>
      let rec' : CaptRec := { entry := i, serial := e.serial, sample := smp, gen := h.gen, lost := lost, rows := rows, place := (off, bs.length) }
      let s1 := ((s.ringBytes x base size off bs).setCaptWr h.cls ((off + bs.length) % size) false).captStore bs
      ({ s1 with intk := { s1.intk with capts := s1.intk.capts ++ [(h.cls, rec')] } }, true)
    | .park _ _ => (s.captDropped h.cls off, false)
    | .fault _ _ => ((s.raise E_XLATE_FAULT {} x).captDropped h.cls off, false)

/-- The captures of a piece whose trailing edge is known (R167): one piece in `decim` of an enabled class, and those of its samples
whose descriptors ask for it. -/
def State.capture (s : State) (i : Nat) (e : LEntry) : State :=
  match s.intk.held.find? (fun h => h.rid == e.rid) with
  | none => s
  | some h =>
    let w := s.cfg h.gen (R.RUN_CAPT_CFG 0 h.cls)
    let u16 := s.outU16 h.gen e.slot
    if w % 2 = 1 ∧ e.serial % max 1 (w / 2 % 65536) = 0 then
      let a := s.captWrite h e i none u16 (h.rows.map Prod.snd)
      let ks := (s.samplesOn h.gen h.cls).filter (fun k => (s.cfg h.gen (R.RUN_AUG 0 h.cls k + 4)).testBit 24)
      let b := ks.foldl (fun a k => let r := a.1.captWrite h e i (some k) u16 ((s.sampleRows h e.serial k).map Prod.snd); (r.1, a.2 || r.2)) a
      if b.2 then
        (match b.1.entry i with | some f => b.1.setEntry i { f with captured := true } | none => b.1)
      else b.1
    else s

end Sys2Proof.Machine
end

