-- ==== Sys2Proof/Machine/RonyrOps.lean ====
section
/-! DEFINITION. Ronyr's shared operations (chapter Ronyr): diagnostic events, the field safe state, fires, counting,
plausibility, emulation, pin use and the application of staged fields. -/

namespace Sys2Proof.Machine

/-- Encoder channel `ch` of Ronyr. -/
def State.enc (s : State) (ch : Nat) : Enc := nth s.ron.enc ch {}

/-- Store encoder channel `ch`. -/
def State.setEnc (s : State) (ch : Nat) (e : Enc) : State := { s with ron := { s.ron with enc := setNth s.ron.enc ch e } }

/-- Emulated output `e` of Ronyr. -/
def State.emu (s : State) (e : Nat) : Emu := nth s.ron.emu e {}

/-- Store emulated output `e`. -/
def State.setEmu (s : State) (e : Nat) (m : Emu) : State := { s with ron := { s.ron with emu := setNth s.ron.emu e m } }

/-- Output driver `k`. -/
def State.drv (s : State) (k : Nat) : Drv := nth s.ron.drv k {}

/-- Store output driver `k`. -/
def State.setDrv (s : State) (k : Nat) (d : Drv) : State := { s with ron := { s.ron with drv := setNth s.ron.drv k d } }

/-- Queue a message to Cuette (R391). -/
def State.rnySend (s : State) (m : Msg) : State := { s with ron := { s.ron with tx := s.ron.tx ++ [m] } }

/-- A diagnostic event of Ronyr, limited to once per source per code per 10 ms (Table 18.11); it crosses as a message. -/
def State.rnyEvent (s : State) (code key : Nat) (w2 w3 : Option Nat) : State :=
  if s.rateOk code key (10 * ms) then (s.rateMark code key).rnySend (.event code w2 w3) else s

/-- VISO comes up again where it was down: Ronyr starts from its power-up state (R390), and reports a field supply it finds below 17 V
(R45, R411). -/
def State.visoUp' (s : State) : State :=
  if s.mod.visoUp then s
  else
    let low := decide (s.ron.lplusMv < 17000)
    let s1 : State := { s with mod := { s.mod with visoUp := true }, rny := [], ron := { lplusMv := s.ron.lplusMv, supplyLow := low } }
    if low then s1.rnyEvent E_FIELD_SUPPLY 0 none none else s1

/-- Encoder channel enabled (Table 18.9). -/
def State.encOn (s : State) (ch : Nat) : Bool := s.rbit (R.RNY_ENC_CFG ch) 0

/-- Encoder mode (Table 18.4); off while the channel is not enabled. -/
def State.encMode (s : State) (ch : Nat) : Nat := if s.encOn ch then s.rfld (R.RNY_ENC_CFG ch) 1 3 else 0

/-- Queue epoch (Table 18.8). -/
def State.epoch (s : State) : Nat := s.rfld R.RNY_STAT 8 8

/-- Report a fire to Cuette and count it: result 0 fired, 1 fired unverified, 2 unfired (R400). DEDUCED (log 13): the interval-timer
time it carries is that of the turn-on its p is of, and for a fire discarded unfired that of the report. -/
def State.fireReport (s : State) (f : Fire) (p result : Nat) : State :=
  let s1 := if result = 2 then s.setRreg R.RNY_UNFIRED (s.rreg R.RNY_UNFIRED + 1)
            else s.setRreg R.RNY_FIRES (s.rreg R.RNY_FIRES + 1)
  s1.rnySend (.fire f.order p (if 2 ≤ f.phase then f.onAt else s.now) result f.jumped)

/-- Discard the waiting fires `f` with `p f`, each reported unfired (R398). -/
def State.discardFires (s : State) (p : Fire → Bool) : State :=
  let gone := s.ron.fires.filter (fun f => decide (f.phase < 2) && p f)
  let s1 := { s with ron := { s.ron with fires := s.ron.fires.filter (fun f => !(decide (f.phase < 2) && p f)) } }
  gone.foldl (fun s f => s.fireReport f (s.enc f.order.chan).p 2) s1

/-- Enter the field safe state for cause `c`, or add the cause while it is in force (R394, R395). -/
def State.fieldSafeEnter (s : State) (c : Nat) : State :=
  let present := s.ron.present ||| BitVec.ofNat 7 (2 ^ c)
  if s.ron.safe then
    ({ s with ron := { s.ron with present := present, resumeHeld := false } }).setRreg R.RNY_SAFE_CAUSE
      (s.rreg R.RNY_SAFE_CAUSE ||| 2 ^ c)
  else
    let s1 := { s with ron := { s.ron with
      safe := true, present := present, resumeHeld := false
      fires := s.ron.fires.map (fun (f : Fire) => if f.phase = 2 then { f with phase := 3 } else f) } }
    let s2 := s1.setRreg R.RNY_SAFE_CAUSE (2 ^ c)
    let s3 := (s2.setRreg R.RNY_OUT_SET 0).setRfld R.RNY_STAT 8 8 (s.epoch + 1)
    s3.discardFires (fun _ => true)

/-- A cause is no longer present (R395). -/
def State.causeAbsent (s : State) (c : Nat) : State :=
  { s with ron := { s.ron with present := s.ron.present &&& ~~~ BitVec.ofNat 7 (2 ^ c) } }

/-- Leave the field safe state (R395). -/
def State.fieldSafeLeave (s : State) : State :=
  { s with ron := { s.ron with safe := false, present := 0, resumeHeld := false } }

/-- Causes present other than the SAFE message, which the RESUME itself ends (R395). -/
def State.ownCauses (s : State) : BitVec 7 := s.ron.present &&& 0x3F

/-- The heartbeat has been valid for 10 ms without a break (R395). -/
def State.beatSteady (s : State) : Bool :=
  match s.ron.beatSince with
  | some t => decide (t + 10 * ms ≤ s.now)
  | none => false

/-! ### Plausibility -/

/-- Saturating count of plausibility failures by reason in `RNY_ENC_ERR` (Table 18.8). -/
def State.countPlaus (s : State) (ch reason : Nat) : State :=
  let lo := if reason = 1 then 0 else if reason = 2 then 8 else if reason = 3 then 16 else 24
  s.setRfld (R.RNY_ENC_ERR ch) lo 8 (satInc (s.rfld (R.RNY_ENC_ERR ch) lo 8) 8)

/-- A plausibility failure of channel `ch` (R405). -/
def State.plausFail (s : State) (ch reason : Nat) : State :=
  let s1 := (s.countPlaus ch reason).setRfld (R.RNY_ENC_FLAGS ch) 2 1 1
  let s2 := s1.rnyEvent E_ENC_PLAUSIBILITY (ch * 8 + reason) (some ch) (some reason)
  let s3 := s2.setEnc ch { s2.enc ch with goodSteps := some 0 }
  if s3.rbit (R.RNY_ENC_CFG ch) 9 then s3.fieldSafeEnter (4 + ch) else s3

/-- A valid step or read: after 16 steps, or 2 reads in the serial modes, the plausibility cause is absent (R395). -/
def State.goodStep (s : State) (ch : Nat) : State :=
  let need := if 4 ≤ s.encMode ch then 2 else 16
  match (s.enc ch).goodSteps with
  | none => s
  | some n =>
    if need ≤ n + 1 then (s.setEnc ch { s.enc ch with goodSteps := none }).causeAbsent (4 + ch)
    else s.setEnc ch { s.enc ch with goodSteps := some (n + 1) }

/-! ### Fires -/

/-- `p` lies in the window of a width-in-counts order: N to N + W − 1 along its direction (R397). -/
def inWindow (o : TapOrder) (p : Nat) : Bool :=
  let d := dist (decide (o.dir = 1)) o.n p
  decide (0 ≤ d) && decide (d < (o.w : Int))

/-- `p` at or beyond N in the order's direction (R396). -/
def atOrBeyond (o : TapOrder) (p : Nat) : Bool := decide (0 ≤ dist (decide (o.dir = 1)) o.n p)

/-- What a move of its channel from `p` to `p'` does to a fire: a waiting one triggers, a running one in counts ends when
`p'` leaves its window (R397). -/
def Fire.move (f : Fire) (ch p p' : Nat) : Fire :=
  if f.order.chan ≠ ch then f
  else if f.phase = 0 then
    (if !atOrBeyond f.order p && atOrBeyond f.order p' then
      { f with phase := 1, jumped := decide (f.order.wmode = 0) && !inWindow f.order p' }
     else f)
  else if f.phase = 2 ∧ f.order.wmode = 0 ∧ f.jumped = false ∧ inWindow f.order p' = false then { f with phase := 3 }
  else f

/-! ### Emulation -/

/-- Edges an emulated output's queue holds (R407). -/
def emuQueue : Nat := 256

/-- Edge reports that wait (R407). -/
def emuReports : Nat := 64

/-- Queue `n` rising edges of output `e` at source `p`; an edge that finds the queue full is dropped (R407). -/
def State.queueEdges (s : State) (e p : Nat) : Nat → State
  | 0 => s
  | n + 1 =>
    let m := s.emu e
    let s1 := if m.edges.length < emuQueue then s.setEmu e { m with edges := m.edges ++ [(p, s.now)] }
      else (s.setEmu e { m with dropped := m.dropped ++ [(p, s.now)] }).setRreg (R.RNY_EMU_DROP e)
             (s.rreg (R.RNY_EMU_DROP e) + 1)
    State.queueEdges s1 e p n

/-- Follow the position counter on emulated output `e`: E = floordiv((p − p0) × num, den) (R406). -/
def State.emuFollow (s : State) (e p : Nat) : State :=
  let m := s.emu e
  let num := s.rfld (R.RNY_EMU_NUM e) 0 24
  let den := s.rfld (R.RNY_EMU_DEN e) 0 24
  let e' : Int := diff48 p m.p0 * (num : Int) / (den : Int)
  if s.rbit (R.RNY_EMU_CFG e) 2 then
    (if m.hw < e' then (s.setEmu e { m with e := e', hw := e' }).queueEdges e p (e' - m.hw).toNat
     else s.setEmu e { m with e := e' })
  else if e' = m.e then s
  else (s.setEmu e { m with e := e' }).queueEdges e p (e' - m.e).natAbs

/-- Both emulated outputs that follow channel `ch`. -/
def State.emuUpdate (s : State) (ch p : Nat) : State :=
  [0, 1].foldl (fun s e =>
    if s.rbit (R.RNY_EMU_CFG e) 0 && decide (s.rfld (R.RNY_EMU_CFG e) 1 1 = ch) then s.emuFollow e p else s) s

/-! ### Pin use and staged fields -/

/-- Input pin `i` is taken by an encoder channel, or by an emulated output that drives it, in configuration `f` (Table 2.6,
R29). -/
def pinTaken (f : Nat → Nat) (i : Nat) : Bool :=
  let encTakes (ch : Nat) : Bool :=
    let c := f (R.RNY_ENC_CFG ch)
    let mode := c / 2 % 8
    let j := i - 6 * ch
    decide (c % 2 = 1) && decide (6 * ch ≤ i) &&
      (if mode = 1 then decide (j < 6) else if mode = 2 ∨ mode = 3 then decide (j < 6) && decide (j % 2 = 0)
       else if mode = 4 ∨ mode = 5 then decide (j < 4) else false)
  let emuTakes (e : Nat) : Bool :=
    decide (f (R.RNY_EMU_CFG e) % 2 = 1) && decide (f (R.RNY_EMU_CFG e) / 8 % 2 = 1) && decide (i / 2 = 6 + e)
  encTakes 0 || encTakes 1 || emuTakes 0 || emuTakes 1

/-- Input pin `i` is taken in the live configuration. -/
def State.taken (s : State) (i : Nat) : Bool := pinTaken s.rreg i

/-- A channel's staged fields have changed: enabled afresh it starts its checks anew; turned off, by its enable or by mode 0, or with
safe = 0, its plausibility cause is absent (R393, R395, R401). -/
def State.encApplied (s : State) (ch oldCfg : Nat) : State :=
  let new := s.rreg (R.RNY_ENC_CFG ch)
  let s1 := if new = oldCfg then s
    else s.setEnc ch { s.enc ch with steps := [], lastAt := none, lastIdx := none, sinceIdx := 0, idxMissed := false,
                                     lastRead := none, badReads := 0 }
  if new % 2 = 0 ∨ new / 2 % 8 = 0 ∨ new / 2 ^ 9 % 2 = 0 then s1.causeAbsent (4 + ch) else s1

/-- A preset takes effect: r and p take the value, which the emulated outputs follow (R406), and the channel's waiting fires are
discarded (R402); the preset bit clears (Table 18.8). -/
def State.encPreset (s : State) (ch : Nat) : State :=
  let hi := s.rreg (R.RNY_ENC_PRESET ch + 1)
  if hi / 2 ^ 31 % 2 = 1 then
    let v := s.rreg (R.RNY_ENC_PRESET ch) + hi % 2 ^ 16 * 2 ^ 32
    let s1 := (s.setEnc ch { s.enc ch with r := v, p := v }).emuUpdate ch v
    (s1.setRreg (R.RNY_ENC_PRESET ch + 1) (hi % 2 ^ 31)).discardFires (fun f => f.order.chan == ch)
  else s

/-- An emulated output's staged fields have changed: enabled, it starts from the present p (R406). -/
def State.emuApplied (s : State) (e old0 old1 old2 : Nat) : State :=
  let c := s.rreg (R.RNY_EMU_CFG e)
  if c = old0 ∧ s.rreg (R.RNY_EMU_NUM e) = old1 ∧ s.rreg (R.RNY_EMU_DEN e) = old2 then s
  else s.setEmu e { s.emu e with p0 := (s.enc (c / 2 % 2)).p, e := 0, hw := 0, edges := [] }

/-- Apply staged values to Ronyr's live registers at one instant (R393): FIELD scope. -/
def State.rnyApply (s : State) (set : KMap W32) : State :=
  let old := s.rreg
  let s1 := set.foldl (fun s c => s.setRreg c.1 c.2.toNat) s
  let s2 := [0, 1].foldl (fun s ch => s.encApplied ch (old (R.RNY_ENC_CFG ch))) s1
  let s3 := [0, 1].foldl (fun s ch => s.encPreset ch) s2
  let s4 := [0, 1].foldl (fun s e =>
    s.emuApplied e (old (R.RNY_EMU_CFG e)) (old (R.RNY_EMU_NUM e)) (old (R.RNY_EMU_DEN e))) s3
  { s4 with ron := { s4.ron with
      inp := (List.range 16).map (fun i =>
        let x := nth s4.ron.inp i {}
        if pinTaken old i = s4.taken i then x else { x with acc := 0 }) } }

/-- The staged values Ronyr applies at an armed cast (R106, R393). -/
def State.rnySet (s : State) : KMap W32 := s.ron.shadow

/-- Ronyr applies an immediate cast, or at the frame that follows T a time cast, and reports it (R393, Table 5.3). -/
def State.applyFrame (s : State) : State :=
  match s.ron.armed with
  | some (mode, _, _, _, T) =>
    if mode ≠ 2 ∧ T ≤ s.tim.ns then
      let set := s.rnySet
      let s1 : State := { s with ron := { s.ron with armed := none, shadow := [] } }
      (s1.rnyApply set).rnySend (.applied s.tim.ns)
    else s
  | none => s

/-- A count cast armed on channel `ch` crosses N in its direction as p moves from `p` to `p'`: Ronyr applies its fields
at that crossing and sends its application report with the device time of the crossing (R101, R393). -/
def State.castCross (s : State) (ch p p' : Nat) : State :=
  match s.ron.armed with
  | some (mode, c, dir, n, _) =>
    if mode = 2 ∧ c = ch ∧ dist (decide (dir = 1)) n p < 0 ∧ 0 ≤ dist (decide (dir = 1)) n p' then
      let s1 := { s with ron := { s.ron with armed := none, shadow := [] } }
      (s1.rnyApply s.rnySet).rnySend (.applied s.tim.ns)
    else s
  | none => s

/-! ### Counting -/

/-- p follows r through the hysteresis h (R401). -/
def followP (r p h : Nat) : Nat :=
  if (h : Int) < diff48 r p then wrapI ((r : Int) - h) 48
  else if (h : Int) < diff48 p r then wrapI ((r : Int) + h) 48
  else p

/-- Motion of 16 counts or more since S1 (or S2) was entered is reported once (R404). -/
def State.motionCheck (s : State) (ch : Nat) : State :=
  let e := s.enc ch
  if s.pwr.state ≠ 0 ∧ e.motionSent = false ∧ 16 ≤ (diff48 e.p e.motionBase).natAbs then
    (s.setEnc ch { e with motionSent := true }).rnySend (.motion ch)
  else s

/-- No index within 2 × ppr counts (Table 18.5 reason 4). -/
def State.indexMissing (s : State) (ch : Nat) : State :=
  let ppr := s.rfld (R.RNY_ENC_CHK ch) 0 16
  let e := s.enc ch
  if (s.encMode ch = 1 ∨ s.encMode ch = 2) ∧ ppr ≠ 0 ∧ e.idxMissed = false ∧ 2 * ppr ≤ e.sinceIdx then
    (s.setEnc ch { e with idxMissed := true }).plausFail ch 4
  else s

/-- An enabled class of the live configuration names channel `ch` (R461). -/
def State.chanNamed (s : State) (ch : Nat) : Bool :=
  (List.range 64).any (fun c => decide (s.rd (R.LIN_CLASS c) % 2 = 1) && decide (s.rd (R.LIN_CLASS c) / 2 % 2 = ch))

/-- p of channel `ch` becomes `p'`: fires, casts, emulation, the index check and motion follow (R397, R101, R406). -/
def State.moveP (s : State) (ch p' : Nat) : State :=
  let e := s.enc ch
  let p := e.p
  if p = p' then s
  else
    let s1 := s.setEnc ch { e with p := p', sinceIdx := e.sinceIdx + (diff48 p' p).natAbs }
    let s2 := { s1 with pwr := { s1.pwr with motionAt := if s1.chanNamed ch then s1.now else s1.pwr.motionAt },
                        ron := { s1.ron with fires := s1.ron.fires.map (fun (f : Fire) => f.move ch p p') } }
    (((s2.emuUpdate ch p').castCross ch p p').indexMissing ch).motionCheck ch

/-- r of channel `ch` changes by `d` and p follows (R401). -/
def State.countBy (s : State) (ch : Nat) (d : Int) : State :=
  let e := s.enc ch
  let r' := wrapI ((e.r : Int) + d) 48
  let h := s.rfld (R.RNY_ENC_CFG ch) 7 1
  let s1 := s.setEnc ch { e with r := r' }
  s1.moveP ch (followP r' e.p h)

/-- Speed over the last n steps (or reads), in counts/s rounded toward zero, signed (R404; log 12). -/
def speedOf (n : Nat) (serial : Bool) (steps : List (Nat × Int)) : Int :=
  match steps.head?, steps[n]? with
  | some a, some b =>
    let dt : Int := (a.1 : Int) - b.1
    if dt ≤ 0 then 0
    else
      let v : Int := if serial then (steps.take n).foldl (fun x y => x + y.2) 0 else if a.2 < 0 then -(n : Int) else n
      Int.tdiv (v * 1000000000) dt
  | _, _ => 0

/-- Note an accepted step for the speed measurement (R404). -/
def State.noteStep (s : State) (ch : Nat) (d : Int) : State :=
  let e := s.enc ch
  let n := s.rfld (R.RNY_ENC_CFG ch) 21 8
  let steps := ((s.now, d) :: e.steps).take (n + 1)
  (s.setEnc ch { e with steps := steps, lastAt := some s.now }).setRreg (R.RNY_ENC_SPEED ch)
    (wrapI (speedOf n (decide (4 ≤ s.encMode ch)) steps) 32)

/-- Note the commanded state of the outputs: a change starts the 50 µs that readback skips (R412). -/
def State.noteDrive (s : State) : State :=
  let now := bits16 s.driven
  { s with ron := { s.ron with
      commanded := now
      drv := (List.range 16).map (fun k =>
        let d := s.drv k
        if now.getLsbD k = s.ron.commanded.getLsbD k then d else { d with changedAt := s.now }) } }

/-- A command that touches Ronyr ends. -/
def doneR (s : State) : Host.Outcome State Fault Refusal := done s.noteDrive

end Sys2Proof.Machine
end

