-- ==== Sys2Proof/Machine/SafeOps.lean ====
section
/-! DEFINITION. The safety monitor (R471–R473), the crucible clock (R465), the power-fail sequence (R475) and the resets of
Cuette and of all domains (R33, R38). -/

namespace Sys2Proof.Machine

/-! ### Safe state -/

/-- What entry to the safe state does to the line (R471 steps 1, 3): SAFE goes to Ronyr, `E_SAFE_STATE` is raised with the
latched causes, and every open piece without a code takes `UNDECIDED_FAULT`. -/
def State.safeLine (s : State) : State :=
  let s1 : State := { s with line := { s.line with tx := s.line.tx ++ [.safe], safeSent := some s.now, safeAcked := false } }
  (s1.raise E_SAFE_STATE { w3 := some (s1.fld R.PWR_SAFE_STAT 4 9) }).faultOpenPieces E_SAFE_STATE

/-- Causes 0, 1 and 3 stop every crucible and fault every pour (R471 step 5). -/
def State.safeStop (s : State) (c : Nat) : State :=
  if c = 0 ∨ c = 1 ∨ c = 3 then
    (({ s with pwr := { s.pwr with crucibleStop := true } }).hardStop).faultPours E_SAFE_STATE
  else s

/-- The safety monitor acts on cause `c` (R471): it latches the cause and, unless the safe state is in force already, enters
it. It acts only while Cuette runs. -/
def State.safeEnter (s : State) (c : Nat) : State :=
  if !s.running then s
  else
    let s1 := s.setBit R.PWR_SAFE_STAT (4 + c) true
    let s2 := if s.safe then s1
      else ((s1.setBit R.PWR_SAFE_STAT 0 true).incSat R.PWR_SAFE_STAT 16 16).safeLine
    s2.safeStop c

/-- Line control sends RESUME (R395). -/
def State.sendResume (s : State) : State :=
  { s with line := { s.line with tx := s.line.tx ++ [.resume], resumeAt := some s.now } }

/-- An acknowledgement (R473): with every latched cause absent the device leaves the safe state; else it is ignored. On
leaving, line control sends RESUME while line work runs (R395). -/
def State.safeAck (s : State) : State :=
  if s.safe && s.causesAbsent then
    let s1 := (s.setBit R.PWR_SAFE_STAT 0 false).setFld R.PWR_SAFE_STAT 4 9 0
    let s2 : State := { s1 with pwr := { s1.pwr with crucibleStop := false, absentSince := none }
                                line := { s1.line with safeSent := none } }
    if s2.boot.lineStarted then s2.sendResume else s2
  else s

/-- A lost fire (R376, R400): the tap_late halt condition latches (Table 21.6), and cause 5 while `PWR_SAFE_CFG.lost_fire` is
1. Unfired reports that the safe state itself causes are not lost fires (R471). -/
def State.lostFire (s : State) : State :=
  if s.safe then s
  else
    let s1 := s.latchHalt 2
    if s1.bit R.PWR_SAFE_CFG 1 then s1.safeEnter 5 else s1

/-! ### Security fault state -/

/-- A chill image whose pages have been zeroed (R329): what it saved of fettlers, moulds and counters is gone. -/
def Section.wiped (c : Section) : Section :=
  { c with fets := c.fets.map (fun e => (e.1, { e.2 with pc := 0, x := [], v := [], p := [], csr := [], pend := [] }))
           evcs := [], gcs := [], mould := [] }

/-- Zero every protected page and region, chill images among them (R450; R455 step 2, R458 step 4). -/
def State.zeroProtected (s : State) : State :=
  let z (a : Nat) (n : Nat) (s : State) : State := { s with fab := { s.fab with dram := Mem.zero s.fab.dram a n } }
  let s1 := s.fab.pt4.foldl (fun s e => if e.2.prot ∧ e.2.inDram then z e.2.frame 4096 s else s) s
  let s2 := s.fab.pt2.foldl (fun s e => if e.2.prot ∧ e.2.inDram then z e.2.frame 2097152 s else s) s1
  let s3 : State := { s2 with sch := { s2.sch with ctxs := s2.sch.ctxs.map (fun e => (e.1, { e.2 with sections := e.2.sections.map Section.wiped })) } }
  (List.range 32).foldl (fun s n => (List.range 16).foldl (fun s i =>
    let w := s.rd (R.FLK_REGION n i)
    if w.testBit 29 ∧ w.testBit 28 then s.mouldZero n (w % 2048 * 4096) (w / 4096 % 2048 * 4096) else s) s) s3

/-- Entry to the security fault state (R457, R458): SAFE goes to Ronyr, crucibles stop, pours and open pieces fault with
`E_SEC_FAULT`, protected contents are zeroed; SC stays in reset. -/
def State.secFault (s : State) : State :=
  if s.sec.fault then s
  else
    let s1 : State := { s with
      sec := { s.sec with fault := true }
      line := { s.line with tx := s.line.tx ++ [.safe], safeSent := some s.now, safeAcked := false }
      pwr := { s.pwr with crucibleStop := true } }
    let s2 := (s1.setFld (R.DBG_FW_STAT 0) 0 2 0).raise E_SEC_FAULT {}
    let s3 := ((s2.hardStop).faultPours E_SEC_FAULT).faultOpenPieces E_SEC_FAULT
    s3.zeroProtected

/-! ### The crucible clock -/

/-- Slowest step requested, with the row of R465 that asks for it, from 0 (log 18). -/
def State.clkWanted (s : State) : Nat × Nat :=
  if !s.pmcUp then (6, 4)
  else if !s.mod.serrefOk then (6, 6)
  else
    let st := if s.phase = 3 then 4 else 0
    [(s.fld R.PWR_CLK_CAP 0 3, 1), (s.fld R.PWR_CLK 4 3, 2), (s.fld R.PWR_CLK 8 3, 3)].foldl
      (fun a b => if a.1 < b.1 then b else a) (st, 0)

/-- Show the step in force and its sources in `PWR_CLK` and each flask's `FLK_CLK`; a change passes trace point 0x20. -/
def State.clkUpdate (s : State) : State :=
  let old := s.fld R.PWR_CLK 0 3
  let w := s.clkWanted
  let s1 := (((s.setFld R.PWR_CLK 0 3 w.1).setBit R.PWR_CLK 12 (!s.pmcUp)).setBit R.PWR_CLK 13 (decide (s.phase = 3))).setBit
    R.PWR_CLK 14 (!s.mod.serrefOk)
  if w.1 = old then s1 else s1.trace 0x20 1 (old + w.1 * 8 + w.2 * 64)

/-! ### Conditions of self-test -/

/-- VIN lies within 10.8–13.2 V (Table 2.13). -/
def vinGood (mv : Nat) : Bool := decide (10800 ≤ mv) && decide (mv ≤ 13200)

/-- VIN, REFCLK and SERREF, as the module's monitors see them, meet the conditions of self-test (R41, R58). -/
def State.condNow (s : State) : Bool := vinGood s.mod.vinMv && s.mod.refclkOk && s.mod.serrefOk

/-- A run of self-test whose conditions fail is discarded, with no marks and no records, and they are checked again in 100 ms
(R58). -/
def State.condDiscard (s : State) : State :=
  let s1 := (s.setPhase 2).setBit R.GLB_BIST_SUMMARY 1 true
  ({ s1 with boot := { s1.boot with condNext := s1.now + 100 * ms } }).clkUpdate

/-- The conditions are monitored throughout self-test (R58). -/
def State.condMonitor (s : State) : State :=
  if s.running && decide (s.phase = 3) && !s.condNow then s.condDiscard else s

/-! ### Resets -/

/-- Serial of a journal record, where it is a PIECE record (Table 17.7). -/
def JRec.serial (r : JRec) : Nat := if r.typ = 1 then nth r.words 2 0 + nth r.words 3 0 % 65536 * 2 ^ 32 else 0

/-- Highest serial in a list of records. -/
def topSerialOf (rs : List JRec) : Nat := rs.foldl (fun a r => max a r.serial) 0

/-- The journal as a reset leaves it: records of the open page that never reached the NAND are lost (R476). -/
def Journal.afterReset (j : Journal) : Journal :=
  let recs := j.openBlock.recs.take j.stored
  let lost := j.openBlock.recs.length - recs.length
  { j with openBlock := { j.openBlock with recs := recs }, nextSeq := j.nextSeq - lost, fullAt := none, recent := [],
           window := none,
           topSerial := max (topSerialOf recs) (j.sealedBlocks.foldl (fun a b => max a (topSerialOf b.recs)) 0) }

/-- Registers that a reset of Cuette keeps: the retained ones, and `TIM_STAT.set` (R10, R417). -/
def keptRegs (s : State) : KMap W32 :=
  let s1 : State := { s with regs := [] }
  (((s1.wr R.GLB_BOOT_COUNT (s.rd R.GLB_BOOT_COUNT)).wr R.PWR_FAIL_LAST (s.rd R.PWR_FAIL_LAST)).setFld R.TIM_STAT 3 1
    (s.fld R.TIM_STAT 3 1)).regs

/-- Cuette is reset and held (R37, R38), to start again with boot cause `cause`. What Ronyr, the module, the always-on domain,
the fuses and the NAND hold stays; everything else of Cuette takes its reset value (Table 21.8). -/
def State.cuetteReset (s : State) (cause : Nat) : State :=
  { now := s.now, free := s.free + 1, regs := keptRegs s, rny := s.rny, pins := s.pins
    mod := { s.mod with held := true, pcieUp := false }
    boot := { s.boot with nextCause := cause, started := false, condFails := 0, condNext := 0, lineStarted := false,
                          restored := false, agreedOnce := false, released := false, factoryNow := false }
    host := { msix := s.host.msix }
    stage := { records := s.stage.records }
    jrn := s.jrn.afterReset, ron := s.ron
    tim := { ns := s.tim.ns, frac := s.tim.frac }
    sec := { owner := s.sec.owner, bundles := s.sec.bundles.map (fun b => { b with loaded := false }), nonces := s.sec.nonces,
             keysOk := s.sec.keysOk }
    pwr := { junction := s.pwr.junction, board := s.pwr.board, rnyJunction := s.pwr.rnyJunction,
             state := s.pwr.state, s2Motion := s.pwr.s2Motion, alert := s.pwr.alert }
    hostMem := s.hostMem, pending := s.pending }

/-- Ronyr loses its supply with VISO (R37, R49, R54): its outputs are off and its state is gone. -/
def State.visoLoss (s : State) : State :=
  { s with mod := { s.mod with visoUp := false }, rny := [], ron := { lplusMv := s.ron.lplusMv } }

/-- Device time after a loss of VIN: the seal time of the newest journal block plus 1 s, and `TIM_STAT.set` clear (R417). -/
def State.timeLost (s : State) : State :=
  let ns := match s.jrn.sealedBlocks.getLast? with | some b => b.sealNs + 1000000000 | none => 1000000000
  ({ s with tim := { ns := ns } }).setBit R.TIM_STAT 3 false

/-! ### The power-fail sequence -/

/-- Note the start of the sequence in `PWR_FAIL_LAST`: warning, and where it came from (Table 21.10); entry to S2 or S3 is no
warning (`src` 0). -/
def State.noteFail (s : State) (src : Nat) : State :=
  ({ s with mod := { s.mod with warnAt := s.now } }).wr R.PWR_FAIL_LAST (if src = 0 then 0 else 1 + src)

/-- The device has something to stop and flush: Cuette runs and self-test is behind it (R36). -/
def State.hasWork (s : State) : Bool :=
  s.running && !s.mod.held && decide (4 ≤ s.phase) && decide (s.phase ≠ 8)

/-- SAFE reaches Ronyr within the sequence (Table 21.7): outputs off, contact open, pending fires discarded. -/
def State.failSafe (s : State) : State :=
  if s.mod.visoUp then ({ s with ron := { s.ron with ackSafe := true } }).fieldSafeEnter 6 else s

/-- The power-fail sequence (Table 21.7): the ledger is frozen, crucibles stop and nothing further issues, SAFE goes to
Ronyr, `E_PWR_FAIL` is recorded, the open journal page and the sequence record are written. -/
def State.failSequence (s : State) : State :=
  if !s.hasWork then s
  else
    let s1 : State := { s with line := { s.line with frozen := true }, stage := { s.stage with writing := [] } }
    let s2 := (s1.hardStop).failSafe
    let s3 := ((s2.raiseJ E_PWR_FAIL {}).pageWrite).sequenceRecord (s2.line.serialNext - 1)
    let s4 : State := { s3 with pwr := { s3.pwr with failStop := true } }
    s4.setBit R.PWR_FAIL_LAST 4 true

/-- The sequence is run, and Cuette is then held in reset, to start again with `cause` (R35, R38, R463). -/
def State.failAndHold (s : State) (src cause : Nat) : State := ((s.noteFail src).failSequence).cuetteReset cause

end Sys2Proof.Machine
end

