-- ==== Sys2Proof/Machine/Sched.lean ====
section
/-! DEFINITION. The scheduler core at work: sequence steps (R305–R314), twin comparison (R354, R355), dispatch and steals
(R318–R322), slices, chills, remelts and claims (R325–R334). -/

namespace Sys2Proof.Machine

/-! ### Classes and their pours -/

/-- The program class `c` names in generation `g` (`LIN_CLASS.rprog`). -/
def State.classProg (s : State) (g c : Nat) : Option LoadedProg := s.program (s.classWord g c 2 % 65536)

/-- Field of `CMD_SEQ_CLASS` in the piece's generation (R315): word, low bit, width. -/
def State.seqClass (s : State) (p : Piece) (w lo k : Nat) : Nat := s.cfgF p.gen (R.CMD_SEQ_CLASS p.cls + 4 * w) lo k

/-- Maximum length in tokens, Lc (Table 14.6). -/
def State.lcOf (s : State) (p : Piece) : Nat := s.seqClass p 0 0 13

/-- Page groups a piece needs (R307). -/
def State.needOf (s : State) (p : Piece) (q : SeqDecl) : Nat :=
  (s.samplesOn p.gen p.cls).length * ((s.lcOf p + 2 ^ q.lp - 1) / 2 ^ q.lp) * (if q.twin then 2 else 1)

/-- Live sequence slots held, pending ones included (R306). -/
def State.slotsHeld (s : State) : Nat := (s.sch.pieces.filter (fun p => decide (1 ≤ p.st))).length

/-- DRAM groups class `c` holds (R309). -/
def State.heldBy (s : State) (c : Nat) : Nat :=
  (s.sch.pieces.filter (fun p => p.cls == c)).foldl (fun a p => a + p.groups) 0

/-! ### Rows -/

/-- Place every enabled sample of a piece, in sample order (R164). -/
def State.placeAll (s : State) (p : Piece) (rows : Nat) : List Nat → List PackRow × List (Nat × Nat) → Option (List PackRow × List (Nat × Nat))
  | [], a => some a
  | k :: ks, (rs, ps) =>
    let cfg := s.cfg p.gen (R.RUN_PACK_CFG 0 p.cls)
    let lc := s.lcOf p
    let tokens := cfg % 2 ^ 13
    let shared := decide (cfg / 2 ^ 13 % 2 = 1)
    let limit := if shared then min (cfg / 2 ^ 14 % 64 + 1) (tokens / lc) else 1
    match placeOne p.ctx p.cls rows tokens limit (!shared) { span := lc, entry := p.entry, sample := k } rs with
    | none => none
    | some (rs', pl) => s.placeAll p rows ks (rs', ps ++ [pl])

/-- The packer writes the samples of a piece that has just been admitted (R163): the rows that have reached it, and with them the marks. -/
def State.packPiece (s : State) (p : Piece) : State :=
  match (s.ridOf p.entry).bind (fun rid => s.intk.held.find? (fun h => h.rid == rid)) with
  | none => s
  | some h =>
    let new := (s.samplesOn p.gen p.cls).map (fun k =>
      ({ rid := h.rid, slot := h.slot, entry := p.entry, serial := p.serial, sample := k, rows := s.sampleRows h p.serial k } : SampleRec))
    let s1 : State := { s with intk := { s.intk with samples := s.intk.samples ++ new } }
    s1.mapSegs p.entry (fun g => { g with last := h.done, len := min g.span (p.total.getD (s.tokensFilled p.gen p.cls h.rows.length)) })

/-! ### Admission -/

/-- The first flask of a list with the most free groups in its mould pool, and how many (R308). -/
def SeqSt.homeOf (q : SeqSt) (ns : List Nat) : Nat × Nat :=
  match ns with
  | [] => (0, 0)
  | n :: rest => rest.foldl (fun b k => if b.2 < KMap.getD q.mould k 0 then (k, KMap.getD q.mould k 0) else b) (n, KMap.getD q.mould n 0)

/-- Reason the attempt of a piece fails, in the order of Table 14.2; 0 where it succeeds (R309). -/
def State.admitReason (s : State) (x : Nat) (p : Piece) (q : SeqDecl) (st : SeqSt) : Nat :=
  let need := s.needOf p q
  let quota := s.seqClass p 1 0 24
  let job := match s.ctx x with | some c => c.cls == 2 | none => false
  if 4096 ≤ s.slotsHeld ∨ (job = true ∧ 4096 < s.slotsHeld + 1 + 256) then 1
  else if quota ≠ 0 ∧ quota < s.heldBy p.cls + need then 4
  else if st.free < need then 3
  else if (s.placeAll p q.rows (s.samplesOn p.gen p.cls) (s.sch.packRows, [])).isNone then 2
  else 0

/-- A refused attempt (R310). -/
def State.refusePiece (s : State) (x : Nat) (p : Piece) (st : SeqSt) (r : Nat) : State :=
  let s1 := s.inc (R.CMD_SEQ_REFUSE r)
  let s2 := s1.raiseLimJ E_KV_REFUSED p.cls ms
    { w2 := some (p.cls + x * 64), w3 := some r, w4 := some (lo32 p.serial), w5 := some st.free } x
  let s3 := s2.report p 1 st.step
  { s3 with sch := { s3.sch with pieces := s3.sch.pieces.filter (fun e => e.entry != p.entry) } }

/-- A successful attempt takes its slot, rows and page groups at once (R306–R309). -/
def State.admitPiece (s : State) (x : Nat) (p : Piece) (q : SeqDecl) (st : SeqSt) : State :=
  let need := s.needOf p q
  let per := if q.twin then need / 2 else need
  let (hA, fA) := st.homeOf (s.setFlasks x q.twin false)
  let (hB, fB) := if q.twin then st.homeOf (s.setFlasks x true true) else (0, 0)
  let mA := min per fA
  let mB := if q.twin then min per fB else 0
  let mould := KMap.put st.mould hA (fA - mA)
  let mould := if q.twin then KMap.put mould hB (fB - mB) else mould
  let (rs, pl) := (s.placeAll p q.rows (s.samplesOn p.gen p.cls) (s.sch.packRows, [])).getD (s.sch.packRows, [])
  let z := [0, 0, 0, 0, 0, 0, 0, 0]
  let s1 := s.setPiece p.entry (fun e => { e with st := 1, groups := need, mouldGroups := mA, home := hA, mouldB := mB, homeB := hB,
                                                  places := pl, dA := z, dB := z })
  let s2 : State := { s1 with sch := { s1.sch with
    seqs := KMap.put s1.sch.seqs x { st with free := st.free - need, mould := mould } } }
  (((s2.setRows rs).packPiece p).inc R.CMD_SEQ_ADMITTED).report p 0 st.step

/-- The admission attempt of an OPENED piece (R309). -/
def State.admitOrRefuse (s : State) (x : Nat) (q : SeqDecl) (p : Piece) : State :=
  match KMap.find s.sch.seqs x with
  | none => s
  | some st =>
    let r := s.admitReason x p q st
    let s1 := s.trace 0x03 2 (p.serial + r * 2 ^ 48)
    if r = 0 then s1.admitPiece x p q st else s1.refusePiece x p st r

/-- Insert by a strict order, after equals. -/
def insertBy {α : Type} (lt : α → α → Bool) (a : α) : List α → List α
  | [] => [a]
  | b :: bs => if lt a b then a :: b :: bs else b :: insertBy lt a bs

/-- Sort by a strict order, stably. -/
def sortBy {α : Type} (lt : α → α → Bool) (l : List α) : List α := l.foldl (fun acc a => insertBy lt a acc) []

/-- Order of admission attempts (R309). -/
def admitLt (a b : Piece) : Bool := decide (a.lead < b.lead) || (decide (a.lead = b.lead) && decide (a.serial < b.serial))

/-! ### Returns, leaves and the batch -/

/-- Pieces that left in the step before return what they held (R311). -/
def State.applyReturns (s : State) (x : Nat) : State :=
  let back := s.sch.pendRet.filter (fun e => e.1.ctx == x)
  let s1 : State := { s with sch := { s.sch with pendRet := s.sch.pendRet.filter (fun e => e.1.ctx != x) } }
  let s2 := back.foldl (fun s e =>
    let p := e.1
    let step := match KMap.find s.sch.seqs x with | some q => q.step | none => 0
    let s1 : State := { s with sch := { s.sch with
      pieces := s.sch.pieces.filter (fun k => !(k.entry == p.entry && k.serial == p.serial))
      seqs := KMap.adjust s.sch.seqs x (fun q =>
        let m := if 0 < p.mouldGroups then KMap.put q.mould p.home (KMap.getD q.mould p.home 0 + p.mouldGroups) else q.mould
        { q with free := q.free + p.groups,
                 mould := if 0 < p.mouldB then KMap.put m p.homeB (KMap.getD m p.homeB 0 + p.mouldB) else m }) } }
    s1.report p 3 step) s1
  s2.freeRows

/-- A marked piece leaves at the start of a step (R313); one marked corrupt or faulted has its segments voided (R166). -/
def State.voidPiece (s : State) (step : Nat) (p : Piece) : State :=
  let corrupt := match s.entry p.entry with | some e => e.serial == p.serial && e.verdict == 4 | none => false
  let s1 := s.mapSegs p.entry (fun g => { g with void := true, len := 0 })
  let s2 := if corrupt then s1.raiseJ E_SAMPLE_CORRUPT {} p.ctx else s1
  s2.pieceLeave p step

/-- What orders a batch (R312 step 4): late pieces last, then deadline along the class direction, then the KCG key, then
serial. -/
def State.batchKey (s : State) (step : Nat) (p : Piece) : Nat × Int × Nat × Nat :=
  let dl : Int := match s.entry p.entry with
    | some e => if s.classRev e.gen e.cls then -(e.deadline : Int) else e.deadline
    | none => 0
  (b2n p.late, dl, kcg 0 step 0xFFFF p.serial % 2 ^ 32, p.serial)

/-- Lexicographic order of batch keys. -/
def keyLt (a b : Nat × Int × Nat × Nat) : Bool :=
  decide (a.1 < b.1) || (decide (a.1 = b.1) && (decide (a.2.1 < b.2.1) || (decide (a.2.1 = b.2.1) &&
    (decide (a.2.2.1 < b.2.2.1) || (decide (a.2.2.1 = b.2.2.1) && decide (a.2.2.2 < b.2.2.2))))))

/-- Entries of the batch (R312 steps 5, 6) from pieces in order, each with its backlog and largest chunk: single-chunk
entries first, then prefill chunks. -/
def formBatch (bt : Nat) (ps : List (Piece × Nat × Nat)) : List (Nat × Nat × Nat) :=
  let one := ps.foldl (fun (a : List (Nat × Nat × Nat) × Nat) e =>
    if e.2.1 = 1 ∧ 1 ≤ a.2 then (a.1 ++ [(e.1.entry, e.1.tokens, 1)], a.2 - 1) else a) ([], bt)
  (ps.foldl (fun (a : List (Nat × Nat × Nat) × Nat) e =>
    if 2 ≤ e.2.1 ∧ 1 ≤ a.2 then
      let n := min e.2.1 (min e.2.2 a.2)
      (a.1 ++ [(e.1.entry, e.1.tokens, n)], a.2 - n)
    else a) one).1

/-- Tokens of a piece whose rows have all been delivered to the stripes, or that its trailing edge has closed (R302); none where the packer
holds no sample of it. -/
def State.tokensIn (s : State) (p : Piece) : Option Nat :=
  if p.total.isSome then p.total
  else (s.intk.samples.find? (fun q => q.entry == p.entry && q.serial == p.serial)).map (fun q =>
    let x := s.slot q.slot
    s.tokensFilled p.gen p.cls (q.rows.filter (fun e => decide (e.1 + x.outq.length < x.rowNo))).length)

/-- Backlog of a piece (R312 step 3): ready tokens not yet processed, none beyond the piece's last. Of the tokens whose rows have come, those
are ready whose stem output has been written, as `ready` says (R302). -/
def State.backlog (s : State) (ready : List (Nat × Nat)) (p : Piece) : Nat :=
  let told := match ready.find? (fun e => e.1 == p.entry) with | some e => e.2 | none => 0
  let r := match s.tokensIn p with | some n => min told n | none => told
  min r (min (s.lcOf p) (p.total.getD (s.lcOf p))) - p.tokens

/-- Sequence tasks of a pour become ready for a step, on the flasks of their set (R312, R353). -/
def State.stepTasks (s : State) (x : Nat) (p : Pour) (g : Program) (twin : Bool) : State :=
  [false, true].foldl (fun s b =>
    let fl := (s.setFlasks x twin b).filter (fun n => (s.places x).contains n)
    let ks := (List.range g.tasks.length).filter (fun k =>
      let d := nth g.tasks k ⟨0, none, false, false, false, false, []⟩
      d.seq && (d.setB == b))
    if fl = [] then s
    else (List.range ks.length).foldl (fun s i => s.pushTask (nth fl (i % fl.length) 0) x p.id (nth ks i 0)) s) s

/-- The start of a step up to its batch (R312): returns, pieces that leave voided, and admissions. -/
def State.stepAdmit (s : State) (x : Nat) (q : SeqDecl) (step : Nat) : State :=
  let s1 := (s.applyReturns x).trace 0x02 2 (x + step % 2 ^ 56 * 256)
  let s2 := (s1.sch.pieces.filter (fun e => e.ctx == x && e.voided && (e.st == 1 || e.st == 2))).foldl
    (fun s e => s.voidPiece step e) s1
  ((sortBy admitLt (s2.sch.pieces.filter (fun e => e.ctx == x && e.st == 0))).foldl (fun s e => s.admitOrRefuse x q e) s2).tidyHeld

/-- Entries of the batch of a step (R312): chunks, then an entry of no token for each piece whose last token was processed before
its trailing edge was known, so that its head is processed in this step (log 39). -/
def State.stepBatch (s : State) (x bt step : Nat) (ready : List (Nat × Nat)) : List (Nat × Nat × Nat) :=
  let held := s.sch.pieces.filter (fun e => e.ctx == x && !e.voided && (e.st == 1 || e.st == 2))
  let cands := held.map (fun e => (e, s.backlog ready e, s.seqClass e 0 21 7 + 1))
  let ordered := sortBy (fun a b => keyLt (s.batchKey step a.1) (s.batchKey step b.1)) (cands.filter (fun e => decide (1 ≤ e.2.1)))
  let tails := (held.filter (fun e => match e.total with | some n => decide (n ≤ e.tokens) | none => false)).map
    (fun e => (e.entry, e.tokens, 0))
  formBatch bt ordered ++ tails

/-- The step of context `x` is in progress with a batch. -/
def State.stepTake (s : State) (x : Nat) (p : Pour) (step : Nat) (batch : List (Nat × Nat × Nat)) : State :=
  let s1 : State := { s with sch := { s.sch with
    seqs := KMap.adjust s.sch.seqs x (fun e => { e with busy := true, batch := batch, commits := [], compare := false }) } }
  let s2 := batch.foldl (fun s e => s.setPiece e.1 (fun k => { k with taken := e.2.2 })) s1
  s2.setPour { p with step := step }

/-- A step of context `x` runs: with no entry it is over at once, else its tasks become ready. -/
def State.stepStart (s : State) (x : Nat) (p : Pour) (g : Program) (q : SeqDecl) (step : Nat) (ready : List (Nat × Nat)) : State :=
  let s1 := s.stepAdmit x q step
  let batch := s1.stepBatch x q.bt step ready
  let s2 := s1.stepTake x p step batch
  if batch = [] then s2.stepEnd x else s2.stepTasks x { p with step := step } g q.twin

/-- A step of a replay pour (R352): a batch of one, the first piece that is not through; it admits nothing and touches no piece of the
ledger. -/
def State.replayStart (s : State) (x : Nat) (p : Pour) (g : Program) (q : SeqDecl) (step : Nat) : State :=
  match p.pieces.findIdx? (fun r => decide (r.fed < r.tokens)) with
  | none => s.replayEnd x []
  | some k =>
    let r := nth p.pieces k {}
    let batch := [(replayBase + k, r.fed, min (r.tokens - r.fed) (max 1 q.bt))]
    ((s.trace 0x02 2 (x + step % 2 ^ 56 * 256)).stepTake x p step batch).stepTasks x { p with step := step } g q.twin

/-- STEP_BEGIN (R312): returns are applied, admissions attempted and the batch formed. `ready`: tokens ready of each piece, by
ledger index (R302). A replay pour steps its own pieces (R352). -/
def execStepBegin (t : Nat) (x : Fin 16) (ready : List (Nat × Nat)) (s : State) : Host.Outcome State Fault Refusal :=
  let s0 := s.at' t
  match s0.seqPour x, KMap.find s0.sch.seqs x with
  | some (p, g, q), some st =>
    if !s0.fabricUp || !s0.schUp || st.busy || st.compare then done s0
    else if p.replay then (if s0.placeable x = [] then done s0 else done (s0.replayStart x p g q st.step))
    else done (s0.stepStart x p g q st.step ready)
  | _, _ => done s0

/-! ### Twin comparison -/

/-- One mismatch of the twin comparison (R355): event, count, last mismatch. `slot`: piece slot, or 0xFF. A replay pour writes nothing to the
journal (R352). -/
def State.twinMismatch (s : State) (x cls slot serial step : Nat) : State :=
  let s1 := s.incSat R.CMD_TWIN_STAT 0 16
  let s2 := (s1.wr R.CMD_TWIN_LAST (cls + slot * 64 + x * 2 ^ 14)).wr (R.CMD_TWIN_LAST + 4) (lo32 serial)
  let s3 := s2.wr64 (R.CMD_TWIN_LAST + 8) step
  let w : EvWords := { w2 := some (cls + x * 64), w3 := some slot, w4 := some (lo32 serial), w5 := some (lo32 step) }
  if (s.replayPour x).isSome then s3.raiseLim E_TWIN_MISMATCH cls ms w x else s3.raiseLimJ E_TWIN_MISMATCH cls ms w x

/-- The piece that number `i` stands for in a batch of context `x`: one SCH holds, or one of a replay pour (R352). -/
def State.batchPiece (s : State) (x i : Nat) : Option Piece :=
  match s.piece i, s.replayPour x with
  | some p, _ => some p
  | none, some p => if replayBase ≤ i then (p.pieces[i - replayBase]?).map (fun r =>
      { entry := i, ctx := x, serial := r.serial, tokens := r.fed, dA := r.dA, dB := r.dB }) else none
  | none, none => none

/-- The piece slots of every piece of the batch, set against set (R355): pieces with the slots that differ. -/
def State.twinSlots (s : State) (x : Nat) (g : Program) (st : SeqSt) : List (Piece × List Nat) :=
  (st.batch.filterMap (fun e => s.batchPiece x e.1)).map (fun e =>
    (e, (List.range (g.pieceSlots.take 8).length).filter (fun k => nth e.dA k 0 != nth e.dB k 0)))

/-- The compared bank registers that differ between the two sets (R355). -/
def State.twinRegs (s : State) (g : Program) (p : Pour) : List Nat :=
  match p.banks with
  | a :: b :: _ => g.compared.filter (fun r => s.digest a r != s.digest b r)
  | _ => []

/-- What a comparison finds is acted on (R355): each mismatch is reported, a piece with one faults, and a register's faults every piece of
the batch. -/
def State.twinAct (s : State) (x : Nat) (st : SeqSt) (bad : List (Piece × List Nat)) (regs : List Nat) : State :=
  let s1 := bad.foldl (fun s e =>
    if e.2 = [] then s
    else (e.2.foldl (fun s k => s.twinMismatch x e.1.cls k e.1.serial st.step) s).setCode e.1.entry 6 E_TWIN_MISMATCH) s
  let cls := match bad with | e :: _ => e.1.cls | [] => 0
  let s2 := if regs = [] then s1
    else (regs.foldl (fun s _ => s.twinMismatch x cls 0xFF 0 st.step) s1).faultPieces (bad.map (fun e => e.1.entry)) E_TWIN_MISMATCH
  if (regs != [] || bad.any (fun e => e.2 != [])) && s2.bit R.PWR_SAFE_CFG 0 then s2.safeEnter 4 else s2

/-- The comparison of a step ends (R354): the longest wait between the two sets' commits is kept, and the step is over. -/
def State.twinEnd (s : State) (x : Nat) (st : SeqSt) : State :=
  let us := match st.commits with | a :: _ => (s.now - a) / 1000 | [] => 0
  let s1 := if s.rd R.CMD_TWIN_WAIT < us then s.wr R.CMD_TWIN_WAIT us else s
  if s1.schUp then s1.stepEnd x
  else { s1 with sch := { s1.sch with seqs := KMap.adjust s1.sch.seqs x (fun q => { q with compare := false }) } }

/-- TWIN_COMPARE (R354, R355): piece slots of every piece of the batch, then the compared bank registers, set against set. -/
def execTwinCompare (t : Nat) (x : Fin 16) (s : State) : Host.Outcome State Fault Refusal :=
  let s0 := s.at' t
  match s0.seqPour x, KMap.find s0.sch.seqs x with
  | some (p, g, _), some st =>
    if !s0.running || !st.compare then done s0
    else done ((s0.twinAct x st (s0.twinSlots x g st) (s0.twinRegs g p)).twinEnd x st)
  | _, _ => done s0

/-! ### Dispatch and steals -/

/-- Priority of context `x`. -/
def State.prioOf (s : State) (x : Nat) : Nat := match s.ctx x with | some c => c.prio | none => 0

/-- Class of context `x`. -/
def State.clsOf (s : State) (x : Nat) : Nat := match s.ctx x with | some c => c.cls | none => 0

/-- A task of context `x`, number `k`, may be dispatched on flask `n` now (R318): no LINE task that goes before it waits there. -/
def State.goesFirst (s : State) (n x k : Nat) : Bool :=
  s.sch.deques.all (fun d =>
    !(d.1 == n && s.clsOf d.2.1 == 1 && d.2.1 != x) ||
      (s.clsOf x == 1 && (decide (s.prioOf d.2.1 < s.prioOf x) || (decide (s.prioOf d.2.1 = s.prioOf x) && decide (k ≤ d.2.2.2)))))

/-- Take one entry out of the deques. -/
def State.dropDeque (s : State) (d : Nat × Nat × Nat × Nat) : State :=
  { s with sch := { s.sch with deques := s.sch.deques.erase d } }

/-- CSRs the FC loads before a task's first instruction, those that are not 0 (R242). -/
def State.startCsrs (s : State) (i x id k : Nat) : KMap W64 :=
  let step := BitVec.ofNat 64 (s.stepOf id)
  let token := match s.pour id with | some p => (nth p.tasks k {}).token | none => 0
  ([(0x012, step), (0x030, BitVec.ofNat 64 (i / 4)), (0x031, BitVec.ofNat 64 (i % 4)), (0x032, BitVec.ofNat 64 x),
    (0x033, BitVec.ofNat 64 k), (0x034, BitVec.ofNat 64 id), (0x035, step), (0x036, BitVec.ofNat 64 token)] : KMap W64).filter
    (fun e => e.2 != 0)

/-- Start task `k` of pour `id` on fettler `i`: its regions are on the flask already (R320, R261). -/
def State.startTask (s : State) (i x id k : Nat) (d : TaskDecl) : State :=
  let n := i / 4
  let f : Fet := { pour := id, task := k, ctx := x, pc := d.entry, csr := s.startCsrs i x id k }
  let s1 := (((s.setFet i f).allotTiles n (i % 4) (some (id, k))).setTask id k (fun t => { t with st := 2, flask := n })).trace
    0x10 (3 + n) (k % 128 + id % 2 ^ 32 * 2 ^ 32)
  if s1.clsOf x = 1 then s1.setFlask n { s1.flask n with line := some x, lineAt := s1.now } else s1

/-- TASK_DISPATCH (R321): an FC with an idle fettler pops a ready task of context `x` from the bottom of its own deque. -/
def execTaskDispatch (t : Nat) (n : Fin 32) (f : Fin 4) (x : Fin 16) (s : State) : Host.Outcome State Fault Refusal :=
  let s0 := s.at' t
  let i := n.val * 4 + f.val
  match (s0.sch.deques.filter (fun d => d.1 == n.val && d.2.1 == x.val)).getLast? with
  | none => done s0
  | some d =>
    if !s0.fabricUp || decide (s0.fwState (3 + n) ≠ 1) || (s0.fet i).isSome || !(s0.placeable x).contains n || s0.stopped n x
        || !s0.goesFirst n x d.2.2.2 then done s0
    else match s0.taskDecl d.2.2.1 d.2.2.2 with
      | none => done (s0.dropDeque d)
      | some decl =>
        match s0.bringRegions n x decl.regions with
        | none => done s0
        | some s1 => done ((s1.dropDeque d).startTask i x d.2.2.1 d.2.2.2 decl)

/-- A sequence task is anchored while a piece of its batch holds a mould group (R308). -/
def State.anchored (s : State) (x : Nat) : Bool :=
  (s.batchOf x).any (fun i => match s.piece i with | some p => decide (0 < p.mouldGroups) || decide (0 < p.mouldB) | none => false)

/-- A waiting task may be stolen by flask `n` (R322, R353). -/
def State.stealable (s : State) (n : Nat) (d : Nat × Nat × Nat × Nat) : Bool :=
  match s.taskDecl d.2.2.1 d.2.2.2 with
  | none => false
  | some decl =>
    let twin := match s.pour d.2.2.1 with
      | some p => (match s.pourProg p with | some g => (match g.seq with | some q => q.twin | none => false) | none => false)
      | none => false
    !decl.stripe && !decl.bound && !(decl.seq && s.anchored d.2.1)
      && (!(decl.seq && twin) || (s.setFlasks d.2.1 true decl.setB).contains n)

/-- TASK_STEAL (R322): an FC with an idle fettler and an empty deque for context `x` takes the oldest task that may be stolen
from the nearest flask that has one. -/
def execTaskSteal (t : Nat) (n : Fin 32) (f : Fin 4) (x : Fin 16) (s : State) : Host.Outcome State Fault Refusal :=
  let s0 := s.at' t
  let own := s0.sch.deques.any (fun d => d.1 == n.val && d.2.1 == x.val)
  if !s0.fabricUp || !s0.schUp || decide (s0.fwState (3 + n) ≠ 1) || (s0.fet (n * 4 + f)).isSome || own || !(s0.placeable x).contains n
      || s0.stopped n x then done s0
  else
    let others := sortBy (fun a b => decide (hops n a < hops n b)) ((s0.runs x).filter (fun m => m != n.val))
    match others.findSome? (fun m => s0.sch.deques.find? (fun d => d.1 == m && d.2.1 == x.val && s0.stealable n d)) with
    | none => done s0
    | some d =>
      let s1 := (((s0.dropDeque d).lineWas d.1).pushTask n x d.2.2.1 d.2.2.2).trace 0x04 2 (d.1 + n.val * 32 + d.2.2.2 % 128 * 1024)
      match s1.ctx x with
      | some c => done (s1.setCtx x { c with steals := c.steals + 1 })
      | none => done s1

/-! ### Slices, chills and remelts -/

/-- SLICE_END (R326): at a tick at or after the end of its granted length, or with no ready task, context `x` stops on every
flask it holds; its debt runs until its last command completes. -/
def execSliceEnd (t : Nat) (x : Fin 16) (s : State) : Host.Outcome State Fault Refusal :=
  let s0 := s.at' t
  match s0.ctx x with
  | none => done s0
  | some c =>
    if !s0.running || !s0.schUp || decide (c.cls ≠ 2 ∨ c.st ≠ 2) || (decide (s0.now < c.sliceAt + c.granted) && s0.jobWork x) then done s0
    else
      let s1 := (s0.jobFlasks x).foldl (fun s n =>
        let k := s.flask n
        if k.phase = 0 then (s.setFlask n { k with phase := 1, full := false }).stopFlask n x
        else if k.phase = 3 then s.setFlask n { k with phase := 0, job := none }
        else s) s0
      done (((s1.setCtx x { c with st := 3, endedAt := some s1.now }).overrunCheck x).chillDone x).schedule

/-- A chill finishes on flask `n`: a claimed flask is free for LINE, and the pre-emption's latency is noted (R331, R332). -/
def State.preemptDone (s : State) (n : Nat) : State :=
  let k := s.flask n
  match k.askedAt with
  | none => s
  | some a =>
    let lat := s.now - a
    let s1 := (s.setFlask n { k with askedAt := none, latency := lat, lineAt := s.now }).wr (R.CMD_FLASK_SCHED n + 4) lat
    let s2 := if s1.rd R.CMD_PREEMPT_MAX < lat then s1.wr R.CMD_PREEMPT_MAX lat else s1
    (s2.inc R.CMD_PREEMPTS).trace 0x06 2 (n + lat % 2 ^ 32 * 2 ^ 32)

/-- Context `x` is off flask `n`, its section saved (R327, R328). -/
def State.chillOn (s : State) (x n : Nat) (c : Ctx) : State :=
  let k := s.flask n
  let full := k.full || (k.line.isNone && !s.incomingFits n x)
  let sec0 := s.saveSection n x full
  let sec : Section := if k.crashed = [] then sec0 else { sec0 with kind := 2, fets := k.crashed }
  let keep := s.hasPours x
  let s1 := (s.clearFlask n x full).setFlask n { k with job := none, phase := 0, full := false, crashed := [] }
  let chilling := (s1.jobFlasks x).any (fun m => (s1.flask m).phase == 1 || (s1.flask m).phase == 2)
  let c1 : Ctx := { c with
    running := c.running &&& ~~~ maskOf [n]
    sections := if keep then c.sections.filter (fun e => e.flask != n) ++ [sec] else c.sections
    chills := if chilling then c.chills else c.chills + 1 }
  let s2 := (s1.setCtx x { c1 with image := c1.imageKib }).trace 0x13 (3 + n) (sec.kind + sec.kib * 2 ^ 32)
  ((((s2.countTraffic sec.kib).preemptDone n).lineRuns).chillDone x).destroyCheck x

/-- A section left resident by a core chill is saved in full (R330). -/
def State.upgradeSection (s : State) (x n : Nat) (c : Ctx) (k : Section) : State :=
  let k1 : Section := { k with kind := 1, regions := s.regionWords n x, mould := s.regionCells n x }
  let c1 : Ctx := { c with sections := c.sections.map (fun e => if e.flask = n then k1 else e) }
  ((((s.dropRegions n x).setCtx x c1).trace 0x13 (3 + n) (1 + k1.kib * 2 ^ 32)).countTraffic k1.kib).chillDone x

/-- CHILL_COMPLETE (R327, R328): the section of context `x` on flask `n` has been written, once its last command there has
completed. -/
def execChillComplete (t : Nat) (x : Fin 16) (n : Fin 32) (s : State) : Host.Outcome State Fault Refusal :=
  let s0 := s.at' t
  match s0.ctx x with
  | none => done s0
  | some c =>
    let k := s0.flask n
    if !s0.running || decide (s0.fwState (3 + n) ≠ 1) then done s0
    else if k.job = some x.val ∧ (k.phase = 1 ∨ k.phase = 2) then
      (if s0.issuedOn n x || s0.draining n x then done s0 else done ((s0.overrunCheck x).chillOn x n ((s0.overrunCheck x).ctx x |>.getD c)).schedule)
    else match c.sections.find? (fun e => e.flask == n.val && e.kind == 0) with
      | some e => if c.held ∧ c.st = 3 then done (s0.upgradeSection x n c e).schedule else done s0
      | none => done s0

/-- REMELT_COMPLETE (R330): the section of context `x` for flask `n` is restored; with the last one the context's tasks run
again. `bad`: the line of the image whose read is uncorrectable, and the context fails (Table 9.3). -/
def execRemeltComplete (t : Nat) (x : Fin 16) (n : Fin 32) (bad : Option Nat) (s : State) :
    Host.Outcome State Fault Refusal :=
  let s0 := s.at' t
  match s0.ctx x with
  | none => done s0
  | some c =>
    let k := s0.flask n
    match c.sections.find? (fun e => e.flask == n.val) with
    | none => done s0
    | some e =>
      if !s0.running || decide (s0.fwState (3 + n) ≠ 1) || decide (k.job ≠ some x.val ∨ k.phase ≠ 3) then done s0
      else if let some line := bad then done ((s0.memUncorr line 6 x n).ctxFail x E_MEM_UNCORR).schedule
      else match s0.restoreRegions n x e with
        | none => done s0
        | some s1 =>
          let s2 := (s1.restoreSection n x e).countTraffic e.kib
          let c1 : Ctx := { c with sections := c.sections.filter (fun m => m.flask != n.val) }
          let s3 := s2.setCtx x c1
          if c.st = 2 then
            let s4 := s3.setFlask n { k with phase := 0 }
            done ((s4.setCtx x { c1 with running := c1.running ||| maskOf [n.val] }).refresh)
          else if (s3.jobFlasks x).any (fun m => c1.sections.any (fun q => q.flask == m)) then done s3
          else done (s3.ctxRun x)

/-! ### LINE claims -/

/-- Context `x` has a ready task that flask `n` may run, and no fettler free for it in its own set (R331). -/
def State.lineDemand (s : State) (x n : Nat) : Bool :=
  s.sch.deques.any (fun d => d.2.1 == x && (d.1 == n || s.stealable n d))
    && (s.runs x).all (fun m => [0, 1, 2, 3].all (fun f => (s.fet (4 * m + f)).isSome))

/-- A core chill suffices on flask `n` for LINE context `x` (R327, R331): the regions of the task that is to run there fit beside what stands. -/
def State.coreFits (s : State) (x n : Nat) : Bool :=
  match s.sch.deques.find? (fun d => d.2.1 == x && (d.1 == n || s.stealable n d)) with
  | none => false
  | some d => match s.taskDecl d.2.2.1 d.2.2.2 with
    | none => false
    | some decl => (s.addRegions n x decl.regions).isSome

/-- The JOB-held flask that LINE context `x` claims (R331): of those of its mask it has demand for, one where a core chill suffices before
another, then the lowest index. -/
def State.claimFlask (s : State) (x : Nat) : Option Nat :=
  let ns := (List.range 32).filter (fun n =>
    (s.flask n).job.isSome && (s.flask n).line.isNone && s.inMask x n && s.lineDemand x n)
  match ns.find? (s.coreFits x) with
  | some n => some n
  | none => ns.head?

/-- LINE_DEMAND_CLAIM (R331, R333): LINE context `x` claims flask `n` of JOB context `y`, which is stopped and chilled there; a remelt in
progress is stopped and its image stays. -/
def execLineDemandClaim (t : Nat) (x : Fin 16) (n : Fin 32) (y : Fin 16) (s : State) : Host.Outcome State Fault Refusal :=
  let s0 := s.at' t
  let k := s0.flask n
  let fits := s0.coreFits x n
  if !s0.running || !s0.schUp || decide (s0.clsOf x ≠ 1) || k.job != some y.val || s0.claimFlask x != some n.val then done s0
  else
    let unsaved := match s0.ctx y with | some c => c.sections.all (fun e => e.flask != n.val) | none => true
    if k.phase = 3 ∧ !unsaved then
      let s1 := (s0.setFlask n { k with job := none, phase := 0, line := some x.val, askedAt := some s0.now }).preemptDone n
      let s2 := if (s1.jobFlasks y).any (fun m => (s1.flask m).phase == 3) then s1 else s1.chillDone y
      done s2.lineRuns
    else if k.phase = 0 ∨ k.phase = 3 then
      done ((s0.setFlask n { k with phase := 1, full := !fits, line := some x.val, askedAt := some s0.now }).stopFlask n y)
    else
      done (s0.setFlask n { k with full := k.full || !fits, line := some x.val, askedAt := some s0.now })

/-- LINE_FLASK_RETURN (R331): with no LINE task on flask `n` or ready for it for 1 ms, the flask is JOB's again: the running JOB
context whose mask holds it is remelted there, or goes on there at once, else the next one is selected. -/
def execLineFlaskReturn (t : Nat) (n : Fin 32) (s : State) : Host.Outcome State Fault Refusal :=
  let s0 := s.at' t
  let k := s0.flask n
  let busy := s0.sch.deques.any (fun d => d.1 == n.val && s0.clsOf d.2.1 == 1) || s0.fab.fets.any (fun e => e.1 / 4 == n.val && s0.clsOf e.2.ctx == 1)
  if !s0.running || !s0.schUp || k.line.isNone || k.job.isSome || busy || decide (s0.now < k.lineAt + ms) then done s0
  else
    let s1 := s0.setFlask n { k with line := none }
    match s1.sch.ctxs.find? (fun e => e.2.cls == 2 && e.2.st == 2 && e.2.mask.toNat.testBit n) with
    | none => done s1.schedule
    | some (y, c) =>
      let s2 := s1.retarget y (n.val :: s1.jobFlasks y) [n.val]
      let has := match s2.ctx y with | some d => d.sections.any (fun e => e.flask == n.val) | none => false
      let s3 := s2.setFlask n { s2.flask n with job := some y, phase := if has then 3 else 0 }
      if has then done s3.lineRuns
      else done ((s3.setCtx y { c with running := c.running ||| maskOf [n.val] }).lineRuns)

end Sys2Proof.Machine
end

