-- ==== Sys2Proof/Machine/Flags.lean ====
section
/-! DEFINITION. Lanes of the vector unit (R228, R229), float lane arithmetic with its sticky flags (R231), reductions
(R233) and the special functions (R243–R246). -/

namespace Sys2Proof.Machine

/-! ### Lanes -/

/-- Lane width in bits of an element type (Table 11.4). -/
def laneBits (et : Nat) : Nat :=
  if et = 0 then 8 else if et = 1 ∨ et = 5 ∨ et = 6 then 16 else if et = 2 ∨ et = 4 then 32 else 64

/-- Lanes of a register. -/
def laneCount (et : Nat) : Nat := 512 / laneBits et

/-- A float element type. -/
def etFloat (et : Nat) : Bool := decide (4 ≤ et)

/-- Format code of an element type (Table 10.1): F32, F16, BF16. -/
def etFmt (et : Nat) : Nat := if et = 4 then 12 else if et = 5 then 10 else 11

/-- Bits of lane `i` of width `w`. -/
def lane (v : BitVec 512) (w i : Nat) : Nat := v.toNat / 2 ^ (w * i) % 2 ^ w

/-- A register from its lanes, lane 0 first. -/
def ofLanes (w : Nat) : List Nat → Nat
  | [] => 0
  | x :: xs => x % 2 ^ w + 2 ^ w * ofLanes w xs

/-- The lane of `w` bits at index `i` is active under predicate `p` (R229). -/
def active (p : W64) (w i : Nat) : Bool := p.getLsbD (w / 8 * i)

/-! ### Flags (R231): NX 1, UF 2, OF 4, DZ 8, NV 16 -/

/-- Flags a rounding sets. -/
def Rounded.flags (r : Rounded) : Nat := b2n r.nx + 2 * b2n (r.tiny && r.nx) + 4 * b2n r.ovf

/-- Canonical NaN of a format with NV. -/
def invalid (f : FloatFmt) : Nat × Nat := (f.nan, 16)

/-- An exact sum of finite terms, rounded once; an exact zero takes the sign IEEE 754 gives in the mode (R231). -/
def sumRound (f : FloatFmt) (mode : Nat) (ts : List (Bool × Nat × Int)) : Nat × Nat :=
  let (neg, m, e) := dySum ts
  if m = 0 then
    let allNeg := ts.all (fun t => t.1)
    let allPos := ts.all (fun t => !t.1)
    let z := ts.all (fun t => t.2.1 == 0)
    let s := if z && allNeg then true else if z && allPos then false else mode == 3
    (b2n s * 2 ^ (f.eb + f.mb), 0)
  else let r := f.round mode 0 neg m e; (r.bits, r.flags)

/-- a + b of a float type: result and flags. -/
def floatAdd (f : FloatFmt) (mode : Nat) (a b : Num) : Nat × Nat :=
  match a, b with
  | .nan, _ => invalid f
  | _, .nan => invalid f
  | .inf s, .inf t => if s = t then (f.infinity s, 0) else invalid f
  | .inf s, .fin _ _ _ => (f.infinity s, 0)
  | .fin _ _ _, .inf t => (f.infinity t, 0)
  | .fin s m e, .fin t n g => sumRound f mode [(s, m, e), (t, n, g)]

/-- Change the sign of a value. -/
def Num.neg : Num → Num
  | .fin s m e => .fin (!s) m e
  | .inf s => .inf (!s)
  | .nan => .nan

/-- a × b of a float type. -/
def floatMul (f : FloatFmt) (mode : Nat) (a b : Num) : Nat × Nat :=
  match a, b with
  | .nan, _ => invalid f
  | _, .nan => invalid f
  | .inf s, .inf t => (f.infinity (s != t), 0)
  | .inf s, .fin t m _ => if m = 0 then invalid f else (f.infinity (s != t), 0)
  | .fin s m _, .inf t => if m = 0 then invalid f else (f.infinity (s != t), 0)
  | .fin s m e, .fin t n g => let r := f.round mode 0 (s != t) (m * n) (e + g); (r.bits, r.flags)

/-- d + a × b, rounded once. -/
def floatFma (f : FloatFmt) (mode : Nat) (d a b : Num) : Nat × Nat :=
  match a, b with
  | .fin s m e, .fin t n g =>
    (match d with
     | .nan => invalid f
     | .inf u => (f.infinity u, 0)
     | .fin u k h => sumRound f mode [(u, k, h), (s != t, m * n, e + g)])
  | .nan, _ => invalid f
  | _, .nan => invalid f
  | x, y =>
    let zero (v : Num) : Bool := match v with | .fin _ 0 _ => true | _ => false
    let sgn (v : Num) : Bool := match v with | .fin s _ _ => s | .inf s => s | .nan => false
    if zero x || zero y then invalid f
    else match d with
      | .nan => invalid f
      | .inf u => if u = (sgn x != sgn y) then (f.infinity u, 0) else invalid f
      | .fin _ _ _ => (f.infinity (sgn x != sgn y), 0)

/-- The smaller or larger of two float lanes: NaN if either is, −0 below +0 (Table 11.5). -/
def floatPick (fmt : Nat) (isMax : Bool) (a b : Nat) : Nat := pickMax fmt isMax a b

/-- A value is a zero. -/
def Num.isZero : Num → Bool
  | .fin _ m _ => m == 0
  | _ => false

/-- Values compare equal, the zeros with each other; NaN with nothing. -/
def numEq (a b : Num) : Bool :=
  match a, b with
  | .nan, _ => false
  | _, .nan => false
  | x, y => (x.isZero && y.isZero) || (!numLt x y && !numLt y x)

/-- a < b as numbers, the zeros equal; false for NaN. -/
def numLess (a b : Num) : Bool :=
  match a, b with
  | .nan, _ => false
  | _, .nan => false
  | x, y => !(x.isZero && y.isZero) && numLt x y

/-! ### Integer lanes -/

/-- Signed value of a lane. -/
def laneInt (w x : Nat) : Int := sextI x w

/-- One lane of a class 6 operation on integers: codes 0–5 of Table 11.5. -/
def intLane (op w d a b : Nat) : Nat :=
  if op = 0 then (a + b) % 2 ^ w
  else if op = 1 then (a + (2 ^ w - b % 2 ^ w)) % 2 ^ w
  else if op = 2 then a * b % 2 ^ w
  else if op = 3 then (d + a * b) % 2 ^ w
  else if op = 4 then (if laneInt w a ≤ laneInt w b then a else b)
  else (if laneInt w b ≤ laneInt w a then a else b)

/-- One lane of a class 6 operation on floats: codes 0–5 of Table 11.5, with its flags. -/
def floatLane (op fmt mode d a b : Nat) : Nat × Nat :=
  match floatFmt fmt with
  | none => (0, 0)
  | some f =>
    if op = 0 then floatAdd f mode (f.value a) (f.value b)
    else if op = 1 then floatAdd f mode (f.value a) (f.value b).neg
    else if op = 2 then floatMul f mode (f.value a) (f.value b)
    else if op = 3 then floatFma f mode (f.value d) (f.value a) (f.value b)
    else (floatPick fmt (op == 5) a b, 0)

/-- Lane by lane under a predicate (R229): an inactive lane keeps the old value and sets no flag. `g i` gives the lane's
result and its flags. -/
def overLanes (w : Nat) (p : W64) (old : BitVec 512) (g : Nat → Nat × Nat) : BitVec 512 × Nat :=
  let rs := (List.range (512 / w)).map (fun i => if active p w i then g i else (lane old w i, 0))
  (BitVec.ofNat 512 (ofLanes w (rs.map Prod.fst)), rs.foldl (fun a r => Nat.lor a r.2) 0)

/-- The predicate a compare writes: all bits of an active lane whose compare holds (R229). -/
def comparePred (w : Nat) (p : W64) (g : Nat → Bool) : W64 :=
  BitVec.ofNat 64 ((List.range (512 / w)).foldl (fun a i =>
    if active p w i && g i then a + (2 ^ (w / 8) - 1) * 2 ^ (w / 8 * i) else a) 0)

/-! ### Reductions (R233) -/

/-- Combine two nodes; an absent node gives the other. -/
def combine {α : Type} (g : α → α → α × Nat) (a b : Option α × Nat) : Option α × Nat :=
  match a.1, b.1 with
  | some x, some y => let r := g x y; (some r.1, Nat.lor (Nat.lor a.2 b.2) r.2)
  | some x, none => (some x, Nat.lor a.2 b.2)
  | none, y => (y, Nat.lor a.2 b.2)

/-- One level of the tree: nodes 2i and 2i + 1. -/
def treeLevel {α : Type} (g : α → α → α × Nat) : List (Option α × Nat) → List (Option α × Nat)
  | a :: b :: l => combine g a b :: treeLevel g l
  | l => l

/-- The root of the fixed binary tree over the lanes, with the flags its nodes set. -/
def treeRoot {α : Type} (g : α → α → α × Nat) : Nat → List (Option α × Nat) → Option α × Nat
  | 0, l => match l with | a :: _ => a | [] => (none, 0)
  | n + 1, l => match l with
    | [a] => a
    | _ => treeRoot g n (treeLevel g l)

/-- F32, in which float reductions run. -/
def f32 : FloatFmt := ⟨8, 23, 127, true⟩

/-- A float lane widened exactly to F32 (R233). -/
def widen (et x : Nat) : Nat := (convertTo 12 0 0 (numOf (etFmt et) x)).bits

/-- Sum of two F32 nodes in RNE (R233). -/
def nodeSum (a b : Nat) : Nat × Nat := floatAdd f32 0 (f32.value a) (f32.value b)

/-- A class 8 reduction of the active lanes: op 0 sum, 1 min, 2 max, 3 exact sum; result bits and flags. -/
def reduce (op et : Nat) (p : W64) (v : BitVec 512) : Nat × Nat :=
  let w := laneBits et
  let ls := (List.range (laneCount et)).map (fun i => if active p w i then some (lane v w i) else none)
  if etFloat et then
    let ns := ls.map (fun l => (l.map (widen et), 0))
    if op = 0 then let r := treeRoot nodeSum 7 ns; (r.1.getD 0, r.2)
    else if op = 1 then let r := treeRoot (fun a b => (pickMax 12 false a b, 0)) 7 ns; (r.1.getD (f32.infinity false), r.2)
    else let r := treeRoot (fun a b => (pickMax 12 true a b, 0)) 7 ns; (r.1.getD (f32.infinity true), r.2)
  else
    let ns := ls.map (fun l => (l.map (fun x => laneInt w x), 0))
    if op = 0 then
      let r := treeRoot (fun a b => (sextI (wrapI (a + b) w) w, 0)) 7 ns
      (wrapI (r.1.getD 0) 64, 0)
    else if op = 1 then
      let r := treeRoot (fun a b => (min a b, 0)) 7 ns
      (wrapI (r.1.getD ((2 ^ (w - 1) : Nat) - 1 : Int)) 64, 0)
    else if op = 2 then
      let r := treeRoot (fun a b => (max a b, 0)) 7 ns
      (wrapI (r.1.getD (-((2 ^ (w - 1) : Nat) : Int))) 64, 0)
    else
      let r := treeRoot (fun a b => (a + b, 0)) 7 ns
      (wrapI (r.1.getD 0) 64, 0)

/-! ### Special functions (R243–R246) -/

/-- round_f32 of (−1)^neg × m × 2^e in RNE: bits and flags; an exact 0 gives +0. -/
def roundF32 (neg : Bool) (m : Nat) (e : Int) : Nat × Nat :=
  if m = 0 then (0, 0) else let r := f32.round 0 0 neg m e; (r.bits, r.flags)

/-- round_f32 of a signed integer times 2^e. -/
def roundF32I (i : Int) (e : Int) : Nat × Nat := roundF32 (decide (i < 0)) i.natAbs e

/-- rnd(log2(e) × 2^64) (R244). -/
def vexpK : Nat := 26613026195688644983

/-- C[k] = rnd((ln 2)^k / k! × 2^62), k = 9 down to 0 (R244). -/
def vexpC : List Nat :=
  [469381369432, 6094567565682, 70340819226978, 710362457495793, 6149018367977265, 44355791529079737, 255967521894832113,
   1107849223398934356, 3196577161300663915, 4611686018427387904]

/-- `vexp` (R244). -/
def vexp (x : Nat) : Nat × Nat :=
  match f32.value x with
  | .nan => (f32.nan, 0)
  | .inf neg => if neg then (0, 3) else (f32.infinity false, 0)
  | .fin neg m e =>
    let big (c : Nat) : Bool := dyGe m e c 0 && !dyGe c 0 m e
    if neg && big 104 then (0, 3)
    else if !neg && big 89 then (f32.infinity false, 5)
    else
      let num : Int := (if neg then -1 else 1) * ((m * vexpK : Nat) : Int)
      let y : Int := if 0 ≤ e then num * (2 ^ e.toNat : Nat) / 4 else num / ((4 * 2 ^ (-e).toNat : Nat) : Int)
      let n := y / ((2 ^ 62 : Nat) : Int)
      let f := (y % ((2 ^ 62 : Nat) : Int)).toNat
      let p := vexpC.foldl (fun p c => c + p * f / 2 ^ 62) 32535037283
      roundF32 false p (n - 62)

/-- LN2 = rnd(ln 2 × 2^62) (R245). -/
def vlogLn2 : Nat := 3196577161300663915

/-- D[k] = rnd(2 / (2k + 1) × 2^62), k = 9 down to 0 (R245). -/
def vlogD : List Nat :=
  [485440633518672411, 542551296285575048, 614891469123651721, 709490156681136601, 838488366986797801, 1024819115206086201,
   1317624576693539401, 1844674407370955162, 3074457345618258603, 9223372036854775808]

/-- `vlog` (R245). -/
def vlog (x : Nat) : Nat × Nat :=
  match f32.value x with
  | .nan => invalid f32
  | .inf neg => if neg then invalid f32 else (f32.infinity false, 0)
  | .fin neg m e =>
    if m = 0 then (f32.infinity true, 8)
    else if neg then invalid f32
    else
      let k := 23 - Nat.log2 m
      let mm := m * 2 ^ k
      let ee : Int := e - k + 23
      let s := (mm - 2 ^ 23) * 2 ^ 62 / (mm + 2 ^ 23)
      let t := s * s / 2 ^ 62
      let q := vlogD.foldl (fun q d => d + q * t / 2 ^ 62) 439208192231179800
      roundF32I (ee * vlogLn2 + (q * s / 2 ^ 62 : Nat)) (-62)

/-- Integer square root, by bits from the top. -/
def isqrt : Nat → Nat → Nat → Nat
  | 0, _, r => r
  | k + 1, n, r => if (r + 2 ^ k) * (r + 2 ^ k) ≤ n then isqrt k n (r + 2 ^ k) else isqrt k n r

/-- `VRCP` (R246): the exact quotient to enough bits with a sticky bit, rounded once. -/
def vrcp (x : Nat) : Nat × Nat :=
  match f32.value x with
  | .nan => (f32.nan, 0)
  | .inf neg => (b2n neg * 2 ^ 31, 0)
  | .fin neg m e =>
    if m = 0 then (f32.infinity neg, 8)
    else
      let q := 2 ^ 64 / m
      let sticky := b2n (decide (2 ^ 64 % m ≠ 0))
      roundF32 neg (2 * q + sticky) (-65 - e)

/-- `VRSQ` (R246): the exact root to enough bits with a sticky bit, rounded once. -/
def vrsq (x : Nat) : Nat × Nat :=
  match f32.value x with
  | .nan => (f32.nan, 0)
  | .inf neg => if neg then invalid f32 else (0, 0)
  | .fin neg m e =>
    if m = 0 then (f32.infinity neg, 8)
    else if neg then invalid f32
    else
      -- 1/√(m × 2^e) with e made even: √(2^k / m) for k = 128 or 127
      let odd := e % 2 = 1
      let k : Nat := if odd then 127 else 128
      let q := 2 ^ k / m
      let r := isqrt 65 q 0
      let sticky := b2n (decide (r * r ≠ q ∨ 2 ^ k % m ≠ 0))
      roundF32 false (2 * r + sticky) (-(k + e) / 2 - 1)

end Sys2Proof.Machine
end

