-- ==== Sys2Proof/Machine/FettlerVec.lean ====
section
/-! DEFINITION. Fettler classes 6, 8, 9, 10 and 15: vector arithmetic, reductions, conversions, predicates and special
functions (R229–R235, R243–R246). -/

namespace Sys2Proof.Machine

/-! ### Class 6 -/

/-- The word of a class 6 or 8 instruction with operation `op`. -/
def vecWord (cls op : Nat) (w : VecF) : Nat :=
  fword cls w.d.toNat w.a.toNat w.b.toNat (op + w.et.toNat * 64 + w.pred.toNat * 512)

/-- A lane operation that writes v[d] under its predicate and sets flags (R229, R231): `g et mode d a b` gives a lane. -/
def runLanes (op : Nat) (legal : VecF → Bool) (g : Nat → Nat → Nat → Nat → Nat → Nat × Nat) (t : Nat) (i : Fin 128) (w : VecF)
    (s : State) : Host.Outcome State Fault Refusal :=
  fetRun t i (vecWord 6 op w) (w.et != 7 && legal w) (regOnly (fun f =>
    let et := w.et.toNat
    let n := laneBits et
    let mode := (f.rc 1).toNat % 4
    let r := overLanes n (f.rp w.pred.toNat) (f.rv w.d) (fun k =>
      g et mode (lane (f.rv w.d) n k) (lane (f.rv w.a) n k) (lane (f.rv w.b) n k))
    let f1 := f.wv w.d r.1
    if r.2 = 0 then f1 else f1.flag r.2)) s

/-- One lane of operations 0–5 of Table 11.5. -/
def arithLane (op et mode d a b : Nat) : Nat × Nat :=
  if etFloat et then floatLane op (etFmt et) mode d a b else (intLane op (laneBits et) d a b, 0)

/-- Any type, every field used. -/
def anyVec (_ : VecF) : Bool := true

/-- Integer types only (Table 11.5). -/
def intVec (w : VecF) : Bool := !etFloat w.et.toNat

/-- b must be 0. -/
def noB (w : VecF) : Bool := w.b == 0

/-- Sign bit of a lane flipped or cleared for floats, NaN giving the canonical NaN (Table 11.5). -/
def floatSign (fmt : Nat) (x : Nat) (clear : Bool) : Nat :=
  match floatFmt fmt with
  | none => x
  | some f =>
    match f.value x with
    | .nan => f.nan
    | _ => let top := 2 ^ (f.eb + f.mb)
           if clear then x % top else if x / top % 2 = 1 then x % top else x % top + top

/-- A compare that writes P[d[2:0]] (R229, Table 11.5). -/
def runCompare (op : Nat) (gi : Int → Int → Bool) (gf : Num → Num → Bool) (t : Nat) (i : Fin 128) (w : VecF) (s : State) :
    Host.Outcome State Fault Refusal :=
  fetRun t i (vecWord 6 op w) (w.et != 7 && decide (w.d.toNat < 8)) (regOnly (fun f =>
    let et := w.et.toNat
    let n := laneBits et
    f.wp w.d.toNat (comparePred n (f.rp w.pred.toNat) (fun k =>
      let a := lane (f.rv w.a) n k
      let b := lane (f.rv w.b) n k
      if etFloat et then gf (numOf (etFmt et) a) (numOf (etFmt et) b) else gi (laneInt n a) (laneInt n b))))) s

/-- `VADD`: a + b; integers wrap (R230, R231). -/
def execVadd (t : Nat) (i : Fin 128) (w : VecF) (s : State) : Host.Outcome State Fault Refusal :=
  runLanes 0 anyVec (arithLane 0) t i w s

/-- `VSUB`: a − b; integers wrap (R230, R231). -/
def execVsub (t : Nat) (i : Fin 128) (w : VecF) (s : State) : Host.Outcome State Fault Refusal :=
  runLanes 1 anyVec (arithLane 1) t i w s

/-- `VMUL`: a × b; integers keep the low bits (R230, R231). -/
def execVmul (t : Nat) (i : Fin 128) (w : VecF) (s : State) : Host.Outcome State Fault Refusal :=
  runLanes 2 anyVec (arithLane 2) t i w s

/-- `VFMA`: d + a × b; floats rounded once (R230, R231). -/
def execVfma (t : Nat) (i : Fin 128) (w : VecF) (s : State) : Host.Outcome State Fault Refusal :=
  runLanes 3 anyVec (arithLane 3) t i w s

/-- `VMIN`: the smaller; signed for integers (R230). -/
def execVmin (t : Nat) (i : Fin 128) (w : VecF) (s : State) : Host.Outcome State Fault Refusal :=
  runLanes 4 anyVec (arithLane 4) t i w s

/-- `VMAX`: the larger; signed for integers (R230). -/
def execVmax (t : Nat) (i : Fin 128) (w : VecF) (s : State) : Host.Outcome State Fault Refusal :=
  runLanes 5 anyVec (arithLane 5) t i w s

/-- `VAND`: bitwise AND of lanes (R230). -/
def execVand (t : Nat) (i : Fin 128) (w : VecF) (s : State) : Host.Outcome State Fault Refusal :=
  runLanes 6 anyVec (fun _ _ _ a b => (Nat.land a b, 0)) t i w s

/-- `VOR`: bitwise OR of lanes (R230). -/
def execVor (t : Nat) (i : Fin 128) (w : VecF) (s : State) : Host.Outcome State Fault Refusal :=
  runLanes 7 anyVec (fun _ _ _ a b => (Nat.lor a b, 0)) t i w s

/-- `VXOR`: bitwise XOR of lanes (R230). -/
def execVxor (t : Nat) (i : Fin 128) (w : VecF) (s : State) : Host.Outcome State Fault Refusal :=
  runLanes 8 anyVec (fun _ _ _ a b => (Nat.xor a b, 0)) t i w s

/-- `VSLL`: a shifted left by b mod lane width (R230). -/
def execVsll (t : Nat) (i : Fin 128) (w : VecF) (s : State) : Host.Outcome State Fault Refusal :=
  runLanes 9 intVec (fun et _ _ a b => (a * 2 ^ (b % laneBits et) % 2 ^ laneBits et, 0)) t i w s

/-- `VSRL`: a shifted right by b mod lane width, logical (R230). -/
def execVsrl (t : Nat) (i : Fin 128) (w : VecF) (s : State) : Host.Outcome State Fault Refusal :=
  runLanes 10 intVec (fun et _ _ a b => (a / 2 ^ (b % laneBits et), 0)) t i w s

/-- `VSRA`: a shifted right by b mod lane width, arithmetic (R230). -/
def execVsra (t : Nat) (i : Fin 128) (w : VecF) (s : State) : Host.Outcome State Fault Refusal :=
  runLanes 11 intVec (fun et _ _ a b => (wrapI (laneInt (laneBits et) a / (2 ^ (b % laneBits et) : Nat)) (laneBits et), 0)) t i w s

/-- `VABS`: absolute value; integers wrap, floats clear the sign, NaN gives the canonical NaN (R230). -/
def execVabs (t : Nat) (i : Fin 128) (w : VecF) (s : State) : Host.Outcome State Fault Refusal :=
  runLanes 12 noB (fun et _ _ a _ =>
    (if etFloat et then floatSign (etFmt et) a true else wrapI (laneInt (laneBits et) a).natAbs (laneBits et), 0)) t i w s

/-- `VNEG`: negation; integers wrap, floats flip the sign, NaN gives the canonical NaN (R230). -/
def execVneg (t : Nat) (i : Fin 128) (w : VecF) (s : State) : Host.Outcome State Fault Refusal :=
  runLanes 13 noB (fun et _ _ a _ =>
    (if etFloat et then floatSign (etFmt et) a false else wrapI (-(laneInt (laneBits et) a)) (laneBits et), 0)) t i w s

/-- `VCEQ`: lanes equal; false if a float operand is NaN (R230). -/
def execVceq (t : Nat) (i : Fin 128) (w : VecF) (s : State) : Host.Outcome State Fault Refusal :=
  runCompare 14 (fun a b => decide (a = b)) numEq t i w s

/-- `VCLT`: a < b; signed for integers (R230). -/
def execVclt (t : Nat) (i : Fin 128) (w : VecF) (s : State) : Host.Outcome State Fault Refusal :=
  runCompare 15 (fun a b => decide (a < b)) numLess t i w s

/-- `VCLE`: a ≤ b; signed for integers (R230). -/
def execVcle (t : Nat) (i : Fin 128) (w : VecF) (s : State) : Host.Outcome State Fault Refusal :=
  runCompare 16 (fun a b => decide (a ≤ b)) (fun a b => numLess a b || numEq a b) t i w s

/-- `VSEL`: the lane of a where the named predicate is set, else the lane of b; every lane is written (R230). -/
def execVsel (t : Nat) (i : Fin 128) (w : VecF) (s : State) : Host.Outcome State Fault Refusal :=
  fetRun t i (vecWord 6 17 w) (w.et != 7) (regOnly (fun f =>
    let n := laneBits w.et.toNat
    f.wv w.d (BitVec.ofNat 512 (ofLanes n ((List.range (512 / n)).map (fun k =>
      if active (f.rp w.pred.toNat) n k then lane (f.rv w.a) n k else lane (f.rv w.b) n k)))))) s

/-- `VBCST`: every active lane = low w bits of X[a]; b = 0 (R230). -/
def execVbcst (t : Nat) (i : Fin 128) (w : VecF) (s : State) : Host.Outcome State Fault Refusal :=
  fetRun t i (vecWord 6 18 w) (w.et != 7 && w.b == 0) (regOnly (fun f =>
    let n := laneBits w.et.toNat
    f.wv w.d (overLanes n (f.rp w.pred.toNat) (f.rv w.d) (fun _ => ((f.rx w.a).toNat % 2 ^ n, 0))).1)) s

/-- `VEXTX`: x[d] = lane (X[b] mod lanes) of V[a]; sign-extended for integers, zero-extended for floats; not predicated, so
its predicate field must be 0 (R230, R221). -/
def execVextx (t : Nat) (i : Fin 128) (w : VecF) (s : State) : Host.Outcome State Fault Refusal :=
  fetRun t i (vecWord 6 19 w) (w.et != 7 && w.pred == 0) (regOnly (fun f =>
    let et := w.et.toNat
    let n := laneBits et
    let x := lane (f.rv w.a) n ((f.rx w.b).toNat % laneCount et)
    f.wx w.d (BitVec.ofNat 64 (if etFloat et then x else wrapI (laneInt n x) 64)))) s

/-! ### Class 8 -/

/-- A reduction of the active lanes of V[a] into x[d]; b must be 0 (R233, R221). -/
def runReduce (op : Nat) (legal : VecF → Bool) (t : Nat) (i : Fin 128) (w : VecF) (s : State) : Host.Outcome State Fault Refusal :=
  fetRun t i (vecWord 8 op w) (w.et != 7 && w.b == 0 && legal w) (regOnly (fun f =>
    let r := reduce op w.et.toNat (f.rp w.pred.toNat) (f.rv w.a)
    let f1 := f.wx w.d (BitVec.ofNat 64 r.1)
    if r.2 = 0 then f1 else f1.flag r.2)) s

/-- `RSUM`: sum over the fixed tree (R233). -/
def execRsum (t : Nat) (i : Fin 128) (w : VecF) (s : State) : Host.Outcome State Fault Refusal :=
  runReduce 0 anyVec t i w s

/-- `RMIN`: minimum over the fixed tree (R233). -/
def execRmin (t : Nat) (i : Fin 128) (w : VecF) (s : State) : Host.Outcome State Fault Refusal :=
  runReduce 1 anyVec t i w s

/-- `RMAX`: maximum over the fixed tree (R233). -/
def execRmax (t : Nat) (i : Fin 128) (w : VecF) (s : State) : Host.Outcome State Fault Refusal :=
  runReduce 2 anyVec t i w s

/-- `RSUMW`: exact sum in 64-bit signed, I8–I32 only (R233). -/
def execRsumw (t : Nat) (i : Fin 128) (w : VecF) (s : State) : Host.Outcome State Fault Refusal :=
  runReduce 3 (fun w => decide (w.et.toNat ≤ 2)) t i w s

/-! ### Class 9 -/

/-- A format class 9 converts (R234). -/
def cvtFmt (f : Nat) : Bool := f == 1 || f == 3 || f == 5 || f == 6 || f == 7 || f == 8 || f == 9 || f == 10 || f == 11 || f == 12

/-- The fields of a `VCVT` are allowed: both formats, a mode of Table 10.2, and a part the widths admit (R234). -/
def cvtLegal (w : CvtF) : Bool :=
  let sb := fmtBits w.sfmt.toNat
  let db := fmtBits w.dfmt.toNat
  cvtFmt w.sfmt.toNat && cvtFmt w.dfmt.toNat && decide (w.mode.toNat ≤ 4) && decide (w.part.toNat < max sb db / min sb db)

/-- `VCVT`: convert N = 512 / max(source bits, destination bits) elements (R234). The lanes that the
predicate rules are those of the destination register (log 17). -/
def execVcvt (t : Nat) (i : Fin 128) (w : CvtF) (s : State) : Host.Outcome State Fault Refusal :=
  fetRun t i (fword 9 w.d.toNat w.a.toNat w.sfmt.toNat (w.part.toNat + w.mode.toNat * 4 + w.dfmt.toNat * 32 + w.pred.toNat * 512))
    (cvtLegal w) (regOnly (fun f =>
    let sf := w.sfmt.toNat
    let df := w.dfmt.toNat
    let sb := fmtBits sf
    let db := fmtBits df
    let wide := max sb db
    let n := 512 / wide
    let part := w.part.toNat
    let seed := (f.rc 0x10).toNat + 2 ^ 64 * (f.rc 0x11).toNat
    let rs := (List.range n).map (fun k =>
      let src := lane (f.rv w.a) sb (if sb < wide then part * n + k else k)
      let draw := if w.mode = 4 then
          kcg seed (f.rc 0x12).toNat ((f.rc 0x13).toNat % 65536) (((f.rc 0x14).toNat + k) % 2 ^ 48) % 2 ^ 32 else 0
      (k, convertTo df w.mode.toNat draw (numOf sf src)))
    let lo := if db < wide then part * n else 0
    let on := rs.filter (fun r => active (f.rp w.pred.toNat) db (r.1 + lo))
    let old := f.rv w.d
    let v := ofLanes db ((List.range (512 / db)).map (fun j =>
      match on.find? (fun r => r.1 + lo == j) with
      | some r => r.2.bits
      | none => lane old db j))
    let flags := on.foldl (fun a r => Nat.lor a (Nat.lor r.2.flags (16 * b2n r.2.nv))) 0
    let f1 := f.wv w.d (BitVec.ofNat 512 v)
    let f2 := if flags = 0 then f1 else f1.flag flags
    let k := on.foldl (fun a r => a + b2n r.2.counts) 0
    if k = 0 then f2 else f2.wc 2 (BitVec.ofNat 64 (min (2 ^ 32 - 1) ((f2.rc 2).toNat + k))))) s

/-! ### Class 10 -/

/-- The word of a class 10 instruction (R235). -/
def predWord (op : Nat) (w : PredF) : Nat := fword 10 w.d.toNat w.a.toNat w.b.toNat (op + w.et.toNat * 16 + w.hi.toNat * 128)

/-- P[d] = P[a] op P[b]; unused fields must be 0 (R235). -/
def runPred (op : Nat) (g : W64 → W64 → W64) (t : Nat) (i : Fin 128) (w : PredF) (s : State) : Host.Outcome State Fault Refusal :=
  fetRun t i (predWord op w)
    (w.hi == 0 && w.et == 0 && decide (w.d.toNat < 8) && decide (w.a.toNat < 8) && decide (w.b.toNat < 8))
    (regOnly (fun f => f.wp w.d.toNat (g (f.rp w.a.toNat) (f.rp w.b.toNat)))) s

/-- `PAND`: P[a] AND P[b] (R235). -/
def execPand (t : Nat) (i : Fin 128) (w : PredF) (s : State) : Host.Outcome State Fault Refusal :=
  runPred 0 (fun a b => a &&& b) t i w s

/-- `POR`: P[a] OR P[b] (R235). -/
def execPor (t : Nat) (i : Fin 128) (w : PredF) (s : State) : Host.Outcome State Fault Refusal :=
  runPred 1 (fun a b => a ||| b) t i w s

/-- `PXOR`: P[a] XOR P[b] (R235). -/
def execPxor (t : Nat) (i : Fin 128) (w : PredF) (s : State) : Host.Outcome State Fault Refusal :=
  runPred 2 (fun a b => a ^^^ b) t i w s

/-- `PANDN`: P[a] AND NOT P[b] (R235). -/
def execPandn (t : Nat) (i : Fin 128) (w : PredF) (s : State) : Host.Outcome State Fault Refusal :=
  runPred 3 (fun a b => a &&& ~~~b) t i w s

/-- `PNOT`: NOT P[a] (R235). -/
def execPnot (t : Nat) (i : Fin 128) (w : PredF) (s : State) : Host.Outcome State Fault Refusal :=
  fetRun t i (predWord 4 w) (w.hi == 0 && w.et == 0 && w.b == 0 && decide (w.d.toNat < 8) && decide (w.a.toNat < 8))
    (regOnly (fun f => f.wp w.d.toNat (~~~(f.rp w.a.toNat)))) s

/-- `PFROMX`: P[d] = X[a] (R235). -/
def execPfromx (t : Nat) (i : Fin 128) (w : PredF) (s : State) : Host.Outcome State Fault Refusal :=
  fetRun t i (predWord 5 w) (w.hi == 0 && w.et == 0 && w.b == 0 && decide (w.d.toNat < 8))
    (regOnly (fun f => f.wp w.d.toNat (f.rx w.a))) s

/-- `PTOX`: x[d] = P[a] (R235). -/
def execPtox (t : Nat) (i : Fin 128) (w : PredF) (s : State) : Host.Outcome State Fault Refusal :=
  fetRun t i (predWord 6 w) (w.hi == 0 && w.et == 0 && w.b == 0 && decide (w.a.toNat < 8))
    (regOnly (fun f => f.wx w.d (f.rp w.a.toNat))) s

/-- `PLANES`: lanes 0 to min(X[a], N) − 1 of the type active, all others inactive (R235). -/
def execPlanes (t : Nat) (i : Fin 128) (w : PredF) (s : State) : Host.Outcome State Fault Refusal :=
  fetRun t i (predWord 7 w) (w.hi == 0 && w.et != 7 && w.b == 0 && decide (w.d.toNat < 8))
    (regOnly (fun f => f.wp w.d.toNat
      (BitVec.ofNat 64 (2 ^ (min (f.rx w.a).toNat (laneCount w.et.toNat) * (laneBits w.et.toNat / 8)) - 1)))) s

/-- `PCOUNT`: x[d] = number of active lanes of the type in P[a] (R235). -/
def execPcount (t : Nat) (i : Fin 128) (w : PredF) (s : State) : Host.Outcome State Fault Refusal :=
  fetRun t i (predWord 8 w) (w.hi == 0 && w.et != 7 && w.b == 0 && decide (w.a.toNat < 8))
    (regOnly (fun f => f.wx w.d (BitVec.ofNat 64 ((List.range (laneCount w.et.toNat)).foldl (fun n k =>
      n + b2n (active (f.rp w.a.toNat) (laneBits w.et.toNat) k)) 0)))) s

/-! ### Class 15 -/

/-- A special function on each active F32 lane of V[a]; b and f[8:2] must be 0 (R243). -/
def runSpec (op : Nat) (g : Nat → Nat × Nat) (t : Nat) (i : Fin 128) (w : SpecF) (s : State) : Host.Outcome State Fault Refusal :=
  fetRun t i (fword 15 w.d.toNat w.a.toNat w.b.toNat (op + w.mid.toNat * 4 + w.pred.toNat * 512)) (w.b == 0 && w.mid == 0)
    (regOnly (fun f =>
      let r := overLanes 32 (f.rp w.pred.toNat) (f.rv w.d) (fun k => g (lane (f.rv w.a) 32 k))
      let f1 := f.wv w.d r.1
      if r.2 = 0 then f1 else f1.flag r.2)) s

/-- `VEXP`: the exponential (R244). -/
def execVexp (t : Nat) (i : Fin 128) (w : SpecF) (s : State) : Host.Outcome State Fault Refusal :=
  runSpec 0 vexp t i w s

/-- `VRCP`: the reciprocal (R246). -/
def execVrcp (t : Nat) (i : Fin 128) (w : SpecF) (s : State) : Host.Outcome State Fault Refusal :=
  runSpec 1 vrcp t i w s

/-- `VRSQ`: the reciprocal square root (R246). -/
def execVrsq (t : Nat) (i : Fin 128) (w : SpecF) (s : State) : Host.Outcome State Fault Refusal :=
  runSpec 2 vrsq t i w s

/-- `VLOG`: the natural logarithm (R245). -/
def execVlog (t : Nat) (i : Fin 128) (w : SpecF) (s : State) : Host.Outcome State Fault Refusal :=
  runSpec 3 vlog t i w s

end Sys2Proof.Machine
end

