-- ==== Sys2Proof/Machine/Legal.lean ====
section
/-! DEFINITION. Legal instruction encodings of the fettler (R221, R222), which the fetch and the SCH verifier share. -/

namespace Sys2Proof.Machine

/-- Indices of the CSRs of Table 11.7 that can be written. -/
def csrRw : List Nat := [0x000, 0x001, 0x002, 0x010, 0x011, 0x012, 0x013, 0x014, 0x020, 0x021, 0x022, 0x023, 0x024]

/-- Indices of the RO CSRs of Table 11.7. -/
def csrRo : List Nat := [0x030, 0x031, 0x032, 0x033, 0x034, 0x035, 0x036, 0x040, 0x041, 0x042, 0x043]

/-! ### Encodings (R221, R222) -/

/-- Field of an instruction word. -/
def wf (w lo n : Nat) : Nat := w / 2 ^ lo % 2 ^ n

/-- A class 0 word: an operation of Table 11.2, unused fields 0. -/
def legalAlu (w : Nat) : Bool :=
  let op := wf w 0 6
  if op ≤ 22 then wf w 6 6 == 0 else if op ≤ 25 then wf w 6 6 == 0 && wf w 12 5 == 0 else decide (op ≤ 28) && wf w 12 5 == 0

/-- A class 4 word: a condition of R226; `BANY` and `BNONE` name a predicate. -/
def legalBranch (w : Nat) : Bool :=
  let c := wf w 22 5
  if c ≤ 5 then true else decide (c ≤ 7) && decide (wf w 17 5 < 8) && wf w 12 5 == 0

/-- A class 6 word: an operation of Table 11.5 with a type it admits. -/
def legalVec (w : Nat) : Bool :=
  let op := wf w 0 6
  let et := wf w 6 3
  if et = 7 ∨ 19 < op then false
  else if 9 ≤ op ∧ op ≤ 11 then decide (et ≤ 3)
  else if op = 12 ∨ op = 13 then wf w 12 5 == 0
  else if 14 ≤ op ∧ op ≤ 16 then decide (wf w 22 5 < 8)
  else if op = 18 then wf w 12 5 == 0
  else if op = 19 then wf w 9 3 == 0
  else true

/-- A class 7 word: a mode of Table 11.6, unused fields 0. -/
def legalVls (w : Nat) : Bool :=
  let mode := wf w 6 2
  if mode = 3 then false else if mode = 0 then wf w 12 5 == 0 && wf w 4 2 == 0 else true

/-- A class 8 word: a reduction of R233 with a type it admits. -/
def legalRed (w : Nat) : Bool :=
  let op := wf w 0 6
  let et := wf w 6 3
  et != 7 && decide (op ≤ 3) && wf w 12 5 == 0 && (op != 3 || decide (et ≤ 2))

/-- A class 9 word: formats, mode and part R234 admits. -/
def legalCvt (w : Nat) : Bool :=
  cvtLegal { d := BitVec.ofNat 5 (wf w 22 5), a := BitVec.ofNat 5 (wf w 17 5), sfmt := BitVec.ofNat 5 (wf w 12 5),
             pred := BitVec.ofNat 3 (wf w 9 3), dfmt := BitVec.ofNat 4 (wf w 5 4), mode := BitVec.ofNat 3 (wf w 2 3),
             part := BitVec.ofNat 2 (wf w 0 2) }

/-- A class 10 word: an operation of R235, unused fields 0. -/
def legalPred (w : Nat) : Bool :=
  let op := wf w 0 4
  let d := decide (wf w 22 5 < 8)
  let a := decide (wf w 17 5 < 8)
  let b0 := wf w 12 5 == 0
  let et0 := wf w 4 3 == 0
  wf w 7 5 == 0 &&
    (if op ≤ 3 then et0 && d && a && decide (wf w 12 5 < 8)
     else if op = 4 then et0 && b0 && d && a
     else if op = 5 then et0 && b0 && d
     else if op = 6 then et0 && b0 && a
     else if op = 7 then wf w 4 3 != 7 && b0 && d
     else op == 8 && wf w 4 3 != 7 && b0 && a)

/-- A class 11, 12 or 13 word: an operation of R236, R238 or R239, unused fields 0. -/
def legalQue (cls w : Nat) : Bool :=
  let op := wf w 9 3
  let lo := wf w 0 9
  let d0 := wf w 22 5 == 0
  let b0 := wf w 12 5 == 0
  if cls = 11 then lo == 0 && (if op ≤ 1 then d0 else decide (op ≤ 3))
  else if cls = 12 then b0 && (if op = 0 then decide (lo ≤ 1) else if op = 1 then lo == 0 else op == 2 && lo == 0 && d0)
  else b0 && (if op = 0 then decide (lo ≤ 1) else op == 1 && lo == 0 && d0)

/-- A class 14 word: an operation of R240, a CSR of Table 11.7 that it may name, unused fields 0. -/
def legalSys (w : Nat) : Bool :=
  let op := wf w 12 5
  let f := wf w 0 12
  let d0 := wf w 22 5 == 0
  let a0 := wf w 17 5 == 0
  if op = 0 then a0 && (csrRw.contains f || csrRo.contains f)
  else if op = 1 then d0 && csrRw.contains f
  else if op = 2 then d0 && a0
  else if op = 4 then d0 && f == 0
  else decide (op ≤ 7) && d0 && a0 && f == 0

/-- The word alone is a legal instruction (R221): its class is 0–15, its codes are not reserved and its unused fields are 0. -/
def wordLegal (w : Nat) : Bool :=
  match wf w 27 5 with
  | 0 => legalAlu w
  | 1 => true
  | 2 => wf w 13 3 != 7
  | 3 => decide (wf w 13 3 ≤ 3)
  | 4 => legalBranch w
  | 5 => true
  | 6 => legalVec w
  | 7 => legalVls w
  | 8 => legalRed w
  | 9 => legalCvt w
  | 10 => legalPred w
  | 11 => legalQue 11 w
  | 12 => legalQue 12 w
  | 13 => legalQue 13 w
  | 14 => legalSys w
  | 15 => wf w 12 5 == 0 && wf w 2 7 == 0
  | _ => false

/-- Every word is legal, and every wide prefix has a class 1 or 5 word after it (R222, Table 15.2 reason 2). -/
def codeLegal : List W32 → Bool
  | [] => true
  | w :: ws =>
    if wf w.toNat 27 5 = 31 then
      (match ws with
       | [] => false
       | v :: _ => (wf v.toNat 27 5 == 1 || wf v.toNat 27 5 == 5) && codeLegal ws)
    else wordLegal w.toNat && codeLegal ws

end Sys2Proof.Machine
end

