-- ==== Sys2Proof/Machine/FettlerSync.lean ====
section
/-! DEFINITION. Fettler classes 11 to 14: sync objects, cast, ladle and system instructions (R236–R242), and what ends a
wait (R250). -/

namespace Sys2Proof.Machine

/-- The word of a class 11, 12 or 13 instruction with operation `op`. -/
def queWord (cls op : Nat) (w : QueF) : Nat := fword cls w.d.toNat w.a.toNat w.b.toNat (w.lo.toNat + op * 512)

/-! ### Class 11 -/

/-- `EVINC` (R236): adds X[b][31:0] to the counter X[a] names, on any flask. -/
def evincBody (w : QueF) (s : State) (f : Fet) : FRes :=
  let o := (f.rx w.a).toNat
  let n := o / 256 % 32
  let c := o % 256
  if s.evcOwned f.pour n c then .ok (s.evcAdd n c (lo32 (f.rx w.b).toNat)) f else .trap 8 1 o

/-- `EVINC a, b` (R236). -/
def execEvinc (t : Nat) (i : Fin 128) (w : QueF) (s : State) : Host.Outcome State Fault Refusal :=
  fetRun t i (queWord 11 0 w) (w.lo == 0 && w.d == 0) (evincBody w) s

/-- `EVWAIT` on fettler `i` (R236): the counter must be on its own flask. A wait that begins on the ACK of a halo channel counts
there (Table 13.7). -/
def evwaitBody (i : Nat) (w : QueF) (s : State) (f : Fet) : FRes :=
  let o := (f.rx w.a).toNat
  let n := o / 256 % 32
  let c := o % 256
  if !s.evcOwned f.pour n c || n != i / 4 then .trap 8 1 o
  else if evcReached (s.evc n c) (lo32 (f.rx w.b).toNat) then .ok s f
  else .wait (if f.wait = .none then s.haloWait f.pour n c else s) f (.evwait w)

/-- `EVWAIT a, b` (R236). -/
def execEvwait (t : Nat) (i : Fin 128) (w : QueF) (s : State) : Host.Outcome State Fault Refusal :=
  fetRun t i (queWord 11 1 w) (w.lo == 0 && w.d == 0) (evwaitBody i w) s

/-- The epoch of a barrier has passed `x`: the difference, as signed 32-bit, is positive (R236). -/
def epochPassed (epoch x : Nat) : Bool := decide (0 < sextI (epoch + 2 ^ 32 - x % 2 ^ 32) 32)

/-- Task `k` arrives at a barrier for epoch `x`: its participant bit is set, once, for the current epoch only (R174, R175). -/
def Barrier.arrive (b : Barrier) (k x : Nat) : Barrier :=
  if b.epoch = x ∧ b.parts.contains k ∧ !b.arrived.contains k then { b with arrived := b.arrived ++ [k] } else b

/-- `BAR` (R236). -/
def barBody (w : QueF) (s : State) (f : Fet) : FRes :=
  let o := (f.rx w.a).toNat
  let x := lo32 (f.rx w.b).toNat
  match KMap.find s.fab.bars (o % 64) with
  | none => .trap 8 2 o
  | some b =>
    if b.pour ≠ f.pour then .trap 8 2 o
    else if epochPassed b.epoch x then .ok s (f.wx w.d (BitVec.ofNat 64 b.epoch))
    else .wait { s with fab := { s.fab with bars := KMap.put s.fab.bars (o % 64) (b.arrive f.task x) } } f (.bar w)

/-- `BAR d, a, b` (R236). -/
def execBar (t : Nat) (i : Fin 128) (w : QueF) (s : State) : Host.Outcome State Fault Refusal :=
  fetRun t i (queWord 11 2 w) (w.lo == 0) (barBody w) s

/-- `GCADD` (R236). -/
def gcaddBody (w : QueF) (s : State) (f : Fet) : FRes :=
  let o := (f.rx w.a).toNat
  let g := o % 1024
  if !s.gateOwned f.pour g then .trap 8 3 o
  else
    let v := KMap.getD s.fab.gcs g 0
    let v' := (v + (f.rx w.b).toNat) % 2 ^ 64
    .ok { s with fab := { s.fab with gcs := if v' = 0 then KMap.del s.fab.gcs g else KMap.put s.fab.gcs g v' } }
      (f.wx w.d (BitVec.ofNat 64 v))

/-- `GCADD d, a, b` (R236). -/
def execGcadd (t : Nat) (i : Fin 128) (w : QueF) (s : State) : Host.Outcome State Fault Refusal :=
  fetRun t i (queWord 11 3 w) (w.lo == 0) (gcaddBody w) s

/-! ### Classes 12 and 13 -/

/-- Index of an engine's counter in `nextTicket`: crucibles 0, 1, ladles 0, 1. -/
def ticketSlot (eng unit : Nat) : Nat := eng * 2 + unit

/-- Take the next command number of a task on an engine, and hold its ticket (R238). -/
def Fet.takeTicket (f : Fet) (eng unit : Nat) : Fet × Nat :=
  let k := nth f.nextTicket (ticketSlot eng unit) 0
  let num := (Config.firstTicket.toNat + k) % 2 ^ 32
  ({ f with nextTicket := setNth f.nextTicket (ticketSlot eng unit) (k + 1),
            tickets := f.tickets ++ [({ eng := eng, unit := unit, num := num, st := 0 } : Ticket)] }, num)

/-- The command of ticket `x` has completed, or been refused or aborted (R238): a ticket of the task that is no longer held
was settled by a commit (R241). A number the task has not received names no such command. -/
def Fet.settled (f : Fet) (eng : Nat) (x : W64) : Bool :=
  let unit := x.toNat / 2 ^ 32 % 2
  let num := x.toNat % 2 ^ 32
  match f.tickets.find? (fun k => k.eng == eng && k.unit == unit && k.num == num) with
  | some k => k.st != 0
  | none => decide ((num + 2 ^ 32 - Config.firstTicket.toNat) % 2 ^ 32 < nth f.nextTicket (ticketSlot eng unit) 0)

/-- The sixteen words of a descriptor at a mould offset. -/
def State.readDesc (s : State) (n off : Nat) : List Nat := (List.range 16).map (fun i => s.mnum n (off + 4 * i) 4)

/-- What a descriptor read from the mould at `ea` meets (R238, R218, R171): cause, sub-cause. -/
def State.descTrap (s : State) (n x ea : Nat) : Option (Nat × Nat) :=
  if ea % 64 ≠ 0 then some (2, 0)
  else if mouldSize < ea + 64 then some (4, 0)
  else if !s.mouldOk n x ea 64 then some (4, 1)
  else none

/-- `CAST` (R238). -/
def castBody (i : Nat) (w : QueF) (s : State) (f : Fet) : FRes :=
  let n := i / 4
  let ea := (f.rx w.a).toNat
  let c := w.lo.toNat % 2
  match s.descTrap n f.ctx ea with
  | some (k, sub) => .trap k sub ea
  | none =>
    let q := s.cru (2 * n + c)
    if 32 ≤ q.queue.length then .wait s f (.cast w)
    else
      let (f1, num) := f.takeTicket 0 c
      let d : CDesc := { words := s.readDesc n ea, pour := f.pour, task := f.task, ctx := f.ctx, ticket := num }
      .ok (s.setCru (2 * n + c) { q with queue := q.queue ++ [d] }) (f1.wx w.d (BitVec.ofNat 64 (num + c * 2 ^ 32)))

/-- `CAST d, a` (R238). -/
def execCast (t : Nat) (i : Fin 128) (w : QueF) (s : State) : Host.Outcome State Fault Refusal :=
  fetRun t i (queWord 12 0 w) (w.b == 0 && decide (w.lo.toNat ≤ 1)) (castBody i w) s

/-- `CPOLL d, a`: x[d] = 1 if the command of ticket X[a] has completed or been refused, else 0 (R238). -/
def execCpoll (t : Nat) (i : Fin 128) (w : QueF) (s : State) : Host.Outcome State Fault Refusal :=
  fetRun t i (queWord 12 1 w) (w.b == 0 && w.lo == 0)
    (regOnly (fun f => f.wx w.d (if f.settled 0 (f.rx w.a) then 1 else 0))) s

/-- `CWAIT` (R238). -/
def cwaitBody (w : QueF) (s : State) (f : Fet) : FRes := if f.settled 0 (f.rx w.a) then .ok s f else .wait s f (.cwait w)

/-- `CWAIT a` (R238). -/
def execCwait (t : Nat) (i : Fin 128) (w : QueF) (s : State) : Host.Outcome State Fault Refusal :=
  fetRun t i (queWord 12 2 w) (w.b == 0 && w.lo == 0 && w.d == 0) (cwaitBody w) s

/-- `LDQ` (R239): a descriptor refused under R189 completes at once with its record. -/
def ldqBody (i : Nat) (w : QueF) (s : State) (f : Fet) : FRes :=
  let n := i / 4
  let ea := (f.rx w.a).toNat
  let l := w.lo.toNat % 2
  match s.descTrap n f.ctx ea with
  | some (k, sub) => .trap k sub ea
  | none =>
    let q := s.ladle n l
    if 16 ≤ q.length then .wait s f (.ldq w)
    else
      let (f1, num) := f.takeTicket 1 l
      let ws := s.readDesc n ea
      let d : LDesc := { words := ws, pour := f.pour, task := f.task, ctx := f.ctx, ticket := num }
      let f2 := f1.wx w.d (BitVec.ofNat 64 (num + l * 2 ^ 32))
      if s.lFieldBad n f.ctx ws || !s.lRecordOk n f.ctx ws then
        .ok (s.lFinish n l d E_LADLE_ABORT 1 0)
          { f2 with tickets := f2.tickets.map (fun k => if k.eng = 1 ∧ k.unit = l ∧ k.num = num then { k with st := 2 } else k) }
      else .ok (s.setLadle n l (q ++ [d])) f2

/-- `LDQ d, a` (R239). -/
def execLdq (t : Nat) (i : Fin 128) (w : QueF) (s : State) : Host.Outcome State Fault Refusal :=
  fetRun t i (queWord 13 0 w) (w.b == 0 && decide (w.lo.toNat ≤ 1)) (ldqBody i w) s

/-- `LDW` (R239). -/
def ldwBody (w : QueF) (s : State) (f : Fet) : FRes := if f.settled 1 (f.rx w.a) then .ok s f else .wait s f (.ldw w)

/-- `LDW a` (R239). -/
def execLdw (t : Nat) (i : Fin 128) (w : QueF) (s : State) : Host.Outcome State Fault Refusal :=
  fetRun t i (queWord 13 1 w) (w.b == 0 && w.lo == 0 && w.d == 0) (ldwBody w) s

/-! ### Class 14 -/

/-- The word of a class 14 instruction with operation `op` (R240). -/
def sysWord (op : Nat) (w : SysF) : Nat := fword 14 w.d.toNat w.a.toNat op w.f.toNat

/-- The value a CSR reads on fettler `i` (Table 11.7): CYCLE is a measure of timing (log 2). -/
def State.csrRead (s : State) (i : Nat) (f : Fet) (k : Nat) : W64 :=
  if k = 0x040 then (Config.measure (2 ^ 32 + 2 * i) s.free ++ Config.measure (2 ^ 32 + 2 * i + 1) s.free : BitVec 64)
  else if k = 0x041 then BitVec.ofNat 64 (KMap.getD s.fab.instret i 0)
  else if k = 0x042 then BitVec.ofNat 64 s.devS
  else if k = 0x043 then BitVec.ofNat 64 s.devNs
  else f.rc k

/-- Bits of a CSR that hold a value; the others are reserved and read 0 (Table 11.7). -/
def csrMask (k : Nat) : W64 :=
  if k = 0x000 then 0x1F else if k = 0x001 then 0x7 else if k = 0x002 then 0xFFFFFFFF else if k = 0x013 then 0xFFFF
  else if k = 0x014 then 0xFFFFFFFFFFFF else if k = 0x022 then 0x800000000000FFFF else BitVec.allOnes 64

/-- `CSRD d, csr`: x[d] = CSR f; an unlisted index traps with cause ILLEGAL (R240). -/
def execCsrd (t : Nat) (i : Fin 128) (w : SysF) (s : State) : Host.Outcome State Fault Refusal :=
  fetRun t i (sysWord 0 w) (w.a == 0 && (csrRw.contains w.f.toNat || csrRo.contains w.f.toNat))
    (fun s f => .ok (if w.f = 0x040 then s.fresh else s) (f.wx w.d (s.csrRead i f w.f.toNat))) s

/-- `CSWR a, csr`: CSR f = X[a]; an unlisted index, an RO CSR, or 4–7 to FRM trap with cause ILLEGAL (R240). -/
def execCswr (t : Nat) (i : Fin 128) (w : SysF) (s : State) : Host.Outcome State Fault Refusal :=
  fetRun t i (sysWord 1 w) (w.d == 0 && csrRw.contains w.f.toNat)
    (fun s f =>
      if w.f = 0x001 ∧ 4 ≤ (f.rx w.a).toNat % 8 then .trap 1 0 (sysWord 1 w)
      else .ok s (f.wc w.f.toNat (f.rx w.a &&& csrMask w.f.toNat))) s

/-- `TRAP imm12`: traps with cause SW, TVAL = f (R240). A raw word at the pc is one that no other command spells: it traps with
cause ILLEGAL if it is one of R221 (log 102); a legal word is its own command's. -/
def execTrap (t : Nat) (i : Fin 128) (w : TrapWord) (s : State) : Host.Outcome State Fault Refusal :=
  match w with
  | .instr w => fetRun t i (sysWord 2 w) (w.d == 0 && w.a == 0) (fun _ _ => .trap 9 0 w.f.toNat) s
  | .raw v => if wordLegal v.toNat || wf v.toNat 27 5 == 31 then done (s.at' t) else fetRun t i v.toNat false (fun _ _ => .trap 1 0 v.toNat) s

/-- `YIELD`: offers an interruption point; no other effect (R240). -/
def execYield (t : Nat) (i : Fin 128) (w : SysF) (s : State) : Host.Outcome State Fault Refusal :=
  fetRun t i (sysWord 3 w) (w.d == 0 && w.a == 0 && w.f == 0) (regOnly id) s

/-- Some ticket the task holds is outstanding (R241). -/
def Fet.outstanding (f : Fet) : Bool := f.tickets.any (fun k => k.st == 0)

/-- Some ticket the task holds was refused or aborted (R241). -/
def Fet.failed (f : Fet) : Bool := f.tickets.any (fun k => k.st == 2)

/-- `CHKPT` on fettler `i` (R241). -/
def chkptBody (i : Nat) (w : SysF) (s : State) (f : Fet) : FRes :=
  if f.outstanding then .wait s f (.chkpt w)
  else if f.failed then .trap 9 0 0xFFF
  else
    let s1 := s.commit i f (f.rx w.a).toNat
    .ok s1 { f with pend := [], tickets := [], token := some (f.rx w.a).toNat }

/-- `CHKPT a`: commits the task's step token X[a] (R240, R241). -/
def execChkpt (t : Nat) (i : Fin 128) (w : SysF) (s : State) : Host.Outcome State Fault Refusal :=
  fetRun t i (sysWord 4 w) (w.d == 0 && w.f == 0) (chkptBody i w) s

/-- `ERET`: pc = EPC; clears CAUSE.inh; traps with cause ILLEGAL when CAUSE.inh = 0 (R240). -/
def execEret (t : Nat) (i : Fin 128) (w : SysF) (s : State) : Host.Outcome State Fault Refusal :=
  fetRun t i (sysWord 5 w) (w.d == 0 && w.a == 0 && w.f == 0)
    (fun s f =>
      if (f.rc 0x22).getLsbD 63 then .jump s (f.wc 0x22 (f.rc 0x22 &&& 0xFFFF)) ((f.rc 0x21).setWidth 48)
      else .trap 1 0 (sysWord 5 w)) s

/-- `FENCE`: earlier loads and stores complete before later ones start (R220, R240): accesses of this model complete in
program order, so only the pc moves. -/
def execFence (t : Nat) (i : Fin 128) (w : SysF) (s : State) : Host.Outcome State Fault Refusal :=
  fetRun t i (sysWord 6 w) (w.d == 0 && w.a == 0 && w.f == 0) (regOnly id) s

/-- `TEND` on fettler `i` (R241). -/
def tendBody (i : Nat) (w : SysF) (s : State) (f : Fet) : FRes :=
  if f.outstanding then .wait s f (.tend w)
  else if f.failed then .trap 9 0 0xFFF
  else
    let tok := match f.token with | some k => k | none => (f.rc 0x36).toNat
    let s1 := s.commit i f tok
    let s2 := { s1 with fab := { s1.fab with instret := KMap.put s1.fab.instret i (KMap.getD s1.fab.instret i 0 + 1) } }
    .ended (s2.taskDone i f)

/-- `TEND`: ends the task (R240, R241). -/
def execTend (t : Nat) (i : Fin 128) (w : SysF) (s : State) : Host.Outcome State Fault Refusal :=
  fetRun t i (sysWord 7 w) (w.d == 0 && w.a == 0 && w.f == 0) (tendBody i w) s

/-! ### Waits -/

/-- What the instruction a fettler waits in comes to when it is tried again; none where it does not wait (R250). -/
def State.retry (s : State) (i : Nat) (f : Fet) : Option FRes :=
  match f.wait with
  | .none => none
  | .evwait w => some (evwaitBody i w s f)
  | .bar w => some (barBody w s f)
  | .cast w => some (castBody i w s f)
  | .ldq w => some (ldqBody i w s f)
  | .cwait w => some (cwaitBody w s f)
  | .ldw w => some (ldwBody w s f)
  | .chkpt w => some (chkptBody i w s f)
  | .tend w => some (tendBody i w s f)
  | .park _ _ => none

/-- A fettler waiting in an instruction tries it again; it resumes when what it waits for has come (R250, R236, R238, R239,
R241). -/
def execFettlerWaitResume (t : Nat) (i : Fin 128) (s : State) : Host.Outcome State Fault Refusal :=
  let s1 := s.at' t
  match s1.fet i with
  | none => done s1
  | some f =>
    if !s1.fabricUp || s1.stopped (i / 4) f.ctx then done s1
    else match s1.retry i f with
      | none => done s1
      | some r => done (s1.fetApply i f 4 r)

/-- A barrier whose every participant has arrived: the epoch increments, all bits clear, and every waiter whose epoch has
passed is released; one that waits for the new epoch arrives for it (R174, R175). -/
def execBarrierRelease (t : Nat) (b : Fin 64) (s : State) : Host.Outcome State Fault Refusal :=
  let s1 := s.at' t
  match KMap.find s1.fab.bars b with
  | none => done s1
  | some q =>
    if !s1.fabricUp || !q.parts.all (fun k => q.arrived.contains k) || q.parts == [] then done s1
    else
      let s2 := { s1 with fab := { s1.fab with bars := KMap.put s1.fab.bars b { q with epoch := (q.epoch + 1) % 2 ^ 32, arrived := [] } } }
      done ((s1.fab.fets.map Prod.fst).foldl (fun s i =>
        match s.fet i with
        | none => s
        | some f =>
          match f.wait with
          | .bar w => if (f.rx w.a).toNat % 64 = b ∧ f.pour = q.pour then s.fetApply i f 4 (barBody w s f) else s
          | _ => s) s2)

end Sys2Proof.Machine
end

