-- ==== Sys2Proof/Machine/Verify.lean ====
section
/-! DEFINITION. The SCH verifier (R319, Table 15.2): legal encodings, and the form of a rule section (R370, R373). -/

namespace Sys2Proof.Machine

/-! ### Rule sections (R370, R373) -/

/-- Byte of a rule section. -/
def rb (l : List Byte) (i : Nat) : Nat := (nth l i 0).toNat

/-- 32-bit word of a rule section at byte offset `i`. -/
def rw32 (l : List Byte) (i : Nat) : Nat := rb l i + 256 * rb l (i + 1) + 65536 * rb l (i + 2) + 2 ^ 24 * rb l (i + 3)

/-- Head output formats (Table 17.3). -/
def headFmt (f : Nat) : Bool := f != 7 && cvtFmt f

/-- Byte offset of the first failing field of condition `i` (Table 17.4). -/
def condBad (l : List Byte) (i : Nat) : Option Nat :=
  let a := 0x20 + 8 * i
  let w := rw32 l a
  let src := w % 8
  let idx := w / 64 % 64
  if 4 < src then some a
  else if (if src = 4 then decide (2 < idx) else decide (rb l 6 ≤ idx)) then some a
  else if 6 < w / 4096 % 16 then some (a + 1)
  else if w / 65536 ≠ 0 then some (a + 2)
  else none

/-- A mask word names a condition at or above ncond. -/
def maskBad (ncond m lo : Nat) : Bool := (List.range 32).any (fun b => m.testBit b && decide (ncond ≤ lo + b))

/-- Byte offset of the first failing field of rule `j` (Table 17.3). -/
def ruleBad (l : List Byte) (j : Nat) : Option Nat :=
  let n := rb l 4
  let a := 0x20 + 8 * n + 24 * j
  if maskBad n (rw32 l a) 0 || maskBad n (rw32 l (a + 4)) 32 then some a
  else if maskBad n (rw32 l (a + 8)) 0 || maskBad n (rw32 l (a + 12)) 32 then some (a + 8)
  else if 16 ≤ rw32 l (a + 16) then some (a + 16)
  else if rw32 l (a + 20) ≠ 0 then some (a + 20)
  else none

/-- Byte offset of the first failing field of a rule section for a declared head format; none where it is accepted (R373). -/
def ruleSectionBad (l : List Byte) (hfmt : Nat) : Option Nat :=
  if rb l 0 + 256 * rb l 1 ≠ 0x5652 then some 0
  else if rb l 2 + 256 * rb l 3 ≠ 1 then some 2
  else if 64 < rb l 4 then some 4
  else if 32 < rb l 5 then some 5
  else if rb l 6 = 0 ∨ 64 < rb l 6 then some 6
  else if !headFmt (rb l 7) ∨ rb l 7 ≠ hfmt then some 7
  else if 16 ≤ rb l 8 then some 8
  else match (List.range 23).find? (fun i => rb l (9 + i) != 0) with
    | some i => some (9 + i)
    | none =>
      match (List.range (rb l 4)).findSome? (condBad l) with
      | some a => some a
      | none => (List.range (rb l 5)).findSome? (ruleBad l)

/-! ### The verifier -/

/-- MiB of device memory contexts use (R178). -/
def dramMiB : Nat := 126976

/-- 64 KiB units of a JOB context's chill reserve (R329). -/
def reserveUnits (c : Ctx) : Nat := if c.cls = 2 then 1 + 113 * (maskList c.mask).length else 0

/-- Bytes of device memory not taken by chill reserves and working sets (R319, R329). -/
def State.memFree (s : State) : Nat :=
  dramMiB * 1048576 - s.sch.ctxs.foldl (fun a e => a + reserveUnits e.2 * 65536) 0
    - s.sch.progs.foldl (fun a l => a + l.prog.workset) 0

/-- The bundle a program names is loaded and allows its image (R449). -/
def State.bundleOk (s : State) (g : Program) : Bool :=
  match g.bundle with
  | none => true
  | some d => s.sec.bundles.any (fun b => b.loaded && b.digest == d.toNat && b.allowed.contains g.hash.toNat)

/-- The window grant names a slot or class bound to another context (reason 7; log 25): a slot of which a stripe is placed
for another context, a class whose live program is another context's. -/
def State.grantBad (s : State) (x : Nat) (g : Program) : Bool :=
  g.grantSlots.any (fun e => s.fab.stripes.any (fun t => t.runner == e.1 && t.slot == e.2 && t.ctx != 0 && t.ctx != x))
    || g.grantClasses.any (fun c => decide (64 ≤ c) ||
        (match s.classProgId s.liveGen c with
         | some i => (match s.program i with | some l => l.ctx != x | none => false)
         | none => false))
    || g.grantSlots.any (fun e => decide (16 ≤ e.1) || decide (4 ≤ e.2))

/-- First reason of Table 15.2 that a program fails in context `x`; 0 for none (R319). -/
def State.verifyReason (s : State) (x : Nat) (c : Ctx) (g : Program) : Nat :=
  let twin := match g.seq with | some q => q.twin | none => false
  if !g.wellFormed || !s.bundleOk g then 1
  else if !codeLegal g.code then 2
  else if g.descs.any (fun d => decide (50000 < dCost d)) then 3
  else if !g.rangesOk || g.halos.any (fun h => h.h == 0 || decide (128 < h.h)) || !g.segRegs.all (fun r => g.pieceSlots.contains r)
    || decide (8 < g.pieceSlots.length) then 4
  else if 128 < g.tasks.length then 5
  else if 64 < g.barriers.length ∨ 256 < g.evcs.length ∨ 1024 < g.gates.length
    ∨ g.barriers.any (fun b => decide (64 ≤ b.1)) ∨ g.evcs.any (fun e => decide (256 ≤ e)) ∨ g.gates.any (fun e => decide (1024 ≤ e)) then 6
  else if s.grantBad x g then 7
  else if g.cls.toNat ≠ c.cls ∨ (g.stripeProgram = true ∧ c.cls = 2) ∨ (twin = true ∧ (maskList c.mask).length < 2) then 8
  else if c.cls = 2 ∧ s.memFree < g.workset then 9
  else 0

/-- Refusal of a program: code and result word 3 (R319, R373, R20); none where it is accepted. -/
def State.progRefusal (s : State) (x : Nat) (c : Ctx) (g : Program) : Option (Nat × Nat) :=
  let r := s.verifyReason x c g
  if r ≠ 0 then some (E_PROG_VERIFY, r)
  else if c.cls = 1 ∧ (dramMiB + 144) * 1048576 < g.workset then some (E_PROG_WORKSET, 0)
  else match g.rules with
    | none => none
    | some (l, f) => (ruleSectionBad l f).map (fun a => (E_RULE_PROGRAM, a))

end Sys2Proof.Machine
end

