-- ==== Sys2Proof/Machine/Gate.lean ====
section
/-! DEFINITION. The gate sequencer (R368–R373): values of conditions, rules in order, and the verdict on a piece. -/

namespace Sys2Proof.Machine

/-- A head value as F32 bits; every admitted format converts exactly (R371). -/
def headF32 (fmt : Nat) (w : W32) : Nat := (convertTo 12 0 0 (numOf fmt (w.toNat % 2 ^ fmtBits fmt))).bits

/-- An F32 value divided by a count, in RNE (R371). -/
def divF32 (x n : Nat) : Nat :=
  match f32.value x with
  | .fin neg m e =>
    let q := m * 2 ^ 64 / max 1 n
    let sticky := b2n (decide (m * 2 ^ 64 % max 1 n ≠ 0))
    if m = 0 then x else (roundF32 neg (2 * q + sticky) (e - 65)).1
  | _ => x

/-- Mean of F32 values: added in order, each sum rounded, and divided by their number (R371). -/
def meanF32 : List Nat → Nat
  | [] => f32.nan
  | x :: xs => divF32 (xs.foldl (fun a b => (nodeSum a b).1) x) (xs.length + 1)

/-- Largest or smallest of F32 values as VMAX and VMIN choose (R371, Table 11.5). -/
def pickF32 (isMax : Bool) : List Nat → Nat
  | [] => f32.nan
  | x :: xs => xs.foldl (floatPick 12 isMax) x

/-- A piece feature (Table 17.4): rows, counts, lane. -/
def State.feature (s : State) (e : LEntry) (idx : Nat) : Int :=
  if idx = 0 then e.rows
  else if idx = 1 then (if e.trailKnown then dist (s.classRev e.gen e.cls) e.lead e.trail + 1 else 0)
  else e.lane

/-- The operand of a condition (Table 17.4 word 0 [11:0]): `vals` holds the head values of each sample as F32. -/
def State.condValue (s : State) (e : LEntry) (vals : List (List Nat)) (src smp idx : Nat) : Num :=
  let on := s.samplesOn e.gen e.cls
  let at' (k : Nat) : Nat := nth (nth vals k []) idx f32.nan
  if src = 4 then Num.ofInt (s.feature e idx)
  else if src = 0 then (if on.contains smp then f32.value (at' smp) else .nan)
  else if src = 1 then f32.value (meanF32 (on.map at'))
  else f32.value (pickF32 (decide (src = 2)) (on.map at'))

/-- A compare (Table 17.4): false with a NaN operand, but NE; ISNAN tells NaN. -/
def condHoldsOp (op : Nat) (a b : Num) : Bool :=
  let nan (x : Num) : Bool := match x with | .nan => true | _ => false
  if op = 6 then nan a
  else if nan a || nan b then op == 5
  else if op = 0 then numLess b a
  else if op = 1 then numLess b a || numEq a b
  else if op = 2 then numLess a b
  else if op = 3 then numLess a b || numEq a b
  else if op = 4 then numEq a b
  else !numEq a b

/-- Condition `i` of rule section `l` holds. -/
def State.condTrue (s : State) (e : LEntry) (vals : List (List Nat)) (l : List Byte) (i : Nat) : Bool :=
  let w := rw32 l (0x20 + 8 * i)
  condHoldsOp (w / 4096 % 16) (s.condValue e vals (w % 8) (w / 8 % 8) (w / 64 % 64)) (f32.value (rw32 l (0x24 + 8 * i)))

/-- The conditions of a rule section that hold, as bits. -/
def State.condBits (s : State) (e : LEntry) (vals : List (List Nat)) (l : List Byte) : Nat :=
  (List.range (rb l 4)).foldl (fun a i => a + b2n (s.condTrue e vals l i) * 2 ^ i) 0

/-- Rule `j` matches: every condition of need_true holds and none of need_false (R372). -/
def ruleMatches (l : List Byte) (bits j : Nat) : Bool :=
  let a := 0x20 + 8 * rb l 4 + 24 * j
  let nt := rw32 l a + 2 ^ 32 * rw32 l (a + 4)
  let nf := rw32 l (a + 8) + 2 ^ 32 * rw32 l (a + 12)
  Nat.land nt bits == nt && Nat.land nf bits == 0

/-- Verdict bit and action of the first rule that matches, else of fall (R372). -/
def ruleResult (l : List Byte) (bits : Nat) : Nat × Nat :=
  match (List.range (rb l 5)).find? (ruleMatches l bits) with
  | some j => let w := rw32 l (0x20 + 8 * rb l 4 + 24 * j + 16); (w % 2, w / 2 % 8)
  | none => (rb l 8 % 2, rb l 8 / 2 % 8)

/-- F32 bits of a value, rounded where it is an integer feature (R381). -/
def numF32 (v : Num) : Nat := (convertTo 12 0 0 v).bits

/-- The four journalled rule inputs (R381). -/
def State.ruleInputs (s : State) (e : LEntry) (vals : List (List Nat)) : List Nat :=
  let j0 := s.classWord e.gen e.cls 3
  let j1 := s.classWord e.gen e.cls 4
  [j0 % 4096, j0 / 65536 % 4096, j1 % 4096, j1 / 65536 % 4096].map (fun q =>
    numF32 (s.condValue e vals (q % 8) (q / 8 % 8) (q / 64)))

/-- The rule section of a piece's class in its generation, with its head format. -/
def State.ruleSection (s : State) (e : LEntry) : Option (List Byte × Nat) :=
  match s.classProg e.gen e.cls with
  | some l => l.prog.rules
  | none => none

/-- A piece without a code reaches its deadline (R367): `UNDECIDED_LATE`; its default action is planned, if it was not (R369). A frozen
ledger takes no code (R475), and nothing is raised for it. -/
def State.deadlineAct (s : State) (i : Nat) (e : LEntry) : State :=
  if e.verdict = 0 && s.line.frozen then s
  else if e.verdict = 0 then
    let s1 := (s.setCode i 3 E_DEADLINE_LATE).raiseLimJ E_DEADLINE_LATE e.cls ms {}
    s1.planDefault i
  else s.planDefault i

/-- The gate sequencer judges entry `i` on its head outputs (R367, R368, R372): a verdict counts only if the mirror lies before the
deadline; with a code already set the result is kept in the record. -/
def State.judge (s : State) (i : Nat) (vals : List (List W32)) : State :=
  match s.entry i with
  | none => s
  | some e0 =>
    let s0 := if e0.verdict = 0 && s.reached e0 e0.deadline then s.deadlineAct i e0 else s
    match s0.entry i with
    | none => s0
    | some e =>
      match s0.ruleSection e with
      | none => s0
      | some (l, _) =>
        let fs := vals.map (fun v => v.map (headF32 (rb l 7)))
        let r := ruleResult l (s0.condBits e fs l)
        let e1 := { e with ruleVerdict := 1 + r.1, ruleIn := s0.ruleInputs e fs, lateOut := e.lateOut || e.verdict == 3 }
        let s1 := s0.setEntry i e1
        if e.verdict ≠ 0 then s1 else (s1.setCode i (1 + r.1) 0).planAction i r.2 false

/-- HEAD_OUTPUTS_HANDOFF (R372): the head outputs of a DONE piece are handed to the gate sequencer, `vals` by sample; none while SCH is
absent (Table 22.2). -/
def execHeadOutputsHandoff (t : Nat) (idx : Fin 131072) (vals : List (List W32)) (s : State) : Host.Outcome State Fault Refusal :=
  let s := s.at' t
  match (if s.running && s.schUp then s.sch.handoffs.find? (fun h => h.1 == idx.val) else none) with
  | none => done s
  | some h =>
    let s1 : State := { s with sch := { s.sch with handoffs := s.sch.handoffs.erase h } }
    match s1.entry h.1 with
    | some e => if e.serial = h.2 then done (s1.judge h.1 vals) else done s1
    | none => done s1

end Sys2Proof.Machine
end

