-- ==== Sys2Proof/Machine/LineCmds.lean ====
section
/-! DEFINITION. The commands of line control (chapter Piece ledger): opening and closing pieces, deadlines, reports, answers of Ronyr,
the journal and the line halt (R360–R386). -/

namespace Sys2Proof.Machine

/-! ### Opening -/

/-- Take the next serial; one that reaches the reserve mark has a sequence record written with the next multiple of 65,536 above it
(R362, R477). -/
def State.takeSerial (s : State) : State × Nat :=
  let n := s.line.serialNext
  let s1 : State := { s with line := { s.line with serialNext := n + 1 } }
  (if s.line.mark ≤ n then s1.sequenceRecord ((n / 65536 + 1) * 65536) else s1, n)

/-- SCH holds the piece of an open request, OPENED, under number `i` (R305). -/
def State.schOpen (s : State) (q : OpenReq) (i serial : Nat) : State :=
  match s.classProg q.gen q.cls with
  | none => s
  | some l =>
    let p : Piece := { entry := i, ctx := l.ctx, cls := q.cls, gen := q.gen, serial := serial, lead := q.lead, seg := q.seg }
    { s with sch := { s.sch with pieces := s.sch.pieces ++ [p] } }

/-- A member's part opens no entry (R436): SCH holds it, and a part opened corrupt is settled at the head at once. -/
def State.openMember (s : State) (q : OpenReq) : State :=
  if q.corrupt || s.safe || s.sec.fault then
    s.shareSettle { cls := q.cls, gen := q.gen, lead := q.lead, seg := q.seg } (if q.corrupt then 2 else 3)
  else s.schOpen q (memberBase + q.rid) 0

/-- A head's new piece lacks a member that cannot be reached, or that has withdrawn alignment of the class channel (R437). -/
def State.memberMissing (s : State) (g c : Nat) : Bool :=
  (List.range 64).any (fun d => s.shareMember g c d
    && (s.chain.lost.contains d || (s.route d).isNone || s.chain.unaligned.contains (d, s.classChan g c)))

/-- The class runs in twin pour (R353). -/
def State.twinClass (s : State) (g c : Nat) : Bool :=
  match s.classProg g c with
  | some l => (match l.prog.seq with | some q => q.twin | none => false)
  | none => false

/-- The entry an open request makes (R360, R362, R366). -/
def State.newEntry (s : State) (q : OpenReq) (serial : Nat) (held : Bool) : LEntry :=
  { cls := q.cls, lane := q.lane, stream := q.stream, edgeUnc := q.edgeUnc, twin := s.twinClass q.gen q.cls, gen := q.gen
    serial := serial, lead := q.lead, deadline := s.deadlineFor q.gen q.cls q.lead (s.nominalLen q.gen q.cls)
    held := held, leadTime := q.leadTime, slot := q.slot, rid := q.rid, seg := q.seg }

/-- Open free entry `i` for a request (R360, R362, R366). A piece opened corrupt, or in the safe state, takes its code at open and SCH
does not hold it (R159, R305, R471). -/
def State.openEntry (s : State) (i : Nat) (q : OpenReq) : State :=
  let deny := s.safe || s.sec.fault
  let a := s.takeSerial
  let s1 := a.1.setEntry i (s.newEntry q a.2 (!(q.corrupt || deny)))
  let s2 : State := { s1 with
    chain := { s1.chain with done := s1.chain.done.filter (fun d => d.1 != i) }
    stage := { s1.stage with openAtCast := if q.leadTime < s1.stage.liveInstant then s1.stage.openAtCast ++ [i] else s1.stage.openAtCast } }
  if deny then (s2.setCode i 6 (if s.sec.fault then E_SEC_FAULT else E_SAFE_STATE)).planDefault i
  else if q.corrupt then (s2.setCode i 4 q.cause).planDefault i
  else
    let s3 := s2.schOpen q i a.2
    if s3.memberMissing q.gen q.cls then (s3.setCode i 6 E_NLX_DOWN).incSat R.LNK_SHARE_STAT 16 16 else s3

/-- A request finds no free entry (R363): the piece takes `UNDECIDED_FAULT`, its default action is planned from nominal anchors, and
its record is written, all at once. -/
def State.ledgerFull (s : State) (q : OpenReq) : State :=
  let a := s.takeSerial
  let e0 := s.newEntry q a.2 false
  let act := s.defaultAction q.gen q.cls
  let rev := s.classRev q.gen q.cls
  let chan := s.classChan q.gen q.cls
  let os := (s.actionTaps q.gen q.cls act).map (fun p => tapOrderOf chan rev p q.lead (s.nominalLen q.gen q.cls) 0 true a.2)
  let e : LEntry := { e0 with
    state := 4, verdict := 6, cause := E_LEDGER_FULL, action := act, dflt := true, nominal := true, vs := s.devS, vns := s.devNs,
    vcount := s.mirror chan, tap0N := match os.find? (fun o => o.tap == 0) with | some o => o.n | none => 0 }
  let s1 := (a.1.inc R.LIN_LEDGER_FULL).raiseLimJ E_LEDGER_FULL q.cls ms {}
  let s2 := ((s1.latchHalt 1).noteUndec).pieceRecord e true
  let s3 : State := { s2 with line := { s2.line with noent := s2.line.noent ++ os.map (fun o => (o, a.2, q.cls)) } }
  s3.sendTaps os

/-- Entries of the ledger (R360). -/
def ledgerSize : Nat := 131072

/-- LEDGER_OPEN_REQUEST (R360, R363): the oldest open request takes free entry `idx`, or is refused when none is free; R360 does not say
which free entry it takes. -/
def execLedgerOpenRequest (t : Nat) (idx : Fin 131072) (s : State) : Host.Outcome State Fault Refusal :=
  let s := s.at' t
  match (if s.running then s.intk.opens else []) with
  | [] => done s
  | q :: rest =>
    let s1 : State := { s with intk := { s.intk with opens := rest } }
    if s.shareRole q.gen q.cls = 2 then done (s1.openMember q)
    else if ledgerSize ≤ s.line.ledger.length then done (s1.ledgerFull q)
    else if (s.entry idx).isSome then done s
    else done (s1.openEntry idx q)

/-! ### Trailing edges -/

/-- Tokens of a piece of `rows` rows (R302). -/
def State.tokensOf (s : State) (g c rows : Nat) : Nat :=
  let ct := max 1 (s.cfgF g (R.CMD_SEQ_CLASS c) 13 8)
  (rows + ct - 1) / ct

/-- A piece a cast truncated counts in `STG_TRUNCATED` if it was open at the last cast (R105). -/
def State.settleCast (s : State) (i : Nat) (trunc : Bool) : State :=
  if s.stage.openAtCast.contains i then
    let s1 := if trunc then s.inc R.STG_TRUNCATED else s
    { s1 with stage := { s1.stage with openAtCast := s1.stage.openAtCast.filter (fun k => k != i) } }
  else s

/-- The trailing edge of entry `i` is known (R361, R366, R369): the deadline may move earlier, SCH learns the piece's tokens, the
captures are made, and an `UNDECIDED_` piece has its default action planned. -/
def State.trailEntry (s : State) (i : Nat) (e : LEntry) (trail rows : Nat) (trunc : Bool) : State :=
  let rev := s.classRev e.gen e.cls
  let dl := s.deadlineFor e.gen e.cls e.lead (dist rev e.lead trail)
  let e1 : LEntry := { e with trailKnown := true, trail := trail, rows := rows, castTrunc := trunc
                              state := if e.state = 1 then 2 else e.state
                              deadline := if 0 < dist rev dl e.deadline then dl else e.deadline }
  let s1 := (s.setEntry i e1).setPiece i (fun p => { p with total := some (s.tokensOf e.gen e.cls rows) })
  let s2 := ((s1.settleCast i trunc).capture i e1).packTrail i e.rid (s.tokensOf e.gen e.cls rows)
  (s2.planDefault i).tryFree i

/-- A trailing edge reaches line control: that of a piece with an entry, of a member's part, or of a piece the ledger had no room
for, which is ignored (R363). -/
def State.trailEdge (s : State) (rid trail rows : Nat) (trunc : Bool) : State :=
  match s.line.ledger.find? (fun e => e.2.rid == rid) with
  | some e => s.trailEntry e.1 e.2 trail rows trunc
  | none =>
    let i := memberBase + rid
    match s.piece i with
    | some p =>
      let n := s.tokensOf p.gen p.cls rows
      (s.setPiece i (fun q => { q with total := some n })).packTrail i rid n
    | none => s.packTrail i rid 0

/-- TRAILING_EDGE (R159, R366): the oldest trailing edge whose open request has been taken. -/
def execTrailingEdge (t : Nat) (s : State) : Host.Outcome State Fault Refusal :=
  let s := s.at' t
  match (if s.running then s.intk.trails else []) with
  | [] => done s
  | e :: rest =>
    if s.intk.opens.any (fun q => q.rid == e.1) then done s
    else done (({ s with intk := { s.intk with trails := rest } }).trailEdge e.1 e.2.1 e.2.2.1 e.2.2.2)

/-! ### Deadlines -/

/-- DEADLINE_REACHED (R367): the count mirror has reached the deadline of entry `idx`. -/
def execDeadlineReached (t : Nat) (idx : Fin 131072) (s : State) : Host.Outcome State Fault Refusal :=
  let s := s.at' t
  match (if s.running then s.entry idx else none) with
  | some e => if s.reached e e.deadline then done (s.deadlineAct idx e) else done s
  | none => done s

/-- DEADLINE_SWEEP_STALL (R470): no deadline sweep has completed for 2 ms; the safe state is entered with cause 7, which is absent once
sweeps have completed for 10 ms. -/
def execDeadlineSweepStall (t : Nat) (s : State) : Host.Outcome State Fault Refusal :=
  let s := s.at' t
  if s.running then done (({ s with line := { s.line with sweepOkSince := some s.now } }).safeEnter 7) else done s

/-- LEDGER_ENTRY_UNCORRECTABLE (R364): an entry is read as uncorrectable; the safe state is entered with cause 3. -/
def execLedgerEntryUncorrectable (t : Nat) (_idx : Fin 131072) (s : State) : Host.Outcome State Fault Refusal :=
  let s := s.at' t
  if s.running then done (s.safeEnter 3) else done s

/-! ### Reports of SCH -/

/-- A report on a member's part: its refusal, or its end where it was not marked, goes to the head (R436). -/
def State.memberReport (s : State) (r : Report) : State :=
  let p : Piece := { cls := r.what.1, gen := r.what.2.1, lead := r.what.2.2 }
  if r.kind = 1 then s.shareSettle p 1
  else if r.kind = 2 then
    (match s.piece r.entry with | some q => if q.voided then s else s.shareSettle p 0 | none => s)
  else s

/-- A report on the piece of an entry (R305, R361). -/
def State.entryReport (s : State) (r : Report) (e : LEntry) : State :=
  if r.kind = 0 then s.setEntry r.entry { e with admitted := true, admitStep := lo32 r.step }
  else if r.kind = 1 then (s.setCode r.entry 5 E_KV_REFUSED).releaseHold r.entry
  else if r.kind = 2 then s.setEntry r.entry { e with leave := lo32 r.step }
  else s.releaseHold r.entry

/-- PIECE_STATE_REPORT (R305): the oldest report of SCH. -/
def execPieceStateReport (t : Nat) (s : State) : Host.Outcome State Fault Refusal :=
  let s := s.at' t
  match (if s.running then s.sch.reports else []) with
  | [] => done s
  | r :: rest =>
    let s1 : State := { s with sch := { s.sch with reports := rest } }
    if memberBase ≤ r.entry then done (s1.memberReport r)
    else match s1.entry r.entry with
      | some e => if e.serial = r.serial then done (s1.entryReport r e) else done s1
      | none => done s1

/-! ### Answers and fire reports of Ronyr -/

/-- Set the state of tap `k` of entry `i`, with its fired or unfired bit (R376). -/
def State.setTap (s : State) (i k : Nat) (st : TapState) : State :=
  match s.entry i with
  | none => s
  | some e =>
    s.setEntry i { e with taps := setNth e.taps k st
                          fired := if st = .fired then e.fired ||| BitVec.ofNat 4 (2 ^ k) else e.fired
                          unfired := if st = .unfired then e.unfired ||| BitVec.ofNat 4 (2 ^ k) else e.unfired }

/-- The entry an order belongs to, while its tap waits for an answer or a report (R375, R400). -/
def State.orderEntry (s : State) (o : TapOrder) : Option LEntry :=
  match s.entry o.entry with
  | some e =>
    let st := nth e.taps o.tap .off
    if lo32 e.serial = o.serial ∧ (st = .sent ∨ st = .retry ∨ st = .queued) then some e else none
  | none => none

/-- A tap order came too late (R376): counted and raised, and tap_late latched (R378); a lost fire follows. -/
def State.tapLate (s : State) (cls : Nat) : State := ((s.inc R.LIN_TAP_LATE).raiseLimJ E_TAP_LATE cls ms {}).latchHalt 2

/-- An order found Ronyr's queue full (R376, Table 18.11). -/
def State.tapqFull (s : State) (o : TapOrder) : State := s.raiseLimJ E_TAPQ_FULL o.k (10 * ms) { w2 := some o.k }

/-- Ronyr's answer on the order of an entry: 0 queued, 1 full, 2 late, 3 safe (R376, R396). -/
def State.entryAnswer (s : State) (o : TapOrder) (e : LEntry) (ans : Nat) : State :=
  if ans = 0 then s.setTap o.entry o.tap .queued
  else if ans = 1 then ((s.setEntry o.entry { e with retried := true }).setTap o.entry o.tap .retry).tapqFull o
  else if ans = 2 then (((s.setTap o.entry o.tap .unfired).tapLate e.cls).lostFire).tryFree o.entry
  else (s.setTap o.entry o.tap .unfired).tryFree o.entry

/-- The waiting order of a piece without an entry: serial and tap (R375). -/
def State.noentOf (s : State) (o : TapOrder) : Option (TapOrder × Nat × Nat) :=
  s.line.noent.find? (fun e => e.1.serial == o.serial && e.1.tap == o.tap)

/-- The order of a piece without an entry is settled. -/
def State.noentDrop (s : State) (o : TapOrder) : State :=
  { s with line := { s.line with noent := s.line.noent.filter (fun e => !(e.1.serial == o.serial && e.1.tap == o.tap)) } }

/-- Ronyr's answer on the order of a piece without an entry (R363, R376). -/
def State.noentAnswer (s : State) (o : TapOrder) (cls ans : Nat) : State :=
  if ans = 0 then s
  else if ans = 1 then (({ s with line := { s.line with tx := s.line.tx ++ [Msg.tap o] } }).inc R.LIN_TAPQ_RETRY).tapqFull o
  else if ans = 2 then ((s.noentDrop o).tapLate cls).lostFire
  else s.noentDrop o

/-- TAP_ORDER_ANSWER (R376): the oldest answer of Ronyr to a tap order. -/
def execTapOrderAnswer (t : Nat) (s : State) : Host.Outcome State Fault Refusal :=
  let s := s.at' t
  let isAns (m : Msg) : Bool := match m with | .tapAnswer _ _ => true | _ => false
  match (if s.running then s.line.rx.find? isAns else none) with
  | some (.tapAnswer o a) =>
    let s1 : State := { s with line := { s.line with rx := s.line.rx.erase (.tapAnswer o a) } }
    if o.noent then done (match s1.noentOf o with | some e => s1.noentAnswer o e.2.2 a | none => s1)
    else done (match s1.orderEntry o with | some e => s1.entryAnswer o e a | none => s1)
  | _ => done s

/-- A fire report on the tap of an entry (R376, R400): fired, or unfired and escalated as a lost fire. -/
def State.entryFire (s : State) (o : TapOrder) (result : Nat) : State :=
  if result = 2 then ((s.setTap o.entry o.tap .unfired).lostFire).tryFree o.entry
  else (s.setTap o.entry o.tap .fired).tryFree o.entry

/-- A fire report on the tap of a piece without an entry (R363): an EVENT record with the serial, the tap and the result. -/
def State.noentFire (s : State) (o : TapOrder) (result : Nat) : State :=
  let s1 := (s.journalEvent 0 0 [o.serial, o.tap, result, 0]).noentDrop o
  if result = 2 then s1.lostFire else s1

/-- FIRE_REPORT_RECEIVED (R400): the oldest fire report of Ronyr. -/
def execFireReportReceived (t : Nat) (s : State) : Host.Outcome State Fault Refusal :=
  let s := s.at' t
  let isFire (m : Msg) : Bool := match m with | .fire _ _ _ _ _ => true | _ => false
  match (if s.running then s.line.rx.find? isFire else none) with
  | some (.fire o p at' r j) =>
    let s1 : State := { s with line := { s.line with rx := s.line.rx.erase (.fire o p at' r j) } }
    if o.noent then done (match s1.noentOf o with | some _ => s1.noentFire o r | none => s1)
    else done (match s1.orderEntry o with | some _ => s1.entryFire o r | none => s1)
  | _ => done s

/-! ### Journal -/

/-- JOURNAL_PAGE_WRITE (R383): 100 ms after the last page write the open page goes to the NAND. -/
def execJournalPageWrite (t : Nat) (s : State) : Host.Outcome State Fault Refusal :=
  let s := s.at' t
  if s.running ∧ s.jrn.pageAt + 100 * ms ≤ s.now then done s.pageWrite else done s

/-- JOURNAL_BLOCK_SEAL (R382): seal_s seconds after its first record the open block is sealed. -/
def execJournalBlockSeal (t : Nat) (s : State) : Host.Outcome State Fault Refusal :=
  let s := s.at' t
  if s.running ∧ s.jrn.openBlock.recs ≠ [] ∧ s.jrn.firstAt + s.fld R.LIN_JRN_CFG 8 6 * 1000 * ms ≤ s.now then
    done (s.pageWrite.sealBlock true false)
  else done s

/-- JOURNAL_BLOCK_SIGN (R382): SC signs the oldest unsigned block. -/
def execJournalBlockSign (t : Nat) (s : State) : Host.Outcome State Fault Refusal :=
  let s := s.at' t
  if s.running ∧ s.scUp = true then done s.signBlock else done s

/-- The journal block with number `n`: a sealed one, or the open one, whose trailer is zero (R385). -/
def State.blockNo (s : State) (n : Nat) : Option JBlock :=
  if n = s.jrn.openBlock.num then some s.jrn.openBlock else s.jrn.sealedBlocks.find? (fun b => b.num == n)

/-- A write of `v` to `LIN_JRN_RD_GO` (R385). -/
def State.journalGo (s : State) (v : Nat) : State :=
  if v % 2 = 0 then s
  else match (if s.attached then s.blockNo (s.rd64 R.LIN_JRN_RD_BLOCK) else none) with
    | some b => ({ s with jrn := { s.jrn with window := some b } } : State).setFld R.LIN_JRN_RD_STAT 0 2 2
    | none => s.setFld R.LIN_JRN_RD_STAT 0 2 3

/-- JOURNAL_READ (R385): `LIN_JRN_RD_GO` is written; the block named appears in the window, or the read is refused. -/
def execJournalRead (t : Nat) (v : W32) (s : State) : Host.Outcome State Fault Refusal :=
  let s := s.at' t
  if s.running then done (s.journalGo v.toNat) else done s

/-! ### Line halt -/

/-- HALT_REQUEST (R378): a write to `LIN_HALT_REQ`. -/
def execHaltRequest (t : Nat) (v : W32) (s : State) : Host.Outcome State Fault Refusal :=
  let s := s.at' t
  if s.running then done (s.wr R.LIN_HALT_REQ (v.toNat % 2)) else done s

/-- A write of `v` to `LIN_HALT_STAT`: each latched condition with a 1 clears (R379). -/
def State.haltClear (s : State) (v : Nat) : State :=
  (List.range 4).foldl (fun s i => if v.testBit i then s.setBit R.LIN_HALT_STAT i false else s) s

/-- HALT_CONDITION_CLEAR (R379): writing 1 to a bit of `LIN_HALT_STAT` clears that latched condition. -/
def execHaltConditionClear (t : Nat) (v : W32) (s : State) : Host.Outcome State Fault Refusal :=
  let s := s.at' t
  if s.running then done (s.haltClear v.toNat) else done s

/-- Condition `i` clears itself now (R379): it is latched, and its cause has been absent for 1 s. -/
def State.haltClears (s : State) (i : Nat) : Bool :=
  s.bit R.LIN_HALT_STAT i && decide (KMap.getD s.line.causeAt i 0 + 1000 * ms ≤ s.now)

/-- HALT_AUTO_CLEAR (R379): with auto = 1 the latched conditions whose cause has been absent for 1 s clear. -/
def execHaltAutoClear (t : Nat) (s : State) : Host.Outcome State Fault Refusal :=
  let s := s.at' t
  if s.running ∧ s.bit R.LIN_HALT_CFG 4 = true then
    done ((List.range 4).foldl (fun s i => if s.haltClears i then s.setBit R.LIN_HALT_STAT i false else s) s)
  else done s

end Sys2Proof.Machine
end

