-- ==== Sys2Proof/Machine/Power.lean ====
section
/-! DEFINITION. The commands of the module's supply, resets and clocks (R31–R42), of power states (R460–R463), thermal and
clock steps (R465, R466), telemetry (R467) and the safety monitor (R471–R473). -/

namespace Sys2Proof.Machine

/-- VIN is seen at `mv` (R34, R35): out of range it starts the 10 ms of R35 anew. -/
def State.noteVin (s : State) (mv : Nat) : State :=
  { s with mod := { s.mod with vinMv := mv, badAt := if vinGood mv then s.mod.badAt else s.now } }

/-- The rails come up in order and PWR_GOOD rises (Table 2.9); Cuette waits in reset to start with `cause`. -/
def State.railsRise (s : State) (mv cause : Nat) : State :=
  let s1 := s.visoUp'
  { s1 with mod := { s1.mod with vinMv := mv, railsUp := true, aonUp := true, held := true, warning := false }
            boot := { s1.boot with nextCause := cause }
            pwr := { s1.pwr with state := 0 } }

/-- POWER_UP (R31): VIN rises into range; the rails are sequenced and PWR_GOOD rises. After a latched warning the restart is
that of R35. -/
def execPowerUp (t : Nat) (vinMv : BitVec 16) (s : State) : Host.Outcome State Fault Refusal :=
  let s := s.at' t
  if vinGood vinMv.toNat && !s.mod.railsUp && !s.mod.warning && decide (s.pwr.state ≠ 2) then
    doneR (s.railsRise vinMv.toNat 0)
  else doneR (s.noteVin vinMv.toNat).condMonitor

/-- RAIL_OUT_OF_REGULATION (R37): PWR_GOOD drops and Cuette is held in reset until every rail is back; `viso`: the rail is
VISO, with which Ronyr loses its supply. -/
def execRailOutOfRegulation (t : Nat) (viso : Bool) (s : State) : Host.Outcome State Fault Refusal :=
  let s := s.at' t
  let s1 := if viso then s.visoLoss else s
  let s2 := s1.cuetteReset (if s1.mod.warning then 1 else 0)
  doneR { s2 with mod := { s2.mod with railsUp := false } }

/-- PWR_FAIL_WARNING (R32): the pin low, or VIN below 10.2 V, latches the warning and starts the power-fail sequence; one that
finds a warning latched adds its source, and starts the 10 ms of R35 anew. In S3 no monitor runs (Table 21.1). -/
def execPwrFailWarning (t : Nat) (pin : Bool) (vinMv : BitVec 16) (s : State) : Host.Outcome State Fault Refusal :=
  let s := s.at' t
  let src := if pin then 2 else 4
  let s0 := s.noteVin vinMv.toNat
  if (!pin && decide (10200 ≤ vinMv.toNat)) || decide (s.pwr.state = 3) then doneR s0.condMonitor
  else
    let s1 : State := { s0 with mod := { s0.mod with badAt := s0.now } }
    if s1.mod.warning then doneR (s1.setBit R.PWR_FAIL_LAST (if pin then 1 else 2) true)
    else
      let s2 := s1.failAndHold src 1
      doneR { s2 with mod := { s2.mod with warning := true } }

/-- What a power loss that interrupts the write of the boot count leaves (R55): the new value, or the previous one. -/
def State.countLoss (s : State) : State :=
  match s.boot.countOld with
  | some v => if Config.countLost s.free then s.wr R.GLB_BOOT_COUNT v else s
  | none => s

/-- VIN_BROWNOUT_RESET (R33): below 8.5 V all domains reset; VISO, Ronyr's count and device time are lost (R54, R417). With no
warning before it, nothing was flushed (Table 21.8). In S3 no domain is up. -/
def execVinBrownoutReset (t : Nat) (vinMv : BitVec 16) (s : State) : Host.Outcome State Fault Refusal :=
  let s := s.at' t
  let s1 := s.noteVin vinMv.toNat
  if 8500 ≤ vinMv.toNat ∨ s1.pwr.state = 3 then doneR s1.condMonitor
  else
    let s2 := (if s1.mod.warning then s1 else s1.noteFail 4).countLoss
    let s3 := s2.setFld R.PWR_FAIL_LAST 16 16 (min 65535 ((s2.now - s2.mod.warnAt) / ms))
    let s4 := ((s3.cuetteReset 1).visoLoss).timeLost
    doneR { s4 with mod := { s4.mod with warning := true, railsUp := false, aonUp := false }, pwr := { s4.pwr with state := 0, alert := false } }

/-- POWER_FAIL_RESTART (R35): 10 ms in range with PWR_FAIL# high, without a break, end the warning; the power-up sequence runs
again. -/
def execPowerFailRestart (t : Nat) (vinMv : BitVec 16) (s : State) : Host.Outcome State Fault Refusal :=
  let s := s.at' t
  if s.mod.warning && vinGood vinMv.toNat && decide (s.mod.badAt + 10 * ms ≤ s.now) then
    doneR (s.railsRise vinMv.toNat 1)
  else doneR (s.noteVin vinMv.toNat).condMonitor

/-- MOD_RESET_ASSERT (R38): stop and flush as for a power-fail warning, then Cuette is held while the pin is low. -/
def execModResetAssert (t : Nat) (s : State) : Host.Outcome State Fault Refusal :=
  let s := s.at' t
  let s1 : State := { s with mod := { s.mod with modResetLow := true } }
  if s1.pwr.state = 2 ∨ s1.pwr.state = 3 then doneR { s1 with mod := { s1.mod with warnAt := s1.now } }
  else doneR (s1.failAndHold 8 (if s1.mod.warning then 1 else 2))

/-- MOD_RESET_RELEASE (R38): the pin returns high; the straps are sampled and the ROM starts next. In S3, 1 ms low leaves the
state (Table 21.1). -/
def execModResetRelease (t : Nat) (s : State) : Host.Outcome State Fault Refusal :=
  let s := s.at' t
  let s1 : State := { s with mod := { s.mod with modResetLow := false } }
  if s.mod.modResetLow && decide (s1.pwr.state = 3) && !s1.mod.warning && decide (s1.mod.warnAt + ms ≤ s1.now) then
    doneR (s1.railsRise s1.mod.vinMv 2)
  else doneR s1

/-- The PCIe link leaves L0 (Table 6.5): `E_PCIE_DOWN`. -/
def State.pcieDown (s : State) : State :=
  if s.mod.pcieUp then
    (if s.running then { s with mod := { s.mod with pcieUp := false } }.raise E_PCIE_DOWN {}
     else { s with mod := { s.mod with pcieUp := false } })
  else s

/-- PERST (R27): resets the PCIe endpoint and nothing else. -/
def execPerst (t : Nat) (s : State) : Host.Outcome State Fault Refusal :=
  let s := s.at' t
  let s1 := s.pcieDown
  done { s1 with host := { s1.host with readLatch := [], lastCpl := .none, lastData := [] } }

/-- REFCLK_LOSS (R42): takes down only the PCIe link; a run of self-test does not judge without it (R41). -/
def execRefclkLoss (t : Nat) (s : State) : Host.Outcome State Fault Refusal :=
  let s := s.at' t
  done (({ s with mod := { s.mod with refclkOk := false } }).pcieDown).condMonitor

/-- PCIE_LINK_UP (R73): training completes at a width of 1, 2, 4 or 8 lanes and a rate, and the endpoint answers configuration requests; a
link needs REFCLK. -/
def execPcieLinkUp (m : LinkTrained) (s : State) : Host.Outcome State Fault Refusal :=
  let s := s.at' m.t
  if s.running && s.boot.started then
    done { s with mod := { s.mod with pcieUp := true, pcieWidth := m.width, pcieRate := m.rate, refclkOk := true } }
  else done s

/-- PCIE_LINK_DOWN (R132): the link leaves L0. -/
def execPcieLinkDown (t : Nat) (s : State) : Host.Outcome State Fault Refusal :=
  let s := s.at' t
  done s.pcieDown

/-- CLOCK_LOSS (R42, R466): SERREF lost; once boot has locked the PLLs (Table 3.1) every crucible stops and the safe state is
entered with cause 0. Before that R59 governs. -/
def execClockLoss (t : Nat) (s : State) : Host.Outcome State Fault Refusal :=
  let s := s.at' t
  let s1 : State := { s with mod := { s.mod with serrefOk := false } }
  if s.mod.serrefOk && s.running && decide (2 ≤ s.phase) && decide (s.phase ≠ 8) then
    done ((((s1.raiseJ E_CLOCK_LOSS {}).hardStop).safeEnter 0).condMonitor).clkUpdate
  else done s1

/-- SERREF_RELOCK (R466): after 10 ms in range the PLLs relock and crucibles restart at step 6, from which PMC raises them as
for the thermal source (log 19). -/
def execSerrefRelock (t : Nat) (s : State) : Host.Outcome State Fault Refusal :=
  let s := s.at' t
  if s.mod.serrefOk then done s
  else
    let s1 : State := { s with mod := { s.mod with serrefOk := true } }
    if !s1.running then done s1
    else
      let keep := s1.bit R.PWR_SAFE_STAT 5 || s1.bit R.PWR_SAFE_STAT 7
      let s2 : State := { s1 with pwr := { s1.pwr with thermAt := s1.now, crucibleStop := keep } }
      done (s2.setFld R.PWR_CLK 4 3 6).clkUpdate

/-! ### Thermal steps -/

/-- Show throttling in `PWR_THERM`. -/
def State.setThrottle (s : State) (b : Bool) : State :=
  ({ s with pwr := { s.pwr with throttling := b } }).setBit R.PWR_THERM 16 b

/-- The thermal source (R465): one step slower each 1 ms at 105 °C or more, one faster each 10 ms below 100 °C. -/
def State.thermStep (s : State) : State :=
  let st := s.fld R.PWR_CLK 4 3
  if 169 ≤ s.pwr.junction then
    let s1 := if s.pwr.throttling then s else (s.setThrottle true).raise E_THERMAL_THROTTLE {}
    if s1.pwr.thermAt + ms ≤ s1.now ∧ st < 6 then
      ({ s1 with pwr := { s1.pwr with thermAt := s1.now } }).setFld R.PWR_CLK 4 3 (st + 1)
    else s1
  else if s.pwr.junction < 164 then
    let s1 := if s.pwr.throttling then s.setThrottle false else s
    if s1.pwr.thermAt + 10 * ms ≤ s1.now ∧ 0 < st then
      ({ s1 with pwr := { s1.pwr with thermAt := s1.now } }).setFld R.PWR_CLK 4 3 (st - 1)
    else s1
  else s

/-- The input-power guard (R465): slower each 1 ms above 150 W, faster each 10 ms at 145 W or less. -/
def State.guardStep (s : State) : State :=
  let st := s.fld R.PWR_CLK 8 3
  if 1500 < s.pwr.power then
    (if s.pwr.guardAt + ms ≤ s.now ∧ st < 6 then
      ({ s with pwr := { s.pwr with guardAt := s.now } }).setFld R.PWR_CLK 8 3 (st + 1) else s)
  else if s.pwr.power ≤ 1450 then
    (if s.pwr.guardAt + 10 * ms ≤ s.now ∧ 0 < st then
      ({ s with pwr := { s.pwr with guardAt := s.now } }).setFld R.PWR_CLK 8 3 (st - 1) else s)
  else s

/-- THERMAL_THROTTLE_STEP (R465, R24): PMC steps the crucible clock and drives THERM_ALERT#. -/
def execThermalThrottleStep (t : Nat) (s : State) : Host.Outcome State Fault Refusal :=
  let s := s.at' t
  if s.running && s.pmcUp then done ((s.thermStep).guardStep).clkUpdate else done s

/-- THERMAL_SAFE (R24): at 115 °C the device enters its safe state with cause 1, unless it did so and the junction has not been
below 100 °C since; below 100 °C the cause is absent. -/
def execThermalSafe (t : Nat) (junction : BitVec 8) (s : State) : Host.Outcome State Fault Refusal :=
  let s := s.at' t
  let s1 : State := { s with pwr := { s.pwr with junction := junction.toNat } }
  if 179 ≤ junction.toNat then
    let s2 : State := { s1 with pwr := { s1.pwr with hot := true } }
    if s2.running ∧ (s.pwr.hot && s.bit R.PWR_SAFE_STAT 5) = false then done ((s2.raise E_THERMAL_SAFE {}).safeEnter 1) else done s2
  else if junction.toNat < 164 then done { s1 with pwr := { s1.pwr with hot := false } }
  else done s1

/-- TELEMETRY_SAMPLE (R467): PMC measures, and shows what it measured in the `PWR_` registers; in S2 the always-on domain
measures for MSMB. -/
def execTelemetrySample (t : Nat) (m : Telemetry) (s : State) : Host.Outcome State Fault Refusal :=
  let s := s.at' t
  if !((s.running && s.pmcUp) || decide (s.pwr.state = 2)) then done s
  else
    let j := m.junction.toNat
    let p := m.power.toNat
    let ps := s.pwr.powers.filter (fun e => decide (s.now < e.1 + 1000 * ms)) ++ [(s.now, p)]
    let s1 : State := { s with
      mod := { s.mod with vinMv := m.vinMv.toNat }
      pwr := { s.pwr with junction := j, board := m.board.toNat, rnyJunction := m.rnyJunction.toNat,
                          current := m.current.toNat, power := p, powers := ps, hot := s.pwr.hot && !decide (j < 164) } }
    let s2 := (s1.noteVin m.vinMv.toNat).setRfld R.RNY_SUPPLY 16 8 m.rnyJunction.toNat
    if s.pwr.state = 2 then done s2
    else
      done (((((s2.setFld R.PWR_THERM 0 8 j).setFld R.PWR_THERM 8 8 m.board.toNat).wr R.PWR_VIN
        (m.vinMv.toNat + m.current.toNat * 65536)).wr R.PWR_POWER (p + ps.foldl (fun a e => max a e.2) 0 * 65536)).condMonitor)

/-! ### Power states -/

/-- The conditions of S1 beside the request hold now, the counts unchanged for `still` ns (R461). -/
def State.s1Ready (s : State) (still : Nat) : Bool := decide (s.pwr.motionAt + still ≤ s.now) && s.s1Conds

/-- Every condition of S1 has held for `idle` ns, s1_en among them (R461). -/
def State.s1Idle (s : State) (idle : Nat) : Bool :=
  s.s1Ready idle && s.bit R.PWR_S1_CFG 0 && (match s.pwr.idleSince with | some a => decide (a + idle ≤ s.now) | none => false)

/-- A message of Ronyr reports motion. -/
def Msg.isMotion (m : Msg) : Bool := match m with | .motion _ => true | _ => false

/-- The device wakes from S1 (`PWR_STATE.waking`): what ends S1 is there, and S1 has not ended yet (R462). -/
def State.s1Waking (s : State) : Bool := decide (s.pwr.state = 1) && (s.line.rx.any Msg.isMotion || s.jobBusy)

/-- Ronyr's motion report starts from here (R404). -/
def State.motionReset (s : State) : State :=
  { s with ron := { s.ron with enc := s.ron.enc.map (fun e => { e with motionBase := e.p, motionSent := false }) } }

/-- S1 is in force: its clocks are gated with all state kept. -/
def State.enterS1 (s : State) : State :=
  let s1 := s.motionReset
  ({ s1 with pwr := { s1.pwr with state := 1, s1Req := false } }).setFld R.PWR_STATE 0 2 1

/-- S1 ends (R462). -/
def State.leaveS1 (s : State) : State :=
  ({ s with pwr := { s.pwr with state := 0, s1Req := false } }).setFld R.PWR_STATE 0 2 0

/-- A request that reaches PMC: S0 or wake, or S1 (R461, R462). -/
def State.askS0S1 (s : State) (v : Nat) : State :=
  if v = 0 then (if s.pwr.state = 1 then s.leaveS1 else { s with pwr := { s.pwr with s1Req := false } })
  else if s.pwr.state = 0 then
    (if s.s1Ready 1 then s.enterS1 else { s with pwr := { s.pwr with s1Req := true } })
  else s

/-- Why S2 or S3 is refused (R463): 0 not refused. -/
def State.sleepRefusal (s : State) : Nat :=
  if s.line.ledger ≠ [] then 1
  else if s.castPending then 2
  else if s.sch.ctxs.any (fun c => c.2.cls == 2) then 3
  else 0

/-- Enter S2 or S3 (R463): stop and flush, then the rails the state does not keep are removed. -/
def State.sleep (s : State) (st : Nat) : State :=
  let s1 := (s.motionReset).failAndHold 0 3
  let s2 : State := { s1 with
    mod := { s1.mod with railsUp := false, aonUp := decide (st = 2) }
    pwr := { s1.pwr with state := st, s2Motion := s.bit R.PWR_S1_CFG 16 } }
  if st = 3 then (s2.visoLoss).timeLost else s2

/-- A request for S2 or S3 that reaches PMC. -/
def State.askSleep (s : State) (st : Nat) : State :=
  let r := s.sleepRefusal
  let s1 := s.setFld R.PWR_STATE 4 2 r
  if r = 0 then s1.sleep st else s1

/-- A power-state request by the host; while PMC is absent it waits (R486). -/
def State.powerRequest (s : State) (v : Nat) : State :=
  let s1 := s.setFld R.PWR_STATE_REQ 0 2 v
  if !s1.pmcUp then { s1 with pwr := { s1.pwr with waitReq := some v } }
  else if v < 2 then s1.askS0S1 v else s1.askSleep v

/-- PWR_REQ_S0 (R462). -/
def execPwrReqS0 (t : Nat) (s : State) : Host.Outcome State Fault Refusal :=
  let s := s.at' t
  if s.running then doneR (s.powerRequest 0) else doneR s

/-- PWR_REQ_S1 (R461): waits until the conditions hold, not for idle_s. -/
def execPwrReqS1 (t : Nat) (s : State) : Host.Outcome State Fault Refusal :=
  let s := s.at' t
  if s.running then doneR (s.powerRequest 1) else doneR s

/-- PWR_REQ_S2 (R463). -/
def execPwrReqS2 (t : Nat) (s : State) : Host.Outcome State Fault Refusal :=
  let s := s.at' t
  if s.running then doneR (s.powerRequest 2) else doneR s

/-- PWR_REQ_S3 (R463). -/
def execPwrReqS3 (t : Nat) (s : State) : Host.Outcome State Fault Refusal :=
  let s := s.at' t
  if s.running then doneR (s.powerRequest 3) else doneR s

/-- S1_IDLE_ENTRY (R461): with s1_en, once the counts have stood still and every other condition has held for idle_s; or for a
waiting request, at once when they hold. -/
def execS1IdleEntry (t : Nat) (s : State) : Host.Outcome State Fault Refusal :=
  let s := s.at' t
  let idle := s.fld R.PWR_S1_CFG 4 12 * 1000 * ms
  if s.running && s.pmcUp && decide (s.pwr.state = 0) &&
      ((s.pwr.s1Req && s.s1Ready 1) || s.s1Idle idle) then doneR s.enterS1
  else doneR s

/-- S1_WAKE (R462): Ronyr's motion report has arrived, or a JOB task is ready. -/
def execS1Wake (t : Nat) (s : State) : Host.Outcome State Fault Refusal :=
  let s := s.at' t
  if s.running && s.s1Waking then
    doneR (({ s with line := { s.line with rx := s.line.rx.filter (fun m => !m.isMotion) } }).leaveS1)
  else doneR s

/-- S2_WAKE (R463): motion, where `s2_wake_motion` was 1, an MSMB wake or MOD_RESET# ends S2; HOST_WAKE# is low for 10 ms and
the full boot follows. With a warning latched only the restart of R35 does (R33). -/
def execS2Wake (t : Nat) (s : State) : Host.Outcome State Fault Refusal :=
  let s := s.at' t
  if decide (s.pwr.state = 2) && !s.mod.warning && ((s.ron.tx.any Msg.isMotion && s.pwr.s2Motion) || s.pwr.wakeReq || s.mod.modResetLow) then
    let s1 := s.railsRise s.mod.vinMv 3
    doneR { s1 with mod := { s1.mod with hostWakeUntil := s1.now + 10 * ms }
                    ron := { s1.ron with tx := s1.ron.tx.filter (fun m => !m.isMotion) }
                    pwr := { s1.pwr with wakeReq := false } }
  else doneR s

/-! ### MSMB -/

/-- One byte into the packet error code: CRC-8 with the polynomial x^8 + x^2 + x + 1 (PRESUMED, SMBus; log 119). -/
def pecByte (c b : Nat) : Nat :=
  (List.range 8).foldl (fun a _ => if a.testBit 7 then Nat.xor (2 * a % 256) 7 else 2 * a % 256) (Nat.xor c b)

/-- The packet error code of a message (R467). -/
def pecOf (bs : List Nat) : Nat := bs.foldl pecByte 0

/-- Address bytes of a write to and a read of the MSMB target, 7-bit address 0x4C (R467). -/
def msmbAddr : Nat × Nat := (0x98, 0x99)

/-- A read of MSMB command `cmd` (R467): in S2 only the commands marked S2 are answered, while PMC is absent only 0x01 (R486);
every other read returns 0xFFFF. The PEC is supplied always. Without the always-on rails nothing answers. -/
def State.msmbRead (s : State) (cmd : Nat) (inS2 status : Bool) (v : Nat) : State :=
  let ok := if s.pwr.state = 2 then inS2 else status || (s.running && s.pmcUp)
  let w := if ok then v % 65536 else 0xFFFF
  { s with pwr := { s.pwr with msmb := if s.mod.aonUp then some w else none
                               pec := pecOf [msmbAddr.1, cmd, msmbAddr.2, w % 256, w / 256] } }

/-- The status word (Table 21.2). -/
def State.msmbWord (s : State) : Nat :=
  b2n (decide (s.pwr.state = 0)) + 2 * b2n (decide (s.pwr.state = 1)) + 4 * b2n s.pwr.throttling + 8 * b2n s.safe
  + 16 * b2n s.mod.warning + 32 * b2n s.ron.supplyLow

/-- MSMB_STATUS (R467): the read releases MSMB_ALERT# once no cause remains. -/
def execMsmbStatus (t : Nat) (s : State) : Host.Outcome State Fault Refusal :=
  let s := s.at' t
  let s1 := s.msmbRead 0x01 true true s.msmbWord
  done { s1 with pwr := { s1.pwr with alert := s1.alertCause } }

/-- MSMB_VIN (R467). -/
def execMsmbVin (t : Nat) (s : State) : Host.Outcome State Fault Refusal :=
  let s := s.at' t
  done (s.msmbRead 0x10 true false s.mod.vinMv)

/-- MSMB_INPUT_CURRENT (R467). -/
def execMsmbInputCurrent (t : Nat) (s : State) : Host.Outcome State Fault Refusal :=
  let s := s.at' t
  done (s.msmbRead 0x11 true false s.pwr.current)

/-- MSMB_INPUT_POWER (R467). -/
def execMsmbInputPower (t : Nat) (s : State) : Host.Outcome State Fault Refusal :=
  let s := s.at' t
  done (s.msmbRead 0x12 true false s.pwr.power)

/-- MSMB_JUNCTION (R467). -/
def execMsmbJunction (t : Nat) (s : State) : Host.Outcome State Fault Refusal :=
  let s := s.at' t
  done (s.msmbRead 0x20 false false s.pwr.junction)

/-- MSMB_BOARD_TEMP (R467). -/
def execMsmbBoardTemp (t : Nat) (s : State) : Host.Outcome State Fault Refusal :=
  let s := s.at' t
  done (s.msmbRead 0x21 true false s.pwr.board)

/-- MSMB_RONYR_JUNCTION (R467). -/
def execMsmbRonyrJunction (t : Nat) (s : State) : Host.Outcome State Fault Refusal :=
  let s := s.at' t
  done (s.msmbRead 0x22 true false s.pwr.rnyJunction)

/-- MSMB_LPLUS (R467). -/
def execMsmbLplus (t : Nat) (s : State) : Host.Outcome State Fault Refusal :=
  let s := s.at' t
  done (s.msmbRead 0x30 true false (s.ron.lplusMv / 10))

/-- MSMB_CRUCIBLE_STEP (R467). -/
def execMsmbCrucibleStep (t : Nat) (s : State) : Host.Outcome State Fault Refusal :=
  let s := s.at' t
  done (s.msmbRead 0x40 false false (s.fld R.PWR_CLK 0 3))

/-- MSMB_SAFE_CAUSES (R467): the layout of `PWR_SAFE_STAT` [12:4]. -/
def execMsmbSafeCauses (t : Nat) (s : State) : Host.Outcome State Fault Refusal :=
  let s := s.at' t
  done (s.msmbRead 0x50 false false (s.fld R.PWR_SAFE_STAT 4 9))

/-- MSMB_WAKE (R467): word 0x0001 asks for the wake from S2; a PEC the host appends is checked. -/
def execMsmbWake (t : Nat) (m : MsmbWrite) (s : State) : Host.Outcome State Fault Refusal :=
  let s := s.at' t
  let good := match m.pec with
    | some c => decide (c.toNat = pecOf [msmbAddr.1, 0x60, m.word.toNat % 256, m.word.toNat / 256])
    | none => true
  if s.pwr.state = 2 ∧ m.word = 1 ∧ good = true then done { s with pwr := { s.pwr with wakeReq := true } } else done s

/-! ### Safety monitor -/

/-- SAFE_ACK (R473): a write of ack. -/
def execSafeAck (t : Nat) (s : State) : Host.Outcome State Fault Refusal :=
  let s := s.at' t
  if s.running then done s.safeAck else done s

/-- SAFE_FORCE (R471): cause 8. -/
def execSafeForce (t : Nat) (s : State) : Host.Outcome State Fault Refusal :=
  let s := s.at' t
  if s.running then done (s.safeEnter 8) else done s

/-- SAFE_AUTO_ACK (R473): auto_s seconds with every cause absent. -/
def execSafeAutoAck (t : Nat) (s : State) : Host.Outcome State Fault Refusal :=
  let s := s.at' t
  let a := s.fld R.PWR_SAFE_CFG 8 16
  match s.pwr.absentSince with
  | some t0 => if s.running && decide (a ≠ 0) && decide (t0 + a * 1000 * ms ≤ s.now) then done s.safeAck else done s
  | none => done s

end Sys2Proof.Machine
end

