-- ==== Sys2Proof/Machine/Ronyr.lean ====
section
/-! DEFINITION. The commands that act on Ronyr alone (chapter Ronyr): its clock and watchdog, encoders, inputs, outputs,
the tap queue and the emulated outputs. -/

namespace Sys2Proof.Machine

/-- RONYR_HEARTBEAT_LOSS (R392): 1,000 µs without a valid heartbeat frame enter the field safe state with cause 0. -/
def execRonyrHeartbeatLoss (t : Nat) (s : State) : Host.Outcome State Fault Refusal :=
  let s := s.at' t
  if s.mod.visoUp && decide (s.ron.beatAt + ms ≤ s.now) then
    doneR (({ s with ron := { s.ron with beatSince := none } }).fieldSafeEnter 0)
  else doneR s

/-- RONYR_CLOCK_FAULT (R389): a stop or a 2 % error enters the field safe state with cause 1; `inRange` tells that the
monitor finds the clock within range again, which makes the cause absent (R395). -/
def execRonyrClockFault (t : Nat) (inRange : Bool) (s : State) : Host.Outcome State Fault Refusal :=
  let s := s.at' t
  if !s.mod.visoUp then doneR s
  else if inRange then doneR (({ s with ron := { s.ron with clockOk := true } }).causeAbsent 1)
  else doneR (({ s with ron := { s.ron with clockOk := false } }).fieldSafeEnter 1)

/-- RONYR_WATCHDOG_EXPIRE (R389): 100 µs without service enter the field safe state with cause 2 and open the cut-off
switch; `served` tells that the watchdog is served again (R395). -/
def execRonyrWatchdogExpire (t : Nat) (served : Bool) (s : State) : Host.Outcome State Fault Refusal :=
  let s := s.at' t
  if !s.mod.visoUp then doneR s
  else if served then doneR (({ s with ron := { s.ron with wdogServed := true } }).causeAbsent 2)
  else doneR (({ s with ron := { s.ron with wdogServed := false } }).fieldSafeEnter 2)

/-- VISO_RETURN (R390): every staged field takes its factory value, channels and outputs are off, counting starts anew,
the epoch restarts at 0 and latches that only VISO loss clears are clear; Ronyr is in its field safe state. -/
def execVisoReturn (t : Nat) (s : State) : Host.Outcome State Fault Refusal :=
  let s := s.at' t
  if s.mod.visoUp then doneR s
  else doneR s.visoUp'

/-- RESUME_MESSAGE (R395): Ronyr receives RESUME; with no cause present it leaves once the heartbeat has been valid for
10 ms, else it holds the message; with a cause present the message is discarded. -/
def execResumeMessage (t : Nat) (s : State) : Host.Outcome State Fault Refusal :=
  let s := s.at' t
  if s.ron.rx.contains .resume then
    let s1 := { s with ron := { s.ron with rx := s.ron.rx.erase .resume } }
    if !s1.ron.safe || decide (s1.ownCauses ≠ 0) then doneR s1
    else if s1.beatSteady then doneR s1.fieldSafeLeave
    else doneR { s1 with ron := { s1.ron with resumeHeld := true } }
  else doneR s

/-- RESUME_HELD_TIMEOUT (R395): a held RESUME takes effect once the heartbeat has been valid for 10 ms. -/
def execResumeHeldTimeout (t : Nat) (s : State) : Host.Outcome State Fault Refusal :=
  let s := s.at' t
  if s.ron.resumeHeld && s.beatSteady && decide (s.ownCauses = 0) then doneR s.fieldSafeLeave else doneR s

/-- SAFE_MESSAGE (R394): Ronyr receives SAFE and enters its field safe state with cause 6; its next frame acknowledges. -/
def execSafeMessage (t : Nat) (s : State) : Host.Outcome State Fault Refusal :=
  let s := s.at' t
  if s.ron.rx.contains .safe then
    doneR (({ s with ron := { s.ron with rx := s.ron.rx.erase .safe, ackSafe := true } }).fieldSafeEnter 6)
  else doneR s

/-- The first tap order waiting at Ronyr, and the messages without it. -/
def takeTap : List Msg → Option (TapOrder × List Msg)
  | [] => none
  | .tap o :: ms => some (o, ms)
  | m :: ms => match takeTap ms with
    | some (o, r) => some (o, m :: r)
    | none => none

/-- Most fires the tap queue holds (R396). -/
def tapQueueMax : Nat := 4096

/-- Ronyr's answer to a tap order: 0 queued, 1 full, 2 late, 3 safe (R396; a late order is answered late even when the
queue is full, log 13). -/
def State.tapAnswer (s : State) (o : TapOrder) : Nat :=
  if s.ron.safe then 3
  else if atOrBeyond o (s.enc o.chan).p then 2
  else if tapQueueMax ≤ s.ron.fires.length then 1
  else 0

/-- TAP_ORDER_RECEIVE (R396): Ronyr answers the oldest tap order it has received and queues it when it can. -/
def execTapOrderReceive (t : Nat) (s : State) : Host.Outcome State Fault Refusal :=
  let s := s.at' t
  match takeTap s.ron.rx with
  | none => doneR s
  | some (o, rest) =>
    let a := s.tapAnswer o
    let s1 := { s with ron := { s.ron with
      rx := rest, fires := if a = 0 then s.ron.fires ++ [({ order := o } : Fire)] else s.ron.fires } }
    let s2 := if a = 1 then s1.setRfld R.RNY_TAPQ 16 16 (satInc (s1.rfld R.RNY_TAPQ 16 16) 16) else s1
    doneR (s2.rnySend (.tapAnswer o a))

/-- Change the first fire that `p` picks. -/
def changeFirst (p : Fire → Bool) (f : Fire → Fire) : List Fire → List Fire
  | [] => []
  | x :: xs => if p x then f x :: xs else x :: changeFirst p f xs

/-- A fire of output `k` cannot energise it: the output is latched off or the field supply is low (R400). -/
def State.fireBlocked (s : State) (k : Nat) : Bool := (s.drv k).off || s.ron.supplyLow || s.ron.safe

/-- How a due fire turns on (R397). -/
def State.turnOn (s : State) (f : Fire) : Fire :=
  let p := (s.enc f.order.chan).p
  let f1 := { f with phase := 2, onP := p, onAt := s.now, blocked := s.fireBlocked f.order.k,
                     offAt := if f.order.wmode = 1 then some (s.now + f.order.w * 1000)
                              else if f.jumped then some (s.now + 10000) else none }
  if f.order.wmode = 0 ∧ f.jumped = false ∧ inWindow f.order p = false then { f1 with phase := 3 } else f1

/-- FIRE_TRIGGER (R397): the oldest fire whose count has been reached turns its output on. -/
def execFireTrigger (t : Nat) (s : State) : Host.Outcome State Fault Refusal :=
  let s := s.at' t
  doneR { s with ron := { s.ron with fires := changeFirst (fun f => f.phase == 1) s.turnOn s.ron.fires } }

/-- Delay before verification sampling begins, ns (Table 18.6). -/
def verifyDelay (k : Nat) : Nat := if k < 8 then 5000 else 50000

/-- The on time of fire `f` has ended: it left its window, or its timer ran out (R397). -/
def State.fireEnded (s : State) (f : Fire) : Bool :=
  decide (f.phase = 3) || (decide (f.phase = 2) && (match f.offAt with | some t => decide (t ≤ s.now) | none => false))

/-- Result of an ended fire: 0 fired, 1 fired unverified, 2 unfired (R400, R413). -/
def State.fireResult (s : State) (f : Fire) (seen openWire : Bool) : Nat :=
  let onTime := s.now - f.onAt
  if f.blocked then 2
  else if openWire && decide (verifyDelay f.order.k + 100000 ≤ onTime) then 2
  else if onTime < verifyDelay f.order.k then 1
  else if seen || f.seen then 0 else 2

/-- FIRE_END (R400): the first fire whose on time has ended leaves the queue, its output turns off and its report is sent.
`seen`: verification sampling saw the output energised; `openWire`: it carried less than 5 mA throughout (R413). -/
def execFireEnd (t : Nat) (seen openWire : Bool) (s : State) : Host.Outcome State Fault Refusal :=
  let s := s.at' t
  match s.ron.fires.find? s.fireEnded with
  | none => doneR s
  | some f =>
    let r := s.fireResult f seen openWire
    let s1 := { s with ron := { s.ron with fires := s.ron.fires.erase f } }
    let wire := openWire && !f.blocked && decide (verifyDelay f.order.k + 100000 ≤ s.now - f.onAt)
    let s2 := if wire then
        (s1.setRfld (R.RNY_OUT_DIAG f.order.k) 3 1 1).rnyEvent E_OUT_OPEN f.order.k (some f.order.k) none
      else s1
    doneR (s2.fireReport f f.onP r)

/-- The signed step of an accepted encoder step, dir = 1 exchanging forward and reverse (R401). -/
def State.stepSign (s : State) (ch : Nat) (fwd : Bool) : Int :=
  if fwd = s.rbit (R.RNY_ENC_CFG ch) 6 then -1 else 1

/-- Two steps arrived less than 50 ns apart (Table 18.5 reason 1). -/
def State.tooFast (s : State) (ch : Nat) : Bool :=
  match (s.enc ch).lastAt with
  | some a => decide (s.now < a + 50)
  | none => false

/-- A counted step of channel `ch` (R401, R404). -/
def State.countStep (s : State) (ch : Nat) (fwd : Bool) : State :=
  let d := s.stepSign ch fwd
  ((s.noteStep ch d).goodStep ch).countBy ch d

/-- ENCODER_STEP (R401): an accepted step updates r and p, fires, emulated edges, speed and motion; a failed one is not
counted (R405). -/
def execEncoderStep (t : Nat) (ch : Fin 2) (k : StepKind) (s : State) : Host.Outcome State Fault Refusal :=
  let s := s.at' t
  let mode := s.encMode ch
  if !s.mod.visoUp || decide (mode = 0) || decide (4 ≤ mode) then doneR s
  else
    let failed (r : Nat) := (s.setEnc ch { s.enc ch with lastAt := some s.now }).plausFail ch r
    match k with
    | .both => if mode = 3 then doneR s else doneR (failed 1)
    | .skip => if mode = 3 then doneR (failed 3) else doneR s
    | .forward => if mode ≠ 3 ∧ s.tooFast ch then doneR (failed 1) else doneR (s.countStep ch true)
    | .reverse => if mode ≠ 3 ∧ s.tooFast ch then doneR (failed 1) else doneR (s.countStep ch false)

/-- Gray code to binary (R401, Table 18.4). -/
def grayDecode : Nat → Nat → Nat
  | 0, _ => 0
  | n + 1, g => let r := grayDecode n (g / 2); 2 * r + (g % 2 + r % 2) % 2

/-- Signed difference of two serial reads, modulo 2^bits (R401). -/
def readDiff (bits a b : Nat) : Int := sextI (a + 2 ^ bits - b % 2 ^ bits) bits

/-- A read of a serial channel fails: the second failure in a row is a plausibility failure (Table 18.5 reason 5). -/
def State.readFailed (s : State) (ch : Nat) : State :=
  let e := s.enc ch
  let s1 := s.setEnc ch { e with badReads := e.badReads + 1, goodSteps := e.goodSteps.map (fun _ => 0) }
  if 2 ≤ e.badReads + 1 then s1.plausFail ch 5 else s1

/-- A valid read `v` of a serial channel: the first sets r and p, later ones add their difference (R401). -/
def State.readValid (s : State) (ch v : Nat) : State :=
  let e := s.enc ch
  let bits := s.rfld (R.RNY_ENC_SER ch) 0 6
  match e.lastRead with
  | none => ((s.setEnc ch { e with lastRead := some v, badReads := 0, r := v }).moveP ch v).goodStep ch
  | some b =>
    let d0 := readDiff bits v b
    let s1 := s.setEnc ch { e with lastRead := some v, badReads := 0 }
    if s.rfld (R.RNY_ENC_MAXSTEP ch) 0 24 < d0.natAbs then s1.plausFail ch 5
    else
      let d := if s.rbit (R.RNY_ENC_CFG ch) 6 then -d0 else d0
      ((s1.noteStep ch d).goodStep ch).countBy ch d

/-- ENCODER_SERIAL_READ (R401): an SSI or BiSS-C read updates r and p, or fails plausibility (R405). -/
def execEncoderSerialRead (t : Nat) (ch : Fin 2) (ok : Bool) (value : BitVec 40) (s : State) :
    Host.Outcome State Fault Refusal :=
  let s := s.at' t
  let mode := s.encMode ch
  let bits := s.rfld (R.RNY_ENC_SER ch) 0 6
  if !s.mod.visoUp || decide (mode ≠ 4 ∧ mode ≠ 5) then doneR s
  else if !ok then doneR (s.readFailed ch)
  else
    let raw := value.toNat % 2 ^ bits
    let v := if mode = 4 ∧ s.rbit (R.RNY_ENC_SER ch) 6 then grayDecode bits raw else raw
    doneR (s.readValid ch v)

/-- The index check between consecutive latches in one direction (Table 18.5 reason 4). -/
def State.indexCheck (s : State) (ch : Nat) (rising : Bool) : State :=
  let ppr := s.rfld (R.RNY_ENC_CHK ch) 0 16
  let tol := s.rfld (R.RNY_ENC_CHK ch) 16 8
  let e := s.enc ch
  match e.lastIdx with
  | some (p0, dir) =>
    let moved := (diff48 e.p p0).natAbs
    if ppr ≠ 0 ∧ dir = rising ∧ (ppr + tol < moved ∨ moved + tol < ppr) then s.plausFail ch 4 else s
  | none => s

/-- Direction of the last accepted step: true forward. -/
def Enc.rising (e : Enc) : Bool :=
  match e.steps.head? with
  | some (_, d) => decide (0 < d)
  | none => true

/-- INDEX_EDGE (R403): an accepted rising edge of Z latches p and its time; with qual = 1 only if A = B = 1. -/
def execIndexEdge (t : Nat) (ch : Fin 2) (a b : Bool) (s : State) : Host.Outcome State Fault Refusal :=
  let s := s.at' t
  let mode := s.encMode ch
  let e := s.enc ch
  if !s.mod.visoUp || decide (mode ≠ 1 ∧ mode ≠ 2) || (s.rbit (R.RNY_ENC_CFG ch) 8 && !(a && b)) then doneR s
  else
    let s1 := s.indexCheck ch e.rising
    let s2 := ((s1.setRreg (R.RNY_ENC_IDX ch) (lo32 e.p)).setRreg (R.RNY_ENC_IDX ch + 1) (hi32 e.p)).setRreg
      (R.RNY_ENC_IDX_T ch) (lo32 s1.now)
    let s3 := s2.setRfld (R.RNY_ENC_FLAGS ch) 0 1 1
    doneR (s3.setEnc ch { s3.enc ch with lastIdx := some (e.p, e.rising), sinceIdx := 0, idxMissed := false })

/-- ENCODER_SPEED_TIMEOUT (R404): no step for 100 ms sets the speed to 0. -/
def execEncoderSpeedTimeout (t : Nat) (ch : Fin 2) (s : State) : Host.Outcome State Fault Refusal :=
  let s := s.at' t
  let due := match (s.enc ch).lastAt with
    | some a => decide (a + 100 * ms ≤ s.now)
    | none => true
  if due && s.mod.visoUp then doneR ((s.setRreg (R.RNY_ENC_SPEED ch) 0).setEnc ch { s.enc ch with steps := [] })
  else doneR s

/-- ENCODER_SIGNAL_INVALID (R405): in mode 1 a level below 200 mV, in mode 3 a state of 000 or 111, held for 1 µs. -/
def execEncoderSignalInvalid (t : Nat) (ch : Fin 2) (s : State) : Host.Outcome State Fault Refusal :=
  let s := s.at' t
  if !s.mod.visoUp then doneR s
  else if s.encMode ch = 1 then doneR (s.plausFail ch 2)
  else if s.encMode ch = 3 then doneR (s.plausFail ch 3)
  else doneR s

/-- Filtered state of input `i` as reported: forced to 0 by wire break or when taken, else inverted with inv = 1 (R408,
R409). -/
def State.inputState (s : State) (i : Nat) : Bool :=
  let x := nth s.ron.inp i {}
  !s.taken i && !x.wireBreak && (x.state != s.rbit (R.RNY_IN_CFG i) 2)

/-- One step of the integrating counter with threshold `thr` (R408). -/
def Inp.filter (x : Inp) (raw : Bool) (thr : Nat) : Inp :=
  let acc := if raw then min thr (x.acc + 1) else x.acc - 1
  { x with acc := acc, state := if acc = thr then true else if acc = 0 then false else x.state }

/-- Wire-break detection at one sample; `cur` in 10 µA, 35 being 0.35 mA (R409). -/
def Inp.wire (x : Inp) (cur : Nat) : Inp :=
  let low := decide (cur < 35)
  let lowFor := if low then x.lowFor + 1 else 0
  let okFor := if low then 0 else x.okFor + 1
  { x with lowFor := lowFor, okFor := okFor,
           wireBreak := if 10000 ≤ lowFor then true else if 10000 ≤ okFor then false else x.wireBreak }

/-- Sample input `i` (R408, R409): its filter and, with wb_en = 1, its current. -/
def State.sampleInput (s : State) (i : Nat) (pin : PinSample) : State :=
  let x := nth s.ron.inp i {}
  let taken := s.taken i
  let x1 := if taken then { x with acc := 0, state := false } else x.filter pin.raw (s.rfld (R.RNY_IN_CFG i) 16 16)
  let x2 := if s.rbit (R.RNY_IN_CFG i) 1 then x1.wire pin.current.toNat
            else { x1 with wireBreak := false, lowFor := 0, okFor := 0 }
  let s1 := { s with ron := { s.ron with inp := setNth s.ron.inp i x2 } }
  let s2 := s1.setRreg (R.RNY_IN_STAT i)
    (b2n (s1.inputState i) + 2 * b2n (pin.raw && !taken) + 4 * b2n x2.wireBreak + 8 * b2n taken + pin.current.toNat * 65536)
  let s3 := if x2.wireBreak && !x.wireBreak then s2.rnyEvent E_IN_WIREBREAK i (some i) none else s2
  if s1.inputState i && !s.inputState i then
    [0, 1].foldl (fun s ch =>
      if s.encOn ch && s.rbit (R.RNY_ENC_CFG ch) 20 && decide (s.rfld (R.RNY_ENC_CFG ch) 16 4 = i) then
        let p := (s.enc ch).p
        (((s.setRreg (R.RNY_ENC_INL ch) (lo32 p)).setRreg (R.RNY_ENC_INL ch + 1) (hi32 p)).setRreg
          (R.RNY_ENC_INL_T ch) (lo32 s.now)).setRfld (R.RNY_ENC_FLAGS ch) 1 1 1
      else s) s3
  else s3

/-- INPUT_SAMPLE (R408): every 1 µs each input is sampled and filtered; `pins` gives inputs 0, 1, … in order. -/
def execInputSample (t : Nat) (pins : List PinSample) (s : State) : Host.Outcome State Fault Refusal :=
  let s := s.at' t
  if s.mod.visoUp then
    doneR ((List.range 16).foldl (fun s i => match pins[i]? with | some p => s.sampleInput i p | none => s) s)
  else doneR s

/-! ### Outputs -/

/-- Mark the running and due fires of outputs picked by `p` as blocked: they are reported unfired (R400, R410, R411). -/
def State.blockFires (s : State) (p : Nat → Bool) : State :=
  { s with ron := { s.ron with fires := s.ron.fires.map (fun (f : Fire) =>
      if 1 ≤ f.phase ∧ p f.order.k then { f with blocked := true } else f) } }

/-- Switch output `k` off and latch it: overload (bit 0) or over-temperature (bit 1) (R410). The fourth switch-off within
10 s stays latched, and every one with auto_rs = 0. -/
def State.switchOff (s : State) (k bit w3 : Nat) (hot : Bool) : State :=
  let d := s.drv k
  let offs := d.offs.filter (fun x => decide (s.now < x + 10000 * ms)) ++ [s.now]
  let s1 := s.setDrv k { d with off := true, offAt := s.now, offs := offs, hot := d.hot || hot,
                                stay := d.stay || decide (4 ≤ offs.length) || !s.rbit (R.RNY_OUT_CFG k) 1 }
  ((s1.setRfld (R.RNY_OUT_DIAG k) bit 1 1).blockFires (fun j => j == k)).rnyEvent E_OUT_OVERLOAD k (some k) (some w3)

/-- OUTPUT_OVERLOAD (R410): an output in current limit for 2 ms switches off and latches ovl. -/
def execOutputOverload (t : Nat) (k : Fin 16) (s : State) : Host.Outcome State Fault Refusal :=
  let s := s.at' t
  if s.driven k then doneR (s.switchOff k 0 1 false) else doneR s

/-- OUTPUT_THERMAL (R410): a driver junction at 150 °C switches the output off and latches thermal. -/
def execOutputThermal (t : Nat) (k : Fin 16) (s : State) : Host.Outcome State Fault Refusal :=
  let s := s.at' t
  if s.mod.visoUp && !(s.drv k).off then doneR (s.switchOff k 1 2 true) else doneR s

/-- Clear the overload and thermal latch of output `k` by restart (R410). -/
def State.restartOutput (s : State) (k : Nat) : State :=
  let d := s.drv k
  let s1 := s.setDrv k { d with off := false, restarts := d.restarts.filter (fun x => decide (s.now < x + 10000 * ms)) ++ [s.now] }
  s1.setRfld (R.RNY_OUT_DIAG k) 0 2 0

/-- The latch of output `k` may clear by itself now: auto_rs = 1, 100 ms have passed, and it is not one that stays (R410). -/
def State.mayRestart (s : State) (k : Nat) : Bool :=
  let d := s.drv k
  d.off && s.rbit (R.RNY_OUT_CFG k) 1 && !d.stay && !d.hot && decide (d.offAt + 100 * ms ≤ s.now)

/-- OUTPUT_AUTO_RESTART (R410): with auto_rs, 100 ms after the switch-off the latch clears. -/
def execOutputAutoRestart (t : Nat) (k : Fin 16) (s : State) : Host.Outcome State Fault Refusal :=
  let s := s.at' t
  if s.mayRestart k then doneR (s.restartOutput k) else doneR s

/-- DRIVER_JUNCTION_COOLED (R410): the junction falls below 135 °C; after its 100 ms the latch clears under auto_rs. -/
def execDriverJunctionCooled (t : Nat) (k : Fin 16) (s : State) : Host.Outcome State Fault Refusal :=
  let s := s.at' t
  let s1 := s.setDrv k { s.drv k with hot := false }
  if s1.mayRestart k then doneR (s1.restartOutput k) else doneR s1

/-- Clear bits of `RNY_OUT_DIAG[k]` by writing 1: ovl, thermal, open_off, open_on and stuck_off; the output works again
when no latching condition is left. stuck_on, latched off and restarts are read only (Table 18.8, R410, R412). -/
def State.clearDiag (s : State) (k v : Nat) : State :=
  let w := s.rreg (R.RNY_OUT_DIAG k)
  let keep (i : Nat) := b2n (w.testBit i && !v.testBit i) * 2 ^ i
  let w' := keep 0 + keep 1 + keep 2 + keep 3 + keep 4 + b2n (w.testBit 5) * 32
  let s1 := s.setRreg (R.RNY_OUT_DIAG k) w'
  let d := s.drv k
  if d.off && (w'.testBit 0 || w'.testBit 1 || w'.testBit 4) then s1
  else s1.setDrv k { d with off := false, stay := false }

/-- OUTPUT_DIAG_CLEAR (R410): a write of 1 to an `RNY_OUT_DIAG` bit clears a latched output condition. -/
def execOutputDiagClear (t : Nat) (k : Fin 16) (v : W32) (s : State) : Host.Outcome State Fault Refusal :=
  let s := s.at' t
  if s.mod.visoUp then doneR (s.clearDiag k v.toNat) else doneR s

/-- FIELD_SUPPLY_LOW (R411): L+ below 17 V holds every output off; fires that fall in that time are unfired. -/
def execFieldSupplyLow (t : Nat) (mv : BitVec 16) (s : State) : Host.Outcome State Fault Refusal :=
  let s := s.at' t
  let s1 := { s with ron := { s.ron with lplusMv := mv.toNat } }
  if mv.toNat < 17000 ∧ s.mod.visoUp then
    let s2 := { s1 with ron := { s1.ron with supplyLow := true, supplyOkSince := none } }
    if s.ron.supplyLow then doneR s2
    else doneR ((s2.blockFires (fun _ => true)).rnyEvent E_FIELD_SUPPLY 0 none none)
  else doneR s1

/-- FIELD_SUPPLY_RESTORE (R411): L+ has been at or above 18 V for 100 ms; the outputs return. -/
def execFieldSupplyRestore (t : Nat) (mv : BitVec 16) (s : State) : Host.Outcome State Fault Refusal :=
  let s := s.at' t
  let s1 := { s with ron := { s.ron with lplusMv := mv.toNat } }
  if 18000 ≤ mv.toNat ∧ s.mod.visoUp then doneR { s1 with ron := { s1.ron with supplyLow := false, supplyOkSince := some s.now } }
  else doneR s1

/-- One readback sample of output `k`, commanded on or off and found energised or not (R412). -/
def State.readbackOne (s : State) (k : Nat) (want seen : Bool) : State :=
  let d := s.drv k
  if s.now < d.changedAt + 50000 ∨ d.off ∨ s.ron.supplyLow then s
  else if seen = want then s.setDrv k { d with mismatch := 0 }
  else if d.mismatch < 2 then s.setDrv k { d with mismatch := d.mismatch + 1 }
  else if seen then
    (((s.setDrv k { d with mismatch := 0 }).setRfld (R.RNY_OUT_DIAG k) 5 1 1).rnyEvent E_OUT_READBACK k (some k) none).fieldSafeEnter 3
  else
    ((((s.setDrv k { d with mismatch := 0, off := true, stay := true, offAt := s.now }).setRfld (R.RNY_OUT_DIAG k) 4 1 1)).blockFires
      (fun j => j == k)).rnyEvent E_OUT_READBACK k (some k) none

/-- OUTPUT_READBACK (R412): every 250 µs outputs are compared with their commands. -/
def execOutputReadback (t : Nat) (seen : BitVec 16) (s : State) : Host.Outcome State Fault Refusal :=
  let s := s.at' t
  if s.mod.visoUp then
    let s1 := { s with ron := { s.ron with energised := seen } }
    doneR ((List.range 16).foldl (fun r k => r.readbackOne k (s.driven k) (seen.getLsbD k)) s1)
  else doneR s

/-- OUTPUT_OPEN_OFF (R413): with ow_off, an off output above 4 V for 10 ms latches open_off and stays usable. -/
def execOutputOpenOff (t : Nat) (k : Fin 16) (s : State) : Host.Outcome State Fault Refusal :=
  let s := s.at' t
  if s.mod.visoUp && s.rbit (R.RNY_OUT_CFG k) 0 && !s.driven k then
    doneR ((s.setRfld (R.RNY_OUT_DIAG k) 2 1 1).rnyEvent E_OUT_OPEN k (some k) none)
  else doneR s

/-- EMULATED_EDGE_OUT (R407): the oldest queued edge is produced once the last pulse's high and low times are over; it
takes the edge-report slot, or its report is dropped when 64 wait. -/
def execEmulatedEdgeOut (t : Nat) (e : Fin 2) (s : State) : Host.Outcome State Fault Refusal :=
  let s := s.at' t
  let m := s.emu e
  match m.edges with
  | [] => doneR s
  | (p, _) :: rest =>
    if s.now < m.busyUntil ∨ s.mod.visoUp = false ∨ s.rbit (R.RNY_EMU_CFG e) 0 = false then doneR s
    else
      let pulse := s.rfld (R.RNY_EMU_CFG e) 8 8 * 100
      let m1 := { m with edges := rest, busyUntil := s.now + 2 * pulse, highUntil := s.now + pulse }
      let s1 := s.setRreg (R.RNY_EMU_EDGES e) (s.rreg (R.RNY_EMU_EDGES e) + 1)
      if m.reports.length < emuReports then doneR (s1.setEmu e { m1 with reports := m.reports ++ [(p, s.now)] })
      else doneR ((s1.setEmu e { m1 with dropped := m.dropped ++ [(p, s.now)] }).setRreg (R.RNY_EMU_DROP e)
                    (s1.rreg (R.RNY_EMU_DROP e) + 1))

end Sys2Proof.Machine
end

