-- ==== Sys2Proof/Machine/Pipe.lean ====
section
/-! DEFINITION. One line through a runner's stages (R142–R145, R149): gaps, merge, flat field, defects, crop, binning, flip,
deskew and output format, with the taps and ROI sources on the way, to a corrected row that segmentation takes. -/

namespace Sys2Proof.Machine

/-- The columns of some rows, `n` of them. -/
def columns : Nat → List (List Nat) → List (List Nat)
  | 0, _ => []
  | n + 1, ls => ls.map (fun l => l.headD 0) :: columns n (ls.map List.tail)

/-- A gap's count as one of the rows a stage discards. -/
def Row.asGap (r : Row) : Nat × Nat × Nat := (r.count, r.count, 1)

/-- Dropped rows reach the pipeline (R144): the open merge and binning groups and the deskew delay line are discarded and
counted with them, oldest first, and defect mode 3 has no previous row. -/
def State.pipeGap (s : State) (j : Nat) (g : Nat × Nat × Nat) : State :=
  let x := s.slot j
  let lost := x.delay ++ x.bin ++ x.merge
  let gap := joinGap (lost.foldl (fun a r => joinGap a r.asGap) x.gapOut) g
  let s1 := s.wr (R.RUN_ROWS_DROP (j / 4) (j % 4)) (s.rd (R.RUN_ROWS_DROP (j / 4) (j % 4)) + lost.length)
  s1.setSlot j { x with delay := [], bin := [], merge := [], prev := none, gapOut := gap }

/-- Stage 1 on one line of generation `g` (R142). -/
def State.linear (s : State) (g j : Nat) (t : CorrTable) (px : List Nat) : List Nat :=
  let fmt := s.cfgF g (R.RUN_SRC (j / 4) (j % 4)) 8 2
  let n := px.map (normPx fmt)
  if s.cfgF g (R.RUN_LIN (j / 4) (j % 4)) 0 1 = 1 then n.map (linPx t.l) else n

/-- Stages 1 and 2 on the lines of a merge group, under the configuration of its exposure-0 line (R142, R143). -/
def State.mergeGroup (s : State) (g j : Nat) (t : CorrTable) (ls : List Row) : List Nat :=
  let r := j / 4
  let k := j % 4
  let ps := ls.map (fun l => s.linear g j t l.px)
  match ps with
  | [p] => p
  | _ =>
    let gains := [s.cfgF g (R.RUN_MERGE_GAIN01 r k) 0 16, s.cfgF g (R.RUN_MERGE_GAIN01 r k) 16 16,
                  s.cfgF g (R.RUN_MERGE_GAIN23 r k) 0 16, s.cfgF g (R.RUN_MERGE_GAIN23 r k) 16 16]
    (columns (ps.headD []).length ps).map (mergePx (s.cfgF g (R.RUN_MERGE_SAT r k) 0 16) gains)

/-- Stages 3 to 5 on a merged row of generation `g`: flat field, T2 and its ROI source, defective pixels, crop. -/
def State.correctRow (s : State) (g j : Nat) (t : CorrTable) (row : Row) (y rows : Nat) : State × Row :=
  let r := j / 4
  let k := j % 4
  let ff := if s.cfgF g (R.RUN_FF r k) 0 1 = 1 then ffRow row.px t.d t.g else row.px
  let a := (s.tapRow j 2 { row with px := ff }).roiPoint j 0 { row with px := ff } y rows
  let x := a.1.slot j
  let px := if s.cfgF g (R.RUN_FF r k) 1 1 = 1 then (t.defects.take (s.cfgF g (R.RUN_FF r k) 2 11)).foldl (defectPx x.prev) ff else ff
  let w := s.cfg g (R.RUN_CROP r k)
  (a.1.setSlot j { x with prev := some px }, { a.2 with px := (px.drop (w % 2 ^ 14)).take (w / 2 ^ 16 % 2 ^ 15) })

/-- Stages 6 and 7: a row joins the open binning group; a full group makes one row with the trigger of its first (R143). -/
def State.binRow (s : State) (j : Nat) (row : Row) : State × Option Row :=
  let x := s.slot j
  let grp := x.bin ++ [row]
  let r0 := nth grp 0 {}
  let w := s.cfg (s.rowGen j r0.time) (R.RUN_BIN (j / 4) (j % 4))
  if grp.length < max 1 (w / 16 % 16) then (s.setSlot j { x with bin := grp }, none)
  else
    let px := binRows (max 1 (w % 16)) (grp.map (fun r => r.px))
    (s.setSlot j { x with bin := [] },
     some { r0 with px := if w.testBit 8 then px.reverse else px, bad := grp.any (fun r => r.bad) })

/-- Rows the deskew of generation `g` holds back over `w` columns: D (R142). -/
def State.deskewD (s : State) (g j w : Nat) : Nat :=
  if s.cfgF g (R.RUN_BIN (j / 4) (j % 4)) 9 1 = 1 then (skewSpan (s.cfg g (R.RUN_DESKEW (j / 4) (j % 4))) w).2 else 0

/-- A corrected row leaves the runner: stage 9, the gap since the row before, then segmentation and the gating network once
line work runs (R53, R155, R162). -/
def State.rowOut (s : State) (j : Nat) (row : Row) : State :=
  let g := s.rowGen j row.time
  let x := s.slot j
  let out : Row := { row with px := row.px.map (outPx (decide (s.cfgF g (R.RUN_SRC (j / 4) (j % 4)) 10 1 = 1))), gap := x.gapOut }
  let s1 := s.setSlot j { x with gapOut := none }
  if s.boot.lineStarted then
    let s2 := s1.segmentRow j out
    let y := s2.slot j
    s2.setSlot j { y with outq := y.outq ++ [{ out with gens := ((y.lanes.filter (fun e => e.2.opened)).map (fun e => e.2.gen)).eraseDups }] }
  else s1

/-- Stage 8: rows leave the delay line as long as the rows the oldest needs have arrived. -/
def State.deskewOut (s : State) (j : Nat) : Nat → State
  | 0 => s
  | n + 1 =>
    let x := s.slot j
    match x.delay with
    | [] => s
    | r0 :: rest =>
      let g := s.rowGen j r0.time
      let d := s.deskewD g j r0.px.length
      if x.delay.length < d + 1 then s
      else
        let px := if s.cfgF g (R.RUN_BIN (j / 4) (j % 4)) 9 1 = 1
          then skewRow (s.cfg g (R.RUN_DESKEW (j / 4) (j % 4))) r0.px.length (x.delay.map (fun r => r.px)) else r0.px
        let row : Row := { r0 with px := px, bad := (x.delay.take (d + 1)).any (fun r => r.bad) }
        (((s.setSlot j { x with delay := rest }).tapRow j 3 { row with gap := x.gapOut }).rowOut j row).deskewOut j n

/-- A merged row goes on through stages 3 to 9. -/
def State.mergedRow (s : State) (j : Nat) (row : Row) (t : CorrTable) (rows : Nat) : State :=
  let g := s.rowGen j row.time
  let y := (s.slot j).roiRow.1
  let a := (s.tapRow j 1 row).roiPoint j 1 row y rows
  let b := a.1.correctRow g j t a.2 y rows
  let x := b.1.slot j
  let c := (b.1.setSlot j { x with roiRow := (y + 1, x.roiRow.2) }).binRow j { b.2 with gap := none }
  match c.2 with
  | none => c.1
  | some out =>
    let z := c.1.slot j
    (c.1.setSlot j { z with delay := z.delay ++ [out] }).deskewOut j (z.delay.length + 1)

/-- A line that belongs to no merge group that stands whole, since a line of its group was lost, is lost with it (R144). -/
def State.lineLost (s : State) (j : Nat) (row : Row) : State :=
  let s1 := s.pipeGap j row.asGap
  s1.wr (R.RUN_ROWS_DROP (j / 4) (j % 4)) (s1.rd (R.RUN_ROWS_DROP (j / 4) (j % 4)) + 1)

/-- A line joins its merge group, exposure by its place in its block (R142), and with the last exposure goes on as one row. -/
def State.mergeLine (s : State) (j : Nat) (l : InLine) : State :=
  let x := s.slot j
  let grp := x.merge ++ [l.row]
  let r0 := nth grp 0 {}
  let g := s.rowGen j r0.time
  let e := s.cfgF g (R.RUN_LIN (j / 4) (j % 4)) 1 2 + 1
  if l.idx % e ≠ x.merge.length then s.lineLost j l.row
  else if grp.length < e then s.setSlot j { x with merge := grp }
  else
    let t := x.table r0.time
    let y := x.usedAt r0.time
    let px := s.mergeGroup g j t grp
    (s.setSlot j { y with merge := [] }).mergedRow j { r0 with px := px } t (l.lines / e)

/-- A line enters the pipeline of slot `j` (R142). -/
def State.lineIn (s : State) (j : Nat) (l : InLine) : State :=
  let s0 := if l.idx = 0 ∨ (s.slot j).roiRow.2 ≠ l.block + 1 then s.roiBlock j l.block else s
  let s1 := match l.row.gap with | some g => s0.pipeGap j g | none => s0
  let s3 := (s1.tapRow j 0 l.row).mergeLine j l
  let s4 := if l.last then s3.tapLast j l.block (decide (l.idx + 1 < l.lines)) else s3
  s4.tapEnd j

end Sys2Proof.Machine
end

