-- ==== Sys2Proof/Machine/Runner.lean ====
section
/-! DEFINITION. The runners' commands (chapter Runners): blocks and lines arriving from cameras (R122, R139, R146), the order
of service (R137), memory feeds and their tiles (R141, R151), and delivery to the stripes (R161, R162, R287). -/

namespace Sys2Proof

/-- Every packet of the line passed its check: no CRC failure, no code error in it (R132). -/
def PacketChk.ok (c : PacketChk) : Bool := c.bad.isNone && c.codes.all (fun e => decide (e.2 = 0))

end Sys2Proof

namespace Sys2Proof.Machine

/-! ### Blocks and lines from a camera -/

/-- The master port of the camera of logical stream `str`, where the stream is in use and its camera is UP. -/
def State.streamCam (s : State) (str : Nat) : Option Nat :=
  let w := s.rd (R.CXP_STREAM_MAP str)
  let p := w / 2 % 32
  if w % 2 = 1 ∧ s.fld (R.CXP_PORT_STAT p) 0 3 = 3 then some p else none

/-- The slot a block of logical stream `str` is coming in for (R139). -/
def State.blkSlot (s : State) (str : Nat) : Option Nat :=
  (s.intk.slots.find? (fun e => e.2.blk.isSome && e.2.blkHdr.1 == str)).map Prod.fst

/-- The master port a line of logical stream `str` comes through: the stream's camera, or that of the block in progress after a cast took
the stream away (R146), while it is UP. -/
def State.linePort (s : State) (str : Nat) : Option Nat :=
  match s.streamCam str, s.blkSlot str with
  | some p, _ => some p
  | none, some j => let p := (s.slot j).blkHdr.2.1; if s.fld (R.CXP_PORT_STAT p) 0 3 = 3 then some p else none
  | none, none => none

/-- Camera `p`. -/
def State.cam (s : State) (p : Nat) : Cam := KMap.getD s.intk.cams p {}

/-- Store camera `p`. -/
def State.setCam (s : State) (p : Nat) (c : Cam) : State :=
  { s with intk := { s.intk with cams := KMap.put s.intk.cams p c } }

/-- The row trigger the next line of camera `p` takes (R122): the oldest stamp, with the dropped triggers before it, or with
no trigger source the count mirror and the device time; none with an empty queue. -/
def State.takeStamp (s : State) (p : Nat) : State × Option Stamp :=
  let w := s.rd (R.CXP_TRIG_CFG p)
  if w % 4 = 0 then (s, some { count := s.mirror (w / 4 % 2), time := s.tim.ns })
  else
    let c := s.cam p
    match c.stamps with
    | [] => (s, none)
    | e :: es => (s.setCam p { c with stamps := es }, some e)

/-- Slot `j` drops one line with stamp `e` (R146). -/
def State.dropStamp (s : State) (j : Nat) (e : Stamp) : State :=
  let s1 := match e.lost with | some g => s.dropLines j g | none => s
  s1.dropLines j (e.count, e.count, 1)

/-- 8b/10b errors counted on each port of camera `m` they fell on (R132). -/
def State.codeErrs (s : State) (m : Nat) (chk : PacketChk) : State :=
  chk.codes.foldl (fun s e => let a := R.CXP_CODE_ERR ((m + e.1) % 32); s.wr a (min (2 ^ 32 - 1) (s.rd a + e.2))) s

/-- A packet of camera `m` fails its check (R132), as one with a code error does: counted on its port, with E_CXP_PACKET at most once per
port per ms. -/
def State.packetBad (s : State) (m : Nat) (chk : PacketChk) (w3 : Option Nat) : State :=
  let bad := (chk.bad.map Fin.val).toList ++ (chk.codes.filter (fun e => decide (0 < e.2))).map (fun e => e.1.val)
  ((if bad = [] then [0] else bad.eraseDups).map (fun i => (m + i) % 32)).foldl (fun s p => (s.incSat (R.CXP_PKT_ERR p) 0 32).raiseLim E_CXP_PACKET p ms { w3 := w3 }) (s.codeErrs m chk)

/-- One line of the block in progress has been dealt with. -/
def State.countLine (s : State) (j : Nat) : State :=
  let x := s.slot j
  match x.blk with
  | some (b, n, got) => s.setSlot j { x with blk := if n ≤ got + 1 then none else some (b, n, got + 1), pktAt := s.now }
  | none => s

/-- A line with stamp `e` enters the FIFO or the ring of slot `j` (R136): the first of its block gives the block's t0, and the
gap since the line before goes with it. -/
def State.queueLine (s : State) (j b n got fmt : Nat) (e : Stamp) (px : List Nat) : State :=
  let s1 := match e.lost with | some g => s.dropLines j g | none => s
  let x := s1.slot j
  let t0 := if got = 0 then e.time else x.blkT0
  let l : InLine := { row := { px := px, count := e.count, time := e.time, gap := x.gapIn, t0 := t0, block := b },
                      block := b, idx := got, last := decide (n ≤ got + 1), lines := n, fmt := fmt }
  s1.setSlot j { x with inq := x.inq ++ [l], gapIn := none, blkT0 := t0 }

/-- A line of the block in progress of slot `j`, whose row trigger is `e`, under the generation of that trigger (R103, R146): rest of a
truncated block, a source a cast has taken away, a packet that failed, a block that does not match any more (log 113), no room, or room. -/
def State.lineFor (s : State) (j p : Nat) (e : Stamp) (px : List (BitVec 16)) (chk : PacketChk) : State :=
  let x := s.slot j
  let g := s.rowGen j e.time
  let str := x.blkHdr.1
  let w := x.blkHdr.2.2.1
  let fmt := x.blkHdr.2.2.2
  let src := s.cfg g (R.RUN_SRC (j / 4) (j % 4))
  match x.blk with
  | none => s.dropStamp j e
  | some (b, n, got) =>
    if x.dropRest then (s.dropStamp j e).countLine j
    else if src % 4 ≠ 1 ∨ src / 4 % 64 ≠ str ∨ s.cfg g (R.CXP_STREAM_MAP str) % 2 = 0 then ((s.truncBlock j 7 b got).dropStamp j e).countLine j
    else if chk.ok = false ∨ px.length ≠ w then (((s.packetBad p chk none).truncBlock j 5 b got).dropStamp j e).countLine j
    else if !s.geomOk g j w n fmt then ((s.truncBlock j 3 b got).dropStamp j e).countLine j
    else if !s.lineRoom g j fmt w b then ((s.truncBlock j (if j % 4 = 0 then 1 else 4) b got).dropStamp j e).countLine j
    else (s.queueLine j b n got fmt e (px.map (fun v => v.toNat % 2 ^ pxBits fmt))).countLine j

/-- A line nobody triggered (R122): E_CXP_PACKET with word 3 = 1, and the rest of the block is dropped as LINK (log 32). -/
def State.untriggered (s : State) (j? : Option Nat) (p : Nat) : State :=
  let s1 := s.raiseLim E_CXP_PACKET p ms { w3 := some 1 }
  match j? with
  | none => s1
  | some j =>
    let c := s1.mirror (s1.fld (R.CXP_TRIG_CFG p) 2 1)
    ((s1.truncNow j 5).dropLines j (c, c, 1)).countLine j

/-- CAMERA_LINE_RECEIVED (R122): a line of logical stream `str` arrives and takes the oldest stamp as its row trigger. -/
def execCameraLineReceived (t : Nat) (str : Fin 64) (px : List (BitVec 16)) (chk : PacketChk) (s : State) :
    Host.Outcome State Fault Refusal :=
  let s := s.at' t
  match (if s.running then s.linePort str else none) with
  | none => done s
  | some p =>
    let slotAt (t : Nat) : Option Nat := match s.blkSlot str with | some j => some j | none => s.slotOf (s.genAt t) str
    let a := s.takeStamp p
    match a.2 with
    | none => done (a.1.untriggered (slotAt s.tim.ns) p)
    | some e =>
      match slotAt e.time with
      | some j => done (a.1.lineFor j p e px chk)
      | none => done (if chk.ok then a.1 else a.1.packetBad p chk none)

/-- Lines of a block that never came take their stamps and are dropped (log 32). -/
def State.dropMissing (s : State) (j p : Nat) : Nat → State
  | 0 => s
  | n + 1 =>
    let a := s.takeStamp p
    match a.2 with
    | none => a.1
    | some e => (a.1.dropStamp j e).dropMissing j p n

/-- A block that is still in progress when the next begins has lost its last lines: truncated as LINK, unless it is already. With no
trigger source its lost lines, which have no row trigger of their own, are marked at the count mirror (log 32). -/
def State.endBlock (s : State) (j : Nat) : State :=
  let x := s.slot j
  let p := x.blkHdr.2.1
  match x.blk with
  | none => s
  | some (_, n, got) =>
    let s1 := s.truncNow j 5
    let w := s.rd (R.CXP_TRIG_CFG p)
    if w % 4 = 0 then (let c := s.mirror (w / 4 % 2); s1.dropLines j (c, c, n - got)) else s1.dropMissing j p (n - got)

/-- Generation of the block that begins at slot `j` from the camera of port `p`: that of the oldest stamp waiting, which its first line will
take, or the present one. -/
def State.headGen (s : State) (j p : Nat) : Nat :=
  match (s.cam p).stamps with
  | e :: _ => if s.rd (R.CXP_TRIG_CFG p) % 4 = 0 then s.rowGen j s.tim.ns else s.rowGen j e.time
  | [] => s.rowGen j s.tim.ns

/-- BLOCK_HEADER_RECEIVED (R139): a block header arrives at a camera slot; the block is accepted, or dropped whole with reason
HEADER. -/
def execBlockHeaderReceived (t : Nat) (r : Fin 16) (k : Fin 4) (h : BlockHeader) (s : State) : Host.Outcome State Fault Refusal :=
  let s := s.at' t
  let j := 4 * r.val + k.val
  match (if s.running then s.streamCam (s.fld (R.RUN_SRC r k) 2 6) else none) with
  | none => done s
  | some p =>
    let g := s.headGen j p
    let w := s.cfg g (R.RUN_SRC r k)
    if w % 4 ≠ 1 then done s
    else
      let s1 := s.endBlock j
      let x := s1.slot j
      let b := x.nextBlock
      let n := h.lines.toNat
      let s2 := (s1.setSlot j { x with
        nextBlock := (b + 1) % 2 ^ 32, blk := if n = 0 then none else some (b, n, 0), dropRest := false, blkCut := false, pktAt := s1.now
        blkHdr := (w / 4 % 64, p, h.width.toNat, h.fmt.toNat) }).inc (R.RUN_BLOCKS r k)
      if s2.geomOk g j h.width.toNat n h.fmt.toNat then done s2 else done (s2.truncBlock j 3 b 0)

/-- BLOCK_TIMEOUT (R146): more than `RUN_BLK_TIMEOUT` µs since the last packet of a block; the rest of it is dropped. -/
def execBlockTimeout (t : Nat) (r : Fin 16) (k : Fin 4) (s : State) : Host.Outcome State Fault Refusal :=
  let s := s.at' t
  let j := 4 * r.val + k.val
  if s.running ∧ (s.slot j).pktAt + s.fld (R.RUN_BLK_TIMEOUT r k) 0 16 * 1000 < s.now then done (s.truncNow j 2) else done s

/-! ### Memory feeds -/

/-- FEED_TAIL_WRITE (R141): the feeding agent makes new descriptors available. -/
def execFeedTailWrite (t : Nat) (r : Fin 16) (k : Fin 4) (v : W32) (s : State) : Host.Outcome State Fault Refusal :=
  let s := s.at' t
  if s.running then done (s.wr (R.RUN_FEED_TAIL r k) (v.toNat % 65536)) else done s

/-- What the runner has of the record at its feed's head. -/
inductive FeedRec where
  /-- No descriptor waits. -/
  | none
  /-- An access to the descriptor or the record fails: an uncorrectable line, or a translation fault's context. -/
  | bad (line : Option Nat) (x : Nat)
  /-- It waits for a page to come back. -/
  | park
  /-- The record's bytes. -/
  | ok (bs : List Byte)

/-- Read bytes of context `x`, where they translate and no line of them is poisoned. -/
def State.feedRead (s : State) (x a n : Nat) : FeedRec :=
  match s.xlateAll x false true (n / 4096 + 2) a (max 1 n) with
  | .park _ _ => .park
  | .fault _ _ => .bad none x
  | .ok _ => match s.poisonedIn x a n with | some l => .bad (some l) x | none => .ok (s.vreadBytes x a n)

/-- Entries of slot `j`'s feed ring. -/
def State.feedSize (s : State) (j : Nat) : Nat := 2 ^ s.fld (R.RUN_FEED_CFG (j / 4) (j % 4)) 0 5

/-- The record at the head of slot `j`'s feed ring (R141). -/
def State.feedHead (s : State) (j : Nat) : FeedRec :=
  let r := j / 4
  let k := j % 4
  let n := s.feedSize j
  let h := s.rd (R.RUN_FEED_HEAD r k) % n
  let x := s.fld (R.RUN_FEED_CFG r k) 8 4
  if h = s.rd (R.RUN_FEED_TAIL r k) % n then .none
  else match s.feedRead x (s.rd64 (R.RUN_FEED_BASE r k) % 2 ^ 48 + 32 * h) 32 with
    | .ok d => s.feedRead x (leAt d 0 8 % 2 ^ 48) (leAt d 8 4)
    | q => q

/-- The record at the head has been read, or dropped: the head passes its descriptor, and it takes the slot's next block number
(R140, R141). -/
def State.feedPass (s : State) (j : Nat) : State × Nat :=
  let r := j / 4
  let k := j % 4
  let x := s.slot j
  let s1 := s.setSlot j { x with nextBlock := (x.nextBlock + 1) % 2 ^ 32 }
  (((s1.inc (R.RUN_BLOCKS r k)).wr (R.RUN_FEED_HEAD r k) ((s.rd (R.RUN_FEED_HEAD r k) + 1) % s.feedSize j)), x.nextBlock)

/-- Count and time of row `i` of a record (Table 7.2). -/
def recStamp (bs : List Byte) (i : Nat) : Nat × Nat × Bool :=
  let w := leAt bs (64 + 16 * i) 8
  (w % 2 ^ 48, leAt bs 24 8 * 1000000000 + leAt bs 32 4 + leAt bs (72 + 16 * i) 8, w.testBit 48)

/-- Rows `lo` to the last of a record are dropped (R146). -/
def State.dropRec (s : State) (j : Nat) (bs : List Byte) (lo n : Nat) : State :=
  if lo < n then s.dropLines j ((recStamp bs lo).1, (recStamp bs (n - 1)).1, n - lo) else s

/-- The rows of a record enter the slot's queue with their own stamps (R141): `ls` those that were read, of `n`. A stamp's gap
mark names no counts: the gap takes its row's own (log 33). -/
def State.feedLines (s : State) (j b n fmt : Nat) (bs : List Byte) (ls : List (List Nat)) : State :=
  let x := s.slot j
  let t0 := (recStamp bs 0).2.1
  let mk (i : Nat) (px : List Nat) : InLine :=
    let e := recStamp bs i
    let own : Option (Nat × Nat × Nat) := if e.2.2 then some (e.1, e.1, 0) else none
    { row := { px := px, count := e.1, time := e.2.1, gap := if i = 0 then joinGaps x.gapIn own else own, t0 := t0, block := b },
      block := b, idx := i, last := decide (i + 1 = ls.length), lines := n, fmt := fmt }
  if ls = [] then s
  else s.setSlot j { x with inq := x.inq ++ (List.range ls.length).map (fun i => mk i (nth ls i [])), gapIn := none }

/-- Generation of the rows of a record of slot `j`: that of its first row's stamp (R141). -/
def State.recGen (s : State) (j : Nat) (bs : List Byte) : Nat := s.rowGen j (recStamp bs 0).2.1

/-- The geometry of a record matches the slot under R139, in the generation of its rows: width, lines and format. -/
def State.recMatch (s : State) (j : Nat) (bs : List Byte) (w n bits : Nat) : Bool :=
  match bitsFmt bits with | some f => s.geomOk (s.recGen j bs) j w n f | none => false

/-- A block of the feed is dropped from row `lo` on, for `why`. -/
def State.feedDrop (s : State) (j b why lo : Nat) (bs : List Byte) : State :=
  (s.truncBlock j why b lo).dropRec j bs lo (leAt bs 12 2)

/-- The record at the head could not be read: what its reader reports, and the block dropped as DECODE (Tables 7.5, 9.3). -/
def State.feedBad (s : State) (j : Nat) (line : Option Nat) (x : Nat) : State :=
  let s1 := match line with | some l => s.memUncorr l 3 x 0 | none => s.raise E_XLATE_FAULT {} x
  let a := s1.feedPass j
  a.1.truncBlock j 6 a.2 0

/-- A raw record at the head is read whole (R141). One that does not match the slot is dropped with reason HEADER (log 33). -/
def State.feedRaw (s : State) (j : Nat) (bs : List Byte) : State :=
  let w := leAt bs 14 2
  let n := leAt bs 12 2
  let bits := leAt bs 7 1
  let fmt := (bitsFmt bits).getD 0
  let a := s.feedPass j
  if leAt bs 0 2 = 0x4B52 ∧ leAt bs 2 2 = 1 ∧ s.recMatch j bs w n bits = true ∧ n * rawRow fmt w ≤ leAt bs 36 4 then
    a.1.feedLines j a.2 n fmt bs ((List.range n).map (fun i => unpackPixels fmt w ((bs.drop (64 + 16 * n + i * rawRow fmt w)).take (rawRow fmt w))))
  else a.1.feedDrop j a.2 3 0 bs

/-- A refused tile (R151): counted, its event limited as E_BLOCK_TRUNC is, and its block dropped as DECODE. -/
def State.tileRefused (s : State) (j code : Nat) (bs : List Byte) : State :=
  let a := s.feedPass j
  ((a.1.inc (R.RUN_DEC_REFUSED (j / 4) (j % 4))).raiseLim code j ms {}).feedDrop j a.2 6 0 bs

/-- A codec tile at the head of the feed is checked in the order of R151 and decoded (R152). -/
def State.tileRun (s : State) (j : Nat) (bs : List Byte) : State :=
  let bound := s.cfg (s.recGen j bs) (R.RUN_DEC_MAX (j / 4) (j % 4))
  let tile := (bs.drop (64 + 16 * leAt bs 12 2)).take (leAt bs 36 4)
  match tileHdr tile (leAt bs 36 4) with
  | none => s.tileRefused j E_DECODE_FORMAT bs
  | some h =>
    if bound < h.w * h.h * h.bits then s.tileRefused j E_DECODE_BOUND bs
    else if h.entries.any (fun e => decide (2048 * e.2 < e.1 * h.w * h.bits)) then s.tileRefused j E_DECODE_BOUND bs
    else
      let a := s.feedPass j
      if s.recMatch j bs h.w h.h h.bits = true ∧ h.h = leAt bs 12 2 then
        let d := decodeBlocks h.bits h.w h.entries (tile.drop (32 + 8 * h.entries.length))
        let s1 := a.1.feedLines j a.2 h.h ((bitsFmt h.bits).getD 0) bs d.1
        if d.2 then s1 else (s1.raiseLim E_DECODE_FORMAT j ms {}).feedDrop j a.2 6 d.1.length bs
      else a.1.feedDrop j a.2 3 0 bs

/-- Slot `j` is an enabled memory feed. -/
def State.isFeed (s : State) (j : Nat) : Bool := decide (s.fld (R.RUN_SRC (j / 4) (j % 4)) 0 2 = 3)

/-- TILE_DECODE (R151): the codec tile at the head of a feed is checked and decoded, refused, or fails; `bad` is a line of it, or of its
descriptor, that the read finds uncorrectable (R181). -/
def execTileDecode (t : Nat) (r : Fin 16) (k : Fin 4) (bad : Option (BitVec 29)) (s : State) : Host.Outcome State Fault Refusal :=
  let s := s.at' t
  let j := 4 * r.val + k.val
  if !s.running || !s.isFeed j || (s.slot j).inq != [] then done s
  else match s.feedHead j with
    | .none => done s
    | .park => done s
    | .bad l x => done (s.feedBad j l x)
    | .ok bs =>
      let x := s.fld (R.RUN_FEED_CFG r k) 8 4
      if (leAt bs 5 1).testBit 1 = false then done s
      else match bad with
        | some l => done (s.feedBad j (some l.toNat) x)
        | none => done (s.tileRun j bs)

/-- A feed whose queue is empty takes in the raw record at its head. -/
def State.feedFill (s : State) (j : Nat) : State :=
  if s.isFeed j ∧ (s.slot j).inq = [] then
    match s.feedHead j with
    | .none => s
    | .park => s
    | .bad l x => s.feedBad j l x
    | .ok bs => if (leAt bs 5 1).testBit 1 then s else s.feedRaw j bs
  else s

/-! ### Service -/

/-- The oldest block waiting in slot `j` is there whole, or has ended by truncation: a through-memory slot may be visited. -/
def Slot.blockReady (x : Slot) : Bool :=
  match x.inq with
  | [] => false
  | l :: _ => x.inq.any (fun e => e.block == l.block && e.last)

/-- Slot 0 of runner `r` stands at a block boundary, where no line of the next block has come (R137 rule 2). -/
def State.slot0Idle (s : State) (r : Nat) : Bool :=
  let x := s.slot (4 * r)
  x.inq == [] && (match x.blk with | some (_, _, got) => x.dropRest || got == 0 | none => true)

/-- Slot `j` has a block to be visited: one waiting, or a record at the head of its feed (R137, R141). -/
def State.blockWaits (s : State) (j : Nat) : Bool :=
  let x := s.slot j
  x.blockReady || (s.isFeed j && x.inq == [] && (match s.feedHead j with | .none => false | .park => false | _ => true))

/-- The order of service allows slot `k` of runner `r` (R137): slot 0 first, then slots 1–3 in turn from the one whose visit it
is, of those with a block waiting. -/
def State.served (s : State) (r k : Nat) : Bool :=
  if k = 0 then true
  else
    let rr := KMap.getD s.intk.rr r 1
    let order := [rr, rr % 3 + 1, (rr % 3 + 1) % 3 + 1]
    s.slot0Idle r && order.find? (fun i => s.blockWaits (4 * r + i)) == some k

/-- Owner of a stripe's counters is bound (R287): a program is loaded that is bound to it. -/
def State.stripeBound (s : State) (e : StripeAt) : Bool := (s.stripeProg e.runner e.slot e.stripe).isSome

/-- A stripe has room for its next row: (n − FREE), signed, is less than its depth (R287). -/
def State.stripeRoom (s : State) (e : StripeAt) : Bool :=
  let free := if s.stripeBound e then s.evc (e.cru / 2) e.free else 0
  decide (sextI (e.n + 2 ^ 32 - free % 2 ^ 32) 32 < e.depth)

/-- The stripes of slot `j` that rows and pieces of the generations `gs` go to (R103). -/
def State.stripesFor (s : State) (j : Nat) (gs : List Nat) : List StripeAt :=
  s.fab.stripes.filter (fun e => decide (4 * e.runner + e.slot = j) && gs.any e.holds)

/-- Slot `j` has delivered all it has corrected, and the row of its next line has a known side of a pending cast (R104); a row of a
through-memory slot is not started without room for it in its stripes (R162). -/
def State.mayStart (s : State) (j : Nat) : Bool :=
  let x := s.slot j
  x.outq == [] && (match x.inq with
    | l :: _ => s.sideKnown l.row.time && (j % 4 == 0 || (s.stripesFor j [s.rowGen j l.row.time]).all s.stripeRoom)
    | [] => false)

/-- A through-memory slot moves the turn on after the last line of a block (R137 rule 3). -/
def State.turn (s : State) (r k : Nat) (last : Bool) : State :=
  if k = 0 then s
  else { s with intk := { s.intk with rr := KMap.put s.intk.rr r (if last then k % 3 + 1 else k) } }

/-- The rest of the block of the line at the head of slot `j` is dropped: an uncorrectable read of its ring (Table 9.3). The gap is marked on
the line that waits next, or else on the next to come. -/
def State.dropWaiting (s : State) (j : Nat) : State :=
  let x := s.slot j
  match x.inq with
  | [] => s
  | l :: _ =>
    let gone := x.inq.takeWhile (fun e => e.block == l.block)
    let gap := gone.foldl (fun a e => joinGap (joinGaps a e.row.gap) e.row.asGap) (none : Option (Nat × Nat × Nat))
    let y : Slot := match x.inq.dropWhile (fun e => e.block == l.block) with
      | [] => { x with inq := [], gapIn := joinGaps gap x.gapIn }
      | e :: es => { x with inq := { e with row := { e.row with gap := joinGaps gap e.row.gap } } :: es }
    let s1 := (s.setSlot j y).wr (R.RUN_ROWS_DROP (j / 4) (j % 4)) (s.rd (R.RUN_ROWS_DROP (j / 4) (j % 4)) + gone.length)
    s1.truncBlock j 6 l.block l.idx

/-- RUNNER_LINE (R142): the runner processes one line of slot `k` and hands its row toward the gating network; `bad` is a
line of its through-memory ring that the read finds uncorrectable (R181). -/
def execRunnerLine (t : Nat) (r : Fin 16) (k : Fin 4) (bad : Option (BitVec 29)) (s : State) : Host.Outcome State Fault Refusal :=
  let s := s.at' t
  let j := 4 * r.val + k.val
  if !s.running || decide (s.pwr.state ≠ 0) || !(s.slotOn j || (s.slot j).inq != []) then done s
  else
    let s1 := s.feedFill j
    if !s1.served r k || !s1.mayStart j then done s1
    else
      let x := s1.slot j
      match x.inq with
      | [] => done s1
      | l :: rest =>
        match (if k.val = 0 then none else bad) with
        | some a => done (((s1.memUncorr a.toNat 3 0 0).dropWaiting j).slotEnd j)
        | none => done ((((s1.setSlot j { x with inq := rest }).lineIn j l).turn r k l.last).slotEnd j)

/-! ### Delivery -/

/-- Write a row's header and pixels into the next buffer of a stripe, or the next slot of its mould ring (R161, R289): its columns under the
stripe's generation, the row's width and format under its own. -/
def State.stripeWrite (s : State) (e : StripeAt) (row : Row) (no : Nat) : State :=
  let g := s.rowGen (4 * e.runner + e.slot) row.time
  let cols := s.stripeColsAt e.gen row.px.length e.runner e.slot e.stripe
  let px := (row.px.drop cols.1).take cols.2
  let i := e.n % max 1 e.depth
  let hdr := stampBytes row row.t0 ++ leBytes no 8 ++ leBytes e.n 4 ++ zeroBytes 4
  if e.ring then
    let u16 := decide (s.cfgF g (R.RUN_SRC e.runner e.slot) 10 1 = 1)
    let body := px.foldr (fun v a => leBytes v (if u16 then 2 else 1) ++ a) []
    s.mwrite (e.cru / 2) (e.base * 1024 + i * e.pitch) (hdr ++ body)
  else
    let b := e.base + i
    let at0 := (e.cru * 32 + b) * 4096
    let s1 : State := { s with fab := { s.fab with
      lbuf := (List.range px.length).foldl (fun m c => KMap.put m (at0 + c) (nth px c 0)) s.fab.lbuf } }
    (List.range 8).foldl (fun s q => s.wr (R.FLK_LB_HDR (e.cru / 2) (e.cru % 2) b + 4 * q) (leAt hdr (4 * q) 4)) s1

/-- A row enters one stripe: written whole, then FILL counts it (R287). -/
def State.stripeTake (s : State) (e : StripeAt) (row : Row) (no : Nat) : State :=
  let s1 := s.stripeWrite e row no
  let s2 := if s.stripeBound e then s1.evcAdd (e.cru / 2) e.fill 1 else s1
  { s2 with fab := { s2.fab with stripes := s2.fab.stripes.map (fun q =>
      if q.runner = e.runner ∧ q.slot = e.slot ∧ q.stripe = e.stripe ∧ q.gen = e.gen then { q with n := q.n + 1 } else q) } }

/-- GATE_ROW_DELIVER (R162): once every destination has room, the oldest row that waits goes to all stripes of its slot: those of its own
generation, and those of the pieces it belongs to (R103). -/
def execGateRowDeliver (t : Nat) (r : Fin 16) (k : Fin 4) (s : State) : Host.Outcome State Fault Refusal :=
  let s := s.at' t
  let j := 4 * r.val + k.val
  let x := s.slot j
  match x.outq with
  | [] => done s
  | row :: rest =>
    let g := s.rowGen j row.time
    let es := s.stripesFor j (g :: row.gens)
    if !s.running || decide (s.pwr.state ≠ 0) || !es.all s.stripeRoom then done s
    else
      let no := x.rowNo - x.outq.length
      let s1 := s.setSlot j { x with outq := rest, hist := keepLast (x.hist ++ [(no, row.count, row.time, g)]) histMax }
      done ((es.foldl (fun s e => s.stripeTake e row no) s1).pruneStripes j)

end Sys2Proof.Machine
end

