-- ==== Sys2Proof/Machine/Cams.lean ====
section
/-! DEFINITION. Camera ports (chapter Serial lanes): bring-up, PoCXP, triggers, the control mailbox, PRBS checks and eye
scans (R114–R133). -/

namespace Sys2Proof.Machine

/-! ### Cameras and their ports -/

/-- Master port of the camera port `p` belongs to in the live configuration (R115). -/
def State.camOf (s : State) (p : Nat) : Nat := s.fld (R.CXP_PORT_CFG p) 5 5

/-- Ports of the camera with master port `m`: m to m + n − 1 (R115). -/
def State.camPorts (s : State) (m : Nat) : List Nat :=
  (List.range (2 ^ s.fld (R.CXP_PORT_CFG m) 13 2)).map (fun i => (m + i) % 32)

/-- The live configuration enables the camera with master port `m`. -/
def State.camOn (s : State) (m : Nat) : Bool := s.bit (R.CXP_PORT_CFG m) 0 && decide (s.camOf m = m)

/-- State of camera `m`, as its master port shows it (Table 6.8). -/
def State.camState (s : State) (m : Nat) : Nat := s.fld (R.CXP_PORT_STAT m) 0 3

/-- Set the state of every port of camera `m`; leaving UP clears speed and uplink. -/
def State.setCamState (s : State) (m st : Nat) : State :=
  (s.camPorts m).foldl (fun s p =>
    let w := s.rd (R.CXP_PORT_STAT p)
    s.wr (R.CXP_PORT_STAT p) (if st = 3 then putBits w 0 3 3 else putBits 0 6 1 (w / 64) + st)) s

/-- Slots whose source is a stream of camera `m` in the live configuration. -/
def State.camSlots (s : State) (m : Nat) : List Nat :=
  (List.range 64).filter (fun j =>
    let w := s.rd (R.RUN_SRC (j / 4) (j % 4))
    decide (w % 4 = 1) && (let e := s.rd (R.CXP_STREAM_MAP (w / 4 % 64)); decide (e % 2 = 1 ∧ e / 2 % 32 = m)))

/-- A mailbox command that waited for the bring-up of camera `m` is sent once it ends, whichever way (R118). -/
def State.ctlSend (s : State) (m : Nat) : State :=
  match s.intk.ctl with
  | some c => if c.held ∧ c.port = m then { s with intk := { s.intk with ctl := some { c with held := false, sentAt := s.now } } } else s
  | none => s

/-- Bring-up of camera `m` begins (R116): through POWERING where PoCXP is configured, else at discovery; an attempt is counted on
each of its ports. -/
def State.startCam (s : State) (m : Nat) : State :=
  let s1 := (s.camPorts m).foldl (fun s p => s.inc (R.CXP_REDISC p)) s
  let c := s1.cam m
  (s1.setCam m { c with retryAt := none, initDone := 0, wrote := [], testMode := false }).setCamState m (if s.bit (R.CXP_PORT_CFG m) 1 && !(s.camPorts m).all (s.pocxp.enables.getLsbD) then 1 else 2)

/-- Stamps of lines that will no longer come join the gap before the next line, as dropped triggers do; `CXP_TRIG_DROP`, which counts
triggers not sent, stays (R122, log 34). -/
def Cam.loseStamps (c : Cam) : Cam :=
  { c with stamps := [], uplink := [],
           dropped := joinGaps (c.stamps.foldl (fun a e => joinGap (joinGaps a e.lost) (e.count, e.count, 1)) none) c.dropped }

/-- Camera `m` delivers no more lines: its blocks in progress are truncated as LINK, its stamps are lost. -/
def State.camCut (s : State) (m : Nat) : State :=
  let s1 := (s.camSlots m).foldl (fun s j => s.truncNow j 5) s
  s1.setCam m (s1.cam m).loseStamps

/-- E_CXP_LINK, at most once per camera per 10 s (Table 6.5). -/
def State.camLink (s : State) (m : Nat) : State := s.raiseLim E_CXP_LINK m (10000 * ms) {}

/-- The camera's ports go LOST; bring-up is repeated in 1 s (R132). -/
def State.camLost (s : State) (m : Nat) : State :=
  let s1 := (s.setCamState m 4).camCut m
  (s1.setCam m { s1.cam m with retryAt := some (s1.now + 1000 * ms), testMode := false }).ctlSend m

/-- Camera `m` is switched off by a cast: OFF, its stamps lost, nothing pending. -/
def State.stopCam (s : State) (m : Nat) (ports : List Nat) : State :=
  let s1 := ports.foldl (fun s p => s.wr (R.CXP_PORT_STAT p) 0) s
  let s2 : State := { s1 with
    pocxp := { s1.pocxp with retryAt := KMap.del s1.pocxp.retryAt m }
    intk := { s1.intk with cams := KMap.put s1.intk.cams m { (s1.cam m).loseStamps with retryAt := none, testMode := false } } }
  s2.ctlSend m

/-- The linear setting in use once a receiver has adapted: the staged one in mode 2, else free (R124, log 2). -/
def State.rxeqUse (s : State) (cfg stat : Nat) : Nat :=
  if s.fld cfg 0 2 = 2 then s.fld cfg 2 4 else (Config.measure stat s.free).toNat % 16

/-- The ports of camera `m` show a speed, and with it the uplink's (Table 6.8). -/
def State.camSpeed (s : State) (m speed : Nat) : State :=
  (s.camPorts m).foldl (fun s p => (s.setFld (R.CXP_PORT_STAT p) 3 3 speed).setBit (R.CXP_PORT_STAT p) 7 (decide (5 ≤ speed))) s

/-- Discovery and the init list have succeeded on every connection: UP, its receivers adapted (R116, R124). -/
def State.camUp (s : State) (m : Nat) : State :=
  let s1 := s.setCamState m 3
  let s2 := (s1.camPorts m).foldl (fun s p => (s.wr (R.CXP_RXEQ_STAT p) (s.rxeqUse (R.CXP_RXEQ_CFG p) (R.CXP_RXEQ_STAT p))).fresh) s1
  s2.ctlSend m

/-- Entry `i` of the init list of camera `m`: camera register and value (Table 6.6). -/
def State.initEntry (s : State) (m i : Nat) : Nat × Nat := (s.rd (R.CXP_INIT m i), s.rd (R.CXP_INIT m i + 4))

/-- `acks` more writes of the init list of camera `m` are acknowledged, and the next one goes out (R116): its streams start after the last;
a write that failed ends the attempt (R132). -/
def State.camInit (s : State) (m acks : Nat) (failed : Bool) : State :=
  let len := min 256 (s.fld (R.CXP_INIT_LEN m) 0 9)
  let c := s.cam m
  let k := min len (c.initDone + acks)
  let s1 := s.setCam m { c with initDone := k, wrote := (List.range (min len (k + 1))).map (s.initEntry m) }
  if k = len then s1.camUp m else if failed then (s1.raiseLim E_CXP_PACKET m ms {}).camLost m else s1

/-- Highest speed at most `top` among those offered (R116). -/
def camSpeedOf (offered : BitVec 7) (top : Nat) : Option Nat := (List.range 7).reverse.find? (fun v => decide (v ≤ top) && offered.getLsbD v)

/-- CAMERA_DISCOVERY_DONE (R116): discovery ends on every connection of camera `c`; with all configured connections found at one common
speed its init list is written, entry by entry, and then its streams start. -/
def execCameraDiscoveryDone (t : Nat) (c : Fin 32) (d : Discovery) (s : State) : Host.Outcome State Fault Refusal :=
  let s := s.at' t
  if !s.running || !s.camOn c then done s
  else if s.camState c = 7 then done (s.camInit c d.acks d.failed)
  else if s.camState c ≠ 2 then done s
  else match (if d.conns < 2 ^ s.fld (R.CXP_PORT_CFG c) 13 2 then none else camSpeedOf d.speeds (s.fld (R.CXP_PORT_CFG c) 2 3)) with
    | none => done ((s.camLink c).camLost c)
    | some v => done (((s.setCamState c 7).camSpeed c v).camInit c d.acks d.failed)

/-- CAMERA_LINK_LOST (R132): no valid character for 10 µs, or a connection reset. -/
def execCameraLinkLost (t : Nat) (c : Fin 32) (s : State) : Host.Outcome State Fault Refusal :=
  let s := s.at' t
  if s.running ∧ s.camOn c = true ∧ (s.camState c = 3 ∨ s.camState c = 2 ∨ s.camState c = 7) then done ((s.camLink c).camLost c) else done s

/-- CAMERA_REDISCOVERY_TIMER (R132): every 1 s a lost camera repeats its bring-up. -/
def execCameraRediscoveryTimer (t : Nat) (c : Fin 32) (s : State) : Host.Outcome State Fault Refusal :=
  let s := s.at' t
  match (s.cam c).retryAt with
  | some a => if s.running ∧ s.camOn c = true ∧ s.camState c = 4 ∧ a ≤ s.now then done (s.startCam c) else done s
  | none => done s

/-! ### PoCXP (R47, R119, R120) -/

/-- The enables the next run shifts out: PoCXP ports of enabled cameras that are not in POCXP_FAULT. -/
def State.pocxpWanted (s : State) : BitVec 32 :=
  BitVec.ofNat 32 ((List.range 32).foldl (fun a k =>
    let on := s.bit (R.CXP_PORT_CFG k) 0 && s.bit (R.CXP_PORT_CFG k) 1 && decide (s.camState k ≠ 5 ∧ s.camState k ≠ 0)
    a + b2n on * 2 ^ k) 0)

/-- PoCXP faults of camera `m` in the hour up to now. -/
def State.camFaults (s : State) (m : Nat) : List Nat :=
  (KMap.getD s.pocxp.faults m []).filter (fun a => decide (s.now < a + 3600000 * ms))

/-- A fault on connection `k` stands in two runs (R120): the camera goes to POCXP_FAULT, the bit latches, and a retry is due in
10 s unless this is the third fault within an hour. -/
def State.pocxpFault (s : State) (k : Nat) : State :=
  let m := s.camOf k
  let fs := s.camFaults m ++ [s.now]
  let s1 := ((s.setCamState m 5).camCut m).setBit R.CXP_POCXP_FAULT k true
  let s2 : State := { s1 with pocxp := { s1.pocxp with
    faults := KMap.put s1.pocxp.faults m fs
    retryAt := if fs.length < 3 then KMap.put s1.pocxp.retryAt m (s1.now + 10000 * ms) else KMap.del s1.pocxp.retryAt m } }
  ((s2.raise E_POCXP_FAULT {}).camLink m).ctlSend m

/-- POCXP_CHAIN_RUN (R47): 32 enables go out, 32 fault bits come in. -/
def execPocxpChainRun (t : Nat) (faults : BitVec 32) (s : State) : Host.Outcome State Fault Refusal :=
  let s := s.at' t
  if !s.running then done s
  else
    let was := s.pocxp.enables
    let on := s.pocxpWanted
    let seen := faults &&& was
    let twice := seen &&& s.pocxp.prevFault
    let s1 : State := { s with pocxp := { s.pocxp with enables := on, prevFault := seen } }
    let s2 := (List.range 32).foldl (fun s k => s.setBit (R.CXP_PORT_STAT k) 6 (on.getLsbD k)) (s1.wr R.CXP_POCXP_ON on.toNat)
    let s3 := (List.range 32).foldl (fun s m =>
      if s.camOn m && decide (s.camState m = 1) && (s.camPorts m).all on.getLsbD then s.setCamState m 2 else s) s2
    done ((List.range 32).foldl (fun s k =>
      if twice.getLsbD k && decide (s.camState (s.camOf k) ≠ 5) then s.pocxpFault k else s) s3)

/-- POCXP_RETRY_TIMEOUT (R120): 10 s after a fault the camera is enabled again and brought up. -/
def execPocxpRetryTimeout (t : Nat) (p : Fin 32) (s : State) : Host.Outcome State Fault Refusal :=
  let s := s.at' t
  let m := s.camOf p
  match KMap.find s.pocxp.retryAt m with
  | some a =>
    if s.running ∧ a ≤ s.now ∧ s.camOn m = true ∧ s.camState m = 5 then
      done (({ s with pocxp := { s.pocxp with retryAt := KMap.del s.pocxp.retryAt m } }).startCam m)
    else done s
  | none => done s

/-- A write of `v` to `CXP_POCXP_FAULT`: each latched fault with a 1 clears, and its camera starts bring-up (R120). -/
def State.pocxpClear (s : State) (v : Nat) : State :=
  (List.range 32).foldl (fun s k =>
    if v.testBit k && s.bit R.CXP_POCXP_FAULT k then
      let m := s.camOf k
      let s1 := s.setBit R.CXP_POCXP_FAULT k false
      if s1.camOn m && decide (s1.camState m = 5) then
        ({ s1 with pocxp := { s1.pocxp with retryAt := KMap.del s1.pocxp.retryAt m } } : State).startCam m
      else s1
    else s) s

/-- POCXP_FAULT_CLEAR (R120): writing 1 to a latched fault bit clears it and starts bring-up, where the camera is enabled. -/
def execPocxpFaultClear (t : Nat) (v : W32) (s : State) : Host.Outcome State Fault Refusal :=
  let s := s.at' t
  if s.running then done (s.pocxpClear v.toNat) else done s

/-! ### Triggers (R121, R122) -/

/-- A trigger with source count `n` at device time `a` is dropped (R121, R122). -/
def State.trigDrop (s : State) (m n : Nat) : State :=
  let c := s.cam m
  (s.inc (R.CXP_TRIG_DROP m)).setCam m { c with dropped := joinGap c.dropped (n, n, 1) }

/-- ns an uplink takes for one trigger: 500,000 a second at 41.6 Mb/s, else 250,000 (R121). -/
def State.trigPeriod (s : State) (m : Nat) : Nat := if s.bit (R.CXP_PORT_STAT m) 7 then 2000 else 4000

/-- The trigger goes to the uplink, or waits for it, and enters the stamp queue; a fifth that would wait, and one that meets a
full queue, is dropped. -/
def State.trigSend (s : State) (m n a : Nat) : State :=
  let c := s.cam m
  let p := s.trigPeriod m
  let busy := c.uplink.filter (fun i => decide (s.now < i + p))
  let next := match busy.getLast? with | some i => max s.now (i + p) | none => s.now
  if 4 ≤ (busy.filter (fun i => decide (s.now < i))).length ∨ 8192 ≤ c.stamps.length then s.trigDrop m n
  else (s.inc (R.CXP_TRIG_SENT m)).setCam m
    { c with uplink := busy ++ [next], stamps := c.stamps ++ [{ lost := c.dropped, count := n, time := a }], dropped := none }

/-- TRIGGER_EDGE_REPORT (R121): the oldest edge report for camera `c` is acted on. -/
def execTriggerEdgeReport (t : Nat) (c : Fin 32) (s : State) : Host.Outcome State Fault Refusal :=
  let s := s.at' t
  let k := s.cam c
  match k.edges with
  | [] => done s
  | (n, a, lost) :: rest =>
    if !s.running then done s
    else
      let s1 := s.setCam c { k with edges := rest }
      if lost || decide (s1.camState c ≠ 3) then done (s1.trigDrop c n) else done (s1.trigSend c n a)

/-! ### Control mailbox (R118) -/

/-- A write of `v` to `CXP_CTL_CMD`: with go set, while the host is attached and no command is outstanding, it is taken; during
bring-up it waits. -/
def State.ctlGo (s : State) (v : Nat) : State :=
  if v.testBit 6 ∧ s.attached = true ∧ s.intk.ctl = none then
    let m := v % 32
    let st := s.camState m
    let op : CtlOp := { port := m, write := v.testBit 5, addr := s.rd R.CXP_CTL_ADDR, data := s.rd R.CXP_CTL_DATA,
                        held := decide (st = 1 ∨ st = 2 ∨ st = 7), sentAt := s.now }
    ({ (s.wr R.CXP_CTL_CMD (v % 64)) with intk := { s.intk with ctl := some op } }).wr R.CXP_CTL_STAT 1
  else s.wr R.CXP_CTL_CMD (v % 64)

/-- CXP_CTL_READ (R118): go with the read bit. -/
def execCxpCtlRead (t : Nat) (v : W32) (s : State) : Host.Outcome State Fault Refusal :=
  let s := s.at' t
  if s.running then done (s.ctlGo v.toNat) else done s

/-- CXP_CTL_WRITE (R118): go with the write bit. -/
def execCxpCtlWrite (t : Nat) (v : W32) (s : State) : Host.Outcome State Fault Refusal :=
  let s := s.at' t
  if s.running then done (s.ctlGo v.toNat) else done s

/-- A mailbox command has no good acknowledgement: it is sent again, up to three times, then it has failed (Table 6.5). -/
def State.ctlAgain (s : State) (c : CtlOp) : State :=
  if c.resends < 3 then { s with intk := { s.intk with ctl := some { c with resends := c.resends + 1, sentAt := s.now } } }
  else (({ s with intk := { s.intk with ctl := none } }).wr R.CXP_CTL_STAT 3).raiseLim E_CXP_PACKET c.port ms {}

/-- CXP_CTL_ACK (R118): the camera's acknowledgement completes the command; one that fails its check (`ok`) has it sent again (R132). A
write to the camera's test-mode register sets or ends its test mode (R129; log 2). -/
def execCxpCtlAck (t : Nat) (code : BitVec 8) (a : CtlAck) (s : State) : Host.Outcome State Fault Refusal :=
  let s := s.at' t
  match s.intk.ctl with
  | none => done s
  | some c =>
    if !s.running || c.held then done s
    else if !a.ok then done (s.ctlAgain c)
    else
      let s1 := ({ s with intk := { s.intk with ctl := none } }).wr R.CXP_CTL_STAT (2 + code.toNat * 256)
      if !c.write then done (s1.wr R.CXP_CTL_DATA a.data.toNat)
      else if code = 0 ∧ c.addr = Config.testModeReg.toNat then done (s1.setCam c.port { s1.cam c.port with testMode := decide (c.data ≠ 0) })
      else done s1

/-- CXP_CTL_ACK_TIMEOUT (R132): resent up to three times at 100 ms, then failed. -/
def execCxpCtlAckTimeout (t : Nat) (s : State) : Host.Outcome State Fault Refusal :=
  let s := s.at' t
  match s.intk.ctl with
  | none => done s
  | some c => if !s.running || c.held || decide (s.now < c.sentAt + 100 * ms) then done s else done (s.ctlAgain c)

/-- CAMERA_EVENT_PACKET (Table 6.2): an event or heartbeat packet is logged, no action is taken; the record's words are free, and its code
is `E_NONE`, since Table 4.9 has none for it: a DESIGN CHOICE (log 108). -/
def execCameraEventPacket (t : Nat) (p : Fin 32) (s : State) : Host.Outcome State Fault Refusal :=
  let s := s.at' t
  if s.running ∧ s.camState (s.camOf p) = 3 then done (s.logWrite E_NONE (s.evWords E_NONE {})).fresh else done s

/-! ### PRBS (R129) -/

/-- The PRBS checker of port `p` is active: raw patterns while the port's live enable is 0, test packets while it is UP and its camera in
test mode. -/
def State.prbsActive (s : State) (p : Nat) : Bool :=
  let m := s.fld (R.CXP_PRBS_CTRL p) 0 3
  if m = 0 then false
  else if m = 7 then decide (s.fld (R.CXP_PORT_STAT p) 0 3 = 3) && (s.cam (s.camOf p)).testMode
  else !s.bit (R.CXP_PORT_CFG p) 0

/-- The locked checker of port `p` has checked `bits` bits, `errs` of them in error. -/
def State.prbsCount (s : State) (p bits errs : Nat) : State :=
  (s.wr64 (R.CXP_PRBS_BITS p) (s.rd64 (R.CXP_PRBS_BITS p) + bits)).wr (R.CXP_PRBS_ERR p) (min (2 ^ 32 - 1) (s.rd (R.CXP_PRBS_ERR p) + errs))

/-- PRBS_LOCK (R129): 64 error-free bits in a row; the checker counts from there, its errors from 0, and counts on while it stays
locked. -/
def execPrbsLock (t : Nat) (p : PrbsRun) (s : State) : Host.Outcome State Fault Refusal :=
  let s := s.at' t
  if s.running ∧ s.prbsActive p.port = true then
    let s1 := if s.bit (R.CXP_PRBS_STAT p.port) 0 then s else (s.setBit (R.CXP_PRBS_STAT p.port) 0 true).wr (R.CXP_PRBS_ERR p.port) 0
    done (s1.prbsCount p.port p.bits p.errs)
  else done s

/-- PRBS_RELOCK (R129): 1,024 bits with at least half in error; the relock is counted with the bits and errors since the last
count, and the checker looks for lock again. -/
def execPrbsRelock (t : Nat) (p : Fin 32) (bits errs : Nat) (s : State) : Host.Outcome State Fault Refusal :=
  let s := s.at' t
  if s.running ∧ s.prbsActive p = true ∧ s.bit (R.CXP_PRBS_STAT p) 0 = true then
    done (((s.prbsCount p bits errs).incSat (R.CXP_PRBS_STAT p) 8 8).setBit (R.CXP_PRBS_STAT p) 0 false)
  else done s

/-- A write of `v` to `CXP_PRBS_CTRL`: the mode, and with clear the counters and lock. -/
def State.prbsWrite (s : State) (p v : Nat) : State :=
  let s1 := s.wr (R.CXP_PRBS_CTRL p) (v % 8)
  if v.testBit 3 then ((s1.wr (R.CXP_PRBS_STAT p) 0).wr (R.CXP_PRBS_ERR p) 0).wr64 (R.CXP_PRBS_BITS p) 0 else s1

/-- PRBS_CLEAR (R129): the port's PRBS counters and lock are cleared. -/
def execPrbsClear (t : Nat) (p : Fin 32) (v : W32) (s : State) : Host.Outcome State Fault Refusal :=
  let s := s.at' t
  if s.running then done (s.prbsWrite p v.toNat) else done s

/-! ### Eye scans (R126, R127) -/

/-- Base of the eye-scan registers of engine `e`: 0 `CXP_`, 1 `LNK_`. -/
def eyeBase (e : Nat) : Nat := if e = 0 then R.CXP_EYE_CTRL else R.LNK_EYE_CTRL

/-- Result word `n` of engine `e`. -/
def eyeRes (e n : Nat) : Nat := if e = 0 then R.CXP_EYE_RES n else R.LNK_EYE_RES n

/-- Lanes an engine can scan: 32 camera downlinks; 8 Nolox, 8 PCIe and the plant lane. -/
def eyeLanes (e : Nat) : Nat := if e = 0 then 32 else 17

/-- Points of an axis from first to last by step. -/
def axisPoints (first last : Int) (step : Nat) : Nat := ((last - first) / (max 1 step : Nat)).toNat + 1

/-- The scan the registers of engine `e` ask for with control word `v`; none where R126 refuses it. -/
def State.eyeAsk (s : State) (e v : Nat) : Option EyeScan :=
  let ph := s.rd (eyeBase e + 4)
  let vo := s.rd (eyeBase e + 8)
  let p0 : Nat := ph % 64
  let p1 : Nat := ph / 2 ^ 8 % 64
  let ps := ph / 2 ^ 16 % 64
  let v0 := sextI vo 8
  let v1 := sextI (vo / 2 ^ 8) 8
  let vs := vo / 2 ^ 16 % 128
  let dwell := v / 2 ^ 8 % 64
  let np := axisPoints p0 p1 ps
  let nv := axisPoints v0 v1 vs
  if p1 < p0 ∨ v1 < v0 ∨ ps = 0 ∨ vs = 0 ∨ v0 = -128 ∨ v1 = -128 ∨ dwell < 10 ∨ 40 < dwell ∨ eyeLanes e ≤ v % 256
      ∨ 4096 < np * nv then none
  else some { lane := v % 256, dwell := dwell, phase := (p0, ps, np), volt := (v0, vs, nv) }

/-- A write of `v` to `*_EYE_CTRL` of engine `e`: abort ends a running scan; start begins one where none runs, or sets BADARG.
The grid's result words read "never written" until their points are done. -/
def State.eyeWrite (s : State) (e v : Nat) : State :=
  let s1 := s.wr (eyeBase e) (v % 2 ^ 14)
  let stat := eyeBase e + 12
  match KMap.find s.intk.eye e with
  | some _ =>
    if v.testBit 17 then
      (({ s1 with intk := { s1.intk with eye := KMap.del s1.intk.eye e } }).setFld stat 0 2 2).setBit stat 2 true
    else s1
  | none =>
    if v.testBit 16 then
      match s.eyeAsk e v with
      | none => s1.wr stat 3
      | some k =>
        let s2 := (List.range (k.phase.2.2 * k.volt.2.2)).foldl (fun s n => s.wr (eyeRes e n) (3 * 2 ^ 30)) (s1.wr stat 1)
        { s2 with intk := { s2.intk with eye := KMap.put s2.intk.eye e k } }
    else s1

/-- EYE_SCAN_START (R126): start sets off a scan, or BADARG. -/
def execEyeScanStart (t : Nat) (e : Fin 2) (v : W32) (s : State) : Host.Outcome State Fault Refusal :=
  let s := s.at' t
  if s.running then done (s.eyeWrite e v.toNat) else done s

/-- EYE_SCAN_ABORT (R126): a running scan ends at its current point. -/
def execEyeScanAbort (t : Nat) (e : Fin 2) (v : W32) (s : State) : Host.Outcome State Fault Refusal :=
  let s := s.at' t
  if s.running then done (s.eyeWrite e v.toNat) else done s

/-- Status of a point on a lane: 1 not up, 2 retrained or idle during the point, 0 valid (Table 6.3). -/
def State.eyeStatus (s : State) (e lane : Nat) (disturbed : Bool) : Nat :=
  let st := s.fld (R.LNK_NLX_LANE_STAT lane) 0 3
  let up := if e = 0 then decide (s.fld (R.CXP_PORT_STAT lane) 0 3 = 3)
    else if lane < 8 then decide (st = 2 ∨ st = 3 ∨ st = 4)
    else if lane < 16 then s.pcieLane (lane - 8) else s.bit R.LNK_PLT_LANE_STAT 0
  if !up then 1 else if disturbed || (decide (e = 1 ∧ lane < 8) && (decide (st = 4) || (s.lane lane).rxIdle)) then 2 else 0

/-- EYE_SCAN_POINT_DONE (R127): a point's result is written, phase-major; the scan moves on or ends. -/
def execEyeScanPointDone (t : Nat) (e : Fin 2) (errs : Nat) (disturbed : Bool) (s : State) : Host.Outcome State Fault Refusal :=
  let s := s.at' t
  match KMap.find s.intk.eye e with
  | none => done s
  | some k =>
    if !s.running then done s
    else
      let nv := k.volt.2.2
      let p := k.phase.1 + k.next / nv * k.phase.2.1
      let up : Nat := k.next % nv * k.volt.2.1
      let v : Int := k.volt.1 + (up : Int)
      let w := min 65535 errs + p % 64 * 2 ^ 16 + wrapI v 8 * 2 ^ 22 + s.eyeStatus e k.lane disturbed * 2 ^ 30
      let stat := eyeBase e + 12
      let s1 := (s.wr (eyeRes e k.next) w).setFld stat 16 13 (k.next + 1)
      if k.next + 1 < k.phase.2.2 * nv then
        done { s1 with intk := { s1.intk with eye := KMap.put s1.intk.eye e { k with next := k.next + 1 } } }
      else done (({ s1 with intk := { s1.intk with eye := KMap.del s1.intk.eye e } }).setFld stat 0 2 2)

end Sys2Proof.Machine
end

