-- ==== Sys2Proof/Machine/Bundle.lean ====
section
/-! DEFINITION. Model bundles (R446, R447): the layout of a bundle, its content key, and its clear text. The primitives SHA-384, ECDSA, ECDH
and AES-256-GCM are opaque functions of the Config (log 3). -/

namespace Sys2Proof.Machine

/-- Bytes `[off, off + n)` of a message. -/
def cut (bs : List Byte) (off n : Nat) : List Byte := (bs.drop off).take n

/-- Bytes `[off, off + n)` of a message as a number. -/
def numAt (bs : List Byte) (off n : Nat) : Nat := leNum (cut bs off n)

/-- A signature `sig` verifies over `msg` under the public key `key` (R443). -/
def sigOk (key : Nat) (msg : List Byte) (sig : Nat) : Bool :=
  Config.ecdsaVerify (BitVec.ofNat 768 key) (Config.sha384 msg) (BitVec.ofNat 768 sig)

/-- The first 32 bytes of HKDF-SHA-384 (R447): extract with the salt, then expand. -/
def hkdf32 (salt ikm info : List Byte) : List Byte := hkdfExpand (hmac384 salt ikm) info 32

/-- The text "LX-9640 bundle v1" (R447). -/
def bundleInfo : List Byte := [0x4C, 0x58, 0x2D, 0x39, 0x36, 0x34, 0x30, 0x20, 0x62, 0x75, 0x6E, 0x64, 0x6C, 0x65, 0x20, 0x76, 0x31]

/-- Bytes of a bundle's header (Table 20.5). -/
def bundleHdr : Nat := 0x400

/-- The content key of the bundle with header `h` (R447): Z is the X coordinate of the ECDH product of BK and E, 48 bytes in the order of R8
(DEDUCED, log 3). -/
def bundleKey (h : List Byte) : List Byte :=
  hkdf32 (cut h 0xD0 48) (leBytes (bkEcdh (BitVec.ofNat 768 (numAt h 0x70 96))).toNat 48) bundleInfo

/-- The clear text of the bundle delivered as `bs` where its tag passes (R446, R447): the additional data are bytes 0x000–0x28F. -/
def bundleClear (bs : List Byte) : Option (List Byte) :=
  Config.gcmOpen (bundleKey bs) (cut bs 0x100 12) (bs.take 0x290) (bs.drop bundleHdr) (cut bs 0x290 16)

/-- The signature of the bundle delivered as `bs` verifies, over bytes 0x000–0x39F and the ciphertext (Table 20.5). -/
def bundleSigned (bs : List Byte) : Bool :=
  sigOk (numAt bs 0x10 96) (bs.take 0x3A0 ++ bs.drop bundleHdr) (numAt bs 0x3A0 96)

/-- A stored bundle is what its digest names: the comparison and the signature check of restore (R65). -/
def Bundle.sound (b : Bundle) : Bool := (Config.sha384 b.data).toNat == b.digest && bundleSigned b.data && (bundleClear b.data).isSome

/-- `n` bytes from offset `off` of the clear text of the loaded bundle that digest `d` names (R448, R449). -/
def State.bundlePage (s : State) (d : Option (BitVec 384)) (off n : Nat) : List Byte :=
  match s.sec.bundles.find? (fun b => b.loaded && some b.digest == d.map (fun v => v.toNat)) with
  | some b => cut ((bundleClear b.data).getD []) off n
  | none => []

end Sys2Proof.Machine
end

