-- ==== Sys2Proof/Machine/Orders.lean ====
section
/-! DEFINITION. The orders of the command window (Table 4.4, R83) and the start barriers (R358). -/

namespace Sys2Proof.Machine

/-! ### What every order shares -/

/-- Word `i` (2–15) of an order. -/
def Order.w (o : Order) (i : Nat) : Nat := nth o.args (i - 2) 0

/-- Argument words 2–15 hold no bit outside the given masks; a word with no mask must be 0 (R83). -/
def Order.only (o : Order) (masks : List Nat) : Bool :=
  (List.range 14).all (fun i => Nat.land (nth o.args i 0) (2 ^ 32 - 1 - nth masks i 0) == 0)

/-- The refusal R83 gives whatever the order: for its context, then for its reserved bits. 0 for none. A context that failed
refuses with the code that failed it (R83; log 26). -/
def State.orderRefusal (s : State) (o : Order) : Nat :=
  if 64 ≤ o.opcode then
    match s.ctx o.ctx with
    | none => E_CMD_CTX
    | some c =>
      if c.st = 6 then c.code
      else if c.restored ∧ o.opcode ≠ 0x40 then E_CMD_CTX
      else if o.rsv ≠ 0 then E_CMD_ARG else 0
  else if o.rsv ≠ 0 ∨ o.ctx ≠ 0 then E_CMD_ARG else 0

/-- Run the order of queue `q` with sequence number `seq` and opcode `op` where it may start (R81): it starts, is refused by
R83, or has the effect `body`. -/
def runOrder (t : Nat) (q : Fin 16) (seq : BitVec 16) (op : Nat) (body : State → Order → State) (s : State) :
    Host.Outcome State Fault Refusal :=
  let s0 := s.at' t
  match s0.orderReady q seq.toNat op with
  | none => done s0
  | some o =>
    let s1 := s0.orderStart o
    let o1 : Order := { o with started := true }
    let r := s1.orderRefusal o
    if r ≠ 0 then done (s1.complete o1 r (if 64 ≤ op then o.ctx else 0)) else done (body s1 o1)

/-! ### Orders without a context -/

/-- `NOP` (R81). -/
def execNop (t : Nat) (q : Fin 16) (seq : BitVec 16) (s : State) : Host.Outcome State Fault Refusal :=
  runOrder t q seq 0x00 (fun s o => s.complete o (if o.only [] then E_NONE else E_CMD_ARG)) s

/-- `QUEUE_BIND` (R82): only on queue 0, and not of queue 0. With an argument out of range as well, the code is `E_CMD_ARG`: a DESIGN
CHOICE (log 27). -/
def execQueueBind (t : Nat) (q : Fin 16) (seq : BitVec 16) (s : State) : Host.Outcome State Fault Refusal :=
  runOrder t q seq 0x01 (fun s o =>
    let w := o.w 2
    if !o.only [0x1FF] ∨ 7 < w / 16 % 16 then s.complete o E_CMD_ARG
    else if o.queue ≠ 0 ∨ w % 16 = 0 then s.complete o E_CMD_QUEUE
    else
      let a := R.CMD_Q_HEAD (w % 16)
      ((s.setBit a 24 (w.testBit 8)).setFld a 25 4 (w / 16 % 16)).complete o E_NONE) s

/-- The arguments of `RING_SETUP` are in range (Table 4.4). -/
def ringArgsOk (o : Order) : Bool :=
  let lg := o.w 4 % 32
  o.only [0xFFFFF000, 0xFFFFFFFF, 0xF1F, 0xFF, 0x3FF] && decide (6 ≤ lg ∧ lg ≤ 16 ∧ o.w 4 / 256 % 16 ≤ 8 ∧ 1 ≤ o.w 5 ∧ o.w 5 ≤ 255 ∧ o.w 6 ≤ 1000)

/-- `RING_SETUP` (R80, R90): the result of ring 0's own set-up is its first entry; the backlog follows into ring 0, or into
the event ring. The ring's head register is set to 0, the first entry the host will read: a DESIGN CHOICE (log 105). -/
def execRingSetup (t : Nat) (q : Fin 16) (seq : BitVec 16) (s : State) : Host.Outcome State Fault Refusal :=
  runOrder t q seq 0x02 (fun s o =>
    if !ringArgsOk o then s.complete o E_CMD_ARG
    else
      let r := o.w 4 / 256 % 16
      let g : Ring := { base := o.w 2 + 2 ^ 32 * o.w 3, log2 := o.w 4 % 32, count := o.w 5, timeUs := o.w 6 }
      let s1 := ({ s with host := { s.host with rings := KMap.put s.host.rings r g } }).wr (if r = 8 then R.CMD_EVT_HEAD else R.CMD_RR_HEAD r) 0
      if r = 0 ∧ o.ring = some 0 then
        let e : RingEntry := { seq := o.seq, opcode := o.opcode, queue := o.queue, code := E_NONE, tag := o.tag,
                               timeS := lo32 s1.devS, timeNs := s1.devNs }
        ((s1.orderEnd o).ringWrite 0 e).deliver
      else ((s1.complete o E_NONE).deliver).reportLost) s

/-- Pages on the host tier: their 2 MiB frames (R194). -/
def State.tierPages (s : State) : List Nat := ((s.fab.pt2.filter (fun e => e.2.onHost)).map Prod.fst)

/-- Withdraw the host tier: each page on it goes to a free frame of device memory (R195); the number of frames missing where
there are too few. -/
def State.tierWithdraw (s : State) : State ⊕ Nat :=
  let ks := s.tierPages
  let fs := if ks = [] then [] else s.freeFrames
  if fs.length < ks.length then .inr (ks.length - fs.length)
  else
    let base := s.rd64 R.MEM_HOST_TIER_BASE
    let s1 := (List.range ks.length).foldl (fun s i =>
      let k := nth ks i 0
      let f := nth fs i 0 * 2 ^ 21
      match KMap.find s.fab.pt2 k with
      | none => s
      | some p =>
        { s with fab := { s.fab with pt2 := KMap.put s.fab.pt2 k { p with tier := 0, frame := f, back := false },
                                     dram := moveBytes s.hostMem s.fab.dram (base + p.frame) f (2 ^ 21) } }) s
    .inl ((s1.wr64 R.MEM_HOST_TIER_BASE 0).wr R.MEM_HOST_TIER_SIZE 0)

/-- `HOST_TIER` (R195): the tier in place is withdrawn first; size 0 leaves none. -/
def execHostTier (t : Nat) (q : Fin 16) (seq : BitVec 16) (s : State) : Host.Outcome State Fault Refusal :=
  runOrder t q seq 0x03 (fun s o =>
    let size := o.w 4 + 2 ^ 32 * o.w 5
    if !o.only [0xFFFFFFFF, 0xFFFFFFFF, 0xFFFFFFFF, 0xFFFFFFFF] ∨ size % 2 ^ 21 ≠ 0 then s.complete o E_CMD_ARG
    else match s.tierWithdraw with
      | .inr k => s.complete o E_CMD_ARG 0 k
      | .inl s1 =>
        if size = 0 then s1.complete o E_NONE
        else ((s1.wr64 R.MEM_HOST_TIER_BASE (o.w 2 + 2 ^ 32 * o.w 3)).wr R.MEM_HOST_TIER_SIZE (size / 2 ^ 20)).complete o E_NONE) s

/-- `BAR2_MAP` (R77): map or unmap a slot; the context named must exist, for an unmap as well. Reserved bits are judged before the
context that the argument names: DESIGN CHOICES (log 27). -/
def execBar2Map (t : Nat) (q : Fin 16) (seq : BitVec 16) (s : State) : Host.Outcome State Fault Refusal :=
  runOrder t q seq 0x04 (fun s o =>
    let w := o.w 2
    let slot := w % 64
    let x := w / 64 % 16
    let base := o.w 3 + 2 ^ 32 * o.w 4
    if !o.only [0xFFF, 0xFFFFFFFF, 0xFFFFFFFF] ∨ base % 2 ^ 30 ≠ 0 ∨ 2 ^ 48 ≤ base then s.complete o E_CMD_ARG
    else if (s.ctx x).isNone then s.complete o E_CMD_CTX
    else if w.testBit 11 then
      ({ s with host := { s.host with bar2 := KMap.del s.host.bar2 slot } }).complete o E_NONE
    else
      ({ s with host := { s.host with
          bar2 := KMap.put s.host.bar2 slot { ctx := x, writable := w.testBit 10, base := base } } }).complete o E_NONE) s

/-- The flasks an order's mask names: bit n is the n-th flask in use (R317). -/
def State.maskFlasks (s : State) (m : Nat) : BitVec 32 :=
  let fs := s.flasksUsed
  maskOf ((List.range fs.length).filterMap (fun i => if m.testBit i then some (nth fs i 0) else none))

/-- The lowest free context number (R317). -/
def State.freeCtx (s : State) : Option Nat := (List.range 16).find? (fun x => x != 0 && (s.ctx x).isNone)

/-- `CTX_CREATE` (R317, R329). -/
def execCtxCreate (t : Nat) (q : Fin 16) (seq : BitVec 16) (s : State) : Host.Outcome State Fault Refusal :=
  runOrder t q seq 0x05 (fun s o =>
    let w := o.w 2
    let cls := w % 4
    let slice := o.w 3
    let sliceOk := if cls = 1 then slice = 0 else slice = 0 ∨ (100 ≤ slice ∧ slice ≤ 100000 ∧ slice % 10 = 0)
    let mask := s.maskFlasks (o.w 4)
    if !o.only [0x73, 0xFFFFFFFF, 0xFFFFFFFF] ∨ cls = 0 ∨ cls = 3 ∨ ¬ sliceOk ∨ mask = 0 then s.complete o E_CMD_ARG
    else match s.freeCtx with
      | none => s.complete o E_CMD_CTX
      | some x =>
        let c : Ctx := { cls := cls, prio := w / 16 % 8, slice := if cls = 2 ∧ slice = 0 then 1000 else slice, mask := mask }
        let need := reserveUnits c * 65536
        if s.memFree < need then s.complete o E_CMD_ARG 0 ((need - s.memFree + 65535) / 65536)
        else
          let s1 : State := { s with sch := { s.sch with ctxs := KMap.put s.sch.ctxs x c } }
          (s1.lineRuns).complete o E_NONE 0 x) s

/-- Programs that a configuration `rd` names by enabled classes, where a register of the class is among those of `on` (R97). -/
def State.namedProgs (s : State) (rd : Nat → Nat) (on : Nat → Bool) : List LoadedProg :=
  (List.range 64).filterMap (fun c =>
    if rd (R.LIN_CLASS c) % 2 == 1 && on (R.LIN_CLASS c) then s.program (rd (R.LIN_CLASS c + 8) % 65536) else none)

/-- A configuration `rd` names context `x`: by the program of an enabled class, a capture ring, or a feed or tap ring of an enabled slot,
where a register that names it or enables it is among those of `on` (R97). -/
def State.namesCtx (s : State) (rd : Nat → Nat) (on : Nat → Bool) (x : Nat) : Bool :=
  (s.namedProgs rd on).any (fun l => l.ctx == x)
    || (List.range 64).any (fun c =>
      let capt := R.RUN_CAPT_CFG 0 c
      let src := R.RUN_SRC (c / 4) (c % 4)
      let feed := R.RUN_FEED_CFG (c / 4) (c % 4)
      let tap := R.RUN_TAP_CFG (c / 4) (c % 4)
      (rd capt % 2 == 1 && rd (R.LIN_CLASS c) % 2 == 1 && rd capt / 2 ^ 17 % 16 == x && (on capt || on (R.LIN_CLASS c)))
        || (rd src % 2 == 1 && rd src / 2 % 2 == 1 && rd feed / 256 % 16 == x && (on src || on feed))
        || (rd src % 2 == 1 && rd tap % 2 == 1 && rd tap / 65536 % 16 == x && (on src || on tap)))

/-- The pending cast set, and the configuration that would result from it (R97). -/
def State.castCtx (s : State) : Option ((Nat → Nat) × (Nat → Bool)) :=
  match s.stage.pend with
  | some p => if p.arm ∧ s.fld R.STG_STATUS 0 3 = 2 then
      some (fun a => match KMap.find p.set a with | some v => v.toNat | none => s.rd a, fun a => (KMap.find p.set a).isSome) else none
  | none => none

/-- Context `x` is pinned by the pending cast set, whose registers name it (R97). -/
def State.pinnedByCast (s : State) (x : Nat) : Bool :=
  match s.castCtx with | some c => s.namesCtx c.1 c.2 x | none => false

/-- Context `x` is pinned by the live configuration or a generation an open piece refers to (R97). -/
def State.pinnedLive (s : State) (x : Nat) : Bool := s.gensUsed.any (fun g => s.namesCtx (s.cfg g) (fun _ => true) x)

/-- `CTX_DESTROY` (R324): every other open order of the context completes with `E_CMD_CTX`, its pours stop, and it goes once
its last command has completed; a pinned context is refused (R97). Reserved bits are judged before the context: a DESIGN CHOICE (log 27). -/
def execCtxDestroy (t : Nat) (q : Fin 16) (seq : BitVec 16) (s : State) : Host.Outcome State Fault Refusal :=
  runOrder t q seq 0x06 (fun s o =>
    let x := o.w 2 % 16
    if !o.only [0xF] then s.complete o E_CMD_ARG
    else match s.ctx x with
      | none => s.complete o E_CMD_CTX
      | some c =>
        if x = 0 ∨ c.restored then s.complete o E_CMD_CTX
        else if s.pinnedByCast x then s.complete o E_CAST_PENDING
        else if s.pinnedLive x then s.complete o E_CMD_CTX
        else ((s.completeCtx x E_CMD_CTX (some o.id)).stopPours x E_CMD_CTX).destroyCheck x) s

/-- One bit per context that satisfies a test. -/
def State.ctxBits (s : State) (f : Ctx → Bool) : Nat :=
  s.sch.ctxs.foldl (fun a e => if f e.2 then a + 2 ^ e.1 else a) 0

/-- `CTX_LIST` (Table 4.4): contexts that exist, and those chilled. -/
def execCtxList (t : Nat) (q : Fin 16) (seq : BitVec 16) (s : State) : Host.Outcome State Fault Refusal :=
  runOrder t q seq 0x07 (fun s o =>
    if !o.only [] then s.complete o E_CMD_ARG
    else s.complete o E_NONE 0 (s.ctxBits (fun _ => true)) (s.ctxBits (fun c => c.st == 4))) s

/-- `FACTORY_NEXT` (R67): the factory state at the next boot. -/
def execFactoryNext (t : Nat) (q : Fin 16) (seq : BitVec 16) (s : State) : Host.Outcome State Fault Refusal :=
  runOrder t q seq 0x08 (fun s o =>
    if !o.only [] then s.complete o E_CMD_ARG
    else ({ s with boot := { s.boot with factoryNext := true } }).complete o E_NONE) s

/-- `DEVICE_RESET` (R83): after its result, Cuette resets as by `MOD_RESET#`, with boot cause 5. -/
def execDeviceReset (t : Nat) (q : Fin 16) (seq : BitVec 16) (s : State) : Host.Outcome State Fault Refusal :=
  runOrder t q seq 0x09 (fun s o =>
    if !o.only [0xFFFFFFFF] ∨ o.w 2 ≠ 0x5E7A0001 then s.complete o E_CMD_ARG
    else (s.complete o E_NONE).failAndHold 0 5) s

/-! ### Loading a program -/

/-- A leaf of context `x` already uses the frame at `f`. -/
def State.ownFrame (s : State) (x f len : Nat) : Bool :=
  s.fab.pt2.any (fun e => e.1 / 2 ^ 27 == x && e.2.inDram && overlap (e.2.frame, 2 ^ 21) (f, len))
    || s.fab.pt4.any (fun e => e.1 / 2 ^ 36 == x && e.2.inDram && overlap (e.2.frame, 2 ^ 12) (f, len))

/-- Where the page of `m` goes in context `x`, with its contents (R172, R194): host memory that a JOB context may name (R74); the host tier,
for a 2 MiB page of a JOB context for which device memory has no free frame; else the frame SCH gives it, in the memory that contexts use
(R178), zeroed where it comes from another context. A page with no such place is not mapped. -/
def State.placePage (s : State) (x : Nat) (m : MapDecl) : Option (State × Pte) :=
  let len := if m.big then 2 ^ 21 else 2 ^ 12
  let job := match s.ctx x with | some c => c.cls == 2 | none => false
  let tier := if job && m.big && !m.bundle && decide (0 < s.rd R.MEM_HOST_TIER_SIZE) && s.attached && s.freeFrames.isEmpty then s.tierFree else none
  if m.host then (if job then some (s, { frame := m.frame, w := m.w, host := true }) else none)
  else match tier with
    | some f =>
      let a := s.rd64 R.MEM_HOST_TIER_BASE + f
      some ({ s with hostMem := Mem.writeBytes (Mem.zero s.hostMem a len) a (m.data.take len) }, { frame := f, w := m.w, tier := 1 })
    | none =>
      if dramEnd < m.frame + len then none
      else
        let s1 := if s.ownFrame x m.frame len then s else { s with fab := { s.fab with dram := Mem.zero s.fab.dram m.frame len } }
        some (s1.pwrite m.frame (m.data.take len), { frame := m.frame, w := m.w && !m.bundle, prot := m.bundle })

/-- Map the pages a program brings into its context, with their contents (R184, R449): a bundle's pages are read-only and
protected. -/
def State.mapPages (s : State) (x : Nat) (ms : List MapDecl) : State :=
  ms.foldl (fun s m =>
    match s.placePage x m with
    | none => s
    | some (s1, p) =>
      let s2 := (if m.big then { s1 with fab := { s1.fab with pt2 := KMap.put s1.fab.pt2 (x * 2 ^ 27 + m.va / 2 ^ 21 % 2 ^ 27) p } }
                 else { s1 with fab := { s1.fab with pt4 := KMap.put s1.fab.pt4 (x * 2 ^ 36 + m.va / 2 ^ 12 % 2 ^ 36) p } } : State)
      match s2.ctx x with
      | none => s2
      | some c => s2.setCtx x { c with ranges := c.ranges ++ [(m.va, if m.big then 2 ^ 21 else 4096)] }) s

/-- Load a program into context `x` under the next ID: its pages, its banks where it is a LINE program with digests (R346),
its stripes (R287), and the regions it grants to window frames (R431). -/
def State.loadProg (s : State) (x : Nat) (g : Program) : State :=
  let id := s.sch.nextProg
  let line := match s.ctx x with | some c => c.cls == 1 | none => false
  let s0 := s.mapPages x (g.maps.map (fun m =>
    if m.bundle then { m with data := s.bundlePage g.bundle m.off (if m.big then 2 ^ 21 else 2 ^ 12) } else m))
  let s1 : State := { s0 with chain := { s0.chain with grants := s0.chain.grants ++ g.chainGrants.map (fun e =>
    { src := e.1, srcCtx := e.2.1, ctx := x, base := e.2.2.1, size := e.2.2.2 }) } }
  let s2 : State := { s1 with sch := { s1.sch with progs := s1.sch.progs ++ [{ id := id, ctx := x, prog := g }], nextProg := id + 1 } }
  let s3 := if line then s2.takeBanks (s2.freeBanks.take (banksNeeded g)) x 0 (id + 1) else s2
  (s3.restripe []).linePours

/-! ### Orders of a context -/

/-- `PROG_LOAD` (R319) waits while SC is absent (R456), and while a LINE program finds too few free digest banks (R346);
otherwise it starts, and is loaded or refused. -/
def execProgLoad (t : Nat) (q : Fin 16) (seq : BitVec 16) (p : Program) (s : State) : Host.Outcome State Fault Refusal :=
  let s0 := s.at' t
  match s0.orderReady q seq.toNat 0x40 with
  | none => done s0
  | some o =>
    let waits := !s0.scUp || (match s0.ctx o.ctx with
      | some c => c.cls == 1 && (s0.progRefusal o.ctx c p).isNone && decide (s0.freeBanks.length < banksNeeded p)
      | none => false)
    if waits then done s0
    else runOrder t q seq 0x40 (fun s o =>
      match s.ctx o.ctx with
      | none => s.complete o E_CMD_CTX o.ctx
      | some c =>
        match s.progRefusal o.ctx c p with
        | some r => s.complete o r.1 o.ctx r.2
        | none => (s.loadProg o.ctx p).complete o E_NONE o.ctx s.sch.nextProg) s

/-- The fields of `POUR_START` are in range (Table 16.3). -/
def pourArgsOk (o : Order) : Bool :=
  o.only [0x3FFFFF, 0xFFFFFFC0, 0xFFFF, 0x7F, 0xFFFFFFC0, 0xFFFF, 0x7F, 0xFFFFFFFF, 0xFFFFFFFF, 0xFF]
    && decide (o.w 5 ≤ 64) && decide (o.w 8 ≤ 64)

/-- The pour kept for its bank goes with the context's next `POUR_START` (R348). -/
def State.dropKept (s : State) (x : Nat) : State :=
  (s.sch.pours.filter (fun p => p.ctx == x && p.st == 4)).foldl (fun s p =>
    let s1 := s.dropBanks p.banks
    { s1 with sch := { s1.sch with pours := s1.sch.pours.filter (fun e => e.id != p.id) } }) s

/-- Entries of a `POUR_START` table (R351): virtual address, length and tensor ID of each; one whose address does not translate is none. -/
def State.pourTable (s : State) (x : Nat) (tab : Nat × Nat) : List (Nat × Nat × Nat) :=
  (List.range tab.2).filterMap (fun k =>
    let a := tab.1 + 32 * k
    match s.xlate x a false false with
    | .ok _ => let bs := s.vreadBytes x a 32; some (leAt bs 0 8 % 2 ^ 48, leAt bs 8 4, leAt bs 12 2)
    | _ => none)

/-- The pieces of a replay pour (R352): each piece entry of its input table goes with the capture record in the same place among those, whose
rows make its tokens (DESIGN CHOICE, log 116). -/
def State.replayPieces (s : State) (x : Nat) (g : Program) (ins : List (Nat × Nat × Nat)) : List RePiece :=
  let caps := ins.filter (fun e => e.2.2 == g.replayIds.1)
  let ps := ins.filter (fun e => e.2.2 == g.replayIds.2.1)
  (List.range (min caps.length ps.length)).map (fun k =>
    let e := nth ps k (0, 0, 0)
    let v := Config.replayPiece (s.vreadBytes x e.1 e.2.1)
    let rows := leAt (s.vreadBytes x ((nth caps k (0, 0, 0)).1 + 32 + 12) 2) 0 2
    let ct := max 1 v.2.2.toNat
    { serial := v.1.toNat, seed := v.2.1.toNat, rows := rows, tokens := (rows + ct - 1) / ct })

/-- `POUR_START` (R351, R324, R346, R358): the pour waits for its sync objects and banks, then for its start barrier, and runs
when its context is on flasks. -/
def execPourStart (t : Nat) (q : Fin 16) (seq : BitVec 16) (s : State) : Host.Outcome State Fault Refusal :=
  runOrder t q seq 0x41 (fun s o =>
    let x := o.ctx
    let w := o.w 2
    let sb := w / 2 ^ 18 % 16
    let job := match s.ctx x with | some c => c.cls == 2 | none => false
    if !job then s.complete o E_CMD_CTX x
    else if !pourArgsOk o then s.complete o E_CMD_ARG x
    else match s.program (w % 65536) with
      | none => s.complete o E_CMD_ARG x
      | some l =>
        if l.ctx ≠ x ∨ (w.testBit 17 ∧ s.fld (R.CMD_SBAR sb + 8) 2 2 ≠ 1) then s.complete o E_CMD_ARG x
        else
          let inTab := (o.w 3 + 2 ^ 32 * o.w 4, o.w 5)
          let outTab := (o.w 6 + 2 ^ 32 * o.w 7, o.w 8)
          let ins := s.pourTable x inTab
          let p : Pour := { id := s.sch.nextPour, tag := o.tag, ctx := x, prog := w % 65536, replay := w.testBit 16
                            sbar := if w.testBit 17 then some sb else none
                            step := o.w 9 + 2 ^ 32 * o.w 10, dres := o.w 11
                            inTab := inTab, outTab := outTab, ins := ins, outs := s.pourTable x outTab
                            pieces := if w.testBit 16 then s.replayPieces x l.prog ins else [] }
          let s1 := s.dropKept x
          let s2 : State := { s1 with sch := { s1.sch with pours := s1.sch.pours ++ [p], nextPour := s1.sch.nextPour + 1 } }
          (s2.pourTake p.id).schedule) s

/-- `POUR_CANCEL` (R324): the pour stops, and its own record and this order's follow once its last command has completed; a
tag that names no running or waiting pour has no effect. -/
def execPourCancel (t : Nat) (q : Fin 16) (seq : BitVec 16) (s : State) : Host.Outcome State Fault Refusal :=
  runOrder t q seq 0x42 (fun s o =>
    let x := o.ctx
    if !o.only [0xFFFFFFFF] then s.complete o E_CMD_ARG x
    else match s.sch.pours.find? (fun p => p.ctx == x && p.tag == o.w 2 && decide (p.st ≤ 3) && (s.openOrder 0x41 x p.tag).isSome) with
      | none => s.complete o E_NONE x
      | some p =>
        let s1 := s.setPour { p with cancelled := true }
        if p.st = 2 then s1.pourStop p.id
        else if p.st = 3 then s1
        else
          let s2 := (if p.st = 1 then s1.freeSync p else s1).dropBanks p.banks
          ({ s2 with sch := { s2.sch with pours := s2.sch.pours.filter (fun e => e.id != p.id) } }).pourResult { p with cancelled := true, banks := [] }) s

/-- `CTX_CHILL` (R330, R334): every flask of a JOB context is chilled in full and the context is held; a remelt in progress
stops, and a `CTX_REMELT` that waited for it completes. -/
def execCtxChill (t : Nat) (q : Fin 16) (seq : BitVec 16) (s : State) : Host.Outcome State Fault Refusal :=
  runOrder t q seq 0x43 (fun s o =>
    let x := o.ctx
    match s.ctx x with
    | none => s.complete o E_CMD_CTX x
    | some c =>
      if c.cls ≠ 2 then s.complete o E_CMD_CTX x
      else if !o.only [] then s.complete o E_CMD_ARG x
      else
        let s1 := (s.host.orders.filter (fun p => p.opcode == 0x44 && p.ctx == x && p.started)).foldl (fun s p => s.complete p E_NONE x) s
        s1.chillAll x) s

/-- `CTX_REMELT` (R330): a CHILLED JOB context is no longer held; the order completes when it runs again, at once where nothing of it is
saved. -/
def execCtxRemelt (t : Nat) (q : Fin 16) (seq : BitVec 16) (s : State) : Host.Outcome State Fault Refusal :=
  runOrder t q seq 0x44 (fun s o =>
    let x := o.ctx
    match s.ctx x with
    | none => s.complete o E_CMD_CTX x
    | some c =>
      if c.cls ≠ 2 ∨ c.st ≠ 4 then s.complete o E_CMD_CTX x
      else if !o.only [] then s.complete o E_CMD_ARG x
      else if c.sections = [] then ((s.setCtx x { c with held := false, st := 1 }).complete o E_NONE x).schedule
      else (s.setCtx x { c with held := false }).schedule) s

/-! ### Start barriers -/

/-- Arm start barrier `i` at its T (R358): nothing while it is ARMED. -/
def State.sbarArm (s : State) (i : Nat) : State :=
  let a := R.CMD_SBAR i + 8
  if s.fld a 2 2 = 1 then s
  else
    let s1 := s.setBit a 4 false
    s1.setFld a 2 2 (if s1.timebase + 25000 ≤ s1.rd64 (R.CMD_SBAR i) then 1 else 3)

/-- `SBAR_ARM` (R358): a barrier that is not armed is armed at T, or REFUSED where T is not at least 25,000 counts ahead. -/
def execSbarArm (t : Nat) (i : Fin 16) (s : State) : Host.Outcome State Fault Refusal :=
  let s := s.at' t
  if s.running then done (s.sbarArm i) else done s

/-- Pours that wait on barrier `i`. -/
def State.sbarPours (s : State) (i : Nat) : List Pour := s.sch.pours.filter (fun p => p.sbar == some i && decide (p.st ≤ 1))

/-- Disarm start barrier `i` while it is ARMED: the pours that wait on it complete with E_CMD_ARG (Table 16.6). -/
def State.sbarDisarm (s : State) (i : Nat) : State :=
  let a := R.CMD_SBAR i + 8
  if s.fld a 2 2 ≠ 1 then s
  else
    let s1 := (s.sbarPours i).foldl (fun s p =>
      let s2 := (if p.st = 1 then s.freeSync p else s).dropBanks p.banks
      ({ s2 with sch := { s2.sch with pours := s2.sch.pours.filter (fun e => e.id != p.id) } } : State).pourResult
        { p with fault := E_CMD_ARG, banks := [] }) (s.setFld a 2 2 0)
    s1.waitingStep

/-- `SBAR_DISARM` (Table 16.6): an armed barrier returns to IDLE; pours that wait on it complete with `E_CMD_ARG`. -/
def execSbarDisarm (t : Nat) (i : Fin 16) (s : State) : Host.Outcome State Fault Refusal :=
  let s := s.at' t
  if s.running then done (s.sbarDisarm i) else done s

/-- `SBAR_FIRE` (R358): at T an armed barrier fires, on local time where chain time is not locked; every pour that waits on it
starts. -/
def execSbarFire (t : Nat) (i : Fin 16) (s : State) : Host.Outcome State Fault Refusal :=
  let s0 := s.at' t
  let a := R.CMD_SBAR i + 8
  if !s0.running || decide (s0.fld a 2 2 ≠ 1) || decide (s0.timebase < s0.rd64 (R.CMD_SBAR i)) then done s0
  else
    let s1 := (s0.setFld a 2 2 2).setBit a 4 (!s0.chainLocked)
    let s2 := (s1.sbarPours i).foldl (fun s p =>
      let s1 := s.setPour { p with sbar := none }
      if p.st = 1 then s1.pourRun p.id else s1) s1
    done (s2.schedule).waitingStep

end Sys2Proof.Machine
end

