-- ==== Sys2Proof/Machine/Staged.lean ====
section
/-! DEFINITION. The staged registers (R93): the words of each, their fields with the values the check admits (Tables 6.8,
7.8, 7.9, 8.4–8.6, 9.12, 14.6, 15.8, 17.10, 17.11, 18.8, 18.9, 19.7–19.9, 21.10 and 21.11), and which entries are in use (R493). -/

namespace Sys2Proof.Machine

/-- A field of a staged word: low bit, width, least and greatest value admitted. -/
structure StFld where
  /-- Low bit. -/
  lo : Nat
  /-- Width. -/
  w : Nat
  /-- Least value. -/
  mn : Nat
  /-- Greatest value. -/
  mx : Nat
  deriving DecidableEq, Repr

/-- A word of a staged register: the register's first word, how many words it has, and this word's fields. -/
structure StWord where
  /-- First word of the register. -/
  base : Nat
  /-- Words of the register. -/
  words : Nat
  /-- Fields of this word. -/
  flds : List StFld
  deriving DecidableEq, Repr

/-- A field that takes every value. -/
def fv (lo w : Nat) : StFld := ⟨lo, w, 0, 2 ^ w - 1⟩

/-- A field with values from `mn` to `mx`. -/
def fr (lo w mn mx : Nat) : StFld := ⟨lo, w, mn, mx⟩

/-- A field with values from `mn` on. -/
def fm (lo w mn : Nat) : StFld := ⟨lo, w, mn, 2 ^ w - 1⟩

/-- A 48-bit address aligned to `2 ^ k` bytes: word `i`. -/
def addrFlds (k i : Nat) : List StFld := if i = 0 then [fr 0 k 0 0, fv k (32 - k)] else [fv 0 16]

/-- Bits a word keeps: those of its fields. The rest are reserved and read as 0 (R11). -/
def StWord.keep (q : StWord) (v : Nat) : Nat := q.flds.foldl (fun a f => a + v / 2 ^ f.lo % 2 ^ f.w * 2 ^ f.lo) 0

/-- Every field of a word holds a value it admits (R99, FIELD_RANGE). -/
def StWord.ok (q : StWord) (v : Nat) : Bool :=
  q.flds.all (fun f => decide (f.mn ≤ v / 2 ^ f.lo % 2 ^ f.w) && decide (v / 2 ^ f.lo % 2 ^ f.w ≤ f.mx))

/-! ### The register blocks, by offset -/

/-- A one-word register. -/
def st1 (a : Nat) (fs : List StFld) : Option StWord := some ⟨a, 1, fs⟩

/-- Word at `a` of a register of `n` words at `b`. -/
def stn (b n : Nat) (fs : List StFld) : Option StWord := some ⟨b, n, fs⟩

/-- Layout of `*_RXEQ_CFG` (Table 6.8). -/
def rxeqFlds : List StFld := [fr 0 2 0 2, fv 2 4]

/-- Camera ports (Tables 6.6, 6.8). -/
def stCxp (a o : Nat) : Option StWord :=
  if o < 0x2000 then
    (if o % 0x100 = 0 then st1 a [fv 0 1, fv 1 1, fr 2 3 0 6, fv 5 5, fv 10 3, fv 13 2]
     else if o % 0x100 = 4 then st1 a rxeqFlds
     else if o % 0x100 = 8 then st1 a [fr 0 2 0 2, fv 2 1] else none)
  else if o < 0x2100 then st1 a [fv 0 1, fv 1 5, fv 6 8]
  else if 0x2300 ≤ o ∧ o < 0x2380 then st1 a [fr 0 9 0 256]
  else if 0x10000 ≤ o ∧ o < 0x20000 then stn (a - a % 8) 2 [fv 0 32]
  else none

/-- Link block (Tables 6.7, 6.8, 19.9). The ring size is judged where the chain is a ring. -/
def stLnk (a o : Nat) : Option StWord :=
  if 0x10000 ≤ o ∧ o < 0x10800 then
    (if o % 0x100 = 0 then st1 a [fr 0 5 0 10, fr 5 6 14 40, fr 11 5 0 16, fv 16 1]
     else if o % 0x100 = 4 then st1 a rxeqFlds else none)
  else if o = 0x10800 then st1 a [fv 0 1, fm 8 8 1, fm 16 16 1]
  else if o = 0x20000 then st1 a [fv 0 6, fr 6 2 0 2, fv 8 4, fv 12 6, fv 18 7]
  else if 0x20300 ≤ o ∧ o < 0x20700 ∧ o % 16 < 12 then
    stn (a - a % 16) 3 (if o % 16 = 0 then [fr 0 2 0 2, fv 2 6] else [fv 0 32])
  else none

/-- A runner slot's registers, by offset in its 0x400 bytes (Tables 7.8, 7.9). -/
def stSlot (a z : Nat) : Option StWord :=
  if z = 0x00 then st1 a [fv 0 1, fv 1 1, fv 2 6, fr 8 2 0 2, fv 10 1]
  else if z = 0x04 then st1 a [fr 0 16 1 16384, fr 16 16 1 4096]
  else if z = 0x08 then st1 a [fv 0 1, fv 1 2]
  else if z = 0x0C then st1 a [fv 0 16]
  else if z = 0x10 ∨ z = 0x14 then st1 a [fv 0 16, fv 16 16]
  else if z = 0x18 then st1 a [fv 0 1, fv 1 1, fr 2 11 0 1024]
  else if z = 0x1C then st1 a [fv 0 14, fv 16 15]
  else if z = 0x20 then st1 a [fr 0 4 1 8, fr 4 4 1 8, fv 8 1, fv 9 1]
  else if z = 0x24 ∨ z = 0x38 then st1 a [fv 0 32]
  else if z = 0x28 ∨ z = 0x2C then stn (a - a % 8) 2 (addrFlds 8 (z / 4 % 2))
  else if z = 0x30 then st1 a [fr 0 11 0 1024]
  else if z = 0x34 then st1 a [fm 0 16 1]
  else if z = 0x40 ∨ z = 0x44 then stn (a - a % 8) 2 (addrFlds 5 (z / 4 % 2))
  else if z = 0x48 then st1 a [fr 0 5 4 16, fv 8 4]
  else if z = 0x50 then st1 a [fv 0 1, fv 1 2, fv 3 1, fv 4 1, fm 8 8 1, fv 16 4]
  else if z = 0x58 ∨ z = 0x5C then stn (a - a % 8) 2 (addrFlds 12 (z / 4 % 2))
  else if z = 0x60 then st1 a [fm 0 13 1]
  else if z = 0x68 then st1 a [fv 0 1, fv 1 5, fv 6 1]
  else if z = 0x6C then st1 a [fv 0 13, fr 16 13 4 6144]
  else none

/-- A slot's segmentation and gating registers, by offset in their 0x1000 bytes (Tables 8.4, 8.5). The depth of a stripe and the
size of its ring are judged by its destination. -/
def stSeg (a z : Nat) : Option StWord :=
  if z = 0 then st1 a [fv 0 2, fr 2 5 0 16, fr 7 5 0 16]
  else if z = 4 then st1 a [fm 0 24 1, fv 24 6]
  else if z = 8 ∨ z = 12 then stn (a - a % 8) 2 (if z = 8 then [fv 0 32] else [fv 0 16])
  else if 0x100 ≤ z ∧ z < 0x200 ∧ z % 16 < 12 then
    stn (a - a % 16) 3 (if z % 16 = 0 then [fv 0 14, fv 16 14] else if z % 16 = 4 then [fv 0 16, fv 16 1, fv 24 6]
                        else [fm 0 14 1, fm 16 8 1])
  else if 0x400 ≤ z ∧ z < 0x500 ∧ z % 16 < 12 then
    stn (a - a % 16) 3 (if z % 16 = 0 then [fv 0 14, fr 16 13 1 4096]
                        else if z % 16 = 4 then [fv 0 6, fv 6 7, fv 13 7, fv 20 1, fv 21 6] else [fv 0 13, fv 16 13])
  else none

/-- A class's packer registers, by offset in their 0x80 bytes (Tables 8.4–8.6). -/
def stPack (a z : Nat) : Option StWord :=
  if z = 0 then st1 a [fr 0 13 64 4096, fv 13 1, fv 14 6]
  else if z = 4 then st1 a [fv 0 1, fm 1 16 1, fv 17 4, fm 21 11 1]
  else if z = 8 ∨ z = 12 then stn (a - a % 8) 2 (addrFlds 12 (z / 4 % 2))
  else if z = 0x10 then st1 a [fv 0 32]
  else if 0x40 ≤ z then stn (a - a % 8) 2 (if z % 8 = 0 then [fv 0 1, fv 1 1, fv 2 8, fv 16 16] else [fv 0 16, fv 16 8, fv 24 1])
  else none

/-- A runner's registers, by offset in its 64 KiB; the packer's stand in runner 0 alone (R168). -/
def stRun (a r q : Nat) : Option StWord :=
  if q < 0x1000 then stSlot a (q % 0x400)
  else if 0x8000 ≤ q ∧ q < 0xC000 then stSeg a (q % 0x1000)
  else if 0xC000 ≤ q ∧ q < 0xE000 ∧ r = 0 then stPack a (q % 0x80)
  else none

/-- Line control (Tables 17.10, 17.11). -/
def stLin (a o : Nat) : Option StWord :=
  if o = 0x100 then st1 a [fv 0 4, fv 4 1]
  else if o = 0x104 then st1 a [fm 0 16 1, fm 16 16 1]
  else if o = 0x300 then st1 a [fr 0 5 1 30, fr 8 6 1 60]
  else if 0x1000 ≤ o ∧ o < 0x2000 ∧ o % 0x40 < 24 then
    stn (a - a % 0x40) 6
      (if o % 0x40 = 0 then [fv 0 1, fv 1 1, fv 2 1, fv 3 1, fv 4 3, fm 8 16 1]
       else if o % 0x40 = 4 then [fm 0 24 1]
       else if o % 0x40 = 8 then [fv 0 16]
       else if o % 0x40 = 20 then [fv 0 1]
       else [fr 0 3 0 4, fv 3 9, fr 16 3 0 4, fv 19 9])
  else if 0x4000 ≤ o ∧ o < 0x8000 then
    stn (a - a % 8) 2 (if o % 8 = 0 then [fv 0 1, fr 1 2 0 2, fv 3 4, fv 7 1, fm 8 16 1] else [fv 0 32])
  else none

/-- Time unit (Tables 19.7, 19.8). -/
def stTim (a o : Nat) : Option StWord :=
  if o = 0x28 then st1 a [fr 0 2 0 2, fv 2 1]
  else if o = 0x2C then st1 a [fr 0 32 1 1000000]
  else if o = 0x30 ∨ o = 0x38 then st1 a [fv 0 16, fv 16 16]
  else if o = 0x34 then st1 a [fv 0 8, fv 8 1, fv 9 1, fm 10 4 2]
  else none

/-- Power management (Tables 15.8, 21.10, 21.11). -/
def stPwr (a o : Nat) : Option StWord :=
  if o = 0x8 then st1 a [fv 0 1, fr 4 12 1 3600, fv 16 1]
  else if o = 0x10 then st1 a [fr 0 3 0 6]
  else if o = 0x40 then st1 a [fv 0 1, fv 1 1, fv 2 1, fv 3 4, fv 8 16]
  else if o = 0x8000 then st1 a [fr 0 32 250000 40000000]
  else none

/-- The staged word at BAR0 offset `a`, where a staged register has one there (R93). -/
def stagedWord (a : Nat) : Option StWord :=
  if a % 4 ≠ 0 then none
  else if 0x301000 ≤ a ∧ a < 0x301400 ∧ a % 16 < 8 then
    stn (a - a % 16) 2 (if a % 16 = 0 then [fr 0 13 1 4096, fm 13 8 1, fv 21 7, fv 28 1] else [fv 0 24])
  else if 0x03000000 ≤ a ∧ a < 0x03100000 then stRun a (a / 0x10000 % 16) (a % 0x10000)
  else if 0x03200000 ≤ a ∧ a < 0x03400000 then stCxp a (a - 0x03200000)
  else if a = R.MEM_QOS then st1 a [fm 0 4 1, fm 4 4 1, fm 8 4 1, fm 12 4 1, fm 16 4 1]
  else if 0x03600000 ≤ a ∧ a < 0x03800000 then stLnk a (a - 0x03600000)
  else if 0x03800000 ≤ a ∧ a < 0x03A00000 then stLin a (a - 0x03800000)
  else if 0x03A00000 ≤ a ∧ a < 0x03C00000 then stTim a (a - 0x03A00000)
  else if 0x03C00000 ≤ a ∧ a < 0x03E00000 then stPwr a (a - 0x03C00000)
  else none

/-- The staged word at Ronyr's index `i` (Tables 18.8, 18.9). -/
def stagedRny (i : Nat) : Option StWord :=
  if 0x100 ≤ i ∧ i < 0x180 then
    (if i % 0x40 = 0 then st1 i [fv 0 1, fr 1 3 0 5, fr 4 2 0 2, fv 6 1, fv 7 1, fv 8 1, fv 9 1, fv 10 6, fv 16 4, fv 20 1, fm 21 8 1]
     else if i % 0x40 = 1 then st1 i [fv 0 16, fv 16 8]
     else if i % 0x40 = 2 then st1 i [fr 0 6 8 40, fv 6 1, fr 8 8 1 100, fr 16 10 2 1000]
     else if i % 0x40 = 3 then st1 i [fm 0 24 1]
     else if i % 0x40 = 4 then stn i 2 [fv 0 32]
     else if i % 0x40 = 5 then stn (i - 1) 2 [fv 0 16, fv 31 1] else none)
  else if 0x200 ≤ i ∧ i < 0x220 then
    (if i % 0x10 = 0 then st1 i [fv 0 1, fv 1 1, fv 2 1, fv 3 1, fm 8 8 1]
     else if i % 0x10 = 1 ∨ i % 0x10 = 2 then st1 i [fm 0 24 1] else none)
  else if 0x300 ≤ i ∧ i < 0x340 ∧ i % 4 = 0 then st1 i [fv 0 1, fv 1 1, fv 2 1, fm 16 16 1]
  else if 0x400 ≤ i ∧ i < 0x440 ∧ i % 4 = 0 then st1 i [fv 0 1, fv 1 1]
  else none

/-! ### Entries in use (R493) -/

/-- The slot (runner × 4 + slot) a runner's register belongs to, where it belongs to one. -/
def slotOfReg (a : Nat) : Option Nat :=
  let r := a / 0x10000 % 16
  let q := a % 0x10000
  if a < 0x03000000 ∨ 0x03100000 ≤ a then none
  else if q < 0x1000 then some (4 * r + q / 0x400)
  else if 0x8000 ≤ q ∧ q < 0xC000 then some (4 * r + (q - 0x8000) / 0x1000)
  else none

/-- A register of an enabled slot is in use: lanes below nlanes, stripes below nstripes, feed registers of a feed, tap registers of
an enabled tap, and the ring of an enabled ROI output. `c` reads the configuration that would result. -/
def slotRegUsed (c : Nat → Nat) (j a : Nat) : Bool :=
  let r := j / 4
  let k := j % 4
  let q := a % 0x10000
  let z := q % 0x400
  let y := q % 0x1000
  c (R.RUN_SRC r k) % 2 == 1 &&
    (if q < 0x1000 then
       (if 0x40 ≤ z ∧ z < 0x50 then c (R.RUN_SRC r k) / 2 % 2 == 1
        else if 0x50 ≤ z ∧ z < 0x68 then c (R.RUN_TAP_CFG r k) % 2 == 1
        else if 0x68 ≤ z then c (R.RUN_ROI_CFG r k) % 2 == 1
        else true)
     else if 0x100 ≤ y ∧ y < 0x200 then decide ((y - 0x100) / 16 < c (R.RUN_SEG_CFG r k) / 4 % 32)
     else if 0x400 ≤ y ∧ y < 0x500 then decide ((y - 0x400) / 16 < c (R.RUN_SEG_CFG r k) / 2 ^ 7 % 32)
     else true)

/-- The entry a staged word belongs to is in use in the configuration `c` (R493); a register without an enable or a count always
is. -/
def wordUsed (c : Nat → Nat) (a : Nat) : Bool :=
  match slotOfReg a with
  | some j => slotRegUsed c j a
  | none =>
    if 0x0300C000 ≤ a ∧ a < 0x0300E000 then
      let cl := (a - 0x0300C000) / 0x80
      let z := a % 0x80
      c (R.LIN_CLASS cl) % 2 == 1 &&
        (if z = 4 ∨ z = 8 ∨ z = 12 then c (R.RUN_CAPT_CFG 0 cl) % 2 == 1
         else if 0x40 ≤ z then c (a - a % 8) % 2 == 1 else true)
    else if 0x301000 ≤ a ∧ a < 0x301400 then c (R.LIN_CLASS ((a - 0x301000) / 16)) % 2 == 1
    else if 0x03200000 ≤ a ∧ a < 0x03202000 then c (R.CXP_PORT_CFG ((a - 0x03200000) / 0x100)) % 2 == 1
    else if 0x03202000 ≤ a ∧ a < 0x03202100 then c a % 2 == 1
    else if 0x03202300 ≤ a ∧ a < 0x03202380 then c (R.CXP_PORT_CFG ((a - 0x03202300) / 4)) % 2 == 1
    else if 0x03801000 ≤ a ∧ a < 0x03802000 then c (R.LIN_CLASS ((a - 0x03801000) / 0x40)) % 2 == 1
    else if 0x03804000 ≤ a ∧ a < 0x03808000 then
      c (R.LIN_CLASS ((a - 0x03804000) / 0x100)) % 2 == 1 && c (a - a % 8) % 2 == 1
    else true

/-- The entry a word of Ronyr's staged registers belongs to is in use (R493). -/
def rnyUsed (c : Nat → Nat) (i : Nat) : Bool :=
  if 0x100 ≤ i ∧ i < 0x180 then c (i - i % 0x40) % 2 == 1
  else if 0x200 ≤ i ∧ i < 0x220 then c (i - i % 0x10) % 2 == 1
  else true

/-- Block number of a BAR0 register (Table 5.6). -/
def blockOf (a : Nat) : Nat :=
  if 0x01000000 ≤ a ∧ a < 0x03000000 then (a - 0x01000000) / 0x100000
  else if 0x03000000 ≤ a ∧ a < 0x03100000 then 0x20 + a / 0x10000 % 16
  else if 0x03200000 ≤ a ∧ a < 0x03400000 then 0x30
  else if 0x03400000 ≤ a ∧ a < 0x03600000 then 0x31
  else if 0x03600000 ≤ a ∧ a < 0x03800000 then 0x32
  else if 0x03800000 ≤ a ∧ a < 0x03A00000 then 0x33
  else if 0x03A00000 ≤ a ∧ a < 0x03C00000 then 0x34
  else if 0x03C00000 ≤ a ∧ a < 0x03E00000 then 0x35
  else if 0x301000 ≤ a ∧ a < 0x301400 then 0x37
  else 0x3F

/-! ### The shadow -/

/-- The words of a staged register. -/
def StWord.addrs (q : StWord) (step : Nat) : List Nat := (List.range q.words).map (fun i => q.base + step * i)

/-- A shadow with the word at `a` written: every word of its register is in the shadow, those not written at their live value
`live` (R94). -/
def shadowPut (m : KMap W32) (q : StWord) (step a v : Nat) (live : Nat → Nat) : KMap W32 :=
  (q.addrs step).foldl (fun m b =>
    if b = a then KMap.put m b (BitVec.ofNat 32 (q.keep v))
    else match KMap.find m b with
      | some _ => m
      | none => KMap.put m b (BitVec.ofNat 32 (live b))) m

/-- Registers that are dirty in a shadow. -/
def dirtyCount (m : KMap W32) (word : Nat → Option StWord) : Nat :=
  (m.filter (fun e => match word e.1 with | some q => q.base == e.1 | none => false)).length

/-- Note that a staged word was written: while an operation runs or a cast waits it belongs to the next transaction (R98,
R100). -/
def State.noteWritten (s : State) (k : Nat) : State :=
  match s.stage.pend with
  | some p => { s with stage := { s.stage with pend := some { p with rewritten := p.rewritten ++ [k] } } }
  | none => s

/-- Write a staged word of Cuette's into the shadow (R94). -/
def State.shadowWrite (s : State) (a v : Nat) : State :=
  match stagedWord a with
  | none => s
  | some q =>
    { s with stage := { s.stage with shadow := shadowPut s.stage.shadow q 4 a v s.rd } }.noteWritten q.base

/-- Write a staged word of Ronyr's into its shadow on the Cuette side (R94). -/
def State.rnyShadowWrite (s : State) (i v : Nat) : State :=
  match stagedRny i with
  | none => s
  | some q =>
    { s with stage := { s.stage with rnyShadow := shadowPut s.stage.rnyShadow q 1 i v s.rreg } }.noteWritten (2 ^ 31 + q.base)

/-- The staging block accepts the host's shadow writes (R94). -/
def State.shadowOpen (s : State) : Bool := s.attached && s.agreed && s.boot.restored

end Sys2Proof.Machine
end

