-- ==== Sys2Proof/Machine/StageCheck.lean ====
section
/-! DEFINITION. The stage check (R96, R99, R493): the whole configuration that would result is judged, and the first failure found
is reported. Reasons are taken in this order: FIELD_RANGE, BLOCK_RULE, CROSS_BLOCK, PIN_CONFLICT, STRIPE_COVER, CLASS_REF, GEN_LIMIT,
RONYR_REFUSED (log 37); within a reason, ascending registers. Every function here reads that configuration as its live one: the check
runs on the state with the cast set laid over its registers. LIMIT is never found: the register map itself holds 64 streams,
16 in-line slots and 4 slots a runner. -/

namespace Sys2Proof.Machine

/-- A failed check: reason (Table 5.2), block (Table 5.6) and the offset of the failing register. -/
structure CheckFail where
  /-- Reason. -/
  reason : Nat
  /-- Block. -/
  block : Nat
  /-- Offset, or a Ronyr index with bit 31 set. -/
  addr : Nat
  deriving DecidableEq, Repr

/-- A failure at BAR0 register `a`. -/
def failAt (reason a : Nat) : CheckFail := ⟨reason, blockOf a, a⟩

/-- A failure at register `a` where the condition holds. -/
def failIf (b : Bool) (reason a : Nat) : Option CheckFail := if b then some (failAt reason a) else none

/-- The state with a cast set laid over its live configuration (R96). -/
def State.withSet (s : State) (set rny : KMap W32) : State :=
  let s1 := set.foldl (fun s e => s.wr e.1 e.2.toNat) s
  rny.foldl (fun s e => s.setRreg e.1 e.2.toNat) s1

/-! ### FIELD_RANGE -/

/-- Staged words the check judges: those with a value of their own, and those of lanes, stripes, ROI rings and feeds in use,
whose factory values lie outside their ranges (R493). -/
def State.judgedWords (s : State) : List Nat :=
  let own : KMap Unit := (s.regs.filter (fun e => (stagedWord e.1).isSome)).map (fun e => (e.1, ()))
  let add (m : KMap Unit) (l : List Nat) : KMap Unit := l.foldl (fun m a => KMap.put m a ()) m
  let extra (m : KMap Unit) (j : Nat) : KMap Unit :=
    let r := j / 4
    let k := j % 4
    let lanes := (List.range 16).flatMap (fun l => [R.RUN_LANE r k l + 8])
    let stripes := (List.range 16).flatMap (fun i => [R.RUN_STRIPE r k i])
    if s.slotOn j then add m (lanes ++ stripes ++ [R.RUN_ROI_RING r k, R.RUN_FEED_CFG r k]) else m
  let caps (m : KMap Unit) (c : Nat) : KMap Unit :=
    if s.rd (R.LIN_CLASS c) % 2 = 1 then
      (List.range 32).foldl (fun m i =>
        let a := R.LIN_TAP c 0 0 + 8 * i
        if s.rd a % 2 = 1 then KMap.put m a () else m) m
    else m
  ((List.range 64).foldl caps ((List.range 64).foldl extra own)).map Prod.fst

/-- Rules of a field range that rest on other fields: a lane's columns, pixels and width, a stripe's depth or ring, an ROI ring's
end, a ring chain's size (Tables 7.8, 8.5, 19.9). -/
def State.rangeRule (s : State) (a : Nat) : Bool :=
  match slotOfReg a with
  | none =>
    if a = R.LNK_CHAIN_CFG then s.fld a 6 2 != 1 || (decide (2 ≤ s.fld a 18 7) && decide (s.fld a 18 7 ≤ 64)) else true
  | some j =>
    let q := a % 0x10000
    let y := q % 0x1000
    let w := s.corrW (j / 4) (j % 4)
    let b := a - a % 16
    if q < 0x1000 then
      (if q % 0x400 = 0x6C then decide (s.fld a 0 13 + s.fld a 16 13 ≤ 6144) else true)
    else if 0x100 ≤ y ∧ y < 0x200 then
      decide (s.fld b 0 14 ≤ s.fld b 16 14) && decide (s.fld b 16 14 < w)
        && decide (s.fld (b + 8) 0 14 + s.fld b 0 14 ≤ s.fld b 16 14 + 1)
    else if 0x400 ≤ y ∧ y < 0x500 then
      (if s.bit (b + 4) 20 then decide (s.fld (b + 8) 0 13 + s.fld (b + 8) 16 13 ≤ 6144)
       else decide (1 ≤ s.fld (b + 4) 21 6) && decide (s.fld (b + 4) 21 6 ≤ 32))
    else true

/-- The first Cuette register with a field out of its range (R99). -/
def State.rangeFail (s : State) : Option CheckFail :=
  s.judgedWords.findSome? (fun a => match stagedWord a with
    | none => none
    | some q => failIf (wordUsed s.rd a && !(q.ok (s.rd a) && s.rangeRule a)) 1 q.base)

/-- The first Ronyr register with a field out of its range (R414). -/
def State.rnyRangeFail (s : State) : Option CheckFail :=
  (s.rny.map Prod.fst).findSome? (fun i => match stagedRny i with
    | none => none
    | some q => if rnyUsed s.rreg i ∧ q.ok (s.rreg i) = false then some ⟨1, 0x36, 2 ^ 31 + q.base⟩ else none)

/-! ### BLOCK_RULE and CROSS_BLOCK -/

/-- Port `p` of camera composition (R115): its camera holds ports m to m + n − 1, each enabled, in order and alike. -/
def State.portRule (s : State) (p : Nat) : Bool :=
  let f (q lo w : Nat) : Nat := s.fld (R.CXP_PORT_CFG q) lo w
  let m := f p 5 5
  let n := 2 ^ f p 13 2
  decide (m % n = 0) && decide (m ≤ p) && decide (p < m + n) && decide (m + n ≤ 32) && decide (f p 10 3 = p - m)
    && (List.range n).all (fun i => f (m + i) 0 1 == 1 && f (m + i) 5 5 == m && f (m + i) 13 2 == f p 13 2
        && f (m + i) 1 1 == f p 1 1 && f (m + i) 2 3 == f p 2 3)

/-- BLOCK_RULE of the camera ports (R115). -/
def State.portFail (s : State) : Option CheckFail :=
  (List.range 32).findSome? (fun p =>
    if s.bit (R.CXP_PORT_CFG p) 0 = false then none
    else
      let slave := s.fld (R.CXP_PORT_CFG p) 5 5 != p
      failIf (!s.portRule p) 2 (R.CXP_PORT_CFG p)
        <|> failIf (slave && s.rd (R.CXP_TRIG_CFG p) != 0) 2 (R.CXP_TRIG_CFG p)
        <|> failIf (slave && s.rd (R.CXP_INIT_LEN p) != 0) 2 (R.CXP_INIT_LEN p))

/-- A camera has at most 4 stream IDs (Table 6.2); that more are refused, and as BLOCK_RULE, is a DESIGN CHOICE (log 110). -/
def State.sidFail (s : State) : Option CheckFail :=
  (List.range 64).findSome? (fun i =>
    let sids := ((List.range (i + 1)).filter (fun k =>
      s.bit (R.CXP_STREAM_MAP k) 0 && s.fld (R.CXP_STREAM_MAP k) 1 5 == s.fld (R.CXP_STREAM_MAP i) 1 5)).map (fun k => s.fld (R.CXP_STREAM_MAP k) 6 8)
    failIf (s.bit (R.CXP_STREAM_MAP i) 0 && decide (4 < sids.eraseDups.length)) 2 (R.CXP_STREAM_MAP i))

/-- BLOCK_RULE of the Nolox transmitters (R123). -/
def State.txeqFail (s : State) : Option CheckFail :=
  (List.range 8).findSome? (fun l =>
    let a := R.LNK_NLX_TXEQ l
    let pre := s.fld a 0 5
    let main := s.fld a 5 6
    let post := s.fld a 11 5
    failIf (pre + main + post != 40 || decide (main < pre + post + 8)) 2 a)

/-- Columns a defect entry reads beside its own (R138, R142). -/
def defectReads (x mode : Nat) : List Int :=
  if mode = 0 then [(x : Int) - 1, (x : Int) + 1] else if mode = 2 then [(x : Int) + 1] else [(x : Int) - 1]

/-- The defect list obeys Table 7.1: strictly ascending below the width, and every neighbour read lies in the row and is not
listed itself. -/
def defectsOk (w : Nat) (ds : List (Nat × Nat)) : Bool :=
  let asc : List (Nat × Nat) → Bool := fun l => (l.zip (l.drop 1)).all (fun e => decide (e.1.1 < e.2.1))
  asc ds && ds.all (fun e => decide (e.1 < w) && (defectReads e.1 e.2).all (fun x =>
    decide (0 ≤ x) && decide (x < w) && !(ds.any (fun d => decide ((d.1 : Int) = x)))))

/-- Slots whose own registers (Table 7.8) a cast set writes (R145). -/
def slotsWritten (set : KMap W32) : List Nat :=
  set.foldl (fun a e =>
    match slotOfReg e.1 with
    | some j => if e.1 % 0x10000 < 0x1000 ∧ !a.contains j then a ++ [j] else a
    | none => a) []

/-- BLOCK_RULE of an enabled slot (Table 7.1); `written`: the cast writes registers of the slot, so its table is copied into
the bank not in use (R145). A table that cannot be read, since a line of it is uncorrectable, stops the command that met it (R181): the check
refuses it as BLOCK_RULE, a DESIGN CHOICE (log 115). -/
def State.slotFail (s : State) (written : Bool) (j : Nat) : Option CheckFail :=
  let r := j / 4
  let k := j % 4
  let src := R.RUN_SRC r k
  let feed := s.bit src 1
  let tm := s.fld (R.RUN_TM_SIZE r k) 0 11
  let str := s.fld src 2 6
  let w := s.fld (R.RUN_GEOM r k) 0 16
  let bits := if s.fld src 8 2 = 0 then 8 else if s.fld src 8 2 = 1 then 12 else 16
  let hx := s.fld (R.RUN_BIN r k) 0 4
  let cw := s.fld (R.RUN_CROP r k) 16 15
  failIf (k == 0 && feed) 2 src
    <|> failIf (if k = 0 ∨ feed then tm != 0 else tm == 0) 2 (R.RUN_TM_SIZE r k)
    <|> failIf ((List.range 64).any (fun i => i != j && s.slotOn i && s.fld (R.RUN_SRC (i / 4) (i % 4)) 2 6 == str)) 2 src
    <|> failIf (feed && s.bit (R.CXP_STREAM_MAP str) 0) 2 src
    <|> failIf (decide (w < s.fld (R.RUN_CROP r k) 0 14 + cw) || cw % max 1 hx != 0) 2 (R.RUN_CROP r k)
    <|> failIf (s.bit (R.RUN_BIN r k) 9 && decide (63 < (skewSpan (s.rd (R.RUN_DESKEW r k)) (s.corrW r k)).2)) 2 (R.RUN_DESKEW r k)
    <|> failIf (written && (s.tblPoison j).isSome) 2 (R.RUN_TBL_ADDR r k)
    <|> failIf (written && !defectsOk w ((s.readTable j).defects.take (s.fld (R.RUN_FF r k) 2 11))) 2 (R.RUN_FF r k)
    <|> failIf (decide (w * s.fld (R.RUN_GEOM r k) 16 16 * bits < s.rd (R.RUN_DEC_MAX r k))) 2 (R.RUN_DEC_MAX r k)
    <|> failIf (written && (s.slot j).retired.isSome) 2 (R.RUN_TBL_ADDR r k)

/-- The folds of the virtual crucibles onto those in use, one for each grade (R160). -/
def folds : List Nat := [64, 56, 48]

/-- Line buffers asked of crucible `n` under fold `f` (R160). -/
def State.foldDepth (s : State) (f n : Nat) : Nat :=
  s.stripesOn.foldl (fun a e =>
    let w := s.rd (R.RUN_STRIPE e.1 e.2.1 e.2.2 + 4)
    if w % 64 % f = n ∧ w.testBit 20 = false then a + w / 2 ^ 21 % 64 else a) 0

/-- Two stripes' mould rings fall on one flask under fold `f` and overlap there (R160). -/
def State.ringsMeet (s : State) (f : Nat) (d e : Nat × Nat × Nat) : Bool :=
  let w1 (x : Nat × Nat × Nat) : Nat := s.rd (R.RUN_STRIPE x.1 x.2.1 x.2.2 + 4)
  let w2 (x : Nat × Nat × Nat) : Nat := s.rd (R.RUN_STRIPE x.1 x.2.1 x.2.2 + 8)
  d != e && (w1 d).testBit 20 && (w1 e).testBit 20 && w1 d % 64 % f / 2 == w1 e % 64 % f / 2
    && decide (w2 d % 2 ^ 13 < w2 e % 2 ^ 13 + w2 e / 2 ^ 16 % 2 ^ 13) && decide (w2 e % 2 ^ 13 < w2 d % 2 ^ 13 + w2 d / 2 ^ 16 % 2 ^ 13)

/-- A bound program's layers reach further than the stripe's halos, on a side the image edge does not clip (R294). -/
def State.haloShort (s : State) (e : Nat × Nat × Nat) : Bool :=
  let w0 := s.rd (R.RUN_STRIPE e.1 e.2.1 e.2.2)
  let w1 := s.rd (R.RUN_STRIPE e.1 e.2.1 e.2.2 + 4)
  let left := w0 % 2 ^ 14
  let right := s.corrW e.1 e.2.1 - (left + w0 / 2 ^ 16 % 2 ^ 13)
  s.sch.progs.any (fun l => (s.liveProgs.contains l.id || (l.prog.stripeProgram && s.hasClass l.ctx)) && l.prog.stripes.any (fun b =>
    b.runner == e.1 && b.slot == e.2.1 && b.stripe == e.2.2
      && (decide (w1 / 2 ^ 6 % 128 < min b.reachL left) || decide (w1 / 2 ^ 13 % 128 < min b.reachR right))))

/-- BLOCK_RULE of the stripes (R160, R294). -/
def State.stripeFail (s : State) : Option CheckFail :=
  s.stripesOn.findSome? (fun e =>
    let a := R.RUN_STRIPE e.1 e.2.1 e.2.2
    let w1 := s.rd (a + 4)
    failIf (decide (4096 < s.fld a 16 13 + w1 / 2 ^ 6 % 128 + w1 / 2 ^ 13 % 128)) 2 a
      <|> failIf (folds.any (fun f => !w1.testBit 20 && decide (32 < s.foldDepth f (w1 % 64 % f)))) 2 a
      <|> failIf (folds.any (fun f => s.stripesOn.any (fun d => s.ringsMeet f d e))) 2 a
      <|> failIf (s.haloShort e) 2 a)

/-- Class `c` is enabled (R493). -/
def State.classOn (s : State) (c : Nat) : Bool := s.bit (R.LIN_CLASS c) 0

/-- Lanes in use, with their slot (R493). -/
def State.lanesOn (s : State) : List (Nat × Nat) :=
  (List.range 64).flatMap (fun j =>
    if s.slotOn j then (List.range (min 16 (s.fld (R.RUN_SEG_CFG (j / 4) (j % 4)) 2 5))).map (fun l => (j, l)) else [])

/-- Lane `l` of slot `j` lies inside the core of one stripe of its slot; a slot without stripes has none to ask it of (R160,
R163). -/
def State.laneInCore (s : State) (j l : Nat) : Bool :=
  let a := R.RUN_LANE (j / 4) (j % 4) l
  let n := s.fld (R.RUN_SEG_CFG (j / 4) (j % 4)) 7 5
  n == 0 || (List.range (min 16 n)).any (fun i =>
    let b := R.RUN_STRIPE (j / 4) (j % 4) i
    decide (s.fld b 0 14 ≤ s.fld a 0 14) && decide (s.fld a 16 14 < s.fld b 0 14 + s.fld b 16 13))

/-- Slots in WEB mode with class `c` (R156). -/
def State.webSlots (s : State) (c : Nat) : List Nat :=
  (List.range 64).filter (fun j => s.slotOn j && s.fld (R.RUN_SEG_CFG (j / 4) (j % 4)) 0 2 == 1
    && s.fld (R.RUN_SEG_LEN (j / 4) (j % 4)) 24 6 == c)

/-- Enabled samples of class `c` (Table 8.6). -/
def State.sampleCount (s : State) (c : Nat) : Nat := ((List.range 8).filter (fun k => s.rd (R.RUN_AUG 0 c k) % 2 == 1)).length

/-- BLOCK_RULE of a class's packing (R163). -/
def State.packFail (s : State) (c : Nat) : Option CheckFail :=
  failIf (s.rd (R.RUN_AUG 0 c 0) % 2 == 0 || (s.webSlots c != [] && decide (1 < s.sampleCount c))) 2 (R.RUN_AUG 0 c 0)

/-- The loaded program an enabled class names (R97). -/
def State.classLoaded (s : State) (c : Nat) : Option LoadedProg := s.program (s.fld (R.LIN_CLASS c + 8) 0 16)

/-- BLOCK_RULE of `CMD_SEQ_CLASS` (Table 14.5). -/
def State.seqFail (s : State) (c : Nat) : Option CheckFail :=
  let a := R.CMD_SEQ_CLASS c
  let lc := s.fld a 0 13
  let quota := s.fld (a + 4) 0 24
  let prog := match s.classLoaded c with
    | none => false
    | some l => match l.prog.seq with
      | none => false
      | some q =>
        let need := s.sampleCount c * ((lc + 2 ^ q.lp - 1) / 2 ^ q.lp) * (if q.twin then 2 else 1)
        decide (q.positions < lc) || decide (q.dpool < need) || (quota != 0 && decide (quota < need))
  failIf (decide (s.fld (R.RUN_PACK_CFG 0 c) 0 13 < lc) || prog) 2 a

/-- BLOCK_RULE of a class in line control (R387): no enabled tap, eject without an action, or a deadline offset from nominal
anchors that does not exceed Ln − 1. -/
def State.classFail (s : State) (c : Nat) : Option CheckFail :=
  let a := R.LIN_CLASS c
  let len := s.nominalLen s.liveGen c
  let margin : Int := (s.fld a 8 16 : Nat)
  failIf ((s.bit a 3 && s.fld a 4 3 == 0) || (match s.leastTap s.liveGen c len with
    | none => true
    | some o => decide (o - margin ≤ len))) 2 a

/-- The WEB fields of a class differ from those its head has announced over the chain (R435). A head that has announced none yet leaves
nothing to differ from. -/
def State.webDiffers (s : State) (c : Nat) : Bool :=
  match KMap.find s.chain.heads (s.fld (R.LNK_SHARE c) 2 6 * 64 + c) with
  | none => false
  | some h => (s.webSlots c).any (fun j =>
      s.fld (R.RUN_SEG_LEN (j / 4) (j % 4)) 0 24 != h.1 || s.rd64 (R.RUN_SEG_ORIGIN (j / 4) (j % 4)) % 2 ^ 48 != h.2)

/-- BLOCK_RULE of a share role (R435). -/
def State.shareFail (s : State) (c : Nat) : Option CheckFail :=
  let role := s.fld (R.LNK_SHARE c) 0 2
  failIf (role != 0 && (s.webSlots c == [] || s.fld R.LNK_CHAIN_CFG 6 2 == 0
    || (role == 2 && (s.fld (R.LNK_SHARE c) 2 6 == s.fld R.LNK_CHAIN_CFG 0 6 || s.webDiffers c)))) 2 (R.LNK_SHARE c)

/-- The first rule of a block that fails (R99); `tabs` are the slots whose table is copied (R145). -/
def State.blockFail (s : State) (tabs : List Nat) : Option CheckFail :=
  let cs := (List.range 64).filter s.classOn
  cs.findSome? s.seqFail
    <|> ((List.range 64).filter s.slotOn).findSome? (fun j => s.slotFail (tabs.contains j) j)
    <|> s.stripeFail
    <|> s.lanesOn.findSome? (fun e => failIf (!s.laneInCore e.1 e.2) 2 (R.RUN_LANE (e.1 / 4) (e.1 % 4) e.2))
    <|> cs.findSome? s.packFail
    <|> s.portFail
    <|> s.sidFail
    <|> s.txeqFail
    <|> (List.range 64).findSome? s.shareFail
    <|> cs.findSome? s.classFail

/-- CROSS_BLOCK (Table 5.2): a camera slot whose stream is not in use, a stream of a port that is no enabled master, an ROI ring
on a flask not in use, a trigger from a disabled emulated output. -/
def State.crossFail (s : State) : Option CheckFail :=
  ((List.range 64).filter s.slotOn).findSome? (fun j =>
    let r := j / 4
    let k := j % 4
    failIf (!s.bit (R.RUN_SRC r k) 1 && !s.bit (R.CXP_STREAM_MAP (s.fld (R.RUN_SRC r k) 2 6)) 0) 3 (R.RUN_SRC r k)
      <|> failIf (s.bit (R.RUN_ROI_CFG r k) 0 && !s.bit R.GLB_FLASK_USED (s.fld (R.RUN_ROI_CFG r k) 1 5)) 3 (R.RUN_ROI_CFG r k))
  <|> (List.range 32).findSome? (fun p =>
    let src := s.fld (R.CXP_TRIG_CFG p) 0 2
    failIf (s.bit (R.CXP_PORT_CFG p) 0 && src != 0 && !s.rbit (R.RNY_EMU_CFG (src - 1)) 0) 3 (R.CXP_TRIG_CFG p))
  <|> (List.range 64).findSome? (fun i =>
    let w := s.rd (R.CXP_STREAM_MAP i)
    let m := w / 2 % 32
    failIf (w % 2 == 1 && !(s.bit (R.CXP_PORT_CFG m) 0 && s.fld (R.CXP_PORT_CFG m) 5 5 == m)) 3 (R.CXP_STREAM_MAP i))

/-- PIN_CONFLICT: the acknowledgement input is taken by an encoder or an emulated output (chapter Power). -/
def State.pinFail (s : State) : Option CheckFail :=
  failIf (s.bit R.PWR_SAFE_CFG 2 && s.taken (s.fld R.PWR_SAFE_CFG 3 4)) 4 R.PWR_SAFE_CFG

/-- Owners of column `x` among the cores of a slot's `n` stripes. -/
def State.owners (s : State) (r k n x : Nat) : Nat :=
  ((List.range n).filter (fun i =>
    decide (s.fld (R.RUN_STRIPE r k i) 0 14 ≤ x) && decide (x < s.fld (R.RUN_STRIPE r k i) 0 14 + s.fld (R.RUN_STRIPE r k i) 16 13))).length

/-- STRIPE_COVER (R99, R160): the cores of an enabled slot with stripes own each column of its corrected width exactly once, and
none beyond it. Ownership can change only where a core begins or ends, so those columns are the ones looked at. -/
def State.coverFail (s : State) : Option CheckFail :=
  ((List.range 64).filter s.slotOn).findSome? (fun j =>
    let r := j / 4
    let k := j % 4
    let n := min 16 (s.fld (R.RUN_SEG_CFG r k) 7 5)
    let w := s.corrW r k
    let ends := (List.range n).flatMap (fun i =>
      [s.fld (R.RUN_STRIPE r k i) 0 14, s.fld (R.RUN_STRIPE r k i) 0 14 + s.fld (R.RUN_STRIPE r k i) 16 13])
    failIf (n != 0 && (0 :: ends).any (fun x => if x < w then s.owners r k n x != 1 else decide (w < x))) 5 (R.RUN_STRIPE r k 0))

/-- CLASS_REF (Table 5.2, Table 14.5, R387): an enabled class names no loaded program with a rule section, or one in a context
without a sequence program; or a lane, a WEB slot or a share names a class that is not enabled. -/
def State.refFail (s : State) : Option CheckFail :=
  let cs := (List.range 64).filter s.classOn
  cs.findSome? (fun c => failIf (match s.classLoaded c with
      | none => false
      | some l => !(s.sch.progs.any (fun q => q.ctx == l.ctx && q.prog.seq.isSome))) 6 (R.CMD_SEQ_CLASS c))
  <|> ((List.range 64).filter s.slotOn).findSome? (fun j =>
    let r := j / 4
    let k := j % 4
    failIf (s.fld (R.RUN_SEG_CFG r k) 0 2 == 1 && !s.classOn (s.fld (R.RUN_SEG_LEN r k) 24 6)) 6 (R.RUN_SEG_LEN r k))
  <|> s.lanesOn.findSome? (fun e =>
    let a := R.RUN_LANE (e.1 / 4) (e.1 % 4) e.2
    failIf (!s.classOn (s.fld (a + 4) 24 6)) 6 a)
  <|> (List.range 64).findSome? (fun c => failIf (s.fld (R.LNK_SHARE c) 0 2 != 0 && !s.classOn c) 6 (R.LNK_SHARE c))
  <|> cs.findSome? (fun c => failIf (match s.classLoaded c with | none => true | some l => l.prog.rules.isNone) 6 (R.LIN_CLASS c))

/-- Ronyr's own check (R393): the failing index of the first field it refuses. -/
def State.ronyrRefuses (s : State) : Option Nat :=
  (List.range 2).findSome? (fun ch =>
    let c := s.rreg (R.RNY_ENC_CFG ch)
    let mode := c / 2 % 8
    let ser := s.rreg (R.RNY_ENC_SER ch)
    if c % 2 == 1 && (mode == 4 || mode == 5) && (match stagedRny (R.RNY_ENC_SER ch) with | some q => !q.ok ser | none => false)
      then some (R.RNY_ENC_SER ch)
    else if c % 2 = 1 ∧ c / 2 ^ 20 % 2 = 1 ∧ s.taken (c / 2 ^ 16 % 16) then some (R.RNY_ENC_CFG ch)
    else none)
  <|> (List.range 2).findSome? (fun e =>
    let c := s.rreg (R.RNY_EMU_CFG e)
    let num := s.rfld (R.RNY_EMU_NUM e) 0 24
    let den := s.rfld (R.RNY_EMU_DEN e) 0 24
    if c % 2 = 0 then none
    else if s.encMode (c / 2 % 2) = 0 then some (R.RNY_EMU_CFG e)
    else if den = 0 ∨ den < num then some (R.RNY_EMU_DEN e)
    else none)

/-- The check of a cast set against the live configuration (R96, R99), with the tables of slots `tabs`; `arm` adds the limit of
generations (R107), and Ronyr judges where the set holds fields of its own (R106). GEN_LIMIT, which no one register causes, is reported with
address 0 and block 0x3F: a DESIGN CHOICE (log 111). -/
def State.judgeSet (s : State) (set rny : KMap W32) (tabs : List Nat) (arm : Bool) : Option CheckFail :=
  let c := s.withSet set rny
  c.rangeFail <|> c.rnyRangeFail <|> c.blockFail tabs <|> c.crossFail <|> c.pinFail <|> c.coverFail <|> c.refFail
    <|> (if arm ∧ 7 < s.gensUsed.length then some ⟨8, 0x3F, 0⟩ else none)
    <|> (if rny = [] then none else (c.ronyrRefuses).map (fun i => ⟨9, 0x36, 2 ^ 31 + i⟩))

/-- The check of CHECK and ARM (R96): the tables of the slots the set writes are copied and judged (R145). -/
def State.stageCheck (s : State) (set rny : KMap W32) (arm : Bool) : Option CheckFail :=
  s.judgeSet set rny (slotsWritten set) arm

end Sys2Proof.Machine
end

