-- ==== Sys2Proof/Machine/CastOps.lean ====
section
/-! DEFINITION. A cast takes effect (R100, R103–R105, R110): the generation, its instant, what the change of live registers does to
cameras, slots, lanes, the time unit and the stripes, the CAST record, and the retained record that follows. -/

namespace Sys2Proof.Machine

/-! ### What a change of live registers does -/

/-- Whether register word `a` differs between two states. -/
def changedAt (old new : State) (a : Nat) : Bool := old.rd a != new.rd a

/-- A receiver that is up follows a change of its equalisation (R124): the staged setting in mode 2; frozen where it is when it goes to
mode 0, which is open after continuous adaptation (log 2). -/
def State.rxeqCast (s old : State) (up : Bool) (cfg stat lo : Nat) : State :=
  if up && changedAt old s cfg then
    let v := if s.fld cfg 0 2 = 2 then s.fld cfg 2 4
      else if old.fld cfg 0 2 = 1 then (Config.measure stat s.free).toNat % 16 else old.fld stat lo 4
    (s.setFld stat lo 4 v).fresh
  else s

/-- Cameras a change of the port registers switches off, on, or over to another composition (R116): a camera that starts anew
begins its bring-up. -/
def State.camChange (s old : State) : State :=
  let moved (m : Nat) : Bool := (old.camPorts m ++ s.camPorts m).any (fun p => changedAt old s (R.CXP_PORT_CFG p))
  let off := (List.range 32).filter (fun m => old.camOn m && (!s.camOn m || moved m))
  let s1 := off.foldl (fun s m => s.stopCam m (old.camPorts m)) s
  let s2 := ((List.range 32).filter (fun m => s1.camOn m && (!old.camOn m || moved m))).foldl (fun s m => s.startCam m) s1
  (List.range 32).foldl (fun s p => s.rxeqCast old (decide (s.fld (R.CXP_PORT_STAT p) 0 3 = 3)) (R.CXP_RXEQ_CFG p) (R.CXP_RXEQ_STAT p) 0) s2

/-- Nolox lanes whose fixed taps changed retrain (R123); their receivers follow their equalisation; ports no longer enabled go DOWN. -/
def State.lnkChange (s old : State) : State :=
  let s0 := (List.range 8).foldl (fun s l => s.rxeqCast old (decide (2 ≤ s.laneState l)) (R.LNK_NLX_RXEQ l) (R.LNK_NLX_LANE_STAT l) 4) s
  let s1 := ((List.range 8).filter (fun l => changedAt old s (R.LNK_NLX_TXEQ l) && !s.bit (R.LNK_NLX_TXEQ l) 16
    && decide (2 ≤ s.laneState l) && decide (s.laneState l ≤ 3))).foldl (fun s l => s.laneRetrain l) s0
  ((List.range 4).filter (fun p => old.portOn p && !s.portOn p && s.fld (R.LNK_NLX_PORT_STAT p) 0 2 != 0)).foldl
    (fun s p => s.portDrop p 0 1) s1

/-- A change of the time source: the servo starts from FREE, with no master and no chain lock (Table 19.2). -/
def State.timChange (s old : State) : State :=
  if s.timSrc = old.timSrc then s
  else
    let s1 : State := { s with tim := { s.tim with master := none, chainOkSince := none, newMaster := false } }
    (((s1.setBit R.TIM_STAT 5 false).setBit R.TIM_STAT 4 false).setFld R.TIM_STAT 8 8 0).enterServo 0

/-- LINE contexts a cast has bound a class to are treated as restored from then on (R317). -/
def State.bindLines (s : State) : State :=
  { s with sch := { s.sch with ctxs := s.sch.ctxs.map (fun e =>
      if e.2.cls = 1 ∧ s.hasClass e.1 then (e.1, { e.2 with restored := true }) else e) } }

/-- The live registers have changed from those of `old`, at the offsets `as`: everything that follows the live configuration does. -/
def State.liveChange (s old : State) (as : List Nat) : State :=
  let s1 := (((s.camChange old).lnkChange old).timChange old).clkUpdate
  ((s1.bindLines).restripe (as.filter (fun a => changedAt old s a))).linePours

/-! ### ROW scope -/

/-- Slots whose ROW-scoped configuration differs between two states (R103, R105, R145): their own registers but those of the tap,
a table named again, and the camera registers that feed them. -/
def rowChanges (old new : State) (as : List Nat) : List Nat :=
  let own (a : Nat) : Option Nat :=
    match slotOfReg a with
    | some j =>
      let z := a % 0x400
      if a % 0x10000 < 0x1000 ∧ ¬ (0x50 ≤ z ∧ z < 0x68) ∧ (changedAt old new a ∨ z = 0x28 ∨ z = 0x2C) then some j else none
    | none => none
  let camReg (a : Nat) : Option Nat :=
    if ¬ changedAt old new a then none
    else if 0x03200000 ≤ a ∧ a < 0x03202000 then some (old.camOf ((a - 0x03200000) / 0x100))
    else if 0x03202300 ≤ a ∧ a < 0x03202380 then some ((a - 0x03202300) / 4)
    else if 0x03210000 ≤ a ∧ a < 0x03220000 then some ((a - 0x03210000) / 0x800)
    else none
  let cams := as.filterMap camReg
  let strs := as.filterMap (fun a =>
    if 0x03202000 ≤ a ∧ a < 0x03202100 ∧ changedAt old new a then some ((a - 0x03202000) / 4) else none)
  let mine := as.filterMap own
  (List.range 64).filter (fun j =>
    mine.contains j || cams.any (fun m => (old.camSlots m).contains j)
      || (old.bit (R.RUN_SRC (j / 4) (j % 4)) 0 && strs.contains (old.fld (R.RUN_SRC (j / 4) (j % 4)) 2 6)))

/-- The cast takes its source from slot `j` (Table 7.5, reason 7): it disables the slot or changes its source, or disables the
stream or the camera that feeds it. -/
def slotCut (old new : State) (j : Nat) : Bool :=
  let a := R.RUN_SRC (j / 4) (j % 4)
  let str := old.fld a 2 6
  let m := old.fld (R.CXP_STREAM_MAP str) 1 5
  old.bit a 0 && (!new.bit a 0 || new.fld a 1 7 != old.fld a 1 7
    || (!old.bit a 1 && ((old.bit (R.CXP_STREAM_MAP str) 0 && !new.bit (R.CXP_STREAM_MAP str) 0) || (old.camOn m && !new.camOn m))))

/-- The cast switches off the camera that feeds slot `j`. -/
def cameraGone (old new : State) (j : Nat) : Bool :=
  let m := old.fld (R.CXP_STREAM_MAP (old.fld (R.RUN_SRC (j / 4) (j % 4)) 2 6)) 1 5
  !old.bit (R.RUN_SRC (j / 4) (j % 4)) 1 && old.camOn m && !new.camOn m

/-- Slot `j` loses its source at `instant` (R105, R146): the block in progress is truncated and counted now; of its lines, those triggered
before the instant still come, but where the camera is off as well, `off`. Waiting lines triggered at or after the instant are dropped, and
with no line left the slot's pieces end. -/
def State.cutSlot (s : State) (instant : Nat) (off : Bool) (j : Nat) : State :=
  let x0 := s.slot j
  let s1 := match x0.blk with
    | some (b, _, got) =>
      if x0.dropRest then s
      else if off then s.truncBlock j 7 b got
      else (let s1 := s.truncCount j 7 b got; s1.setSlot j { s1.slot j with blkCut := true })
    | none => s
  let x := s1.slot j
  let gone := x.inq.filter (fun l => decide (instant ≤ l.row.time))
  let left := x.inq.filter (fun l => decide (l.row.time < instant))
  let s2 := s1.setSlot j { x with inq := match gone with | l :: _ => markLast l.block left | [] => left }
  (gone.foldl (fun s l => s.dropLines j (l.row.count, l.row.count, 1)) s2).slotEnd j

/-- Slot `j` after a cast that wrote its registers: a slot newly enabled starts anew, and rows of an enabled slot triggered at or
after the instant use the bank the check filled (R145). -/
def State.castSlot (s old : State) (instant gen j : Nat) : State :=
  let x := s.slot j
  let a := R.RUN_SRC (j / 4) (j % 4)
  let y : Slot := if s.bit a 0 && !old.bit a 0 then { banks := x.banks, bank := x.bank, enGen := gen } else x
  s.setSlot j (if s.bit a 0 then { y with retired := some instant } else y)

/-- Ronyr receives an arm and staged values across the barrier (R106); the frames that carried them bore the boot count. -/
def State.armWith (s : State) (arm : Nat × Nat × Nat × Nat × Nat) (set : KMap W32) : State :=
  { s with ron := { s.ron with armed := some arm, shadow := set, bootLow := some (s.rd R.GLB_BOOT_COUNT % 256) } }

/-! ### Records -/

/-- Staged words of a map of registers. -/
def stagedOf (m : KMap W32) (word : Nat → Option StWord) : KMap W32 := m.filter (fun e => (word e.1).isSome)

/-- A context's mask as its order named it: bit n is the n-th flask in use (R317). -/
def State.maskBits (s : State) (m : BitVec 32) : BitVec 32 :=
  let fs := s.flasksUsed
  maskOf ((List.range fs.length).filter (fun i => m.toNat.testBit (nth fs i 0)))

/-- The table an enabled slot's newest rows use. -/
def State.newTables (s : State) : KMap CorrTable :=
  s.intk.slots.filterMap (fun e =>
    if s.slotOn e.1 then some (e.1, nth e.2.banks (if e.2.retired.isSome then 1 - e.2.bank else e.2.bank) {}) else none)

/-- The record of the live configuration, with `rny` as the values of Ronyr's fields (R65, R110). -/
def State.recordNow (s : State) (gen : Nat) (rny : KMap W32) : RetRecord :=
  let isLine (x : Nat) : Bool := match s.ctx x with | some c => c.cls == 1 | none => false
  { seq := gen
    cfg := stagedOf s.regs stagedWord
    rny := stagedOf rny stagedRny
    progs := (s.sch.progs.filter (fun l => isLine l.ctx)).map (fun l => (l.id, l.ctx, l.prog))
    lines := (s.sch.ctxs.filter (fun e => e.2.cls == 1)).map (fun e => (e.1, e.2.prio, s.maskBits e.2.mask))
    tables := s.newTables }

/-- Ronyr's fields as a cast leaves them: live values with the cast set over them, a preset applied (R402). -/
def rnyAfter (live set : KMap W32) : KMap W32 :=
  (KMap.overlay live set).map (fun e => if e.1 = R.RNY_ENC_PRESET 0 + 1 ∨ e.1 = R.RNY_ENC_PRESET 1 + 1 then (e.1, e.2 &&& 0x7FFFFFFF) else e)

/-- The CAST record (Table 17.6): generation, instant, pieces truncated so far, a prefix of the hash of the record's body, and the
restore flag. -/
def State.castRecord (s : State) (gen instant : Nat) (rec : RetRecord) (restore : Bool) : State :=
  let h := (Config.sha384Words rec.words).toNat
  s.journal 4 1 [recWord0 4 (b2n restore) 0, gen, lo32 (instant / 1000000000), hi32 (instant / 1000000000), instant % 1000000000,
    s.rd R.STG_TRUNCATED, slice h 31 0, slice h 63 32, slice h 95 64, slice h 127 96]

/-! ### The cast -/

/-- The dirty marks a cast clears: those of its registers not written since (R100). -/
def clearShadow (shadow set : KMap W32) (word : Nat → Option StWord) (kept : Nat → Bool) : KMap W32 :=
  shadow.filter (fun e => (KMap.find set e.1).isNone || (match word e.1 with | some q => kept q.base | none => false))

/-- Put the cast set into the live registers, with the generation kept for the rows and pieces of before (R104, R107). -/
def State.castRegs (s : State) (p : Pending) (gen instant : Nat) (restore : Bool) : State :=
  let as := p.set.map Prod.fst
  let old : Gen := { gen := s.liveGen, instant := s.stage.liveInstant, cfg := stagedOf s.regs stagedWord, rows := s.stage.liveRows }
  let s1 := p.set.foldl (fun s e => s.wr e.1 e.2.toNat) s
  let openNow := (s.line.ledger.filter (fun e => !e.2.trailKnown)).map Prod.fst
  let s2 : State := { s1 with stage := { s1.stage with
    pend := none
    gens := if restore then [] else old :: s1.stage.gens
    liveInstant := instant
    liveRows := if restore then [] else rowChanges s s1 as
    openAtCast := openNow
    shadow := clearShadow s1.stage.shadow p.set stagedWord (fun b => p.rewritten.contains b)
    rnyShadow := clearShadow s1.stage.rnyShadow p.rny stagedRny (fun b => p.rewritten.contains (2 ^ 31 + b)) } }
  let s3 := ((s2.wr R.STG_GEN_LIVE gen).wr R.STG_GEN_PENDING 0).wr R.STG_TRUNCATED 0
  let s4 := (s3.wr64 R.STG_LAST_COUNT (s.mirror p.chan)).wr64 R.STG_LAST_TIME (instant / 1000000000)
  ((s4.wr (R.STG_LAST_TIME + 8) (instant % 1000000000)).setFld R.STG_STATUS 0 3 3).setFld R.STG_STATUS 16 16 0

/-- A cast takes effect at `instant` as generation `gen` (R100): registers switch, each slot, camera, lane and pour follows, vector
11 is sent, and the CAST record is written; but for the restoring cast a retained record follows (R110). -/
def State.castApply (s : State) (p : Pending) (gen instant : Nat) (restore : Bool) : State :=
  let as := p.set.map Prod.fst
  let s1 := s.castRegs p gen instant restore
  let s2 := (slotsWritten p.set).foldl (fun t j => t.castSlot s instant gen j) s1
  let s3 := ((List.range 64).filter (slotCut s s1)).foldl (fun t j => t.cutSlot instant (cameraGone s s1 j) j) s2
  let s4 := s3.liveChange s as
  let rec0 := s4.recordNow gen (rnyAfter s.rny p.rny)
  let s5a := ((s4.msix 11).castRecord gen instant rec0 restore).trace 0x40 35 gen
  let s5 : State := { s5a with sec := { s5a.sec with cfgHash := some (Config.sha384Words rec0.words).toNat } }
  let s6 : State := if restore then s5 else { s5 with stage := { s5.stage with writing := s5.stage.writing ++ [rec0] } }
  s6.waitingStep

end Sys2Proof.Machine
end

