-- ==== Sys2Proof/Machine/Stage.lean ====
section
/-! DEFINITION. The commands of staged configuration (chapter Stage, check and cast): shadow writes, the transaction, casts, debug
writes, and retained records (R93–R112). -/

namespace Sys2Proof.Machine

/-! ### Shadow writes -/

/-- A write that the staging block ignores is counted (R94, R109). -/
def State.stgIgnored (s : State) : State := s.inc R.STG_IGNORED

/-- A host write of `v` to the staged register at `a` (R94). -/
def State.stagedWrite (s : State) (a v : Nat) : State :=
  if (stagedWord a).isNone then s else if s.shadowOpen then s.shadowWrite a v else s.stgIgnored

/-- STAGED_WRITE (R94): a write to a staged register lands in the staging shadow and marks it dirty, or is ignored and counted. -/
def execStagedWrite (t : Nat) (off : BitVec 26) (v : W32) (s : State) : Host.Outcome State Fault Refusal :=
  let s := s.at' t
  if s.running then done (s.stagedWrite off.toNat v.toNat) else done s

/-! ### The transaction -/

/-- `STG_STATUS.state`: 0 IDLE, 1 CHECKING, 2 PENDING, 3 DONE, 4 REFUSED. -/
def State.stgState (s : State) : Nat := s.fld R.STG_STATUS 0 3

/-- Refuse a CHECK or an ARM: state, code, the failure found, and vector 11 (R100). A refusal for another reason than a failure found
leaves `STG_CHECK_RESULT` and `STG_CHECK_ADDR` at 0, as a pass does: a DESIGN CHOICE (log 111). -/
def State.stgRefuse (s : State) (code : Nat) (f : Option CheckFail) : State :=
  let s1 := (s.setFld R.STG_STATUS 0 3 4).setFld R.STG_STATUS 16 16 code
  let s2 := match f with
    | some f => (s1.wr R.STG_CHECK_RESULT (f.reason + f.block * 256)).wr R.STG_CHECK_ADDR f.addr
    | none => (s1.wr R.STG_CHECK_RESULT 0).wr R.STG_CHECK_ADDR 0
  ({ s2 with stage := { s2.stage with pend := none } }).msix 11

/-- The parameters a write of `ctrl` to `STG_CTRL` names, with those of the cast registers, and the dirty registers as they stand
(R98). -/
def State.stgParams (s : State) (ctrl : Nat) (arm : Bool) : Pending :=
  { mode := ctrl / 16 % 4, chan := ctrl / 64 % 2, dir := ctrl / 128 % 2, count := s.rd64 R.STG_CAST_COUNT % 2 ^ 48
    time := s.rd64 R.STG_CAST_TIME * 1000000000 + s.rd (R.STG_CAST_TIME + 8), lead := s.rd R.STG_CAST_LEAD
    set := s.stage.shadow, rny := s.stage.rnyShadow, arm := arm }

/-- The operation needs Ronyr's answer (R106): it holds Ronyr fields, or arms a count cast. -/
def Pending.needsRonyr (p : Pending) : Bool := p.rny != [] || (p.arm && p.mode == 2)

/-- Store the direct fields of a write to `STG_CTRL`; op reads 0 once taken (Table 5.5). -/
def State.stgCtrl (s : State) (ctrl : Nat) : State := s.wr R.STG_CTRL (ctrl / 16 % 16 * 16)

/-- CHECK or ARM is written (R96–R98, R106): ignored while an operation runs, refused while a cast is pending, refused at once when it
needs Ronyr and the barrier heartbeat is lost; else it runs on the registers that are dirty now. -/
def State.stgStart (s : State) (ctrl : Nat) (arm : Bool) : State :=
  let s0 := s.stgCtrl ctrl
  if s0.stgState = 1 then s0.stgIgnored
  else if s0.stgState = 2 then (s0.setFld R.STG_STATUS 16 16 E_CAST_PENDING).msix 11
  else
    let p := s0.stgParams ctrl arm
    let s1 := s0.setBit R.STG_STATUS 3 false
    if p.needsRonyr ∧ s1.line.validSince = none then s1.stgRefuse E_BARRIER_HB none
    else { (s1.setFld R.STG_STATUS 0 3 1).setFld R.STG_STATUS 16 16 0 with stage := { s1.stage with pend := some p } }

/-- STAGE_CHECK (R96): CHECK is written to `STG_CTRL.op`. -/
def execStageCheck (t : Nat) (ctrl : W32) (s : State) : Host.Outcome State Fault Refusal :=
  let s := s.at' t
  if s.running then done (s.stgStart ctrl.toNat false) else done s

/-- STAGE_ARM (R100): ARM is written to `STG_CTRL.op`. -/
def execStageArm (t : Nat) (ctrl : W32) (s : State) : Host.Outcome State Fault Refusal :=
  let s := s.at' t
  if s.running then done (s.stgStart ctrl.toNat true) else done s

/-- Every dirty mark is cleared (Table 5.1). -/
def State.stgDiscard (s : State) : State := { s with stage := { s.stage with shadow := [], rnyShadow := [] } }

/-- The state returns to IDLE with nothing armed; a DISCARD held during the check applies now (R98, R108). Where the arm had been accepted
with a part of Ronyr's, `armed`, Ronyr discards that too; what Ronyr still has to apply of an earlier cast stays. -/
def State.stgIdle (s : State) (armed : Bool) : State :=
  let held := match s.stage.pend with | some p => p.discardHeld | none => false
  let s0 : State := { s with stage := { s.stage with pend := none } }
  let s1 : State := if armed then { s0 with ron := { s0.ron with armed := none, shadow := [] } } else s0
  let s2 := ((s1.setFld R.STG_STATUS 0 3 0).setFld R.STG_STATUS 16 16 0).wr R.STG_GEN_PENDING 0
  if held then s2.stgDiscard else s2

/-- A pending cast has taken effect already as R108 judges it: one with Ronyr fields once Ronyr has applied them, one without once the
mirror shows the crossing or T has come. -/
def State.cancelLate (s : State) (p : Pending) : Bool :=
  if p.rny ≠ [] then s.crossing.isSome || (decide (p.mode = 1) && s.ron.armed.isNone)
  else if p.mode = 2 then decide (0 ≤ dist (decide (p.dir = 1)) p.count (s.mirror p.chan))
  else decide (p.time ≤ s.tim.ns)

/-- CANCEL is written (R98, R108): a running check is withdrawn; a pending cast too, unless it comes too late. -/
def State.stgCancel (s : State) (ctrl : Nat) : State :=
  let s0 := s.stgCtrl ctrl
  match s0.stage.pend with
  | none => s0
  | some p =>
    if s0.stgState = 1 then s0.stgIdle false
    else if s0.stgState = 2 then
      (if s0.cancelLate p then s0.setBit R.STG_STATUS 3 true else (s0.stgIdle p.needsRonyr).waitingStep)
    else s0

/-- STAGE_CANCEL (R108): CANCEL is written to `STG_CTRL.op`. -/
def execStageCancel (t : Nat) (ctrl : W32) (s : State) : Host.Outcome State Fault Refusal :=
  let s := s.at' t
  if s.running then done (s.stgCancel ctrl.toNat) else done s

/-- A DISCARD written to `STG_CTRL`: the shadow empties, at once or, while CHECKING, when the check ends (R98). -/
def State.stgDiscardOp (s : State) (ctrl : Nat) : State :=
  let s1 := s.stgCtrl ctrl
  if s1.stgState = 1 then
    { s1 with stage := { s1.stage with pend := s1.stage.pend.map (fun p => { p with discardHeld := true }) } }
  else s1.stgDiscard

/-- STAGE_DISCARD (R96, R98): every dirty mark clears, at once or when the running check ends. -/
def execStageDiscard (t : Nat) (ctrl : W32) (s : State) : Host.Outcome State Fault Refusal :=
  let s := s.at' t
  if s.running then done (s.stgDiscardOp ctrl.toNat) else done s

/-! ### The end of a check -/

/-- The check copies the tables of the slots it writes into their banks not in use (R145). -/
def State.copyTables (s : State) (p : Pending) : State :=
  let c := s.withSet p.set p.rny
  ((slotsWritten p.set).filter c.slotOn).foldl (fun s j =>
    let x := s.slot j
    s.setSlot j { x with banks := setNth x.banks (1 - x.bank) (c.readTable j) }) s

/-- The check reads the tables of the slots it writes: an uncorrectable line of one is counted and raised (R181), by a runner. -/
def State.tableReads (s : State) (p : Pending) : State :=
  let c := s.withSet p.set p.rny
  ((slotsWritten p.set).filter c.slotOn).foldl (fun s j =>
    match c.tblPoison j with
    | some l => s.memUncorr l 3 0 0
    | none => s) s

/-- Ronyr receives the staged values and the instant of an accepted arm (R106), after it has applied what is due of an earlier cast: the
frame that carries the arm follows that cast's T (Table 5.3). -/
def State.armRonyr (s : State) (p : Pending) : State :=
  if p.rny = [] ∧ p.mode ≠ 2 then s
  else s.applyFrame.armWith (p.mode, p.chan, p.dir, p.count, if p.mode = 1 then p.time else s.tim.ns) p.rny

/-- The instant has passed already (R102): a count within the lead of the mirror or crossed on Ronyr's own counter, a time not
later than now. -/
def State.castPast (s : State) (p : Pending) : Bool :=
  let rev := decide (p.dir = 1)
  if p.mode = 2 then
    decide (dist rev (s.mirror p.chan) p.count ≤ max 256 p.lead) || decide (0 ≤ dist rev p.count (s.enc p.chan).p)
  else if p.mode = 1 then decide (p.time ≤ s.tim.ns)
  else false

/-- A DISCARD held during the check is applied as it ends (R98). -/
def State.heldDiscard (s : State) (p : Pending) : State := if p.discardHeld then s.stgDiscard else s

/-- An ARM whose check passed: refused as past, or armed; an immediate cast takes effect now (R100–R102). Mode 3, to which Table 5.5 gives
no meaning, is refused as FIELD_RANGE at `STG_CTRL`, block 0x3F: a DESIGN CHOICE (log 111). -/
def State.stgArm (s : State) (p : Pending) : State :=
  if p.mode = 3 then s.stgRefuse E_STAGE_CHECK (some ⟨1, 0x3F, R.STG_CTRL⟩)
  else if s.castPast p then s.stgRefuse E_CAST_PAST none
  else
    let q := { p with armedAt := s.tim.ns, discardHeld := false }
    let s1 := (((s.copyTables p).armRonyr p).wr R.STG_CHECK_RESULT 0).wr R.STG_CHECK_ADDR 0
    if p.mode = 0 then s1.castApply q ((s.liveGen + 1) % 2 ^ 32) s.tim.ns false
    else
      let s2 : State := { s1 with stage := { s1.stage with pend := some q } }
      ((s2.setFld R.STG_STATUS 0 3 2).setFld R.STG_STATUS 16 16 0).wr R.STG_GEN_PENDING ((s.liveGen + 1) % 2 ^ 32)

/-- The running check completes (R96, R99). -/
def State.stgComplete (s : State) (p : Pending) : State :=
  if p.needsRonyr ∧ s.line.validSince = none then (s.stgRefuse E_BARRIER_HB none).heldDiscard p
  else match s.stageCheck p.set p.rny p.arm with
    | some f => ((s.tableReads p).stgRefuse E_STAGE_CHECK (some f)).heldDiscard p
    | none =>
      if p.arm then (s.stgArm p).heldDiscard p
      else ((s.wr R.STG_CHECK_RESULT 0).wr R.STG_CHECK_ADDR 0).stgIdle false

/-- STAGE_CHECK_COMPLETE (R99): a running check completes. -/
def execStageCheckComplete (t : Nat) (s : State) : Host.Outcome State Fault Refusal :=
  let s := s.at' t
  match s.stage.pend with
  | some p => if s.running ∧ s.stgState = 1 then done (s.stgComplete p) else done s
  | none => done s

/-! ### Instants -/

/-- The pending cast takes effect at `instant` (R100). -/
def State.castNow (s : State) (p : Pending) (instant : Nat) : State := s.castApply p ((s.liveGen + 1) % 2 ^ 32) instant false

/-- CAST_TIME_REACHED (R101): device time reaches T of a pending time cast. -/
def execCastTimeReached (t : Nat) (s : State) : Host.Outcome State Fault Refusal :=
  let s := s.at' t
  match s.stage.pend with
  | some p => if s.running ∧ s.stgState = 2 ∧ p.mode = 1 ∧ p.time ≤ s.tim.ns then done (s.castNow p p.time) else done s
  | none => done s

/-- CAST_COUNT_CROSSING (R103): the count mirror shows the crossing of N; its instant is the crossing on Ronyr's own counter
(R101). -/
def execCastCountCrossing (t : Nat) (s : State) : Host.Outcome State Fault Refusal :=
  let s := s.at' t
  match s.stage.pend with
  | some p =>
    if s.running ∧ s.stgState = 2 ∧ p.mode = 2 ∧ 0 ≤ dist (decide (p.dir = 1)) p.count (s.mirror p.chan) then
      done (s.castNow p (s.crossing.getD s.tim.ns))
    else done s
  | none => done s

/-- RONYR_APPLY_REPORT (R393): Ronyr's application report arrives; a count cast the mirror has not applied yet takes effect. -/
def execRonyrApplyReport (t : Nat) (s : State) : Host.Outcome State Fault Refusal :=
  let s := s.at' t
  let isApplied (m : Msg) : Bool := match m with | .applied _ => true | _ => false
  match (if s.running then s.line.rx.find? isApplied else none) with
  | some (.applied i) =>
    let s1 : State := { s with line := { s.line with rx := s.line.rx.erase (.applied i) } }
    (match s1.stage.pend with
     | some p => if s1.stgState = 2 ∧ p.mode = 2 ∧ p.armedAt ≤ i then done (s1.castNow p i) else done s1
     | none => done s1)
  | _ => done s

/-- RETAINED_RECORD_COMPLETE (R110): SC finishes the oldest record being written; the ring holds 64. -/
def execRetainedRecordComplete (t : Nat) (s : State) : Host.Outcome State Fault Refusal :=
  let s := s.at' t
  match s.stage.writing with
  | [] => done s
  | r :: rest =>
    if s.running ∧ s.scUp = true then
      let s1 : State := { s with stage := { s.stage with
        writing := rest, records := keepLast (s.stage.records ++ [r.seal]) 64 } }
      done (s1.wr R.STG_GEN_RETAINED r.seq)
    else done s

/-! ### Debug writes -/

/-- Block `b` is quiesced (R109). -/
def State.quiesced (s : State) (b : Nat) : Bool :=
  if b < 0x20 then
    s.quiesceAsked b && (List.range 4).all (fun f => (s.fet (b * 4 + f)).isNone) && !(s.sch.deques.any (fun d => d.1 == b))
  else if b < 0x30 then (List.range 4).all (fun k => !s.slotOn (4 * (b - 0x20) + k))
  else if b = 0x30 then (List.range 32).all (fun p => !s.bit (R.CXP_PORT_CFG p) 0)
  else if b = 0x33 then s.line.ledger == [] && s.ron.fires == []
  else if b = 0x36 then false
  else decide (s.phase = 0xA)

/-- `STG_QUIESCED`: the block named in `STG_QUIESCE` is quiesced. -/
def State.quiescedNow (s : State) : Bool := s.quiesced (s.fld R.STG_QUIESCE 0 6)

/-- SCH moves the tasks that wait in the deques of flask `n` to the flasks of their contexts where it may place tasks, round-robin (R109,
R321); one with no other flask stays. -/
def State.moveTasks (s : State) (n : Nat) : State :=
  let moved := (s.sch.deques.filter (fun d => d.1 == n && s.placeable d.2.1 != []))
  (List.range moved.length).foldl (fun s i =>
    let d := nth moved i (0, 0, 0, 0)
    let fl := s.placeable d.2.1
    ({ s with sch := { s.sch with deques := s.sch.deques.erase d } }).pushTask (nth fl (i % max 1 fl.length) n) d.2.1 d.2.2.1 d.2.2.2) s

/-- QUIESCE_REQUEST (R109): `STG_QUIESCE` is written; SCH moves the waiting tasks of a flask named there away, and places none on it while
the request stands. A started task stays until it ends (R320). -/
def execQuiesceRequest (t : Nat) (v : W32) (s : State) : Host.Outcome State Fault Refusal :=
  let s := s.at' t
  if s.running then
    let s1 := s.wr R.STG_QUIESCE (v.toNat % 64 + v.toNat / 256 % 2 * 256)
    done (if s1.quiesceAsked (v.toNat % 64) then s1.moveTasks (v.toNat % 64) else s1)
  else done s

/-- A debug write of `v` to the live register named in `STG_DBG_ADDR` (R109): ignored and counted while live debug is locked or where
the offset is no staged register's, refused unless its block is the one named and quiesced, and always for Ronyr's fields. -/
def State.debugWrite (s : State) (v : Nat) : State :=
  let a := s.rd R.STG_DBG_ADDR
  if !s.bit R.SEC_STAT 5 then s.stgIgnored
  else if 2 ^ 31 ≤ a then s.setFld R.STG_STATUS 16 16 E_LIVE_BUSY
  else match stagedWord a with
    | none => s.stgIgnored
    | some q =>
      if blockOf a ≠ s.fld R.STG_QUIESCE 0 6 ∨ s.quiescedNow = false then s.setFld R.STG_STATUS 16 16 E_LIVE_BUSY
      else
        let s1 := ((s.wr a (q.keep v)).setBit R.STG_STATUS 4 true).liveChange s [a]
        let s2 : State := { s1 with sec := { s1.sec with liveSince := true } }
        s2.journalEvent 0 0 [a, q.keep v, s.rd a, 0]

/-- DEBUG_WRITE (R109): a write to `STG_DBG_DATA`. -/
def execDebugWrite (t : Nat) (v : W32) (s : State) : Host.Outcome State Fault Refusal :=
  let s := s.at' t
  if s.running then done (s.debugWrite v.toNat) else done s

end Sys2Proof.Machine
end

