-- ==== Sys2Proof/Machine/Barrier.lean ====
section
/-! DEFINITION. The barrier link between Cuette and Ronyr (R391–R395): frames in both directions, heartbeat loss, the
acknowledgement of SAFE, and the access to Ronyr's registers (R414, R415). -/

namespace Sys2Proof.Machine

/-- The barrier link is up on Cuette's side: Cuette runs, self-test is behind it and VISO is up (Table 18.7). -/
def State.linkUp (s : State) : Bool := s.running && s.mod.visoUp && s.boot.released

/-! ### Frames from Ronyr -/

/-- The filtered inputs a frame carries (Table 18.1). -/
def State.inputWord (s : State) : BitVec 16 := bits16 s.inputState

/-- The frame's count samples reach the mirror (R391, Table 17.10), which shows an index that does not come (R434). -/
def State.frameCounts (s : State) : State :=
  let s1 := [0, 1].foldl (fun s ch => s.wr64 (R.LIN_MIRROR ch) (s.enc ch).p) s
  [0, 1].foldl State.alignWatch s1

/-- Ronyr is in its field safe state for a cause of its own (Table 21.5 cause 6). Heartbeat loss counts once Ronyr has had a frame of
this boot of Cuette, whose reset alone brings it about (Table 18.7). -/
def State.ownSafe (s : State) : Bool :=
  let own := if s.ron.bootLow = some (s.rd R.GLB_BOOT_COUNT % 256) then s.ownCauses else s.ownCauses &&& 0x3E
  s.ron.safe && decide (own ≠ 0)

/-- A fire report for order `o` has been delivered already. -/
def State.fireSeen (s : State) (o : TapOrder) : Bool :=
  s.line.rx.any (fun m => match m with
    | .fire q _ _ _ _ => q.serial == o.serial && q.tap == o.tap && q.noent == o.noent
    | _ => false)

/-- Taps of entry `i` that wait for an answer or a report and were sent under another epoch than `ep` become unfired, each a lost fire
(R395). -/
def State.epochEntry (s : State) (ep i : Nat) : State :=
  ((List.range 4).foldl (fun s k =>
    match s.entry i with
    | none => s
    | some e =>
      let st := nth e.taps k .off
      if (st = .sent ∨ st = .retry ∨ st = .queued) ∧ nth e.tapEpoch k 0 ≠ ep
          ∧ s.fireSeen { serial := lo32 e.serial, tap := k } = false then
        (s.setTap i k .unfired).lostFire
      else s) s).tryFree i

/-- The queue epoch `ep` of a frame (R395): where it differs from the last one seen, orders sent under an earlier one with no fire
report become unfired. -/
def State.epochFrame (s : State) (ep : Nat) : State :=
  if ep = s.line.epochSeen then s
  else
    let s1 := (s.line.ledger.map Prod.fst).foldl (fun s i => s.epochEntry ep i) s
    let gone := s1.line.noent.filter (fun e => !s1.fireSeen e.1)
    let s2 : State := { s1 with line := { s1.line with noent := s1.line.noent.filter (fun e => s1.fireSeen e.1) } }
    let s3 := gone.foldl (fun s _ => s.lostFire) s2
    ({ s3 with line := { s3.line with epochSeen := ep } }).setFld R.LIN_RNY_LINK 16 8 ep

/-- The live bit is set with a valid Ronyr frame; after the fallback of R471 only once the frame shows the field safe state (R392). -/
def State.liveFrame (s : State) : State :=
  if s.line.fallback && !s.ron.safe then s
  else { s with line := { s.line with live := true, fallback := false } }

/-- The frame acknowledges a SAFE that Ronyr has received (R471). -/
def State.ackFrame (s : State) : State :=
  if s.ron.ackSafe then
    { s with ron := { s.ron with ackSafe := false }, line := { s.line with safeAcked := true, safeSent := none } }
  else s

/-- The message slot of a frame (R391): Ronyr's oldest message. Diagnostic events are raised as they arrive; the rest waits for the
command that acts on it. -/
def State.slotFrame (s : State) : State :=
  match s.ron.tx with
  | [] => s
  | m :: rest =>
    let s1 : State := { s with ron := { s.ron with tx := rest } }
    match m with
    | .event code w2 w3 => s1.raise code { w2 := w2, w3 := w3 }
    | m => { s1 with line := { s1.line with rx := s1.line.rx ++ [m] } }

/-- Device time of an instant `a` of the interval timer (R121). -/
def State.devAt (s : State) (a : Nat) : Nat := s.tim.ns - (s.now - a)

/-- Hand an edge report of emulated output `e` to the cameras whose master port selects it (R121, R407). -/
def State.edgeTo (s : State) (e : Nat) (r : Nat × Nat) (lost : Bool) : State :=
  (List.range 32).foldl (fun s p =>
    if s.bit (R.CXP_PORT_CFG p) 0 && decide (s.fld (R.CXP_TRIG_CFG p) 0 2 = e + 1) then
      let c := s.cam p
      s.setCam p { c with edges := c.edges ++ [(r.1, s.devAt r.2, lost)] }
    else s) s

/-- The edge-report slots of a frame, one per emulated output, and the edges and reports dropped since (Table 18.1, R407). -/
def State.edgeFrame (s : State) : State :=
  [0, 1].foldl (fun s e =>
    let m := s.emu e
    let s1 := s.setEmu e { m with reports := m.reports.drop 1, dropped := [] }
    let s2 := (m.reports.take 1).foldl (fun s r => s.edgeTo e r false) s1
    m.dropped.foldl (fun s r => s.edgeTo e r true) s2) s

/-- The field state of a frame: a cause of Ronyr's own that it did not show before enters the safe state (Table 21.5 cause 6). -/
def State.fieldFrame (s : State) : State :=
  let own := s.ownSafe
  let s1 : State := { s with line := { s.line with fieldSafe := s.ron.safe, fieldOwn := own } }
  if own && !s.line.fieldOwn then s1.safeEnter 6 else s1

/-- The acknowledgement input: a rising edge of the filtered `ack_in`, while ack_en is 1 (R473). -/
def State.ackInput (s : State) : State :=
  let lvl := s.line.inputs.getLsbD (s.fld R.PWR_SAFE_CFG 3 4)
  let s1 : State := { s with pwr := { s.pwr with ackLevel := lvl } }
  if s.bit R.PWR_SAFE_CFG 2 && lvl && !s.pwr.ackLevel then s1.safeAck else s1

/-- RESUME goes out again every 10 ms while line work runs, the device is not in its safe state and Ronyr's frames show the field safe
state (R395). -/
def State.resumeFrame (s : State) : State :=
  let due := match s.line.resumeAt with | some a => decide (a + 10 * ms ≤ s.now) | none => true
  if s.boot.lineStarted && !s.safe && !s.sec.fault && s.line.fieldSafe && due then s.sendResume else s

/-- A valid Ronyr frame arrives at line control. -/
def State.ronyrFrame (s : State) : State :=
  let s1 : State := (s.frameCounts)
  let s2 : State := { s1 with line := { s1.line with
    frameAt := s1.now, validSince := some (s1.line.validSince.getD s1.now), inputs := s1.inputWord } }
  (((((((s2.liveFrame).epochFrame s2.epoch).fieldFrame).ackFrame).slotFrame).edgeFrame).ackInput).resumeFrame

/-- A Ronyr frame that fails its CRC is discarded whole and counted for `LIN_RNY_LINK` (R391, Table 18.10). -/
def State.frameDiscard (s : State) : State :=
  { s with line := { s.line with
    badFrames := s.line.badFrames.filter (fun a => decide (s.now < a + 1000 * ms)) ++ [s.now] } }

/-- BARRIER_FRAME_FROM_RONYR (R391): a Ronyr frame, whose CRC passes or not. -/
def execBarrierFrameFromRonyr (f : BarrierFrame) (s : State) : Host.Outcome State Fault Refusal :=
  let s := s.at' f.t
  if !s.linkUp then doneR s else if f.crc then doneR s.ronyrFrame else doneR s.frameDiscard

/-! ### Frames to Ronyr -/

/-- The orders of entry `i` that found Ronyr's queue full are sent again (R376). -/
def State.retryEntry (s : State) (i : Nat) (e : LEntry) : State :=
  let rev := s.classRev e.gen e.cls
  let chan := s.classChan e.gen e.cls
  let len := if e.nominal then s.nominalLen e.gen e.cls else dist rev e.lead e.trail
  let plans := (s.actionTaps e.gen e.cls e.action).filter (fun p => decide (nth e.taps p.tap .off = .retry))
  let os := plans.map (fun p => tapOrderOf chan rev p e.lead len i false e.serial)
  let e1 : LEntry := { e with
    taps := e.taps.map (fun st => if st = .retry then .sent else st)
    tapEpoch := (List.range 4).map (fun k => if nth e.taps k .off = .retry then s.line.epochSeen else nth e.tapEpoch k 0) }
  if os = [] then s
  else os.foldl (fun s _ => s.inc R.LIN_TAPQ_RETRY) ((s.setEntry i e1).sendTaps os)

/-- Every order that found the queue full is sent again, in every frame (R376). -/
def State.retryFrame (s : State) : State := s.line.ledger.foldl (fun s e => s.retryEntry e.1 e.2) s

/-- A boot count other than the last frame's makes Ronyr discard its shadow and its pending arm (R393). -/
def State.bootFrame (s : State) : State :=
  let low := s.rd R.GLB_BOOT_COUNT % 256
  let new := match s.ron.bootLow with | some b => decide (b ≠ low) | none => false
  let s1 : State := { s with ron := { s.ron with bootLow := some low } }
  if new then { s1 with ron := { s1.ron with shadow := [], armed := none } } else s1

/-- A frame with the live bit is a valid heartbeat frame (R392). -/
def State.beatFrame (s : State) : State :=
  if s.line.live then
    ({ s with ron := { s.ron with beatAt := s.now, beatSince := some (s.ron.beatSince.getD s.now) } }).causeAbsent 0
  else s

/-- The message slot of a frame to Ronyr (R391). -/
def State.slotOut (s : State) : State :=
  match s.line.tx with
  | [] => s
  | m :: rest => { s with line := { s.line with tx := rest }, ron := { s.ron with rx := s.ron.rx ++ [m] } }

/-- A Cuette frame reaches Ronyr. -/
def State.frameOut (s : State) : State :=
  let s1 : State := { s with
    line := { s.line with frameSeq := s.line.frameSeq + 1 }
    ron := { s.ron with lastSeq := some s.line.frameSeq, healthy := s.healthy } }
  ((((s1.retryFrame).bootFrame).beatFrame).slotOut).applyFrame

/-- BARRIER_FRAME_TO_RONYR (R391, R392): a Cuette frame reaches Ronyr, which discards one that fails its CRC whole; the message in its
slot stays for the next frame. -/
def execBarrierFrameToRonyr (f : BarrierFrame) (s : State) : Host.Outcome State Fault Refusal :=
  let s := s.at' f.t
  if !s.linkUp then doneR s
  else if f.crc then doneR s.frameOut
  else doneR { s with line := { s.line with frameSeq := s.line.frameSeq + 1 } }

/-! ### Heartbeat loss -/

/-- The operation that waits for Ronyr's answer is refused (R106). -/
def State.refuseWaiting (s : State) : State :=
  match s.stage.pend with
  | some p => if s.stgState = 1 ∧ p.needsRonyr then (s.stgRefuse E_BARRIER_HB none).heldDiscard p else s
  | none => s

/-- CUETTE_HEARTBEAT_LOSS (R392): 1,000 µs without a valid Ronyr frame. -/
def execCuetteHeartbeatLoss (t : Nat) (s : State) : Host.Outcome State Fault Refusal :=
  let s := s.at' t
  if s.running ∧ 4 ≤ s.phase ∧ s.line.frameAt + ms ≤ s.now ∧ (s.line.live = true ∨ s.line.validSince.isSome = true) then
    let s1 := s.raiseLim E_BARRIER_HB 0 (10 * ms) {}
    let s2 : State := { s1 with line := { s1.line with live := false, validSince := none } }
    done ((s2.refuseWaiting).safeEnter 2)
  else done s

/-- SAFE_ACK_TIMEOUT (R471): 100 µs without Ronyr's acknowledgement of SAFE. -/
def execSafeAckTimeout (t : Nat) (s : State) : Host.Outcome State Fault Refusal :=
  let s := s.at' t
  match s.line.safeSent with
  | some a =>
    if s.running ∧ a + 100000 ≤ s.now ∧ s.line.safeAcked = false then
      done { s with line := { s.line with live := false, fallback := true } }
    else done s
  | none => done s

/-! ### Access to Ronyr's registers -/

/-- `RNY_STAT` (Table 18.8). -/
def State.rnyStat (s : State) : Nat :=
  b2n s.ron.safe + 2 * b2n s.ron.beatSince.isSome + 4 * b2n (decide (17000 ≤ s.ron.lplusMv)) + 8 * b2n s.cutoffClosed
    + 16 * b2n s.pinsOf.lhClosed + 256 * s.epoch

/-- `RNY_OUT_DIAG[k]`: its latches, latched off, and the restarts of the last 10 s (Table 18.8). -/
def State.outDiag (s : State) (k : Nat) : Nat :=
  let d := s.drv k
  s.rreg (R.RNY_OUT_DIAG k) % 64 + 64 * b2n d.off
    + 256 * ((d.restarts.filter (fun x => decide (s.now < x + 10000 * ms))).length % 256)

/-- `RNY_ENC_SPEED[ch]`: 0 once no step has come for 100 ms (R404). -/
def State.encSpeed (s : State) (ch : Nat) : Nat :=
  match (s.enc ch).lastAt with
  | some a => if a + 100 * ms ≤ s.now then 0 else s.rreg (R.RNY_ENC_SPEED ch)
  | none => 0

/-- Ronyr's register at index `i` as a read returns it (Table 18.8). -/
def State.rnyView (s : State) (i : Nat) : Nat :=
  if i = R.RNY_STAT then s.rnyStat
  else if i = R.RNY_TAPQ then s.ron.fires.length % 2 ^ 13 + s.rfld R.RNY_TAPQ 16 16 * 2 ^ 16
  else if i = R.RNY_SUPPLY then s.ron.lplusMv / 10 % 2 ^ 16 + s.rfld R.RNY_SUPPLY 16 8 * 2 ^ 16
  else if i = R.RNY_IN_STATE then
    s.inputWord.toNat + (bits16 (fun k => s.rbit (R.RNY_IN_STAT k) 1)).toNat * 2 ^ 16
  else if i = R.RNY_OUT_STATE then (bits16 s.driven).toNat + s.ron.energised.toNat * 2 ^ 16
  else if 0x100 ≤ i ∧ i < 0x180 then
    let ch := (i - 0x100) / 0x40
    let e := s.enc ch
    let o := (i - 0x100) % 0x40
    if o = 0x10 then lo32 e.p else if o = 0x11 then hi32 e.p
    else if o = 0x12 then lo32 e.r else if o = 0x13 then hi32 e.r
    else if o = 0x1A then s.encSpeed ch else s.rreg i
  else if 0x400 ≤ i ∧ i < 0x440 then
    (if i % 4 = 1 then s.outDiag ((i - 0x400) / 4) else if i % 4 = 2 then (Config.measure (2 ^ 31 + i) s.free).toNat % 2 ^ 24
     else s.rreg i)
  else s.rreg i

/-- A write of `v` to the direct register at index `i` (Table 18.8); one to an index that is read only is ignored. The field safe
state keeps `RNY_OUT_SET` clear. -/
def State.rnyDirect (s : State) (i v : Nat) : State :=
  if i = R.RNY_OUT_SET then s.setRreg R.RNY_OUT_SET (if s.ron.safe then 0 else v / 256 % 256 * 256)
  else if i = R.RNY_ENC_FLAGS 0 ∨ i = R.RNY_ENC_FLAGS 1 then
    s.setRreg i ((List.range 3).foldl (fun a k => a + b2n (s.rbit i k && !v.testBit k) * 2 ^ k) 0)
  else if 0x400 ≤ i ∧ i < 0x440 ∧ i % 4 = 1 then s.clearDiag ((i - 0x400) / 4) v
  else s

/-- `LIN_RNY_STAT`: state and code of the access (Table 18.10). -/
def State.rnyResult (s : State) (st code : Nat) : State := s.wr R.LIN_RNY_STAT (st + code * 2 ^ 16)

/-- An access read through `LIN_RNY_CTRL` (R415). -/
def State.rnyRead (s : State) : State :=
  if s.line.validSince = none then s.rnyResult 3 E_BARRIER_HB
  else ((s.wr R.LIN_RNY_DATA (s.rnyView (s.fld R.LIN_RNY_ADDR 0 16))).rnyResult 2 0).fresh

/-- RONYR_READ (R415): read go returns the live value of the index named, or is refused while the heartbeat is lost. -/
def execRonyrRead (t : Nat) (s : State) : Host.Outcome State Fault Refusal :=
  let s := s.at' t
  if s.running then doneR s.rnyRead else doneR s

/-- An access write through `LIN_RNY_CTRL` (R415): a staged register takes it in its shadow (R94). -/
def State.rnyWrite (s : State) : State :=
  let i := s.fld R.LIN_RNY_ADDR 0 16
  let v := s.rd R.LIN_RNY_DATA
  if s.line.validSince = none then s.rnyResult 3 E_BARRIER_HB
  else
    let s1 := if (stagedRny i).isSome then (if s.shadowOpen then s.rnyShadowWrite i v else s.stgIgnored) else s.rnyDirect i v
    s1.rnyResult 2 0

/-- RONYR_WRITE (R415): write go: a staged index lands in the shadow on the Cuette side (R94), a direct one crosses the link. -/
def execRonyrWrite (t : Nat) (s : State) : Host.Outcome State Fault Refusal :=
  let s := s.at' t
  if s.running then doneR s.rnyWrite else doneR s

end Sys2Proof.Machine
end

