-- ==== Sys2Proof/Machine/Boot.lean ====
section
/-! DEFINITION. The commands of bring-up up to the release of SCH (R52–R64): ROM start, image verification, recovery and
self-test. -/

namespace Sys2Proof.Machine

/-- Strap `i` was asserted at the last sampling: 0 FACTORY#, 1 STRICT_BIST#, 2 HOSTLESS#, 3 RECOVERY# (Table 3.5). -/
def State.strap (s : State) (i : Nat) : Bool := s.bit R.GLB_STRAPS i

/-- Set the state of firmware processor `i` (Table 22.7). -/
def State.setFw (s : State) (i st : Nat) : State := s.setFld (R.DBG_FW_STAT i) 0 2 st

/-- The newest complete retained record (R110). -/
def State.newestRecord (s : State) : Option RetRecord :=
  s.stage.records.foldl (fun a r =>
    if r.complete then (match a with | none => some r | some b => if b.seq ≤ r.seq then some r else a) else a) none

/-- The factory state is selected for this boot (R67). -/
def State.factoryBoot (s : State) : Bool := s.strap 0 || s.boot.factoryNow || s.newestRecord.isNone

/-- The generation this boot restores; 0 in the factory state (Table 3.5). -/
def State.bootGen (s : State) : Nat :=
  if s.factoryBoot then 0 else match s.newestRecord with | some r => r.seq | none => 0

/-- The boot stops with phase `ph` and code `c`, and the boot record is written (R58, R63, R64; log 20). -/
def State.bootStop (s : State) (ph c rc : Nat) : State := ((s.setPhase ph).setBootCode c).bootRecord rc 0

/-- The measured conditions of R58 hold. -/
def condOk (m : CondMeas) : Bool :=
  decide (10800 ≤ m.vinMv) && decide (m.vinMv ≤ 13200) && decide (-5300 ≤ m.refclkPpm) && decide (m.refclkPpm ≤ 300)

/-- What the conditions measured as: VIN, and whether REFCLK is present and in range (R58). -/
def State.noteCond (s : State) (m : CondMeas) : State :=
  { s with mod := { s.mod with vinMv := m.vinMv, refclkOk := decide (-5300 ≤ m.refclkPpm) && decide (m.refclkPpm ≤ 300) } }

/-- A check of the self-test conditions (R58): self-test starts, or the check failed; the tenth failure ends the boot. Without
SERREF there is nothing to count REFCLK against. -/
def State.condCheck (s : State) (m : CondMeas) : State :=
  let s := s.noteCond m
  if condOk m && s.mod.serrefOk then (s.setPhase 3).clkUpdate
  else
    let s1 := (s.setPhase 2).setBit R.GLB_BIST_SUMMARY 1 true
    let s2 : State := { s1 with boot := { s1.boot with condFails := s1.boot.condFails + 1, condNext := s1.now + 100 * ms } }
    if 10 ≤ s2.boot.condFails then s2.bootStop 0xA E_BIST_COND E_BIST_COND else s2

/-- ROM_START (R39): straps are latched, fuses read and their repairs applied (R61), the boot count incremented (R55), a
selection of the factory state taken for this boot alone (R67); with RECOVERY# asserted the ROM enters
recovery mode (R40). -/
def execRomStart (t : Nat) (straps : BitVec 4) (s : State) : Host.Outcome State Fault Refusal :=
  let s := s.at' t
  if !s.mod.held || !s.mod.railsUp || !s.mod.aonUp || s.mod.modResetLow || s.mod.warning || decide (s.pwr.state ≠ 0) then done s
  else
    let s1 : State := { s with
      mod := { s.mod with held := false }
      boot := { s.boot with started := true, romAt := s.now, serrefAtRom := s.mod.serrefOk, repairs := s.boot.burnt,
                            countOld := some (s.rd R.GLB_BOOT_COUNT), factoryNow := s.boot.factoryNext, factoryNext := false } }
    let s2 := ((s1.wr R.GLB_STRAPS straps.toNat).wr R.GLB_FLASK_FUSED s1.boot.fuseOff.toNat).inc R.GLB_BOOT_COUNT
    let s3 := s2.wr R.GLB_BOOT_STATUS (s.boot.nextCause % 16 * 16)
    done (s3.setPhase (if straps.getLsbD 3 then 8 else 1))

/-- Note the firmware image NOR holds (R56). -/
def State.noteImage (s : State) (img : Image) : State :=
  { s with boot := { s.boot with imageGood := img.lengthOk && img.headerOk && img.signatureOk,
                                 imageHivMajor := img.hivMajor.toNat, imageHivMinor := img.hivMinor.toNat,
                                 imageVersion := img.version.toNat, imageHash := img.hash.toNat } }

/-- An image passes verification (R56). -/
def imageOk (img : Image) : Bool := img.lengthOk && img.headerOk && img.signatureOk

/-- SC firmware starts: it derives its keys and compares the IK certificate with them (R441, R442). -/
def State.scStart (s : State) : State :=
  let s1 := s.setFw 0 1
  { s1 with sec := { s1.sec with identity := s1.sec.keysOk, certOk := s1.sec.keysOk && ikCertOk } }

/-- IMAGE_VERIFY_DONE (R56): a bad image puts the ROM into recovery mode. With a good one SC firmware starts and PMC is
released; a failed fuse check (R442) or an absent SERREF (R59) ends the boot; then the self-test conditions are measured. -/
def execImageVerifyDone (t : Nat) (img : Image) (m : CondMeas) (s : State) : Host.Outcome State Fault Refusal :=
  let s := s.at' t
  if !s.running || !s.boot.started || decide (s.phase ≠ 1) then done s
  else
    let s0 := s.noteImage img
    let s1 : State := { s0 with boot := { s0.boot with countOld := none } }
    if !imageOk img then done ((s1.setPhase 8).setBootCode E_IMAGE_VERIFY)
    else
      let s2 := (s1.wr R.GLB_FW_VERSION img.version.toNat).wr R.GLB_HIV_DEV (img.hivMajor.toNat * 256 + img.hivMinor.toNat)
      let s3 := s2.scStart.setPhase 2
      if !s3.sec.keysOk then done ((s3.secFault).bootStop 0xA E_SEC_FAULT E_SEC_FAULT)
      else
        let s4 := s3.setFw 1 1
        if !s4.mod.serrefOk || !s4.boot.serrefAtRom then done (s4.bootStop 0xA E_BIST_COND E_BIST_COND)
        else done (s4.condCheck m)

/-- RECOVERY_IMAGE_WRITE (R57): a complete image that passes verification is written to NOR and the device restarts from ROM
start; any other is not accepted. -/
def execRecoveryImageWrite (t : Nat) (img : Image) (s : State) : Host.Outcome State Fault Refusal :=
  let s := s.at' t
  if s.running && decide (s.phase = 8) && imageOk img then
    done ((s.noteImage img).cuetteReset Config.recoveryCause.toNat)
  else done s

/-- BIST_COND_RECHECK (R58): every 100 ms the conditions are checked again. -/
def execBistCondRecheck (t : Nat) (m : CondMeas) (s : State) : Host.Outcome State Fault Refusal :=
  let s := s.at' t
  if s.running && decide (s.phase = 2) && decide (s.boot.condNext ≤ s.now) then
    done (s.condCheck m)
  else done s

/-- SELF_TEST_CONDITION_FAIL (R58): a condition fails during the run, which is discarded with no marks and no records. -/
def execSelfTestConditionFail (t : Nat) (m : CondMeas) (s : State) : Host.Outcome State Fault Refusal :=
  let s := s.at' t
  if s.running && decide (s.phase = 3) && !condOk m then done (s.noteCond m).condDiscard else done s

/-! ### Judging self-test -/

/-- Classes of Table 3.2 that lie in a flask. -/
def flaskLocal (c : Nat) : Bool := decide (1 ≤ c) && decide (c ≤ 8)

/-- Insert a failure in class order, after those of its class (R61). -/
def insertFail (f : BistFail) : List BistFail → List BistFail
  | [] => [f]
  | g :: gs => if f.cls.toNat < g.cls.toNat then f :: g :: gs else g :: insertFail f gs

/-- The failures that count: none of a flask fused off, none of a memory repaired before the run, in class order (R61–R63). -/
def State.judged (s : State) (fails : List BistFail) : List BistFail :=
  (fails.filter (fun f =>
    !(flaskLocal f.cls.toNat && s.boot.fuseOff.getLsbD f.inst.toNat) &&
    !(s.boot.repairs.contains (f.cls.toNat, f.inst.toNat, f.sub.toNat, f.address.toNat)))).foldl (fun l f => insertFail f l) []

/-- The four words of a self-test record (Table 3.3). -/
def bistWords (f : BistFail) : List Nat :=
  [f.cls.toNat + f.inst.toNat * 256 + f.sub.toNat * 65536 + f.kind.toNat * 2 ^ 24 + f.repair.toNat * 2 ^ 28,
   f.address.toNat, f.bit.toNat + f.nbits.toNat * 65536, f.pattern.toNat]

/-- Write the records into `GLB_BIST_REC`. -/
def State.bistRegs (s : State) (rs : List (List Nat)) : State :=
  (List.range rs.length).foldl (fun s n =>
    (List.range 4).foldl (fun s w => s.wr (R.GLB_BIST_REC n + 4 * w) (nth (nth rs n []) w 0)) s) s

/-- Highest grade whose flask count does not exceed `n` (R5). -/
def gradeOf (n : Nat) : Nat := if 32 ≤ n then 32 else if 28 ≤ n then 28 else if 24 ≤ n then 24 else 0

/-- The lowest `n` flasks of a mask. -/
def lowest (m n : Nat) : Nat :=
  ((List.range 32).filter (fun k => m.testBit k)).take n |>.foldl (fun a k => a + 2 ^ k) 0

/-- `GLB_GRADE` (Table 3.6). -/
def State.gradeWord (s : State) (g passed : Nat) : Nat :=
  g + b2n s.boot.fuseX * 256 + passed * 65536 + s.boot.fuseCeiling * 2 ^ 24

/-- SCH and the FCs of the flasks in use are released, and the barrier link and its heartbeat come up (Table 3.1). Numbering
of pieces goes on above every serial given (R362, R477). -/
def State.release (s : State) (used : Nat) : State :=
  let s1 := (List.range 32).foldl (fun s n =>
    if used.testBit n then (s.setFw (3 + n) 1).setFld (R.FLK_STAT n) 0 3 1
    else s.setFld (R.FLK_STAT n) 0 3 (if (s.rd R.GLB_FLASK_PASS).testBit n || s.boot.fuseOff.getLsbD n then 0 else 4)) (s.setFw 2 1)
  let mark := (s.jrn.seqRecords.filter (fun r => r.complete)).foldl (fun a r => max a r.mark) 0
  let s2 : State := { s1 with boot := { s1.boot with released := true }, line := { s1.line with
    live := true, frameAt := s1.now, sweepOkSince := some s1.now
    serialNext := max s1.jrn.topSerial mark + 1, mark := mark } }
  s2.wr64 R.PWR_SERIAL_MARK mark

/-- BIST_COMPLETE (R61–R64): records are written, flasks marked and the grade set; strict mode holds the device on any
failure; a failure outside the flasks or fewer than 24 passing flasks leaves no work. A run whose conditions do not hold is
discarded (R41). -/
def execBistComplete (t : Nat) (fails : List BistFail) (s : State) : Host.Outcome State Fault Refusal :=
  let s := s.at' t
  if !s.running || decide (s.phase ≠ 3) then done s
  else if !s.condNow then done s.condDiscard
  else
    let fs := s.judged fails
    let rs := (fs.take 128).map bistWords
    let bad := fs != []
    let passMask := (List.range 32).foldl (fun a n =>
      if s.boot.fuseOff.getLsbD n || fs.any (fun f => flaskLocal f.cls.toNat && f.inst.toNat == n) then a else a + 2 ^ n) 0
    let passed := ((List.range 32).filter (fun n => passMask.testBit n)).length
    let s1 := (s.bistRegs rs).wr R.GLB_FLASK_PASS passMask
    let s2 := ((s1.setBit R.GLB_BIST_SUMMARY 0 bad).setBit R.GLB_BIST_SUMMARY 2 (decide (128 < fs.length))).setFld
      R.GLB_BIST_SUMMARY 8 8 rs.length
    let s3 : State := { s2 with boot := { s2.boot with bistRetained := rs } }
    let rc := if bad then E_BIST_FAIL else 0
    let g := gradeOf (min passed s3.boot.fuseCeiling)
    let none' := s3.wr R.GLB_GRADE (s3.gradeWord 0 passed)
    if bad && s3.strap 1 then
      done ((((none'.setFw 1 0).bootStop 9 E_BIST_FAIL rc).bistRecords rs).clkUpdate)
    else if g = 0 ∨ fs.any (fun f => !flaskLocal f.cls.toNat) then
      done (((none'.bootStop 0xA E_GRADE_NONE (if bad then rc else E_GRADE_NONE)).bistRecords rs).clkUpdate)
    else
      let used := lowest passMask g
      let s4 := (s3.wr R.GLB_GRADE (s3.gradeWord g passed)).wr R.GLB_FLASK_USED used
      let s5 := (((s4.setPhase 4).release used).bootRecord rc s4.bootGen).bistRecords rs
      done (s5.setPhase 5).clkUpdate

end Sys2Proof.Machine
end

