-- ==== Sys2Proof/Machine/FettlerAlu.lean ====
section
/-! DEFINITION. Fettler classes 0, 1, 4 and 5: scalar arithmetic, branches, jumps, and the wide prefix (R222–R227). -/

namespace Sys2Proof.Machine

/-! ### Class 0 -/

/-- The word of a class 0 instruction with operation `op` (R223). -/
def aluWord (op : Nat) (w : AluF) : Nat := fword 0 w.d.toNat w.a.toNat w.b.toNat (op + w.sh.toNat * 64)

/-- A class 0 operation on X[a] and X[b]; its shift amount must be 0 (R223). -/
def runAlu (op : Nat) (g : W64 → W64 → W64) (t : Nat) (i : Fin 128) (w : AluF) (s : State) : Host.Outcome State Fault Refusal :=
  fetRun t i (aluWord op w) (w.sh == 0) (regOnly (fun f => f.wx w.d (g (f.rx w.a) (f.rx w.b)))) s

/-- A class 0 operation on X[a] alone; b and the shift amount must be 0 (R223). -/
def runUnary (op : Nat) (g : W64 → W64) (t : Nat) (i : Fin 128) (w : AluF) (s : State) : Host.Outcome State Fault Refusal :=
  fetRun t i (aluWord op w) (w.sh == 0 && w.b == 0) (regOnly (fun f => f.wx w.d (g (f.rx w.a)))) s

/-- An immediate shift of X[a] by sh; b must be 0 (R223). -/
def runShift (op : Nat) (g : W64 → Nat → W64) (t : Nat) (i : Fin 128) (w : AluF) (s : State) : Host.Outcome State Fault Refusal :=
  fetRun t i (aluWord op w) (w.b == 0) (regOnly (fun f => f.wx w.d (g (f.rx w.a) w.sh.toNat))) s

/-- Quotient toward zero; divisor 0 gives −1; −2^63 / −1 gives −2^63 (Table 11.2). -/
def divS (a b : W64) : W64 := if b = 0 then BitVec.allOnes 64 else BitVec.ofInt 64 (Int.tdiv a.toInt b.toInt)

/-- Unsigned quotient; divisor 0 gives 2^64 − 1 (Table 11.2). -/
def divU (a b : W64) : W64 := if b = 0 then BitVec.allOnes 64 else BitVec.ofNat 64 (a.toNat / b.toNat)

/-- Remainder with the sign of X[a]; divisor 0 gives X[a] (Table 11.2). -/
def remS (a b : W64) : W64 := if b = 0 then a else BitVec.ofInt 64 (Int.tmod a.toInt b.toInt)

/-- Unsigned remainder; divisor 0 gives X[a] (Table 11.2). -/
def remU (a b : W64) : W64 := if b = 0 then a else BitVec.ofNat 64 (a.toNat % b.toNat)

/-- sext(wrap(x, 32), 32) (Table 11.2). -/
def sext32 (x : W64) : W64 := (x.setWidth 32).signExtend 64

/-- Leading zero bits, 0–64 (Table 11.2). -/
def clz64 (x : W64) : W64 := BitVec.ofNat 64 (if x = 0 then 64 else 63 - Nat.log2 x.toNat)

/-- Trailing zero bits, 0–64 (Table 11.2). -/
def ctz64 (x : W64) : W64 := BitVec.ofNat 64 (((List.range 64).find? (fun k => x.getLsbD k)).getD 64)

/-- Set bits (Table 11.2). -/
def popc64 (x : W64) : W64 := BitVec.ofNat 64 ((List.range 64).foldl (fun a k => a + b2n (x.getLsbD k)) 0)

/-- `ADD`: X[a] + X[b] (R223). -/
def execAdd (t : Nat) (i : Fin 128) (w : AluF) (s : State) : Host.Outcome State Fault Refusal :=
  runAlu 0 (fun a b => a + b) t i w s

/-- `SUB`: X[a] − X[b] (R223). -/
def execSub (t : Nat) (i : Fin 128) (w : AluF) (s : State) : Host.Outcome State Fault Refusal :=
  runAlu 1 (fun a b => a - b) t i w s

/-- `AND`: X[a] AND X[b] (R223). -/
def execAnd (t : Nat) (i : Fin 128) (w : AluF) (s : State) : Host.Outcome State Fault Refusal :=
  runAlu 2 (fun a b => a &&& b) t i w s

/-- `OR`: X[a] OR X[b] (R223). -/
def execOr (t : Nat) (i : Fin 128) (w : AluF) (s : State) : Host.Outcome State Fault Refusal :=
  runAlu 3 (fun a b => a ||| b) t i w s

/-- `XOR`: X[a] XOR X[b] (R223). -/
def execXor (t : Nat) (i : Fin 128) (w : AluF) (s : State) : Host.Outcome State Fault Refusal :=
  runAlu 4 (fun a b => a ^^^ b) t i w s

/-- `SLL`: X[a] << X[b][5:0] (R223). -/
def execSll (t : Nat) (i : Fin 128) (w : AluF) (s : State) : Host.Outcome State Fault Refusal :=
  runAlu 5 (fun a b => a <<< (b.toNat % 64)) t i w s

/-- `SRL`: X[a] >> X[b][5:0], logical (R223). -/
def execSrl (t : Nat) (i : Fin 128) (w : AluF) (s : State) : Host.Outcome State Fault Refusal :=
  runAlu 6 (fun a b => a >>> (b.toNat % 64)) t i w s

/-- `SRA`: X[a] >> X[b][5:0], arithmetic (R223). -/
def execSra (t : Nat) (i : Fin 128) (w : AluF) (s : State) : Host.Outcome State Fault Refusal :=
  runAlu 7 (fun a b => a.sshiftRight (b.toNat % 64)) t i w s

/-- `SLT`: 1 if X[a] < X[b] (s), else 0 (R223). -/
def execSlt (t : Nat) (i : Fin 128) (w : AluF) (s : State) : Host.Outcome State Fault Refusal :=
  runAlu 8 (fun a b => if a.slt b then 1 else 0) t i w s

/-- `SLTU`: 1 if X[a] < X[b] (u), else 0 (R223). -/
def execSltu (t : Nat) (i : Fin 128) (w : AluF) (s : State) : Host.Outcome State Fault Refusal :=
  runAlu 9 (fun a b => if a.ult b then 1 else 0) t i w s

/-- `MUL`: low 64 bits of the product (R223). -/
def execMul (t : Nat) (i : Fin 128) (w : AluF) (s : State) : Host.Outcome State Fault Refusal :=
  runAlu 10 (fun a b => a * b) t i w s

/-- `MULH`: high 64 bits of the 128-bit product (s × s) (R223). -/
def execMulh (t : Nat) (i : Fin 128) (w : AluF) (s : State) : Host.Outcome State Fault Refusal :=
  runAlu 11 (fun a b => BitVec.ofInt 64 (a.toInt * b.toInt / 2 ^ 64)) t i w s

/-- `MULHU`: high 64 bits (u × u) (R223). -/
def execMulhu (t : Nat) (i : Fin 128) (w : AluF) (s : State) : Host.Outcome State Fault Refusal :=
  runAlu 12 (fun a b => BitVec.ofNat 64 (a.toNat * b.toNat / 2 ^ 64)) t i w s

/-- `DIV`: signed quotient (R223). -/
def execDiv (t : Nat) (i : Fin 128) (w : AluF) (s : State) : Host.Outcome State Fault Refusal :=
  runAlu 13 (divS) t i w s

/-- `DIVU`: unsigned quotient (R223). -/
def execDivu (t : Nat) (i : Fin 128) (w : AluF) (s : State) : Host.Outcome State Fault Refusal :=
  runAlu 14 (divU) t i w s

/-- `REM`: signed remainder (R223). -/
def execRem (t : Nat) (i : Fin 128) (w : AluF) (s : State) : Host.Outcome State Fault Refusal :=
  runAlu 15 (remS) t i w s

/-- `REMU`: unsigned remainder (R223). -/
def execRemu (t : Nat) (i : Fin 128) (w : AluF) (s : State) : Host.Outcome State Fault Refusal :=
  runAlu 16 (remU) t i w s

/-- `MIN`: smaller, signed (R223). -/
def execMin (t : Nat) (i : Fin 128) (w : AluF) (s : State) : Host.Outcome State Fault Refusal :=
  runAlu 17 (fun a b => if a.slt b then a else b) t i w s

/-- `MAX`: larger, signed (R223). -/
def execMax (t : Nat) (i : Fin 128) (w : AluF) (s : State) : Host.Outcome State Fault Refusal :=
  runAlu 18 (fun a b => if a.slt b then b else a) t i w s

/-- `MINU`: smaller, unsigned (R223). -/
def execMinu (t : Nat) (i : Fin 128) (w : AluF) (s : State) : Host.Outcome State Fault Refusal :=
  runAlu 19 (fun a b => if a.ult b then a else b) t i w s

/-- `MAXU`: larger, unsigned (R223). -/
def execMaxu (t : Nat) (i : Fin 128) (w : AluF) (s : State) : Host.Outcome State Fault Refusal :=
  runAlu 20 (fun a b => if a.ult b then b else a) t i w s

/-- `ADDW`: sext(wrap(X[a] + X[b], 32), 32) (R223). -/
def execAddw (t : Nat) (i : Fin 128) (w : AluF) (s : State) : Host.Outcome State Fault Refusal :=
  runAlu 21 (fun a b => sext32 (a + b)) t i w s

/-- `SUBW`: sext(wrap(X[a] − X[b], 32), 32) (R223). -/
def execSubw (t : Nat) (i : Fin 128) (w : AluF) (s : State) : Host.Outcome State Fault Refusal :=
  runAlu 22 (fun a b => sext32 (a - b)) t i w s

/-- `CLZ`: leading zero bits of X[a] (R223). -/
def execClz (t : Nat) (i : Fin 128) (w : AluF) (s : State) : Host.Outcome State Fault Refusal :=
  runUnary 23 clz64 t i w s

/-- `CTZ`: trailing zero bits of X[a] (R223). -/
def execCtz (t : Nat) (i : Fin 128) (w : AluF) (s : State) : Host.Outcome State Fault Refusal :=
  runUnary 24 ctz64 t i w s

/-- `POPC`: set bits of X[a] (R223). -/
def execPopc (t : Nat) (i : Fin 128) (w : AluF) (s : State) : Host.Outcome State Fault Refusal :=
  runUnary 25 popc64 t i w s

/-- `SLLI`: X[a] << sh (R223). -/
def execSlli (t : Nat) (i : Fin 128) (w : AluF) (s : State) : Host.Outcome State Fault Refusal :=
  runShift 26 (fun a k => a <<< k) t i w s

/-- `SRLI`: X[a] >> sh, logical (R223). -/
def execSrli (t : Nat) (i : Fin 128) (w : AluF) (s : State) : Host.Outcome State Fault Refusal :=
  runShift 27 (fun a k => a >>> k) t i w s

/-- `SRAI`: X[a] >> sh, arithmetic (R223). -/
def execSrai (t : Nat) (i : Fin 128) (w : AluF) (s : State) : Host.Outcome State Fault Refusal :=
  runShift 28 (fun a k => a.sshiftRight k) t i w s

/-! ### Classes 1 and 5, and the wide prefix -/

/-- Effect of `ADDI d, a, imm` (R224). -/
def addiBody (d a : BitVec 5) (imm : W64) : State → Fet → FRes := regOnly (fun f => f.wx d (f.rx a + imm))

/-- `ADDI d, a, imm17`: x[d] = X[a] + imm (R224). -/
def execAddi (t : Nat) (i : Fin 128) (w : ImmF) (s : State) : Host.Outcome State Fault Refusal :=
  fetRun t i (fwordImm 1 w.d.toNat w.a.toNat w.imm.toNat) true (addiBody w.d w.a (w.imm.signExtend 64)) s

/-- Effect of `JAL d, a, imm` in an instruction of `len` bytes: with a = 0 the target is pc + imm × 4, else X[a] + imm × 4,
which must be 4-byte aligned; x[d] receives the address of the next instruction (R227, R222). -/
def jalBody (d a : BitVec 5) (imm : W64) (len : Nat) (s : State) (f : Fet) : FRes :=
  let base : W64 := if a = 0 then f.pc.setWidth 64 else f.rx a
  let target := base + imm * 4
  if a ≠ 0 ∧ target.toNat % 4 ≠ 0 then .trap 2 0 target.toNat
  else .jump s (f.wx d ((f.pc + BitVec.ofNat 48 len).setWidth 64)) (target.setWidth 48)

/-- `JAL d, a, imm17`: jump and call (R227). -/
def execJal (t : Nat) (i : Fin 128) (w : ImmF) (s : State) : Host.Outcome State Fault Refusal :=
  fetRun t i (fwordImm 5 w.d.toNat w.a.toNat w.imm.toNat) true (jalBody w.d w.a (w.imm.signExtend 64) 4) s

/-- The wide prefix and the word after it (R222): of class 1 or 5 the pair runs as one instruction with the 44-bit
immediate; any other class traps with cause ILLEGAL at the prefix. -/
def execWidePrefix (t : Nat) (i : Fin 128) (hi : BitVec 27) (next : W32) (s : State) : Host.Outcome State Fault Refusal :=
  let s1 := s.at' t
  let imm : W64 := (hi ++ next.extractLsb' 0 17 : BitVec 44).signExtend 64
  let cls := next.extractLsb' 27 5
  let d := next.extractLsb' 22 5
  let a := next.extractLsb' 17 5
  let word := 31 * 2 ^ 27 + hi.toNat
  match s1.fet i with
  | none => done s1
  | some f =>
    if !s1.fabricUp || f.wait != .none || s1.stopped (i / 4) f.ctx then done s1
    else if cls = 1 then done (s1.fetExec i f word 8 true (addiBody d a imm))
    else if cls = 5 then done (s1.fetExec i f word 8 true (jalBody d a imm 8))
    else done (s1.fetExec i f word 8 false (regOnly id))

/-! ### Class 4 -/

/-- The word of a class 4 instruction with condition `c` (R226). -/
def brWord (c : Nat) (w : BrF) : Nat := fword 4 c w.a.toNat w.b.toNat w.f.toNat

/-- A branch: when the condition holds the next pc is pc + sext(f, 12) × 4, else pc + 4 (R226). -/
def runBranch (c : Nat) (legal : Bool) (hold : Fet → Bool) (t : Nat) (i : Fin 128) (w : BrF) (s : State) :
    Host.Outcome State Fault Refusal :=
  fetRun t i (brWord c w) legal (fun s f =>
    if hold f then .jump s f (f.pc + w.f.signExtend 48 * 4) else .ok s f) s

/-- `BEQ`: branch when X[a] == X[b] (R226). -/
def execBeq (t : Nat) (i : Fin 128) (w : BrF) (s : State) : Host.Outcome State Fault Refusal :=
  runBranch 0 true (fun f => f.rx w.a == f.rx w.b) t i w s

/-- `BNE`: branch when X[a] != X[b] (R226). -/
def execBne (t : Nat) (i : Fin 128) (w : BrF) (s : State) : Host.Outcome State Fault Refusal :=
  runBranch 1 true (fun f => f.rx w.a != f.rx w.b) t i w s

/-- `BLT`: branch when X[a] < X[b], signed (R226). -/
def execBlt (t : Nat) (i : Fin 128) (w : BrF) (s : State) : Host.Outcome State Fault Refusal :=
  runBranch 2 true (fun f => (f.rx w.a).slt (f.rx w.b)) t i w s

/-- `BGE`: branch when X[a] >= X[b], signed (R226). -/
def execBge (t : Nat) (i : Fin 128) (w : BrF) (s : State) : Host.Outcome State Fault Refusal :=
  runBranch 3 true (fun f => !(f.rx w.a).slt (f.rx w.b)) t i w s

/-- `BLTU`: branch when X[a] < X[b], unsigned (R226). -/
def execBltu (t : Nat) (i : Fin 128) (w : BrF) (s : State) : Host.Outcome State Fault Refusal :=
  runBranch 4 true (fun f => (f.rx w.a).ult (f.rx w.b)) t i w s

/-- `BGEU`: branch when X[a] >= X[b], unsigned (R226). -/
def execBgeu (t : Nat) (i : Fin 128) (w : BrF) (s : State) : Host.Outcome State Fault Refusal :=
  runBranch 5 true (fun f => !(f.rx w.a).ult (f.rx w.b)) t i w s

/-- `BANY`: branch when P[a] has any bit set; a[4:3] and b must be 0 (R226). -/
def execBany (t : Nat) (i : Fin 128) (w : BrF) (s : State) : Host.Outcome State Fault Refusal :=
  runBranch 6 (decide (w.a.toNat < 8) && w.b == 0) (fun f => f.rp w.a.toNat != 0) t i w s

/-- `BNONE`: branch when P[a] has no bit set; a[4:3] and b must be 0 (R226). -/
def execBnone (t : Nat) (i : Fin 128) (w : BrF) (s : State) : Host.Outcome State Fault Refusal :=
  runBranch 7 (decide (w.a.toNat < 8) && w.b == 0) (fun f => f.rp w.a.toNat == 0) t i w s

end Sys2Proof.Machine
end

