-- ==== Sys2Proof/Machine/Fw.lean ====
section
/-! DEFINITION. Watchdog resets and restarts of the firmware processors (R456, R457, R479–R487), and the log and trace commands of the
debug block (R489, R490). -/

namespace Sys2Proof.Machine

/-! ### Resets -/

/-- Instants of the resets of processor `i` in the last `win` ns, this one included. -/
def State.fwRecent (s : State) (i win : Nat) : List Nat :=
  ((KMap.getD s.dbg.fw i {}).resets.filter (fun t => decide (s.now ≤ t + win))) ++ [s.now]

/-- Processor `i` is reset by its watchdog and goes to state `st` (R479, Table 22.7). -/
def State.fwReset (s : State) (i win st : Nat) : State :=
  let s1 : State := { s with dbg := { s.dbg with fw := KMap.put s.dbg.fw i { resets := s.fwRecent i win } } }
  ((s1.inc (R.DBG_FW_STAT i + 4)).wr (R.DBG_FW_STAT i + 8) (lo32 s.devS)).setFw i st

/-- The watchdog of processor `i` may expire: Cuette runs, and the processor does. -/
def State.fwUp (s : State) (i : Nat) : Bool := s.running && decide (s.fwState i = 1)

/-- Processor `i` is back after its reset. -/
def State.fwBack (s : State) (i : Nat) : Bool := s.running && decide (s.fwState i = 2)

/-! ### Flask controllers -/

/-- Discard the task on fettler `e.1`: its digest sums and uncommitted work go, the mould regions of a task that may be stolen are
zeroed, and it waits to be placed again (R480, R347). -/
def State.discardTask (s : State) (e : Nat × Fet) (chilling : Bool) : State :=
  let n := e.1 / 4
  let s1 := match s.taskDecl e.2.pour e.2.task with
    | some d => if d.stripe || d.bound || (d.seq && s.anchored e.2.ctx) then s
                else d.regions.foldl (fun (s : State) (r : Nat × Nat × Bool) => s.mouldZero n (r.1 * 4096) (r.2.1 * 4096)) s
    | none => s
  let s2 := s1.leave e.1
  if chilling then s2 else s2.setTask e.2.pour e.2.task (fun t => { t with st := 5, flask := n })

/-- Descriptors queued on the flask's crucibles that have not issued are removed without a record (R480, R258). -/
def State.dropQueues (s : State) (n : Nat) : State :=
  [2 * n, 2 * n + 1].foldl (fun s c =>
    (s.dropPermit false c).setCru c { s.cru c with queue := [] }) s

/-- Transfers of the flask's ladles abort with reason CANCEL; queued ones go (R480). -/
def State.dropTransfers (s : State) (n : Nat) : State :=
  [0, 1].foldl (fun s l =>
    let s1 := match s.ladle n l with
      | d :: _ => if d.state ≠ 0 then s.lAbort n l d 6 0 else s
      | [] => s
    (s1.dropPermit true (2 * n + l)).setLadle n l []) s

/-- Pieces anchored to flask `n` lose their mould groups there and are DRAM-only (R314). -/
def State.dropAnchors (s : State) (n : Nat) : State :=
  s.sch.pieces.foldl (fun s p =>
    let a := if p.home = n then p.mouldGroups else 0
    let b := if p.homeB = n then p.mouldB else 0
    if a + b = 0 then s
    else
      let s1 := s.setPiece p.entry (fun q => { q with mouldGroups := if p.home = n then 0 else q.mouldGroups
                                                      mouldB := if p.homeB = n then 0 else q.mouldB })
      { s1 with sch := { s1.sch with seqs := KMap.adjust s1.sch.seqs p.ctx (fun q =>
          { q with mould := KMap.put q.mould n (KMap.getD q.mould n 0 + a + b) }) } }) s

/-- What the reset of FC `n` does to its flask (R480, R334): commands that have issued complete; everything else of its tasks goes. -/
def State.flaskCrash (s : State) (n : Nat) : State :=
  let k := s.flask n
  let fets := s.fab.fets.filter (fun e => e.1 / 4 == n)
  let chilling := k.phase = 1 ∨ k.phase = 2
  let mine (e : Nat × Fet) : Bool := decide chilling && decide (k.job = some e.2.ctx)
  let s1 := fets.foldl (fun s e => s.discardTask e (mine e)) s
  let s2 := ((s1.dropQueues n).dropTransfers n).dropAnchors n
  let kept := (fets.filter mine).map (fun e => (e.1 % 4, e.2))
  if kept = [] then s2 else s2.setFlask n { s2.flask n with crashed := kept }

/-- Tasks saved or waiting for flask `n` wait to be placed elsewhere (R482). -/
def State.strandTasks (s : State) (n : Nat) : State :=
  let mark (s : State) (id k : Nat) : State := s.setTask id k (fun t => { t with st := 5, flask := n })
  let s1 := (s.sch.deques.filter (fun d => d.1 == n)).foldl (fun s d => mark s d.2.2.1 d.2.2.2) s
  let s2 : State := { s1 with sch := { s1.sch with deques := s1.sch.deques.filter (fun d => d.1 != n) } }
  let s3 := (s2.flask n).crashed.foldl (fun s e => mark s e.2.pour e.2.task) s2
  s3.sch.ctxs.foldl (fun (s : State) (e : Nat × Ctx) =>
    let gone : List Section := e.2.sections.filter (fun c => c.flask == n)
    if gone = [] then s
    else (gone.foldl (fun s c => c.fets.foldl (fun s f => mark s f.2.pour f.2.task) s) s).setCtx e.1
      { e.2 with sections := e.2.sections.filter (fun c => c.flask != n) }) s3

/-- Flask `n` is retired (R482): its bit in `GLB_FLASK_USED` clears, and SCH places nothing there any more. -/
def State.retireFlask (s : State) (n : Nat) : State :=
  let s1 := ((s.strandTasks n).setBit R.GLB_FLASK_USED n false).setFld (R.FLK_STAT n) 0 3 4
  let job := (s1.flask n).job
  let s2 := s1.setFlask n {}
  let s3 : State := { s2 with sch := { s2.sch with
    ctxs := s2.sch.ctxs.map (fun e => (e.1, { e.2 with running := e.2.running &&& ~~~ maskOf [n] }))
    seqs := s2.sch.seqs.map (fun e => (e.1, { e.2 with mould := KMap.del e.2.mould n })) } }
  match job with
  | some x => (((s3.overrunCheck x).chillDone x).destroyCheck x).schedule
  | none => s3

/-- The reset of FC `n`: the third within 10 s retires its flask (R480, R482). -/
def State.fcReset (s : State) (n : Nat) : State :=
  let third := decide (3 ≤ (s.fwRecent (3 + n) (10000 * ms)).length)
  let w := if third then 2 else 1
  let s1 := (s.fwReset (3 + n) (10000 * ms) (if third then 3 else 2)).flaskCrash n
  let s2 := if third then s1.retireFlask n else s1
  ((s2.raise E_WDOG_FC { w2 := some n, w3 := some w }).trace 0x14 (3 + n) w).placeWaiting

/-- FC_WATCHDOG_RESET (R480–R482). -/
def execFcWatchdogReset (t : Nat) (n : Fin 32) (s : State) : Host.Outcome State Fault Refusal :=
  let s := s.at' t
  if s.fwUp (3 + n) then done (s.fcReset n) else done s

/-- FC_RESTART_COMPLETE (R481, R483): FC `n` is back; its stripe tasks start again, and the rest of its work, once SCH is there. -/
def execFcRestartComplete (t : Nat) (n : Fin 32) (s : State) : Host.Outcome State Fault Refusal :=
  let s := s.at' t
  if s.fwBack (3 + n) then done ((s.setFw (3 + n) 1).placeWaiting) else done s

/-! ### The scheduler core -/

/-- SCH_WATCHDOG_RESET (R484). -/
def execSchWatchdogReset (t : Nat) (s : State) : Host.Outcome State Fault Refusal :=
  let s := s.at' t
  if s.fwUp 2 then done ((s.fwReset 2 (60000 * ms) 2).raise E_WDOG_SCH { w2 := some 2 }) else done s

/-- SCH's record and the ledger entry `i` disagree (R485): SCH is to hold the piece, and does not, with no report of it under way. -/
def State.disagrees (s : State) (i : Nat) (e : LEntry) : Bool :=
  let reported := s.sch.reports.any (fun r => r.entry == i && r.serial == e.serial)
  let sch := match s.piece i with | some p => p.serial == e.serial | none => false
  e.held && decide (e.verdict = 0) && !reported && !sch

/-- SCH checks its tables against the ledger (R485). -/
def State.reconcile (s : State) : State :=
  s.line.ledger.foldl (fun s e => if s.disagrees e.1 e.2 then s.setCode e.1 6 E_WDOG_SCH else s) s

/-- Every sequence task of the step of context `x` has ended, and its twin comparison is made (R485): the step ends now. -/
def State.stepOver (s : State) (x : Nat) (q : SeqSt) : Bool :=
  q.busy && !q.compare &&
    (match s.seqPour x with
     | some (p, g, _) => (List.range g.tasks.length).all (fun k =>
         !(nth g.tasks k ⟨0, none, false, false, false, false, []⟩).seq || (nth p.tasks k {}).st == 3)
     | none => false)

/-- Slices and overruns go on from where SCH's reset left them: the time between is charged to none (Table 22.2). -/
def State.slicesOn (s : State) (dt : Nat) : State :=
  { s with sch := { s.sch with ctxs := s.sch.ctxs.map (fun e =>
      if e.2.cls = 2 then (e.1, { e.2 with sliceAt := e.2.sliceAt + dt, endedAt := e.2.endedAt.map (fun a => a + dt) }) else e) } }

/-- SCH is back (R485). -/
def State.schBack (s : State) : State :=
  let dt := s.now - s.schNow
  let s1 := ((s.setFw 2 1).slicesOn dt).reconcile
  let s2 : State := { s1 with host := { s1.host with hbRestart := true } }
  let s3 := s2.sch.seqs.foldl (fun s e => if s.stepOver e.1 e.2 then s.stepEnd e.1 else s) s2
  (s3.placeWaiting).schedule

/-- SCH_RESTART_COMPLETE (R485). -/
def execSchRestartComplete (t : Nat) (s : State) : Host.Outcome State Fault Refusal :=
  let s := s.at' t
  if s.fwBack 2 then done s.schBack else done s

/-! ### The power-management core -/

/-- PMC_WATCHDOG_RESET (R486): the crucible clock is held at step 6. -/
def execPmcWatchdogReset (t : Nat) (s : State) : Host.Outcome State Fault Refusal :=
  let s := s.at' t
  if s.fwUp 1 then done (((s.fwReset 1 (60000 * ms) 2).raise E_WDOG_PMC { w2 := some 1 }).clkUpdate) else done s

/-- PMC_RESTART_COMPLETE (R486): the clock follows its sources again, and a power-state request that waited is acted on. -/
def execPmcRestartComplete (t : Nat) (s : State) : Host.Outcome State Fault Refusal :=
  let s := s.at' t
  if s.fwBack 1 then
    let s1 := (s.setFw 1 1).clkUpdate
    match s1.pwr.waitReq with
    | none => doneR s1
    | some v =>
      let s2 : State := { s1 with pwr := { s1.pwr with waitReq := none } }
      doneR (if v < 2 then s2.askS0S1 v else s2.askSleep v)
  else doneR s

/-! ### The security core -/

/-- SC_WATCHDOG_RESET (R456, R457): the third within 60 s of the first enters the security fault state. An open challenge does not
outlive a reset (R444). -/
def execScWatchdogReset (t : Nat) (s : State) : Host.Outcome State Fault Refusal :=
  let s := s.at' t
  if s.fwUp 0 then
    let third := decide (3 ≤ (s.fwRecent 0 (60000 * ms)).length)
    let s1 := ((s.fwReset 0 (60000 * ms) 2).inc R.SEC_SC_RESETS).raise E_WDOG_SC { w2 := some 0 }
    let s2 : State := { s1 with sec := { s1.sec with crashed := true, challenge := none } }
    done (if third then s2.secFault else s2)
  else done s

/-- SC is back (R456): blocks that were sealed unsigned are signed in order, and link-ups that waited are judged. -/
def State.scBack (s : State) : State :=
  let s1 := s.setFw 0 1
  ((List.range s1.unsigned).foldl (fun s _ => s.signBlock) s1).authWaiting

/-- SC_RESTART_COMPLETE (R456). -/
def execScRestartComplete (t : Nat) (s : State) : Host.Outcome State Fault Refusal :=
  let s := s.at' t
  if s.fwBack 0 && !s.sec.fault then done s.scBack else done s

/-! ### Log and trace -/

/-- LOG_INDEX_WRITE (R489): `DBG_LOG_IDX` names the record shown in `DBG_LOG_REC`. -/
def execLogIndexWrite (t : Nat) (q : BitVec 64) (s : State) : Host.Outcome State Fault Refusal :=
  let s := s.at' t
  if s.running then done (s.wr64 R.DBG_LOG_IDX q.toNat) else done s

/-- Empty the trace buffer and clear stopped (R490, Table 22.7). -/
def State.traceEmpty (s : State) : State :=
  (({ s with dbg := { s.dbg with trace := [] } }).wr R.DBG_TRACE_STAT 0).wr R.DBG_TRACE_WR 0

/-- TRACE_CLEAR (R490): `DBG_TRACE_CTRL.clear` is set. -/
def execTraceClear (t : Nat) (s : State) : Host.Outcome State Fault Refusal :=
  let s := s.at' t
  if s.running then done s.traceEmpty else done s

end Sys2Proof.Machine
end

