-- ==== Sys2Proof/Machine/HostIf.lean ====
section
/-! DEFINITION. The host interface: SCH's tick with the handshake, the heartbeat and the collection of orders (R68–R71,
R79–R90), the BAR2 window (R77, R78), ring heads and MSI-X (R84, R85). -/

namespace Sys2Proof.Machine

/-! ### Line work -/

/-- Line work needs a bundle that a JTAG unlock has unloaded until the next reset (R455). -/
def State.bundleLine (s : State) : Bool :=
  s.sec.noLoad && s.sch.progs.any (fun l => l.prog.bundle.isSome &&
    (match s.ctx l.ctx with | some c => c.cls == 1 | none => false))

/-- Line work starts (R68): a class is enabled, and the configuration was restored, or cast since; host-less it needs no
agreement, else one made in this boot. The phase becomes RUNNING, and a code that held the boot clears. -/
def State.startLineWork (s : State) : State :=
  if !s.boot.lineStarted && !s.bundleLine && s.boot.restored && s.anyClass && (s.boot.agreedOnce || (s.strap 2 && decide (s.phase = 6))) then
    let s1 : State := { s with boot := { s.boot with lineStarted := true } }
    ((s1.setPhase 7).setBootCode 0).linePours
  else s

/-! ### Handshake -/

/-- The handshake agrees (R70, R71, R82): the window is zeroed, the queues and rings start anew, and orders collected before
keep no ring. -/
def State.agree (s : State) : State :=
  let wasGone := s.gone
  let s1 : State := { s with
    regs := s.regs.filter (fun e => !(decide (0x200000 ≤ e.1) && decide (e.1 < 0x240000)))
    boot := { s.boot with agreedOnce := true }
    host := { s.host with
      agreed := true, rings := [], rrStart := 0, hbLast := s.rd R.CMD_HOST_HB, hbAt := s.now, hbRestart := false
      orders := s.host.orders.map (fun o => { o with ring := none }) } }
  let s2 := (List.range 16).foldl (fun s q => s.wr (R.CMD_Q_HEAD q) (256 + (if q = 0 then 2 ^ 24 else 0))) s1
  let s3 := (s2.setFld R.CMD_HOST_STATE 0 2 1).setHiv 2 0
  let s4 := if wasGone then s3.raise E_HOST_ATTACHED {} else s3
  if s4.phase = 6 ∧ !s4.anyClass then s4.setPhase 7 else s4

/-- SCH evaluates a pending request (R70); a refusal ends an agreement in force (R71). -/
def State.evalHiv (s : State) : State :=
  if !s.bit R.GLB_HIV_HOST 31 then s
  else
    let s1 := s.setBit R.GLB_HIV_HOST 31 false
    let dev := s.rd R.GLB_HIV_DEV
    let hst := s.rd R.GLB_HIV_HOST
    if hst / 256 % 256 ≠ dev / 256 % 256 ∨ dev % 256 < hst / 65536 % 256 then
      ({ s1 with host := { s1.host with agreed := false } }).setHiv 3 E_HIV_MISMATCH
    else s1.agree

/-- A write of `v` to `GLB_HIV_HOST` (R71): without effect while go is set; with go a handshake is pending. -/
def State.hivWrite (s : State) (v : Nat) : State :=
  if s.bit R.GLB_HIV_HOST 31 then s
  else
    let s1 := s.wr R.GLB_HIV_HOST (putBits v 24 7 0)
    if v.testBit 31 then s1.setHiv 1 0 else s1

/-- HIV_REQUEST (R69): a write to `GLB_HIV_HOST`; with go set it submits a request, PENDING until SCH evaluates it. Fields
of a request in progress are not changed. -/
def execHivRequest (t : Nat) (w : W32) (s : State) : Host.Outcome State Fault Refusal :=
  let s0 := s.at' t
  if s0.running then done (s0.hivWrite w.toNat) else done s0

/-! ### Heartbeat and host loss -/

/-- HOST_HEARTBEAT_WRITE (R87): the value SCH samples at its next tick. -/
def execHostHeartbeatWrite (t : Nat) (v : W32) (s : State) : Host.Outcome State Fault Refusal :=
  let s0 := s.at' t
  if s0.running then done (s0.wr R.CMD_HOST_HB v.toNat) else done s0

/-- Context `x` holds a page on the host tier, or one that is on its way from it. -/
def State.onTier (s : State) (x : Nat) : Bool := s.fab.pt2.any (fun e => e.1 / 2 ^ 27 == x && e.2.onHost)

/-- Ladles whose transfer has started and goes to or from host memory, with its context (R88). -/
def State.hostTransfers (s : State) : List (Nat × Nat) :=
  s.fab.ladles.filterMap (fun e => match e.2 with
    | d :: _ => if d.state ≠ 0 ∧ (List.range (lTotal d.words)).any (s.lHost d.ctx d.words) then some (e.1, d.ctx) else none
    | [] => none)

/-- A transfer aborts with reason HOST, without parking (R88, Table 9.7). -/
def State.hostAbort (s : State) (k : Nat) : State :=
  match s.ladle (k / 2) (k % 2) with
  | d :: _ => (s.lAbort (k / 2) (k % 2) d 5 0).lPop (k / 2) (k % 2)
  | [] => s

/-- The host is GONE (R88), in the rule's order: BAR2 is unmapped; transfers to or from host memory abort; the host tier and its pages are
lost; a context that held such a page or lost a transfer fails, every other JOB context is chilled; the agreement lapses; log and
journal record it. -/
def State.hostGone (s : State) : State :=
  let s1 := ((s.setFld R.CMD_HOST_STATE 0 2 2).inc R.CMD_HOST_LOSSES)
  let lost := (s1.sch.ctxs.filter (fun e => e.2.cls == 2 && (s1.onTier e.1 || s1.hostTransfers.any (fun h => h.2 == e.1)))).map Prod.fst
  let s2 := (s1.hostTransfers.map Prod.fst).foldl State.hostAbort ({ s1 with host := { s1.host with bar2 := [] } } : State)
  let s3 : State := { s2 with
    fab := { s2.fab with pt2 := s2.fab.pt2.map (fun e => if e.2.onHost then (e.1, { e.2 with tier := 3, back := false }) else e) } }
  let s4 := lost.foldl (fun s x => s.ctxFail x E_HOST_GONE) ((s3.wr64 R.MEM_HOST_TIER_BASE 0).wr R.MEM_HOST_TIER_SIZE 0)
  let s5 := ((s4.sch.ctxs.filter (fun e => e.2.cls == 2 && e.2.st != 6)).map Prod.fst).foldl (fun s x => s.chillAll x) s4
  let s6 : State := { s5 with host := { s5.host with agreed := false } }
  ((s6.setHiv 0 0).logJournal E_HOST_GONE).schedule

/-- The heartbeat as a tick judges it (R87): a change is noted; 500 ms without one set GONE. -/
def State.judgeHeartbeat (s : State) : State :=
  if !s.attached then s
  else if s.host.hbRestart || s.rd R.CMD_HOST_HB != s.host.hbLast then
    { s with host := { s.host with hbLast := s.rd R.CMD_HOST_HB, hbAt := s.now, hbRestart := false } }
  else if s.host.hbAt + 500 * ms ≤ s.now then s.hostGone
  else s

/-- HOST_LOSS (R88): the tick at which 500 ms have passed since the heartbeat last changed. -/
def execHostLoss (t : Nat) (s : State) : Host.Outcome State Fault Refusal :=
  let s0 := s.at' t
  if s0.running && s0.schUp then done s0.judgeHeartbeat else done s0

/-! ### Collection of orders -/

/-- The order in the next slot of queue `q`, where its seq is the one expected (R79, R80). -/
def State.nextOrder (s : State) (q : Nat) : Option Order :=
  let h := s.rd (R.CMD_Q_HEAD q)
  let a := 0x200000 + q * 0x4000 + (h % 256) * 0x40
  let w0 := s.rd a
  if w0 % 65536 = h / 256 % 65536 ∧ w0 % 65536 ≠ 0 then
    some { queue := q, seq := w0 % 65536, opcode := w0 / 65536 % 256, ctx := w0 / 2 ^ 24 % 16, fence := w0.testBit 28,
           rsv := w0 / 2 ^ 29, tag := s.rd (a + 4), args := (List.range 14).map (fun i => s.rd (a + 8 + 4 * i)),
           ring := some (if q = 0 then 0 else h / 2 ^ 25 % 16) }
  else none

/-- The order may be collected (R80, R90): its result ring has a free entry; while ring 0 is not set up, queue 0 gives only a
`RING_SETUP` of ring 0; while results wait in the backlog, queue 0 gives none once it is. -/
def State.mayCollect (s : State) (o : Order) : Bool :=
  let r := o.ring.getD 0
  if o.queue = 0 ∧ (KMap.find s.host.rings 0).isNone then o.opcode == 0x02 && o.w 4 / 256 % 16 == 0
  else if o.queue = 0 ∧ s.host.backlog.any (fun b => b.kind == 2) then false
  else decide (0 < s.ringFree r)

/-- Take one order from its slot: its result entry is reserved, and the queue goes on to the next slot and seq (R79, R80). -/
def State.take (s : State) (o : Order) : State :=
  let h := s.rd (R.CMD_Q_HEAD o.queue)
  let exp := if o.seq = 0xFFFF then 1 else o.seq + 1
  let s1 := s.wr (R.CMD_Q_HEAD o.queue) (putBits (putBits h 0 8 (h + 1)) 8 16 exp)
  { s1 with host := { s1.host with orders := s1.host.orders ++ [{ o with id := s1.host.nextOrder }], nextOrder := s1.host.nextOrder + 1 } }

/-- Collect up to `fuel` consecutive orders of queue `q`: the state, and how many were collected. -/
def State.collectQueue (s : State) (q : Nat) : Nat → State × Nat
  | 0 => (s, 0)
  | fuel + 1 =>
    match s.nextOrder q with
    | none => (s, 0)
    | some o =>
      if s.mayCollect o then
        let r := (s.take o).collectQueue q fuel
        (r.1, r.2 + 1)
      else (s, 0)

/-- Visit the enabled queues in round-robin order from `rrStart`: at most 16 orders of a queue and 64 in the tick (R80). -/
def State.collect (s : State) : State × Nat :=
  let r := (List.range 16).foldl (fun (a : State × Nat) i =>
    let q := (s.host.rrStart + i) % 16
    if a.1.bit (R.CMD_Q_HEAD q) 24 then
      let b := a.1.collectQueue q (min 16 (64 - a.2))
      (b.1, a.2 + b.2)
    else a) (s, 0)
  ({ r.1 with host := { r.1.host with rrStart := (s.host.rrStart + 1) % 16 } }, r.2)

/-- Opcodes of Table 4.4. -/
def opcodeKnown (op : Nat) : Bool := decide (op ≤ 9) || decide (0x40 ≤ op ∧ op ≤ 0x44)

/-- Orders with an unassigned opcode are refused as they come to start (R83). -/
def State.refuseUnknown (s : State) : State :=
  (s.host.orders.filter (fun o => !opcodeKnown o.opcode)).foldl (fun s o =>
    match s.orderReady o.queue o.seq o.opcode with
    | some p => s.complete p E_CMD_OPCODE
    | none => s) s

/-- SCH_TICK (R80): every 10 µs SCH starts line work that may start (R68), evaluates a pending handshake (R70), judges the
heartbeat (R87), collects orders where a handshake has agreed (R71), and looks at its pours and contexts. -/
def execSchTick (t : Nat) (s : State) : Host.Outcome State Fault Refusal :=
  let s0 := s.at' t
  if !s0.running || !s0.schUp then done s0
  else
    let s1 := s0.wr64 R.CMD_TICKS (s0.rd64 R.CMD_TICKS + 1)
    let s2 := (s1.startLineWork).evalHiv.judgeHeartbeat
    let first := s2.host.rrStart
    let asked := s1.bit R.GLB_HIV_HOST 31
    let (s3, n) := if s2.agreed && !asked then s2.collect else (s2, 0)
    let s4 := s3.trace 0x01 2 (n + first * 65536)
    done ((s4.refuseUnknown).pourRetry).schedule

/-! ### BAR2 -/

/-- SC refuses an access of `n` bytes at BAR2 offset `off` (R77, R451): the slot unmapped, the page absent, not in device
memory, protected or read-only for a write, the host not ATTACHED, SC absent or in its fault state. -/
def State.bar2Refused (s : State) (off n : Nat) (write : Bool) : Option (Nat × Nat) :=
  match KMap.find s.host.bar2 (off / 2 ^ 30) with
  | none => none
  | some b =>
    let va := b.base + off % 2 ^ 30
    if !s.attached || !s.scUp || (write && !b.writable) || decide (2 ^ 30 < off % 2 ^ 30 + n) then none
    else match s.xlateAll b.ctx write false (n / 4096 + 2) va n with
      | .ok _ => some (b.ctx, va)
      | _ => none

/-- A refused access is counted, and raises `E_BAR2_DENIED` at most once per slot per millisecond (R77). -/
def State.bar2Deny (s : State) (off : Nat) : State :=
  (s.inc R.SEC_BAR2_DENIED).raiseLim E_BAR2_DENIED (off / 2 ^ 30) ms {}

/-- BAR2_READ (R77, R78): data; all bytes 0xFF where refused; Completer Abort and no data on an uncorrectable error, of a line poisoned
already or, with its `err`, of the access's first line as it is read (R179). An access reaches the device only over a trained link. -/
def execBar2Read (t : Nat) (off : BitVec 36) (r : Bar2Span) (s : State) : Host.Outcome State Fault Refusal :=
  let s0 := s.at' t
  if !s0.running || !s0.mod.pcieUp then done s0
  else match s0.bar2Refused off.toNat r.len false with
    | none =>
      let s1 := s0.bar2Deny off.toNat
      done { s1 with host := { s1.host with lastCpl := .ok, lastData := List.replicate r.len 0xFF } }
    | some (x, va) =>
      let l := s0.physOf x va / 256
      match (if r.err.bad then some l else s0.poisonedIn x va r.len) with
      | some k =>
        let s1 := s0.memUncorr k 4 x 0
        done { s1 with host := { s1.host with lastCpl := .aborted, lastData := [] } }
      | none =>
        let s1 := s0.countCorr l r.err
        let s2 := if r.err.wrongWord then s1.fresh else s1
        let k := 256 - va % 256
        let bs := s0.vreadBytes x va r.len
        done { s2 with host := { s2.host with lastCpl := .ok, lastData := r.err.deliver s0.free va (bs.take k) ++ bs.drop k } }

/-- BAR2_WRITE (R77, R78, R180): written, or dropped where refused. A line that it covers only in part is read first, and the write is not
performed where that line fails its code. -/
def execBar2Write (t : Nat) (off : BitVec 36) (d : Bar2Data) (s : State) : Host.Outcome State Fault Refusal :=
  let s0 := s.at' t
  let n := d.bytes.length
  if !s0.running || !s0.mod.pcieUp then done s0
  else match s0.bar2Refused off.toNat n true with
    | none => done (s0.bar2Deny off.toNat)
    | some (x, va) =>
      let l := s0.physOf x va / 256
      let part := decide (va % 256 ≠ 0 ∨ n < 256)
      match (if part && d.err.bad then some l else s0.partPoison x va n) with
      | some k => done (s0.memUncorr k 4 x 0)
      | none =>
        let s1 := if part then (s0.countCorr l d.err).miscorrect l d.err else s0
        done (s1.vwrite x (n / 4096 + 2) va d.bytes)

/-! ### Rings -/

/-- A write of `v` to the head register of ring `r` (R85): entries up to it are consumed. A write of the index it has consumes nothing,
though a full ring read whole gives that index too: a DESIGN CHOICE (log 106). -/
def State.ringHead (s : State) (r v : Nat) : State :=
  let s1 := s.wr (if r = 8 then R.CMD_EVT_HEAD else R.CMD_RR_HEAD r) (v % 65536)
  match KMap.find s1.host.rings r with
  | none => s1
  | some g =>
    let adv := (v % 65536 + 2 ^ 17 - g.consumed % 2 ^ g.log2) % 2 ^ g.log2
    let g1 : Ring := { g with consumed := min g.written (g.consumed + adv) }
    let s2 : State := { s1 with host := { s1.host with rings := KMap.put s1.host.rings r g1 } }
    (s2.deliver).reportLost

/-- HOST_RING_HEAD_WRITE (R85, R90): the host reports the index of the next entry it will read; entries that waited for space
are written, then the report of events lost. -/
def execHostRingHeadWrite (t : Nat) (ring : Fin 9) (v : W32) (s : State) : Host.Outcome State Fault Refusal :=
  let s0 := s.at' t
  if s0.running then done (s0.ringHead ring v.toNat) else done s0

/-- MSIX_COALESCE_TIMEOUT (R84): the coalesce time of a ring has run out since its first unsignalled entry. -/
def execMsixCoalesceTimeout (t : Nat) (ring : Fin 9) (s : State) : Host.Outcome State Fault Refusal :=
  let s0 := s.at' t
  match KMap.find s0.host.rings ring with
  | none => done s0
  | some g =>
    if s0.running && decide (0 < g.unsig ∧ g.unsigAt + g.timeUs * 1000 ≤ s0.now) then
      done (({ s0 with host := { s0.host with rings := KMap.put s0.host.rings ring { g with unsig := 0 } } }).msix (ringVector ring))
    else done s0

end Sys2Proof.Machine
end

