-- ==== Sys2Proof/Machine/Sec.lean ====
section
/-! DEFINITION. The security mailbox (chapter Security and attestation): its commands, quotes, bundles, tokens and the owner binding
(R441–R459). Keys and signatures are numbers in the byte order of R443; the functions over them are opaque (log 3). -/

namespace Sys2Proof.Machine

/-! ### The mailbox -/

/-- The request: `SEC_MB_LEN` bytes of `SEC_MB_REQ`. -/
def State.mbReq (s : State) : List Byte :=
  let n := min 4096 (s.fld R.SEC_MB_LEN 0 13)
  ((List.range ((n + 3) / 4)).flatMap (fun i => leBytes (s.rd (R.SEC_MB_REQ + 4 * i)) 4)).take n

/-- Store a response of at most 8 KiB in `SEC_MB_RSP`, with its length. -/
def State.mbRsp (s : State) (bs : List Byte) : State :=
  let out := bs.take 8192
  let s1 := (List.range ((out.length + 3) / 4)).foldl (fun s i => s.wr (R.SEC_MB_RSP + 4 * i) (numAt out (4 * i) 4)) s
  s1.wr R.SEC_MB_RLEN out.length

/-- The command ends: done with a response, or refused with a code; vector 10 (R444). -/
def State.mbEnd (s : State) (cmd code : Nat) (rsp : List Byte) : State :=
  let s1 := (s.mbRsp rsp).wr R.SEC_MB_STAT ((if code = 0 then 2 else 3) + code * 2 ^ 16)
  (s1.msix 10).trace 0x30 0 (cmd + code * 2 ^ 16)

/-- A command answers the state it leaves, its code (0 for done) and its response. -/
abbrev MbResult := State × Nat × List Byte

/-- Refused with a code (R444). -/
def mbRefuse (s : State) (code : Nat) : MbResult := (s, code, [])

/-- `SEC_MB_CMD` is written with go and command `cmd` (R444): refused unless ATTACHED with an agreed handshake; nothing starts while SC
is absent; every command but CHALLENGE ends the open challenge, once it has used it. -/
def State.mailbox (s : State) (cmd : Nat) (run : State → MbResult) : State :=
  let s1 := s.wr R.SEC_MB_CMD cmd
  if !s1.scUp then s1
  else if !(s1.attached && s1.agreed) then s1.wr R.SEC_MB_STAT (3 + E_HIV_NONE * 2 ^ 16)
  else
    let r := run s1
    let s2 : State := if cmd = 6 then r.1 else { r.1 with sec := { r.1.sec with challenge := none } }
    s2.mbEnd cmd r.2.1 r.2.2

/-! ### Keys and identity -/

/-- The device ID: SHA-384 of IK's public key (R441). -/
def deviceId : List Byte := shaBytes (leBytes ikPublic.toNat 96)

/-- The open CHALLENGE nonce, valid for 600 s (R444). -/
def State.openNonce (s : State) : Option (List Byte) :=
  match s.sec.challenge with
  | some (n, at0) => if s.now ≤ at0 + 600000 * ms then some (leBytes n 48) else none
  | none => none

/-! ### Certificates, quotes and challenges -/

/-- A certificate prefixed by its 4-byte length (Table 20.3). -/
def certItem (c : List Byte) : List Byte := leBytes c.length 4 ++ c

/-- The response to CERTS (Table 20.3): the IK certificate, of length 0 where it is absent, the BK and the device CA certificate. -/
def certsRsp : List Byte := certItem (Config.ikCert.getD []) ++ certItem bkCert ++ certItem Config.caCert

/-- CERTS takes no request (Table 20.3). -/
def State.mbCerts (s : State) : MbResult :=
  if s.mbReq ≠ [] then mbRefuse s E_CMD_ARG else (s, 0, certsRsp)

/-- CERTS (R444): the IK, BK and device CA certificates. -/
def execCerts (t : Nat) (s : State) : Host.Outcome State Fault Refusal :=
  let s := s.at' t
  if s.running then done (s.mailbox 1 State.mbCerts) else done s

/-- The configuration hash of the live generation (R445). -/
def State.cfgHashNow (s : State) : Nat :=
  s.sec.cfgHash.getD (Config.sha384Words (s.recordNow s.liveGen s.rny).words).toNat

/-- The owner hash of a quote: SHA-384 of the owner's public key, 0 when none (Table 20.4). -/
def State.ownerHash (s : State) : List Byte :=
  match s.sec.owner with
  | some k => shaBytes (leBytes k 96)
  | none => List.replicate 48 0

/-- Flags of a quote (Table 20.4); `nd` digest entries. -/
def State.quoteFlags (s : State) (nd : Nat) : Nat :=
  b2n s.sec.jtagSince + 2 * b2n s.sec.liveSince + 4 * b2n s.sec.owner.isSome + 8 * b2n (decide (s.fld R.STG_STATUS 0 3 = 2))
    + 16 * b2n (decide (0 < nd)) + 32 * b2n s.sec.crashed

/-- A digest entry of a quote for request word `e` (Table 20.4). -/
def State.quoteDigest (s : State) (e : Nat) : List Byte :=
  let k := e % 32
  let d := e / 256 % 256
  let x := match KMap.find s.fab.bankOwner k with | some (x, _) => x | none => 0
  leBytes (k + d * 256 + x % 16 * 65536) 4 ++ List.replicate 12 0 ++ leBytes (s.digest k d) 16

/-- A quote without its signature (Table 20.4). -/
def State.quoteBody (s : State) (nonce : List Byte) (es : List Nat) : List Byte :=
  let bs := s.sec.bundles.filter (fun b => b.loaded)
  leBytes 0x15141 4 ++ leBytes (s.quoteFlags es.length) 4 ++ nonce ++ deviceId ++ leBytes (s.rd R.GLB_BOOT_COUNT) 4
    ++ leBytes (s.rd R.GLB_GRADE) 4 ++ leBytes s.devS 8 ++ leBytes s.devNs 4 ++ List.replicate 4 0
    ++ leBytes s.boot.imageHash 48 ++ leBytes (s.rd R.GLB_FW_VERSION) 4 ++ leBytes (s.rd R.GLB_HIV_DEV) 4 ++ s.ownerHash
    ++ leBytes s.liveGen 4 ++ leBytes (s.rd R.STG_GEN_PENDING) 4 ++ leBytes s.cfgHashNow 48
    ++ leBytes bs.length 4 ++ leBytes es.length 4
    ++ bs.flatMap (fun b => leBytes b.digest 48 ++ shaBytes (leBytes b.signer 96)) ++ es.flatMap s.quoteDigest

/-- A digest entry of a request names a bank and a register, and no more (Table 20.3). -/
def quoteEntryOk (e : Nat) : Bool := decide (e / 32 % 8 = 0) && decide (e / 65536 = 0)

/-- QUOTE (R445): one snapshot, signed with IK. -/
def State.mbQuote (s : State) : MbResult :=
  let q := s.mbReq
  let nd := numAt q 48 4
  let es := (List.range nd).map (fun i => numAt q (52 + 4 * i) 4)
  if q.length < 52 ∨ 16 < nd ∨ q.length ≠ 52 + 4 * nd ∨ es.all quoteEntryOk = false then mbRefuse s E_CMD_ARG
  else
    let b := s.quoteBody (cut q 0 48) es
    (s, 0, b ++ leBytes (ikSign (Config.sha384 b)).toNat 96)

/-- QUOTE (R445): a signed quote of the device state. -/
def execQuote (t : Nat) (s : State) : Host.Outcome State Fault Refusal :=
  let s := s.at' t
  if s.running then done (s.mailbox 2 State.mbQuote) else done s

/-- A fresh nonce opens a challenge (R444). -/
def State.mbChallenge (s : State) : MbResult :=
  if s.mbReq ≠ [] then mbRefuse s E_CMD_ARG
  else
    let n := Config.nonce s.sec.nonces
    ({ s with sec := { s.sec with challenge := some (n.toNat, s.now), nonces := s.sec.nonces + 1 } }, 0, leBytes n.toNat 48)

/-- CHALLENGE (R444): a fresh nonce for the next TOKEN, OWNER_SET or OWNER_CLEAR. -/
def execChallenge (t : Nat) (s : State) : Host.Outcome State Fault Refusal :=
  let s := s.at' t
  if s.running then done (s.mailbox 6 State.mbChallenge) else done s

/-! ### Bundles -/

/-- Bytes of the bundle store (R448). -/
def bundleStore : Nat := 5 * 2 ^ 30

/-- Bytes of the bundle store in use. -/
def State.storeUsed (s : State) : Nat := s.sec.bundles.foldl (fun a b => a + b.len) 0

/-- Check 1 of R448 on a bundle of `n` bytes with header `h`: magic, version, lengths, reserved bytes, and room in the store. -/
def State.bundleForm (s : State) (h : List Byte) (n : Nat) : Bool :=
  let np := numAt h 0x10C 4
  decide (numAt h 0 4 = 0x14C42) && decide (numAt h 4 4 = 0x400) && decide (numAt h 8 8 + 0x400 = n)
    && decide (1 ≤ np) && decide (np ≤ 8) && (cut h (0x110 + 48 * np) (48 * (8 - np))).all (fun b => b == 0)
    && (cut h 0x2A0 256).all (fun b => b == 0) && decide (s.storeUsed + n ≤ bundleStore)

/-- The order number and code of the first check of R448 a bundle fails; none where it passes. -/
def State.bundleBad (s : State) (bs : List Byte) : Option (Nat × Nat) :=
  let h := bs.take 0x400
  let signer := numAt h 0x10 96
  if !s.bundleForm h bs.length then some (1, E_CMD_ARG)
  else if cut h 0xD0 48 ≠ shaBytes (leBytes bkPublic.toNat 96) then some (2, E_BUNDLE_DECRYPT)
  else if s.sec.owner.isSome ∧ s.sec.owner ≠ some signer then some (3, E_BUNDLE_SIG)
  else if !bundleSigned bs then some (4, E_BUNDLE_SIG)
  else if (bundleClear bs).isNone then some (5, E_BUNDLE_DECRYPT)
  else none

/-- The response to BUNDLE_LOAD: digest and signer hash. -/
def Bundle.ident (b : Bundle) : List Byte := leBytes b.digest 48 ++ shaBytes (leBytes b.signer 96)

/-- The bundle store's entry for a bundle delivered as `bs` (R446). -/
def bundleOf (bs : List Byte) : Bundle :=
  { digest := (Config.sha384 bs).toNat, signer := numAt bs 0x10 96, len := bs.length, loaded := true, data := bs
    allowed := (List.range (numAt bs 0x10C 4)).map (fun i => numAt bs (0x110 + 48 * i) 48) }

/-- Load the bundle delivered as `bs` (R448): one stored already needs no further work; else its checks run in order, it is decrypted
and stored. After a JTAG unlock none loads before the next reset (R455). -/
def State.loadBundle (s : State) (bs : List Byte) : MbResult :=
  let d := (Config.sha384 bs).toNat
  match s.sec.bundles.find? (fun b => b.digest == d) with
  | some b =>
    ({ s with sec := { s.sec with bundles := s.sec.bundles.map (fun c =>
        if c.digest = d ∧ s.sec.noLoad = false then { c with loaded := true } else c) } }, 0, b.ident)
  | none =>
    match s.bundleBad bs with
    | some (i, code) => (s.raise code { w4 := some i }, code, [])
    | none =>
      if s.sec.noLoad then mbRefuse s E_CMD_ARG
      else ({ s with sec := { s.sec with bundles := s.sec.bundles ++ [bundleOf bs] } }, 0, (bundleOf bs).ident)

/-- Every page of `n` bytes from `va` in context `x` can be read by SC. -/
def State.readable (s : State) (x va n : Nat) : Bool :=
  match s.xlateAll x false false (n / 4096 + 1) va n with
  | .ok _ => true
  | _ => false

/-- BUNDLE_LOAD: context, virtual address and length of the bundle (Table 20.3). A line of it that reads as uncorrectable (R181, R182) ends
the command with `E_MEM_UNCORR`: a DESIGN CHOICE (log 115). -/
def State.mbBundleLoad (s : State) : MbResult :=
  let q := s.mbReq
  let x := numAt q 0 4
  let va := numAt q 4 8
  let n := numAt q 12 8
  if q.length ≠ 20 ∨ 16 ≤ x ∨ n < 0x400 ∨ bundleStore < n ∨ 2 ^ 48 < va + n then mbRefuse s E_CMD_ARG
  else if !s.readable x va n then mbRefuse s E_CMD_ARG
  else match s.poisonedIn x va n with
    | some l => mbRefuse (s.memUncorr l Config.scReader.toNat x 0) E_MEM_UNCORR
    | none => s.loadBundle (s.vreadBytes x va n)

/-- BUNDLE_LOAD (R448): checks, decrypts and stores a model bundle. -/
def execBundleLoad (t : Nat) (s : State) : Host.Outcome State Fault Refusal :=
  let s := s.at' t
  if s.running then done (s.mailbox 3 State.mbBundleLoad) else done s

/-- A program that names bundle `d` is loaded (R448). -/
def State.bundleUsed (s : State) (d : Nat) : Bool :=
  s.sch.progs.any (fun l => decide (l.prog.bundle.map (fun b => b.toNat) = some d))

/-- The pending cast set pins bundle `d`: it names a program that uses it (R97). -/
def State.bundlePinned (s : State) (d : Nat) : Bool :=
  match s.castCtx with
  | some c => (s.namedProgs c.1 c.2).any (fun l => decide (l.prog.bundle.map (fun b => b.toNat) = some d))
  | none => false

/-- BUNDLE_DELETE: the digest of a stored bundle (R448). -/
def State.mbBundleDelete (s : State) : MbResult :=
  let q := s.mbReq
  let d := numAt q 0 48
  if q.length ≠ 48 ∨ s.sec.bundles.any (fun b => b.digest == d) = false then mbRefuse s E_CMD_ARG
  else if s.bundlePinned d then mbRefuse s E_CAST_PENDING
  else if s.bundleUsed d then mbRefuse s E_CMD_ARG
  else ({ s with sec := { s.sec with bundles := s.sec.bundles.filter (fun b => b.digest != d) } }, 0, [])

/-- BUNDLE_DELETE (R448). -/
def execBundleDelete (t : Nat) (s : State) : Host.Outcome State Fault Refusal :=
  let s := s.at' t
  if s.running then done (s.mailbox 4 State.mbBundleDelete) else done s

/-- BUNDLE_LIST: the count, then digest and signer hash of each stored bundle (Table 20.3). -/
def State.mbBundleList (s : State) : MbResult :=
  if s.mbReq ≠ [] then mbRefuse s E_CMD_ARG
  else (s, 0, leBytes s.sec.bundles.length 4 ++ s.sec.bundles.flatMap Bundle.ident)

/-- BUNDLE_LIST (R444). -/
def execBundleList (t : Nat) (s : State) : Host.Outcome State Fault Refusal :=
  let s := s.at' t
  if s.running then done (s.mailbox 5 State.mbBundleList) else done s

/-! ### Tokens and debug unlock -/

/-- Records of `GLB_BIST_REC` (R61). -/
def bistRecs : Nat := 128

/-- The payload of a token of type `typ` is sound (Table 20.6): no bit without a meaning, and each record named is repairable. -/
def State.payloadOk (s : State) (typ pay : Nat) : Bool :=
  if typ = 1 then decide (pay / 4 = 0)
  else if typ = 2 then
    (List.range bistRecs).all (fun n => !pay.testBit n || decide (s.rd (R.GLB_BIST_REC n) / 2 ^ 28 = 1))
  else decide (pay = 0)

/-- Why token `q` fails (R454): 1 format, 2 device ID, 3 nonce, 4 signature, 5 payload; 0 where it passes. -/
def State.tokenReason (s : State) (q : List Byte) : Nat :=
  let typ := numAt q 4 4
  if numAt q 0 4 ≠ 0x1544B ∨ typ = 0 ∨ 3 < typ then 1
  else if cut q 8 48 ≠ deviceId then 2
  else if s.openNonce ≠ some (cut q 0x38 48) then 3
  else if !sigOk Config.tokenKey.toNat (q.take 0x78) (numAt q 0x78 96) then 4
  else if !s.payloadOk typ (numAt q 0x68 16) then 5
  else 0

/-- Context `x` maps protected pages (R187). -/
def State.mapsProt (s : State) (x : Nat) : Bool :=
  s.fab.pt4.any (fun e => e.2.prot && e.1 / 2 ^ 36 == x) || s.fab.pt2.any (fun e => e.2.prot && e.1 / 2 ^ 27 == x)

/-- A token with the JTAG bit takes effect, in the order of R455: pours that map protected pages fault and line work that uses them
stops, every protected page and region is zeroed, every bundle is unloaded, and the debug port opens. -/
def State.unlockJtag (s : State) : State :=
  let s1 := s.faultPoursOf (fun p => s.mapsProt p.ctx) (openCode Config.debugCause.toNat)
  let s2 : State := { (s1.zeroProtected) with sec := { s1.sec with
    bundles := s1.sec.bundles.map (fun b => { b with loaded := false }), noLoad := true, jtagSince := true } }
  let s3 : State := if s2.bundleLine then { s2 with boot := { s2.boot with lineStarted := false } } else s2
  s3.setBit R.SEC_STAT 4 true

/-- Burn the repairs a token names: their records read repair value 2 (R61, Table 3.3). -/
def State.burnRepairs (s : State) (pay : Nat) : State :=
  (List.range bistRecs).foldl (fun s n =>
    if pay.testBit n then
      let w := s.rd (R.GLB_BIST_REC n)
      let e := (w % 256, w / 256 % 256, w / 65536 % 256, s.rd (R.GLB_BIST_REC n + 4))
      let s1 := s.setFld (R.GLB_BIST_REC n) 28 4 2
      { s1 with boot := { s1.boot with burnt := s1.boot.burnt ++ [e] } }
    else s) s

/-- A token takes effect (R454, R455, R61, R452). -/
def State.tokenApply (s : State) (typ pay : Nat) : State :=
  if typ = 1 then
    let s1 := if pay.testBit 1 then s.setBit R.SEC_STAT 5 true else s
    if pay.testBit 0 then s1.unlockJtag else s1
  else if typ = 2 then s.burnRepairs pay
  else { s with sec := { s.sec with owner := none } }

/-- TOKEN: 216 bytes checked against the open challenge (R454). -/
def State.mbToken (s : State) : MbResult :=
  let q := s.mbReq
  if q.length ≠ 216 then mbRefuse s E_CMD_ARG
  else
    let r := s.tokenReason q
    if r ≠ 0 then (s.raise E_DEBUG_TOKEN { w3 := some r }, E_DEBUG_TOKEN, [])
    else (s.tokenApply (numAt q 4 4) (numAt q 0x68 16), 0, [])

/-- TOKEN (R454): a debug-unlock, repair or owner-clear token. -/
def execToken (t : Nat) (s : State) : Host.Outcome State Fault Refusal :=
  let s := s.at' t
  if s.running then done (s.mailbox 7 State.mbToken) else done s

/-- DEBUG_LOCK closes both scopes at once (R455). -/
def State.mbDebugLock (s : State) : MbResult :=
  if s.mbReq ≠ [] then mbRefuse s E_CMD_ARG else (s.setFld R.SEC_STAT 4 2 0, 0, [])

/-- DEBUG_LOCK (R455). -/
def execDebugLock (t : Nat) (s : State) : Host.Outcome State Fault Refusal :=
  let s := s.at' t
  if s.running then done (s.mailbox 8 State.mbDebugLock) else done s

/-! ### Owner binding -/

/-- A signature by `key` over the device ID, the open nonce and `tail` (R452). -/
def State.ownerSig (s : State) (key sig : Nat) (tail : List Byte) : Bool :=
  match s.openNonce with
  | some n => sigOk key (deviceId ++ n ++ tail) sig
  | none => false

/-- OWNER_SET: owner public key and signature (R452). -/
def State.mbOwnerSet (s : State) : MbResult :=
  let q := s.mbReq
  let key := numAt q 0 96
  if q.length ≠ 192 ∨ s.sec.owner.isSome = true ∨ s.ownerSig key (numAt q 96 96) [] = false
      ∨ s.sec.bundles.any (fun b => b.signer != key) = true then mbRefuse s E_CMD_ARG
  else ({ s with sec := { s.sec with owner := some key } }, 0, [])

/-- OWNER_SET (R452): binds the device to an owner key. -/
def execOwnerSet (t : Nat) (s : State) : Host.Outcome State Fault Refusal :=
  let s := s.at' t
  if s.running then done (s.mailbox 9 State.mbOwnerSet) else done s

/-- OWNER_CLEAR: a signature by the owner key over the device ID, the nonce and the byte 0x43 (R452). -/
def State.mbOwnerClear (s : State) : MbResult :=
  let q := s.mbReq
  match s.sec.owner with
  | none => mbRefuse s E_CMD_ARG
  | some key =>
    if q.length ≠ 96 ∨ s.ownerSig key (leNum q) [0x43] = false then mbRefuse s E_CMD_ARG
    else ({ s with sec := { s.sec with owner := none } }, 0, [])

/-- OWNER_CLEAR (R452): removes the owner binding. -/
def execOwnerClear (t : Nat) (s : State) : Host.Outcome State Fault Refusal :=
  let s := s.at' t
  if s.running then done (s.mailbox 10 State.mbOwnerClear) else done s

end Sys2Proof.Machine
end

