-- ==== Sys2Proof/Machine/Views.lean ====
section
/-! DEFINITION. What a read of a BAR0 register returns (R76 and the register tables of each chapter). Most registers read as
stored; those that show other state are derived here. Registers that measure timing read a free value within their fields
(log 2). -/

namespace Sys2Proof.Machine

/-- Word `i` of a number of several words, low word first (R8). -/
def wordOf (v i : Nat) : Nat := v / 2 ^ (32 * i) % 2 ^ 32

/-- A measured value below `m`. -/
def State.gauge (s : State) (a m : Nat) : Nat := (Config.measure a s.free).toNat % m

/-! ### Stage and command blocks -/

/-- `STG_` registers (Table 5.5). -/
def State.viewStg (s : State) (a : Nat) : Nat :=
  if a = R.STG_DIRTY_COUNT then
    dirtyCount s.stage.shadow stagedWord % 65536 + dirtyCount s.stage.rnyShadow stagedRny % 65536 * 65536
  else if a = R.STG_GENS_OPEN then s.gensUsed.length % 16
  else if a = R.STG_PEEK_DATA then
    let p := s.rd R.STG_PEEK_ADDR
    if p.testBit 31 then
      let i := p % 65536
      (match stagedRny i with
       | none => 0
       | some _ => match KMap.find s.stage.rnyShadow i with | some v => v.toNat | none => s.rreg i)
    else (match stagedWord p with
      | none => 0
      | some _ => match KMap.find s.stage.shadow p with | some v => v.toNat | none => s.rd p)
  else if a = R.STG_QUIESCED then b2n s.quiescedNow
  else if a = R.STG_CAST_LEAD then max 256 (s.rd a)
  else s.rd a

/-- The sequence pour's program of context `x`. -/
def State.seqDeclOf (s : State) (x : Nat) : Option SeqDecl :=
  (s.sch.pours.filter (fun p => p.ctx == x && p.holds)).findSome? (fun p => match s.pourProg p with | some g => g.seq | none => none)

/-- Word `i` of `CMD_SEQ_CTX[x]` (Table 14.6). -/
def State.viewSeqCtx (s : State) (x i : Nat) : Nat :=
  let q := KMap.getD s.sch.seqs x {}
  let ps := s.sch.pieces.filter (fun p => p.ctx == x)
  if i < 2 then wordOf q.step i
  else if i = 2 then (match s.seqDeclOf x with | some d => d.dpool % 2 ^ 24 | none => 0)
  else if i = 3 then q.free % 2 ^ 24
  else if i = 4 then ps.foldl (fun a p => a + p.mouldGroups + p.mouldB) 0 % 2 ^ 24
  else if i = 5 then (match s.seqDeclOf x with | some d => d.bt % 65536 | none => 0) + q.last % 65536 * 65536
  else if i = 6 then (ps.filter (fun p => p.st == 1 || p.st == 2)).length % 8192
  else 0

/-- Word `i` of `CMD_SEQ_KV[c]`: what the program bound to the class declares (Table 14.6). -/
def State.viewSeqKv (s : State) (c i : Nat) : Nat :=
  match (match s.classProgId s.liveGen c with | some id => s.program id | none => none) with
  | none => 0
  | some l => match l.prog.seq with
    | none => 0
    | some d => if i = 0 then d.lp % 16 + d.g % 65536 * 16 + b2n d.twin * 2 ^ 20 else if i = 1 then d.rows % 65536 else 0

/-- Word `i` of `CMD_CTX_STAT[x]` (Table 15.7). -/
def State.viewCtx (s : State) (x i : Nat) : Nat :=
  match s.ctx x with
  | none => 0
  | some c =>
    if i = 0 then c.st % 8 + c.cls % 4 * 8 + c.prio % 8 * 32 + b2n c.restored * 256 + b2n c.held * 512 + c.code % 65536 * 65536
    else if i = 1 then c.slice
    else if i = 2 then c.mask.toNat
    else if i = 3 then c.running.toNat
    else if i = 4 then c.debt / 1000
    else if i = 5 then c.image
    else if i = 6 then c.chills
    else c.steals

/-- Word 0 of `CMD_FLASK_SCHED[n]` (Table 15.6). -/
def State.viewFlaskSched (s : State) (n : Nat) : Nat :=
  let k := s.flask n
  (match k.job with | some x => x % 16 | none => 0) + b2n k.line.isSome * 16 + k.phase % 4 * 32

/-- A pour that waits for a digest bank (R346). -/
def State.waitsBank (s : State) (p : Pour) : Bool :=
  p.st == 0 && (match s.pourProg p with | some g => decide (s.freeBanks.length < banksNeeded g) | none => false)

/-- `CMD_` registers, by offset in the block (Tables 4.7, 14.4, 15.6 and 16.5). -/
def State.viewCmd (s : State) (a o : Nat) : Nat :=
  if o < 0x100000 then (if a = R.CMD_BACKLOG then s.host.backlog.length else s.rd a)
  else if a = R.CMD_SEQ_SLOTS then s.slotsHeld % 8192 + s.sch.pendRet.length % 8192 * 65536
  else if 0x100100 ≤ o ∧ o < 0x100300 then s.viewSeqCtx ((o - 0x100100) / 0x20) (o % 0x20 / 4)
  else if 0x102000 ≤ o ∧ o < 0x102400 then s.viewSeqKv ((o - 0x102000) / 16) (o % 16 / 4)
  else if 0x103000 ≤ o ∧ o < 0x103100 then s.heldBy ((o - 0x103000) / 4) % 2 ^ 24
  else if 0x110000 ≤ o ∧ o < 0x110200 then s.viewCtx ((o - 0x110000) / 0x20) (o % 0x20 / 4)
  else if 0x110400 ≤ o ∧ o < 0x110500 ∧ o % 8 = 0 then s.viewFlaskSched ((o - 0x110400) / 8)
  else if a = R.CMD_DIG_BANKS then s.fab.bankOwner.length % 64 + min 255 (s.sch.pours.filter s.waitsBank).length * 256
  else if 0x120010 ≤ o ∧ o < 0x120090 then
    (match KMap.find s.fab.bankOwner ((o - 0x120010) / 4) with
     | none => 0
     | some w => 1 + w.1 % 16 * 2 + b2n w.2.2.1 * 32 + w.2.1 % 2 ^ 24 * 256)
  else if 0x120100 ≤ o ∧ o < 0x120200 ∧ o % 16 = 8 then
    let i := (o - 0x120100) / 16
    s.rd a + (s.sch.pours.filter (fun p => decide (p.st ≤ 1) && p.sbar == some i)).length % 256 * 256
  else if a = R.CMD_TWIN_STAT then s.fld a 0 16 + (s.sch.seqs.filter (fun e => e.2.compare)).length % 65536 * 65536
  else if 0x121000 ≤ o ∧ o < 0x141000 then
    wordOf (s.digest ((o - 0x121000) / 0x1000) ((o - 0x121000) % 0x1000 / 16)) (o % 16 / 4)
  else s.rd a

/-! ### Flasks and memory -/

/-- Context that shows as running on flask `n`: its JOB context, else the first LINE context that runs there. -/
def State.flaskCtx (s : State) (n : Nat) : Option Nat :=
  match (s.flask n).job with
  | some x => some x
  | none => (s.sch.ctxs.find? (fun e => e.2.cls == 1 && e.2.running.toNat.testBit n)).map Prod.fst

/-- `FLK_STAT` (Table 9.11). -/
def State.viewFlkStat (s : State) (n : Nat) : Nat :=
  let st := if s.fab.fets.any (fun e => e.1 / 4 == n) || [2 * n, 2 * n + 1].any (fun c => (s.cru c).queue != []) then 2
    else if s.sch.ctxs.any (fun e => e.2.st == 4 && e.2.sections.any (fun k => k.flask == n)) then 3 else 1
  st + (match s.flaskCtx n with | some x => x % 16 * 8 | none => 0)
    + (s.sch.deques.filter (fun d => d.1 == n)).length % 256 * 256

/-- Word `i` of `FLK_STRIPE_STAT[j]` (Table 13.7). -/
def State.viewStripe (s : State) (n j i : Nat) : Nat :=
  match (s.fab.stripes.filter (fun p => p.cru / 2 == n))[j]? with
  | none => 0
  | some p =>
    if i = 0 then p.runner % 16 + p.slot % 4 * 16 + p.stripe % 16 * 64 + p.cru % 2 * 1024 + p.base % 32 * 2048
      + p.depth % 64 * 65536 + 2 ^ 22
    else if i = 1 then p.fill % 256 + p.free % 256 * 256
    else if i = 2 then (s.evc n p.fill + 2 ^ 32 - s.evc n p.free) % 64
    else 0

/-- Halo channel `h` produced on flask `n`: its context and declaration (R296). -/
def State.haloOn (s : State) (n h : Nat) : Option (Nat × HaloDecl) :=
  s.sch.progs.findSome? (fun l =>
    (l.prog.halos.find? (fun d => d.chan == h && s.nthFlask l.ctx d.pflask == n)).map (fun d => (l.ctx, d)))

/-- Word `i` of `FLK_HALO[h]` of flask `n` (Table 13.7). -/
def State.viewHalo (s : State) (n h i : Nat) : Nat :=
  match s.haloOn n h with
  | none => 0
  | some (x, d) =>
    let m := s.nthFlask x d.cflask
    if i = 0 then d.h % 256 + m % 32 * 256 + d.esize % 65536 * 65536
    else if i = 1 then d.offset % 2 ^ 23
    else if i = 2 then d.pub % 256 + d.ack % 256 * 256
    else if i = 3 then s.evc m d.pub
    else if i = 4 then s.evc n d.ack
    else if i = 5 then s.rd (R.FLK_HALO n h + 20)
    else 0

/-- `FLK_LADLE_STAT[l]` (Table 9.11). -/
def State.viewLadle (s : State) (n l : Nat) : Nat :=
  match s.ladle n l with
  | [] => 0
  | d :: q => d.state % 4 + (if d.state = 0 then q.length + 1 else q.length) % 32 * 4

/-- Registers of flask `n`, by offset in its block (Tables 9.11 and 13.6); a flask not in use reads 0 (R76). -/
def State.viewFlk (s : State) (a n o : Nat) : Nat :=
  if !s.flasksUsed.contains n then 0
  else if o = 0 then s.viewFlkStat n
  else if o = 4 then s.fld R.PWR_CLK 0 3
  else if o = 0x18 then s.gauge a (2 ^ 32)
  else if o = 0x20 ∨ o = 0x24 then wordOf (KMap.getD s.meter.hits n 0) (o % 8 / 4)
  else if o = 0x28 ∨ o = 0x2C then wordOf (KMap.getD s.meter.misses n 0) (o % 8 / 4)
  else if o = 0x90 ∨ o = 0x94 then wordOf (KMap.getD s.meter.tx n 0) (o % 8 / 4)
  else if o = 0x98 ∨ o = 0x9C then wordOf (KMap.getD s.meter.rx n 0) (o % 8 / 4)
  else if o = 0x40 ∨ o = 0x60 then s.viewLadle n ((o - 0x40) / 0x20)
  else if o = 0x44 ∨ o = 0x64 then (match s.ladle n ((o - 0x44) / 0x20) with | d :: _ => d.done % 2 ^ 32 | [] => 0)
  else if o = 0x80 ∨ o = 0x84 then s.gauge a 101
  else if 0x1000 ≤ o ∧ o < 0x1400 then s.evc n ((o - 0x1000) / 4)
  else if 0x2800 ≤ o ∧ o < 0x2C00 then s.viewStripe n ((o - 0x2800) / 16) (o % 16 / 4)
  else if 0x3000 ≤ o ∧ o < 0x3200 then s.viewHalo n ((o - 0x3000) / 32) (o % 32 / 4)
  else if 0x80000 ≤ o ∧ o < 0x80200 then
    (match KMap.find s.fab.bars ((o - 0x80000) / 8) with
     | none => 0
     | some b => if o % 8 = 0 then b.epoch % 2 ^ 32
                 else b.parts.length % 256 + b.arrived.length % 256 * 256 + b.ctx % 16 * 65536)
  else if 0x81000 ≤ o ∧ o < 0x83000 then wordOf (KMap.getD s.fab.gcs ((o - 0x81000) / 8) 0) (o % 8 / 4)
  else s.rd a

/-- Package `p` is trained: the self-test is past and left no record of it (R60). -/
def State.pkgOk (s : State) (p : Nat) : Bool :=
  (s.phase == 4 || s.phase == 5 || s.phase == 6 || s.phase == 7 || s.phase == 10) &&
    (List.range (s.fld R.GLB_BIST_SUMMARY 8 8)).all (fun r =>
      !(s.fld (R.GLB_BIST_REC r) 0 8 == 0x20 && s.fld (R.GLB_BIST_REC r) 8 8 == p))

/-- 2 MiB frames of the host tier in use: those some leaf places a page in. -/
def State.tierUsed (s : State) : Nat :=
  (((s.fab.pt2 ++ s.fab.pt4).filter (fun e => e.2.onHost)).map (fun e => e.2.frame / 2 ^ 21)).eraseDups.length

/-- `MEM_` registers, by offset in the block (Table 9.12). -/
def State.viewMem (s : State) (a o : Nat) : Nat :=
  if o = 0 then (List.range 8).foldl (fun v p => v + b2n (s.pkgOk p) * 2 ^ p) 0 + b2n ((List.range 8).all s.pkgOk) * 256
  else if 0x20 ≤ o ∧ o < 0xA0 ∧ o % 16 = 0 then (if s.pkgOk ((o - 0x20) / 16) then 0x1F else 0)
  else if 0x300 ≤ o ∧ o < 0x318 then s.gauge a (2 ^ 32)
  else if a = R.MEM_HOST_TIER_USED then s.tierUsed
  else s.rd a

/-! ### Runners, ports and the chain -/

/-- `RUN_STAT` of slot `j` (Table 7.8): OFF, WAIT for its camera to be UP, or RUN. -/
def State.viewRunStat (s : State) (j : Nat) : Nat :=
  let w := s.rd (R.RUN_SRC (j / 4) (j % 4))
  let cam := s.fld (R.CXP_STREAM_MAP (w / 4 % 64)) 1 5
  let st := if w % 2 = 0 then 0 else if w / 2 % 2 = 0 ∧ s.fld (R.CXP_PORT_STAT cam) 0 3 ≠ 3 then 1 else 2
  let x := s.slot j
  st + x.bank % 2 * 4 + b2n x.retired.isNone * 8

/-- Registers of runner `r`, by offset in its 64 KiB (Tables 7.8 and 8.4). -/
def State.viewRun (s : State) (a r q : Nat) : Nat :=
  let z := q % 0x400
  let y := q % 0x1000
  if q < 0x1000 then
    let j := 4 * r + q / 0x400
    if z = 0x200 then s.viewRunStat j
    else if z = 0x210 then
      (if q / 0x400 = 0 ∨ s.fld (R.RUN_SRC r (q / 0x400)) 0 2 = 3 then 0 else (ringUse (s.slot j).inq + 1023) / 1024)
    else s.rd a
  else if q = 0x1000 then s.gauge a 101 + s.gauge (a + 1) 101 * 256
  else if 0x8000 ≤ q ∧ q < 0xC000 ∧ y = 0x810 then
    ((s.slot (4 * r + (q - 0x8000) / 0x1000)).lanes.filter (fun e => e.2.opened)).length
  else if 0x8000 ≤ q ∧ q < 0xC000 ∧ y = 0x81C then s.gauge a 101
  else s.rd a

/-- `CXP_` registers, by offset in the block (Table 6.6): a disabled port with a pattern selected is in TEST (R129). -/
def State.viewCxp (s : State) (a o : Nat) : Nat :=
  let p := o / 0x100
  if o < 0x2000 ∧ o % 0x100 = 0x20 then
    (if s.fld (R.CXP_PRBS_CTRL p) 0 3 ≠ 7 ∧ s.prbsActive p then s.rd a / 8 * 8 + 6 else s.rd a)
  else if o < 0x2000 ∧ o % 0x100 = 0x24 then
    (if s.fld (R.CXP_RXEQ_CFG p) 0 2 = 1 ∧ s.fld (R.CXP_PORT_STAT p) 0 3 = 3 then s.gauge a 16 else s.rd a)
  else if o < 0x2000 ∧ o % 0x100 = 0x44 then
    s.rd a / 4 * 4 + s.rd a % 2 + b2n (s.fld (R.CXP_PRBS_CTRL p) 0 3 != 0 && !s.prbsActive p) * 2
  else s.rd a

/-- `LNK_` registers, by offset in the block (Tables 6.7 and 19.9). -/
def State.viewLnk (s : State) (a o : Nat) : Nat :=
  if o < 0x400 then s.msixWord (o / 4)
  else if o = 0x1000 ∨ o = 0x1004 then
    (List.range 32).foldl (fun v i => v + b2n (s.host.msixPend.contains (i + 8 * (o - 0x1000))) * 2 ^ i) 0
  else if 0x10000 ≤ o ∧ o < 0x10800 ∧ o % 0x100 = 0x20 then
    (let l := (o - 0x10000) / 0x100
     let w := s.rd a
     let w1 := if s.fld (R.LNK_NLX_RXEQ l) 0 2 = 1 ∧ 2 ≤ w % 8 then putBits w 4 4 (s.gauge a 16) else w
     if (s.lane l).rxIdle ∧ w % 8 = 2 then putBits w1 0 3 3 else w1)
  else if 0x11000 ≤ o ∧ o < 0x11800 ∧ o % 0x100 = 0 then
    (if s.pcieLane ((o - 0x11000) / 0x100) then s.mod.pcieRate + s.gauge (a + 1) 11 * 8 + 128 else 0)
  else if o = 0x20200 then s.injectWord
  else s.rd a

/-! ### Line control, time, power, security and debug -/

/-- Word `i` of a ledger entry (Table 17.1). -/
def LEntry.word (e : LEntry) (i : Nat) : Nat :=
  if i = 0 then e.state % 8 + b2n e.trailKnown * 8 + e.cls % 64 * 16 + e.lane % 16 * 2 ^ 10 + e.stream % 64 * 2 ^ 14
    + e.verdict % 8 * 2 ^ 20 + e.action % 8 * 2 ^ 23 + b2n e.dflt * 2 ^ 26 + b2n e.edgeUnc * 2 ^ 27 + b2n e.twin * 2 ^ 28
    + b2n e.castTrunc * 2 ^ 29
  else if i = 1 then e.gen % 2 ^ 32
  else if i < 4 then wordOf (e.serial % 2 ^ 48 + e.fired.toNat * 2 ^ 48 + e.unfired.toNat * 2 ^ 52) (i - 2)
  else if i < 6 then wordOf (e.lead % 2 ^ 48 + e.cause % 65536 * 2 ^ 48) (i - 4)
  else if i < 8 then wordOf (e.trail % 2 ^ 48) (i - 6)
  else if i < 10 then wordOf (e.deadline % 2 ^ 48) (i - 8)
  else if i < 12 then wordOf (e.vcount % 2 ^ 48) (i - 10)
  else if i = 12 then e.admitStep % 2 ^ 32
  else if i = 13 then e.leave % 2 ^ 32
  else if i = 14 then e.vns % 2 ^ 32
  else 0

/-- Word `i` of a block's trailer (Table 17.8); the open block's is zero (R385). -/
def JBlock.trailerWord (b : JBlock) (opened : Bool) (i : Nat) : Nat :=
  if opened then 0
  else
    let t := b.trailer.getD (0, 0, 0)
    let on := b.trailer.isSome
    if i = 0 then 0x4A42 + 65536
    else if i = 1 then (if on then b2n b.byTimeout + b2n b.atBoot * 2 + b2n b.late * 4 else 0)
    else if i < 4 then wordOf b.num (i - 2)
    else if i < 6 then (match b.recs with | r :: _ => wordOf r.seq (i - 4) | [] => 0)
    else if i = 6 then b.recs.length
    else if i = 8 ∨ i = 9 then wordOf (b.sealNs / 1000000000) (i - 8)
    else if i = 10 then b.sealNs % 1000000000
    else if 12 ≤ i ∧ i < 24 then wordOf t.1 (i - 12)
    else if 24 ≤ i ∧ i < 36 then wordOf t.2.1 (i - 24)
    else if 36 ≤ i ∧ i < 60 then wordOf t.2.2 (i - 36)
    else 0

/-- Word `w` of the journal window: the record that stands there, the trailer, or a page header, whose layout the spec does not
give (R380, R385; log 2). -/
def State.viewJrnWin (s : State) (a w : Nat) : Nat :=
  match s.jrn.window with
  | none => 0
  | some b =>
    let p := w / 1024
    let q := w % 1024 / 32
    if q = 0 then s.gauge a (2 ^ 32)
    else if p = 15 ∧ 30 ≤ q then b.trailerWord (b.num == s.jrn.openBlock.num) (w - 15 * 1024 - 30 * 32)
    else match b.recs.find? (fun r => r.page == p && decide (r.slot ≤ q ∧ q < r.slot + r.slots)) with
      | none => 0
      | some r =>
        let i := (q - r.slot) * 32 + w % 32
        if r.slots * 32 - 2 ≤ i then wordOf r.seq (i + 2 - r.slots * 32) else nth r.words i 0 % 2 ^ 32

/-- `LIN_` registers, by offset in the block (Tables 17.10 and 18.10). -/
def State.viewLin (s : State) (a o : Nat) : Nat :=
  if o = 0 then b2n s.boot.lineStarted + b2n s.healthy * 2
  else if o = 4 then s.line.ledger.length % 2 ^ 17
  else if o = 8 ∨ o = 0xC then wordOf s.line.serialNext ((o - 8) / 4)
  else if o = 0x108 then
    s.fld a 0 4 + b2n (!s.boot.lineStarted) * 2 ^ 8 + b2n s.safe * 2 ^ 9 + b2n s.sec.fault * 2 ^ 10
      + b2n (s.bit R.LIN_HALT_REQ 0) * 2 ^ 11
  else if 0x240 ≤ o ∧ o < 0x280 then
    (match s.entry (s.rd R.LIN_LEDGER_IDX) with | some e => e.word ((o - 0x240) / 4) | none => 0)
  else if o = 0x304 then s.rd a % 2 + b2n (decide (0 < s.unsigned)) * 2
  else if o = 0x308 ∨ o = 0x30C then
    (match s.jrn.sealedBlocks.getLast? with | some b => wordOf b.num ((o - 0x308) / 4) | none => 0)
  else if o = 0x310 ∨ o = 0x314 then
    wordOf (match s.jrn.sealedBlocks with | b :: _ => b.num | [] => s.jrn.openBlock.num) ((o - 0x310) / 4)
  else if o = 0x318 then s.unsigned
  else if o = 0x31C then (s.jrn.recent.filter (fun t => decide (s.now < t + 1000 * ms))).length
  else if 0x10000 ≤ o ∧ o < 0x20000 then s.viewJrnWin a ((o - 0x10000) / 4)
  else if o = 0xF010 then
    putBits (s.rd a) 0 16 (min 65535 (s.line.badFrames.filter (fun t => decide (s.now < t + 1000 * ms))).length)
  else s.rd a

/-- `TIM_` registers, by offset in the block (Tables 19.7 and 19.8). -/
def State.viewTim (s : State) (a o : Nat) : Nat :=
  if o < 8 then wordOf s.devS (o / 4)
  else if o = 8 then s.devNs
  else if o = 0xC then s.tim.frac
  else if o = 0x10 ∨ o = 0x14 then wordOf s.timebase ((o - 0x10) / 4)
  else if o = 0x18 then
    (if s.isTimeRoot && s.fld R.TIM_CFG 0 2 != 2 then putBits (s.rd a) 4 1 1 else s.rd a)
  else s.rd a

/-- `PWR_` registers, by offset in the block (Tables 15.8 and 21.10). -/
def State.viewPwr (s : State) (a o : Nat) : Nat :=
  if o = 0 then s.rd a + b2n s.s1Waking * 4
  else if o = 0x44 then s.rd a / 4 * 4 + s.rd a % 2 + b2n (s.safe && s.causesAbsent) * 2
  else if o = 0x8004 then b2n (!s.pmcUp) + min 255 s.permits.waiting.length * 256
  else s.rd a

/-- Watchdog resets of processor `i` in the window its register shows: 10 s for a flask controller, else 60 s (Table 22.7). -/
def State.recentResets (s : State) (i : Nat) : Nat :=
  let win := (if 3 ≤ i then 10 else 60) * 1000 * ms
  ((KMap.getD s.dbg.fw i {}).resets.filter (fun t => decide (s.now ≤ t + win))).length

/-- Bytes of device memory tagged protected (R450): the pages of loaded bundles, which the programs that name them map too, and the
chill reserves of JOB contexts (R329). -/
def State.protBytes (s : State) : Nat :=
  let mapped := (s.fab.pt4.filter (fun e => e.2.prot)).length * 4096 + (s.fab.pt2.filter (fun e => e.2.prot)).length * 2097152
  let clear := ((s.sec.bundles.filter (fun b => b.loaded)).map (fun b => (b.len - bundleHdr + 4095) / 4096 * 4096)).sum
  max mapped clear + (s.sch.ctxs.map (fun e => reserveUnits e.2 * 65536)).sum

/-- `SEC_` registers, by offset in the block (Table 20.9). -/
def State.viewSec (s : State) (a o : Nat) : Nat :=
  if o = 0 then
    b2n s.scUp + b2n s.sec.identity * 2 + b2n s.sec.certOk * 4 + b2n s.sec.owner.isSome * 8 + s.fld a 4 2 * 16
      + b2n (s.sec.jtagSince || s.sec.liveSince) * 64 + b2n s.sec.fault * 128 + s.recentResets 0 % 256 * 256
  else if o = 4 then s.rd a % 256
  else if o = 8 then (if s.scUp then s.rd a else putBits (s.rd a) 0 2 1)
  else if o = 0x24 then s.protBytes / 1048576
  else if o = 0x28 then
    s.sec.bundles.length % 256 + (s.sec.bundles.filter (fun b => b.loaded)).length % 256 * 256
      + s.sec.bundles.foldl (fun n b => n + b.len) 0 / 1048576 % 65536 * 65536
  else if 0x40 ≤ o ∧ o < 0x70 then (if s.sec.identity then numAt deviceId (o - 0x40) 4 else 0)
  else s.rd a

/-- Sequence of the oldest log record held. -/
def State.logOldest (s : State) : Nat := match s.dbg.log with | r :: _ => r.seq | [] => 0

/-- Word `i` of a log record (Table 22.4). -/
def LogRec.word (r : LogRec) (i : Nat) : Nat :=
  if i = 0 then r.w0 else if i < 5 then nth r.detail (i - 1) 0 else if i = 5 then lo32 r.seq else if i = 6 then r.timeS else r.timeNs

/-- Word `i` of a trace record (R490). -/
def TraceRec.word (r : TraceRec) (i : Nat) : Nat :=
  wordOf (r.point % 256 + r.source % 64 * 256 + r.timebase % 2 ^ 48 * 2 ^ 16 + r.arg % 2 ^ 64 * 2 ^ 64) i

/-- `DBG_` registers, by offset in the block (Tables 22.6 and 22.7). -/
def State.viewDbg (s : State) (a o : Nat) : Nat :=
  if o < 0x230 ∧ o % 16 = 0 then
    s.rd a % 4 + s.recentResets (o / 16) % 256 * 256 + s.gauge a 101 * 65536
  else if o < 0x230 ∧ o % 16 = 12 then s.gauge a (2 ^ 32)
  else if o = 0x400 ∨ o = 0x404 then wordOf s.dbg.logSeq ((o - 0x400) / 4)
  else if o = 0x408 ∨ o = 0x40C then wordOf s.logOldest ((o - 0x408) / 4)
  else if 0x420 ≤ o ∧ o < 0x440 then
    (match s.dbg.log.find? (fun r => r.seq == s.rd64 R.DBG_LOG_IDX) with | some r => r.word ((o - 0x420) / 4) | none => 0)
  else if 0x10000 ≤ o ∧ o < 0x20000 then
    (match KMap.find s.dbg.trace ((s.fld R.DBG_TRACE_RD 0 19 + (o - 0x10000) / 16) % traceMax) with
     | some r => r.word (o % 16 / 4)
     | none => 0)
  else s.rd a

/-! ### BAR0 reads -/

/-- What the register word at BAR0 offset `a` shows. -/
def State.regView (s : State) (a : Nat) : Nat :=
  if a < 0x00100000 then s.rd a
  else if a < 0x00200000 then s.viewStg a
  else if a < 0x01000000 then s.viewCmd a (a - 0x00200000)
  else if a < 0x03000000 then s.viewFlk a ((a - 0x01000000) / 0x100000) (a % 0x100000)
  else if a < 0x03100000 then s.viewRun a (a / 0x10000 % 16) (a % 0x10000)
  else if a < 0x03200000 then 0
  else if a < 0x03400000 then s.viewCxp a (a - 0x03200000)
  else if a < 0x03600000 then s.viewMem a (a - 0x03400000)
  else if a < 0x03800000 then s.viewLnk a (a - 0x03600000)
  else if a < 0x03A00000 then s.viewLin a (a - 0x03800000)
  else if a < 0x03C00000 then s.viewTim a (a - 0x03A00000)
  else if a < 0x03E00000 then s.viewPwr a (a - 0x03C00000)
  else if a < 0x03F00000 then s.viewSec a (a - 0x03E00000)
  else if a < 0x04000000 then s.viewDbg a (a - 0x03F00000)
  else 0

/-- Words of the wide registers of the `CMD_` block, by the offset of their low word. -/
def wideCmd (o : Nat) : Nat :=
  if o = 0x40130 then 2
  else if 0x100100 ≤ o ∧ o < 0x100300 ∧ o % 0x20 = 0 then 8
  else if (0x101000 ≤ o ∧ o < 0x101400 ∨ 0x102000 ≤ o ∧ o < 0x102400) ∧ o % 16 = 0 then 2
  else if 0x110000 ≤ o ∧ o < 0x110200 ∧ o % 0x20 = 0 then 8
  else if 0x110400 ≤ o ∧ o < 0x110500 ∧ o % 8 = 0 then 2
  else if 0x120100 ≤ o ∧ o < 0x120200 ∧ o % 16 = 0 then 4
  else if o = 0x120204 then 4
  else if 0x121000 ≤ o ∧ o < 0x141000 ∧ o % 16 = 0 then 4
  else 1

/-- Words of the wide registers of a flask, by the offset of their low word. -/
def wideFlk (o : Nat) : Nat :=
  if o = 0x20 ∨ o = 0x28 ∨ o = 0x48 ∨ o = 0x68 ∨ o = 0x90 ∨ o = 0x98 then 2
  else if 0x2000 ≤ o ∧ o < 0x2800 ∧ o % 32 = 0 then 8
  else if 0x2800 ≤ o ∧ o < 0x2C00 ∧ o % 16 = 0 then 3
  else if 0x3000 ≤ o ∧ o < 0x3200 ∧ o % 32 = 0 then 6
  else if (0x80000 ≤ o ∧ o < 0x80200 ∨ 0x81000 ≤ o ∧ o < 0x83000) ∧ o % 8 = 0 then 2
  else 1

/-- Words of the wide registers of a runner, by the offset of their low word. -/
def wideRun (q : Nat) : Nat :=
  let z := q % 0x400
  let y := q % 0x1000
  if q < 0x1000 then (if z = 0x28 ∨ z = 0x40 ∨ z = 0x58 then 2 else 1)
  else if 0x4000 ≤ q ∧ q < 0x8000 then (if q % 8 = 0 then 2 else 1)
  else if 0x8000 ≤ q ∧ q < 0xC000 then
    (if y = 8 then 2 else if (0x100 ≤ y ∧ y < 0x200 ∨ 0x400 ≤ y ∧ y < 0x500) ∧ y % 16 = 0 then 3 else 1)
  else if 0xC000 ≤ q ∧ q < 0xE000 then (if q % 0x80 = 8 ∨ (0x40 ≤ q % 0x80 ∧ q % 8 = 0) then 2 else 1)
  else 1

/-- Words of the wide registers of the `LNK_` block, by the offset of their low word. -/
def wideLnk (o : Nat) : Nat :=
  if 0x10000 ≤ o ∧ o < 0x10800 ∧ o % 0x100 = 0x30 then 2
  else if 0x20010 ≤ o ∧ o < 0x20110 ∧ (o % 0x40 = 0x20 ∨ o % 0x40 = 0x28) then 2
  else if 0x20300 ≤ o ∧ o < 0x20700 ∧ o % 16 = 0 then 3
  else if o = 0x20800 ∨ o = 0x20808 then 2
  else 1

/-- Words of the wide registers of line control, by the offset of their low word. -/
def wideLin (o : Nat) : Nat :=
  if o = 8 ∨ o = 0x40 ∨ o = 0x48 ∨ o = 0x308 ∨ o = 0x310 ∨ o = 0x320 then 2
  else if o = 0x240 then 16
  else if 0x1000 ≤ o ∧ o < 0x2000 ∧ o % 0x40 = 0 then 6
  else if 0x4000 ≤ o ∧ o < 0x8000 ∧ o % 8 = 0 then 2
  else 1

/-- Words of the register whose low word is at BAR0 offset `a`: 1 where no wide register starts there. -/
def wideWords (a : Nat) : Nat :=
  if a < 0x00100000 then (if 0x100 ≤ a ∧ a < 0x900 ∧ a % 16 = 0 then 4 else 1)
  else if a < 0x00200000 then
    (if a = R.STG_CAST_COUNT ∨ a = R.STG_LAST_COUNT then 2 else if a = R.STG_CAST_TIME ∨ a = R.STG_LAST_TIME then 3 else 1)
  else if a < 0x01000000 then wideCmd (a - 0x00200000)
  else if a < 0x03000000 then wideFlk (a % 0x100000)
  else if a < 0x03100000 then wideRun (a % 0x10000)
  else if a < 0x03200000 then 1
  else if a < 0x03400000 then
    (let o := a - 0x03200000
     if o < 0x2000 ∧ o % 0x100 = 0x50 then 2 else if 0x10000 ≤ o ∧ o < 0x20000 ∧ o % 8 = 0 then 2 else 1)
  else if a < 0x03600000 then (if a = R.MEM_LAST_UNCORR ∨ a = R.MEM_HOST_TIER_BASE then 2 else 1)
  else if a < 0x03800000 then wideLnk (a - 0x03600000)
  else if a < 0x03A00000 then wideLin (a - 0x03800000)
  else if a < 0x03C00000 then
    (if a = R.TIM_NOW then 4 else if a = R.TIM_TIMEBASE then 2 else if a = R.TIM_MASTER then 3 else 1)
  else if a < 0x03E00000 then (if a = R.PWR_PERMIT_WAIT_NS ∨ a = R.PWR_SERIAL_MARK then 2 else 1)
  else if a < 0x03F00000 then (if a = R.SEC_IK_ID then 12 else 1)
  else (let o := a - 0x03F00000
        if o < 0x230 ∧ o % 16 = 0 then 4
        else if o = 0x400 ∨ o = 0x408 ∨ o = 0x410 then 2
        else if o = 0x420 ∨ o = 0x500 then 8 else 1)

/-- A 32-bit read of BAR0 at an aligned offset (R76): a latched word is returned as latched; reading a wide register's low word
latches the words above it. -/
def State.bar0Read (s : State) (a : Nat) : State × Nat :=
  match KMap.find s.host.readLatch a with
  | some v => (s, v.toNat)
  | none =>
    let l := (List.range (wideWords a - 1)).foldl
      (fun m i => KMap.put m (a + 4 * (i + 1)) (BitVec.ofNat 32 (s.regView (a + 4 * (i + 1))))) s.host.readLatch
    ({ s with host := { s.host with readLatch := l } }, s.regView a % 2 ^ 32)

/-- A 64-bit read: two 32-bit reads, low word first (R76). -/
def State.bar0Read64 (s : State) (a : Nat) : State × Nat :=
  let r := s.bar0Read a
  let q := r.1.bar0Read (a + 4)
  (q.1, r.2 + 2 ^ 32 * q.2)

end Sys2Proof.Machine
end

