-- ==== Sys2Proof/Machine/RegWrite.lean ====
section
/-! DEFINITION. A write to a BAR0 register (R9, R11, R76): which bits a plain RW register keeps, and what a write to a register with
behaviour does; the registers that a command of their own also writes share its operation. -/

namespace Sys2Proof.Machine

/-! ### By block -/

/-- Enable bits of trace points that exist, by word of `DBG_TRACE_EN` (Table 22.5). -/
def tracePoints (w : Nat) : Nat := if w = 0 then 0x1F007E else if w = 1 then 0x30003 else if w = 2 then 7 else 0

/-- Keep the bits of `m` in a register word. -/
def State.keep (s : State) (a m v : Nat) : State := s.wr a (Nat.land v m)

/-- A write to `STG_CTRL` (Table 5.1): the operations, or the mode bits alone for op 0 and the reserved ones. -/
def State.writeStgCtrl (s : State) (v : Nat) : State :=
  if v % 8 = 1 then s.stgStart v false
  else if v % 8 = 2 then s.stgStart v true
  else if v % 8 = 3 then s.stgCancel v
  else if v % 8 = 4 then s.stgDiscardOp v
  else s.stgCtrl v

/-- Writes to the stage block (Table 5.5). -/
def State.writeStg (s : State) (a v : Nat) : State :=
  if a = R.STG_CTRL then s.writeStgCtrl v
  else if a = R.STG_CAST_COUNT + 4 then s.keep a 0xFFFF v
  else if a = R.STG_CAST_COUNT ∨ a = R.STG_CAST_TIME ∨ a = R.STG_CAST_TIME + 4 ∨ a = R.STG_CAST_TIME + 8 ∨ a = R.STG_CAST_LEAD ∨
      a = R.STG_PEEK_ADDR ∨ a = R.STG_DBG_ADDR then s.wr a v
  else if a = R.STG_QUIESCE then s.keep a 0x13F v
  else if a = R.STG_DBG_DATA then s.debugWrite v
  else s

/-- A write to word 2 of `CMD_SBAR[i]` (Table 16.6): arm, then disarm. -/
def State.writeSbar (s : State) (i v : Nat) : State :=
  let s1 := if v.testBit 0 then s.sbarArm i else s
  if v.testBit 1 then s1.sbarDisarm i else s1

/-- Writes to the command block, by offset (Tables 4.7 and 16.5). -/
def State.writeCmd (s : State) (a o v : Nat) : State :=
  if o < 0x40000 ∨ a = R.CMD_HOST_HB then s.wr a v
  else if 0x40100 ≤ o ∧ o < 0x40120 then s.ringHead ((o - 0x40100) / 4) v
  else if a = R.CMD_EVT_HEAD then s.ringHead 8 v
  else if 0x120100 ≤ o ∧ o < 0x120200 then
    (if o % 16 < 8 then s.wr a v else if o % 16 = 8 then s.writeSbar ((o - 0x120100) / 16) v else s)
  else s

/-- Writes to a runner, by offset in its 64 KiB (Tables 7.8 and 8.4). The host forms no edge record (R157; log 38). -/
def State.writeRun (s : State) (a r q v : Nat) : State :=
  let z := q % 0x400
  if q < 0x1000 then
    (if z = 0x100 then s.keep a 0xFFFF v
     else if z = 0x108 ∨ z = 0x118 then s.wr a v
     else if z = 0x110 then s.keep a 0x103FF v
     else if z = 0x114 then s.roiCommit (4 * r + q / 0x400) v
     else s)
  else if 0x4000 ≤ q ∧ q < 0x8000 then s.keep a (if q % 8 = 0 then 0xFFFFFFFF else 0x3FFFFFFF) v
  else if r = 0 ∧ 0xC000 ≤ q ∧ q < 0xE000 ∧ q % 0x80 = 0x14 then s.wr a v
  else s

/-- Writes to an eye-scan engine's registers, by offset from its `*_EYE_CTRL` (Table 6.8). -/
def State.writeEye (s : State) (e a z v : Nat) : State :=
  if z = 0 then s.eyeWrite e v else if z = 4 then s.keep a 0x3F3F3F v else if z = 8 then s.keep a 0x7FFFFF v else s

/-- Writes to the link block, by offset (Tables 4.1 and 6.7). -/
def State.writeLnk (s : State) (a o v : Nat) : State :=
  if o < 0x400 then s.msixWrite (o / 4) v else if 0x18000 ≤ o ∧ o < 0x1800C then s.writeEye 1 a (o - 0x18000) v else s

/-- Writes to the camera ports, by offset (Table 6.6). -/
def State.writeCxp (s : State) (a o v : Nat) : State :=
  if o < 0x2000 ∧ o % 0x100 = 0x40 then s.prbsWrite (o / 0x100) v
  else if a = R.CXP_POCXP_FAULT then s.pocxpClear v
  else if a = R.CXP_CTL_CMD then s.ctlGo v
  else if a = R.CXP_CTL_ADDR ∨ a = R.CXP_CTL_DATA then s.wr a v
  else if 0x20000 ≤ o ∧ o < 0x2000C then s.writeEye 0 a (o - 0x20000) v
  else s

/-- A write to `LIN_RNY_CTRL` (Table 18.10): the write, then the read. -/
def State.writeRnyCtrl (s : State) (v : Nat) : State :=
  let s1 := if v.testBit 1 then s.rnyWrite else s
  if v.testBit 0 then s1.rnyRead else s1

/-- Writes to line control, by offset (Tables 17.10 and 18.10). -/
def State.writeLin (s : State) (a v : Nat) : State :=
  if a = R.LIN_HALT_STAT then s.haltClear v
  else if a = R.LIN_HALT_REQ then s.keep a 1 v
  else if a = R.LIN_LEDGER_IDX then s.keep a 0x1FFFF v
  else if a = R.LIN_JRN_RD_BLOCK ∨ a = R.LIN_JRN_RD_BLOCK + 4 ∨ a = R.LIN_RNY_DATA then s.wr a v
  else if a = R.LIN_JRN_RD_GO then s.journalGo v
  else if a = R.LIN_RNY_ADDR then s.keep a 0xFFFF v
  else if a = R.LIN_RNY_CTRL then s.writeRnyCtrl v
  else s

/-- A write to `PWR_SAFE_CTRL` (Table 21.10): the acknowledgement, then the force. -/
def State.writeSafeCtrl (s : State) (v : Nat) : State :=
  let s1 := if v.testBit 0 then s.safeAck else s
  if v.testBit 1 then s1.safeEnter 8 else s1

/-- Writes to power management (Table 21.10). -/
def State.writePwr (s : State) (a v : Nat) : State :=
  if a = R.PWR_STATE_REQ then s.powerRequest (v % 4)
  else if a = R.PWR_SAFE_CTRL then s.writeSafeCtrl v
  else s

/-- What mailbox command `c` runs (Table 20.3); a number that names none is refused as malformed (R444). -/
def mailboxCmd (c : Nat) (s : State) : MbResult :=
  if c = 1 then s.mbCerts else if c = 2 then s.mbQuote else if c = 3 then s.mbBundleLoad else if c = 4 then s.mbBundleDelete
  else if c = 5 then s.mbBundleList else if c = 6 then s.mbChallenge else if c = 7 then s.mbToken else if c = 8 then s.mbDebugLock
  else if c = 9 then s.mbOwnerSet else if c = 10 then s.mbOwnerClear else mbRefuse s E_CMD_ARG

/-- Writes to the security mailbox, by offset (Table 20.9). -/
def State.writeSec (s : State) (a o v : Nat) : State :=
  if o = 4 then (if v.testBit 8 then s.mailbox (v % 256) (mailboxCmd (v % 256)) else s.keep a 0xFF v)
  else if o = 0xC then s.keep a 0x1FFF v
  else if 0x1000 ≤ o ∧ o < 0x2000 then s.wr a v
  else s

/-- Writes to log and trace, by offset (Table 22.6). -/
def State.writeDbg (s : State) (a o v : Nat) : State :=
  if o = 0x410 ∨ o = 0x414 then s.wr a v
  else if o = 0x418 then s.keep a 3 v
  else if 0x500 ≤ o ∧ o < 0x520 then s.keep a (tracePoints ((o - 0x500) / 4)) v
  else if o = 0x520 then
    let s1 := s.keep a 1 v
    if v.testBit 1 then s1.traceEmpty else s1
  else if o = 0x52C then s.keep a 0x7FFFF v
  else s

/-! ### BAR0 writes -/

/-- A 32-bit write of `v` to the register word at `a` (R9): a staged word goes to the shadow, a register with behaviour acts, a plain
one keeps its bits, and a read-only or unassigned one ignores it. -/
def State.regWrite (s : State) (a v : Nat) : State :=
  if (stagedWord a).isSome then s.stagedWrite a v
  else if a < 0x00100000 then (if a = R.GLB_HIV_HOST then s.hivWrite v else s)
  else if a < 0x00200000 then s.writeStg a v
  else if a < 0x01000000 then s.writeCmd a (a - 0x00200000) v
  else if a < 0x03000000 then s
  else if a < 0x03100000 then s.writeRun a (a / 0x10000 % 16) (a % 0x10000) v
  else if a < 0x03200000 then s
  else if a < 0x03400000 then s.writeCxp a (a - 0x03200000) v
  else if a < 0x03600000 then s
  else if a < 0x03800000 then s.writeLnk a (a - 0x03600000) v
  else if a < 0x03A00000 then s.writeLin a v
  else if a < 0x03C00000 then (if a = R.TIM_CTRL ∧ v % 2 = 1 then s.setBit R.TIM_CTRL 0 true else s)
  else if a < 0x03E00000 then s.writePwr a v
  else if a < 0x03F00000 then s.writeSec a (a - 0x03E00000) v
  else s.writeDbg a (a - 0x03F00000) v

/-- A 32-bit write reaches BAR0: the word it writes is no longer shown as latched (R76). -/
def State.bar0Write (s : State) (a v : Nat) : State :=
  ({ s with host := { s.host with readLatch := KMap.del s.host.readLatch a } } : State).regWrite a (v % 2 ^ 32)

/-- A write of `size` bytes to BAR0 (R76): 32 or 64 bits, aligned, the low word first; any other completes with Unsupported Request
and changes nothing. -/
def State.hostWrite (s : State) (a size v : Nat) : State :=
  let ok (s : State) : State := { s with host := { s.host with lastCpl := .ok } }
  if size = 4 ∧ a % 4 = 0 then (ok s).bar0Write a v
  else if size = 8 ∧ a % 8 = 0 then ((ok s).bar0Write a v).bar0Write (a + 4) (v / 2 ^ 32)
  else { s with host := { s.host with lastCpl := .unsupported } }

/-- A read of `size` bytes from BAR0 (R76), with the same limits. -/
def State.hostRead (s : State) (a size : Nat) : State :=
  let put (r : State × Nat) (n : Nat) : State := { r.1 with host := { r.1.host with lastCpl := .ok, lastData := leBytes r.2 n } }
  if size = 4 ∧ a % 4 = 0 then put (s.bar0Read a) 4
  else if size = 8 ∧ a % 8 = 0 then put (s.bar0Read64 a) 8
  else { s with host := { s.host with lastCpl := .unsupported, lastData := [] } }

/-- REGISTER_WRITE (R76): a host access to BAR0; the table has no row of its own for a read, which this one carries (log 11). -/
def execRegisterWrite (t : Nat) (off : BitVec 26) (size : Nat) (acc : BarAccess) (s : State) : Host.Outcome State Fault Refusal :=
  let s := s.at' t
  if !s.running then doneR s
  else match acc with
    | .write data => doneR (s.hostWrite off.toNat size data.toNat)
    | .read => doneR (s.hostRead off.toNat size)

end Sys2Proof.Machine
end

