-- ==== Sys2Proof/Machine/FettlerMem.lean ====
section
/-! DEFINITION. Fettler classes 2, 3 and 7: scalar loads and stores to virtual memory, the device register window and the local
mould, vector loads and stores, and edge records (R157, R188, R218, R225, R232). -/

namespace Sys2Proof.Machine

/-! ### Addresses -/

/-- The word of a class 2 or 3 instruction with size code `size` (Table 11.3). -/
def memWord (cls size : Nat) (w : MemF) : Nat :=
  cls * 2 ^ 27 + w.d.toNat * 2 ^ 22 + w.a.toNat * 2 ^ 17 + b2n w.sp * 2 ^ 16 + size % 8 * 2 ^ 13 + w.off.toNat

/-- Effective address (R225). -/
def memEa (w : MemF) (f : Fet) : W64 := f.rx w.a + w.off.signExtend 64

/-- A 64-bit effective address is canonical: bits [63:47] are all equal (R218). -/
def canonical (ea : W64) : Bool := ea == ((ea.setWidth 48).signExtend 64)

/-- A mould access of `n` bytes at `ea` fails (R218, R171): cause, sub-cause and TVAL of its trap. A load from a protected region traps
as one from a protected page does (R187, R449). -/
def State.mouldTrap (s : State) (k x : Nat) (ea : W64) (n : Nat) (load : Bool) : Option (Nat × Nat × Nat) :=
  if mouldSize ≤ ea.toNat then some (4, 0, ea.toNat)
  else if !s.mouldOk k x ea.toNat n then some (4, 1, ea.toNat)
  else if load && s.mouldProt k x ea.toNat n then some (5, 5, ea.toNat)
  else none

/-- A little-endian number of bytes. -/
def bytesNat (bs : List Byte) : Nat := ofBytes (bs.map BitVec.toNat)

/-! ### The device register window (R188) -/

/-- The registers a program may reach: runner slots and classes of the window grant of a fettler's task (R188, R319). -/
def State.winGrant (s : State) (f : Fet) : List (Nat × Nat) × List Nat :=
  match s.pour f.pour with
  | none => ([], [])
  | some p => match s.pourProg p with
    | some g => (g.grantSlots, g.grantClasses)
    | none => ([], [])

/-- A load of the word at offset `a` is allowed: an RO register of the `RUN_` and `CXP_` blocks, the fettler's own flask `n`, or device
time and the timebase (R188). -/
def winLoadOk (n a : Nat) : Bool :=
  if 0x01000000 ≤ a ∧ a < 0x03000000 then (a - 0x01000000) / 0x100000 == n
  else if 0x03000000 ≤ a ∧ a < 0x03100000 then
    let q := a % 0x10000
    let z := q % 0x400
    if q < 0x1000 then z == 0x104 || z == 0x10C || decide (0x200 ≤ z ∧ z < 0x228)
    else if q = 0x1000 then true
    else if 0x8000 ≤ q ∧ q < 0xC000 then decide (0x810 ≤ q % 0x1000 ∧ q % 0x1000 < 0x820)
    else a / 0x10000 % 16 == 0 && decide (0xC000 ≤ q ∧ q < 0xE000) && q % 0x80 == 0x18
  else if 0x03200000 ≤ a ∧ a < 0x03400000 then
    let o := a - 0x03200000
    let z := o % 0x100
    if o < 0x2000 then decide (0x20 ≤ z ∧ z < 0x3C) || z == 0x44 || z == 0x48 || z == 0x50 || z == 0x54
    else o == 0x2100 || o == 0x220C || o == 0x2000C || decide (0x21000 ≤ o ∧ o < 0x25000)
  else decide (R.TIM_NOW ≤ a ∧ a < R.TIM_STAT)

/-- A store to the word at offset `a` is allowed under the grant (R188). -/
def winStoreOk (slots : List (Nat × Nat)) (classes : List Nat) (a : Nat) : Bool :=
  if a < 0x03000000 ∨ 0x03100000 ≤ a then false
  else
    let r := a / 0x10000 % 16
    let q := a % 0x10000
    let z := q % 0x400
    if q < 0x1000 then (z == 0x108 || z == 0x110 || z == 0x114 || z == 0x118) && slots.contains (r, q / 0x400)
    else if 0x4000 ≤ q ∧ q < 0x8000 then slots.contains (r, (q - 0x4000) / 0x1000)
    else if 0xC000 ≤ q ∧ q < 0xE000 then r == 0 && q % 0x80 == 0x14 && classes.contains ((q - 0xC000) / 0x80)
    else false

/-- The slot whose `RUN_SEG_POST` stands at offset `a`, either word. -/
def segPostAt (a : Nat) : Option (Nat × Nat) :=
  if 0x03000000 ≤ a ∧ a < 0x03100000 ∧ 0x8000 ≤ a % 0x10000 ∧ a % 0x10000 < 0xC000 ∧ a % 0x1000 / 8 = 0x100 then
    some (a / 0x10000 % 16, (a % 0x10000 - 0x8000) / 0x1000)
  else none

/-- An edge record reaches `RUN_SEG_POST` of slot `(r, k)` at window offset `a` (R157, R188): refused outside the grant, or where
segmentation does not take it. -/
def State.postEdge (s : State) (f : Fet) (r k a : Nat) (rec : Nat) : FRes :=
  if !(s.winGrant f).1.contains (r, k) then .trap 7 1 a
  else match s.segPost (4 * r + k) rec with
    | none => .trap 7 2 a
    | some t => .ok t f

/-- A load through the window (R188). -/
def State.winLoad (s : State) (i : Nat) (a size : Nat) (put : Nat → Fet) : FRes :=
  if size = 4 ∧ winLoadOk (i / 4) a then let r := s.bar0Read a; .ok r.1 (put r.2)
  else if size = 8 ∧ winLoadOk (i / 4) a ∧ winLoadOk (i / 4) (a + 4) then let r := s.bar0Read64 a; .ok r.1 (put r.2)
  else .trap 7 0 a

/-- A store through the window (R188). Half an edge record is refused as one (log 38). -/
def State.winStore (s : State) (f : Fet) (a size v : Nat) : FRes :=
  let g := s.winGrant f
  match segPostAt a with
  | some (r, k) => if size = 8 then s.postEdge f r k a v else if g.1.contains (r, k) then .trap 7 2 a else .trap 7 1 a
  | none =>
    if size = 4 ∧ winStoreOk g.1 g.2 a then .ok (s.bar0Write a v) f
    else if size = 8 ∧ winStoreOk g.1 g.2 a ∧ winStoreOk g.1 g.2 (a + 4) then
      .ok ((s.bar0Write a v).bar0Write (a + 4) (v / 2 ^ 32)) f
    else .trap 7 1 a

/-! ### Virtual memory -/

/-- The access at `va` cannot be made: it parks or traps (R185, R218); else none. -/
def State.virtStop (s : State) (i : Nat) (f : Fet) (va n : Nat) (write : Bool) : Option FRes :=
  match s.xlateAll f.ctx write false 1 va n with
  | .park c a => some (.ended (s.fetPark i f c a))
  | .fault c a => some (.ended ((s.xlateFault (i / 4) f.ctx).fetTrap i f 5 c a))
  | .ok _ => none

/-- The line at `va` is uncorrectable, as read now or as the poison map says: the access traps (R180–R182, R225). -/
def State.memTrap (s : State) (i : Nat) (f : Fet) (va n : Nat) (bad : Bool) : Option FRes :=
  match (if bad then some (s.physOf f.ctx va / 256) else s.poisonedIn f.ctx va n) with
  | some l => some (.ended ((s.memUncorr l 1 f.ctx (i / 4)).fetTrap i f 6 0 va))
  | none => none

/-! ### Scalar loads and stores -/

/-- A load of `n` bytes (R225): `put` writes the destination. -/
def loadBody (i n : Nat) (w : MemF) (e : LineErr) (ext : Nat → W64) (s : State) (f : Fet) : FRes :=
  let ea := memEa w f
  let put (v : Nat) : Fet := f.wx w.d (ext v)
  if ea.toNat % n ≠ 0 then .trap 2 0 ea.toNat
  else if w.sp then
    match s.mouldTrap (i / 4) f.ctx ea n true with
    | some (c, u, v) => .trap c u v
    | none => .ok s (put (s.mnum (i / 4) ea.toNat n))
  else if !canonical ea then .trap 3 0 ea.toNat
  else
    let va := ea.toNat % 2 ^ 48
    if windowBase ≤ va then s.winLoad i (va - windowBase) n put
    else match s.virtStop i f va n false with
      | some r => r
      | none => match s.memTrap i f va n e.bad with
        | some r => r
        | none =>
          let bs := e.deliver s.free va (s.vreadBytes f.ctx va n)
          let s1 := ((s.lookUp (i / 4) (pagesOf va n)).recvBytes (i / 4) n).countCorr (s.physOf f.ctx va / 256) e
          .ok (if e.wrongWord then s1.fresh else s1) (put (bytesNat bs))

/-- A store of the low `n` bytes of x[d] (R225). -/
def storeBody (i n : Nat) (w : MemF) (e : LineErr) (s : State) (f : Fet) : FRes :=
  let ea := memEa w f
  let v := (f.rx w.d).toNat % 2 ^ (8 * n)
  if ea.toNat % n ≠ 0 then .trap 2 0 ea.toNat
  else if w.sp then
    match s.mouldTrap (i / 4) f.ctx ea n false with
    | some (c, u, x) => .trap c u x
    | none => .ok (s.mnumW (i / 4) ea.toNat v n) f
  else if !canonical ea then .trap 3 0 ea.toNat
  else
    let va := ea.toNat % 2 ^ 48
    if windowBase ≤ va then s.winStore f (va - windowBase) n v
    else match s.virtStop i f va n true with
      | some r => r
      | none => match s.memTrap i f va n e.bad with
        | some r => r
        | none =>
          let l := s.physOf f.ctx va / 256
          let s1 := ((s.lookUp (i / 4) (pagesOf va n)).sendBytes (i / 4) n).countCorr l e
          .ok ((s1.miscorrect l e).vwrite f.ctx 1 va (leBytes v n)) f

/-- A class 2 instruction. -/
def runLoad (size n : Nat) (ext : Nat → W64) (t : Nat) (i : Fin 128) (w : MemF) (e : LineErr) (s : State) :
    Host.Outcome State Fault Refusal := fetRun t i (memWord 2 size w) true (loadBody i n w e ext) s

/-- A class 3 instruction. -/
def runStore (size n : Nat) (t : Nat) (i : Fin 128) (w : MemF) (e : LineErr) (s : State) : Host.Outcome State Fault Refusal :=
  fetRun t i (memWord 3 size w) true (storeBody i n w e) s

/-- `LB`: a byte, sign-extended (Table 11.3). -/
def execLb (t : Nat) (i : Fin 128) (w : MemF) (e : LineErr) (s : State) : Host.Outcome State Fault Refusal :=
  runLoad 0 1 (fun v => BitVec.ofInt 64 (sextI v 8)) t i w e s

/-- `LH`: a halfword, sign-extended (Table 11.3). -/
def execLh (t : Nat) (i : Fin 128) (w : MemF) (e : LineErr) (s : State) : Host.Outcome State Fault Refusal :=
  runLoad 1 2 (fun v => BitVec.ofInt 64 (sextI v 16)) t i w e s

/-- `LW`: a word, sign-extended (Table 11.3). -/
def execLw (t : Nat) (i : Fin 128) (w : MemF) (e : LineErr) (s : State) : Host.Outcome State Fault Refusal :=
  runLoad 2 4 (fun v => BitVec.ofInt 64 (sextI v 32)) t i w e s

/-- `LD`: a doubleword (Table 11.3). -/
def execLd (t : Nat) (i : Fin 128) (w : MemF) (e : LineErr) (s : State) : Host.Outcome State Fault Refusal :=
  runLoad 3 8 (BitVec.ofNat 64) t i w e s

/-- `LBU`: a byte, zero-extended (Table 11.3). -/
def execLbu (t : Nat) (i : Fin 128) (w : MemF) (e : LineErr) (s : State) : Host.Outcome State Fault Refusal :=
  runLoad 4 1 (BitVec.ofNat 64) t i w e s

/-- `LHU`: a halfword, zero-extended (Table 11.3). -/
def execLhu (t : Nat) (i : Fin 128) (w : MemF) (e : LineErr) (s : State) : Host.Outcome State Fault Refusal :=
  runLoad 5 2 (BitVec.ofNat 64) t i w e s

/-- `LWU`: a word, zero-extended (Table 11.3). -/
def execLwu (t : Nat) (i : Fin 128) (w : MemF) (e : LineErr) (s : State) : Host.Outcome State Fault Refusal :=
  runLoad 6 4 (BitVec.ofNat 64) t i w e s

/-- `SB`: a byte (Table 11.3). -/
def execSb (t : Nat) (i : Fin 128) (w : MemF) (e : LineErr) (s : State) : Host.Outcome State Fault Refusal :=
  runStore 0 1 t i w e s

/-- `SH`: a halfword (Table 11.3). -/
def execSh (t : Nat) (i : Fin 128) (w : MemF) (e : LineErr) (s : State) : Host.Outcome State Fault Refusal :=
  runStore 1 2 t i w e s

/-- `SW`: a word (Table 11.3). -/
def execSw (t : Nat) (i : Fin 128) (w : MemF) (e : LineErr) (s : State) : Host.Outcome State Fault Refusal :=
  runStore 2 4 t i w e s

/-- `SD`: a doubleword (Table 11.3). -/
def execSd (t : Nat) (i : Fin 128) (w : MemF) (e : LineErr) (s : State) : Host.Outcome State Fault Refusal :=
  runStore 3 8 t i w e s

/-- SEG_POST_WRITE (R157): fettler `i` stores edge record `rec` to `RUN_SEG_POST[k]` of runner `r`, as one 64-bit store through the
window. -/
def execSegPostWrite (t : Nat) (i : Fin 128) (r : Fin 16) (k : Fin 4) (rec : BitVec 64) (s : State) :
    Host.Outcome State Fault Refusal :=
  fetRun t i 0 true (fun s f => s.postEdge f r k (R.RUN_SEG_POST r k) rec.toNat) s

/-! ### Vector loads and stores -/

/-- The word of a class 7 instruction (Table 11.6). -/
def vlsWord (st : Bool) (w : VlsF) : Nat :=
  fword 7 w.d.toNat w.a.toNat w.b.toNat
    (b2n st * 2 ^ 11 + w.pred.toNat * 2 ^ 8 + w.mode.toNat * 64 + w.esize.toNat * 16 + w.off.toNat)

/-- Mode 3 is reserved; mode 0 uses neither b nor esize (Table 11.6). -/
def vlsLegal (w : VlsF) : Bool := w.mode != 3 && (w.mode != 0 || (w.b == 0 && w.esize == 0))

/-- Bytes of an element: mode 0 moves bytes. -/
def vlsSize (w : VlsF) : Nat := if w.mode = 0 then 1 else 2 ^ w.esize.toNat

/-- Mould offset of element `k` (Table 11.6). A gather of elements that outnumber the index lanes takes a free index (log 2). -/
def vlsAddr (w : VlsF) (f : Fet) (free k : Nat) : W64 :=
  let base := f.rx w.a + w.off.signExtend 64 * 64
  if w.mode = 0 then base + BitVec.ofNat 64 k
  else if w.mode = 1 then base + BitVec.ofNat 64 k * f.rx w.b
  else base + (if k < 16 then BitVec.ofNat 64 (lane (f.rv w.b) 32 k) else (Config.gatherIndex free k).setWidth 64)

/-- Active elements with their mould offsets, element 0 first. -/
def vlsElems (w : VlsF) (f : Fet) (free : Nat) : List (Nat × W64) :=
  ((List.range (64 / vlsSize w)).filter (fun k => active (f.rp w.pred.toNat) (8 * vlsSize w) k)).map (fun k => (k, vlsAddr w f free k))

/-- The trap of a class 7 access, if one of its checks fails: the unit access's alignment, then each active element in turn
(R232). -/
def State.vlsTrap (s : State) (i : Nat) (f : Fet) (w : VlsF) (load : Bool) : Option (Nat × Nat × Nat) :=
  if w.mode = 0 ∧ (vlsAddr w f s.free 0).toNat % 64 ≠ 0 then some (2, 0, (vlsAddr w f s.free 0).toNat)
  else (vlsElems w f s.free).findSome? (fun e =>
    if e.2.toNat % vlsSize w ≠ 0 then some (2, 0, e.2.toNat) else s.mouldTrap (i / 4) f.ctx e.2 (vlsSize w) load)

/-- `VLD` (R232): an inactive lane keeps its value. -/
def vldBody (i : Nat) (w : VlsF) (s : State) (f : Fet) : FRes :=
  match s.vlsTrap i f w true with
  | some (c, u, v) => .trap c u v
  | none =>
    let n := 8 * vlsSize w
    let ls := (List.range (64 / vlsSize w)).map (fun k =>
      if active (f.rp w.pred.toNat) n k then s.mnum (i / 4) (vlsAddr w f s.free k).toNat (vlsSize w) else lane (f.rv w.d) n k)
    .ok s.fresh (f.wv w.d (BitVec.ofNat 512 (ofLanes n ls)))

/-- `VST` (R232): elements in ascending order, so that the higher lane's value stands where two name one address. -/
def vstBody (i : Nat) (w : VlsF) (s : State) (f : Fet) : FRes :=
  match s.vlsTrap i f w false with
  | some (c, u, v) => .trap c u v
  | none =>
    .ok ((vlsElems w f s.free).foldl (fun (t : State) (e : Nat × W64) =>
      t.mnumW (i / 4) e.2.toNat (lane (f.rv w.d) (8 * vlsSize w) e.1) (vlsSize w)) s).fresh f

/-- `VLD` (R232). -/
def execVld (t : Nat) (i : Fin 128) (w : VlsF) (s : State) : Host.Outcome State Fault Refusal :=
  fetRun t i (vlsWord false w) (vlsLegal w) (vldBody i w) s

/-- `VST` (R232). -/
def execVst (t : Nat) (i : Fin 128) (w : VlsF) (s : State) : Host.Outcome State Fault Refusal :=
  fetRun t i (vlsWord true w) (vlsLegal w) (vstBody i w) s

end Sys2Proof.Machine
end

