-- ==== Sys2Proof/Machine/Restore.lean ====
section
/-! DEFINITION. Restore (R65–R68): the factory state, or the newest complete retained record, whole or not at all. -/

namespace Sys2Proof.Machine

/-- Ronyr's staged words at factory values, with those of a record over them (R65, R67, R393). -/
def rnyFull (rny : KMap W32) : KMap W32 :=
  KMap.overlay ((List.range 0x340).filterMap (fun n =>
    let i := 0x100 + n
    if (stagedRny i).isSome then some (i, BitVec.ofNat 32 (rnyResetWord i)) else none)) rny

/-- Restore has ended: host shadow writes are accepted (R94). -/
def State.restoreEnd (s : State) : State := { s with boot := { s.boot with restored := true } }

/-- WAIT_HOST after restore; with no class enabled and a handshake agreed already, RUNNING (R68). -/
def State.waitHost (s : State) : State :=
  let s1 := s.setPhase 6
  if s1.agreed && !s1.anyClass then s1.setPhase 7 else s1

/-- The factory state (R67, R111): no cast is made; Ronyr's fields take their factory values, and generations are numbered on. -/
def State.restoreFactory (s : State) : State :=
  let seq := match s.newestRecord with | some r => r.seq | none => 0
  let s1 := (((s.setBit R.GLB_BOOT_STATUS 8 true).wr R.PWR_FAIL_LAST 0).wr R.GLB_RESTORE_GEN 0).wr R.STG_GEN_LIVE seq
  let s2 := (s1.wr R.STG_GEN_RETAINED seq).armWith (0, 0, 0, 0, s.tim.ns) (rnyFull [])
  let s3 := if s.newestRecord.isNone then s2.journalEvent E_RESTORE_NONE 0 (s2.evWords E_RESTORE_NONE {}) else s2
  s3.restoreEnd.waitHost

/-- SC takes the bundles a record's programs name (R65): the signature of each is checked, its digest compared with what is stored, and it is
decrypted; none where one fails, is not in the store, or the keys cannot be derived. -/
def State.restoreBundles (s : State) (r : RetRecord) : Option State :=
  let ds := r.progs.filterMap (fun p => p.2.2.bundle.map (fun d => d.toNat))
  if ds.all (fun d => s.sec.keysOk && !s.sec.noLoad && s.sec.bundles.any (fun b => b.digest == d && b.sound)) then
    some { s with sec := { s.sec with bundles := s.sec.bundles.map (fun b =>
      if ds.contains b.digest then { b with loaded := true } else b) } }
  else none

/-- Create the LINE contexts of a record, restored ones, under their numbers (R65, R317). -/
def State.restoreLines (s : State) (r : RetRecord) : State :=
  r.lines.foldl (fun s l =>
    let c : Ctx := { cls := 1, prio := l.2.1, mask := s.maskFlasks l.2.2.toNat, restored := true }
    { s with sch := { s.sch with ctxs := KMap.put s.sch.ctxs l.1 c } }) s

/-- Load the programs of a record under their IDs (R65), or name the first the verifier refuses. -/
def State.restoreProgs (s : State) : List (Nat × Nat × Program) → Except Nat State
  | [] => .ok s
  | p :: ps =>
    match s.ctx p.2.1 with
    | none => .error p.1
    | some c =>
      if (s.progRefusal p.2.1 c p.2.2).isSome then .error p.1
      else
        let s1 : State := { s with sch := { s.sch with nextProg := p.1 } }
        (s1.loadProg p.2.1 p.2.2).restoreProgs ps

/-- The next program ID lies above every one in use (R351). -/
def State.progIdsOn (s : State) : State :=
  { s with sch := { s.sch with nextProg := s.sch.progs.foldl (fun a l => max a (l.id + 1)) 1 } }

/-- The tables of a record go to the banks the restoring cast puts in use (R145). -/
def State.restoreTables (s : State) (r : RetRecord) : State :=
  r.tables.foldl (fun s t =>
    let x := s.slot t.1
    s.setSlot t.1 { x with banks := setNth x.banks (1 - x.bank) t.2 }) s

/-- An element of the record failed its check (R65): NO_WORK, and the element is journalled: 0 a bundle, 1 a program, 2 the
configuration, 3 a context number in use, and which. -/
def State.restoreFail (s : State) (kind which : Nat) : State :=
  let s1 := (s.setPhase 0xA).setBootCode E_RESTORE_CHECK
  (s1.journalEvent E_RESTORE_CHECK 0 (s1.evWords E_RESTORE_CHECK { w2 := some kind, w3 := some which })).restoreEnd

/-- The restoring cast (R65, R100): the record's configuration, its generation without increment, and every field of Ronyr
again. The staging state reads IDLE after it, not DONE: a DESIGN CHOICE (log 111). -/
def State.restoreCast (s : State) (r : RetRecord) : State :=
  let s1 := ((s.progIdsOn).restoreTables r).armWith (0, 0, 0, 0, s.tim.ns) (rnyFull r.rny)
  let p : Pending := { mode := 0, set := r.cfg, rny := rnyFull r.rny, armedAt := s.tim.ns }
  let s2 := (s1.castApply p r.seq s.tim.ns true).wr R.GLB_RESTORE_GEN r.seq
  (s2.setFld R.STG_STATUS 0 3 0).restoreEnd.waitHost

/-- Restore record `r` (R65): bundles, programs and configuration are checked in this order, and nothing takes effect unless all
pass. -/
def State.restoreRecord (s : State) (r : RetRecord) : State :=
  match s.restoreBundles r with
  | none => s.restoreFail 0 0
  | some s1 =>
    match r.lines.find? (fun l => (s1.ctx l.1).isSome) with
    | some l => s.restoreFail 3 l.1
    | none =>
      match (s1.restoreLines r).restoreProgs r.progs with
      | .error i => s.restoreFail 1 i
      | .ok s2 =>
        match s2.judgeSet r.cfg (rnyFull r.rny) [] false with
        | some f => s.restoreFail 2 f.addr
        | none => s2.restoreCast r

/-- RESTORE (R65): SC restores the newest complete record, or the factory state is in force. -/
def execRestore (t : Nat) (s : State) : Host.Outcome State Fault Refusal :=
  let s := s.at' t
  if s.running && decide (s.phase = 5) && s.scUp && !s.boot.restored then
    let s1 : State := { s with stage := { s.stage with pend := none, shadow := [], rnyShadow := [] } }
    let s2 := s1.setFld R.STG_STATUS 0 3 0
    match (if s.factoryBoot then none else s2.newestRecord) with
    | none => done s2.restoreFactory
    | some r => done (((s2.wr R.STG_GEN_LIVE r.seq).wr R.STG_GEN_RETAINED r.seq).restoreRecord r)
  else done s

end Sys2Proof.Machine
end

