-- ==== Sys2Proof/Machine/Dispatch.lean ====
section
/-! DEFINITION. The dispatch: one arm per command, each one direct call of its meaning. -/

namespace Sys2Proof.Machine

def exec (i : Instr) (s : State) : Host.Outcome State Fault Refusal :=
  match i with
  | .powerUp t vinMv => Sys2Proof.Machine.execPowerUp t vinMv s
  | .railOutOfRegulation t viso => Sys2Proof.Machine.execRailOutOfRegulation t viso s
  | .pwrFailWarning t pin vinMv => Sys2Proof.Machine.execPwrFailWarning t pin vinMv s
  | .vinBrownoutReset t vinMv => Sys2Proof.Machine.execVinBrownoutReset t vinMv s
  | .powerFailRestart t vinMv => Sys2Proof.Machine.execPowerFailRestart t vinMv s
  | .modResetAssert t => Sys2Proof.Machine.execModResetAssert t s
  | .modResetRelease t => Sys2Proof.Machine.execModResetRelease t s
  | .perst t => Sys2Proof.Machine.execPerst t s
  | .refclkLoss t => Sys2Proof.Machine.execRefclkLoss t s
  | .clockLoss t => Sys2Proof.Machine.execClockLoss t s
  | .serrefRelock t => Sys2Proof.Machine.execSerrefRelock t s
  | .thermalThrottleStep t => Sys2Proof.Machine.execThermalThrottleStep t s
  | .thermalSafe t junction => Sys2Proof.Machine.execThermalSafe t junction s
  | .telemetrySample t m => Sys2Proof.Machine.execTelemetrySample t m s
  | .pocxpChainRun t faults => Sys2Proof.Machine.execPocxpChainRun t faults s
  | .pocxpRetryTimeout t p => Sys2Proof.Machine.execPocxpRetryTimeout t p s
  | .pocxpFaultClear t v => Sys2Proof.Machine.execPocxpFaultClear t v s
  | .romStart t straps => Sys2Proof.Machine.execRomStart t straps s
  | .imageVerifyDone t img m => Sys2Proof.Machine.execImageVerifyDone t img m s
  | .recoveryImageWrite t img => Sys2Proof.Machine.execRecoveryImageWrite t img s
  | .bistCondRecheck t m => Sys2Proof.Machine.execBistCondRecheck t m s
  | .bistComplete t fails => Sys2Proof.Machine.execBistComplete t fails s
  | .restore t => Sys2Proof.Machine.execRestore t s
  | .schTick t => Sys2Proof.Machine.execSchTick t s
  | .hivRequest t w => Sys2Proof.Machine.execHivRequest t w s
  | .hostHeartbeatWrite t v => Sys2Proof.Machine.execHostHeartbeatWrite t v s
  | .hostLoss t => Sys2Proof.Machine.execHostLoss t s
  | .nop t q seq => Sys2Proof.Machine.execNop t q seq s
  | .queueBind t q seq => Sys2Proof.Machine.execQueueBind t q seq s
  | .ringSetup t q seq => Sys2Proof.Machine.execRingSetup t q seq s
  | .hostTier t q seq => Sys2Proof.Machine.execHostTier t q seq s
  | .bar2Map t q seq => Sys2Proof.Machine.execBar2Map t q seq s
  | .ctxCreate t q seq => Sys2Proof.Machine.execCtxCreate t q seq s
  | .ctxDestroy t q seq => Sys2Proof.Machine.execCtxDestroy t q seq s
  | .ctxList t q seq => Sys2Proof.Machine.execCtxList t q seq s
  | .factoryNext t q seq => Sys2Proof.Machine.execFactoryNext t q seq s
  | .deviceReset t q seq => Sys2Proof.Machine.execDeviceReset t q seq s
  | .progLoad t q seq p => Sys2Proof.Machine.execProgLoad t q seq p s
  | .pourStart t q seq => Sys2Proof.Machine.execPourStart t q seq s
  | .pourCancel t q seq => Sys2Proof.Machine.execPourCancel t q seq s
  | .ctxChill t q seq => Sys2Proof.Machine.execCtxChill t q seq s
  | .ctxRemelt t q seq => Sys2Proof.Machine.execCtxRemelt t q seq s
  | .bar2Read t off r => Sys2Proof.Machine.execBar2Read t off r s
  | .bar2Write t off d => Sys2Proof.Machine.execBar2Write t off d s
  | .poisonedTlpReceived t ladle => Sys2Proof.Machine.execPoisonedTlpReceived t ladle s
  | .registerWrite t off size data => Sys2Proof.Machine.execRegisterWrite t off size data s
  | .hostRingHeadWrite t ring v => Sys2Proof.Machine.execHostRingHeadWrite t ring v s
  | .msixCoalesceTimeout t ring => Sys2Proof.Machine.execMsixCoalesceTimeout t ring s
  | .stagedWrite t off v => Sys2Proof.Machine.execStagedWrite t off v s
  | .stageCheck t ctrl => Sys2Proof.Machine.execStageCheck t ctrl s
  | .stageArm t ctrl => Sys2Proof.Machine.execStageArm t ctrl s
  | .stageCancel t ctrl => Sys2Proof.Machine.execStageCancel t ctrl s
  | .stageDiscard t ctrl => Sys2Proof.Machine.execStageDiscard t ctrl s
  | .stageCheckComplete t => Sys2Proof.Machine.execStageCheckComplete t s
  | .castTimeReached t => Sys2Proof.Machine.execCastTimeReached t s
  | .castCountCrossing t => Sys2Proof.Machine.execCastCountCrossing t s
  | .ronyrApplyReport t => Sys2Proof.Machine.execRonyrApplyReport t s
  | .retainedRecordComplete t => Sys2Proof.Machine.execRetainedRecordComplete t s
  | .quiesceRequest t v => Sys2Proof.Machine.execQuiesceRequest t v s
  | .debugWrite t v => Sys2Proof.Machine.execDebugWrite t v s
  | .cameraDiscoveryDone t c d => Sys2Proof.Machine.execCameraDiscoveryDone t c d s
  | .cameraLineReceived t str px ok => Sys2Proof.Machine.execCameraLineReceived t str px ok s
  | .cameraLinkLost t c => Sys2Proof.Machine.execCameraLinkLost t c s
  | .cameraRediscoveryTimer t c => Sys2Proof.Machine.execCameraRediscoveryTimer t c s
  | .cxpCtlRead t v => Sys2Proof.Machine.execCxpCtlRead t v s
  | .cxpCtlWrite t v => Sys2Proof.Machine.execCxpCtlWrite t v s
  | .cxpCtlAckTimeout t => Sys2Proof.Machine.execCxpCtlAckTimeout t s
  | .triggerEdgeReport t c => Sys2Proof.Machine.execTriggerEdgeReport t c s
  | .nlxTrainingDone t l ok taps ctle => Sys2Proof.Machine.execNlxTrainingDone t l ok taps ctle s
  | .nlxLaneRetrain t l ok => Sys2Proof.Machine.execNlxLaneRetrain t l ok s
  | .nlxCheckBlockReceived t l errs hdr => Sys2Proof.Machine.execNlxCheckBlockReceived t l errs hdr s
  | .nlxIdleEnter t l => Sys2Proof.Machine.execNlxIdleEnter t l s
  | .nlxIdleExit t l => Sys2Proof.Machine.execNlxIdleExit t l s
  | .eyeScanStart t e v => Sys2Proof.Machine.execEyeScanStart t e v s
  | .eyeScanAbort t e v => Sys2Proof.Machine.execEyeScanAbort t e v s
  | .eyeScanPointDone t e errs disturbed => Sys2Proof.Machine.execEyeScanPointDone t e errs disturbed s
  | .prbsClear t p v => Sys2Proof.Machine.execPrbsClear t p v s
  | .blockHeaderReceived t r k h => Sys2Proof.Machine.execBlockHeaderReceived t r k h s
  | .runnerLine t r k bad => Sys2Proof.Machine.execRunnerLine t r k bad s
  | .blockTimeout t r k => Sys2Proof.Machine.execBlockTimeout t r k s
  | .feedTailWrite t r k v => Sys2Proof.Machine.execFeedTailWrite t r k v s
  | .tileDecode t r k bad => Sys2Proof.Machine.execTileDecode t r k bad s
  | .roiCommit t r k v => Sys2Proof.Machine.execRoiCommit t r k v s
  | .segPostWrite t p r k rec => Sys2Proof.Machine.execSegPostWrite t p r k rec s
  | .gateRowDeliver t r k => Sys2Proof.Machine.execGateRowDeliver t r k s
  | .ledgerOpenRequest t idx => Sys2Proof.Machine.execLedgerOpenRequest t idx s
  | .trailingEdge t => Sys2Proof.Machine.execTrailingEdge t s
  | .deadlineReached t idx => Sys2Proof.Machine.execDeadlineReached t idx s
  | .deadlineSweepStall t => Sys2Proof.Machine.execDeadlineSweepStall t s
  | .pieceStateReport t => Sys2Proof.Machine.execPieceStateReport t s
  | .headOutputsHandoff t idx vals => Sys2Proof.Machine.execHeadOutputsHandoff t idx vals s
  | .tapOrderAnswer t => Sys2Proof.Machine.execTapOrderAnswer t s
  | .fireReportReceived t => Sys2Proof.Machine.execFireReportReceived t s
  | .journalPageWrite t => Sys2Proof.Machine.execJournalPageWrite t s
  | .journalBlockSeal t => Sys2Proof.Machine.execJournalBlockSeal t s
  | .journalBlockSign t => Sys2Proof.Machine.execJournalBlockSign t s
  | .journalRead t v => Sys2Proof.Machine.execJournalRead t v s
  | .haltRequest t v => Sys2Proof.Machine.execHaltRequest t v s
  | .haltConditionClear t v => Sys2Proof.Machine.execHaltConditionClear t v s
  | .haltAutoClear t => Sys2Proof.Machine.execHaltAutoClear t s
  | .barrierFrameFromRonyr f => Sys2Proof.Machine.execBarrierFrameFromRonyr f s
  | .barrierFrameToRonyr f => Sys2Proof.Machine.execBarrierFrameToRonyr f s
  | .ronyrHeartbeatLoss t => Sys2Proof.Machine.execRonyrHeartbeatLoss t s
  | .cuetteHeartbeatLoss t => Sys2Proof.Machine.execCuetteHeartbeatLoss t s
  | .safeAckTimeout t => Sys2Proof.Machine.execSafeAckTimeout t s
  | .safeMessage t => Sys2Proof.Machine.execSafeMessage t s
  | .resumeMessage t => Sys2Proof.Machine.execResumeMessage t s
  | .resumeHeldTimeout t => Sys2Proof.Machine.execResumeHeldTimeout t s
  | .ronyrClockFault t inRange => Sys2Proof.Machine.execRonyrClockFault t inRange s
  | .ronyrWatchdogExpire t served => Sys2Proof.Machine.execRonyrWatchdogExpire t served s
  | .visoReturn t => Sys2Proof.Machine.execVisoReturn t s
  | .tapOrderReceive t => Sys2Proof.Machine.execTapOrderReceive t s
  | .fireTrigger t => Sys2Proof.Machine.execFireTrigger t s
  | .fireEnd t seen openWire => Sys2Proof.Machine.execFireEnd t seen openWire s
  | .encoderStep t ch k => Sys2Proof.Machine.execEncoderStep t ch k s
  | .encoderSerialRead t ch ok value => Sys2Proof.Machine.execEncoderSerialRead t ch ok value s
  | .indexEdge t ch a b => Sys2Proof.Machine.execIndexEdge t ch a b s
  | .alignPair t ch headP headT ownP ownT => Sys2Proof.Machine.execAlignPair t ch headP headT ownP ownT s
  | .inputSample t pins => Sys2Proof.Machine.execInputSample t pins s
  | .outputOverload t k => Sys2Proof.Machine.execOutputOverload t k s
  | .outputThermal t k => Sys2Proof.Machine.execOutputThermal t k s
  | .outputAutoRestart t k => Sys2Proof.Machine.execOutputAutoRestart t k s
  | .outputDiagClear t k v => Sys2Proof.Machine.execOutputDiagClear t k v s
  | .fieldSupplyLow t mv => Sys2Proof.Machine.execFieldSupplyLow t mv s
  | .fieldSupplyRestore t mv => Sys2Proof.Machine.execFieldSupplyRestore t mv s
  | .outputReadback t seen => Sys2Proof.Machine.execOutputReadback t seen s
  | .outputOpenOff t k => Sys2Proof.Machine.execOutputOpenOff t k s
  | .ronyrRead t => Sys2Proof.Machine.execRonyrRead t s
  | .ronyrWrite t => Sys2Proof.Machine.execRonyrWrite t s
  | .ptpSyncSample t m => Sys2Proof.Machine.execPtpSyncSample t m s
  | .ptpMasterLost t => Sys2Proof.Machine.execPtpMasterLost t s
  | .stepOk t v => Sys2Proof.Machine.execStepOk t v s
  | .ppsPulse t => Sys2Proof.Machine.execPpsPulse t s
  | .chainTimeExchange t o upLocked hops => Sys2Proof.Machine.execChainTimeExchange t o upLocked hops s
  | .nlxPortLinkup t p hello => Sys2Proof.Machine.execNlxPortLinkup t p hello s
  | .peerAuthComplete t p chainOk sigOk peerOwner => Sys2Proof.Machine.execPeerAuthComplete t p chainOk sigOk peerOwner s
  | .nlxFrameReceive t p f => Sys2Proof.Machine.execNlxFrameReceive t p f s
  | .nlxRetryTimeout t p => Sys2Proof.Machine.execNlxRetryTimeout t p s
  | .shareMessage t src cls seg lead kind => Sys2Proof.Machine.execShareMessage t src cls seg lead kind s
  | .nlxDestUnreachable t d => Sys2Proof.Machine.execNlxDestUnreachable t d s
  | .certs t => Sys2Proof.Machine.execCerts t s
  | .quote t => Sys2Proof.Machine.execQuote t s
  | .bundleLoad t => Sys2Proof.Machine.execBundleLoad t s
  | .bundleDelete t => Sys2Proof.Machine.execBundleDelete t s
  | .bundleList t => Sys2Proof.Machine.execBundleList t s
  | .challenge t => Sys2Proof.Machine.execChallenge t s
  | .token t => Sys2Proof.Machine.execToken t s
  | .debugLock t => Sys2Proof.Machine.execDebugLock t s
  | .ownerSet t => Sys2Proof.Machine.execOwnerSet t s
  | .ownerClear t => Sys2Proof.Machine.execOwnerClear t s
  | .scWatchdogReset t => Sys2Proof.Machine.execScWatchdogReset t s
  | .scRestartComplete t => Sys2Proof.Machine.execScRestartComplete t s
  | .fcWatchdogReset t n => Sys2Proof.Machine.execFcWatchdogReset t n s
  | .fcRestartComplete t n => Sys2Proof.Machine.execFcRestartComplete t n s
  | .schWatchdogReset t => Sys2Proof.Machine.execSchWatchdogReset t s
  | .schRestartComplete t => Sys2Proof.Machine.execSchRestartComplete t s
  | .pmcWatchdogReset t => Sys2Proof.Machine.execPmcWatchdogReset t s
  | .pmcRestartComplete t => Sys2Proof.Machine.execPmcRestartComplete t s
  | .pwrReqS0 t => Sys2Proof.Machine.execPwrReqS0 t s
  | .pwrReqS1 t => Sys2Proof.Machine.execPwrReqS1 t s
  | .pwrReqS2 t => Sys2Proof.Machine.execPwrReqS2 t s
  | .pwrReqS3 t => Sys2Proof.Machine.execPwrReqS3 t s
  | .s1IdleEntry t => Sys2Proof.Machine.execS1IdleEntry t s
  | .s1Wake t => Sys2Proof.Machine.execS1Wake t s
  | .s2Wake t => Sys2Proof.Machine.execS2Wake t s
  | .msmbStatus t => Sys2Proof.Machine.execMsmbStatus t s
  | .msmbVin t => Sys2Proof.Machine.execMsmbVin t s
  | .msmbInputCurrent t => Sys2Proof.Machine.execMsmbInputCurrent t s
  | .msmbInputPower t => Sys2Proof.Machine.execMsmbInputPower t s
  | .msmbJunction t => Sys2Proof.Machine.execMsmbJunction t s
  | .msmbBoardTemp t => Sys2Proof.Machine.execMsmbBoardTemp t s
  | .msmbRonyrJunction t => Sys2Proof.Machine.execMsmbRonyrJunction t s
  | .msmbLplus t => Sys2Proof.Machine.execMsmbLplus t s
  | .msmbCrucibleStep t => Sys2Proof.Machine.execMsmbCrucibleStep t s
  | .msmbSafeCauses t => Sys2Proof.Machine.execMsmbSafeCauses t s
  | .msmbWake t m => Sys2Proof.Machine.execMsmbWake t m s
  | .safeAck t => Sys2Proof.Machine.execSafeAck t s
  | .safeForce t => Sys2Proof.Machine.execSafeForce t s
  | .safeAutoAck t => Sys2Proof.Machine.execSafeAutoAck t s
  | .stepBegin t x ready => Sys2Proof.Machine.execStepBegin t x ready s
  | .twinCompare t x => Sys2Proof.Machine.execTwinCompare t x s
  | .taskDispatch t n f x => Sys2Proof.Machine.execTaskDispatch t n f x s
  | .taskSteal t n f x => Sys2Proof.Machine.execTaskSteal t n f x s
  | .sliceEnd t x => Sys2Proof.Machine.execSliceEnd t x s
  | .lineDemandClaim t x n y => Sys2Proof.Machine.execLineDemandClaim t x n y s
  | .lineFlaskReturn t n => Sys2Proof.Machine.execLineFlaskReturn t n s
  | .chillComplete t x n => Sys2Proof.Machine.execChillComplete t x n s
  | .remeltComplete t x n bad => Sys2Proof.Machine.execRemeltComplete t x n bad s
  | .permitWindow t => Sys2Proof.Machine.execPermitWindow t s
  | .permitGrant t => Sys2Proof.Machine.execPermitGrant t s
  | .sbarArm t n => Sys2Proof.Machine.execSbarArm t n s
  | .sbarDisarm t n => Sys2Proof.Machine.execSbarDisarm t n s
  | .sbarFire t n => Sys2Proof.Machine.execSbarFire t n s
  | .descriptorLoad t c bad => Sys2Proof.Machine.execDescriptorLoad t c bad s
  | .mma t c => Sys2Proof.Machine.execMma t c s
  | .conv t c => Sys2Proof.Machine.execConv t c s
  | .dwconv t c => Sys2Proof.Machine.execDwconv t c s
  | .poolSum t c => Sys2Proof.Machine.execPoolSum t c s
  | .poolMax t c => Sys2Proof.Machine.execPoolMax t c s
  | .poolMin t c => Sys2Proof.Machine.execPoolMin t c s
  | .ewiseMul t c => Sys2Proof.Machine.execEwiseMul t c s
  | .ewiseAdd t c => Sys2Proof.Machine.execEwiseAdd t c s
  | .ewiseQadd t c => Sys2Proof.Machine.execEwiseQadd t c s
  | .accmove t c => Sys2Proof.Machine.execAccmove t c s
  | .attnQk t c => Sys2Proof.Machine.execAttnQk t c s
  | .attnPv t c => Sys2Proof.Machine.execAttnPv t c s
  | .layout t c => Sys2Proof.Machine.execLayout t c s
  | .crucibleComplete t c cycles => Sys2Proof.Machine.execCrucibleComplete t c cycles s
  | .ladleDescriptorStart t n l k bad => Sys2Proof.Machine.execLadleDescriptorStart t n l k bad s
  | .ladleComplete t n l bad => Sys2Proof.Machine.execLadleComplete t n l bad s
  | .xlateFaultResolved t g m => Sys2Proof.Machine.execXlateFaultResolved t g m s
  | .scrubLine t line r => Sys2Proof.Machine.execScrubLine t line r s
  | .barrierRelease t b => Sys2Proof.Machine.execBarrierRelease t b s
  | .fettlerWaitResume t n => Sys2Proof.Machine.execFettlerWaitResume t n s
  | .add t n w => Sys2Proof.Machine.execAdd t n w s
  | .sub t n w => Sys2Proof.Machine.execSub t n w s
  | .and t n w => Sys2Proof.Machine.execAnd t n w s
  | .or t n w => Sys2Proof.Machine.execOr t n w s
  | .xor t n w => Sys2Proof.Machine.execXor t n w s
  | .sll t n w => Sys2Proof.Machine.execSll t n w s
  | .srl t n w => Sys2Proof.Machine.execSrl t n w s
  | .sra t n w => Sys2Proof.Machine.execSra t n w s
  | .slt t n w => Sys2Proof.Machine.execSlt t n w s
  | .sltu t n w => Sys2Proof.Machine.execSltu t n w s
  | .mul t n w => Sys2Proof.Machine.execMul t n w s
  | .mulh t n w => Sys2Proof.Machine.execMulh t n w s
  | .mulhu t n w => Sys2Proof.Machine.execMulhu t n w s
  | .div t n w => Sys2Proof.Machine.execDiv t n w s
  | .divu t n w => Sys2Proof.Machine.execDivu t n w s
  | .rem t n w => Sys2Proof.Machine.execRem t n w s
  | .remu t n w => Sys2Proof.Machine.execRemu t n w s
  | .min t n w => Sys2Proof.Machine.execMin t n w s
  | .max t n w => Sys2Proof.Machine.execMax t n w s
  | .minu t n w => Sys2Proof.Machine.execMinu t n w s
  | .maxu t n w => Sys2Proof.Machine.execMaxu t n w s
  | .addw t n w => Sys2Proof.Machine.execAddw t n w s
  | .subw t n w => Sys2Proof.Machine.execSubw t n w s
  | .clz t n w => Sys2Proof.Machine.execClz t n w s
  | .ctz t n w => Sys2Proof.Machine.execCtz t n w s
  | .popc t n w => Sys2Proof.Machine.execPopc t n w s
  | .slli t n w => Sys2Proof.Machine.execSlli t n w s
  | .srli t n w => Sys2Proof.Machine.execSrli t n w s
  | .srai t n w => Sys2Proof.Machine.execSrai t n w s
  | .addi t n w => Sys2Proof.Machine.execAddi t n w s
  | .widePrefix t n hi next => Sys2Proof.Machine.execWidePrefix t n hi next s
  | .lb t n w bad => Sys2Proof.Machine.execLb t n w bad s
  | .lh t n w bad => Sys2Proof.Machine.execLh t n w bad s
  | .lw t n w bad => Sys2Proof.Machine.execLw t n w bad s
  | .ld t n w bad => Sys2Proof.Machine.execLd t n w bad s
  | .lbu t n w bad => Sys2Proof.Machine.execLbu t n w bad s
  | .lhu t n w bad => Sys2Proof.Machine.execLhu t n w bad s
  | .lwu t n w bad => Sys2Proof.Machine.execLwu t n w bad s
  | .sb t n w bad => Sys2Proof.Machine.execSb t n w bad s
  | .sh t n w bad => Sys2Proof.Machine.execSh t n w bad s
  | .sw t n w bad => Sys2Proof.Machine.execSw t n w bad s
  | .sd t n w bad => Sys2Proof.Machine.execSd t n w bad s
  | .beq t n w => Sys2Proof.Machine.execBeq t n w s
  | .bne t n w => Sys2Proof.Machine.execBne t n w s
  | .blt t n w => Sys2Proof.Machine.execBlt t n w s
  | .bge t n w => Sys2Proof.Machine.execBge t n w s
  | .bltu t n w => Sys2Proof.Machine.execBltu t n w s
  | .bgeu t n w => Sys2Proof.Machine.execBgeu t n w s
  | .bany t n w => Sys2Proof.Machine.execBany t n w s
  | .bnone t n w => Sys2Proof.Machine.execBnone t n w s
  | .jal t n w => Sys2Proof.Machine.execJal t n w s
  | .vadd t n w => Sys2Proof.Machine.execVadd t n w s
  | .vsub t n w => Sys2Proof.Machine.execVsub t n w s
  | .vmul t n w => Sys2Proof.Machine.execVmul t n w s
  | .vfma t n w => Sys2Proof.Machine.execVfma t n w s
  | .vmin t n w => Sys2Proof.Machine.execVmin t n w s
  | .vmax t n w => Sys2Proof.Machine.execVmax t n w s
  | .vand t n w => Sys2Proof.Machine.execVand t n w s
  | .vor t n w => Sys2Proof.Machine.execVor t n w s
  | .vxor t n w => Sys2Proof.Machine.execVxor t n w s
  | .vsll t n w => Sys2Proof.Machine.execVsll t n w s
  | .vsrl t n w => Sys2Proof.Machine.execVsrl t n w s
  | .vsra t n w => Sys2Proof.Machine.execVsra t n w s
  | .vabs t n w => Sys2Proof.Machine.execVabs t n w s
  | .vneg t n w => Sys2Proof.Machine.execVneg t n w s
  | .vceq t n w => Sys2Proof.Machine.execVceq t n w s
  | .vclt t n w => Sys2Proof.Machine.execVclt t n w s
  | .vcle t n w => Sys2Proof.Machine.execVcle t n w s
  | .vsel t n w => Sys2Proof.Machine.execVsel t n w s
  | .vbcst t n w => Sys2Proof.Machine.execVbcst t n w s
  | .vextx t n w => Sys2Proof.Machine.execVextx t n w s
  | .vld t n w => Sys2Proof.Machine.execVld t n w s
  | .vst t n w => Sys2Proof.Machine.execVst t n w s
  | .rsum t n w => Sys2Proof.Machine.execRsum t n w s
  | .rmin t n w => Sys2Proof.Machine.execRmin t n w s
  | .rmax t n w => Sys2Proof.Machine.execRmax t n w s
  | .rsumw t n w => Sys2Proof.Machine.execRsumw t n w s
  | .vcvt t n w => Sys2Proof.Machine.execVcvt t n w s
  | .pand t n w => Sys2Proof.Machine.execPand t n w s
  | .por t n w => Sys2Proof.Machine.execPor t n w s
  | .pxor t n w => Sys2Proof.Machine.execPxor t n w s
  | .pandn t n w => Sys2Proof.Machine.execPandn t n w s
  | .pnot t n w => Sys2Proof.Machine.execPnot t n w s
  | .pfromx t n w => Sys2Proof.Machine.execPfromx t n w s
  | .ptox t n w => Sys2Proof.Machine.execPtox t n w s
  | .planes t n w => Sys2Proof.Machine.execPlanes t n w s
  | .pcount t n w => Sys2Proof.Machine.execPcount t n w s
  | .evinc t n w => Sys2Proof.Machine.execEvinc t n w s
  | .evwait t n w => Sys2Proof.Machine.execEvwait t n w s
  | .bar t n w => Sys2Proof.Machine.execBar t n w s
  | .gcadd t n w => Sys2Proof.Machine.execGcadd t n w s
  | .cast t n w => Sys2Proof.Machine.execCast t n w s
  | .cpoll t n w => Sys2Proof.Machine.execCpoll t n w s
  | .cwait t n w => Sys2Proof.Machine.execCwait t n w s
  | .ldq t n w => Sys2Proof.Machine.execLdq t n w s
  | .ldw t n w => Sys2Proof.Machine.execLdw t n w s
  | .csrd t n w => Sys2Proof.Machine.execCsrd t n w s
  | .cswr t n w => Sys2Proof.Machine.execCswr t n w s
  | .trap t n w => Sys2Proof.Machine.execTrap t n w s
  | .yield t n w => Sys2Proof.Machine.execYield t n w s
  | .chkpt t n w => Sys2Proof.Machine.execChkpt t n w s
  | .eret t n w => Sys2Proof.Machine.execEret t n w s
  | .fence t n w => Sys2Proof.Machine.execFence t n w s
  | .tend t n w => Sys2Proof.Machine.execTend t n w s
  | .vexp t n w => Sys2Proof.Machine.execVexp t n w s
  | .vrcp t n w => Sys2Proof.Machine.execVrcp t n w s
  | .vrsq t n w => Sys2Proof.Machine.execVrsq t n w s
  | .vlog t n w => Sys2Proof.Machine.execVlog t n w s
  | .traceClear t => Sys2Proof.Machine.execTraceClear t s
  | .logIndexWrite t q => Sys2Proof.Machine.execLogIndexWrite t q s
  | .pcieLinkUp m => Sys2Proof.Machine.execPcieLinkUp m s
  | .pcieLinkDown t => Sys2Proof.Machine.execPcieLinkDown t s
  | .cxpCtlAck t code a => Sys2Proof.Machine.execCxpCtlAck t code a s
  | .cameraEventPacket t p => Sys2Proof.Machine.execCameraEventPacket t p s
  | .prbsLock t p => Sys2Proof.Machine.execPrbsLock t p s
  | .prbsRelock t p bits errs => Sys2Proof.Machine.execPrbsRelock t p bits errs s
  | .ledgerEntryUncorrectable t idx => Sys2Proof.Machine.execLedgerEntryUncorrectable t idx s
  | .emulatedEdgeOut t e => Sys2Proof.Machine.execEmulatedEdgeOut t e s
  | .encoderSpeedTimeout t ch => Sys2Proof.Machine.execEncoderSpeedTimeout t ch s
  | .encoderSignalInvalid t ch => Sys2Proof.Machine.execEncoderSignalInvalid t ch s
  | .ptpAnnounceReceived t m => Sys2Proof.Machine.execPtpAnnounceReceived t m s
  | .selfTestConditionFail t m => Sys2Proof.Machine.execSelfTestConditionFail t m s
  | .driverJunctionCooled t k => Sys2Proof.Machine.execDriverJunctionCooled t k s

end Sys2Proof.Machine
end

