-- ==== Sys2Proof/Safety.lean ====
section
/-! DEFINITION. What the claims are stated in: what a safe state shows at its pins, and what a command leaves as it was. -/

namespace Sys2Proof.Machine

/-! ### Safe states -/

/-- The levels on J1 and J2 are those the state drives. -/
def State.pinsFollow (s : State) : Bool := decide (s.pins = s.pinsOf)

/-- While Ronyr is in the field safe state no output is energised and the line-halt contact is open (R394, R49). -/
def State.fieldOff (s : State) : Bool := !s.ron.safe || (s.pins.dq == 0 && !s.pins.lhClosed)

/-- While a cause of MSMB_ALERT# is in force the line is low, and it stays low while its latch is set (R467). -/
def State.alertShown (s : State) : Bool := !(s.alertCause || s.pwr.alert) || s.pins.msmbAlertLow

/-- The memories hold their canonical form. -/
def State.memWf (s : State) : Bool := Mem.wf s.hostMem && Mem.wf s.fab.dram && Mem.wf s.fab.mould

/-! ### Frames -/

/-- The parts of a state a command may leave as they were. Elapsed time and the pins follow from the rest. -/
inductive Part where
  /-- The counter of free values. -/
  | free
  /-- BAR0 registers. -/
  | regs
  /-- Ronyr's registers. -/
  | rny
  /-- The module. -/
  | mod
  /-- The PoCXP chain. -/
  | pocxp
  /-- Boot state. -/
  | boot
  /-- Host interface. -/
  | host
  /-- Staging and cast. -/
  | stage
  /-- Line control. -/
  | line
  /-- The journal. -/
  | jrn
  /-- Ronyr, but for what its outputs are commanded to and since when. -/
  | ron
  /-- Device time, but for its running on. -/
  | tim
  /-- The chain. -/
  | chain
  /-- The security core. -/
  | sec
  /-- Power management, but for the alert latch and the instants the safe-state causes left and the conditions of S1 came. -/
  | pwr
  /-- Log, trace and firmware processors. -/
  | dbg
  /-- Host memory. -/
  | hostMem
  /-- The compute fabric. -/
  | fab
  /-- Counts of fabric traffic, translations and corrections. -/
  | meter
  /-- The permit arbiter. -/
  | permits
  /-- The scheduler core. -/
  | sch
  /-- Lanes, runners and segmentation. -/
  | intk
  /-- The queue of waiting commands. -/
  | pending
  deriving DecidableEq, Repr

/-- A part is the same in two states. -/
def Part.same : Part → State → State → Prop
  | .free, s, s' => s'.free = s.free
  | .regs, s, s' => s'.regs = s.regs
  | .rny, s, s' => s'.rny = s.rny
  | .mod, s, s' => s'.mod = s.mod
  | .pocxp, s, s' => s'.pocxp = s.pocxp
  | .boot, s, s' => s'.boot = s.boot
  | .host, s, s' => s'.host = s.host
  | .stage, s, s' => s'.stage = s.stage
  | .line, s, s' => s'.line = s.line
  | .jrn, s, s' => s'.jrn = s.jrn
  | .ron, s, s' => s'.ron = { s.ron with commanded := s'.ron.commanded, drv := s'.ron.drv } ∧
      ∀ k < 16, { nth s'.ron.drv k {} with changedAt := (nth s.ron.drv k {}).changedAt } = nth s.ron.drv k {}
  | .tim, s, s' => s'.tim = (s.at' s'.now).tim
  | .chain, s, s' => s'.chain = s.chain
  | .sec, s, s' => s'.sec = s.sec
  | .pwr, s, s' => s'.pwr = { s.pwr with alert := s'.pwr.alert, absentSince := s'.pwr.absentSince, idleSince := s'.pwr.idleSince }
  | .dbg, s, s' => s'.dbg = s.dbg
  | .hostMem, s, s' => s'.hostMem = s.hostMem
  | .fab, s, s' => s'.fab = s.fab
  | .meter, s, s' => s'.meter = s.meter
  | .permits, s, s' => s'.permits = s.permits
  | .sch, s, s' => s'.sch = s.sch
  | .intk, s, s' => s'.intk = s.intk
  | .pending, s, s' => s'.pending = s.pending

/-- Every part but those listed is the same in `s'` as in `s`. -/
def State.keepsBut (s s' : State) (l : List Part) : Prop := ∀ p : Part, p ∉ l → p.same s s'

/-- Every BAR0 register but those listed reads the same in `s'` as in `s`. -/
def State.regsBut (s s' : State) (l : List Nat) : Prop := ∀ a : Nat, a ∉ l → s'.rd a = s.rd a

/-! ### Fettlers -/

/-- Fettler `i` holds a task, `f`, and can run the instruction of `len` bytes at its pc: its fabric is up, no wait and no stop is in
force, and the fetch meets no trap (R182, R219, R248, R250). -/
def State.fetReady (s : State) (i len : Nat) (f : Fet) : Prop :=
  s.fet i = some f ∧ s.fabricUp = true ∧ f.wait = .none ∧ s.stopped (i / 4) f.ctx = false ∧ f.pc.toNat % 4 = 0 ∧
    s.poisonedIn f.ctx f.pc.toNat len = none ∧ ∃ a, s.xlateAll f.ctx false false 1 f.pc.toNat len = .ok a

/-- The fabric after fettler `i` has retired an instruction that leaves it as `g` has it. -/
def Fabric.retired (b : Fabric) (i : Nat) (g : Fet) : Fabric :=
  { b with fets := KMap.put b.fets i g, instret := KMap.put b.instret i (KMap.getD b.instret i 0 + 1) }

/-- From `s` to `s'` fettler `i` retires an instruction that leaves it as `g` has it, and nothing else changes. -/
def State.retires (s s' : State) (i : Nat) (g : Fet) : Prop := s'.fab = s.fab.retired i g ∧ s.keepsBut s' [.fab]

/-- The fettler goes on at `pc`. -/
def Fet.goto (f : Fet) (pc : BitVec 48) : Fet := { f with pc := pc }

/-- Fettler instructions of the form `c`, on operands `w` and a fettler `f` that `ok` admits, leave the fettler as `g` gives it and
nothing else changed. -/
def retiresAs {α : Type} (c : Nat → Fin 128 → α → Instr) (ok : α → Fet → Prop) (g : α → Fet → Fet) : Prop :=
  ∀ (s : State) (t : Nat) (i : Fin 128) (w : α) (f : Fet), s.fetReady i 4 f → ok w f →
    ∃ s', exec (c t i w) s = .next s' ∧ s.retires s' i (g w f)

/-- The handler of fettler `f` takes its traps (R248): TVEC is set and CAUSE.inh is clear. -/
def Fet.handles (f : Fet) : Prop := f.rc 0x20 ≠ 0 ∧ (f.rc 0x22).getLsbD 63 = false

/-- Fettler `f` as its trap handler finds it (R248, Tables 11.7 and 11.9). -/
def Fet.inHandler (f : Fet) (cause sub tval : Nat) : Fet :=
  { (((f.wc 0x21 (f.pc.setWidth 64)).wc 0x22 (BitVec.ofNat 64 (2 ^ 63 + sub % 256 * 256 + cause % 256))).wc 0x23
      (BitVec.ofNat 64 tval)) with pc := (f.rc 0x20).setWidth 48, wait := .none }

/-- Instructions of the form `c`, on operands and a fettler with a handler that `ok` admits, trap to the handler with the cause,
sub-cause and TVAL that `v` gives, and nothing else changes. -/
def trapsAs {α : Type} (c : Nat → Fin 128 → α → Instr) (ok : α → State → Nat → Fet → Prop) (v : α → Fet → Nat × Nat × Nat) : Prop :=
  ∀ (s : State) (t : Nat) (i : Fin 128) (w : α) (f : Fet), s.fetReady i 4 f → f.handles → ok w s i f →
    ∃ s', exec (c t i w) s = .next s' ∧ s.keepsBut s' [.fab] ∧
      s'.fab = { s.fab with fets := KMap.put s.fab.fets i (f.inHandler (v w f).1 (v w f).2.1 (v w f).2.2) }

/-- A class 6 instruction that writes lanes (R229–R231): an active lane of V[d] takes the value `g` gives, an inactive one keeps its
own; the flags of the active lanes are added to FFLAGS; every other register keeps its value. -/
def lanesAs {α : Type} (c : Nat → Fin 128 → α → Instr) (d : α → BitVec 5) (pred : α → BitVec 3) (n : α → Nat) (ok : α → Bool)
    (g : α → Fet → Nat → Nat × Nat) : Prop :=
  ∀ (s : State) (t : Nat) (i : Fin 128) (w : α) (f : Fet), s.fetReady i 4 f → ok w = true →
    ∃ s' f', exec (c t i w) s = .next s' ∧ s.retires s' i f' ∧
      (∀ k < 512 / n w, lane (f'.rv (d w)) (n w) k =
        if active (f.rp (pred w).toNat) (n w) k then (g w f k).1 % 2 ^ n w else lane (f.rv (d w)) (n w) k) ∧
      (∀ b < 64, (f'.rc 0).getLsbD b = ((f.rc 0).getLsbD b || decide (b < 5 ∧
        ∃ k < 512 / n w, active (f.rp (pred w).toNat) (n w) k = true ∧ (g w f k).2.testBit b = true))) ∧
      (∀ r, r ≠ d w → f'.rv r = f.rv r) ∧ (∀ j, j ≠ 0 → f'.rc j = f.rc j) ∧
      f' = { f with pc := f.pc + 4, v := f'.v, csr := f'.csr }

/-- The effective address of a class 2 or 3 instruction (R225). -/
def eaOf (w : MemF) (f : Fet) : Nat := (f.rx w.a + w.off.signExtend 64).toNat

/-- A class 2 or 3 instruction of `n` bytes reaches its flask's mould: aligned, in regions of its context, and, for a load, none of
them protected (R171, R187, R218). -/
def State.mouldReach (s : State) (i n : Nat) (load : Bool) (w : MemF) (f : Fet) : Prop :=
  eaOf w f % n = 0 ∧ w.sp = true ∧ s.mouldOk (i / 4) f.ctx (eaOf w f) n = true ∧
    (load = true → s.mouldProt (i / 4) f.ctx (eaOf w f) n = false)

/-- A class 2 or 3 instruction of `n` bytes reaches device memory at physical address `a`: aligned, canonical, below the device register
window, translated, and no line it meets uncorrectable (R180–R188, R218). -/
def State.memReach (s : State) (n a : Nat) (load : Bool) (w : MemF) (f : Fet) : Prop :=
  eaOf w f % n = 0 ∧ w.sp = false ∧ canonical (f.rx w.a + w.off.signExtend 64) = true ∧ eaOf w f % 2 ^ 48 < windowBase ∧
    s.xlateAll f.ctx (!load) false 1 (eaOf w f % 2 ^ 48) n = .ok a ∧ s.poisonedIn f.ctx (eaOf w f % 2 ^ 48) n = none

/-- The counts of corrections of the line at physical address `a` (Table 9.12). -/
def corrRegs (a : Nat) : List Nat := [R.MEM_CORR_INNER (linePackage (a / 256)), R.MEM_CORR_OUTER (linePackage (a / 256))]

/-- A class 2 load of `n` bytes: x[d] takes the bytes read, least significant first, as `ext` extends them. From device memory the line
may be corrected, which counts; of a line outside the guarantee that the decoder does not report, the bytes are open (R179). -/
def loadsAs (c : Nat → Fin 128 → MemF → LineErr → Instr) (n : Nat) (ext : Nat → W64) : Prop :=
  ∀ (s : State) (t : Nat) (i : Fin 128) (w : MemF) (e : LineErr) (f : Fet), s.fetReady i 4 f →
    (s.mouldReach i n true w f → ∃ s', exec (c t i w e) s = .next s' ∧
      s.retires s' i ((f.wx w.d (ext (Mem.readLE s.fab.mould (mouldAt (i / 4) (eaOf w f)) n))).goto (f.pc + 4))) ∧
    (∀ a, s.memReach n a true w f → e.bad = false → ∃ s' v, exec (c t i w e) s = .next s' ∧
      s'.fab = s.fab.retired i ((f.wx w.d (ext v)).goto (f.pc + 4)) ∧ (e.beyond = false → v = Mem.readLE s.fab.dram a n) ∧
      s.keepsBut s' (if e.beyond then [.fab, .meter, .regs, .free] else [.fab, .meter, .regs]) ∧ s.regsBut s' (corrRegs a))

/-- Memory `m'` holds the low `n` bytes of `v` from address `a`, least significant first, and elsewhere what `m` holds. -/
def storesBytes (m m' : Mem) (a n : Nat) (v : W64) : Prop :=
  (∀ k < n, Mem.read m' (a + k) = v.extractLsb' (8 * k) 8) ∧ ∀ b, (b < a ∨ a + n ≤ b) → Mem.read m' b = Mem.read m b

/-- A class 3 store of `n` bytes: the low bytes of x[d] stand at the address, every other byte is as it was, and nothing else changes but
the pc and, for device memory, the counts of corrections. The other bytes of a line that was miscorrected are open (R179, R180). -/
def storesAs (c : Nat → Fin 128 → MemF → LineErr → Instr) (n : Nat) : Prop :=
  ∀ (s : State) (t : Nat) (i : Fin 128) (w : MemF) (e : LineErr) (f : Fet), s.fetReady i 4 f →
    (s.mouldReach i n false w f → ∃ s', exec (c t i w e) s = .next s' ∧ s.keepsBut s' [.fab] ∧
      s'.fab = { s.fab.retired i (f.goto (f.pc + 4)) with mould := s'.fab.mould } ∧
      storesBytes s.fab.mould s'.fab.mould (mouldAt (i / 4) (eaOf w f)) n (f.rx w.d)) ∧
    (∀ a, s.memReach n a false w f → e.bad = false → ∃ s', exec (c t i w e) s = .next s' ∧
      s.keepsBut s' (if e.beyond then [.fab, .meter, .regs, .free] else [.fab, .meter, .regs]) ∧ s.regsBut s' (corrRegs a) ∧
      s'.fab = { s.fab.retired i (f.goto (f.pc + 4)) with dram := s'.fab.dram } ∧
      (e.beyond = false → storesBytes s.fab.dram s'.fab.dram a n (f.rx w.d)) ∧
      (∀ k < n, Mem.read s'.fab.dram (a + k) = (f.rx w.d).extractLsb' (8 * k) 8) ∧
      ∀ b, (b < a / 256 * 256 ∨ a / 256 * 256 + 256 ≤ b) → Mem.read s'.fab.dram b = Mem.read s.fab.dram b)

/-- The accesses of `n` bytes that trap to a handler before they reach memory (R218, R188). -/
def accessTraps (c : Nat → Fin 128 → MemF → LineErr → Instr) (n : Nat) (load : Bool) : Prop :=
  ∀ e, trapsAs (fun t i w => c t i w e) (fun w _ _ f => eaOf w f % n ≠ 0) (fun w f => (2, 0, eaOf w f)) ∧
    trapsAs (fun t i w => c t i w e)
      (fun w _ _ f => eaOf w f % n = 0 ∧ w.sp = false ∧ canonical (f.rx w.a + w.off.signExtend 64) = false)
      (fun w f => (3, 0, eaOf w f)) ∧
    trapsAs (fun t i w => c t i w e) (fun w _ _ f => eaOf w f % n = 0 ∧ w.sp = true ∧ mouldSize ≤ eaOf w f)
      (fun w f => (4, 0, eaOf w f)) ∧
    trapsAs (fun t i w => c t i w e)
      (fun w s i f => eaOf w f % n = 0 ∧ w.sp = true ∧ eaOf w f < mouldSize ∧
        s.mouldOk (i / 4) f.ctx (eaOf w f) n = false) (fun w f => (4, 1, eaOf w f)) ∧
    (load = true → trapsAs (fun t i w => c t i w e)
      (fun w s i f => eaOf w f % n = 0 ∧ w.sp = true ∧ s.mouldOk (i / 4) f.ctx (eaOf w f) n = true ∧
        s.mouldProt (i / 4) f.ctx (eaOf w f) n = true) (fun w f => (5, 5, eaOf w f))) ∧
    trapsAs (fun t i w => c t i w e)
      (fun w _ _ f => eaOf w f % n = 0 ∧ w.sp = false ∧ canonical (f.rx w.a + w.off.signExtend 64) = true ∧
        windowBase ≤ eaOf w f % 2 ^ 48 ∧ n < 4)
      (fun w f => (7, if load then 0 else 1, eaOf w f % 2 ^ 48 - windowBase))

/-! ### Crucibles -/

/-- Crucible `k` has issued the command `d` and may run it (R252, R255). -/
def State.mayRun (s : State) (k : Nat) (d : CDesc) : Prop := (s.cru k).run = some d ∧ d.stage = 2 ∧ s.crucibleUp = true

/-- The tile a descriptor names, cleared first where it asks for that (R203). -/
def State.tileFor (s : State) (k : Nat) (w : List Nat) : Tile :=
  match dPlace w with
  | some (p, l) => if dfld w 0 6 1 = 1 then (s.tile k (dfld w 0 4 2)).clear p l else s.tile k (dfld w 0 4 2)
  | none => s.tile k (dfld w 0 4 2)

/-- Commands of the form `c`, of type `ty` and operation `sel`, add the terms `f` gives to the cells of the descriptor's rectangle and
change nothing else but the tile's underflow count and the command, which waits for its completion (R203, R207, R262). -/
def accumulatesAs (c : Nat → Fin 64 → Instr) (ty : Nat) (sel : List Nat → Bool) (f : State → Nat → CDesc → Nat → Nat → Acc) : Prop :=
  ∀ (s : State) (t : Nat) (k : Fin 64) (d : CDesc), s.mayRun k d → dType d.words = ty →
    sel d.words = true → (s.cru k).tiles.length = 4 →
    let r := dRect d.words
    let i := dfld d.words 0 4 2
    r.c0 + r.n ≤ 64 →
    ∃ s' d', exec (c t k) s = .next s' ∧ s.keepsBut s' [.fab] ∧ s'.fab = { s.fab with crus := s'.fab.crus } ∧
      (∀ j, j ≠ (k : Nat) → s'.cru j = s.cru j) ∧ (∀ j, j < 4 → j ≠ i → s'.tile k j = s.tile k j) ∧
      (s'.cru k).run = some d' ∧ (s'.cru k).queue = (s.cru k).queue ∧ d' = { d with stage := 3, code := 0, sat := 0, status := (s'.tile k i).status } ∧
      ∀ a b, b < 64 → (s'.tile k i).cell a b =
        if r.r0 ≤ a ∧ a < r.r0 + r.m ∧ r.c0 ≤ b ∧ b < r.c0 + r.n
        then ((s.tileFor k d.words).cell a b).add (f s k d (a - r.r0) (b - r.c0)) else (s.tileFor k d.words).cell a b

/-- A row of `n` elements of format `f` ends before the next row starts: `stride` is in units of 64 bytes. -/
def rowsApart (f rows n stride : Nat) : Prop := rows ≤ 1 ∨ elemBytes f n ≤ stride * 64

/-- `m'` holds `rows` rows of `n` elements of format `f` from mould address `a`, row by row at `stride`, as `v` gives them, and
elsewhere what `m` holds. -/
def writesRows (m m' : Mem) (a f rows n stride : Nat) (v : Nat → Nat → Nat) : Prop :=
  (∀ i < rows, ∀ j < n, elemAt m' (a + i * stride * 64) f j = v i j % 2 ^ fmtBits f) ∧
  ∀ b, (∀ i < rows, b < a + i * stride * 64 ∨ a + i * stride * 64 + elemBytes f n ≤ b) → Mem.read m' b = Mem.read m b

/-- Commands of the form `c` write rows of elements to the mould, as `out` gives them: base reference, rows, columns and values; the
command waits for its completion, and nothing but the mould, pending digests and protected regions changes besides (R187, R347). -/
def writesAs (c : Nat → Fin 64 → Instr) (ty : Nat) (sel : List Nat → Bool) (ref : List Nat → TRef) (dims : List Nat → Nat × Nat)
    (v : State → Nat → CDesc → Nat → Nat → Nat) : Prop :=
  ∀ (s : State) (t : Nat) (k : Fin 64) (d : CDesc), s.mayRun k d → dType d.words = ty →
    sel d.words = true →
    let b := ref d.words
    let z := dims d.words
    rowsApart b.fmt z.1 z.2 b.stride → 0 < fmtBits b.fmt →
    ∃ s' d', exec (c t k) s = .next s' ∧ s.keepsBut s' [.fab, .regs] ∧
      writesRows s.fab.mould s'.fab.mould (mouldAt (k / 2) b.addr) b.fmt z.1 z.2 b.stride (v s k d) ∧
      (s'.cru k).run = some d' ∧ (s'.cru k).queue = (s.cru k).queue ∧ d'.stage = 3 ∧ d'.words = d.words ∧ (∀ j, j ≠ (k : Nat) → s'.cru j = s.cru j) ∧
      s'.fab = { s.fab with mould := s'.fab.mould, crus := s'.fab.crus, fets := s'.fab.fets }

/-- The value of a finite number with no fraction. -/
def Num.whole : Num → Int
  | .fin neg m e => (if neg then -(m : Int) else m) * 2 ^ e.toNat
  | _ => 0

/-! ### Orders and results -/

/-- The result of order `o` can go to its ring: the host is not GONE, the ring is set up, and no result waits in the backlog (R81, R89). -/
def State.canAnswer (s : State) (o : Order) : Prop :=
  s.gone = false ∧ (∃ r g, o.ring = some r ∧ KMap.find s.host.rings r = some g) ∧ s.host.backlog.any (fun b => b.kind == 2) = false

/-- From `s` to `s'` order `o` is answered: its one result record stands in the next entry of its ring, with the order's seq, opcode, queue
and tag, and the order is no longer open (R81, R84, Table 4.5). -/
def State.answers (s s' : State) (o : Order) (code ctx v3 v4 : Nat) : Prop :=
  (∀ p ∈ s'.host.orders, p.id ≠ o.id) ∧
  ∃ r g g', o.ring = some r ∧ KMap.find s.host.rings r = some g ∧ KMap.find s'.host.rings r = some g' ∧ g'.written = g.written + 1 ∧
    let a := g.base + 32 * (g.written % 2 ^ g.log2)
    Mem.readLE s'.hostMem a 4 = o.seq % 65536 + o.opcode % 256 * 65536 + o.queue % 16 * 2 ^ 24
      + (1 - g.written / 2 ^ g.log2 % 2) * 2 ^ 31 ∧
    Mem.readLE s'.hostMem (a + 4) 4 = code % 65536 + ctx % 16 * 65536 ∧
    Mem.readLE s'.hostMem (a + 8) 4 = o.tag % 2 ^ 32 ∧
    Mem.readLE s'.hostMem (a + 12) 4 = v3 % 2 ^ 32 ∧
    Mem.readLE s'.hostMem (a + 16) 4 = v4 % 2 ^ 32

/-- Orders of the form `c`, with opcode `op`, collected and ready to start, not refused by R83, and such that `ok`, run as `post` says and
change none but the listed parts. -/
def ordersAs (c : Nat → Fin 16 → BitVec 16 → Instr) (op : Nat) (ok : State → Order → Prop) (parts : List Part)
    (post : State → State → Order → Prop) : Prop :=
  ∀ (s : State) (t : Nat) (q : Fin 16) (seq : BitVec 16) (o : Order), s.orderReady q seq.toNat op = some o →
    s.orderRefusal o = 0 → s.canAnswer o → ok s o →
    ∃ s', exec (c t q seq) s = .next s' ∧ s.keepsBut s' parts ∧ post s s' o

/-! ### The security mailbox -/

/-- The mailbox shows the end of command `cmd`: its state and code, and its response `bs`, cut to 8 KiB (R444). -/
def State.mbShows (s : State) (cmd code : Nat) (bs : List Byte) : Prop :=
  s.rd R.SEC_MB_CMD = cmd ∧ s.rd R.SEC_MB_STAT = (if code = 0 then 2 else 3) + code * 2 ^ 16 ∧
  s.rd R.SEC_MB_RLEN = min 8192 bs.length ∧
  ∀ i < min 8192 bs.length, s.rd (R.SEC_MB_RSP + 4 * (i / 4)) / 256 ^ (i % 4) % 256 = (nth bs i 0).toNat

/-! ### Commands at large -/

/-- Command `c` completes from `s`: exec answers a next state that keeps every part but those listed, and has `post`. -/
def State.gives (s : State) (c : Instr) (parts : List Part) (post : State → Prop) : Prop :=
  ∃ s', exec c s = .next s' ∧ s.keepsBut s' parts ∧ post s'

/-- Command `c` completes from `s` and changes nothing. -/
def State.givesNothing (s : State) (c : Instr) : Prop := ∃ s', exec c s = .next s' ∧ s.keepsBut s' []

/-- SCH has no context to look after but context 0, and no pour. -/
def State.schIdle (s : State) : Prop := s.sch.ctxs = [(0, {})] ∧ s.sch.pours = []

/-- The parts that raising an event may change: rings, log and counts. -/
def raiseParts : List Part := [.free, .regs, .host, .hostMem, .dbg]

/-- The parts that an event with its EVENT record, or any journal record, may change. -/
def recordParts : List Part := [.jrn, .line] ++ raiseParts

end Sys2Proof.Machine
end

