-- ==== Sys2Proof/Certificates/Slice0/Obligations.lean ====
section
/-! DEFINITION. The statements about the model: what every step does, what each family of commands does, and what it leaves alone. -/

section

open Sys2Proof Sys2Proof.Machine

/-! ### The queue and every step -/

/-- A step takes the command at the front of the queue and runs it with the queue's rest. -/
def Obligations.StepRunsFront : Prop :=
  ∀ (c : Instr) (rest : List Instr) (s : State), s.pending = c :: rest → step s = exec c { s with pending := rest }

/-- On an empty queue the block idles (the model's choice, log 10). -/
def Obligations.IdleStep : Prop := ∀ s : State, s.pending = [] → step s = .next s

/-- No command ends a run: each answers a next state from every state. Readings the rules leave open rest on log 2 and 7. -/
def Obligations.EveryCommandAnswers : Prop := ∀ (c : Instr) (s : State), ∃ s', exec c s = .next s'

/-- Every step leaves the pins at the levels the state drives, and MSMB_ALERT# low while a cause of it is in force (R467). Readings the
rules leave open rest on log 91. -/
def Obligations.PinsFollowStep : Prop :=
  ∀ s s' : State, s.pinsFollow = true → s.alertShown = true → step s = .next s' → s'.pinsFollow = true ∧ s'.alertShown = true

/-- R394: in the field safe state every output is off and the line-halt contact open, whatever command has just run. -/
def Obligations.FieldSafeHoldsOutputs : Prop :=
  ∀ s s' : State, s.pinsFollow = true → step s = .next s' → s'.fieldOff = true

/-- After reset the pins follow the state, no alert is hidden, and the memories are in canonical form. The spec's reset values: no output
is energised and the line-halt contact is open, the field safe state is in force (R49, R390, R394); nothing is agreed and the host is
absent (R71, R87); the device is in S0, out of its safe state, with time FREE and not set (R417, R460); no command waits. Readings the
rules leave open rest on log 1 and 91. -/
def Obligations.ResetInvariants : Prop :=
  State.reset.pinsFollow = true ∧ State.reset.alertShown = true ∧ State.reset.fieldOff = true ∧ State.reset.memWf = true ∧
  State.reset.pins.dq = 0 ∧ State.reset.pins.lhClosed = false ∧ State.reset.ron.safe = true ∧ State.reset.agreed = false ∧
  State.reset.attached = false ∧ State.reset.gone = false ∧ State.reset.pwr.state = 0 ∧ State.reset.safe = false ∧
  State.reset.servo = 0 ∧ State.reset.bit R.TIM_STAT 3 = false ∧ State.reset.pending = []

/-! ### Fettlers: scalar instructions (Chapter 11) -/

/-- Table 11.2: each class 0 instruction writes its result to x[d] and goes on at the next word; nothing else changes. -/
def Obligations.ScalarArithmetic : Prop :=
  let z := fun (w : AluF) (_ : Fet) => w.sh = 0
  let u := fun (w : AluF) (_ : Fet) => w.sh = 0 ∧ w.b = 0
  let k := fun (w : AluF) (_ : Fet) => w.b = 0
  let put := fun (r : W64 → W64 → W64) (w : AluF) (f : Fet) => (f.wx w.d (r (f.rx w.a) (f.rx w.b))).goto (f.pc + 4)
  let imm := fun (r : W64 → Nat → W64) (w : AluF) (f : Fet) => (f.wx w.d (r (f.rx w.a) w.sh.toNat)).goto (f.pc + 4)
  retiresAs Instr.add z (put fun a b => a + b) ∧
  retiresAs Instr.sub z (put fun a b => a - b) ∧
  retiresAs Instr.and z (put fun a b => a &&& b) ∧
  retiresAs Instr.or z (put fun a b => a ||| b) ∧
  retiresAs Instr.xor z (put fun a b => a ^^^ b) ∧
  retiresAs Instr.sll z (put fun a b => a <<< (b.extractLsb' 0 6)) ∧
  retiresAs Instr.srl z (put fun a b => a >>> (b.extractLsb' 0 6)) ∧
  retiresAs Instr.sra z (put fun a b => a.sshiftRight (b.extractLsb' 0 6).toNat) ∧
  retiresAs Instr.slt z (put fun a b => if a.toInt < b.toInt then 1 else 0) ∧
  retiresAs Instr.sltu z (put fun a b => if a.toNat < b.toNat then 1 else 0) ∧
  retiresAs Instr.mul z (put fun a b => a * b) ∧
  retiresAs Instr.mulh z (put fun a b => (a.signExtend 128 * b.signExtend 128).extractLsb' 64 64) ∧
  retiresAs Instr.mulhu z (put fun a b => (a.setWidth 128 * b.setWidth 128).extractLsb' 64 64) ∧
  retiresAs Instr.div z (put fun a b => if b = 0 then -1 else a.sdiv b) ∧
  retiresAs Instr.divu z (put fun a b => if b = 0 then -1 else a / b) ∧
  retiresAs Instr.rem z (put fun a b => if b = 0 then a else a.srem b) ∧
  retiresAs Instr.remu z (put fun a b => if b = 0 then a else a % b) ∧
  retiresAs Instr.min z (put fun a b => if a.toInt < b.toInt then a else b) ∧
  retiresAs Instr.max z (put fun a b => if a.toInt < b.toInt then b else a) ∧
  retiresAs Instr.minu z (put fun a b => if a.toNat < b.toNat then a else b) ∧
  retiresAs Instr.maxu z (put fun a b => if a.toNat < b.toNat then b else a) ∧
  retiresAs Instr.addw z (put fun a b => ((a.setWidth 32 + b.setWidth 32 : BitVec 32)).signExtend 64) ∧
  retiresAs Instr.subw z (put fun a b => ((a.setWidth 32 - b.setWidth 32 : BitVec 32)).signExtend 64) ∧
  retiresAs Instr.clz u (put fun a _ => a.clz) ∧
  retiresAs Instr.ctz u (put fun a _ => a.ctz) ∧
  retiresAs Instr.popc u (put fun a _ => BitVec.ofNat 64 ((List.range 64).countP fun j => a.getLsbD j)) ∧
  retiresAs Instr.slli k (imm fun a n => a <<< n) ∧
  retiresAs Instr.srli k (imm fun a n => a >>> n) ∧
  retiresAs Instr.srai k (imm fun a n => a.sshiftRight n)

/-- R217: x0 reads 0 and p0 reads all ones, whatever is written to them; every other register reads what was written last. A task starts
with every register at 0 but p0. -/
def Obligations.ConstantRegisters : Prop :=
  ∀ (f : Fet) (v : W64),
    (f.wx 0 v).rx 0 = 0 ∧ f.wx 0 v = f ∧ (f.wp 0 v).rp 0 = BitVec.allOnes 64 ∧ f.wp 0 v = f ∧
    (∀ n : BitVec 5, n ≠ 0 → (f.wx n v).rx n = v ∧ ∀ m : BitVec 5, m ≠ n → (f.wx n v).rx m = f.rx m) ∧
    (∀ n : Nat, n ≠ 0 → (f.wp n v).rp n = v ∧ ∀ m : Nat, m ≠ n → (f.wp n v).rp m = f.rp m) ∧
    (∀ (n : BitVec 5) (u : BitVec 512), (f.wv n u).rv n = u ∧ ∀ m : BitVec 5, m ≠ n → (f.wv n u).rv m = f.rv m) ∧
    ∀ (s : State) (i x id k : Nat) (d : TaskDecl), ∃ g, (s.startTask i x id k d).fet i = some g ∧ g.pc = d.entry ∧
      (∀ n, g.rx n = 0) ∧ (∀ n, g.rv n = 0) ∧ g.rp 0 = BitVec.allOnes 64 ∧ ∀ n : Nat, n ≠ 0 → g.rp n = 0

/-- R226: a branch whose condition holds goes on at pc + sext(f, 12) × 4, else at pc + 4; nothing but the pc changes. R224, R227, R222:
`ADDI`, `JAL`, and the wide prefix in front of either, whose 44-bit immediate replaces the 17-bit one; a wide prefix in front of any other
class traps with cause ILLEGAL at the prefix. -/
def Obligations.JumpsAndBranches : Prop :=
  (let any := fun (_ : BrF) (_ : Fet) => True
   let p := fun (w : BrF) (_ : Fet) => w.a.toNat < 8 ∧ w.b = 0
   let go := fun (c : BrF → Fet → Bool) (w : BrF) (f : Fet) => f.goto (if c w f then f.pc + w.f.signExtend 48 * 4 else f.pc + 4)
   retiresAs Instr.beq any (go fun w f => f.rx w.a = f.rx w.b) ∧
   retiresAs Instr.bne any (go fun w f => f.rx w.a ≠ f.rx w.b) ∧
   retiresAs Instr.blt any (go fun w f => (f.rx w.a).toInt < (f.rx w.b).toInt) ∧
   retiresAs Instr.bge any (go fun w f => (f.rx w.b).toInt ≤ (f.rx w.a).toInt) ∧
   retiresAs Instr.bltu any (go fun w f => (f.rx w.a).toNat < (f.rx w.b).toNat) ∧
   retiresAs Instr.bgeu any (go fun w f => (f.rx w.b).toNat ≤ (f.rx w.a).toNat) ∧
   retiresAs Instr.bany p (go fun w f => f.rp w.a.toNat ≠ 0) ∧
   retiresAs Instr.bnone p (go fun w f => f.rp w.a.toNat = 0)) ∧
  let puts := fun (d a : BitVec 5) (imm : W64) (len : BitVec 48) (f : Fet) =>
    let target : W64 := if a = 0 then f.pc.setWidth 64 + imm * 4 else f.rx a + imm * 4
    (f.wx d ((f.pc + len).setWidth 64)).goto (target.setWidth 48)
  let aligned := fun (a : BitVec 5) (f : Fet) => a = 0 ∨ (f.rx a).toNat % 4 = 0
  retiresAs Instr.addi (fun _ _ => True) (fun w f => (f.wx w.d (f.rx w.a + w.imm.signExtend 64)).goto (f.pc + 4)) ∧
  retiresAs Instr.jal (fun w f => aligned w.a f) (fun w f => puts w.d w.a (w.imm.signExtend 64) 4 f) ∧
  trapsAs Instr.jal (fun w _ _ f => w.a ≠ 0 ∧ (f.rx w.a).toNat % 4 ≠ 0)
    (fun w f => (2, 0, (f.rx w.a + w.imm.signExtend 64 * 4).toNat)) ∧
  ∀ (s : State) (t : Nat) (i : Fin 128) (f : Fet) (hi : BitVec 27) (cls d a : BitVec 5) (low : BitVec 17), s.fetReady i 8 f →
    let imm : W64 := (hi ++ low : BitVec 44).signExtend 64
    let next : W32 := ((cls ++ d : BitVec 10) ++ a : BitVec 15) ++ low
    (cls = 1 → ∃ s', exec (.widePrefix t i hi next) s = .next s' ∧ s.retires s' i ((f.wx d (f.rx a + imm)).goto (f.pc + 8))) ∧
    (cls = 5 → aligned a f → ∃ s', exec (.widePrefix t i hi next) s = .next s' ∧ s.retires s' i (puts d a imm 8 f)) ∧
    (cls ≠ 1 → cls ≠ 5 → f.handles → ∃ s', exec (.widePrefix t i hi next) s = .next s' ∧ s.keepsBut s' [.fab] ∧
      s'.fab = { s.fab with fets := KMap.put s.fab.fets i (f.inHandler 1 0 (31 * 2 ^ 27 + hi.toNat)) })

/-! ### Fettlers: loads and stores -/

/-- R225, Table 11.3: each load reads the mould or device memory at X[a] + sext(off13, 13) and extends what it reads as its size code
says; it changes nothing but x[d] and the pc. Each store puts the low bytes of x[d] at its address; every other byte of the mould and of
device memory, and every register but the pc, keeps its value. -/
def Obligations.ScalarLoadsAndStores : Prop :=
  loadsAs Instr.lb 1 (fun v => (BitVec.ofNat 8 v).signExtend 64) ∧
  loadsAs Instr.lh 2 (fun v => (BitVec.ofNat 16 v).signExtend 64) ∧
  loadsAs Instr.lw 4 (fun v => (BitVec.ofNat 32 v).signExtend 64) ∧
  loadsAs Instr.ld 8 (fun v => BitVec.ofNat 64 v) ∧
  loadsAs Instr.lbu 1 (fun v => (BitVec.ofNat 8 v).setWidth 64) ∧
  loadsAs Instr.lhu 2 (fun v => (BitVec.ofNat 16 v).setWidth 64) ∧
  loadsAs Instr.lwu 4 (fun v => (BitVec.ofNat 32 v).setWidth 64) ∧
  storesAs Instr.sb 1 ∧ storesAs Instr.sh 2 ∧ storesAs Instr.sw 4 ∧ storesAs Instr.sd 8

/-- R225, R218, R171, R188: misaligned accesses trap with cause ALIGN, addresses that are not canonical with ADDR, mould addresses outside
the mould or outside the regions of the context with MOULD, loads from a protected region with PROTECTED, and accesses of fewer than four
bytes through the device register window with DEVREG; nothing else changes. Readings the rules leave open rest on log 43. -/
def Obligations.AccessTraps : Prop :=
  accessTraps Instr.lb 1 true ∧ accessTraps Instr.lh 2 true ∧ accessTraps Instr.lw 4 true ∧ accessTraps Instr.ld 8 true ∧
  accessTraps Instr.lbu 1 true ∧ accessTraps Instr.lhu 2 true ∧ accessTraps Instr.lwu 4 true ∧
  accessTraps Instr.sb 1 false ∧ accessTraps Instr.sh 2 false ∧ accessTraps Instr.sw 4 false ∧ accessTraps Instr.sd 8 false

/-- R157, R158, R188: an edge record through the window that names the newest row opens the piece of an idle lane there, with that row's
edge count, stamp and generation, or, right after a gap, corrupt and with an uncertain edge at the gap; one that names a row of the open
piece's closes it there; and the fettler goes on. Outside the grant, for a row outside the history or before the lane's last edge, or out of
the order leading, trailing, it traps with cause DEVREG. The lane is occupied from its piece's opening on, and so is one whose piece is to be
continued. Readings the rules leave open rest on logs 38 and 112. -/
def Obligations.EdgeRecords : Prop :=
  ∀ (s : State) (t : Nat) (i : Fin 128) (r : Fin 16) (k : Fin 4) (kind : BitVec 2) (l : BitVec 4) (cls : BitVec 6) (no : BitVec 32)
    (rest : BitVec 20) (f : Fet), s.fetReady i 4 f →
    let word : BitVec 64 := no ++ (rest ++ (cls ++ (l ++ kind : BitVec 6) : BitVec 12) : BitVec 32)
    let j := 4 * (r : Nat) + k
    let x := s.seg j l.toNat
    let occupied := x.opened = true ∨ x.cont ≠ none
    let row := (s.slot j).hist.find? (fun h => h.1 % 2 ^ 32 == no.toNat)
    let granted := (s.winGrant f).1.contains ((r : Nat), (k : Nat))
    let runs := fun s' : State => exec (.segPostWrite t i r k word) s = .next s' ∧ s'.fab = s.fab.retired i (f.goto (f.pc + 4))
    let traps := fun sub => ∃ s', exec (.segPostWrite t i r k word) s = .next s' ∧ s.keepsBut s' [.fab] ∧
      s'.fab = { s.fab with fets := KMap.put s.fab.fets i (f.inHandler 7 sub (R.RUN_SEG_POST r k)) }
    (∀ h c, granted = true → row = some h → x.lastEdge ≤ h.1 → kind = 1 → ¬ occupied → s.rowsFrom j h.1 = [c] →
      let g := if c.row.gap.isSome then c.lostGen else c.gen
      c.lost + 1 < s.maxRows g cls.toNat →
      ∃ s' q, runs s' ∧ s.keepsBut s' [.fab, .intk, .regs] ∧ s.regsBut s' [R.RUN_SEG_PIECES r k, R.RUN_SEG_CORRUPT r k] ∧
        s'.rd (R.RUN_SEG_PIECES r k) = (s.rd (R.RUN_SEG_PIECES r k) + 1) % 2 ^ 32 ∧
        s'.rd (R.RUN_SEG_CORRUPT r k) = (s.rd (R.RUN_SEG_CORRUPT r k) + b2n q.corrupt) % 2 ^ 32 ∧
        s'.intk.opens = s.intk.opens ++ [q] ∧ q.slot = j ∧ q.lane = l.toNat ∧ q.cls = cls.toNat ∧
        q.lead = (match c.row.gap with | some p => p.1 | none => c.row.count) ∧ q.leadTime = c.row.time ∧ q.gen = g ∧
        q.corrupt = (c.row.gap.isSome || c.row.bad) ∧ q.edgeUnc = c.row.gap.isSome ∧ (s'.seg j l.toNat).opened = true) ∧
    (∀ h, granted = true → row = some h → x.lastEdge ≤ h.1 → kind = 2 → x.opened = true → s.cutBy j x h.2.2.1 = false →
      ∃ s', runs s' ∧ s.keepsBut s' [.fab, .intk] ∧ s'.intk.opens = s.intk.opens ∧ (s'.seg j l.toNat).opened = false ∧
        s'.intk.trails = s.intk.trails ++ [if h.1 < x.leadRow then (x.rid, x.lead, 1, false)
          else (x.rid, h.2.1, x.rows - spanOf ((s.rowsFrom j x.leadRow).filter fun c => h.1 < c.no), false)]) ∧
    (granted = false → f.handles → traps 1) ∧
    (granted = true → row = none → f.handles → traps 2) ∧
    (∀ h, granted = true → row = some h → (h.1 < x.lastEdge ∨ (kind ≠ 1 ∧ kind ≠ 2) ∨ (kind = 1 ∧ occupied) ∨
      (kind = 2 ∧ ¬ occupied)) → f.handles → traps 2)

/-- R232: `VLD` gives every active lane its element of the mould and keeps the others; `VST` puts the active lanes at their elements'
addresses, the higher lane's value where two name one address, and leaves every other byte alone. Both need every active element aligned
to its size and in reach; nothing else but the pc changes. Readings the rules leave open rest on log 47. -/
def Obligations.VectorLoadsAndStores : Prop :=
  ∀ (s : State) (t : Nat) (i : Fin 128) (w : VlsF) (f : Fet), s.fetReady i 4 f → vlsLegal w = true →
    let z := vlsSize w
    let addr := fun k => (vlsAddr w f s.free k).toNat
    let on := fun k => k < 64 / z ∧ active (f.rp w.pred.toNat) (8 * z) k = true
    (∀ k, on k → addr k % z = 0 ∧ s.mouldOk (i / 4) f.ctx (addr k) z = true) → (w.mode = 0 → addr 0 % 64 = 0) →
    ((∀ k, on k → s.mouldProt (i / 4) f.ctx (addr k) z = false) →
      ∃ s' f', exec (.vld t i w) s = .next s' ∧ s.keepsBut s' [.fab, .free] ∧ s'.fab = s.fab.retired i f' ∧
        (∀ k < 64 / z, lane (f'.rv w.d) (8 * z) k = if active (f.rp w.pred.toNat) (8 * z) k
          then Mem.readLE s.fab.mould (mouldAt (i / 4) (addr k)) z else lane (f.rv w.d) (8 * z) k) ∧
        (∀ r, r ≠ w.d → f'.rv r = f.rv r) ∧ f' = { f with pc := f.pc + 4, v := f'.v }) ∧
    ∃ s', exec (.vst t i w) s = .next s' ∧ s.keepsBut s' [.fab, .free] ∧
      s'.fab = { s.fab.retired i (f.goto (f.pc + 4)) with mould := s'.fab.mould } ∧
      (∀ k, on k → (∀ l, on l → k < l → addr l ≠ addr k) → ∀ j < z,
        Mem.read s'.fab.mould (mouldAt (i / 4) (addr k) + j) = BitVec.ofNat 8 (lane (f.rv w.d) (8 * z) k / 2 ^ (8 * j))) ∧
      ∀ b, (∀ k, on k → b < mouldAt (i / 4) (addr k) ∨ mouldAt (i / 4) (addr k) + z ≤ b) →
        Mem.read s'.fab.mould b = Mem.read s.fab.mould b

/-! ### Fettlers: the vector unit -/

/-- Table 11.5, R229–R231: the class 6 operations that write lanes, and `VBCST`. -/
def Obligations.VectorLanes : Prop :=
  let n := fun (w : VecF) => laneBits w.et.toNat
  let lanes := fun (c : Nat → Fin 128 → VecF → Instr) (ok : VecF → Bool) (g : Nat → Nat → Nat → Nat → Nat → Nat × Nat) =>
    lanesAs c (·.d) (·.pred) n (fun w => w.et != 7 && ok w) (fun w f k =>
      g w.et.toNat ((f.rc 1).toNat % 4) (lane (f.rv w.d) (n w) k) (lane (f.rv w.a) (n w) k) (lane (f.rv w.b) (n w) k))
  let any := fun (_ : VecF) => true
  let b0 := fun (w : VecF) => w.b == 0
  let ints := fun (w : VecF) => decide (w.et.toNat < 4)
  let arith := fun (op : Nat) (g : Nat → Nat → Nat → Nat → Int) (et mode d a b : Nat) =>
    if 4 ≤ et then floatLane op (etFmt et) mode d a b else (wrapI (g (laneBits et) d a b) (laneBits et), 0)
  lanes Instr.vadd any (arith 0 fun _ _ a b => a + b) ∧
  lanes Instr.vsub any (arith 1 fun _ _ a b => (a : Int) - b) ∧
  lanes Instr.vmul any (arith 2 fun _ _ a b => a * b) ∧
  lanes Instr.vfma any (arith 3 fun _ d a b => d + a * b) ∧
  lanes Instr.vmin any (arith 4 fun n _ a b => min (sextI a n) (sextI b n)) ∧
  lanes Instr.vmax any (arith 5 fun n _ a b => max (sextI a n) (sextI b n)) ∧
  lanes Instr.vand any (fun _ _ _ a b => (a &&& b, 0)) ∧
  lanes Instr.vor any (fun _ _ _ a b => (a ||| b, 0)) ∧
  lanes Instr.vxor any (fun _ _ _ a b => (a ^^^ b, 0)) ∧
  lanes Instr.vsll ints (fun et _ _ a b => (a * 2 ^ (b % laneBits et), 0)) ∧
  lanes Instr.vsrl ints (fun et _ _ a b => (a / 2 ^ (b % laneBits et), 0)) ∧
  lanes Instr.vsra ints (fun et _ _ a b => (wrapI (sextI a (laneBits et) / (2 ^ (b % laneBits et) : Nat)) (laneBits et), 0)) ∧
  lanes Instr.vabs b0 (fun et _ _ a _ =>
    (if 4 ≤ et then floatSign (etFmt et) a true else wrapI (sextI a (laneBits et)).natAbs (laneBits et), 0)) ∧
  lanes Instr.vneg b0 (fun et _ _ a _ =>
    (if 4 ≤ et then floatSign (etFmt et) a false else wrapI (-(a : Int)) (laneBits et), 0)) ∧
  lanesAs Instr.vbcst (·.d) (·.pred) n (fun w => w.et != 7 && w.b == 0) (fun w f _ => ((f.rx w.a).toNat, 0))

/-- R229, R230: a compare sets every predicate bit of an active lane where it holds and clears all others; NaN compares false. `VSEL`
writes every lane from V[a] or V[b], and `VEXTX` moves one lane to x[d]. -/
def Obligations.VectorComparesAndMoves : Prop :=
  let n := fun (w : VecF) => laneBits w.et.toNat
  let compares := fun (c : Nat → Fin 128 → VecF → Instr) (gi : Int → Int → Prop) (gf : Machine.Num → Machine.Num → Bool) =>
    ∀ (s : State) (t : Nat) (i : Fin 128) (w : VecF) (f : Fet), s.fetReady i 4 f → w.et ≠ 7 → w.d.toNat < 8 →
      ∃ s' v, exec (c t i w) s = .next s' ∧ s.retires s' i ((f.wp w.d.toNat v).goto (f.pc + 4)) ∧
        ∀ j < 64, v.getLsbD j = true ↔
          active (f.rp w.pred.toNat) (n w) (j / (n w / 8)) = true ∧
          (let a := lane (f.rv w.a) (n w) (j / (n w / 8))
           let b := lane (f.rv w.b) (n w) (j / (n w / 8))
           if 4 ≤ w.et.toNat then gf (numOf (etFmt w.et.toNat) a) (numOf (etFmt w.et.toNat) b) = true
           else gi (sextI a (n w)) (sextI b (n w)))
  compares Instr.vceq (fun a b => a = b) numEq ∧
  compares Instr.vclt (fun a b => a < b) numLess ∧
  compares Instr.vcle (fun a b => a ≤ b) (fun a b => numLess a b || numEq a b) ∧
  (∀ (s : State) (t : Nat) (i : Fin 128) (w : VecF) (f : Fet), s.fetReady i 4 f → w.et ≠ 7 →
    ∃ s' v, exec (.vsel t i w) s = .next s' ∧ s.retires s' i ((f.wv w.d v).goto (f.pc + 4)) ∧
      ∀ k < 512 / n w, lane v (n w) k =
        if active (f.rp w.pred.toNat) (n w) k then lane (f.rv w.a) (n w) k else lane (f.rv w.b) (n w) k) ∧
  retiresAs Instr.vextx (fun w _ => w.et ≠ 7 ∧ w.pred = 0) (fun w f =>
    let x := lane (f.rv w.a) (n w) ((f.rx w.b).toNat % (512 / n w))
    (f.wx w.d (if 4 ≤ w.et.toNat then BitVec.ofNat 64 x else BitVec.ofInt 64 (sextI x (n w)))).goto (f.pc + 4))

/-- R233: what a reduction of integer lanes is: `RSUM` the sum wrapped to the lane, `RSUMW` the exact sum, `RMIN` and `RMAX` the least and
the greatest active lane, or the identity where no lane is active. -/
def Obligations.IntegerReductions : Prop :=
  ∀ (et : Nat) (p : W64) (v : BitVec 512), et < 4 →
    let n := laneBits et
    let on := (List.range (512 / n)).filter (fun k => active p n k)
    let vals := on.map (fun k => sextI (lane v n k) n)
    reduce 0 et p v = (wrapI (sextI (wrapI vals.sum n) n) 64, 0) ∧
    reduce 3 et p v = (wrapI vals.sum 64, 0) ∧
    (∃ m : Int, reduce 1 et p v = (wrapI m 64, 0) ∧ (∀ x ∈ vals, m ≤ x) ∧ (vals ≠ [] → m ∈ vals) ∧
      (vals = [] → m = 2 ^ (n - 1) - 1)) ∧
    (∃ m : Int, reduce 2 et p v = (wrapI m 64, 0) ∧ (∀ x ∈ vals, x ≤ m) ∧ (vals ≠ [] → m ∈ vals) ∧
      (vals = [] → m = -2 ^ (n - 1)))

/-- R233, R235: the reductions write x[d] and their flags; the class 10 instructions write a predicate, or x[d] from one. -/
def Obligations.ReductionsAndPredicates : Prop :=
  let red := fun (c : Nat → Fin 128 → VecF → Instr) (op : Nat) (ok : VecF → Prop) =>
    retiresAs c (fun w _ => w.et ≠ 7 ∧ w.b = 0 ∧ ok w) (fun w f =>
      let r := reduce op w.et.toNat (f.rp w.pred.toNat) (f.rv w.a)
      let g := f.wx w.d (BitVec.ofNat 64 r.1)
      (if r.2 = 0 then g else g.flag r.2).goto (f.pc + 4))
  let p3 := fun (w : PredF) (_ : Fet) =>
    w.hi = 0 ∧ w.et = 0 ∧ w.d.toNat < 8 ∧ w.a.toNat < 8 ∧ w.b.toNat < 8
  let put := fun (r : W64 → W64 → W64) (w : PredF) (f : Fet) =>
    (f.wp w.d.toNat (r (f.rp w.a.toNat) (f.rp w.b.toNat))).goto (f.pc + 4)
  red Instr.rsum 0 (fun _ => True) ∧ red Instr.rmin 1 (fun _ => True) ∧ red Instr.rmax 2 (fun _ => True) ∧
  red Instr.rsumw 3 (fun w => w.et.toNat ≤ 2) ∧
  retiresAs Instr.pand p3 (put fun a b => a &&& b) ∧
  retiresAs Instr.por p3 (put fun a b => a ||| b) ∧
  retiresAs Instr.pxor p3 (put fun a b => a ^^^ b) ∧
  retiresAs Instr.pandn p3 (put fun a b => a &&& ~~~b) ∧
  retiresAs Instr.pnot (fun w f => p3 w f ∧ w.b = 0) (put fun a _ => ~~~a) ∧
  retiresAs Instr.pfromx (fun w _ => w.hi = 0 ∧ w.et = 0 ∧ w.d.toNat < 8 ∧ w.b = 0)
    (fun w f => (f.wp w.d.toNat (f.rx w.a)).goto (f.pc + 4)) ∧
  retiresAs Instr.ptox (fun w _ => w.hi = 0 ∧ w.et = 0 ∧ w.a.toNat < 8 ∧ w.b = 0)
    (fun w f => (f.wx w.d (f.rp w.a.toNat)).goto (f.pc + 4)) ∧
  (∀ (s : State) (t : Nat) (i : Fin 128) (w : PredF) (f : Fet), s.fetReady i 4 f →
    w.hi = 0 → w.et ≠ 7 → w.d.toNat < 8 → w.b = 0 →
    ∃ s' v, exec (.planes t i w) s = .next s' ∧ s.retires s' i ((f.wp w.d.toNat v).goto (f.pc + 4)) ∧
      ∀ j < 64, v.getLsbD j = decide (j / (laneBits w.et.toNat / 8) < (f.rx w.a).toNat)) ∧
  retiresAs Instr.pcount (fun w _ => w.hi = 0 ∧ w.et ≠ 7 ∧ w.a.toNat < 8 ∧ w.b = 0) (fun w f =>
    (f.wx w.d (BitVec.ofNat 64 ((List.range (512 / laneBits w.et.toNat)).countP
      (fun k => active (f.rp w.a.toNat) (laneBits w.et.toNat) k)))).goto (f.pc + 4))

/-- R234, R243–R246: `VCVT` converts its elements, each lane under the destination's predicate (log 17), and the special functions work on
active F32 lanes; every lane not written keeps its value. -/
def Obligations.ConversionsAndSpecialFunctions : Prop :=
  let spec := fun (c : Nat → Fin 128 → SpecF → Instr) (g : Nat → Nat × Nat) =>
    lanesAs c (·.d) (·.pred) (fun _ => 32) (fun w => w.b == 0 && w.mid == 0) (fun w f k => g (lane (f.rv w.a) 32 k))
  spec Instr.vexp vexp ∧ spec Instr.vrcp vrcp ∧ spec Instr.vrsq vrsq ∧ spec Instr.vlog vlog ∧
  ∀ (s : State) (t : Nat) (i : Fin 128) (w : CvtF) (f : Fet), s.fetReady i 4 f → cvtLegal w = true → w.mode ≠ 4 →
    let sb := fmtBits w.sfmt.toNat
    let db := fmtBits w.dfmt.toNat
    let n := 512 / max sb db
    let lo := if db < sb then w.part.toNat * n else 0
    let at0 := if sb < db then w.part.toNat * n else 0
    ∃ s' f', exec (.vcvt t i w) s = .next s' ∧ s.retires s' i f' ∧
      (∀ j < 512 / db, lane (f'.rv w.d) db j =
        if lo ≤ j ∧ j < lo + n ∧ active (f.rp w.pred.toNat) db j = true then
          (convertTo w.dfmt.toNat w.mode.toNat 0 (numOf w.sfmt.toNat (lane (f.rv w.a) sb (at0 + (j - lo))))).bits % 2 ^ db
        else lane (f.rv w.d) db j) ∧
      (∀ r, r ≠ w.d → f'.rv r = f.rv r) ∧ (∀ j, j ≠ 0 → j ≠ 2 → f'.rc j = f.rc j) ∧
      f' = { f with pc := f.pc + 4, v := f'.v, csr := f'.csr }

/-! ### Fettlers: sync objects, queued commands, system instructions -/

/-- R236: `EVINC` adds X[b][31:0] to an event counter of its pour, `GCADD` adds X[b] to a gate counter and gives its old value, `EVWAIT`
on its own flask and `BAR` go on once the counter has reached X[b] or the epoch has passed it, and wait until then. Readings the rules
leave open rest on log 46. -/
def Obligations.SyncObjects : Prop :=
  ∀ (s : State) (t : Nat) (i : Fin 128) (w : QueF) (f : Fet), s.fetReady i 4 f → w.lo = 0 →
    let o := (f.rx w.a).toNat
    let x := (f.rx w.b).toNat
    let n := o / 256 % 32
    let c := o % 256
    let on := fun (g : Fet) (s' : State) => s.keepsBut s' [.fab] ∧ s'.fet i = some g ∧ ∀ j, j ≠ (i : Nat) → s'.fet j = s.fet j
    (w.d = 0 → s.evcOwned f.pour n c = true → ∃ s', exec (.evinc t i w) s = .next s' ∧ on (f.goto (f.pc + 4)) s' ∧
      s'.evc n c = (s.evc n c + x % 2 ^ 32) % 2 ^ 32 ∧ (∀ m d, d < 256 → ¬(m = n ∧ d = c) → s'.evc m d = s.evc m d) ∧
      s'.fab = { s.fab.retired i (f.goto (f.pc + 4)) with evcs := s'.fab.evcs }) ∧
    (s.gateOwned f.pour (o % 1024) = true → ∃ s', exec (.gcadd t i w) s = .next s' ∧
      on ((f.wx w.d (BitVec.ofNat 64 (KMap.getD s.fab.gcs (o % 1024) 0))).goto (f.pc + 4)) s' ∧
      KMap.getD s'.fab.gcs (o % 1024) 0 = (KMap.getD s.fab.gcs (o % 1024) 0 + x) % 2 ^ 64 ∧
      (∀ g, g ≠ o % 1024 → KMap.getD s'.fab.gcs g 0 = KMap.getD s.fab.gcs g 0) ∧
      s'.fab.dram = s.fab.dram ∧ s'.fab.mould = s.fab.mould) ∧
    (w.d = 0 → s.evcOwned f.pour n c = true → n = i / 4 → evcReached (s.evc n c) (x % 2 ^ 32) = true →
      ∃ s', exec (.evwait t i w) s = .next s' ∧ s.retires s' i (f.goto (f.pc + 4))) ∧
    (w.d = 0 → s.evcOwned f.pour n c = true → n = i / 4 → evcReached (s.evc n c) (x % 2 ^ 32) = false →
      ∃ s', exec (.evwait t i w) s = .next s' ∧ s'.fet i = some { f with wait := .evwait w }) ∧
    (∀ b, KMap.find s.fab.bars (o % 64) = some b → b.pour = f.pour → epochPassed b.epoch (x % 2 ^ 32) = true →
      ∃ s', exec (.bar t i w) s = .next s' ∧ s.retires s' i ((f.wx w.d (BitVec.ofNat 64 b.epoch)).goto (f.pc + 4))) ∧
    (∀ b, KMap.find s.fab.bars (o % 64) = some b → b.pour = f.pour → epochPassed b.epoch (x % 2 ^ 32) = false →
      ∃ s' b', exec (.bar t i w) s = .next s' ∧ on { f with wait := .bar w } s' ∧ KMap.find s'.fab.bars (o % 64) = some b' ∧
        (b.epoch = x % 2 ^ 32 → f.task ∈ b.parts → f.task ∈ b'.arrived) ∧ b' = { b with arrived := b'.arrived })

/-- R238, R239: `CAST` and `LDQ` queue the descriptor that stands at X[a] with the task's next ticket, and wait while the queue is full;
`CPOLL` tells whether a ticket is settled, and `CWAIT` and `LDW` go on once it is. Readings the rules leave open rest on log 2 and 46. -/
def Obligations.QueuedCommands : Prop :=
  let ticket := fun (f : Fet) (eng unit : Nat) => (Config.firstTicket.toNat + nth f.nextTicket (2 * eng + unit) 0) % 2 ^ 32
  let words := fun (s : State) (i : Fin 128) (a : Nat) =>
    (List.range 16).map (fun k => Mem.readLE s.fab.mould (mouldAt (i / 4) (a + 4 * k)) 4)
  let takes := fun (f f' : Fet) (w : QueF) (eng unit : Nat) =>
    f'.tickets = f.tickets ++ [{ eng := eng, unit := unit, num := ticket f eng unit, st := 0 }] ∧
    (∀ r, r ≠ 0 → f'.rx r = if r = w.d then BitVec.ofNat 64 (ticket f eng unit + unit * 2 ^ 32) else f.rx r) ∧
    f' = { f with pc := f.pc + 4, x := f'.x, tickets := f'.tickets, nextTicket := f'.nextTicket }
  (∀ (s : State) (t : Nat) (i : Fin 128) (w : QueF) (f : Fet), s.fetReady i 4 f → w.b = 0 → w.lo.toNat ≤ 1 →
    let a := (f.rx w.a).toNat
    let u := w.lo.toNat
    a % 64 = 0 → s.mouldOk (i / 4) f.ctx a 64 = true →
    ((s.cru (2 * (i / 4) + u)).queue.length < 32 → ∃ s' f', exec (.cast t i w) s = .next s' ∧ s.keepsBut s' [.fab] ∧
      s'.fet i = some f' ∧ takes f f' w 0 u ∧
      (s'.cru (2 * (i / 4) + u)).queue = (s.cru (2 * (i / 4) + u)).queue ++
        [{ words := words s i a, pour := f.pour, task := f.task, ctx := f.ctx, ticket := ticket f 0 u }] ∧
      s'.fab.dram = s.fab.dram ∧ s'.fab.mould = s.fab.mould) ∧
    (32 ≤ (s.cru (2 * (i / 4) + u)).queue.length → ∃ s', exec (.cast t i w) s = .next s' ∧ s.keepsBut s' [.fab] ∧
      s'.fab = { s.fab with fets := KMap.put s.fab.fets i { f with wait := .cast w } }) ∧
    ((s.ladle (i / 4) u).length < 16 → s.lFieldBad (i / 4) f.ctx (words s i a) = false →
      s.lRecordOk (i / 4) f.ctx (words s i a) = true → ∃ s' f', exec (.ldq t i w) s = .next s' ∧ s.keepsBut s' [.fab] ∧
      s'.fet i = some f' ∧ takes f f' w 1 u ∧
      s'.ladle (i / 4) u = s.ladle (i / 4) u ++
        [{ words := words s i a, pour := f.pour, task := f.task, ctx := f.ctx, ticket := ticket f 1 u }] ∧
      s'.fab.dram = s.fab.dram ∧ s'.fab.mould = s.fab.mould) ∧
    (16 ≤ (s.ladle (i / 4) u).length → ∃ s', exec (.ldq t i w) s = .next s' ∧ s.keepsBut s' [.fab] ∧
      s'.fab = { s.fab with fets := KMap.put s.fab.fets i { f with wait := .ldq w } })) ∧
  retiresAs Instr.cpoll (fun w _ => w.b = 0 ∧ w.lo = 0)
    (fun w f => (f.wx w.d (if f.settled 0 (f.rx w.a) then 1 else 0)).goto (f.pc + 4)) ∧
  retiresAs Instr.cwait (fun w f => w.b = 0 ∧ w.lo = 0 ∧ w.d = 0 ∧ f.settled 0 (f.rx w.a) = true) (fun _ f => f.goto (f.pc + 4)) ∧
  retiresAs Instr.ldw (fun w f => w.b = 0 ∧ w.lo = 0 ∧ w.d = 0 ∧ f.settled 1 (f.rx w.a) = true) (fun _ f => f.goto (f.pc + 4))

/-- R240, R242: CSR reads and writes, `YIELD`, `FENCE`, `ERET`, and `TRAP`, whose effect is its trap. Readings the rules leave open rest
on log 46. -/
def Obligations.SystemInstructions : Prop :=
  let next := fun (_ : SysF) (f : Fet) => f.goto (f.pc + 4)
  let bare := fun (w : SysF) (_ : Fet) => w.d = 0 ∧ w.a = 0 ∧ w.f = 0
  let readable := fun (w : SysF) => w.a = 0 ∧ (w.f.toNat ∈ csrRw ∨ w.f.toNat ∈ csrRo)
  (∀ (s : State) (t : Nat) (i : Fin 128) (w : SysF) (f : Fet), s.fetReady i 4 f → readable w → w.f ≠ 0x040 →
    ∃ s', exec (.csrd t i w) s = .next s' ∧ s.retires s' i ((f.wx w.d (
      if w.f = 0x041 then BitVec.ofNat 64 (KMap.getD s.fab.instret i 0)
      else if w.f = 0x042 then BitVec.ofNat 64 ((s.at' s'.now).tim.ns / 1000000000)
      else if w.f = 0x043 then BitVec.ofNat 64 ((s.at' s'.now).tim.ns % 1000000000)
      else f.rc w.f.toNat)).goto (f.pc + 4))) ∧
  (∀ (s : State) (t : Nat) (i : Fin 128) (w : SysF) (f : Fet), s.fetReady i 4 f → readable w → w.f = 0x040 →
    ∃ s' v, exec (.csrd t i w) s = .next s' ∧ s.keepsBut s' [.fab, .free] ∧
      s'.fab = s.fab.retired i ((f.wx w.d v).goto (f.pc + 4))) ∧
  retiresAs Instr.cswr (fun w f => w.d = 0 ∧ w.f.toNat ∈ csrRw ∧ (w.f = 0x001 → (f.rx w.a).toNat % 8 < 4))
    (fun w f => (f.wc w.f.toNat (f.rx w.a &&& csrMask w.f.toNat)).goto (f.pc + 4)) ∧
  trapsAs Instr.cswr (fun w _ _ f => w.d = 0 ∧ w.f = 0x001 ∧ 4 ≤ (f.rx w.a).toNat % 8)
    (fun w _ => (1, 0, 14 * 2 ^ 27 + w.a.toNat * 2 ^ 17 + 1 * 2 ^ 12 + 1)) ∧
  trapsAs (fun t i w => .trap t i (.instr w)) (fun w _ _ _ => w.d = 0 ∧ w.a = 0) (fun w _ => (9, 0, w.f.toNat)) ∧
  retiresAs Instr.yield bare next ∧
  retiresAs Instr.fence bare next ∧
  retiresAs Instr.eret (fun w f => bare w f ∧ (f.rc 0x22).getLsbD 63 = true)
    (fun _ f => (f.wc 0x22 (f.rc 0x22 &&& 0xFFFF)).goto ((f.rc 0x21).setWidth 48)) ∧
  trapsAs Instr.eret (fun w _ _ f => bare w f ∧ (f.rc 0x22).getLsbD 63 = false) (fun _ _ => (1, 0, 14 * 2 ^ 27 + 5 * 2 ^ 12))

/-- R241: `CHKPT` and `TEND` wait while a ticket of the task is outstanding, trap with cause SW and TVAL 0xFFF where one failed, and else
commit the task's token; `TEND` then ends the task, and its fettler is free. Readings the rules leave open rest on log 46. -/
def Obligations.CheckpointsAndTaskEnds : Prop :=
  (∀ (s : State) (t : Nat) (i : Fin 128) (w : SysF) (f : Fet) (p : Pour), s.fetReady i 4 f → w.d = 0 → w.f = 0 →
    f.outstanding = false → f.failed = false → s.pour f.pour = some p → f.task < p.tasks.length →
    ∃ s' p' f', exec (.chkpt t i w) s = .next s' ∧ s'.fet i = some f' ∧
      f' = { f with pc := f.pc + 4, pend := [], tickets := [], token := some (f.rx w.a).toNat } ∧
      s'.pour f.pour = some p' ∧ (nth p'.tasks f.task {}).token = (f.rx w.a).toNat ∧
      (∀ j, j ≠ (i : Nat) → s'.fet j = s.fet j) ∧ s'.fab.dram = s.fab.dram ∧ s'.fab.mould = s.fab.mould ∧
      s.keepsBut s' [.fab, .sch, .regs, .dbg]) ∧
  (∀ (s : State) (t : Nat) (i : Fin 128) (w : SysF) (f : Fet) (p : Pour) (d : TaskDecl) (c : Ctx), s.fetReady i 4 f →
    w.d = 0 → w.a = 0 → w.f = 0 → f.outstanding = false → f.failed = false →
    s.pour f.pour = some p → f.task < p.tasks.length → s.taskDecl f.pour f.task = some d → d.seq = false →
    s.ctx f.ctx = some c → (c.cls ≠ 2 ∨ ∃ k < p.tasks.length, k ≠ f.task ∧ (nth p.tasks k {}).st ≠ 3) →
    ∃ s' p', exec (.tend t i w) s = .next s' ∧ s'.fet i = none ∧ s'.pour f.pour = some p' ∧ (nth p'.tasks f.task {}).st = 3 ∧
      (nth p'.tasks f.task {}).token = f.token.getD (f.rc 0x36).toNat ∧
      (∀ j, j ≠ (i : Nat) → s'.fet j = s.fet j) ∧ s'.fab.dram = s.fab.dram ∧ s'.fab.mould = s.fab.mould ∧
      s.keepsBut s' [.fab, .sch, .regs, .dbg]) ∧
  (∀ (s : State) (t : Nat) (i : Fin 128) (w : SysF) (f : Fet), s.fetReady i 4 f → w.d = 0 → w.f = 0 → f.outstanding = true →
    (∃ s', exec (.chkpt t i w) s = .next s' ∧ s.keepsBut s' [.fab] ∧
      s'.fab = { s.fab with fets := KMap.put s.fab.fets i { f with wait := .chkpt w } }) ∧
    (w.a = 0 → ∃ s', exec (.tend t i w) s = .next s' ∧ s.keepsBut s' [.fab] ∧
      s'.fab = { s.fab with fets := KMap.put s.fab.fets i { f with wait := .tend w } })) ∧
  trapsAs Instr.chkpt (fun w _ _ f => w.d = 0 ∧ w.f = 0 ∧ f.outstanding = false ∧ f.failed = true) (fun _ _ => (9, 0, 0xFFF)) ∧
  trapsAs Instr.tend (fun w _ _ f => w.d = 0 ∧ w.a = 0 ∧ w.f = 0 ∧ f.outstanding = false ∧ f.failed = true) (fun _ _ => (9, 0, 0xFFF))

/-- R250, R236, R238: a waiting fettler goes on once what it waits for has come. R174, R175: a barrier whose every participant has
arrived moves to its next epoch. -/
def Obligations.Waits : Prop :=
  (∀ (s : State) (t : Nat) (i : Fin 128) (w : QueF) (f : Fet), s.fet i = some f → s.fabricUp = true →
    s.stopped (i / 4) f.ctx = false →
    let o := (f.rx w.a).toNat
    let x := (f.rx w.b).toNat % 2 ^ 32
    let goes := fun g : Fet => ∃ s', exec (.fettlerWaitResume t i) s = .next s' ∧ s.retires s' i ({ g with wait := .none }.goto (f.pc + 4))
    (f.wait = .evwait w → s.evcOwned f.pour (o / 256 % 32) (o % 256) = true → o / 256 % 32 = i / 4 →
      evcReached (s.evc (o / 256 % 32) (o % 256)) x = true → goes f) ∧
    (∀ b, f.wait = .bar w → KMap.find s.fab.bars (o % 64) = some b → b.pour = f.pour → epochPassed b.epoch x = true →
      goes (f.wx w.d (BitVec.ofNat 64 b.epoch))) ∧
    (f.wait = .cwait w → f.settled 0 (f.rx w.a) = true → goes f) ∧
    (f.wait = .ldw w → f.settled 1 (f.rx w.a) = true → goes f)) ∧
  ∀ (s : State) (t : Nat) (b : Fin 64) (q : Barrier), KMap.find s.fab.bars b = some q → s.fabricUp = true →
    q.parts ≠ [] → (∀ k ∈ q.parts, k ∈ q.arrived) →
    ∃ s' q', exec (.barrierRelease t b) s = .next s' ∧ s.keepsBut s' [.fab] ∧ KMap.find s'.fab.bars b = some q' ∧
      q'.epoch = (q.epoch + 1) % 2 ^ 32 ∧ q'.parts = q.parts ∧ s'.fab.dram = s.fab.dram ∧ s'.fab.mould = s.fab.mould

/-- R236, Table 11.9: a sync object that is not the pour's, or an event counter of another flask for `EVWAIT`, traps with cause SYNC. R219,
R221: a fettler whose instruction has an unused field that is not 0, or a reserved code, traps with cause ILLEGAL and the word: one
instruction of each of six shapes, and every word whose class or operation code is reserved (log 102). -/
def Obligations.SyncAndIllegalTraps : Prop :=
  (let o := fun (w : QueF) (f : Fet) => (f.rx w.a).toNat
   let ev := fun (w : QueF) (s : State) (f : Fet) => s.evcOwned f.pour (o w f / 256 % 32) (o w f % 256)
   trapsAs Instr.evinc (fun w s _ f => w.lo = 0 ∧ w.d = 0 ∧ ev w s f = false) (fun w f => (8, 1, o w f)) ∧
   trapsAs Instr.evwait (fun w s i f => w.lo = 0 ∧ w.d = 0 ∧ (ev w s f = false ∨ o w f / 256 % 32 ≠ i / 4)) (fun w f => (8, 1, o w f)) ∧
   trapsAs Instr.bar (fun w s _ f => w.lo = 0 ∧ ∀ b, KMap.find s.fab.bars (o w f % 64) = some b → b.pour ≠ f.pour)
     (fun w f => (8, 2, o w f)) ∧
   trapsAs Instr.gcadd (fun w s _ f => w.lo = 0 ∧ s.gateOwned f.pour (o w f % 1024) = false) (fun w f => (8, 3, o w f))) ∧
  trapsAs Instr.add (fun w _ _ _ => w.sh ≠ 0) (fun w _ => (1, 0, fword 0 w.d.toNat w.a.toNat w.b.toNat (0 + w.sh.toNat * 64))) ∧
  trapsAs Instr.popc (fun w _ _ _ => w.sh ≠ 0 ∨ w.b ≠ 0)
    (fun w _ => (1, 0, fword 0 w.d.toNat w.a.toNat w.b.toNat (25 + w.sh.toNat * 64))) ∧
  trapsAs Instr.bany (fun w _ _ _ => 8 ≤ w.a.toNat ∨ w.b ≠ 0) (fun w _ => (1, 0, fword 4 6 w.a.toNat w.b.toNat w.f.toNat)) ∧
  trapsAs Instr.vadd (fun w _ _ _ => w.et = 7)
    (fun w _ => (1, 0, fword 6 w.d.toNat w.a.toNat w.b.toNat (w.et.toNat * 64 + w.pred.toNat * 512))) ∧
  trapsAs Instr.vld (fun w _ _ _ => w.mode = 3 ∨ (w.mode = 0 ∧ (w.b ≠ 0 ∨ w.esize ≠ 0)))
    (fun w _ => (1, 0, fword 7 w.d.toNat w.a.toNat w.b.toNat (w.pred.toNat * 256 + w.mode.toNat * 64 + w.esize.toNat * 16 + w.off.toNat))) ∧
  trapsAs Instr.csrd (fun w _ _ _ => w.a ≠ 0 ∨ (w.f.toNat ∉ csrRw ∧ w.f.toNat ∉ csrRo))
    (fun w _ => (1, 0, fword 14 w.d.toNat w.a.toNat 0 w.f.toNat)) ∧
  trapsAs (fun t i (v : W32) => .trap t i (.raw v))
    (fun v _ _ _ => wordLegal v.toNat = false ∧ v.toNat / 2 ^ 27 % 32 ≠ 31) (fun v _ => (1, 0, v.toNat))

/-! ### Crucibles -/

/-- R262–R267, R269, R270: the commands that accumulate add the terms of their rectangle to the cells of their tile. -/
def Obligations.AccumulatingCommands : Prop :=
  let all := fun (_ : List Nat) => true
  let op := fun (k : Nat) (w : List Nat) => dOp w == k
  accumulatesAs Instr.mma 1 all (fun s k d => s.mmaTerms (k / 2) d.words) ∧
  accumulatesAs Instr.conv 2 all (fun s k d => s.convTerms k d.words) ∧
  accumulatesAs Instr.dwconv 3 all (fun s k d => s.dwTerms k d.words) ∧
  accumulatesAs Instr.poolSum 4 (op 0) (fun s k d => s.poolTerms k d.words) ∧
  accumulatesAs Instr.ewiseMul 5 (op 0) (fun s k d => s.ewiseTerm k d.words 0) ∧
  accumulatesAs Instr.ewiseAdd 5 (op 1) (fun s k d => s.ewiseTerm k d.words 1) ∧
  accumulatesAs Instr.ewiseQadd 5 (op 2) (fun s k d => s.ewiseTerm k d.words 2) ∧
  accumulatesAs Instr.attnQk 7 all (fun s k d => s.qkTerms k d.words) ∧
  accumulatesAs Instr.attnPv 8 all (fun s k d => s.pvTerms k d.words)

/-- R204, R205, R207, R262: on integer operands a cell of `MMA` gains exactly the sum of (A − za)(B − zb) over the inner dimension, with a
finite tag and nothing lost. -/
def Obligations.IntegerMatrixProduct : Prop :=
  ∀ (s : State) (n : Nat) (w : List Nat) (i j : Nat),
    let A := tref w 2
    let B := tref w 4
    let int := fun (f : Nat) => f = 1 ∨ f = 3 ∨ f = 4 ∨ f = 5 ∨ f = 6
    int A.fmt → int B.fmt → dType w = 1 → A.space = 0 → B.space = 0 →
    s.mmaTerms n w i j =
      { v := ((List.range (dfld w 6 13 16 + 1)).map (fun e =>
          ((s.mval n (A.addr + i * A.stride * 64) A.fmt e).whole - dsgn w 8 0 16) *
          ((s.mval n (B.addr + j * B.stride * 64) B.fmt e).whole - dsgn w 8 16 16))).sum
        tag := 0, uf := 0 }

/-- R265, R267, R271, R211: `POOL` MAX and MIN, `ACCMOVE` and `LAYOUT` write their elements to the mould, row by row. Readings the rules
leave open rest on log 2. -/
def Obligations.WritingCommands : Prop :=
  let rect := fun (w : List Nat) => ((dRect w).m, (dRect w).n)
  let plain := fun (f : Nat) => f ≠ 13 && f ≠ 14 && f ≠ 15
  writesAs Instr.poolMax 4 (fun w => dOp w == 1) (tref · 4) rect (fun s k d => s.poolPick k d.words true) ∧
  writesAs Instr.poolMin 4 (fun w => dOp w == 2) (tref · 4) rect (fun s k d => s.poolPick k d.words false) ∧
  writesAs Instr.accmove 6 (fun w => dfld w 7 30 1 == 0 && (tref w 2).fmt != 15) (tref · 2) rect
    (fun s k d i j => (s.drainElem d (s.tile k (dfld d.words 0 4 2)) i j).2.1) ∧
  writesAs Instr.layout 9 (fun w => plain (tref w 2).fmt && plain (tref w 4).fmt && dfld w 7 0 1 == 0) (tref · 4) dLayout
    (fun s k d i j => (convertTo (tref d.words 4).fmt (dfld d.words 7 1 3) (s.layoutDraw d (i * (dLayout d.words).2 + j))
      (s.layoutSrc (k / 2) d.words i j).1).bits)

/-- R252, R254, R256, R335: a descriptor that passes its checks and whose fetch is complete asks for a permit of its charge, or waits for
the command before it to complete; one that fails a check is refused, its record written and its ticket settled as failed. Readings the
rules leave open rest on log 15 and 51. -/
def Obligations.DescriptorLoads : Prop :=
  ∀ (s : State) (t : Nat) (c : Fin 64) (d : CDesc) (rest : List CDesc) (e : LineErr),
    (s.cru c).queue = d :: rest → s.crucibleUp = true → d.stage = 0 → d.parked = none → s.stopped (c / 2) d.ctx = false →
    let w := d.words
    let es := s.pageList (c / 2) d.ctx w
    let reason := s.dReason (c / 2) d.ctx c w es d.pour d.task
    let rs := fetchRanges w es
    (reason = 0 → dCost w ≤ 50000 → s.stageClash c w es = false → s.fetchRes d.ctx rs = none → e.bad = false →
      s.fetchPoison d.ctx rs = none →
      ∃ s' d', exec (.descriptorLoad t c e) s = .next s' ∧
        s.keepsBut s' (if rs = [] then [.fab, .permits] else [.fab, .permits, .regs, .meter, .free]) ∧
        (s'.cru c).queue = d' :: rest ∧ (s'.cru c).run = (s.cru c).run ∧ d'.parked = none ∧ d'.pins = rs ∧
        ({ d' with stage := 0, askedAt := d.askedAt, pins := d.pins, stageLen := d.stageLen, scales := d.scales } : CDesc) = d ∧
        s'.fab.dram = s.fab.dram ∧ (rs = [] → s'.fab.mould = s.fab.mould) ∧
        ((s.cru c).run = none → d'.stage = 1 ∧ d'.askedAt = s'.now ∧ s'.permits = { s.permits with waiting := s'.permits.waiting } ∧
          s'.permits.waiting.Perm
            ({ ladle := false, unit := c, charge := chargeFactor (dRate w) * dCost w, at' := s'.now } :: s.permits.waiting)) ∧
        ((s.cru c).run ≠ none → d'.stage = 4 ∧ s'.permits = s.permits)) ∧
    (reason ≠ 0 → s.mouldOk (c / 2) d.ctx (dfld w 1 0 23) 32 = true →
      ∃ s', exec (.descriptorLoad t c e) s = .next s' ∧ s.keepsBut s' [.fab, .free, .regs, .host, .hostMem, .dbg] ∧
        (s'.cru c).queue = rest ∧ (s'.cru c).run = (s.cru c).run ∧
        Mem.readLE s'.fab.mould (mouldAt (c / 2) (dfld w 1 0 23)) 4 = E_DESC_FIELD + reason % 256 * 65536 + dType w * 2 ^ 24 ∧
        Mem.readLE s'.fab.mould (mouldAt (c / 2) (dfld w 1 0 23) + 28) 4 = d.ticket % 2 ^ 32 ∧
        (∀ b, (b < mouldAt (c / 2) (dfld w 1 0 23) ∨ mouldAt (c / 2) (dfld w 1 0 23) + 32 ≤ b) →
          Mem.read s'.fab.mould b = Mem.read s.fab.mould b) ∧
        ∀ i f, s.fet i = some f → f.pour = d.pour → f.task = d.task → ∃ f', s'.fet i = some f' ∧
          f'.tickets = f.tickets.map (fun k =>
            if k.eng = 0 ∧ k.unit = (c : Nat) % 2 ∧ k.num = d.ticket ∧ k.st = 0 then { k with st := 2 } else k))

/-- R337, R341: a grant of the oldest request that fits the window charges it and lets its crucible issue or its ladle go on; a new window
of 100 µs begins with nothing used, and `PWR_PERMIT_USED` shows the one that ended. -/
def Obligations.Permits : Prop :=
  ∀ (s : State) (t : Nat),
    let k := (s.at' t).tim.ns / 100000
    let used := if k = s.permits.window then s.permits.used else 0
    (∀ (r : PermitReq) (rest : List PermitReq), s.permits.waiting = r :: rest → s.crucibleUp = true →
      used + r.charge ≤ s.permitBudget →
      (r.ladle = true ∨ ((s.at' t).recentGrants).length < 8) →
      ∃ s', exec (.permitGrant t) s = .next s' ∧ s.keepsBut s' [.permits, .fab, .regs, .dbg] ∧
        s'.permits.waiting = rest ∧ s'.permits.used = used + r.charge ∧ s'.permits.window = k ∧
        (r.ladle = false → ∀ d l, (s.cru r.unit).queue = d :: l → d.stage = 1 →
          (s'.cru r.unit).queue = l ∧ (s'.cru r.unit).run = some { d with stage := 2 }) ∧
        (r.ladle = true → ∀ d l, s.ladle (r.unit / 2) (r.unit % 2) = d :: l →
          s'.ladle (r.unit / 2) (r.unit % 2) = { d with permit := true, permitWait := false } :: l)) ∧
    (k ≠ s.permits.window → ∃ s', exec (.permitWindow t) s = .next s' ∧ s.keepsBut s' [.permits, .regs] ∧
      s.regsBut s' [R.PWR_PERMIT_USED] ∧ s'.permits = { s.permits with window := k, used := 0 } ∧
      s'.rd R.PWR_PERMIT_USED = if k = s.permits.window + 1 then s.permits.used % 2 ^ 32 else 0)

/-- R275, Table 12.13, R238: a command that has run writes its record, adds 1 to its event counter where it names one, settles its ticket and leaves
its crucible free (R174; log 100). -/
def Obligations.CrucibleCompletes : Prop :=
  ∀ (s : State) (t : Nat) (c : Fin 64) (cycles : W32) (d : CDesc),
    (s.cru c).run = some d → (∀ e l, (s.cru c).queue = e :: l → e.stage ≠ 4) → d.stage = 3 → d.code = 0 → (∀ p, s.pour d.pour = some p → p.st ≠ 3) →
    (∀ x, s.ctx d.ctx = some x → x.endedAt = none) →
    (s.host.orders.find? (fun o => o.opcode == 6 && o.started && nth o.args 0 0 % 16 == d.ctx)) = none →
    (dUsesTile d.words = true → (s.tile c (dfld d.words 0 4 2)).stale = false) →
    let a := mouldAt (c / 2) (dfld d.words 1 0 23)
    s.mouldOk (c / 2) d.ctx (dfld d.words 1 0 23) 32 = true →
    ∃ s', exec (.crucibleComplete t c cycles) s = .next s' ∧ s.keepsBut s' [.fab] ∧ s'.cru c = { s.cru c with run := none } ∧
      Mem.readLE s'.fab.mould a 4 = dType d.words * 2 ^ 24 ∧
      Mem.readLE s'.fab.mould (a + 4) 4 = nth d.words 15 0 % 2 ^ 32 ∧
      Mem.readLE s'.fab.mould (a + 8) 4 = d.status % 2 ^ 32 ∧
      Mem.readLE s'.fab.mould (a + 16) 4 = min cycles.toNat (dCost d.words) % 2 ^ 32 ∧
      Mem.readLE s'.fab.mould (a + 20) 4 = dCost d.words % 2 ^ 32 ∧
      Mem.readLE s'.fab.mould (a + 28) 4 = d.ticket % 2 ^ 32 ∧
      (∀ b, (b < a ∨ a + 32 ≤ b) → Mem.read s'.fab.mould b = Mem.read s.fab.mould b) ∧
      s'.evc (c / 2) (dfld d.words 0 8 8) = (if dfld d.words 0 7 1 = 1 ∧ s.evcOwned d.pour (c / 2) (dfld d.words 0 8 8) = true
        then (s.evc (c / 2) (dfld d.words 0 8 8) + 1) % 2 ^ 32
        else s.evc (c / 2) (dfld d.words 0 8 8)) ∧
      ∀ i f, s.fet i = some f → f.pour = d.pour → f.task = d.task → ∃ f', s'.fet i = some f' ∧
        f'.tickets = f.tickets.map (fun k =>
          if k.eng = 0 ∧ k.unit = (c : Nat) % 2 ∧ k.num = d.ticket ∧ k.st = 0 then { k with st := 1 } else k)

/-! ### Ladles, translation, scrub -/

/-- R190, R335, R193, R239: a transfer of more than 1 MiB asks for a permit; else its elements move in index order, each whole before it
is counted. A fill of the local mould writes its pattern at every element, and completes with its record and its ticket. Readings the
rules leave open rest on log 50. -/
def Obligations.LadleTransfers : Prop :=
  ∀ (s : State) (t : Nat) (n : Fin 32) (l : Fin 2) (d : LDesc) (rest : List LDesc),
    s.ladle n l = d :: rest → s.fabricUp = true → s.stopped n d.ctx = false →
    let w := d.words
    let z := lEsize w
    let total := lTotal w
    (d.state < 2 → d.permitWait = false → 2 ^ 20 < d.left → d.permit = false →
      ∀ k err, ∃ s', exec (.ladleDescriptorStart t n l k err) s = .next s' ∧ s.keepsBut s' [.fab, .permits] ∧
        s'.ladle n l = { d with permitWait := true, askedAt := s'.now } :: rest ∧
        s'.permits = { s.permits with waiting := s'.permits.waiting } ∧ s'.permits.waiting.Perm
          ({ ladle := true, unit := 2 * n + l, charge := ceilDiv d.left 1024, at' := s'.now } :: s.permits.waiting) ∧
        s'.fab = { s.fab with ladles := s'.fab.ladles }) ∧
    (∀ bs, d.state < 2 → d.permitWait = false → (d.left ≤ 2 ^ 20 ∨ d.permit = true) → d.issued ≤ d.done → d.done < total →
      s.lRead n d.ctx w d.done none = .inl bs → (lKinds w).2 = 0 → s.mouldOk n d.ctx (lDst w d.done) z = true →
      ∃ s', exec (.ladleDescriptorStart t n l 1 none) s = .next s' ∧ s.keepsBut s' [.fab, .regs, .meter] ∧
        (s.lSrcProt n d.ctx w d.done = false → s.regsBut s' [R.FLK_LADLE_BYTES n l, R.FLK_LADLE_BYTES n l + 4]) ∧
        s'.ladle n l = { d with state := 1, done := d.done + 1 } :: rest ∧
        s'.rd64 (R.FLK_LADLE_BYTES n l) = (s.rd64 (R.FLK_LADLE_BYTES n l) + z) % 2 ^ 64 ∧
        (∀ j < bs.length, Mem.read s'.fab.mould (mouldAt n (lDst w d.done) + j) = nth bs j 0) ∧
        (∀ b, (b < mouldAt n (lDst w d.done) ∨ mouldAt n (lDst w d.done) + bs.length ≤ b) →
          Mem.read s'.fab.mould b = Mem.read s.fab.mould b) ∧
        s'.fab = { s.fab with mould := s'.fab.mould, ladles := s'.fab.ladles }) ∧
    (d.state = 1 → d.issued ≤ d.done → d.done ≤ total → (d.left ≤ 2 ^ 20 ∨ d.permit = true) → lFill w = true → (lKinds w).2 = 0 →
      (∀ e < total, lDst w e % 64 = 0 ∧ s.mouldOk n d.ctx (lDst w e) z = true) → s.lRecordOk n d.ctx w = true →
      (∀ e < total, lDst w e + z ≤ dfld w 14 0 23 ∨ dfld w 14 0 23 + 16 ≤ lDst w e) →
      ∃ s', exec (.ladleComplete t n l none) s = .next s' ∧ s.keepsBut s' [.fab, .regs] ∧ s'.ladle n l = rest ∧
        (∀ e, d.done ≤ e → e < total → ∀ j < z, Mem.read s'.fab.mould (mouldAt n (lDst w e) + j) =
          BitVec.ofNat 8 ((nth w 12 0 % 2 ^ 32 + nth w 13 0 % 2 ^ 32 * 2 ^ 32) / 256 ^ (j % 8))) ∧
        Mem.readLE s'.fab.mould (mouldAt n (dfld w 14 0 23)) 4 = 0 ∧
        Mem.readLE s'.fab.mould (mouldAt n (dfld w 14 0 23) + 4) 4 = total % 2 ^ 32 ∧
        (∀ i f, s.fet i = some f → f.pour = d.pour → f.task = d.task → ∃ f', s'.fet i = some f' ∧
          f'.tickets = f.tickets.map (fun k =>
            if k.eng = 1 ∧ k.unit = (l : Nat) ∧ k.num = d.ticket ∧ k.st = 0 then { k with st := 1 } else k)) ∧
        s'.fab.dram = s.fab.dram)

/-- R185, R194: a parked agent goes on once its fault is resolved; a page of the host tier, or on its way from there, that comes to a frame of
device memory brings its bytes, as does one that goes to the host tier to make room. R179, R181, R182: patrol scrub shows its place, counts
what the codes corrected, and puts an uncorrectable line into the poison map, reporting it as `MEM_LAST_UNCORR`. R74: a poisoned TLP is
discarded, and the transfer of a JOB pour it carried is aborted with reason MEM; the pour ends with `E_MEM_UNCORR`. Readings the rules leave
open rest on log 2, 52 and 53. -/
def Obligations.FaultsScrubAndPoison : Prop :=
  (∀ (s s1 s2 : State) (t frame : Nat) (g : Agent) (out : Option (Fin 16 × Nat)) (n x cause va : Nat), s.parkedAt g = some (n, x, cause, va) →
    (match out with | none => some (s.at' t) | some o => (s.at' t).sendOut o.1 o.2) = some s1 → s1.bringPage x va frame = some s2 →
    (∀ m l, g = .ladle m l → s.stopped m x = false) →
    ∃ s', exec (.xlateFaultResolved t g ⟨frame, out⟩) s = .next s' ∧ s.keepsBut s' [.fab, .regs, .dbg, .hostMem] ∧
      (out = none → s'.hostMem = s.hostMem) ∧ s'.parkedAt g = none ∧
      s'.fab.dram = s2.fab.dram ∧ s'.fab.pt2 = s2.fab.pt2 ∧ s'.fab.pt4 = s2.fab.pt4 ∧ s'.fab.mould = s.fab.mould ∧
      (∀ i f, g = .fettler i → s.fet i = some f → s'.fet i = some { f with wait := .none }) ∧
      (∀ m l d rest, g = .ladle m l → s.ladle m l = d :: rest →
        s'.ladle m l = { d with state := 1, issued := d.done, cause := none } :: rest) ∧
      (∀ c d rest, g = .crucible c → (s.cru c).queue = d :: rest → (s'.cru c).queue = { d with parked := none } :: rest)) ∧
  (∀ (s : State) (x va f : Nat) (p : Pte), s.memWf = true → KMap.find s.fab.pt2 (x * 2 ^ 27 + va / 2 ^ 21) = none →
    KMap.find s.fab.pt4 (x * 2 ^ 36 + va / 2 ^ 12) = some p → p.onHost = true → f % 2 ^ 12 = 0 → f + 2 ^ 12 ≤ 126976 * 2 ^ 20 →
    s.frameFree (x * 2 ^ 27 + va / 2 ^ 21) (x * 2 ^ 36 + va / 2 ^ 12) f (2 ^ 12) = true →
    ∃ s2, s.bringPage x va f = some s2 ∧ s2.leaf x va = some ({ p with tier := 0, frame := f, back := false }, va % 2 ^ 12) ∧
      (∀ j < 2 ^ 12, Mem.read s2.fab.dram (f + j) = Mem.read s.hostMem (s.rd64 R.MEM_HOST_TIER_BASE + p.frame + j)) ∧
      ∀ b, (b < f ∨ f + 2 ^ 12 ≤ b) → Mem.read s2.fab.dram b = Mem.read s.fab.dram b) ∧
  (∀ (s s2 : State) (y va : Nat), s.memWf = true → s.sendOut y va = some s2 →
    ∃ p f, KMap.find s.fab.pt2 (y * 2 ^ 27 + va / 2 ^ 21) = some p ∧ p.prot = false ∧
      KMap.find s2.fab.pt2 (y * 2 ^ 27 + va / 2 ^ 21) = some { p with tier := 1, frame := f } ∧
      (∀ j < 2 ^ 21, Mem.read s2.hostMem (s.rd64 R.MEM_HOST_TIER_BASE + f + j) = Mem.read s.fab.dram (p.frame + j)) ∧
      ∀ b, (b < p.frame ∨ p.frame + 2 ^ 21 ≤ b) → Mem.read s2.fab.dram b = Mem.read s.fab.dram b) ∧
  (∀ (s : State) (t line : Nat) (e : LineErr), s.running = true → line < memLines →
    let pass := [R.MEM_SCRUB_POS, R.MEM_SCRUB_PASSES]
    let inner := R.MEM_CORR_INNER (linePackage line)
    let outer := R.MEM_CORR_OUTER (linePackage line)
    (e.bad = false → line ∉ s.fab.poison → ∃ s', exec (.scrubLine t line e) s = .next s' ∧
      s.keepsBut s' (if e.beyond then [.fab, .regs, .free] else [.fab, .regs]) ∧
      s.regsBut s' (inner :: outer :: pass) ∧ s'.rd R.MEM_SCRUB_POS = line * 65536 / memLines ∧
      s'.rd R.MEM_SCRUB_PASSES = (s.rd R.MEM_SCRUB_PASSES + if line + 1 = memLines then 1 else 0) % 2 ^ 32 ∧
      s'.rd inner = min (2 ^ 32 - 1) (s.rd inner + b2n e.inner) ∧
      s'.rd outer = min (2 ^ 32 - 1) (s.rd outer + if e.wrong = [] then 0 else 1) ∧
      (e.beyond = false → s'.fab = { s.fab with scrub := line })) ∧
    ((e.bad = true ∨ line ∈ s.fab.poison) → ∃ s', exec (.scrubLine t line e) s = .next s' ∧
      s.keepsBut s' [.fab, .free, .regs, .host, .hostMem, .dbg] ∧
      line ∈ s'.fab.poison ∧ (∀ k, k ≠ line → (k ∈ s'.fab.poison ↔ k ∈ s.fab.poison)) ∧
      s'.rd64 R.MEM_LAST_UNCORR = line ∧
      s'.rd (R.MEM_UNCORR (linePackage line)) = min (2 ^ 32 - 1) (s.rd (R.MEM_UNCORR (linePackage line)) + 1) ∧
      s'.fab.dram = s.fab.dram)) ∧
  (∀ (s : State) (t : Nat), ∃ s', exec (.poisonedTlpReceived t none) s = .next s' ∧ s.keepsBut s' []) ∧
  ∀ (s : State) (t : Nat) (n : Fin 32) (l : Fin 2) (d : LDesc) (rest : List LDesc) (p : Pour) (c : Ctx),
    s.ladle n l = d :: rest → (d.state = 1 ∨ d.state = 2) → s.lHost d.ctx d.words d.done = true →
    s.pour d.pour = some p → p.st = 2 → p.fault = 0 → s.ctx p.ctx = some c → c.cls = 2 →
    ∃ s', exec (.poisonedTlpReceived t (some (.ladle n l))) s = .next s' ∧ (∀ e ∈ s'.ladle n l, e.pour ≠ d.pour) ∧
      (∀ q, s'.pour d.pour = some q → (q.st = 3 ∨ q.st = 4) ∧ q.fault = E_MEM_UNCORR) ∧
      (s.lRecordOk n d.ctx d.words = true → (∀ e ∈ rest, e.pour = d.pour → e.state = 0) →
        (∀ k ∈ s.fab.ladles, k.1 ≠ 2 * n + l → ∀ e ∈ k.2, e.pour = d.pour → e.state = 0) →
        (∃ q ∈ s.sch.pours, q.ctx = p.ctx ∧ q.holds = true ∧ q.id ≠ d.pour) →
        Mem.readLE s'.fab.mould (mouldAt n (dfld d.words 14 0 23)) 4 = E_LADLE_ABORT + 4 * 65536 ∧
        Mem.readLE s'.fab.mould (mouldAt n (dfld d.words 14 0 23) + 4) 4 = d.done % 2 ^ 32)
/-! ### Orders -/

/-- R81, R83: an order whose context does not exist, or that uses reserved bits, is refused with its result record and no other effect.
Readings the rules leave open rest on log 26 and 27. -/
def Obligations.RefusedOrders : Prop :=
  ∀ (s : State) (t : Nat) (q : Fin 16) (seq : BitVec 16) (o : Order), s.canAnswer o →
    (s.orderReady q seq.toNat 0x00 = some o → (o.rsv ≠ 0 ∨ o.ctx ≠ 0) →
      ∃ s', exec (.nop t q seq) s = .next s' ∧ s.keepsBut s' [.host, .hostMem] ∧ s.answers s' o E_CMD_ARG 0 0 0) ∧
    (s.orderReady q seq.toNat 0x41 = some o → s.ctx o.ctx = none →
      ∃ s', exec (.pourStart t q seq) s = .next s' ∧ s.keepsBut s' [.host, .hostMem] ∧ s.answers s' o E_CMD_CTX o.ctx 0 0) ∧
    (∀ x, s.orderReady q seq.toNat 0x42 = some o → s.ctx o.ctx = some x → x.st = 6 → x.code ≠ 0 →
      ∃ s', exec (.pourCancel t q seq) s = .next s' ∧ s.keepsBut s' [.host, .hostMem] ∧ s.answers s' o x.code o.ctx 0 0)

/-- Table 4.4, R80, R82, R77, R195: the orders that set up the command window, the host tier and BAR2. Readings the rules leave open rest
on log 27. -/
def Obligations.WindowOrders : Prop :=
  ordersAs Instr.nop 0x00 (fun _ o => o.only [] = true) [.host, .hostMem] (fun s s' o => s.answers s' o E_NONE 0 0 0) ∧
  ordersAs Instr.queueBind 0x01 (fun _ o => o.only [0x1FF] = true ∧ o.queue = 0 ∧ o.w 2 % 16 ≠ 0 ∧ o.w 2 / 16 % 16 ≤ 7)
    [.host, .hostMem, .regs] (fun s s' o =>
      let a := R.CMD_Q_HEAD (o.w 2 % 16)
      s.answers s' o E_NONE 0 0 0 ∧ s'.bit a 24 = (o.w 2).testBit 8 ∧ s'.fld a 25 4 = o.w 2 / 16 % 16 ∧
      s'.fld a 0 24 = s.fld a 0 24 ∧ s.regsBut s' [a]) ∧
  ordersAs Instr.ringSetup 0x02 (fun s o => ringArgsOk o = true ∧ o.ring ≠ some (o.w 4 / 256 % 16) ∧ s.host.backlog = [] ∧
      s.host.evtLostPending = 0) [.host, .hostMem, .regs] (fun s s' o =>
      let r := o.w 4 / 256 % 16
      s.answers s' o E_NONE 0 0 0 ∧ KMap.find s'.host.rings r =
        some { base := o.w 2 + 2 ^ 32 * o.w 3, log2 := o.w 4 % 32, count := o.w 5, timeUs := o.w 6 }) ∧
  ordersAs Instr.hostTier 0x03 (fun s o => o.only [0xFFFFFFFF, 0xFFFFFFFF, 0xFFFFFFFF, 0xFFFFFFFF] = true ∧
      (o.w 4 + 2 ^ 32 * o.w 5) % 2 ^ 21 = 0 ∧ o.w 2 < 2 ^ 32 ∧ o.w 3 < 2 ^ 32 ∧ s.tierPages = []) [.host, .hostMem, .regs] (fun s s' o =>
      let size := o.w 4 + 2 ^ 32 * o.w 5
      s.answers s' o E_NONE 0 0 0 ∧ s'.rd R.MEM_HOST_TIER_SIZE = size / 2 ^ 20 % 2 ^ 32 ∧
      s'.rd64 R.MEM_HOST_TIER_BASE = (if size = 0 then 0 else o.w 2 + 2 ^ 32 * o.w 3) ∧
      s.regsBut s' [R.MEM_HOST_TIER_BASE, R.MEM_HOST_TIER_BASE + 4, R.MEM_HOST_TIER_SIZE]) ∧
  ordersAs Instr.bar2Map 0x04 (fun s o => o.only [0xFFF, 0xFFFFFFFF, 0xFFFFFFFF] = true ∧ (o.w 3 + 2 ^ 32 * o.w 4) % 2 ^ 30 = 0 ∧
      o.w 3 + 2 ^ 32 * o.w 4 < 2 ^ 48 ∧ (s.ctx (o.w 2 / 64 % 16)).isSome) [.host, .hostMem] (fun s s' o =>
      let w := o.w 2
      s.answers s' o E_NONE 0 0 0 ∧
      KMap.find s'.host.bar2 (w % 64) = (if w.testBit 11 then none else
        some { ctx := w / 64 % 16, writable := w.testBit 10, base := o.w 3 + 2 ^ 32 * o.w 4 }) ∧
      ∀ k, k ≠ w % 64 → KMap.find s'.host.bar2 k = KMap.find s.host.bar2 k)

/-- Table 4.4, R317, R324, R67: the orders that create, list and destroy contexts, ask for the factory state, and reset the device.
Readings the rules leave open rest on log 27. -/
def Obligations.ContextOrders : Prop :=
  ordersAs Instr.ctxCreate 0x05 (fun s o =>
      let slice := o.w 3
      o.only [0x73, 0xFFFFFFFF, 0xFFFFFFFF] = true ∧ (o.w 2 % 4 = 1 ∧ slice = 0 ∨
        o.w 2 % 4 = 2 ∧ (slice = 0 ∨ 100 ≤ slice ∧ slice ≤ 100000 ∧ slice % 10 = 0)) ∧
      s.maskFlasks (o.w 4) ≠ 0 ∧ s.freeCtx.isSome ∧
      reserveUnits { cls := o.w 2 % 4, mask := s.maskFlasks (o.w 4) } * 65536 ≤ s.memFree)
    [.host, .hostMem, .sch] (fun s s' o => ∃ x c, s.freeCtx = some x ∧ s'.ctx x = some c ∧ s.answers s' o E_NONE 0 x 0 ∧
      c.cls = o.w 2 % 4 ∧ c.prio = o.w 2 / 16 % 8 ∧ c.mask = s.maskFlasks (o.w 4) ∧ c.st = 1 ∧ c.ranges = [] ∧
      c.slice = (if o.w 2 % 4 = 2 ∧ o.w 3 = 0 then 1000 else o.w 3)) ∧
  ordersAs Instr.ctxDestroy 0x06 (fun s o =>
      let x := o.w 2 % 16
      o.only [0xF] = true ∧ x ≠ 0 ∧ (∃ c, s.ctx x = some c ∧ c.restored = false) ∧ s.pinnedByCast x = false ∧ s.pinnedLive x = false ∧
      s.ctxIssued x = false ∧ s.chilling x = [] ∧ (∀ p ∈ s.sch.pours, p.ctx ≠ x) ∧
      s.host.orders.filter (fun p => p.ctx == x || p.opcode == 6) = [o])
    [.host, .hostMem, .sch, .fab, .regs, .chain] (fun s s' o =>
      let x := o.w 2 % 16
      s.answers s' o E_NONE x 0 0 ∧ s'.ctx x = none ∧ (∀ y, y ≠ x → s'.ctx y = s.ctx y) ∧
      ∀ va, va < 2 ^ 48 → s'.leaf x va = none) ∧
  ordersAs Instr.ctxList 0x07 (fun _ o => o.only [] = true) [.host, .hostMem] (fun s s' o =>
      s.answers s' o E_NONE 0 (s.ctxBits fun _ => true) (s.ctxBits fun c => c.st == 4)) ∧
  ordersAs Instr.factoryNext 0x08 (fun _ o => o.only [] = true) [.host, .hostMem, .boot] (fun s s' o =>
      s.answers s' o E_NONE 0 0 0 ∧ s'.boot = { s.boot with factoryNext := true }) ∧
  (∀ (s : State) (t : Nat) (q : Fin 16) (seq : BitVec 16) (o : Order), s.orderReady q seq.toNat 0x09 = some o →
    s.orderRefusal o = 0 → o.only [0xFFFFFFFF] = true → o.w 2 = 0x5E7A0001 →
    ∃ s', exec (.deviceReset t q seq) s = .next s' ∧ s'.running = false ∧ s'.mod.held = true ∧ s'.boot.nextCause = 5 ∧
      s'.fab = {} ∧ s'.sch = {} ∧ s'.host.rings = [])

/-- R319, R351, R324: program load and pour start. A pour cancel stops the pour of its tag that runs: no task, descriptor or transfer of it is
left, and with no command of it running its own order and the cancel's are complete; a tag that names no pour has no effect. Readings the
rules leave open rest on log 29 and 59. -/
def Obligations.PourOrders : Prop :=
  (∀ (s : State) (t : Nat) (q : Fin 16) (seq : BitVec 16) (o : Order) (p : Program) (c : Ctx),
    s.orderReady q seq.toNat 0x40 = some o → s.orderRefusal o = 0 → s.canAnswer o → s.scUp = true →
    s.ctx o.ctx = some c → (c.cls = 2 ∨ banksNeeded p ≤ s.freeBanks.length) → (∀ l ∈ s.sch.progs, l.id < s.sch.nextProg) →
    (s.progRefusal o.ctx c p = none → ∃ s' l, exec (.progLoad t q seq p) s = .next s' ∧ s.answers s' o E_NONE o.ctx s.sch.nextProg 0 ∧
      s'.program s.sch.nextProg = some l ∧ l.ctx = o.ctx ∧ l.prog = p ∧ s'.sch.nextProg = s.sch.nextProg + 1) ∧
    (∀ r, s.progRefusal o.ctx c p = some r → ∃ s', exec (.progLoad t q seq p) s = .next s' ∧ s.answers s' o r.1 o.ctx r.2 0 ∧
      s.keepsBut s' [.host, .hostMem])) ∧
  (∀ (s : State) (t : Nat) (q : Fin 16) (seq : BitVec 16) (o : Order) (c : Ctx) (l : LoadedProg),
    s.orderReady q seq.toNat 0x41 = some o → s.orderRefusal o = 0 → s.ctx o.ctx = some c → c.cls = 2 → pourArgsOk o = true →
    s.program (o.w 2 % 65536) = some l → l.ctx = o.ctx → (o.w 2).testBit 17 = false → (∀ p ∈ s.sch.pours, p.id < s.sch.nextPour) →
    s.syncFree o.ctx l.prog = true → banksNeeded l.prog = 0 →
    ∃ s' p, exec (.pourStart t q seq) s = .next s' ∧ s'.pour s.sch.nextPour = some p ∧ p.tag = o.tag ∧ p.ctx = o.ctx ∧
      p.prog = o.w 2 % 65536 ∧ p.st = 2 ∧ p.tasks.length = l.prog.tasks.length ∧
      p.ins = s.pourTable o.ctx (o.w 3 + 2 ^ 32 * o.w 4, o.w 5) ∧ p.outs = s.pourTable o.ctx (o.w 6 + 2 ^ 32 * o.w 7, o.w 8)) ∧
  (∀ (s : State) (t : Nat) (q : Fin 16) (seq : BitVec 16) (o u : Order) (p : Pour), s.orderReady q seq.toNat 0x42 = some o →
    s.orderRefusal o = 0 → o.only [0xFFFFFFFF] = true → p.ctx = o.ctx → p.tag = o.w 2 → p.st = 2 → s.cruBusy p.id = false →
    s.sch.pours.filter (fun r => r.id == p.id || (r.ctx == p.ctx && r.tag == p.tag)) = [p] → s.openOrder 0x41 p.ctx p.tag = some u →
    ∃ s', exec (.pourCancel t q seq) s = .next s' ∧ (∀ r ∈ s'.host.orders, r.id ≠ o.id ∧ r.id ≠ u.id) ∧
      (∀ r, s'.pour p.id = some r → r.st = 4) ∧ (∀ i f, s'.fet i = some f → f.pour ≠ p.id) ∧
      (∀ c, ∀ d ∈ (s'.cru c).queue, d.pour ≠ p.id) ∧ ∀ n l, ∀ d ∈ s'.ladle n l, d.pour ≠ p.id) ∧
  ordersAs Instr.pourCancel 0x42 (fun s o => o.only [0xFFFFFFFF] = true ∧ ∀ p ∈ s.sch.pours, ¬ (p.ctx = o.ctx ∧ p.tag = o.w 2))
    [.host, .hostMem] (fun s s' o => s.answers s' o E_NONE o.ctx 0 0)

/-- R330: `CTX_CHILL` of a JOB context that holds no flask saves nothing more and holds it; of one that runs, every flask stops for a full
chill. `CTX_REMELT` releases the hold. R358, Table 16.6: a start barrier is armed for a T at least 25,000 counts ahead and REFUSED for an
earlier one; disarmed it returns to IDLE; at T it fires, marked late where chain time is not locked, here with no pour waiting on it.
Readings the rules leave open rest on log 29. -/
def Obligations.ChillOrdersAndStartBarriers : Prop :=
  ordersAs Instr.ctxChill 0x43 (fun s o => o.only [] = true ∧ (∃ c, s.ctx o.ctx = some c ∧ c.cls = 2 ∧ c.st ≠ 6 ∧
      c.sections.any (fun k => k.kind == 0) = false) ∧ s.jobFlasks o.ctx = [] ∧
      s.host.orders.filter (fun p => p.ctx == o.ctx) = [o])
    [.host, .hostMem, .sch] (fun s s' o => ∃ c c', s.ctx o.ctx = some c ∧ s'.ctx o.ctx = some c' ∧ c'.held = true ∧ c'.st = 4 ∧
      s.answers s' o E_NONE o.ctx c.imageKib 0) ∧
  (∀ (s : State) (t : Nat) (q : Fin 16) (seq : BitVec 16) (o : Order) (c : Ctx) (n : Nat) (k : FlaskSt),
    s.orderReady q seq.toNat 0x43 = some o → s.orderRefusal o = 0 → o.only [] = true → s.ctx o.ctx = some c → c.cls = 2 →
    (∀ p ∈ s.host.orders, p.opcode ≠ 0x44) → s.sch.flasks = [(n, k)] → k.job = some o.ctx → k.phase = 0 →
    ∃ s' c', exec (.ctxChill t q seq) s = .next s' ∧ s'.ctx o.ctx = some c' ∧ c'.held = true ∧ c'.st = 3 ∧
      s'.flask n = { k with phase := 1, full := true } ∧ { o with started := true } ∈ s'.host.orders) ∧
  (∀ (s : State) (t : Nat) (q : Fin 16) (seq : BitVec 16) (o : Order) (c : Ctx),
    s.orderReady q seq.toNat 0x44 = some o → s.orderRefusal o = 0 → o.only [] = true → s.ctx o.ctx = some c → c.cls = 2 → c.st = 4 →
    (c.sections ≠ [] → (s.setCtx o.ctx { c with held := false }).pick [] = none →
      ∃ s', exec (.ctxRemelt t q seq) s = .next s' ∧ s'.ctx o.ctx = some { c with held := false } ∧ s.keepsBut s' [.host, .sch] ∧
        { o with started := true } ∈ s'.host.orders) ∧
    (c.sections = [] → (s.setCtx o.ctx { c with held := false, st := 1 }).pick [] = none → s.canAnswer o →
      ∃ s', exec (.ctxRemelt t q seq) s = .next s' ∧ s'.ctx o.ctx = some { c with held := false, st := 1 } ∧
        s.keepsBut s' [.host, .hostMem, .sch] ∧ s.answers s' o E_NONE o.ctx 0 0)) ∧
  ∀ (s : State) (t : Nat) (i : Fin 16), s.running = true →
    let a := R.CMD_SBAR i + 8
    let now := (s.at' t).tim.ns / 4
    (s.fld a 2 2 ≠ 1 → ∃ s', exec (.sbarArm t i) s = .next s' ∧ s.keepsBut s' [.regs] ∧ s.regsBut s' [a] ∧ s'.bit a 4 = false ∧
      s'.fld a 2 2 = if now + 25000 ≤ s.rd64 (R.CMD_SBAR i) then 1 else 3) ∧
    (s.fld a 2 2 = 1 → ∃ s', exec (.sbarArm t i) s = .next s' ∧ s.keepsBut s' []) ∧
    (s.fld a 2 2 = 1 → s.sch.pours = [] → s.tim.stepWait = none → ∃ s', exec (.sbarDisarm t i) s = .next s' ∧ s.keepsBut s' [.regs] ∧
      s.regsBut s' [a] ∧ s'.fld a 2 2 = 0) ∧
    (s.fld a 2 2 = 1 → s.rd64 (R.CMD_SBAR i) ≤ now → s.sch.pours = [] → s.sch.ctxs = [(0, {})] → s.tim.stepWait = none →
      ∃ s', exec (.sbarFire t i) s = .next s' ∧ s.keepsBut s' [.regs] ∧ s.regsBut s' [a] ∧ s'.fld a 2 2 = 2 ∧
        s'.bit a 4 = !(s.at' t).chainLocked)

/-! ### The host interface -/

/-- R69, R87, R76, R77, R84, R85: the handshake register, the heartbeat, BAR2, ring heads and coalesced MSI-X, which a masked vector
holds as pending. Readings the rules leave open rest on log 28, 45 and 98. -/
def Obligations.HostAccesses : Prop :=
  ∀ (s : State) (t : Nat), s.running = true →
    (∀ w : W32, s.bit R.GLB_HIV_HOST 31 = true → s.givesNothing (.hivRequest t w)) ∧
    (∀ w : W32, s.bit R.GLB_HIV_HOST 31 = false → s.gives (.hivRequest t w) [.regs, .host] fun s' =>
      s.regsBut s' [R.GLB_HIV_HOST, R.GLB_HIV_STATUS] ∧ s'.rd R.GLB_HIV_HOST = w.toNat % 2 ^ 24 + 2 ^ 31 * b2n (w.getLsbD 31) ∧
      (w.getLsbD 31 = true → s'.fld R.GLB_HIV_STATUS 0 2 = 1 ∧ s'.fld R.GLB_HIV_STATUS 16 16 = 0) ∧
      (w.getLsbD 31 = false → s'.host = s.host ∧ s'.rd R.GLB_HIV_STATUS = s.rd R.GLB_HIV_STATUS)) ∧
    (∀ v : W32, s.gives (.hostHeartbeatWrite t v) [.regs] fun s' => s.regsBut s' [R.CMD_HOST_HB] ∧ s'.rd R.CMD_HOST_HB = v.toNat) ∧
    (∀ (off : BitVec 36) (n x va : Nat) (e : LineErr), s.mod.pcieUp = true → s.bar2Refused off.toNat n false = some (x, va) →
      (s.poisonedIn x va n = none → e.beyond = false → s.gives (.bar2Read t off ⟨n, e⟩) [.host, .regs] fun s' =>
        s'.host = { s.host with lastCpl := .ok, lastData := s.vreadBytes x va n } ∧ s.regsBut s' (corrRegs (s.physOf x va))) ∧
      ((s.poisonedIn x va n ≠ none ∨ e.bad = true) → s.gives (.bar2Read t off ⟨n, e⟩) [.free, .regs, .host, .hostMem, .dbg] fun s' =>
        s'.host.lastCpl = .aborted ∧ s'.host.lastData = [])) ∧
    (∀ (off : BitVec 36) (n : Nat) (e : LineErr), s.mod.pcieUp = true → s.bar2Refused off.toNat n false = none →
      s.gives (.bar2Read t off ⟨n, e⟩) [.free, .regs, .host, .hostMem, .dbg] fun s' => s'.host.lastCpl = .ok ∧
        s'.host.lastData = List.replicate n 0xFF ∧ s'.rd R.SEC_BAR2_DENIED = (s.rd R.SEC_BAR2_DENIED + 1) % 2 ^ 32) ∧
    (∀ (off : BitVec 36) (d : List Byte) (x va : Nat) (e : LineErr), s.mod.pcieUp = true →
      s.bar2Refused off.toNat d.length true = some (x, va) →
      (s.partPoison x va d.length = none → e.beyond = false → va % 4096 + d.length ≤ 4096 →
        s.gives (.bar2Write t off ⟨d, e⟩) [.fab, .regs] fun s' =>
          (∀ k, k < d.length → Mem.read s'.fab.dram (s.physOf x va + k) = nth d k 0) ∧
          ∀ a, (a < s.physOf x va ∨ s.physOf x va + d.length ≤ a) → Mem.read s'.fab.dram a = Mem.read s.fab.dram a) ∧
      ((s.partPoison x va d.length ≠ none ∨ d.length < 256 ∧ e.bad = true) →
        s.gives (.bar2Write t off ⟨d, e⟩) [.free, .regs, .host, .hostMem, .dbg] fun s' =>
          ∃ p, s'.rd (R.MEM_UNCORR p) = min (2 ^ 32 - 1) (s.rd (R.MEM_UNCORR p) + 1))) ∧
    (∀ (off : BitVec 36) (d : List Byte) (e : LineErr), s.mod.pcieUp = true → s.bar2Refused off.toNat d.length true = none →
      s.gives (.bar2Write t off ⟨d, e⟩) [.free, .regs, .host, .hostMem, .dbg] fun s' =>
        s'.rd R.SEC_BAR2_DENIED = (s.rd R.SEC_BAR2_DENIED + 1) % 2 ^ 32) ∧
    (∀ (r : Fin 9) (v : W32) (g : Ring), KMap.find s.host.rings r = some g → g.log2 ≤ 16 → s.host.backlog = [] → s.host.evtLostPending = 0 →
      s.gives (.hostRingHeadWrite t r v) [.regs, .host] fun s' =>
        let a := if (r : Nat) = 8 then R.CMD_EVT_HEAD else R.CMD_RR_HEAD r
        s'.rd a = v.toNat % 65536 ∧ s.regsBut s' [a] ∧ ∃ n, n < 2 ^ g.log2 ∧
          (g.consumed % 2 ^ g.log2 + n) % 2 ^ g.log2 = v.toNat % 65536 % 2 ^ g.log2 ∧
          s'.host = { s.host with rings := KMap.put s.host.rings r { g with consumed := min g.written (g.consumed + n) } }) ∧
    (∀ (r : Fin 9) (g : Ring), KMap.find s.host.rings r = some g →
      (0 < g.unsig → g.unsigAt + g.timeUs * 1000 ≤ max s.now t → s.gone = false → s.mod.pcieUp = true →
        let v := if (r : Nat) = 8 then 0 else (r : Nat) + 1
        let word := fun k => s.msixWord (4 * v + k)
        s.gives (.msixCoalesceTimeout t r) [.host] fun s' => KMap.find s'.host.rings r = some { g with unsig := 0 } ∧
          s'.host.msix = (if word 3 % 2 = 1 then s.host.msix
            else s.host.msix ++ [{ vector := v, addr := word 0 + 2 ^ 32 * word 1, data := word 2 }]) ∧
          (word 3 % 2 = 1 → v ∈ s'.host.msixPend)) ∧
      (max s.now t < g.unsigAt + g.timeUs * 1000 → s.givesNothing (.msixCoalesceTimeout t r)))

/-- R70, R71, R80, R88: at a tick of SCH a pending handshake of matching versions is agreed and any other refused, and an order whose
sequence number its queue expects is collected; without a changed heartbeat for 500 ms the host is GONE. Here no pour, no context but 0
and no open order stands, line work has started, and no ladle reaches host memory. Readings the rules leave open rest on log 28. -/
def Obligations.SchedulerTicks : Prop :=
  ∀ (s : State) (t : Nat), s.running = true → s.schUp = true → s.schIdle → s.host.orders = [] → s.boot.lineStarted = true →
    (let d := s.rd R.GLB_HIV_DEV
     let h := s.rd R.GLB_HIV_HOST
     s.bit R.GLB_HIV_HOST 31 = true →
      ((h / 256 % 256 = d / 256 % 256 ∧ h / 65536 % 256 ≤ d % 256) → s.gives (.schTick t) [.free, .regs, .boot, .host, .hostMem, .dbg] fun s' =>
        s'.fld R.GLB_HIV_STATUS 0 2 = 2 ∧ s'.fld R.CMD_HOST_STATE 0 2 = 1 ∧ s'.agreed = true ∧ s'.bit R.GLB_HIV_HOST 31 = false ∧
        s'.host.rings = [] ∧ s'.fld (R.CMD_Q_HEAD 0) 0 25 = 2 ^ 24 + 256 ∧ s'.host.orders = []) ∧
      (¬ (h / 256 % 256 = d / 256 % 256 ∧ h / 65536 % 256 ≤ d % 256) → s.attached = false →
        s.gives (.schTick t) [.regs, .host, .dbg] fun s' => s'.fld R.GLB_HIV_STATUS 0 2 = 3 ∧
          s'.fld R.GLB_HIV_STATUS 16 16 = E_HIV_MISMATCH ∧ s'.agreed = false)) ∧
    (∀ (q : Nat) (o : Order), s.bit R.GLB_HIV_HOST 31 = false → s.agreed = true → q < 16 → s.rd R.CMD_HOST_HB ≠ s.host.hbLast →
      (∀ k, k < 16 → (s.bit (R.CMD_Q_HEAD k) 24 = true ↔ k = q)) → s.nextOrder q = some o → s.mayCollect o = true →
      opcodeKnown o.opcode = true → (s.take o).nextOrder q = none →
      s.gives (.schTick t) [.regs, .host, .dbg] fun s' => s'.host.orders = [{ o with id := s.host.nextOrder }] ∧
        s'.fld (R.CMD_Q_HEAD q) 0 8 = (s.fld (R.CMD_Q_HEAD q) 0 8 + 1) % 256 ∧
        s'.fld (R.CMD_Q_HEAD q) 8 16 = (if o.seq = 0xFFFF then 1 else o.seq + 1)) ∧
    (s.attached = true → s.rd R.CMD_HOST_HB = s.host.hbLast → s.host.hbRestart = false → s.host.hbAt + 500000000 ≤ max s.now t →
      s.hostTransfers = [] →
      ∃ s', exec (.hostLoss t) s = .next s' ∧ s'.fld R.CMD_HOST_STATE 0 2 = 2 ∧ s'.agreed = false ∧ s'.host.bar2 = [] ∧
        s'.rd R.MEM_HOST_TIER_SIZE = 0 ∧ s'.rd R.CMD_HOST_LOSSES = (s.rd R.CMD_HOST_LOSSES + 1) % 2 ^ 32 ∧ s'.fab.dram = s.fab.dram) ∧
    (s.attached = true → s.rd R.CMD_HOST_HB = s.host.hbLast → s.host.hbRestart = false → max s.now t < s.host.hbAt + 500000000 →
      s.givesNothing (.hostLoss t))

/-- R76, R9, R11, R94: an access of another size or alignment completes with Unsupported Request and changes nothing; a 64-bit write writes
both words; a read gives a word as latched, else as its register shows it; a staged register takes the write in the shadow; registers that are read-only ignore it; plain ones keep their assigned bits.
A host read is carried by `REGISTER_WRITE`
(log 11). Readings the rules leave open rest on log 38 and 44. -/
def Obligations.RegisterWrites : Prop :=
  ∀ (s : State) (t : Nat) (off : BitVec 26) (v : BitVec 64), s.running = true →
    let a := off.toNat
    (∀ n, ¬ (n = 4 ∧ a % 4 = 0) → ¬ (n = 8 ∧ a % 8 = 0) → s.gives (.registerWrite t off n (.write v)) [.host] fun s' =>
      s'.host = { s.host with lastCpl := .unsupported }) ∧
    (a = R.DBG_LOG_IDX → s.gives (.registerWrite t off 8 (.write v)) [.host, .regs] fun s' => s.regsBut s' [a, a + 4] ∧ s'.rd64 a = v.toNat) ∧
    (a % 4 = 0 → (0x01000000 ≤ a ∧ a < 0x03000000 ∨ 0x03400000 ≤ a ∧ a < 0x03600000 ∧ stagedWord a = none) →
      s.gives (.registerWrite t off 4 (.write v)) [.host] fun s' =>
        s'.host = { s.host with lastCpl := .ok, readLatch := KMap.del s.host.readLatch a }) ∧
    (∀ q, a % 4 = 0 → stagedWord a = some q → s.shadowOpen = true → s.gives (.registerWrite t off 4 (.write v)) [.host, .stage] fun s' =>
      KMap.find s'.stage.shadow a = some (BitVec.ofNat 32 (q.keep (v.toNat % 2 ^ 32)))) ∧
    (∀ q, a % 4 = 0 → stagedWord a = some q → s.shadowOpen = false → s.gives (.registerWrite t off 4 (.write v)) [.host, .regs] fun s' =>
      s.regsBut s' [R.STG_IGNORED] ∧ s'.rd R.STG_IGNORED = (s.rd R.STG_IGNORED + 1) % 2 ^ 32) ∧
    (a = R.CMD_HOST_HB ∨ a = R.STG_CAST_LEAD ∨ a = R.DBG_LOG_IDX → s.gives (.registerWrite t off 4 (.write v)) [.host, .regs] fun s' =>
      s.regsBut s' [a] ∧ s'.rd a = v.toNat % 2 ^ 32) ∧
    (a = R.STG_QUIESCE → s.gives (.registerWrite t off 4 (.write v)) [.host, .regs] fun s' =>
      s.regsBut s' [a] ∧ s'.fld a 0 6 = v.toNat % 64 ∧ s'.bit a 8 = v.getLsbD 8 ∧ s'.rd a < 512) ∧
    (∀ n, ¬ (n = 4 ∧ a % 4 = 0) → ¬ (n = 8 ∧ a % 8 = 0) → s.gives (.registerWrite t off n .read) [.host] fun s' =>
      s'.host = { s.host with lastCpl := .unsupported, lastData := [] }) ∧
    (∀ w, a % 4 = 0 → KMap.find s.host.readLatch a = some w → s.gives (.registerWrite t off 4 .read) [.host] fun s' =>
      s'.host = { s.host with lastCpl := .ok, lastData := leBytes w.toNat 4 }) ∧
    (a % 4 = 0 → KMap.find s.host.readLatch a = none → wideWords a = 1 → s.gives (.registerWrite t off 4 .read) [.host] fun s' =>
      s'.host = { s.host with lastCpl := .ok, lastData := leBytes ((s.at' t).regView a % 2 ^ 32) 4 })
/-! ### Staged configuration -/

/-- R94, R96, R98, R100, R106, R108: shadow writes; CHECK and ARM, ignored while an operation runs, refused while a cast is pending and,
where Ronyr must answer, while the barrier heartbeat is lost; CANCEL, which comes too late for a cast that has taken effect already, and
DISCARD; and the end of a check that is not an arm, where no uncorrectable line lies in a table of a slot it writes. Readings the rules leave
open rest on log 69, 71, 72 and 111. -/
def Obligations.StageTransaction : Prop :=
  ∀ (s : State) (t : Nat), s.running = true →
    let late (p : Pending) : Prop :=
      if p.rny ≠ [] then s.crossing.isSome = true ∨ p.mode = 1 ∧ s.ron.armed = none
      else if p.mode = 2 then 0 ≤ dist (decide (p.dir = 1)) p.count (s.mirror p.chan) else p.time ≤ (s.at' t).tim.ns
    (∀ (off : BitVec 26) (v : W32) (q : StWord), stagedWord off.toNat = some q →
      (s.shadowOpen = true → s.gives (.stagedWrite t off v) [.stage] fun s' =>
        KMap.find s'.stage.shadow off.toNat = some (BitVec.ofNat 32 (q.keep v.toNat)) ∧ s'.stage.rnyShadow = s.stage.rnyShadow ∧
        ∀ a, a ∉ q.addrs 4 → KMap.find s'.stage.shadow a = KMap.find s.stage.shadow a) ∧
      (s.shadowOpen = false → s.gives (.stagedWrite t off v) [.regs] fun s' => s.regsBut s' [R.STG_IGNORED] ∧
        s'.rd R.STG_IGNORED = (s.rd R.STG_IGNORED + 1) % 2 ^ 32)) ∧
    (∀ (w : W32) (arm : Bool) (c : Instr), c = (if arm then .stageArm t w else .stageCheck t w) →
      let p := s.stgParams w.toNat arm
      (s.stgState = 1 → s.gives c [.regs] fun s' => s.regsBut s' [R.STG_CTRL, R.STG_IGNORED] ∧
        s'.rd R.STG_IGNORED = (s.rd R.STG_IGNORED + 1) % 2 ^ 32) ∧
      (s.stgState = 2 → s.gives c [.regs, .host] fun s' => s.regsBut s' [R.STG_CTRL, R.STG_STATUS] ∧ s'.stgState = 2 ∧
        s'.fld R.STG_STATUS 16 16 = E_CAST_PENDING) ∧
      (s.stgState ≠ 1 → s.stgState ≠ 2 → (p.needsRonyr = true ∧ s.line.validSince = none) →
        s.gives c [.regs, .host, .stage] fun s' => s'.stgState = 4 ∧ s'.fld R.STG_STATUS 16 16 = E_BARRIER_HB ∧
          s'.stage = { s.stage with pend := none }) ∧
      (s.stgState ≠ 1 → s.stgState ≠ 2 → ¬ (p.needsRonyr = true ∧ s.line.validSince = none) →
        s.gives c [.regs, .stage] fun s' => s'.stgState = 1 ∧ s'.fld R.STG_STATUS 16 16 = 0 ∧ s'.bit R.STG_STATUS 3 = false ∧
          s'.stage = { s.stage with pend := some p } ∧ s.regsBut s' [R.STG_CTRL, R.STG_STATUS])) ∧
    (∀ w : W32, s.stage.pend = none → s.gives (.stageCancel t w) [.regs] fun s' => s.regsBut s' [R.STG_CTRL]) ∧
    (∀ (w : W32) (p : Pending), s.stage.pend = some p → p.discardHeld = false → s.stgState = 1 →
      s.gives (.stageCancel t w) [.regs, .stage] fun s' => s'.stgState = 0 ∧ s'.stage = { s.stage with pend := none } ∧
        s'.rd R.STG_GEN_PENDING = 0) ∧
    (∀ (w : W32) (p : Pending), s.stage.pend = some p → p.discardHeld = false → s.tim.stepWait = none → s.stgState = 2 → ¬ late p →
      s.gives (.stageCancel t w) [.regs, .stage, .ron] fun s' => s'.stgState = 0 ∧ s'.stage = { s.stage with pend := none } ∧
        s'.ron = (if p.needsRonyr = true then { s.ron with armed := none, shadow := [] } else s.ron) ∧ s'.rd R.STG_GEN_PENDING = 0) ∧
    (∀ (w : W32) (p : Pending), s.stage.pend = some p → s.stgState = 2 → late p →
      s.gives (.stageCancel t w) [.regs] fun s' => s'.stgState = 2 ∧ s'.bit R.STG_STATUS 3 = true ∧
        s.regsBut s' [R.STG_CTRL, R.STG_STATUS]) ∧
    (∀ w : W32, s.stgState ≠ 1 → s.gives (.stageDiscard t w) [.regs, .stage] fun s' => s.regsBut s' [R.STG_CTRL] ∧
      s'.stage = { s.stage with shadow := [], rnyShadow := [] }) ∧
    (∀ (w : W32) (p : Pending), s.stgState = 1 → s.stage.pend = some p → s.gives (.stageDiscard t w) [.regs, .stage] fun s' =>
      s'.stage = { s.stage with pend := some { p with discardHeld := true } }) ∧
    (∀ p : Pending, s.stage.pend = some p → s.stgState = 1 → p.arm = false → p.discardHeld = false →
      ¬ (p.needsRonyr = true ∧ s.line.validSince = none) →
      (∀ f, s.stageCheck p.set p.rny false = some f → (∀ j ∈ slotsWritten p.set, (s.withSet p.set p.rny).tblPoison j = none) → s.gives (.stageCheckComplete t) [.regs, .host, .stage] fun s' =>
        s'.stgState = 4 ∧ s'.fld R.STG_STATUS 16 16 = E_STAGE_CHECK ∧ s'.stage = { s.stage with pend := none } ∧
        s'.rd R.STG_CHECK_RESULT = (f.reason + f.block * 256) % 2 ^ 32 ∧ s'.rd R.STG_CHECK_ADDR = f.addr % 2 ^ 32) ∧
      (s.stageCheck p.set p.rny false = none → s.gives (.stageCheckComplete t) [.regs, .stage] fun s' =>
        s'.stgState = 0 ∧ s'.rd R.STG_CHECK_RESULT = 0 ∧ s'.rd R.STG_CHECK_ADDR = 0 ∧ s'.stage = { s.stage with pend := none })) ∧
    (s.stage.pend = none → s.givesNothing (.stageCheckComplete t))

/-- R100, R101, R103, R104, R110, R393: the pending cast takes effect at its instant as the next generation: every staged register it
names takes its value and no other changes; a record of the configuration follows, and is complete once SC has written its trailer. Before its instant nothing happens. Shown for a cast of
Ronyr's fields, with no context and no waiting time step. Readings the rules leave open rest on log 69 and 70. -/
def Obligations.Casts : Prop :=
  (∀ (s : State) (p : Pending) (gen instant : Nat) (restore : Bool) (a : Nat) (q : StWord), stagedWord a = some q →
    KMap.wf p.set = true → (s.castRegs p gen instant restore).rd a =
      match KMap.find p.set a with | some v => v.toNat | none => s.rd a) ∧
  ∀ (s : State) (t : Nat), s.running = true →
    (∀ (c : Instr) (p : Pending) (i : Nat), s.stage.pend = some p → s.stgState = 2 → p.set = [] → s.sch.ctxs = [(0, {})] →
      s.tim.stepWait = none →
      (c = .castTimeReached t ∧ p.mode = 1 ∧ p.time ≤ (s.at' t).tim.ns ∧ i = p.time ∨
        c = .castCountCrossing t ∧ p.mode = 2 ∧ 0 ≤ dist (decide (p.dir = 1)) p.count (s.mirror p.chan) ∧ s.crossing = some i ∨
        c = .ronyrApplyReport t ∧ p.mode = 2 ∧ p.armedAt ≤ i ∧ ∃ rest, s.line.rx = .applied i :: rest) →
      s.gives c ([.stage, .fab, .sec] ++ recordParts) fun s' => s'.rd R.STG_GEN_LIVE = (s.rd R.STG_GEN_LIVE + 1) % 2 ^ 32 ∧
        s'.stgState = 3 ∧ s'.rd R.STG_GEN_PENDING = 0 ∧ s'.rd64 R.STG_LAST_TIME = i / 1000000000 % 2 ^ 64 ∧
        s'.rd (R.STG_LAST_TIME + 8) = i % 1000000000 ∧ s'.stage.pend = none ∧ s'.stage.liveInstant = i ∧
        ∃ r, s'.stage.writing = s.stage.writing ++ [r] ∧ r.seq = (s.rd R.STG_GEN_LIVE + 1) % 2 ^ 32) ∧
    (∀ p : Pending, s.stage.pend = some p → (p.mode ≠ 1 ∨ (s.at' t).tim.ns < p.time) → s.givesNothing (.castTimeReached t)) ∧
    (∀ p : Pending, s.stage.pend = some p → (p.mode ≠ 2 ∨ dist (decide (p.dir = 1)) p.count (s.mirror p.chan) < 0) →
      s.givesNothing (.castCountCrossing t)) ∧
    (∀ i rest, s.stage.pend = none → s.line.rx = .applied i :: rest → s.gives (.ronyrApplyReport t) [.line] fun s' =>
      s'.line = { s.line with rx := rest }) ∧
    (∀ r rest, s.stage.writing = r :: rest → s.scUp = true → s.gives (.retainedRecordComplete t) [.regs, .stage] fun s' =>
      s.regsBut s' [R.STG_GEN_RETAINED] ∧ s'.rd R.STG_GEN_RETAINED = r.seq % 2 ^ 32 ∧ s'.stage =
        { s.stage with writing := rest, records := keepLast (s.stage.records ++ [r.seal]) 64 } ∧ r.seal.complete = true)

/-- R65, R67, R68, R109: restore with no record gives the factory state and waits for the host; `STG_QUIESCE` names a block, and SCH moves
the waiting tasks of a flask it names to the other flasks of their contexts; a debug write is ignored while live debug is locked, refused
unless its block is named and quiesced, and else reaches the live register. Readings the rules leave open rest on log 70, 71 and 73. -/
def Obligations.RestoreAndDebugWrites : Prop :=
  ∀ (s : State) (t : Nat), s.running = true →
    (s.phase = 5 → s.scUp = true → s.boot.restored = false → s.stage.records = [] → s.agreed = false →
      s.gives (.restore t) ([.stage, .boot, .ron] ++ recordParts) fun s' => s'.phase = 6 ∧ s'.bit R.GLB_BOOT_STATUS 8 = true ∧
        s'.rd R.PWR_FAIL_LAST = 0 ∧ s'.rd R.GLB_RESTORE_GEN = 0 ∧ s'.rd R.STG_GEN_LIVE = 0 ∧ s'.boot = { s.boot with restored := true } ∧
        s'.stage = { s.stage with pend := none, shadow := [], rnyShadow := [] } ∧ s'.stgState = 0) ∧
    ((s.phase ≠ 5 ∨ s.scUp = false ∨ s.boot.restored = true) → s.givesNothing (.restore t)) ∧
    (∀ v : W32, s.gives (.quiesceRequest t v) [.regs, .sch] fun s' => s.regsBut s' [R.STG_QUIESCE] ∧
      s'.fld R.STG_QUIESCE 0 6 = v.toNat % 64 ∧ s'.bit R.STG_QUIESCE 8 = v.getLsbD 8 ∧ s'.rd R.STG_QUIESCE < 512 ∧
      s'.sch.ctxs = s.sch.ctxs ∧ (∀ n x id k, (n, x, id, k) ∈ s.sch.deques → n ≠ v.toNat % 64 → (n, x, id, k) ∈ s'.sch.deques) ∧
      (v.getLsbD 8 = true → ∀ n x id k, (n, x, id, k) ∈ s'.sch.deques → n = v.toNat % 64 → s'.placeable x = []) ∧
      (v.getLsbD 8 = false ∨ (∀ d ∈ s.sch.deques, d.1 ≠ v.toNat % 64) → s'.sch = s.sch)) ∧
    (∀ v : W32, let a := s.rd R.STG_DBG_ADDR
      (s.bit R.SEC_STAT 5 = false ∨ a < 2 ^ 31 ∧ stagedWord a = none → s.gives (.debugWrite t v) [.regs] fun s' => s.regsBut s' [R.STG_IGNORED] ∧
        s'.rd R.STG_IGNORED = (s.rd R.STG_IGNORED + 1) % 2 ^ 32) ∧
      (s.bit R.SEC_STAT 5 = true → (2 ^ 31 ≤ a ∨ (stagedWord a).isSome = true ∧
          (blockOf a ≠ s.fld R.STG_QUIESCE 0 6 ∨ s.quiescedNow = false)) →
        s.gives (.debugWrite t v) [.regs] fun s' => s.regsBut s' [R.STG_STATUS] ∧ s'.fld R.STG_STATUS 16 16 = E_LIVE_BUSY ∧
          s'.stgState = s.stgState) ∧
      (∀ q, s.bit R.SEC_STAT 5 = true → a < 2 ^ 31 → stagedWord a = some q → blockOf a = s.fld R.STG_QUIESCE 0 6 →
        s.quiescedNow = true → s.sch.ctxs = [(0, {})] → (a = R.MEM_QOS ∨ 0x03801000 ≤ a ∧ a < 0x03808000) →
        s.gives (.debugWrite t v) ([.sec, .fab] ++ recordParts) fun s' => s'.rd a = q.keep v.toNat % 2 ^ 32 ∧
          s'.bit R.STG_STATUS 4 = true ∧ s'.sec = { s.sec with liveSince := true }))

/-! ### Cameras and the chain -/

/-- R115–R122, R47, R118, R132, Table 6.2: a camera's bring-up with its init list, loss and repetition, PoCXP runs, faults and retries,
triggers, and the control mailbox. Where a camera stops, no slot takes a stream of it. Readings the rules leave open rest on log 2, 34, 35
and 108. -/
def Obligations.Cameras : Prop :=
  ∀ (s : State) (t : Nat) (c : Fin 32), s.running = true →
    let now := max s.now t
    let k := s.cam c
    (∀ d : Discovery, s.camOn c = true →
      let top := s.fld (R.CXP_PORT_CFG c) 2 3
      let len := min 256 (s.fld (R.CXP_INIT_LEN c) 0 9)
      let n := min len (k.initDone + d.acks)
      let sent (j : Nat) := (List.range j).map fun e => (s.rd (R.CXP_INIT c e), s.rd (R.CXP_INIT c e + 4))
      (∀ v, (s.camState c = 7 ∧ v = s.fld (R.CXP_PORT_STAT c) 3 3 ∨ s.camState c = 2 ∧ 2 ^ s.fld (R.CXP_PORT_CFG c) 13 2 ≤ d.conns ∧
          d.speeds.getLsbD v = true ∧ v ≤ top ∧ ∀ w, d.speeds.getLsbD w = true → w ≤ top → w ≤ v) →
        (n = len → s.gives (.cameraDiscoveryDone t c d) [.regs, .free, .intk] fun s' => s'.camState c = 3 ∧
          s'.fld (R.CXP_PORT_STAT c) 3 3 = v ∧ (s'.cam c).wrote = sent len) ∧
        (n < len → d.failed = false → s.gives (.cameraDiscoveryDone t c d) [.regs, .intk] fun s' => s'.camState c = 7 ∧
          s'.fld (R.CXP_PORT_STAT c) 3 3 = v ∧ (s'.cam c).initDone = n ∧ (s'.cam c).wrote = sent (n + 1)) ∧
        (n < len → d.failed = true → s.camSlots c = [] → s.gives (.cameraDiscoveryDone t c d) ([.intk] ++ raiseParts) fun s' =>
          s'.camState c = 4 ∧ (s'.cam c).retryAt = some (now + 1000000000))) ∧
      (s.camState c = 2 → (d.conns < 2 ^ s.fld (R.CXP_PORT_CFG c) 13 2 ∨ ∀ w, d.speeds.getLsbD w = true → top < w) → s.camSlots c = [] →
        s.gives (.cameraDiscoveryDone t c d) ([.intk] ++ raiseParts) fun s' => s'.camState c = 4 ∧ (s'.cam c).stamps = [] ∧
          (s'.cam c).retryAt = some (now + 1000000000))) ∧
    (s.camOn c = true → (s.camState c = 3 ∨ s.camState c = 2 ∨ s.camState c = 7) → s.camSlots c = [] →
      s.gives (.cameraLinkLost t c) ([.intk] ++ raiseParts) fun s' => s'.camState c = 4 ∧ (s'.cam c).stamps = [] ∧
        (s'.cam c).retryAt = some (now + 1000000000)) ∧
    (∀ a, k.retryAt = some a → s.camOn c = true → s.camState c = 4 →
      (a ≤ now → s.bit (R.CXP_PORT_CFG c) 1 = false → s.gives (.cameraRediscoveryTimer t c) [.regs, .intk] fun s' => s'.camState c = 2 ∧
        s'.rd (R.CXP_REDISC c) = (s.rd (R.CXP_REDISC c) + 1) % 2 ^ 32 ∧ (s'.cam c).retryAt = none) ∧
      (now < a → s.givesNothing (.cameraRediscoveryTimer t c))) ∧
    (∀ f : BitVec 32, f &&& s.pocxp.enables &&& s.pocxp.prevFault = 0 → s.gives (.pocxpChainRun t f) [.regs, .pocxp] fun s' =>
      s'.pocxp = { s.pocxp with enables := s.pocxpWanted, prevFault := f &&& s.pocxp.enables } ∧
      s'.rd R.CXP_POCXP_ON = s.pocxpWanted.toNat) ∧
    (∀ f : BitVec 32, f &&& s.pocxp.enables &&& s.pocxp.prevFault = 1#32 <<< (c : Nat) → s.camState (s.camOf c) ≠ 5 →
      s.camSlots (s.camOf c) = [] → s.gives (.pocxpChainRun t f) ([.pocxp, .intk] ++ raiseParts) fun s' =>
        s'.camState (s.camOf c) = 5 ∧ s'.bit R.CXP_POCXP_FAULT c = true ∧ (s.camFaults (s.camOf c) = [] →
          KMap.find s'.pocxp.retryAt (s.camOf c) = some (now + 10000000000))) ∧
    (let m := s.camOf c
     ∀ a, KMap.find s.pocxp.retryAt m = some a → a ≤ now → s.camOn m = true → s.camState m = 5 →
      s.gives (.pocxpRetryTimeout t c) [.regs, .pocxp, .intk] fun s' => KMap.find s'.pocxp.retryAt m = none ∧
        s'.camState m = if s.bit (R.CXP_PORT_CFG m) 1 && !(s.camPorts m).all (s.pocxp.enables.getLsbD) then 1 else 2) ∧
    (∀ v : W32, s.gives (.pocxpFaultClear t v) [.regs, .pocxp, .intk] fun s' =>
      ∀ i, i < 32 → s'.bit R.CXP_POCXP_FAULT i = (s.bit R.CXP_POCXP_FAULT i && !v.getLsbD i)) ∧
    (∀ n a lost rest, k.edges = (n, a, lost) :: rest →
      ((lost = true ∨ s.camState c ≠ 3) → s.gives (.triggerEdgeReport t c) [.regs, .intk] fun s' =>
        s.regsBut s' [R.CXP_TRIG_DROP c] ∧ s'.rd (R.CXP_TRIG_DROP c) = (s.rd (R.CXP_TRIG_DROP c) + 1) % 2 ^ 32 ∧
        s'.cam c = { k with edges := rest, dropped := joinGap k.dropped (n, n, 1) }) ∧
      (lost = false → s.camState c = 3 → k.uplink = [] → k.stamps.length < 8192 →
        s.gives (.triggerEdgeReport t c) [.regs, .intk] fun s' =>
          s.regsBut s' [R.CXP_TRIG_SENT c] ∧ s'.rd (R.CXP_TRIG_SENT c) = (s.rd (R.CXP_TRIG_SENT c) + 1) % 2 ^ 32 ∧
          s'.cam c = { k with edges := rest, uplink := [now], dropped := none
                              stamps := k.stamps ++ [{ lost := k.dropped, count := n, time := a }] })) ∧
    (∀ (v : W32) (i : Instr), (i = .cxpCtlRead t v ∨ i = .cxpCtlWrite t v) →
      (v.getLsbD 6 = true → s.attached = true → s.intk.ctl = none → s.gives i [.regs, .intk] fun s' =>
        s'.rd R.CXP_CTL_STAT = 1 ∧ ∃ o, s'.intk.ctl = some o ∧ o.port = v.toNat % 32 ∧ o.write = v.getLsbD 5 ∧
          o.addr = s.rd R.CXP_CTL_ADDR ∧ o.data = s.rd R.CXP_CTL_DATA ∧
          o.held = decide (s.camState (v.toNat % 32) ∈ [1, 2, 7])) ∧
      (v.getLsbD 6 = false ∨ s.attached = false ∨ s.intk.ctl ≠ none → s.gives i [.regs] fun s' => s.regsBut s' [R.CXP_CTL_CMD])) ∧
    (∀ o, s.intk.ctl = some o → o.held = false →
      (∀ (e : BitVec 8) (w : W32), s.gives (.cxpCtlAck t e ⟨w, true⟩) [.regs, .intk] fun s' => s'.intk.ctl = none ∧
        s'.rd R.CXP_CTL_STAT = 2 + e.toNat * 256 ∧ s'.rd R.CXP_CTL_DATA = (if o.write then s.rd R.CXP_CTL_DATA else w.toNat) ∧
        if o.write = true ∧ e = 0 ∧ o.addr = Config.testModeReg.toNat
          then s'.cam o.port = { s.cam o.port with testMode := decide (o.data ≠ 0) } else s'.intk = { s.intk with ctl := none }) ∧
      (∀ (e : BitVec 8) (w : W32),
        (o.resends < 3 → s.gives (.cxpCtlAck t e ⟨w, false⟩) [.intk] fun s' =>
          s'.intk = { s.intk with ctl := some { o with resends := o.resends + 1, sentAt := now } }) ∧
        (3 ≤ o.resends → s.gives (.cxpCtlAck t e ⟨w, false⟩) ([.intk] ++ raiseParts) fun s' =>
          s'.intk = { s.intk with ctl := none } ∧ s'.rd R.CXP_CTL_STAT = 3)) ∧
      (now < o.sentAt + 100000000 → s.givesNothing (.cxpCtlAckTimeout t)) ∧
      (o.sentAt + 100000000 ≤ now → o.resends < 3 → s.gives (.cxpCtlAckTimeout t) [.intk] fun s' =>
        s'.intk = { s.intk with ctl := some { o with resends := o.resends + 1, sentAt := now } }) ∧
      (o.sentAt + 100000000 ≤ now → 3 ≤ o.resends → s.gives (.cxpCtlAckTimeout t) ([.intk] ++ raiseParts) fun s' =>
        s'.intk = { s.intk with ctl := none } ∧ s'.rd R.CXP_CTL_STAT = 3)) ∧
    (s.camState (s.camOf c) = 3 → s.gives (.cameraEventPacket t c) [.free, .regs, .dbg] fun s' => s'.dbg.logSeq = s.dbg.logSeq + 1)

/-- R126, R127, R129: PRBS lock with the counting that goes on under it, relock and clearing; an eye scan's start, refusal, points and abort. Readings the rules leave open rest
on log 44. -/
def Obligations.LaneMeasurements : Prop :=
  ∀ (s : State) (t : Nat), s.running = true →
    (∀ p : Fin 32, s.prbsActive p = true →
      (∀ bits errs, s.gives (.prbsLock t ⟨p, bits, errs⟩) [.regs] fun s' =>
        let was := if s.bit (R.CXP_PRBS_STAT p) 0 then s.rd (R.CXP_PRBS_ERR p) else 0
        s.regsBut s' [R.CXP_PRBS_STAT p, R.CXP_PRBS_BITS p, R.CXP_PRBS_BITS p + 4, R.CXP_PRBS_ERR p] ∧
        s'.bit (R.CXP_PRBS_STAT p) 0 = true ∧ s'.fld (R.CXP_PRBS_STAT p) 8 8 = s.fld (R.CXP_PRBS_STAT p) 8 8 ∧
        s'.rd64 (R.CXP_PRBS_BITS p) = (s.rd64 (R.CXP_PRBS_BITS p) + bits) % 2 ^ 64 ∧
        s'.rd (R.CXP_PRBS_ERR p) = min (2 ^ 32 - 1) (was + errs)) ∧
      (∀ bits errs, s.bit (R.CXP_PRBS_STAT p) 0 = true → s.gives (.prbsRelock t p bits errs) [.regs] fun s' =>
        s'.bit (R.CXP_PRBS_STAT p) 0 = false ∧ s'.fld (R.CXP_PRBS_STAT p) 8 8 = min 255 (s.fld (R.CXP_PRBS_STAT p) 8 8 + 1) ∧
        s'.rd64 (R.CXP_PRBS_BITS p) = (s.rd64 (R.CXP_PRBS_BITS p) + bits) % 2 ^ 64 ∧
        s'.rd (R.CXP_PRBS_ERR p) = min (2 ^ 32 - 1) (s.rd (R.CXP_PRBS_ERR p) + errs))) ∧
    (∀ (p : Fin 32) (v : W32), s.gives (.prbsClear t p v) [.regs] fun s' => s'.rd (R.CXP_PRBS_CTRL p) = v.toNat % 8 ∧
      (v.getLsbD 3 = true → s'.rd (R.CXP_PRBS_STAT p) = 0 ∧ s'.rd (R.CXP_PRBS_ERR p) = 0 ∧ s'.rd64 (R.CXP_PRBS_BITS p) = 0) ∧
      (v.getLsbD 3 = false → s.regsBut s' [R.CXP_PRBS_CTRL p])) ∧
    (∀ (e : Fin 2) (v : W32) (i : Instr), (i = .eyeScanStart t e v ∨ i = .eyeScanAbort t e v) →
      let stat := eyeBase e + 12
      (KMap.find s.intk.eye e = none → v.getLsbD 16 = true →
        (∀ k, s.eyeAsk e v.toNat = some k → s.gives i [.regs, .intk] fun s' => s'.rd stat = 1 ∧ KMap.find s'.intk.eye e = some k ∧
          ∀ n, n < k.phase.2.2 * k.volt.2.2 → s'.rd (eyeRes e n) = 3 * 2 ^ 30) ∧
        (s.eyeAsk e v.toNat = none → s.gives i [.regs] fun s' => s'.rd stat = 3)) ∧
      (∀ k, KMap.find s.intk.eye e = some k → v.getLsbD 17 = true → s.gives i [.regs, .intk] fun s' =>
        KMap.find s'.intk.eye e = none ∧ s'.fld stat 0 2 = 2 ∧ s'.bit stat 2 = true)) ∧
    (∀ (e : Fin 2) (errs : Nat) (bad : Bool) (k : EyeScan), KMap.find s.intk.eye e = some k → k.next < 4096 →
      s.gives (.eyeScanPointDone t e errs bad) [.regs, .intk] fun s' =>
        s'.fld (eyeRes e k.next) 0 16 = min 65535 errs ∧ s'.fld (eyeRes e k.next) 30 2 = s.eyeStatus e k.lane bad ∧
        s'.fld (eyeRes e k.next) 16 6 = (k.phase.1 + k.next / k.volt.2.2 * k.phase.2.1) % 64 ∧
        KMap.find s'.intk.eye e = if k.next + 1 < k.phase.2.2 * k.volt.2.2 then some { k with next := k.next + 1 } else none)

/-- R123, R124, R128, R130–R132, R426–R434, R436, R453: Nolox lanes train, retrain, idle and count; ports come up, authenticate or are
held; frames arrive, window writes land and are answered end to end, retries resend; share messages, unreachable devices and count
alignment. Here no frame waits. Readings the rules leave open rest on log 36, 63, 78 and 109. -/
def Obligations.ChainCommands : Prop :=
  ∀ (s : State) (t : Nat), s.running = true → s.chain.inject = [] → s.chain.transit = [] → s.chain.heldAt = none →
    s.chain.ports.length = 4 →
    let now := max s.now t
    (∀ (l : Fin 8) (taps : BitVec 16) (ctle : BitVec 4), s.portOn (l / 2) = true → s.laneState l ≤ 1 →
      (s.gives (.nlxTrainingDone t l true taps ctle) [.regs, .intk] fun s' => s'.laneState l = 2 ∧ s'.laneHears l = true ∧ s'.rd (R.LNK_NLX_TXEQ_USE l) =
        if s.bit (R.LNK_NLX_TXEQ l) 16 then taps.toNat else s.rd (R.LNK_NLX_TXEQ l) % 65536) ∧
      (s.fld (R.LNK_NLX_PORT_STAT (l / 2)) 0 2 = 0 → s.gives (.nlxTrainingDone t l false taps ctle) [.regs] fun s' =>
        s'.rd (R.LNK_NLX_LANE_STAT l) = 0 ∧ s.regsBut s' [R.LNK_NLX_LANE_STAT l])) ∧
    (∀ l : Fin 8, s.laneState l = 4 →
      ((s.lane l).retrains.length < 3 → s.gives (.nlxLaneRetrain t l true) [.regs, .intk] fun s' => s'.laneState l = 2 ∧
        s'.laneHears l = true ∧ s'.bit (R.LNK_NLX_LANE_STAT l) 3 = true ∧ s.regsBut s' [R.LNK_NLX_LANE_STAT l, R.LNK_NLX_TXEQ_USE l] ∧
        s'.rd (R.LNK_NLX_TXEQ_USE l) =
          if s.bit (R.LNK_NLX_TXEQ l) 16 then s.rd (R.LNK_NLX_TXEQ_USE l) else s.rd (R.LNK_NLX_TXEQ l) % 65536) ∧
      (s.gives (.nlxLaneRetrain t l false) raiseParts fun s' => s'.laneState l = 1)) ∧
    (∀ (l : Fin 8) (errs : Fin 65) (hdr : List (Fin 65)), let hears := (s.laneState l = 2 ∨ s.laneState l = 3) ∧ (s.lane l).rxIdle = false
      (hears → s.gives (.nlxCheckBlockReceived t l errs hdr) [.regs, .intk] fun s' =>
        s'.rd (R.LNK_NLX_CHK_ERR l) = min (2 ^ 32 - 1) (s.rd (R.LNK_NLX_CHK_ERR l) + errs) ∧
        s'.rd64 (R.LNK_NLX_CHK_BITS l) = (s.rd64 (R.LNK_NLX_CHK_BITS l) + 64) % 2 ^ 64 ∧
        s'.rd (R.LNK_NLX_HDR_ERR l) = min (2 ^ 32 - 1) (s.rd (R.LNK_NLX_HDR_ERR l) + (hdr.map Fin.val).sum)) ∧
      (¬ hears → s.givesNothing (.nlxCheckBlockReceived t l errs hdr)) ∧
      (hears → s.gives (.nlxIdleEnter t ⟨l, true⟩) [.intk] fun s' => (s'.lane l).rxIdle = true) ∧
      (¬ hears → s.givesNothing (.nlxIdleEnter t ⟨l, true⟩)) ∧
      ((s.lane l).rxIdle = true → s.gives (.nlxIdleExit t ⟨l, true⟩) [.regs, .intk] fun s' => (s'.lane l).rxIdle = false ∧
        s'.bit (R.LNK_NLX_LANE_STAT l) 3 = true ∧ s.regsBut s' [R.LNK_NLX_LANE_STAT l])) ∧
    (∀ l : Fin 8, s.laneState l = 2 → s.bit R.LNK_NLX_LANE_CFG 0 = true → s.sbarArmed = false →
      (s.lane l).frameAt + s.fld R.LNK_NLX_LANE_CFG 8 8 * 1000 ≤ now → s.gives (.nlxIdleEnter t ⟨l, false⟩) [.regs] fun s' =>
        s'.laneState l = 3 ∧ s.regsBut s' [R.LNK_NLX_LANE_STAT l]) ∧
    (∀ l : Fin 8, s.laneState l = 3 → s.gives (.nlxIdleExit t ⟨l, false⟩) [.regs, .intk] fun s' => s'.laneState l = 2 ∧
      s.regsBut s' [R.LNK_NLX_LANE_STAT l] ∧ s'.lane l = { s.lane l with frameAt := now }) ∧
    (∀ (p : Fin 4) (h : PeerHello), s.portOn p = true → s.portUp p = false → (s.nlx p).replay = [] → s.timSrc ≠ 2 →
      s.laneState (2 * p) = 2 → s.laneState (2 * p + 1) = 2 →
      let n := max 1 (s.fld R.LNK_CHAIN_CFG 18 7)
      let astray := if s.topo = 1 then ¬ ((p : Nat) = 0 ∧ h.id.toNat = (s.chainId + n - 1) % n ∨
        (p : Nat) = 1 ∧ h.id.toNat = (s.chainId + 1) % n) else h.positionOk = false
      let clash := h.id.toNat = s.chainId ∨ h.topo.toNat ≠ s.topo ∨ astray
      (¬ clash → s.gives (.nlxPortLinkup t p h) [.regs, .chain] fun s' => s'.fld (R.LNK_NLX_PORT_STAT p) 0 2 = 1 ∧
        s'.fld (R.LNK_NLX_PORT_STAT p) 2 6 = h.id.toNat ∧ ∀ d, d ∈ (s'.nlx p).reach ↔ d = h.id.toNat ∨ ∃ e ∈ h.reach, d = e.toNat) ∧
      (clash → s.gives (.nlxPortLinkup t p h) ([.chain] ++ raiseParts) fun s' => s'.fld (R.LNK_NLX_PORT_STAT p) 0 2 = 3)) ∧
    (∀ (p : Fin 4) (a b : Bool) (o : Option (BitVec 768)), s.fld (R.LNK_NLX_PORT_STAT p) 0 2 = 1 →
      let pass := a = true ∧ b = true ∧ o.map BitVec.toNat = s.sec.owner
      (s.scUp = true → pass → s.gives (.peerAuthComplete t p a b o) [.regs, .chain] fun s' => s'.portUp p = true) ∧
      (s.scUp = true → ¬ pass → (s.nlx p).replay = [] → s.timSrc ≠ 2 →
        s.gives (.peerAuthComplete t p a b o) ([.chain] ++ raiseParts) fun s' => s'.fld (R.LNK_NLX_PORT_STAT p) 0 2 = 3) ∧
      (s.scUp = false → s.gives (.peerAuthComplete t p a b o) [.sec] fun s' =>
        s'.sec = { s.sec with authWait := s.sec.authWait ++ [((p : Nat), decide pass, 0)] })) ∧
    (∀ (p : Fin 4) (f : NlxRx), s.portUp p = true → f.ack = none → f.only = false → f.heads = [] → f.answers = [] →
      f.reach = none → f.aligned = [] →
      (f.crcOk = false → s.gives (.nlxFrameReceive t p f) [.regs, .chain] fun s' =>
        s'.rd (R.LNK_NLX_CRC_ERR p) = min (2 ^ 32 - 1) (s.rd (R.LNK_NLX_CRC_ERR p) + 1) ∧
        s'.nlx p = { s.nlx p with ack := some (true, (s.nlx p).rxSeq), answers := [] }) ∧
      (∀ g a, f.crcOk = true → f.lseq.toNat = (s.nlx p).rxSeq → f.dst.toNat = s.chainId → f.typ = 0 →
        s.grantFor f.src.toNat f.ctx.toNat f.addr.toNat f.payload.length = some g → a = g.base + f.addr.toNat →
        (∃ x, s.xlateAll g.ctx true false 2 a (max 1 f.payload.length) = .ok x) → a % 4096 + f.payload.length ≤ 4096 →
        s.gives (.nlxFrameReceive t p f) [.regs, .chain, .fab] fun s' =>
          (s'.nlx p).rxSeq = ((s.nlx p).rxSeq + 1) % 4096 ∧ (s'.nlx p).ack = some (false, (s.nlx p).rxSeq) ∧
          (∀ r, s.route f.src.toNat = some r → (s'.nlx r).answers =
            [{ dst := f.src, src := BitVec.ofNat 6 s.chainId, ctx := f.ctx, addr := f.addr, refused := false }]) ∧
          (∀ k, k < f.payload.length → Mem.read s'.fab.dram (s.physOf g.ctx a + k) = nth f.payload k 0) ∧
          ∀ b, (b < s.physOf g.ctx a ∨ s.physOf g.ctx a + f.payload.length ≤ b) → Mem.read s'.fab.dram b = Mem.read s.fab.dram b)) ∧
    (∀ p : Fin 4, s.portUp p = true → (s.nlx p).replay ≠ [] →
      ((s.nlx p).ackAt + 3000 ≤ now → (s.nlx p).resends < 15 → s.gives (.nlxRetryTimeout t p) [.regs, .chain] fun s' =>
        s'.nlx p = { s.nlx p with resends := (s.nlx p).resends + 1, ackAt := now } ∧
        s'.rd (R.LNK_NLX_RESENDS p) = min (2 ^ 32 - 1) (s.rd (R.LNK_NLX_RESENDS p) + (s.nlx p).replay.length)) ∧
      (now < (s.nlx p).ackAt + 3000 → s.givesNothing (.nlxRetryTimeout t p))) ∧
    (∀ (src cls : BitVec 6) (seg : Int) (lead : BitVec 48) (kind : BitVec 2),
      (∀ i, s.shareEntry cls.toNat src.toNat seg = some i → kind = 0 →
        s.gives (.shareMessage t src cls seg lead kind) [.chain] fun s' =>
          s'.chain = { s.chain with done := s.chain.done ++ [(i, src.toNat)] }) ∧
      (s.shareEntry cls.toNat src.toNat seg = none → s.gives (.shareMessage t src cls seg lead kind) [.regs] fun s' =>
        s'.fld R.LNK_SHARE_STAT 0 16 = min 65535 (s.fld R.LNK_SHARE_STAT 0 16 + 1) ∧ s.regsBut s' [R.LNK_SHARE_STAT])) ∧
    (∀ d : BitVec 6, s.route d.toNat = none → d.toNat ∉ s.chain.lost → d.toNat ≠ s.chainId → s.sch.pours = [] → s.line.ledger = [] →
      s.gives (.nlxDestUnreachable t d) ([.chain] ++ raiseParts) fun s' =>
        s'.chain = { s.chain with lost := s.chain.lost ++ [d.toNat]
                                  flying := s.chain.flying.filter fun y => y.dst != d.toNat }) ∧
    (∀ (ch : Fin 2) (hp op : BitVec 48) (ht ot : Nat), let aligned := s.bit (R.LNK_ALIGN ch + 4) 16
      let same := wrapI (diff48 hp.toNat op.toNat) 48 = s.rd64 (R.LNK_ALIGN ch) % 2 ^ 48
      let near := (ht : Int) - ot < 1000 ∧ (ot : Int) - ht < 1000
      (¬ near → aligned = false → s.givesNothing (.alignPair t ch hp ht op ot)) ∧
      (near → aligned = true → (diff48 op.toNat (nth s.chain.align ch {}).lastP).natAbs ≤ 2 * s.rfld (R.RNY_ENC_CHK ch) 0 16 →
        (same → s.gives (.alignPair t ch hp ht op ot) [.regs, .chain] fun s' =>
          s'.fld (R.LNK_ALIGN_CNT ch) 0 16 = min 65535 (s.fld (R.LNK_ALIGN_CNT ch) 0 16 + 1) ∧ s.regsBut s' [R.LNK_ALIGN_CNT ch]) ∧
        (¬ same → s.gives (.alignPair t ch hp ht op ot) ([.chain] ++ raiseParts) fun s' =>
          s'.bit (R.LNK_ALIGN ch + 4) 16 = false ∧ s'.bit (R.LNK_ALIGN ch + 4) 17 = true)))

/-! ### Runners -/

/-- R122, R136, R139, R141, R146, R149, R151: a line takes the oldest stamp and waits; a block header is taken or its block dropped; a
block times out; a feed's tail; a codec tile is decoded or refused; an ROI list is committed, refused or late. Here every row of the slot
is of the live generation. Readings the rules leave open rest on log 31, 32, 33, 61, 112 and 113. -/
def Obligations.RunnerInput : Prop :=
  ∀ (s : State) (t : Nat) (r : Fin 16) (k : Fin 4), s.running = true →
    let j := 4 * (r : Nat) + k
    let x := s.slot j
    let now := max s.now t
    let w := s.fld (R.RUN_GEOM r k) 0 16
    let fmt := s.fld (R.RUN_SRC r k) 8 2
    let fits (n : Nat) := 1 ≤ n ∧ n ≤ s.fld (R.RUN_GEOM r k) 16 16 ∧ n % (s.fld (R.RUN_LIN r k) 1 2 + 1) = 0
    (∀ a, s.rowGen j a = s.liveGen) →
    (∀ (str : Fin 64) (px : List (BitVec 16)) (p : Nat) (e : Stamp) (es : List Stamp) (b n got : Nat), s.streamCam str = some p →
      s.fld (R.CXP_TRIG_CFG p) 0 2 ≠ 0 → (s.cam p).stamps = e :: es → e.lost = none → s.blkSlot str = some j →
      s.rd (R.RUN_SRC r k) % 4 = 1 → s.rd (R.RUN_SRC r k) / 4 % 64 = str → x.blkHdr = (str.val, p, w, fmt) → fits n →
      x.blk = some (b, n, got) → x.dropRest = false → px.length = w → s.lineRoom s.liveGen j fmt w b = true →
      s.gives (.cameraLineReceived t str px {}) [.intk] fun s' => (s'.cam p).stamps = es ∧
        (s'.slot j).blk = (if n ≤ got + 1 then none else some (b, n, got + 1)) ∧ (s'.slot j).gapIn = none ∧
        ∃ l, (s'.slot j).inq = x.inq ++ [l] ∧ l.row.px = px.map (fun v => v.toNat % 2 ^ pxBits fmt) ∧ l.row.count = e.count ∧
          l.row.time = e.time ∧ l.row.gap = x.gapIn ∧ l.block = b ∧ l.idx = got ∧ l.last = decide (n ≤ got + 1)) ∧
    (∀ (h : BlockHeader) (p : Nat), s.rd (R.RUN_SRC r k) % 4 = 1 → s.streamCam (s.rd (R.RUN_SRC r k) / 4 % 64) = some p → x.blk = none →
      x.tap = none → x.inq = [] →
      let n := h.lines.toNat
      let good := h.width.toNat = w ∧ fits n ∧ h.fmt.toNat = fmt
      let y : Slot := { x with nextBlock := (x.nextBlock + 1) % 2 ^ 32, blk := if n = 0 then none else some (x.nextBlock, n, 0), pktAt := now
                               blkCut := false, blkHdr := (s.rd (R.RUN_SRC r k) / 4 % 64, p, h.width.toNat, h.fmt.toNat) }
      (good → s.gives (.blockHeaderReceived t r k h) [.regs, .intk] fun s' => s'.slot j = { y with dropRest := false } ∧
        s.regsBut s' [R.RUN_BLOCKS r k] ∧ s'.rd (R.RUN_BLOCKS r k) = (s.rd (R.RUN_BLOCKS r k) + 1) % 2 ^ 32) ∧
      (¬ good → s.gives (.blockHeaderReceived t r k h) ([.intk] ++ raiseParts) fun s' => s'.slot j = { y with dropRest := decide (n ≠ 0) } ∧
        s'.rd (R.RUN_TRUNC r k) = (s.rd (R.RUN_TRUNC r k) + 1) % 2 ^ 32 ∧
        s'.rd (R.RUN_LAST_TRUNC r k) = 3 + x.nextBlock % 2 ^ 24 * 256)) ∧
    (∀ b n got, x.blk = some (b, n, got) → x.dropRest = false → x.blkCut = false → x.tap = none → x.inq = [] →
      (x.pktAt + s.fld (R.RUN_BLK_TIMEOUT r k) 0 16 * 1000 < now → s.gives (.blockTimeout t r k) ([.intk] ++ raiseParts) fun s' =>
        s'.slot j = { x with dropRest := true } ∧ s'.rd (R.RUN_LAST_TRUNC r k) = 2 + b % 2 ^ 24 * 256) ∧
      (now ≤ x.pktAt + s.fld (R.RUN_BLK_TIMEOUT r k) 0 16 * 1000 → s.givesNothing (.blockTimeout t r k))) ∧
    (∀ v : W32, s.gives (.feedTailWrite t r k v) [.regs] fun s' => s.regsBut s' [R.RUN_FEED_TAIL r k] ∧
      s'.rd (R.RUN_FEED_TAIL r k) = v.toNat % 65536) ∧
    (∀ bs : List Byte, s.isFeed j = true → x.inq = [] → x.tap = none → s.feedHead j = .ok bs → (leAt bs 5 1).testBit 1 = true →
      let tile := (bs.drop (64 + 16 * leAt bs 12 2)).take (leAt bs 36 4)
      (tileHdr tile (leAt bs 36 4) = none → s.gives (.tileDecode t r k none) ([.intk] ++ raiseParts) fun s' =>
        s'.rd (R.RUN_DEC_REFUSED r k) = (s.rd (R.RUN_DEC_REFUSED r k) + 1) % 2 ^ 32 ∧
        s'.rd (R.RUN_BLOCKS r k) = (s.rd (R.RUN_BLOCKS r k) + 1) % 2 ^ 32 ∧ (s'.slot j).inq = []) ∧
      (∀ h rows, tileHdr tile (leAt bs 36 4) = some h → h.w * h.h * h.bits ≤ s.rd (R.RUN_DEC_MAX r k) →
        h.entries.any (fun e => decide (2048 * e.2 < e.1 * h.w * h.bits)) = false → s.recMatch j bs h.w h.h h.bits = true →
        h.h = leAt bs 12 2 → decodeBlocks h.bits h.w h.entries (tile.drop (32 + 8 * h.entries.length)) = (rows, true) →
        s.gives (.tileDecode t r k none) [.regs, .intk] fun s' => (s'.slot j).inq.map (fun l => l.row.px) = rows ∧
          s'.rd (R.RUN_FEED_HEAD r k) = (s.rd (R.RUN_FEED_HEAD r k) + 1) % s.feedSize j)) ∧
    (∀ v : W32, let n := s.fld (R.RUN_ROI_COUNT r k) 0 10
      (256 < n → s.gives (.roiCommit t r k v) ([.intk] ++ raiseParts) fun s' =>
        s'.slot j = { x with rois := x.rois.filter (fun e => e.1 != v.toNat) }) ∧
      (n ≤ 256 → x.roiLate v.toNat = true → s.gives (.roiCommit t r k v) [.regs] fun s' => s.regsBut s' [R.RUN_ROI_LATE r k] ∧
        s'.rd (R.RUN_ROI_LATE r k) = (s.rd (R.RUN_ROI_LATE r k) + 1) % 2 ^ 32) ∧
      (n ≤ 256 → x.roiLate v.toNat = false → s.gives (.roiCommit t r k v) [.intk] fun s' =>
        s'.slot j = { x with rois := x.rois.filter (fun e => e.1 != v.toNat) ++ [(v.toNat, (List.range n).map (fun i =>
          s.rd64 (R.RUN_ROI_LIST r k (s.fld (R.RUN_ROI_COUNT r k) 16 1) i)))] }))

/-- R142, R53, R162, R287, R372: with every optional stage off, a line of slot 0 becomes a row with its pixels normalised and in the
output format; the oldest row that waits goes to its stripes once they have room; the head outputs of a piece give its verdict and action,
or, with a code already set, are kept. Here every row of the slot is of the live generation, and no stripe of an old configuration is
left. Readings the rules leave open rest on log 22, 60 and 65. -/
def Obligations.RunnerOutput : Prop :=
  ∀ (s : State) (t : Nat) (r : Fin 16), s.running = true →
    (∀ l : InLine, let j := 4 * (r : Nat)
      let x := s.slot j
      x = { x with inq := [l], outq := [], merge := [], bin := [], delay := [], lanes := [], tap := none, roiRecs := [], retired := none } →
      s.pwr.state = 0 → s.boot.lineStarted = true → s.crossing = none → s.fld (R.RUN_SRC r 0) 0 2 = 1 → s.fld (R.RUN_LIN r 0) 0 3 = 0 →
      s.fld (R.RUN_FF r 0) 0 2 = 0 → s.fld (R.RUN_CROP r 0) 0 14 = 0 → l.row.px.length ≤ s.fld (R.RUN_CROP r 0) 16 15 →
      s.fld (R.RUN_BIN r 0) 0 10 = 17 → s.fld (R.RUN_TAP_CFG r 0) 0 1 = 0 → s.fld (R.RUN_ROI_CFG r 0) 0 1 = 0 →
      s.fld (R.RUN_SEG_CFG r 0) 0 2 = 0 → l.row.gap = none → (∀ a, s.rowGen j a = s.liveGen) →
      s.gives (.runnerLine t r 0 none) [.regs, .intk] fun s' => (s'.slot j).inq = [] ∧ (s'.slot j).rowNo = x.rowNo + 1 ∧
        ∃ row, (s'.slot j).outq = [row] ∧ row.count = l.row.count ∧ row.time = l.row.time ∧ row.gap = x.gapOut ∧
          row.px = l.row.px.map (fun v => outPx (s.bit (R.RUN_SRC r 0) 10) (normPx (s.fld (R.RUN_SRC r 0) 8 2) v))) ∧
    (∀ (k : Fin 4) (row : Row) (rest : List Row), let j := 4 * (r : Nat) + k
      let es := s.stripesFor j (s.rowGen j row.time :: row.gens)
      (s.slot j).outq = row :: rest → s.pwr.state = 0 → (∀ e ∈ s.fab.stripes, e.till = none) →
      (es = [] → s.gives (.gateRowDeliver t r k) [.intk] fun s' => (s'.slot j).outq = rest) ∧
      (∀ e, es = [e] → s.stripeRoom e = true → s.stripeBound e = true → s.gives (.gateRowDeliver t r k) [.regs, .intk, .fab] fun s' =>
        (s'.slot j).outq = rest ∧ s'.evc (e.cru / 2) e.fill = (s.evc (e.cru / 2) e.fill + 1) % 2 ^ 32 ∧
        { e with n := e.n + 1 } ∈ s'.fab.stripes) ∧
      (∀ e ∈ es, s.stripeRoom e = false → s.givesNothing (.gateRowDeliver t r k))) ∧
    (∀ (idx : Fin 131072) (vals : List (List W32)) (h : Nat × Nat) (e : LEntry) (l : List Byte) (f : Nat), s.schUp = true →
      s.sch.handoffs.find? (fun h => h.1 == idx.val) = some h → s.entry idx = some e → e.serial = h.2 → s.ruleSection e = some (l, f) →
      let fs := vals.map (fun v => v.map (headF32 (rb l 7)))
      let res := ruleResult l (s.condBits e fs l)
      (e.verdict ≠ 0 → s.gives (.headOutputsHandoff t idx vals) [.sch, .line] fun s' => s'.entry idx =
        some { e with ruleVerdict := 1 + res.1, ruleIn := s.ruleInputs e fs, lateOut := e.lateOut || e.verdict == 3 }) ∧
      (e.verdict = 0 → s.reached e e.deadline = false → s.line.frozen = false → e.held = true →
        s.gives (.headOutputsHandoff t idx vals) [.sch, .line, .regs, .dbg] fun s' => ∃ e', s'.entry idx = some e' ∧
          e'.verdict = 1 + res.1 ∧ e'.action = res.2 ∧ e'.cause = 0 ∧ e'.state = 4 ∧ e'.dflt = false))

/-! ### Line control -/

/-- R159, R360–R362, R366, R367, R305, R369, R376, R400, R471: a piece opens in a free entry, corrupt or in the safe state with its code
and its default action; its trailing edge and deadline; SCH's reports; Ronyr's answers and fire reports; and the entry is freed with its
record. Readings the rules leave open rest on log 66 and 67. Readings the rules leave open rest on log 67. -/
def Obligations.LedgerCommands : Prop :=
  ∀ (s : State) (t : Nat), s.running = true → s.line.frozen = false →
    (∀ (q : OpenReq) (rest : List OpenReq) (i : Fin 131072), s.intk.opens = q :: rest → s.shareRole q.gen q.cls ≠ 2 →
      s.line.ledger.length < 131072 → s.entry i = none → s.sec.fault = false →
      (s.safe = false → q.corrupt = false → s.memberMissing q.gen q.cls = false →
        s.gives (.ledgerOpenRequest t i) [.line, .intk, .sch, .chain, .stage, .jrn, .regs] fun s' =>
          s'.entry i = some (s.newEntry q s.line.serialNext true) ∧ s'.line.serialNext = s.line.serialNext + 1 ∧
          s'.intk = { s.intk with opens := rest } ∧ ∀ k, k ≠ i.val → s'.entry k = s.entry k) ∧
      (s.safe = true ∨ q.corrupt = true → s.gives (.ledgerOpenRequest t i) [.line, .intk, .sch, .chain, .stage, .jrn, .regs, .dbg] fun s' =>
        ∃ e, s'.entry i = some e ∧ e.verdict = (if s.safe then 6 else 4) ∧ e.cause = (if s.safe then E_SAFE_STATE else q.cause) ∧
          e.serial = s.line.serialNext ∧ e.held = false ∧ e.dflt = true ∧
          e.action = s.defaultAction q.gen q.cls ∧ e.state = 4)) ∧
    (∀ (q : OpenReq) (rest : List OpenReq) (i : Fin 131072), s.intk.opens = q :: rest → s.shareRole q.gen q.cls ≠ 2 →
      131072 ≤ s.line.ledger.length → s.gives (.ledgerOpenRequest t i) ([.intk] ++ recordParts) fun s' =>
        s'.line.ledger = s.line.ledger ∧ s'.rd R.LIN_LEDGER_FULL = (s.rd R.LIN_LEDGER_FULL + 1) % 2 ^ 32 ∧
        s'.rd (R.LIN_VERDICTS 6) = (s.rd (R.LIN_VERDICTS 6) + 1) % 2 ^ 32 ∧ s'.bit R.LIN_HALT_STAT 1 = true) ∧
    (∀ (rid trail rows : Nat) (cut : Bool) (rest : List (Nat × Nat × Nat × Bool)) (i : Nat) (e : LEntry),
      s.intk.trails = (rid, trail, rows, cut) :: rest → s.intk.opens = [] → s.line.ledger.find? (fun e => e.2.rid == rid) = some (i, e) →
      e.verdict = 0 → s.gives (.trailingEdge t) ([.intk, .sch, .stage, .fab] ++ recordParts) fun s' => s'.intk.trails = rest ∧
        ∃ e', s'.entry i = some e' ∧ e'.trailKnown = true ∧ e'.trail = trail ∧ e'.rows = rows ∧ e'.castTrunc = cut ∧ e'.verdict = 0 ∧
          e'.state = (if e.state = 1 then 2 else e.state) ∧
          let dl := s.deadlineFor e.gen e.cls e.lead (dist (s.classRev e.gen e.cls) e.lead trail)
          e'.deadline = if 0 < dist (s.classRev e.gen e.cls) dl e.deadline then dl else e.deadline) ∧
    (∀ (i : Fin 131072) (e : LEntry), s.entry i = some e →
      (s.reached e e.deadline = false → s.givesNothing (.deadlineReached t i)) ∧
      (s.reached e e.deadline = true → e.verdict = 0 → e.trailKnown = false →
        s.gives (.deadlineReached t i) ([.sch] ++ recordParts) fun s' => ∃ e', s'.entry i = some e' ∧ e'.verdict = 3 ∧
          e'.cause = E_DEADLINE_LATE ∧ e'.state = 4 ∧ e'.dflt = true ∧ e'.action = s.defaultAction e.gen e.cls)) ∧
    (∀ (r : Report) (rest : List Report) (e : LEntry), s.sch.reports = r :: rest → r.entry < 131072 → s.entry r.entry = some e →
      e.serial = r.serial → e.verdict = 0 → e.trailKnown = false →
      s.gives (.pieceStateReport t) ([.sch] ++ recordParts) fun s' => s'.sch.reports = rest ∧ ∃ e', s'.entry r.entry = some e' ∧
        (r.kind = 0 → e' = { e with admitted := true, admitStep := r.step % 2 ^ 32 }) ∧
        (r.kind = 1 → e'.verdict = 5 ∧ e'.cause = E_KV_REFUSED ∧ e'.held = false) ∧
        (r.kind = 2 → e' = { e with leave := r.step % 2 ^ 32 }) ∧ (3 ≤ r.kind → e' = { e with held := false })) ∧
    (∀ (o : TapOrder) (a : Nat) (rest : List Msg) (e : LEntry), s.line.rx = .tapAnswer o a :: rest → o.noent = false →
      s.orderEntry o = some e → e.held = true → a ≠ 2 → s.gives (.tapOrderAnswer t) recordParts fun s' => s'.line.rx = rest ∧
        s'.entry o.entry = some (if a = 0 then { e with taps := setNth e.taps o.tap .queued }
          else if a = 1 then { e with retried := true, taps := setNth e.taps o.tap .retry }
          else { e with taps := setNth e.taps o.tap .unfired, unfired := e.unfired ||| BitVec.ofNat 4 (2 ^ o.tap) })) ∧
    (∀ (o : TapOrder) (p a r : Nat) (b : Bool) (rest : List Msg) (e : LEntry), s.line.rx = .fire o p a r b :: rest → o.noent = false →
      s.orderEntry o = some e → r ≠ 2 →
      let e' := { e with taps := setNth e.taps o.tap .fired, fired := e.fired ||| BitVec.ofNat 4 (2 ^ o.tap) }
      (e.held = true → s.gives (.fireReportReceived t) [.line] fun s' => s'.line.rx = rest ∧ s'.entry o.entry = some e') ∧
      (e.verdict ≠ 0 → e.verdict < 8 → e.state = 4 → e.trailKnown = true → e.held = false → e'.tapsSettled = true →
        s.gives (.fireReportReceived t) ([.stage] ++ recordParts) fun s' => s'.entry o.entry = none ∧
          s'.rd (R.LIN_VERDICTS e.verdict) = (s.rd (R.LIN_VERDICTS e.verdict) + 1) % 2 ^ 32))

/-- R364, R378, R379, R382, R383, R385, R470, R471: the deadline sweep and the ledger's codes guard the line; the journal's pages, blocks
and signatures; a block is read through the window; and the line-halt conditions. Here no piece is open and no pour stands. Readings the
rules leave open rest on log 68. -/
def Obligations.HaltAndJournal : Prop :=
  ∀ (s : State) (t : Nat), s.running = true →
    let now := max s.now t
    (∀ c k, s.safe = false → s.line.ledger = [] → s.schIdle → (c = .deadlineSweepStall t ∧ k = 7 ∨
        (∃ i, c = .ledgerEntryUncorrectable t i) ∧ k = 3) →
      ∃ s', exec c s = .next s' ∧ s'.safe = true ∧ s'.fld R.PWR_SAFE_STAT 4 9 = 2 ^ k ||| s.fld R.PWR_SAFE_STAT 4 9 ∧
        s'.line.tx = s.line.tx ++ [.safe] ∧ s'.line.safeSent = some now) ∧
    (s.jrn.pageAt + 100000000 ≤ now → s.gives (.journalPageWrite t) [.jrn] fun s' =>
      s'.jrn = { s.jrn with stored := s.jrn.openBlock.recs.length, pageAt := now }) ∧
    (now < s.jrn.pageAt + 100000000 → s.givesNothing (.journalPageWrite t)) ∧
    (s.jrn.openBlock.recs ≠ [] → s.jrn.firstAt + s.fld R.LIN_JRN_CFG 8 6 * 1000000000 ≤ now → s.jrn.sealedBlocks.length + 1 < 1572864 →
      s.gives (.journalBlockSeal t) [.jrn] fun s' => s'.jrn.openBlock = { num := s.jrn.openBlock.num + 1 } ∧
        ∃ b, s'.jrn.sealedBlocks = s.jrn.sealedBlocks ++ [b] ∧ b.recs = s.jrn.openBlock.recs ∧ b.num = s.jrn.openBlock.num ∧
          b.byTimeout = true ∧ b.late = !s.scUp) ∧
    ((s.jrn.openBlock.recs = [] ∨ now < s.jrn.firstAt + s.fld R.LIN_JRN_CFG 8 6 * 1000000000) → s.givesNothing (.journalBlockSeal t)) ∧
    (∀ b rest, s.jrn.sealedBlocks = b :: rest → b.trailer = none → s.scUp = true → s.gives (.journalBlockSign t) [.jrn, .regs, .dbg] fun s' =>
      ∃ p, let h := Config.sha384Words (b.content ++ [p])
        s'.jrn.sealedBlocks = { b with trailer := some (p, h.toNat, (ikSign h).toNat) } :: rest) ∧
    (∀ v : W32, (v.toNat % 2 = 0 → s.givesNothing (.journalRead t v)) ∧
      (v.toNat % 2 = 1 → s.attached = true → ∀ b, s.blockNo (s.rd64 R.LIN_JRN_RD_BLOCK) = some b →
        s.gives (.journalRead t v) [.jrn, .regs] fun s' => s'.jrn = { s.jrn with window := some b } ∧
          s.regsBut s' [R.LIN_JRN_RD_STAT] ∧ s'.fld R.LIN_JRN_RD_STAT 0 2 = 2) ∧
      (v.toNat % 2 = 1 → (s.attached = false ∨ s.blockNo (s.rd64 R.LIN_JRN_RD_BLOCK) = none) →
        s.gives (.journalRead t v) [.regs] fun s' => s.regsBut s' [R.LIN_JRN_RD_STAT] ∧ s'.fld R.LIN_JRN_RD_STAT 0 2 = 3)) ∧
    (∀ v : W32, s.gives (.haltRequest t v) [.regs] fun s' => s.regsBut s' [R.LIN_HALT_REQ] ∧ s'.rd R.LIN_HALT_REQ = v.toNat % 2) ∧
    (∀ v : W32, s.gives (.haltConditionClear t v) [.regs] fun s' => s.regsBut s' [R.LIN_HALT_STAT] ∧
      (∀ i, i < 4 → s'.bit R.LIN_HALT_STAT i = (s.bit R.LIN_HALT_STAT i && !v.getLsbD i)) ∧
      s'.fld R.LIN_HALT_STAT 4 28 = s.fld R.LIN_HALT_STAT 4 28) ∧
    (s.bit R.LIN_HALT_CFG 4 = true → s.gives (.haltAutoClear t) [.regs] fun s' => s.regsBut s' [R.LIN_HALT_STAT] ∧
      ∀ i, i < 4 → s'.bit R.LIN_HALT_STAT i =
        (s.bit R.LIN_HALT_STAT i && decide (now < KMap.getD s.line.causeAt i 0 + 1000000000))) ∧
    (s.bit R.LIN_HALT_CFG 4 = false → s.givesNothing (.haltAutoClear t))

/-! ### Ronyr -/

/-- R389, R390, R392, R394–R400: Ronyr's clock, watchdog and heartbeat enter the field safe state, which puts every output off and
discards waiting fires; RESUME and SAFE; VISO's return; and a tap order's answer, trigger and end. Readings the rules leave open rest on
log 13. -/
def Obligations.FieldSafetyAndFires : Prop :=
  ∀ (s : State) (t : Nat), let now := max s.now t
    let entered (c : Nat) (s' : State) : Prop := s'.ron.safe = true ∧ s'.pins.dq = 0 ∧ s'.pins.lhClosed = false ∧
      s'.rreg R.RNY_SAFE_CAUSE = (if s.ron.safe then s.rreg R.RNY_SAFE_CAUSE ||| 2 ^ c else 2 ^ c) ∧
      s'.ron.present = s.ron.present ||| BitVec.ofNat 7 (2 ^ c) ∧
      (s.ron.safe = false → s'.rreg R.RNY_OUT_SET = 0 ∧ s'.epoch = (s.epoch + 1) % 256 ∧ ∀ f ∈ s'.ron.fires, 2 ≤ f.phase)
    (s.mod.visoUp = true → s.ron.beatAt + 1000000 ≤ now → s.gives (.ronyrHeartbeatLoss t) [.ron, .rny] (entered 0)) ∧
    (now < s.ron.beatAt + 1000000 → s.givesNothing (.ronyrHeartbeatLoss t)) ∧
    (s.mod.visoUp = true → s.gives (.ronyrClockFault t false) [.ron, .rny] fun s' => entered 1 s' ∧ s'.ron.clockOk = false) ∧
    (s.mod.visoUp = true → s.gives (.ronyrClockFault t true) [.ron] fun s' => s'.ron.clockOk = true ∧
      s'.ron.present = s.ron.present &&& ~~~ 2#7 ∧ s'.ron.safe = s.ron.safe) ∧
    (s.mod.visoUp = true → s.gives (.ronyrWatchdogExpire t false) [.ron, .rny] fun s' => entered 2 s' ∧ s'.ron.wdogServed = false) ∧
    (s.mod.visoUp = true → s.gives (.ronyrWatchdogExpire t true) [.ron] fun s' => s'.ron.wdogServed = true ∧
      s'.ron.present = s.ron.present &&& ~~~ 4#7 ∧ s'.ron.safe = s.ron.safe) ∧
    (s.mod.visoUp = false → s.gives (.visoReturn t) [.mod, .rny, .ron, .host] fun s' => s'.mod = { s.mod with visoUp := true } ∧ s'.rny = [] ∧
      s'.ron.safe = true ∧ s'.ron.fires = [] ∧ s'.ron.present = 0 ∧ s'.ron.lplusMv = s.ron.lplusMv ∧ s'.pins.dq = 0) ∧
    (s.mod.visoUp = true → s.givesNothing (.visoReturn t)) ∧
    (Msg.resume ∈ s.ron.rx → s.gives (.resumeMessage t) [.ron] fun s' => s'.ron.rx = s.ron.rx.erase .resume ∧
      s'.ron.safe = (s.ron.safe && !(decide (s.ron.present &&& 0x3F = 0) && (s.at' t).beatSteady)) ∧
      (s.ron.safe = true → s.ron.present &&& 0x3F = 0 → (s.at' t).beatSteady = false → s'.ron.resumeHeld = true)) ∧
    (s.ron.resumeHeld = true → s.ron.present &&& 0x3F = 0 →
      ((s.at' t).beatSteady = true → s.gives (.resumeHeldTimeout t) [.ron] fun s' => s'.ron.safe = false ∧ s'.ron.present = 0 ∧
        s'.ron.resumeHeld = false) ∧
      ((s.at' t).beatSteady = false → s.givesNothing (.resumeHeldTimeout t))) ∧
    (Msg.safe ∈ s.ron.rx → s.gives (.safeMessage t) [.ron, .rny] fun s' => entered 6 s' ∧ s'.ron.ackSafe = true ∧
      s'.ron.rx = s.ron.rx.erase .safe) ∧
    (∀ o rest, takeTap s.ron.rx = some (o, rest) → s.gives (.tapOrderReceive t) [.ron, .rny] fun s' =>
      let a := if s.ron.safe then 3 else if atOrBeyond o (s.enc o.chan).p then 2 else if 4096 ≤ s.ron.fires.length then 1 else 0
      s'.ron.rx = rest ∧ s'.ron.tx = s.ron.tx ++ [.tapAnswer o a] ∧
      s'.ron.fires = (if a = 0 then s.ron.fires ++ [{ order := o }] else s.ron.fires) ∧
      s'.rfld R.RNY_TAPQ 16 16 = if a = 1 then min 65535 (s.rfld R.RNY_TAPQ 16 16 + 1) else s.rfld R.RNY_TAPQ 16 16) ∧
    (∀ f rest, s.ron.fires = f :: rest → f.phase = 1 → s.gives (.fireTrigger t) [.ron] fun s' => ∃ f', s'.ron.fires = f' :: rest ∧
      f'.order = f.order ∧ f'.onAt = now ∧ f'.onP = (s.enc f.order.chan).p ∧
      f'.blocked = ((nth s.ron.drv f.order.k {}).off || s.ron.supplyLow || s.ron.safe) ∧
      f'.offAt = (if f.order.wmode = 1 then some (now + f.order.w * 1000) else if f.jumped then some (now + 10000) else none) ∧
      f'.phase = if f.order.wmode = 0 ∧ f.jumped = false ∧ inWindow f.order (s.enc f.order.chan).p = false then 3 else 2) ∧
    (∀ f rest seen, s.ron.fires = f :: rest → f.phase = 3 → s.gives (.fireEnd t seen false) [.ron, .rny] fun s' =>
      let r := if f.blocked then 2 else if now - f.onAt < verifyDelay f.order.k then 1 else if seen || f.seen then 0 else 2
      s'.ron.fires = rest ∧ s'.ron.tx = s.ron.tx ++ [.fire f.order f.onP f.onAt r f.jumped] ∧
      s'.rreg R.RNY_UNFIRED = (s.rreg R.RNY_UNFIRED + b2n (decide (r = 2))) % 2 ^ 32 ∧
      s'.rreg R.RNY_FIRES = (s.rreg R.RNY_FIRES + b2n (decide (r ≠ 2))) % 2 ^ 32) ∧
    (s.ron.fires = [] → s.givesNothing (.fireEnd t false false))

/-- R401, R403–R405, R407, R408, R410–R413: encoder steps and reads, the index latch, plausibility failures and speed; input filtering;
emulated edges; and the outputs' overload, temperature, restart, diagnosis, field supply and readback. Readings the rules leave open rest
on log 12, 75 and 76. Readings the rules leave open rest on log 75 and 76. -/
def Obligations.EncodersInputsOutputs : Prop :=
  ∀ (s : State) (t : Nat) (ch : Fin 2) (k : Fin 16), s.mod.visoUp = true → s.ron.enc.length = 2 → s.ron.emu.length = 2 →
    s.ron.inp.length = 16 → s.ron.drv.length = 16 →
    let now := max s.now t
    let e := s.enc ch
    let d := s.drv k
    (∀ fwd, (s.encMode ch = 1 ∨ s.encMode ch = 2 ∨ s.encMode ch = 3) → s.ron.armed = none →
      (s.encMode ch = 3 ∨ (s.at' t).tooFast ch = false) →
      s.gives (.encoderStep t ch (if fwd then .forward else .reverse)) [.ron, .rny, .host, .pwr] fun s' =>
        (s'.enc ch).r = wrapI ((e.r : Int) + if fwd = s.rbit (R.RNY_ENC_CFG ch) 6 then -1 else 1) 48 ∧
        (s'.enc ch).p = followP (s'.enc ch).r e.p (s.rfld (R.RNY_ENC_CFG ch) 7 1)) ∧
    ((s.encMode ch = 1 ∨ s.encMode ch = 2) → s.gives (.encoderStep t ch .both) [.ron, .rny, .host] fun s' =>
      (s'.enc ch).p = e.p ∧ (s'.enc ch).r = e.r ∧ s'.rfld (R.RNY_ENC_FLAGS ch) 2 1 = 1 ∧
      s'.rfld (R.RNY_ENC_ERR ch) 0 8 = min 255 (s.rfld (R.RNY_ENC_ERR ch) 0 8 + 1)) ∧
    (∀ v : BitVec 40, (s.encMode ch = 4 ∨ s.encMode ch = 5) → s.ron.armed = none →
      let bits := s.rfld (R.RNY_ENC_SER ch) 0 6
      let w := if s.encMode ch = 4 ∧ s.rbit (R.RNY_ENC_SER ch) 6 = true then grayDecode bits (v.toNat % 2 ^ bits) else v.toNat % 2 ^ bits
      (e.lastRead = none → s.gives (.encoderSerialRead t ch true v) [.ron, .rny, .host, .pwr] fun s' =>
        (s'.enc ch).r = w ∧ (s'.enc ch).p = w ∧ (s'.enc ch).lastRead = some w) ∧
      (∀ b, e.lastRead = some b → (readDiff bits w b).natAbs ≤ s.rfld (R.RNY_ENC_MAXSTEP ch) 0 24 →
        s.gives (.encoderSerialRead t ch true v) [.ron, .rny, .host, .pwr] fun s' => (s'.enc ch).lastRead = some w ∧
          (s'.enc ch).r = wrapI ((e.r : Int) + if s.rbit (R.RNY_ENC_CFG ch) 6 then -readDiff bits w b else readDiff bits w b) 48)) ∧
    (∀ v, (s.encMode ch = 4 ∨ s.encMode ch = 5) → e.badReads = 0 → s.gives (.encoderSerialRead t ch false v) [.ron] fun s' =>
      s'.enc ch = { e with badReads := 1, goodSteps := e.goodSteps.map fun _ => 0 }) ∧
    ((s.encMode ch = 1 ∨ s.encMode ch = 2) → s.rfld (R.RNY_ENC_CHK ch) 0 16 = 0 → ∀ a b, (s.rbit (R.RNY_ENC_CFG ch) 8 = true → a = true ∧ b = true) →
      s.gives (.indexEdge t ch a b) [.ron, .rny] fun s' => s'.rreg (R.RNY_ENC_IDX ch) = e.p % 2 ^ 32 ∧
        s'.rreg (R.RNY_ENC_IDX ch + 1) = e.p / 2 ^ 32 % 2 ^ 32 ∧ s'.rreg (R.RNY_ENC_IDX_T ch) = now % 2 ^ 32 ∧
        s'.rfld (R.RNY_ENC_FLAGS ch) 0 1 = 1 ∧ (s'.enc ch).p = e.p) ∧
    ((∀ a, e.lastAt = some a → a + 100000000 ≤ now) → s.gives (.encoderSpeedTimeout t ch) [.ron, .rny] fun s' =>
      s'.rreg (R.RNY_ENC_SPEED ch) = 0 ∧ s'.enc ch = { e with steps := [] }) ∧
    ((s.encMode ch = 1 ∨ s.encMode ch = 3) → s.gives (.encoderSignalInvalid t ch) [.ron, .rny, .host] fun s' =>
      let lo := if s.encMode ch = 1 then 8 else 16
      s'.rfld (R.RNY_ENC_ERR ch) lo 8 = min 255 (s.rfld (R.RNY_ENC_ERR ch) lo 8 + 1) ∧ (s'.enc ch).p = e.p) ∧
    (∀ pins : List PinSample, pins.length = 16 → s.gives (.inputSample t pins) [.ron, .rny, .host] fun s' =>
      ∀ i p, pins[i]? = some p → s.taken i = false → s.rbit (R.RNY_IN_CFG i) 1 = false →
        nth s'.ron.inp i {} = { (nth s.ron.inp i {}).filter p.raw (s.rfld (R.RNY_IN_CFG i) 16 16) with
          wireBreak := false, lowFor := 0, okFor := 0 }) ∧
    (∀ (p a : Nat) (rest : List (Nat × Nat)), (s.emu ch).edges = (p, a) :: rest → (s.emu ch).busyUntil ≤ now →
      s.rbit (R.RNY_EMU_CFG ch) 0 = true → (s.emu ch).reports.length < 64 → s.gives (.emulatedEdgeOut t ch) [.ron, .rny] fun s' =>
        s'.rreg (R.RNY_EMU_EDGES ch) = (s.rreg (R.RNY_EMU_EDGES ch) + 1) % 2 ^ 32 ∧ s'.emu ch = { s.emu ch with
          edges := rest, busyUntil := now + 2 * (s.rfld (R.RNY_EMU_CFG ch) 8 8 * 100), highUntil := now + s.rfld (R.RNY_EMU_CFG ch) 8 8 * 100
          reports := (s.emu ch).reports ++ [(p, now)] }) ∧
    (s.driven k = true → s.gives (.outputOverload t k) [.ron, .rny, .host] fun s' => (s'.drv k).off = true ∧
      s'.rbit (R.RNY_OUT_DIAG k) 0 = true ∧ s'.pins.dq.getLsbD k = false) ∧
    (s.driven k = false → s.givesNothing (.outputOverload t k)) ∧
    (d.off = false → s.gives (.outputThermal t k) [.ron, .rny, .host] fun s' => (s'.drv k).off = true ∧ (s'.drv k).hot = true ∧
      s'.rbit (R.RNY_OUT_DIAG k) 1 = true ∧ s'.pins.dq.getLsbD k = false) ∧
    (d.off = true → s.rbit (R.RNY_OUT_CFG k) 1 = true → d.stay = false → d.hot = false →
      (d.offAt + 100000000 ≤ now → s.gives (.outputAutoRestart t k) [.ron, .rny] fun s' => (s'.drv k).off = false ∧
        s'.rfld (R.RNY_OUT_DIAG k) 0 2 = 0) ∧
      (now < d.offAt + 100000000 → s.givesNothing (.outputAutoRestart t k))) ∧
    (d.off = false → s.gives (.driverJunctionCooled t k) [.ron] fun s' => s'.drv k = { d with hot := false, changedAt := (s'.drv k).changedAt }) ∧
    (∀ v : W32, s.gives (.outputDiagClear t k v) [.ron, .rny] fun s' =>
      (∀ i, i < 5 → s'.rbit (R.RNY_OUT_DIAG k) i = (s.rbit (R.RNY_OUT_DIAG k) i && !v.getLsbD i)) ∧
      (s'.rbit (R.RNY_OUT_DIAG k) 0 = false → s'.rbit (R.RNY_OUT_DIAG k) 1 = false → s'.rbit (R.RNY_OUT_DIAG k) 4 = false →
        (s'.drv k).off = false)) ∧
    (∀ mv : BitVec 16, (mv.toNat < 17000 → s.gives (.fieldSupplyLow t mv) [.ron, .rny, .host] fun s' => s'.ron.supplyLow = true ∧
        s'.ron.lplusMv = mv.toNat ∧ s'.pins.dq = 0) ∧
      (17000 ≤ mv.toNat → s.gives (.fieldSupplyLow t mv) [.ron] fun s' => s'.ron.lplusMv = mv.toNat ∧ s'.ron.supplyLow = s.ron.supplyLow) ∧
      (18000 ≤ mv.toNat → s.gives (.fieldSupplyRestore t mv) [.ron] fun s' => s'.ron.supplyLow = false ∧ s'.ron.lplusMv = mv.toNat)) ∧
    (∀ seen : BitVec 16, (∀ i, i < 16 → seen.getLsbD i = s.driven i) → s.gives (.outputReadback t seen) [.ron] fun s' =>
      s'.ron.energised = seen ∧ s'.ron.safe = s.ron.safe) ∧
    (∀ seen : BitVec 16, (∀ i, i < 16 → i ≠ (k : Nat) → seen.getLsbD i = s.driven i) → seen.getLsbD k = true → s.driven k = false →
      d.mismatch = 2 → d.changedAt + 50000 ≤ now → d.off = false → s.ron.supplyLow = false →
      s.gives (.outputReadback t seen) [.ron, .rny, .host] fun s' => s'.ron.safe = true ∧ s'.rbit R.RNY_SAFE_CAUSE 3 = true ∧
        s'.rbit (R.RNY_OUT_DIAG k) 5 = true ∧ s'.pins.dq = 0) ∧
    (∀ seen : BitVec 16, (∀ i, i < 16 → i ≠ (k : Nat) → seen.getLsbD i = s.driven i) → seen.getLsbD k = false → s.driven k = true →
      d.mismatch = 2 → d.changedAt + 50000 ≤ now → s.ron.supplyLow = false → s.gives (.outputReadback t seen) [.ron, .rny, .host] fun s' =>
        (s'.drv k).off = true ∧ s'.rbit (R.RNY_OUT_DIAG k) 4 = true ∧ s'.pins.dq.getLsbD k = false ∧ s'.ron.safe = s.ron.safe) ∧
    (s.rbit (R.RNY_OUT_CFG k) 0 = true → s.driven k = false → s.gives (.outputOpenOff t k) [.ron, .rny, .host] fun s' =>
      s'.rbit (R.RNY_OUT_DIAG k) 2 = true ∧ (s'.drv k).off = d.off)

/-- R391–R393, R395, R414, R415, R471: frames between Cuette and Ronyr, one that fails its check discarded whole, loss of the heartbeat on
Cuette's side, the fallback after an unacknowledged SAFE, and access to Ronyr's registers. Here no channel is aligned with a chain's head.
Readings the rules leave open rest on log 74. -/
def Obligations.BarrierLink : Prop :=
  ∀ (s : State) (t : Nat), let now := max s.now t
    (s.linkUp = true → s.epoch = s.line.epochSeen → s.ownSafe = false → s.boot.lineStarted = false → s.bit R.PWR_SAFE_CFG 2 = false →
      (∀ m ∈ s.ron.tx, ∀ c a b, m ≠ .event c a b) → (∀ ch, ch < 2 → s.bit (R.LNK_ALIGN ch + 4) 16 = false) →
      s.gives (.barrierFrameFromRonyr ⟨t, true⟩) [.regs, .line, .ron, .intk, .pwr] fun s' =>
        (∀ ch, ch < 2 → s'.mirror ch = (s.enc ch).p % 2 ^ 48) ∧ s'.line.frameAt = now ∧ s'.line.validSince = some (s.line.validSince.getD now) ∧
        s'.line.inputs = bits16 s.inputState ∧ s'.line.fieldSafe = s.ron.safe ∧ s'.ron.tx = s.ron.tx.drop 1 ∧
        s'.line.rx = s.line.rx ++ s.ron.tx.take 1 ∧ s'.line.live = (s.line.live || !s.line.fallback || s.ron.safe) ∧
        (s.ron.ackSafe = true → s'.line.safeAcked = true ∧ s'.ron.ackSafe = false)) ∧
    (s.linkUp = false → ∀ crc, s.givesNothing (.barrierFrameFromRonyr ⟨t, crc⟩) ∧ s.givesNothing (.barrierFrameToRonyr ⟨t, crc⟩)) ∧
    (s.linkUp = true → s.gives (.barrierFrameFromRonyr ⟨t, false⟩) [.line] fun s' => ∃ l, s'.line = { s.line with badFrames := l ++ [now] } ∧
      ∀ a, a ∈ l ↔ a ∈ s.line.badFrames ∧ now < a + 1000000000) ∧
    (s.linkUp = true → s.gives (.barrierFrameToRonyr ⟨t, false⟩) [.line] fun s' =>
      s'.line = { s.line with frameSeq := s.line.frameSeq + 1 }) ∧
    (s.linkUp = true → s.line.ledger = [] → s.ron.armed = none → s.gives (.barrierFrameToRonyr ⟨t, true⟩) [.line, .ron] fun s' =>
      s'.line = { s.line with frameSeq := s.line.frameSeq + 1, tx := s.line.tx.drop 1 } ∧ s'.ron.rx = s.ron.rx ++ s.line.tx.take 1 ∧
      s'.ron.healthy = s.healthy ∧ s'.ron.bootLow = some (s.rd R.GLB_BOOT_COUNT % 256) ∧
      (s.line.live = true → s'.ron.beatAt = now ∧ s'.ron.beatSince = some (s.ron.beatSince.getD now) ∧ s'.ron.present.getLsbD 0 = false) ∧
      (s.line.live = false → s'.ron.beatAt = s.ron.beatAt) ∧ s'.ron.safe = s.ron.safe) ∧
    (s.running = true → 4 ≤ s.phase → s.line.frameAt + 1000000 ≤ now → s.line.live = true → s.stage.pend = none → s.safe = false →
      s.line.ledger = [] → s.gives (.cuetteHeartbeatLoss t) recordParts fun s' => s'.line.live = false ∧ s'.line.validSince = none ∧
        s'.safe = true ∧ s'.bit R.PWR_SAFE_STAT 6 = true ∧ s'.line.tx = s.line.tx ++ [.safe]) ∧
    (now < s.line.frameAt + 1000000 → s.givesNothing (.cuetteHeartbeatLoss t)) ∧
    (∀ a, s.running = true → s.line.safeSent = some a → s.line.safeAcked = false → a + 100000 ≤ now →
      s.gives (.safeAckTimeout t) [.line] fun s' => s'.line = { s.line with live := false, fallback := true }) ∧
    (∀ a, s.line.safeSent = some a → (s.line.safeAcked = true ∨ now < a + 100000) → s.givesNothing (.safeAckTimeout t)) ∧
    (s.running = true → let i := s.fld R.LIN_RNY_ADDR 0 16
      (s.line.validSince = none → ∀ c, (c = .ronyrRead t ∨ c = .ronyrWrite t) → s.gives c [.regs] fun s' =>
        s.regsBut s' [R.LIN_RNY_STAT] ∧ s'.rd R.LIN_RNY_STAT = 3 + E_BARRIER_HB * 65536) ∧
      (s.line.validSince ≠ none → s.gives (.ronyrRead t) [.regs, .free] fun s' => s.regsBut s' [R.LIN_RNY_STAT, R.LIN_RNY_DATA] ∧
        s'.rd R.LIN_RNY_STAT = 2 ∧ s'.rd R.LIN_RNY_DATA = (s.at' t).rnyView i % 2 ^ 32) ∧
      (∀ q, s.line.validSince ≠ none → stagedRny i = some q → s.shadowOpen = true → s.gives (.ronyrWrite t) [.regs, .stage] fun s' =>
        s'.rd R.LIN_RNY_STAT = 2 ∧ KMap.find s'.stage.rnyShadow i = some (BitVec.ofNat 32 (q.keep (s.rd R.LIN_RNY_DATA)))) ∧
      (s.line.validSince ≠ none → i = R.RNY_OUT_SET → s.gives (.ronyrWrite t) [.regs, .rny, .ron] fun s' =>
        s'.rreg i = if s.ron.safe then 0 else s.rd R.LIN_RNY_DATA / 256 % 256 * 256))

/-- R132, R418–R425: the servo follows its samples, offsets formed from the messages' timestamps, and acquires, locks or refuses; time is set
once by the first sample; masters come and go, and a frame that fails its check is dropped; the pulse per second; and a follower's time in
the chain. Readings the rules leave open rest on log 77 and 107. -/
def Obligations.TimeCommands : Prop :=
  ∀ (s : State) (t : Nat), let now := max s.now t
    (∀ a b : Int, let tx : Int := s.fld R.TIM_PHY_DLY 0 16
      let rx : Int := s.fld R.TIM_PHY_DLY 16 16
      let o := if s.bit R.TIM_PTP_CFG 9 = true then a - rx - (b - rx - tx).tdiv 2 else ((a - rx) - (b - tx)).tdiv 2
      s.timSrc = 1 → s.tim.master.isSome = true → s.running = true →
      (s.bit R.TIM_STAT 3 = false → s.stepBlocked = false → s.gives (.ptpSyncSample t ⟨a, b⟩) ([.tim] ++ recordParts) fun s' =>
        s'.tim.ns = (((s.at' t).tim.ns : Int) - o).toNat ∧ s'.bit R.TIM_STAT 3 = true) ∧
      (s.bit R.TIM_STAT 3 = true → o.natAbs ≤ s.rd R.TIM_STEP_THR * 1000 → (s.servo = 1 ∨ s.servo = 2) →
        s.gives (.ptpSyncSample t ⟨a, b⟩) [.tim, .regs] fun s' =>
          s'.tim.freq = max (-500000) (min 500000 (-((((s.fld R.TIM_SERVO 0 16 : Nat) : Int) * o +
            ((s.fld R.TIM_SERVO 16 16 : Nat) : Int) * (s.tim.sum + o)).tdiv 65536))) ∧ s'.tim.ns = (s.at' t).tim.ns ∧
          s'.servo = if s.servo = 1 ∧ o.natAbs ≤ 1000 ∧ 15 ≤ s.tim.runIn then 2 else s.servo) ∧
      (s.bit R.TIM_STAT 3 = true → s.rd R.TIM_STEP_THR * 1000 < o.natAbs → s.bit R.TIM_CTRL 0 = false → s.servo ≠ 4 →
        (s.tim.newMaster = false → s.tim.runAbove < 7 → s.gives (.ptpSyncSample t ⟨a, b⟩) [.tim, .regs] fun s' =>
          s'.servo = s.servo ∧ s'.tim.runAbove = s.tim.runAbove + 1 ∧ s'.tim.ns = (s.at' t).tim.ns) ∧
        (s.tim.newMaster = true ∨ 7 ≤ s.tim.runAbove → s.gives (.ptpSyncSample t ⟨a, b⟩) ([.tim] ++ raiseParts) fun s' =>
          s'.servo = 4 ∧ s'.tim.ns = (s.at' t).tim.ns))) ∧
    (let iv : Nat := if 0 ≤ s.tim.announceLog then 2 ^ s.tim.announceLog.toNat * 1000000000
                     else 1000000000 / 2 ^ (-s.tim.announceLog).toNat
     s.timSrc = 1 → s.tim.master.isSome = true →
      (s.tim.announceAt + s.fld R.TIM_PTP_CFG 10 4 * iv ≤ now → s.gives (.ptpMasterLost t) ([.tim] ++ raiseParts) fun s' =>
        s'.tim.master = none ∧ s'.servo = 3 ∧ s'.bit R.TIM_STAT 5 = false ∧ s'.tim.freq = s.tim.meanFreq) ∧
      (now < s.tim.announceAt + s.fld R.TIM_PTP_CFG 10 4 * iv → s.givesNothing (.ptpMasterLost t))) ∧
    (∀ (a : Announce) (rx : PlantRx), s.running = true →
      let lane (s' : State) : Prop := s'.bit R.LNK_PLT_LANE_STAT 0 = true ∧ s'.bit R.LNK_PLT_LANE_STAT 1 = rx.fast ∧
        s'.fld R.LNK_PLT_LANE_STAT 16 16 = min 65535 (s.fld R.LNK_PLT_LANE_STAT 16 16 + rx.sym)
      let heeded := rx.fcsOk = true ∧ s.timSrc = 1 ∧ a.domain.toNat = s.fld R.TIM_PTP_CFG 0 8 ∧ a.udp = s.bit R.TIM_PTP_CFG 8
      (heeded → s.tim.master = none → s.gives (.ptpAnnounceReceived t ⟨a, rx⟩) [.tim, .regs] fun s' => lane s' ∧
        s'.tim.master = some (announceMaster a) ∧ s'.servo = 1 ∧ s'.bit R.TIM_STAT 5 = true ∧ s'.tim.announceAt = now ∧
        s'.rd64 R.TIM_MASTER = a.ident.toNat) ∧
      (¬ heeded → s.gives (.ptpAnnounceReceived t ⟨a, rx⟩) [.regs] fun s' => lane s' ∧ s.regsBut s' [R.LNK_PLT_LANE_STAT])) ∧
    (∀ v : W32, s.running = true → (v.getLsbD 0 = true → s.gives (.stepOk t v) [.regs] fun s' => s.regsBut s' [R.TIM_CTRL] ∧
        s'.bit R.TIM_CTRL 0 = true) ∧ (v.getLsbD 0 = false → s.givesNothing (.stepOk t v))) ∧
    (let on := s.bit R.TIM_CFG 2 = true ∧ ((s.at' t).tim.ns % 1000000000 ≤ 10 ∨ 999999990 ≤ (s.at' t).tim.ns % 1000000000)
     (on → s.gives (.ppsPulse t) [.tim] fun s' => s'.tim = { (s.at' t).tim with ppsUntil := now + 100000000 } ∧ s'.pins.ppsHigh = true) ∧
     (¬ on → s.givesNothing (.ppsPulse t))) ∧
    (∀ (o : Int) (up : Bool) (h : BitVec 8), s.timSrc = 2 → s.bit R.TIM_STAT 3 = true → o.natAbs ≤ 32768 → (s.servo = 1 ∨ s.servo = 2) →
      s.gives (.chainTimeExchange t o up h) [.tim, .regs] fun s' => s'.rd R.TIM_BOUND = 250 * h.toNat ∧ s'.fld R.TIM_STAT 8 8 = h.toNat ∧
        s'.tim.upstreamLocked = up ∧ (s'.bit R.TIM_STAT 4 = true ↔ up = true ∧ h.toNat ≤ 32 ∧
          ∃ a, s.tim.chainOkSince = some a ∧ a + 10000000 ≤ now)) ∧
    (∀ (o : Int) (up : Bool) (h : BitVec 8), s.timSrc ≠ 2 → s.givesNothing (.chainTimeExchange t o up h))

/-! ### Security and firmware processors -/

/-- R444, R445, R448, R452, R454, R455: the mailbox takes a command while SC is there and the host is attached, shows its response and
code and raises vector 10; certificates, quotes and challenges; bundles stored, listed and deleted; tokens, debug lock and the owner.
Readings the rules leave open rest on log 3, 80 and 81. -/
def Obligations.SecurityMailbox : Prop :=
  ∀ (s : State) (t : Nat), s.running = true →
    let now := max s.now t
    let p : List Part := [.regs, .host, .dbg, .sec]
    let q := s.mbReq
    let ends (c : Instr) (cmd code : Nat) (bs : List Byte) (k : Sec) : Prop :=
      s.gives c p fun s' => s'.mbShows cmd code bs ∧ s'.sec = { k with challenge := none }
    let wiped (s' : State) : Prop := (∀ e ∈ s.fab.pt4, e.2.prot = true → e.2.inDram = true → ∀ k < 4096,
        Mem.read s'.fab.dram (e.2.frame + k) = 0) ∧ ∀ e ∈ s'.sch.ctxs, ∀ c ∈ e.2.sections, c.mould = [] ∧ c.evcs = [] ∧ c.gcs = []
    (∀ c, (c = Instr.certs t ∨ c = .quote t ∨ c = .bundleLoad t ∨ c = .bundleDelete t ∨ c = .bundleList t ∨ c = .challenge t ∨
        c = .token t ∨ c = .debugLock t ∨ c = .ownerSet t ∨ c = .ownerClear t) →
      (s.scUp = false → s.gives c [.regs] fun s' => s.regsBut s' [R.SEC_MB_CMD]) ∧
      (s.scUp = true → (s.attached && s.agreed) = false → s.gives c [.regs] fun s' => s.regsBut s' [R.SEC_MB_CMD, R.SEC_MB_STAT] ∧
        s'.rd R.SEC_MB_STAT = 3 + E_HIV_NONE * 2 ^ 16)) ∧
    (s.scUp = true → s.attached = true → s.agreed = true →
      (q = [] → ends (.certs t) 1 0 (certItem (Config.ikCert.getD []) ++ certItem bkCert ++ certItem Config.caCert) s.sec ∧
        ends (.bundleList t) 5 0 (leBytes s.sec.bundles.length 4 ++ s.sec.bundles.flatMap Bundle.ident) s.sec ∧
        (s.gives (.challenge t) p fun s' => let n := (Config.nonce s.sec.nonces).toNat
          s'.mbShows 6 0 (leBytes n 48) ∧ s'.sec = { s.sec with challenge := some (n, now), nonces := s.sec.nonces + 1 }) ∧
        (s.gives (.debugLock t) p fun s' => s'.mbShows 8 0 [] ∧ s'.bit R.SEC_STAT 4 = false ∧ s'.bit R.SEC_STAT 5 = false)) ∧
      (q ≠ [] → ends (.certs t) 1 E_CMD_ARG [] s.sec ∧ ends (.bundleList t) 5 E_CMD_ARG [] s.sec ∧
        ends (.debugLock t) 8 E_CMD_ARG [] s.sec) ∧
      (∀ nd, nd ≤ 16 → q.length = 52 + 4 * nd → numAt q 48 4 = nd → (∀ i < nd, quoteEntryOk (numAt q (52 + 4 * i) 4) = true) →
        s.gives (.quote t) p fun s' => ∃ b : List Byte,
          s'.mbShows 2 0 (b ++ leBytes (ikSign (Config.sha384 b)).toNat 96) ∧ numAt b 0 4 = 0x15141 ∧ cut b 8 48 = cut q 0 48 ∧
          cut b 56 48 = deviceId ∧ numAt b 104 4 = s.rd R.GLB_BOOT_COUNT ∧ numAt b 232 4 = s.liveGen ∧
          cut b 128 48 = leBytes s.boot.imageHash 48 ∧ cut b 240 48 = leBytes s.cfgHashNow 48) ∧
      (q.length < 52 → ends (.quote t) 2 E_CMD_ARG [] s.sec) ∧
      (let x := numAt q 0 4
       let bs := s.vreadBytes x (numAt q 4 8) (numAt q 12 8)
       let old := s.sec.bundles.find? (fun b => b.digest == (Config.sha384 bs).toNat)
       q.length = 20 → x < 16 → 0x400 ≤ numAt q 12 8 → numAt q 12 8 ≤ bundleStore → numAt q 4 8 + numAt q 12 8 ≤ 2 ^ 48 →
       s.readable x (numAt q 4 8) (numAt q 12 8) = true → s.poisonedIn x (numAt q 4 8) (numAt q 12 8) = none →
        (∀ b, old = some b → s.sec.noLoad = false → ends (.bundleLoad t) 3 0 b.ident { s.sec with
          bundles := s.sec.bundles.map (fun c => if c.digest = (Config.sha384 bs).toNat then { c with loaded := true } else c) }) ∧
        (old = none → s.bundleBad bs = none → s.sec.noLoad = false →
          ends (.bundleLoad t) 3 0 (bundleOf bs).ident { s.sec with bundles := s.sec.bundles ++ [bundleOf bs] }) ∧
        (∀ i code, old = none → s.bundleBad bs = some (i, code) → s.gives (.bundleLoad t) (.sec :: raiseParts) fun s' =>
          s'.mbShows 3 code [] ∧ s'.sec = { s.sec with challenge := none })) ∧
      (q.length = 48 → s.sec.bundles.any (fun b => b.digest == numAt q 0 48) = true →
        (s.bundlePinned (numAt q 0 48) = true → ends (.bundleDelete t) 4 E_CAST_PENDING [] s.sec) ∧
        (s.bundlePinned (numAt q 0 48) = false → s.bundleUsed (numAt q 0 48) = true → ends (.bundleDelete t) 4 E_CMD_ARG [] s.sec) ∧
        (s.bundlePinned (numAt q 0 48) = false → s.bundleUsed (numAt q 0 48) = false → ends (.bundleDelete t) 4 0 []
          { s.sec with bundles := s.sec.bundles.filter (fun b => b.digest != numAt q 0 48) })) ∧
      (q.length = 216 → ((s.at' t).tokenReason q ≠ 0 → s.gives (.token t) (.sec :: raiseParts) fun s' =>
          s'.mbShows 7 E_DEBUG_TOKEN [] ∧ s'.sec = { s.sec with challenge := none }) ∧
        ((s.at' t).tokenReason q = 0 → numAt q 4 4 = 3 → ends (.token t) 7 0 [] { s.sec with owner := none }) ∧
        ((s.at' t).tokenReason q = 0 → numAt q 4 4 = 1 → numAt q 0x68 16 = 2 → s.gives (.token t) p fun s' =>
          s'.mbShows 7 0 [] ∧ s'.bit R.SEC_STAT 5 = true ∧ s'.bit R.SEC_STAT 4 = s.bit R.SEC_STAT 4) ∧
        ((s.at' t).tokenReason q = 0 → numAt q 4 4 = 1 → numAt q 0x68 16 % 2 = 1 → s.sch.pours = [] →
          s.gives (.token t) (p ++ [.fab, .sch, .boot]) fun s' => s'.mbShows 7 0 [] ∧ s'.bit R.SEC_STAT 4 = true ∧ s'.sec.noLoad = true ∧
            (∀ b ∈ s'.sec.bundles, b.loaded = false) ∧ wiped s')) ∧
      (q.length = 192 → s.sec.owner = none → (s.at' t).ownerSig (numAt q 0 96) (numAt q 96 96) [] = true →
        s.sec.bundles.all (fun b => b.signer == numAt q 0 96) = true →
        ends (.ownerSet t) 9 0 [] { s.sec with owner := some (numAt q 0 96) }) ∧
      (s.sec.owner ≠ none → ends (.ownerSet t) 9 E_CMD_ARG [] s.sec) ∧
      (∀ key, s.sec.owner = some key → q.length = 96 → (s.at' t).ownerSig key (leNum q) [0x43] = true →
        ends (.ownerClear t) 10 0 [] { s.sec with owner := none }) ∧
      (s.sec.owner = none → ends (.ownerClear t) 10 E_CMD_ARG [] s.sec))

/-- R456, R457, R479–R487: a watchdog reset counts, raises its event and stops what the processor does; a flask controller's third reset
within 10 s retires its flask; SC's third within 60 s is a security fault; a restart brings the processor back. R489, R490: the log index
and the trace clear. Readings the rules leave open rest on log 82. -/
def Obligations.FirmwareProcessors : Prop :=
  ∀ (s : State) (t : Nat), s.running = true →
    let z := s.at' t
    let counted (i : Nat) (s' : State) : Prop := s'.rd (R.DBG_FW_STAT i + 4) = (s.rd (R.DBG_FW_STAT i + 4) + 1) % 2 ^ 32
    (∀ n : Fin 32, s.fwState (3 + n) = 1 → s.schIdle → s.sch.pieces = [] → s.sch.deques = [] → (s.flask n).crashed = [] →
      (s.flask n).job = none → (s.flask n).phase = 0 → s.ladle n 0 = [] → s.ladle n 1 = [] →
      s.gives (.fcWatchdogReset t n) ([.fab, .permits, .sch] ++ raiseParts) fun s' => counted (3 + n) s' ∧
        (∀ f < 4, s'.fet (4 * n + f) = none) ∧ (s'.cru (2 * n)).queue = [] ∧ (s'.cru (2 * n + 1)).queue = [] ∧
        (s'.cru (2 * n)).run = (s.cru (2 * n)).run ∧ (s'.cru (2 * n + 1)).run = (s.cru (2 * n + 1)).run ∧
        (if (z.fwRecent (3 + n) 10000000000).length < 3 then s'.fwState (3 + n) = 2 ∧ s'.rd R.GLB_FLASK_USED = s.rd R.GLB_FLASK_USED
         else s'.fwState (3 + n) = 3 ∧ s'.bit R.GLB_FLASK_USED n = false ∧ s'.fld (R.FLK_STAT n) 0 3 = 4)) ∧
    (∀ n : Fin 32, s.fwState (3 + n) ≠ 1 → s.givesNothing (.fcWatchdogReset t n)) ∧
    (∀ n : Fin 32, s.fwState (3 + n) = 2 → s.schIdle → s.gives (.fcRestartComplete t n) [.regs] fun s' => s'.fwState (3 + n) = 1 ∧
      s.regsBut s' [R.DBG_FW_STAT (3 + n)]) ∧
    (s.fwState 2 = 1 → s.gives (.schWatchdogReset t) raiseParts fun s' => s'.fwState 2 = 2 ∧ s'.schUp = false ∧ counted 2 s') ∧
    (s.fwState 2 = 2 → s.schIdle → s.line.ledger = [] → s.sch.seqs = [] → s.gives (.schRestartComplete t) [.regs, .host] fun s' =>
      s'.schUp = true ∧ s'.host = { s.host with hbRestart := true } ∧ s.regsBut s' [R.DBG_FW_STAT 2]) ∧
    (s.fwState 1 = 1 → s.gives (.pmcWatchdogReset t) raiseParts fun s' => s'.pmcUp = false ∧ s'.fld R.PWR_CLK 0 3 = 6 ∧
      s'.bit R.PWR_CLK 12 = true ∧ counted 1 s') ∧
    (s.fwState 1 = 2 → s.pwr.waitReq = none → s.mod.serrefOk = true → s.phase ≠ 3 →
      s.gives (.pmcRestartComplete t) [.regs, .dbg] fun s' => s'.pmcUp = true ∧ s'.bit R.PWR_CLK 12 = false ∧
        s'.fld R.PWR_CLK 0 3 = max (s.fld R.PWR_CLK_CAP 0 3) (max (s.fld R.PWR_CLK 4 3) (s.fld R.PWR_CLK 8 3))) ∧
    (s.fwState 1 = 2 → s.pwr.waitReq = some 0 → s.pwr.state = 1 → s.gives (.pmcRestartComplete t) [.regs, .dbg, .pwr] fun s' =>
      s'.pmcUp = true ∧ s'.pwr.state = 0 ∧ s'.pwr.waitReq = none) ∧
    (s.fwState 0 = 1 → ((z.fwRecent 0 60000000000).length < 3 → s.gives (.scWatchdogReset t) (.sec :: raiseParts) fun s' =>
        s'.scUp = false ∧ s'.fwState 0 = 2 ∧ s'.sec = { s.sec with crashed := true, challenge := none } ∧ counted 0 s' ∧
        s'.rd R.SEC_SC_RESETS = (s.rd R.SEC_SC_RESETS + 1) % 2 ^ 32) ∧
      (3 ≤ (z.fwRecent 0 60000000000).length → s.sec.fault = false → s.line.ledger = [] → s.sch.pours = [] → s.fab.crus = [] →
        s.gives (.scWatchdogReset t) ([.sec, .line, .pwr, .fab, .sch] ++ raiseParts) fun s' => s'.sec.fault = true ∧ s'.scUp = false ∧
          s'.line.tx = s.line.tx ++ [.safe] ∧ s'.pwr.crucibleStop = true ∧ ∀ e ∈ s.fab.pt4, e.2.prot = true → e.2.inDram = true →
            ∀ k < 4096, Mem.read s'.fab.dram (e.2.frame + k) = 0)) ∧
    (s.fwState 0 = 2 → s.sec.fault = false → s.sec.authWait = [] → s.gives (.scRestartComplete t) [.regs, .jrn, .dbg] fun s' =>
      s'.scUp = true ∧ (∀ b ∈ s'.jrn.sealedBlocks, b.trailer.isSome = true) ∧
      s'.jrn = { s.jrn with sealedBlocks := s'.jrn.sealedBlocks } ∧
      s'.jrn.sealedBlocks.map (fun b => b.recs) = s.jrn.sealedBlocks.map (fun b => b.recs)) ∧
    (s.sec.fault = true → s.givesNothing (.scRestartComplete t)) ∧
    (∀ v : BitVec 64, s.gives (.logIndexWrite t v) [.regs] fun s' => s'.rd64 R.DBG_LOG_IDX = v.toNat ∧
      s.regsBut s' [R.DBG_LOG_IDX, R.DBG_LOG_IDX + 4]) ∧
    (s.gives (.traceClear t) [.regs, .dbg] fun s' => s'.dbg = { s.dbg with trace := [] } ∧ s'.rd R.DBG_TRACE_STAT = 0 ∧
      s'.rd R.DBG_TRACE_WR = 0 ∧ s.regsBut s' [R.DBG_TRACE_STAT, R.DBG_TRACE_WR])

/-! ### Supply, resets, boot, power -/

/-- R27, R31–R38, R42, R73, R463, R466, R475, R477: the supply rises, fails and returns; warnings run the power-fail sequence; resets of
Cuette keep what Table 21.8 keeps; the PCIe link; and SERREF lost and relocked. Readings the rules leave open rest on log 83 and 87. -/
def Obligations.SupplyAndResets : Prop :=
  ∀ (s : State) (t : Nat), let now := max s.now t
    let good (v : BitVec 16) : Prop := 10800 ≤ v.toNat ∧ v.toNat ≤ 13200
    let noted (v : BitVec 16) : Module := { s.mod with
      vinMv := v.toNat, badAt := if 10800 ≤ v.toNat ∧ v.toNat ≤ 13200 then s.mod.badAt else now }
    let calm : Prop := s.running = false ∨ s.phase ≠ 3
    let discards (c : Instr) (m : Module) : Prop := s.gives c [.mod, .regs, .boot, .host, .dbg] fun s' => s'.mod = m ∧ s'.phase = 2 ∧
      s'.bit R.GLB_BIST_SUMMARY 1 = true ∧ s'.boot = { s.boot with condNext := now + 100000000 }
    let looks (c : Instr) (v : BitVec 16) : Prop := (calm ∨ (s.condNow = true ∧ good v) → s.gives c [.mod] fun s' => s'.mod = noted v) ∧
      (s.running = true → s.phase = 3 → ¬ good v → discards c (noted v))
    let fresh (s' : State) : Prop := s'.mod.held = true ∧ s'.mod.pcieUp = false ∧ s'.boot.started = false ∧ s'.boot.restored = false ∧
      s'.boot.factoryNow = false ∧ s'.line = {} ∧ s'.fab = {} ∧ s'.sch = {} ∧ s'.intk = {} ∧ s'.permits = {} ∧
      s'.host = { msix := s'.host.msix } ∧ s'.stage = { records := s'.stage.records } ∧ s'.sec.owner = s.sec.owner ∧
      (∀ b ∈ s'.sec.bundles, b.loaded = false) ∧ s'.pending = s.pending
    let counted (s' : State) : Prop := s'.rd R.GLB_BOOT_COUNT = s.rd R.GLB_BOOT_COUNT
    let rises (c : Instr) (v : BitVec 16) (cause : Nat) : Prop := s.gives c [.mod, .boot, .pwr, .rny, .ron, .host] fun s' =>
      s'.mod = { s.mod with
        vinMv := v.toNat, railsUp := true, aonUp := true, held := true, warning := false, visoUp := true } ∧
      s'.boot = { s.boot with nextCause := cause } ∧ s'.pwr.state = 0 ∧ s'.pins.pwrGood = true ∧
      (s.mod.visoUp = true → Part.same .ron s s' ∧ Part.same .rny s s' ∧ s'.host = s.host) ∧
      (s.mod.visoUp = false → s'.ron.safe = true ∧ s'.rny = [] ∧ s'.ron.supplyLow = decide (s.ron.lplusMv < 17000))
    (∀ v, good v → s.mod.railsUp = false → s.mod.warning = false → s.pwr.state ≠ 2 → rises (.powerUp t v) v 0) ∧
    (∀ v, (¬ good v ∨ s.mod.railsUp = true ∨ s.mod.warning = true ∨ s.pwr.state = 2) → looks (.powerUp t v) v) ∧
    (∀ v, good v → s.mod.warning = true → s.mod.badAt + 10000000 ≤ now → rises (.powerFailRestart t v) v 1) ∧
    (∀ v, (¬ good v ∨ s.mod.warning = false ∨ now < s.mod.badAt + 10000000) → looks (.powerFailRestart t v) v) ∧
    (∃ s', exec (.railOutOfRegulation t false) s = .next s' ∧ fresh s' ∧ counted s' ∧ s'.mod.railsUp = false ∧ s'.pins.pwrGood = false ∧
      s'.boot.nextCause = (if s.mod.warning then 1 else 0) ∧
      Part.same .rny s s' ∧ Part.same .ron s s' ∧ s'.hostMem = s.hostMem ∧ s'.tim.ns = (s.at' t).tim.ns) ∧
    (∃ s', exec (.railOutOfRegulation t true) s = .next s' ∧ fresh s' ∧ counted s' ∧ s'.mod.railsUp = false ∧ s'.mod.visoUp = false ∧
      s'.rny = [] ∧ s'.ron.safe = true ∧ s'.ron.fires = [] ∧ s'.pins.dq = 0) ∧
    (∀ v : BitVec 16, 10200 ≤ v.toNat → looks (.pwrFailWarning t false v) v) ∧
    (∀ (pin : Bool) (v : BitVec 16), s.pwr.state = 3 → looks (.pwrFailWarning t pin v) v) ∧
    (∀ (pin : Bool) (v : BitVec 16), (pin = true ∨ v.toNat < 10200) → s.pwr.state ≠ 3 →
      (s.mod.warning = true → s.gives (.pwrFailWarning t pin v) [.mod, .regs] fun s' => s.regsBut s' [R.PWR_FAIL_LAST] ∧
        s'.bit R.PWR_FAIL_LAST (if pin then 1 else 2) = true ∧ s'.mod = { s.mod with vinMv := v.toNat, badAt := now }) ∧
      (s.mod.warning = false → ∃ s', exec (.pwrFailWarning t pin v) s = .next s' ∧ fresh s' ∧ counted s' ∧ s'.mod.warning = true ∧
        s'.mod.warnAt = now ∧ s'.mod.badAt = now ∧ s'.boot.nextCause = 1 ∧
        s'.rd R.PWR_FAIL_LAST = 1 + (if pin then 2 else 4) + (if s.hasWork then 16 else 0) ∧
        (s.hasWork = true → (∃ r ∈ s'.jrn.seqRecords, r.mark = s.line.serialNext - 1) ∧ (s.mod.visoUp = true → s'.ron.safe = true ∧
          s'.pins.dq = 0)))) ∧
    (∀ v : BitVec 16, (8500 ≤ v.toNat ∨ s.pwr.state = 3) → looks (.vinBrownoutReset t v) v) ∧
    (∀ v : BitVec 16, v.toNat < 8500 → s.pwr.state ≠ 3 → ∃ s', exec (.vinBrownoutReset t v) s = .next s' ∧ fresh s' ∧
      s'.mod.warning = true ∧ s'.mod.badAt = now ∧ s'.mod.railsUp = false ∧ s'.mod.aonUp = false ∧ s'.mod.visoUp = false ∧
      s'.ron.safe = true ∧ s'.pins.dq = 0 ∧ s'.boot.nextCause = 1 ∧ s'.bit R.TIM_STAT 3 = false ∧ s'.pwr.state = 0 ∧
      (s.mod.warning = true → s'.mod.warnAt = s.mod.warnAt ∧
        s'.fld R.PWR_FAIL_LAST 16 16 = min 65535 ((now - s.mod.warnAt) / 1000000)) ∧
      (s.mod.warning = false → s'.mod.warnAt = now ∧ s'.rd R.PWR_FAIL_LAST = 5) ∧
      (s.boot.countOld = none → counted s') ∧
      (∀ n, s.boot.countOld = some n → counted s' ∨ s'.rd R.GLB_BOOT_COUNT = n % 2 ^ 32) ∧
      (∀ b, s.jrn.sealedBlocks.getLast? = some b → s'.tim.ns = b.sealNs + 1000000000)) ∧
    (s.pwr.state ≠ 2 → s.pwr.state ≠ 3 → ∃ s', exec (.modResetAssert t) s = .next s' ∧ fresh s' ∧ counted s' ∧
      s'.mod.modResetLow = true ∧ s'.boot.nextCause = (if s.mod.warning then 1 else 2) ∧
      s'.rd R.PWR_FAIL_LAST = 9 + (if s.hasWork then 16 else 0)) ∧
    ((s.pwr.state = 2 ∨ s.pwr.state = 3) → s.gives (.modResetAssert t) [.mod] fun s' =>
      s'.mod = { s.mod with modResetLow := true, warnAt := now }) ∧
    ((s.pwr.state ≠ 3 ∨ s.mod.warning = true ∨ now < s.mod.warnAt + 1000000) → s.gives (.modResetRelease t) [.mod] fun s' =>
      s'.mod = { s.mod with modResetLow := false }) ∧
    (s.pwr.state = 3 → s.mod.modResetLow = true → s.mod.warning = false → s.mod.warnAt + 1000000 ≤ now →
      s.gives (.modResetRelease t) [.mod, .boot, .pwr, .rny, .ron, .host] fun s' => s'.mod = { s.mod with
        modResetLow := false, railsUp := true, aonUp := true, held := true, visoUp := true } ∧
        s'.boot = { s.boot with nextCause := 2 } ∧ s'.pwr.state = 0) ∧
    (s.mod.pcieUp = false → (s.gives (.perst t) [.host] fun s' => s'.host = { s.host with readLatch := [], lastCpl := .none, lastData := [] }) ∧
      (calm → s.gives (.refclkLoss t) [.mod] fun s' => s'.mod = { s.mod with refclkOk := false }) ∧ s.givesNothing (.pcieLinkDown t)) ∧
    (s.running = true → s.phase = 3 → s.mod.pcieUp = false → discards (.refclkLoss t) { s.mod with refclkOk := false }) ∧
    (s.mod.pcieUp = true → s.running = true →
      (s.gives (.perst t) (.mod :: raiseParts) fun s' => s'.mod = { s.mod with pcieUp := false } ∧ s'.host.readLatch = [] ∧
        s'.host.lastCpl = .none ∧ s'.host.lastData = []) ∧
      (s.phase ≠ 3 → s.gives (.refclkLoss t) (.mod :: raiseParts) fun s' => s'.mod = { s.mod with pcieUp := false, refclkOk := false }) ∧
      (s.gives (.pcieLinkDown t) (.mod :: raiseParts) fun s' => s'.mod = { s.mod with pcieUp := false })) ∧
    (∀ (w : Fin 4) (r : Fin 5), (s.running = true → s.boot.started = true → s.gives (.pcieLinkUp ⟨t, w, r⟩) [.mod] fun s' =>
        s'.mod = { s.mod with pcieUp := true, pcieWidth := w, pcieRate := r, refclkOk := true }) ∧
      (s.running = false ∨ s.boot.started = false → s.givesNothing (.pcieLinkUp ⟨t, w, r⟩))) ∧
    (s.mod.serrefOk = true → s.running = true → 2 ≤ s.phase → s.phase ≠ 8 →
      ∃ s', exec (.clockLoss t) s = .next s' ∧ s'.mod.serrefOk = false ∧ s'.safe = true ∧ s'.bit R.PWR_SAFE_STAT 4 = true ∧
        s'.pwr.crucibleStop = true ∧ s'.fld R.PWR_CLK 0 3 = 6 ∧ s'.bit R.PWR_CLK 14 = true ∧ (s.phase = 3 → s'.phase = 2)) ∧
    (s.mod.serrefOk = false ∨ s.running = false ∨ s.phase < 2 ∨ s.phase = 8 → s.gives (.clockLoss t) [.mod] fun s' =>
      s'.mod = { s.mod with serrefOk := false }) ∧
    (s.mod.serrefOk = false → s.running = true → s.fld R.PWR_CLK_CAP 0 3 ≤ 6 → s.fld R.PWR_CLK 8 3 ≤ 6 → s.pmcUp = true →
      s.gives (.serrefRelock t) [.mod, .regs, .pwr, .dbg] fun s' => s'.mod = { s.mod with serrefOk := true } ∧
        s'.fld R.PWR_CLK 4 3 = 6 ∧ s'.fld R.PWR_CLK 0 3 = 6 ∧ s'.bit R.PWR_CLK 14 = false ∧
        s'.pwr.crucibleStop = (s.bit R.PWR_SAFE_STAT 5 || s.bit R.PWR_SAFE_STAT 7)) ∧
    (s.mod.serrefOk = true → s.givesNothing (.serrefRelock t))

/-- R39, R40, R55–R64: ROM start latches the straps and counts the boot; the image is verified; the conditions of self-test are measured,
checked again and watched; and self-test is judged: with no failure the device gets its grade and flasks, strict mode stops on one.
Readings the rules leave open rest on log 20 and 86. -/
def Obligations.BringUp : Prop :=
  ∀ (s : State) (t : Nat), let now := max s.now t
    let seen (m : CondMeas) : Module := { s.mod with
      vinMv := m.vinMv, refclkOk := decide (-5300 ≤ m.refclkPpm) && decide (m.refclkPpm ≤ 300) }
    (∀ straps : BitVec 4, s.mod.held = true → s.mod.railsUp = true → s.mod.aonUp = true → s.mod.modResetLow = false →
      s.mod.warning = false → s.pwr.state = 0 → s.gives (.romStart t straps) [.mod, .boot, .regs, .host] fun s' =>
        s'.mod = { s.mod with held := false } ∧ s'.boot = { s.boot with
          started := true, romAt := now, serrefAtRom := s.mod.serrefOk, repairs := s.boot.burnt
          countOld := some (s.rd R.GLB_BOOT_COUNT), factoryNow := s.boot.factoryNext, factoryNext := false } ∧
        s'.rd R.GLB_STRAPS = straps.toNat ∧ s'.rd R.GLB_FLASK_FUSED = s.boot.fuseOff.toNat ∧
        s'.rd R.GLB_BOOT_COUNT = (s.rd R.GLB_BOOT_COUNT + 1) % 2 ^ 32 ∧
        s'.fld R.GLB_BOOT_STATUS 4 4 = s.boot.nextCause % 16 ∧ s'.phase = if straps.getLsbD 3 then 8 else 1) ∧
    (∀ straps, (s.mod.held = false ∨ s.mod.railsUp = false ∨ s.mod.aonUp = false ∨ s.mod.modResetLow = true ∨ s.mod.warning = true ∨
      s.pwr.state ≠ 0) → s.givesNothing (.romStart t straps)) ∧
    (∀ (img : Image) (m : CondMeas), s.running = true → s.boot.started = true → s.phase = 1 →
      (imageOk img = false → s.gives (.imageVerifyDone t img m) [.boot, .regs, .host] fun s' => s'.phase = 8 ∧
        s'.fld R.GLB_BOOT_STATUS 16 16 = E_IMAGE_VERIFY ∧ s'.boot.countOld = none) ∧
      (imageOk img = true → s.sec.keysOk = true → s.mod.serrefOk = true → s.boot.serrefAtRom = true →
        s.gives (.imageVerifyDone t img m) [.boot, .regs, .host, .dbg, .sec, .mod] fun s' => s'.fwState 0 = 1 ∧ s'.fwState 1 = 1 ∧
          s'.sec = { s.sec with identity := true, certOk := ikCertOk } ∧ s'.boot.imageHash = img.hash.toNat ∧ s'.mod = seen m ∧
          s'.rd R.GLB_FW_VERSION = img.version.toNat ∧ s'.rd R.GLB_HIV_DEV = img.hivMajor.toNat * 256 + img.hivMinor.toNat ∧
          (condOk m = true → s'.phase = 3) ∧ (condOk m = false → s.boot.condFails = 0 → s'.phase = 2 ∧ s'.boot.condFails = 1 ∧
            s'.boot.condNext = now + 100000000 ∧ s'.bit R.GLB_BIST_SUMMARY 1 = true)) ∧
      (imageOk img = true → s.sec.keysOk = false → ∃ s', exec (.imageVerifyDone t img m) s = .next s' ∧
        s'.phase = 0xA ∧ s'.fld R.GLB_BOOT_STATUS 16 16 = E_SEC_FAULT ∧ s'.sec.fault = true) ∧
      (imageOk img = true → s.sec.keysOk = true → (s.mod.serrefOk = false ∨ s.boot.serrefAtRom = false) →
        ∃ s', exec (.imageVerifyDone t img m) s = .next s' ∧ s'.phase = 0xA ∧ s'.fld R.GLB_BOOT_STATUS 16 16 = E_BIST_COND)) ∧
    (∀ (img : Image) m, s.running = false ∨ s.boot.started = false ∨ s.phase ≠ 1 → s.givesNothing (.imageVerifyDone t img m)) ∧
    (∀ img : Image, s.running = true → s.phase = 8 → imageOk img = true → ∃ s', exec (.recoveryImageWrite t img) s = .next s' ∧
      s'.mod.held = true ∧ s'.boot.started = false ∧ s'.boot.imageGood = true ∧ s'.boot.imageVersion = img.version.toNat ∧
      s'.boot.imageHash = img.hash.toNat ∧ s'.hostMem = s.hostMem) ∧
    (∀ img : Image, (imageOk img = false ∨ s.running = false ∨ s.phase ≠ 8) → s.givesNothing (.recoveryImageWrite t img)) ∧
    (∀ m : CondMeas, s.running = true → s.phase = 2 → s.boot.condNext ≤ now →
      (condOk m = true → s.mod.serrefOk = true → s.gives (.bistCondRecheck t m) [.mod, .regs, .host, .dbg] fun s' => s'.phase = 3 ∧
        s'.mod = seen m) ∧
      (condOk m = false ∨ s.mod.serrefOk = false → s.boot.condFails < 9 → s.gives (.bistCondRecheck t m) [.mod, .boot, .regs] fun s' =>
        s'.phase = 2 ∧ s'.mod = seen m ∧
        s'.boot = { s.boot with condFails := s.boot.condFails + 1, condNext := now + 100000000 }) ∧
      (condOk m = false ∨ s.mod.serrefOk = false → s.boot.condFails = 9 → ∃ s', exec (.bistCondRecheck t m) s = .next s' ∧
        s'.phase = 0xA ∧ s'.fld R.GLB_BOOT_STATUS 16 16 = E_BIST_COND)) ∧
    (∀ m : CondMeas, (s.running = false ∨ s.phase ≠ 2 ∨ now < s.boot.condNext) → s.givesNothing (.bistCondRecheck t m)) ∧
    (∀ m : CondMeas, s.running = true → s.phase = 3 → condOk m = false →
      s.gives (.selfTestConditionFail t m) [.mod, .boot, .regs, .host, .dbg] fun s' => s'.phase = 2 ∧ s'.mod = seen m ∧
        s'.bit R.GLB_BIST_SUMMARY 1 = true ∧ s'.boot = { s.boot with condNext := now + 100000000 }) ∧
    (∀ m : CondMeas, (condOk m = true ∨ s.running = false ∨ s.phase ≠ 3) → s.givesNothing (.selfTestConditionFail t m)) ∧
    (s.running = true → s.phase = 3 → s.condNow = true →
      let pass := (List.range 32).foldl (fun a n => if s.boot.fuseOff.getLsbD n then a else a + 2 ^ n) 0
      let g := gradeOf (min ((List.range 32).filter (fun n => pass.testBit n)).length s.boot.fuseCeiling)
      (g ≠ 0 → ∃ s', exec (.bistComplete t []) s = .next s' ∧ s'.phase = 5 ∧ s'.fld R.GLB_GRADE 0 8 = g ∧
        s'.rd R.GLB_FLASK_PASS = pass ∧ s'.rd R.GLB_FLASK_USED = lowest pass g ∧ s'.schUp = true ∧ s'.line.live = true ∧
        s'.boot.released = true ∧ s'.bit R.GLB_BIST_SUMMARY 0 = false ∧ s'.fab = s.fab) ∧
      (g = 0 → ∃ s', exec (.bistComplete t []) s = .next s' ∧ s'.phase = 0xA ∧ s'.fld R.GLB_BOOT_STATUS 16 16 = E_GRADE_NONE ∧
        s'.fld R.GLB_GRADE 0 8 = 0)) ∧
    (∀ fails, s.running = true → s.phase = 3 → s.condNow = true → s.judged fails ≠ [] → s.strap 1 = true →
      ∃ s', exec (.bistComplete t fails) s = .next s' ∧
      s'.phase = 9 ∧ s'.fld R.GLB_BOOT_STATUS 16 16 = E_BIST_FAIL ∧ s'.fld R.GLB_GRADE 0 8 = 0 ∧ s'.bit R.GLB_BIST_SUMMARY 0 = true ∧
      s'.fld R.GLB_BIST_SUMMARY 8 8 = min 128 (s.judged fails).length ∧ s'.pmcUp = false) ∧
    (∀ fails, s.running = true → s.phase = 3 → s.condNow = false → s.gives (.bistComplete t fails) [.boot, .regs, .host, .dbg] fun s' =>
      s'.phase = 2 ∧ s'.bit R.GLB_BIST_SUMMARY 1 = true ∧ s'.rd R.GLB_FLASK_PASS = s.rd R.GLB_FLASK_PASS ∧
      s'.boot = { s.boot with condNext := now + 100000000 }) ∧
    (∀ fails, s.running = false ∨ s.phase ≠ 3 → s.givesNothing (.bistComplete t fails))

/-- R24, R404, R461–R463, R465, R467, R471–R473: clock steps and throttling, the thermal safe state, telemetry, power-state requests and
wakes, MSMB reads, and the safety monitor's force and acknowledgements. Readings the rules leave open rest on log 18, 84 and 85. -/
def Obligations.PowerThermalAndSafety : Prop :=
  ∀ (s : State) (t : Nat), let now := max s.now t
    let z := s.at' t
    (s.running = true → s.pmcUp = true → let st := s.fld R.PWR_CLK 4 3
      let g := s.fld R.PWR_CLK 8 3
      s.gives (.thermalThrottleStep t) (.pwr :: raiseParts) fun s' =>
        (169 ≤ s.pwr.junction → s'.pwr.throttling = true ∧ s'.pins.thermAlertLow = true ∧ s'.fld R.PWR_CLK 4 3 =
          if s.pwr.thermAt + 1000000 ≤ now ∧ st < 6 then st + 1 else st) ∧
        (s.pwr.junction < 164 → s'.pwr.throttling = false ∧ s'.pins.thermAlertLow = false ∧ s'.fld R.PWR_CLK 4 3 =
          if s.pwr.thermAt + 10000000 ≤ now ∧ 0 < st then st - 1 else st) ∧
        (164 ≤ s.pwr.junction → s.pwr.junction < 169 → s'.pwr.throttling = s.pwr.throttling ∧ s'.fld R.PWR_CLK 4 3 = st) ∧
        (1500 < s.pwr.power → s'.fld R.PWR_CLK 8 3 = if s.pwr.guardAt + 1000000 ≤ now ∧ g < 6 then g + 1 else g) ∧
        (s.pwr.power ≤ 1450 → s'.fld R.PWR_CLK 8 3 = if s.pwr.guardAt + 10000000 ≤ now ∧ 0 < g then g - 1 else g) ∧
        (1450 < s.pwr.power → s.pwr.power ≤ 1500 → s'.fld R.PWR_CLK 8 3 = g) ∧
        (s.mod.serrefOk = true → s.phase ≠ 3 → s'.fld R.PWR_CLK 0 3 =
          max (s.fld R.PWR_CLK_CAP 0 3) (max (s'.fld R.PWR_CLK 4 3) (s'.fld R.PWR_CLK 8 3)))) ∧
    (s.running = false ∨ s.pmcUp = false → s.givesNothing (.thermalThrottleStep t)) ∧
    (∀ j : BitVec 8, (179 ≤ j.toNat → s.running = true → (s.pwr.hot && s.bit R.PWR_SAFE_STAT 5) = false → s.safe = false → s.line.ledger = [] → s.sch.pours = [] →
        s.fab.crus = [] → s.gives (.thermalSafe t j) ([.pwr, .line] ++ raiseParts) fun s' => s'.pwr.junction = j.toNat ∧
          s'.pwr.hot = true ∧ s'.safe = true ∧ s'.bit R.PWR_SAFE_STAT 5 = true ∧ s'.pwr.crucibleStop = true) ∧
      (179 ≤ j.toNat → s.running = false ∨ (s.pwr.hot = true ∧ s.bit R.PWR_SAFE_STAT 5 = true) → s.gives (.thermalSafe t j) [.pwr] fun s' =>
        s'.pwr.junction = j.toNat ∧ s'.pwr.hot = true) ∧
      (j.toNat < 164 → s.gives (.thermalSafe t j) [.pwr] fun s' => s'.pwr.junction = j.toNat ∧ s'.pwr.hot = false) ∧
      (164 ≤ j.toNat → j.toNat < 179 → s.gives (.thermalSafe t j) [.pwr] fun s' => s'.pwr.junction = j.toNat ∧
        s'.pwr.hot = s.pwr.hot)) ∧
    (∀ m : Telemetry, let good : Prop := 10800 ≤ m.vinMv.toNat ∧ m.vinMv.toNat ≤ 13200
      let mod' : Module := { s.mod with
        vinMv := m.vinMv.toNat, badAt := if 10800 ≤ m.vinMv.toNat ∧ m.vinMv.toNat ≤ 13200 then s.mod.badAt else now }
      let ps := s.pwr.powers.filter (fun e => decide (now < e.1 + 1000000000)) ++ [(now, m.power.toNat)]
      let sampled (s' : State) : Prop := s'.mod = mod' ∧
        s'.pwr.junction = m.junction.toNat ∧ s'.pwr.power = m.power.toNat ∧ s'.pwr.current = m.current.toNat ∧
        s'.pwr.board = m.board.toNat ∧ s'.pwr.rnyJunction = m.rnyJunction.toNat ∧ s'.pwr.powers = ps ∧
        s'.pwr.hot = (s.pwr.hot && decide (164 ≤ m.junction.toNat)) ∧ s'.rfld R.RNY_SUPPLY 16 8 = m.rnyJunction.toNat
      let shown (s' : State) : Prop := s'.fld R.PWR_THERM 0 8 = m.junction.toNat ∧ s'.fld R.PWR_THERM 8 8 = m.board.toNat ∧
        s'.rd R.PWR_VIN = m.vinMv.toNat + m.current.toNat * 65536 ∧
        s'.rd R.PWR_POWER = (m.power.toNat + ps.foldl (fun a e => max a e.2) 0 * 65536) % 2 ^ 32
      (s.running = true → s.pmcUp = true → s.pwr.state ≠ 2 → s.phase ≠ 3 →
        s.gives (.telemetrySample t m) [.mod, .pwr, .rny, .regs] fun s' => sampled s' ∧ shown s') ∧
      (s.running = true → s.pmcUp = true → s.pwr.state ≠ 2 → s.phase = 3 → ¬ good →
        s.gives (.telemetrySample t m) [.mod, .pwr, .rny, .regs, .boot, .host, .dbg] fun s' => sampled s' ∧ shown s' ∧ s'.phase = 2) ∧
      (s.pwr.state = 2 → s.gives (.telemetrySample t m) [.mod, .pwr, .rny] sampled) ∧
      (s.pwr.state ≠ 2 → (s.running = false ∨ s.pmcUp = false) → s.givesNothing (.telemetrySample t m))) ∧
    (s.running = true → s.pmcUp = true →
      (s.pwr.state = 1 → s.gives (.pwrReqS0 t) [.regs, .pwr] fun s' => s'.pwr.state = 0 ∧ s'.fld R.PWR_STATE 0 2 = 0) ∧
      (s.pwr.state = 0 → s.gives (.pwrReqS0 t) [.regs, .pwr] fun s' => s'.pwr.state = 0 ∧ s'.pwr.s1Req = false) ∧
      (s.pwr.state = 0 → z.s1Ready 1 = true → s.gives (.pwrReqS1 t) [.regs, .pwr, .ron] fun s' => s'.pwr.state = 1 ∧
        s'.fld R.PWR_STATE 0 2 = 1 ∧ ∀ k < s.ron.enc.length, (s'.enc k).motionBase = (s.enc k).p ∧ (s'.enc k).motionSent = false) ∧
      (s.pwr.state = 0 → z.s1Ready 1 = false → s.gives (.pwrReqS1 t) [.regs, .pwr] fun s' => s'.pwr.state = 0 ∧ s'.pwr.s1Req = true) ∧
      (∀ st, (st = 2 ∨ st = 3) → let c : Instr := if st = 2 then .pwrReqS2 t else .pwrReqS3 t
        (s.sleepRefusal ≠ 0 → s.gives c [.regs] fun s' => s'.fld R.PWR_STATE 4 2 = s.sleepRefusal ∧ s'.pwr.state = s.pwr.state ∧ s'.fld R.PWR_STATE_REQ 0 2 = st) ∧
        (s.sleepRefusal = 0 → ∃ s', exec c s = .next s' ∧ s'.pwr.state = st ∧ s'.mod.railsUp = false ∧ s'.mod.held = true ∧
          s'.mod.aonUp = decide (st = 2) ∧ s'.boot.nextCause = 3 ∧
          s'.rd R.PWR_FAIL_LAST = (if s.hasWork then 16 else 0) ∧ (st = 2 → s'.pwr.s2Motion = s.bit R.PWR_S1_CFG 16) ∧
          (st = 3 → s'.mod.visoUp = false ∧ s'.pins.dq = 0)))) ∧
    (∀ c ∈ [(Instr.pwrReqS0 t, 0), (.pwrReqS1 t, 1), (.pwrReqS2 t, 2), (.pwrReqS3 t, 3)],
      (s.running = true → s.pmcUp = false → s.gives c.1 [.regs, .pwr] fun s' => s'.pwr.waitReq = some c.2 ∧
        s'.pwr.state = s.pwr.state ∧ s'.fld R.PWR_STATE_REQ 0 2 = c.2) ∧
      (s.running = false → s.givesNothing c.1)) ∧
    (s.running = true → s.pmcUp = true → s.pwr.state = 0 → let idle := s.fld R.PWR_S1_CFG 4 12 * 1000000000
      ((s.pwr.s1Req = true ∧ z.s1Ready 1 = true) ∨ z.s1Idle idle = true →
        s.gives (.s1IdleEntry t) [.regs, .pwr, .ron] fun s' => s'.pwr.state = 1 ∧ s'.fld R.PWR_STATE 0 2 = 1) ∧
      ((s.pwr.s1Req = false ∨ z.s1Ready 1 = false) → z.s1Idle idle = false → s.givesNothing (.s1IdleEntry t))) ∧
    (s.running = true → s.pwr.state = 1 → ((∃ ch, Msg.motion ch ∈ s.line.rx) ∨ s.jobBusy = true) →
      s.gives (.s1Wake t) [.regs, .pwr, .line] fun s' => s'.pwr.state = 0 ∧ s'.fld R.PWR_STATE 0 2 = 0 ∧
        (∀ ch, Msg.motion ch ∉ s'.line.rx) ∧ s'.line = { s.line with rx := s'.line.rx }) ∧
    (s.pwr.state ≠ 1 ∨ ((∀ ch, Msg.motion ch ∉ s.line.rx) ∧ s.jobBusy = false) → s.givesNothing (.s1Wake t)) ∧
    (s.pwr.state = 2 → s.mod.warning = false → ((∃ ch, Msg.motion ch ∈ s.ron.tx) ∧ s.pwr.s2Motion = true ∨ s.pwr.wakeReq = true ∨ s.mod.modResetLow = true) →
      s.gives (.s2Wake t) [.mod, .boot, .pwr, .rny, .ron, .host] fun s' => s'.mod.railsUp = true ∧ s'.mod.aonUp = true ∧ s'.mod.held = true ∧
        (∀ ch, Msg.motion ch ∉ s'.ron.tx) ∧
        s'.mod.hostWakeUntil = now + 10000000 ∧ s'.pins.hostWakeLow = true ∧ s'.boot.nextCause = 3 ∧ s'.pwr.state = 0) ∧
    (s.pwr.state ≠ 2 ∨ s.mod.warning = true → s.givesNothing (.s2Wake t)) ∧
    (let word (inS2 : Bool) (v : Nat) : Nat := if (if s.pwr.state = 2 then inS2 else s.running && s.pmcUp) then v % 65536 else 0xFFFF
     let reads (c : Instr) (cmd : Nat) (inS2 : Bool) (v : Nat) : Prop := s.gives c [.pwr] fun s' =>
        s'.pwr.msmb = (if s.mod.aonUp then some (word inS2 v) else none) ∧
        s'.pwr.pec = pecOf [0x98, cmd, 0x99, word inS2 v % 256, word inS2 v / 256]
     reads (.msmbVin t) 0x10 true s.mod.vinMv ∧ reads (.msmbInputCurrent t) 0x11 true s.pwr.current ∧
     reads (.msmbInputPower t) 0x12 true s.pwr.power ∧ reads (.msmbJunction t) 0x20 false s.pwr.junction ∧
     reads (.msmbBoardTemp t) 0x21 true s.pwr.board ∧ reads (.msmbRonyrJunction t) 0x22 true s.pwr.rnyJunction ∧
     reads (.msmbLplus t) 0x30 true (s.ron.lplusMv / 10) ∧ reads (.msmbCrucibleStep t) 0x40 false (s.fld R.PWR_CLK 0 3) ∧
     reads (.msmbSafeCauses t) 0x50 false (s.fld R.PWR_SAFE_STAT 4 9) ∧
     s.gives (.msmbStatus t) [.pwr] fun s' => s'.pwr.msmb = (if s.mod.aonUp then some (s.msmbWord % 65536) else none) ∧
       s'.pwr.pec = pecOf [0x98, 0x01, 0x99, s.msmbWord % 256, s.msmbWord % 65536 / 256] ∧
       s'.pwr.alert = s.alertCause ∧ s'.pins.msmbAlertLow = s.alertCause) ∧
    (∀ (w : BitVec 16) (pec : Option Byte),
      let good : Prop := ∀ c, pec = some c → c.toNat = pecOf [0x98, 0x60, w.toNat % 256, w.toNat / 256]
      (s.pwr.state = 2 → w = 1 → good → s.gives (.msmbWake t ⟨w, pec⟩) [.pwr] fun s' => s'.pwr.wakeReq = true) ∧
      (s.pwr.state ≠ 2 ∨ w ≠ 1 ∨ ¬ good → s.givesNothing (.msmbWake t ⟨w, pec⟩))) ∧
    (s.running = true → s.safe = true → let left (s' : State) : Prop := s'.safe = false ∧ s'.fld R.PWR_SAFE_STAT 4 9 = 0 ∧
        s'.pwr.crucibleStop = false ∧ s'.line.tx = s.line.tx ++ (if s.boot.lineStarted then [.resume] else [])
      (z.causesAbsent = true → s.gives (.safeAck t) [.regs, .pwr, .line] left) ∧
      (z.causesAbsent = false → s.givesNothing (.safeAck t)) ∧
      (∀ t0, s.pwr.absentSince = some t0 → s.fld R.PWR_SAFE_CFG 8 16 ≠ 0 → t0 + s.fld R.PWR_SAFE_CFG 8 16 * 1000000000 ≤ now →
        z.causesAbsent = true → s.gives (.safeAutoAck t) [.regs, .pwr, .line] left) ∧
      (s.fld R.PWR_SAFE_CFG 8 16 = 0 → s.givesNothing (.safeAutoAck t)) ∧
      (s.gives (.safeForce t) [.regs] fun s' => s.regsBut s' [R.PWR_SAFE_STAT] ∧ s'.bit R.PWR_SAFE_STAT 12 = true ∧ s'.safe = true)) ∧
    (s.running = true → s.safe = false → s.line.ledger = [] → s.gives (.safeForce t) (.line :: raiseParts) fun s' => s'.safe = true ∧
      s'.bit R.PWR_SAFE_STAT 12 = true ∧ s'.line.tx = s.line.tx ++ [.safe] ∧ s'.pins.msmbAlertLow = true)

/-! ### The scheduler core -/

/-- R312, R318–R322, R325–R333, R354, R355: a step takes its batch; a twin comparison ends it or counts a mismatch; tasks are dispatched
and stolen; a slice ends; LINE claims and returns a flask; a chill writes its section and a remelt restores it. Readings the rules leave
open rest on log 39, 54, 55, 56 and 57. -/
def Obligations.SchedulerCommands : Prop :=
  ∀ (s : State) (t : Nat) (x : Fin 16) (n : Fin 32), let now := max s.now t
    let z := s.at' t
    (∀ p g q st e ready, z.seqPour x = some (p, g, q) → p.replay = false → KMap.find s.sch.seqs x = some st → s.fabricUp = true → s.schUp = true →
      st.busy = false → st.compare = false → s.sch.pieces = [e] → e.ctx = x → e.st = 2 → e.voided = false → e.total = none →
      s.sch.pendRet = [] → 0 < q.bt → let b := z.backlog ready e
      1 ≤ b → s.gives (.stepBegin t x ready) [.sch, .regs, .dbg, .intk, .fab] fun s' => ∃ k, KMap.find s'.sch.seqs x = some k ∧ k.busy = true ∧
        k.step = st.step ∧ k.free = st.free ∧
        k.batch = [(e.entry, e.tokens, if b = 1 then 1 else min b (min (s.seqClass e 0 21 7 + 1) q.bt))]) ∧
    (∀ p g q st, z.seqPour x = some (p, g, q) → KMap.find s.sch.seqs x = some st → s.running = true → st.compare = true →
      (∀ e ∈ z.twinSlots x g st, e.2 = []) → z.twinRegs g p = [] → s.schUp = true → s.replayPour x = none →
      (∀ e ∈ st.batch, ∀ r, s.piece e.1 = some r → r.total = none) →
      s.gives (.twinCompare t x) [.sch, .regs] fun s' => s.regsBut s' [R.CMD_TWIN_WAIT] ∧ KMap.find s'.sch.seqs x = some { st with
        busy := false, compare := false, step := (st.step + 1) % 2 ^ 64, batch := [], commits := []
        last := st.batch.foldl (fun a e => a + e.2.2) 0 }) ∧
    (∀ p g q st r k, z.seqPour x = some (p, g, q) → KMap.find s.sch.seqs x = some st → s.running = true → st.compare = true →
      z.twinSlots x g st = [(r, [k])] → z.twinRegs g p = [] → ∃ s', exec (.twinCompare t x) s = .next s' ∧
        s'.fld R.CMD_TWIN_STAT 0 16 = min 65535 (s.fld R.CMD_TWIN_STAT 0 16 + 1) ∧
        s'.rd R.CMD_TWIN_LAST = (r.cls + k * 64 + x * 2 ^ 14) % 2 ^ 32 ∧ s'.rd (R.CMD_TWIN_LAST + 4) = r.serial % 2 ^ 32 ∧
        s'.rd64 (R.CMD_TWIN_LAST + 8) = st.step % 2 ^ 64) ∧
    (∀ (f : Fin 4) d decl s1, (s.sch.deques.filter (fun d => d.1 == n.val && d.2.1 == x.val)).getLast? = some d → s.fabricUp = true →
      s.fwState (3 + n) = 1 → s.fet (n * 4 + f) = none → (z.placeable x).contains n.val = true → z.stopped n x = false →
      z.goesFirst n x d.2.2.2 = true → z.taskDecl d.2.2.1 d.2.2.2 = some decl → z.bringRegions n x decl.regions = some s1 →
      s.gives (.taskDispatch t n f x) [.fab, .sch, .regs, .dbg] fun s' => s'.sch.deques = s.sch.deques.erase d ∧
        ∃ k, s'.fet (n * 4 + f) = some k ∧ k = { pour := d.2.2.1, task := d.2.2.2, ctx := x, pc := decl.entry, csr := k.csr } ∧
          k.rc 0x30 = BitVec.ofNat 64 n ∧ k.rc 0x31 = BitVec.ofNat 64 f ∧ k.rc 0x32 = BitVec.ofNat 64 x ∧
          k.rc 0x33 = BitVec.ofNat 64 d.2.2.2 ∧ k.rc 0x34 = BitVec.ofNat 64 d.2.2.1) ∧
    (∀ (f : Fin 4) d decl, (s.sch.deques.filter (fun d => d.1 == n.val && d.2.1 == x.val)).getLast? = some d →
      z.taskDecl d.2.2.1 d.2.2.2 = some decl → z.bringRegions n x decl.regions = none → s.givesNothing (.taskDispatch t n f x)) ∧
    (∀ (f : Fin 4) d m c, s.sch.deques.any (fun d => d.1 == n.val && d.2.1 == x.val) = false → s.fabricUp = true → s.schUp = true →
      s.fwState (3 + n) = 1 → s.fet (n * 4 + f) = none → (z.placeable x).contains n.val = true → z.stopped n x = false →
      (z.runs x).filter (fun k => k != n.val) = [m] →
      s.sch.deques.find? (fun d => d.1 == m && d.2.1 == x.val && z.stealable n d) = some d → s.ctx x = some c →
      s.gives (.taskSteal t n f x) [.sch, .regs, .dbg] fun s' =>
        s'.sch.deques = s.sch.deques.erase d ++ [((n : Nat), (x : Nat), d.2.2.1, d.2.2.2)] ∧
        s'.ctx x = some { c with steals := c.steals + 1 }) ∧
    (∀ c k, s.running = true → s.schUp = true → (x : Nat) ≠ 0 → s.sch.ctxs = [(0, {}), ((x : Nat), c)] → c.cls = 2 → c.st = 2 →
      (c.sliceAt + c.granted ≤ now ∨ z.jobWork x = false) → s.sch.flasks = [((n : Nat), k)] → k.job = some (x : Nat) → k.phase = 0 →
      s.gives (.sliceEnd t x) [.sch, .fab, .permits, .regs, .dbg] fun s' =>
        s'.flask n = { k with phase := 1, full := false } ∧ ∃ c', s'.ctx x = some c' ∧ c'.st = 3 ∧ c'.debt = c.debt) ∧
    (∀ c, s.ctx x = some c → (c.st ≠ 2 ∨ (now < c.sliceAt + c.granted ∧ z.jobWork x = true)) → s.givesNothing (.sliceEnd t x)) ∧
    (∀ y : Fin 16, s.running = true → s.schUp = true → s.clsOf x = 1 → (s.flask n).job = some (y : Nat) → (s.flask n).phase = 0 →
      z.claimFlask x = some n.val → s.gives (.lineDemandClaim t x n y) [.sch, .fab, .permits] fun s' => s'.flask n = { s.flask n with
        phase := 1, full := !z.coreFits x n, line := some (x : Nat), askedAt := some now }) ∧
    (∀ y : Fin 16, z.claimFlask x ≠ some n.val ∨ (s.flask n).job ≠ some (y : Nat) → s.givesNothing (.lineDemandClaim t x n y)) ∧
    (s.running = true → s.schUp = true → (s.flask n).line ≠ none → (s.flask n).job = none → (∀ e ∈ s.sch.ctxs, e.2.cls ≠ 2) →
      s.sch.deques.any (fun d => d.1 == n.val && s.clsOf d.2.1 == 1) = false →
      s.fab.fets.any (fun e => e.1 / 4 == n.val && s.clsOf e.2.ctx == 1) = false →
      ((s.flask n).lineAt + 1000000 ≤ now → s.gives (.lineFlaskReturn t n) [.sch] fun s' => s'.flask n = { s.flask n with line := none }) ∧
      (now < (s.flask n).lineAt + 1000000 → s.givesNothing (.lineFlaskReturn t n))) ∧
    (∀ c k, s.running = true → s.fwState (3 + n) = 1 → (x : Nat) ≠ 0 → s.sch.ctxs = [(0, {}), ((x : Nat), c)] →
      c.held = true → c.cls = 2 → c.sections = [] → c.st = 3 → s.sch.flasks = [((n : Nat), k)] → k.job = some (x : Nat) → k.phase = 1 →
      k.full = true → k.crashed = [] → k.askedAt = none →
      s.hasPours x = true → s.host.orders = [] → z.issuedOn n x = false → z.draining n x = false →
      s.gives (.chillComplete t x n) [.sch, .fab, .permits, .regs, .dbg] fun s' => (s'.flask n).job = none ∧
        (∀ e ∈ s'.fab.fets, ¬ (e.1 / 4 = (n : Nat) ∧ e.2.ctx = x)) ∧ ∃ c' sec, s'.ctx x = some c' ∧ c'.st = 4 ∧ c'.sections = [sec] ∧
          sec.flask = n ∧ sec.kind = 1 ∧ sec.regions = s.regionWords n x ∧ sec.mould = s.regionCells n x ∧
          sec.fets = (s.fab.fets.filter (fun e => e.1 / 4 == n.val && e.2.ctx == x.val)).map (fun e => (e.1 % 4, e.2))) ∧
    (∀ c k e j f, s.running = true → s.fwState (3 + n) = 1 → (x : Nat) ≠ 0 → s.sch.ctxs = [(0, {}), ((x : Nat), c)] →
      c.st = 5 → c.cls = 2 → c.sections = [e] → e.flask = n → e.kind = 0 → e.fets = [(j, f)] → j < 4 →
      s.sch.flasks = [((n : Nat), k)] → k.job = some (x : Nat) → k.phase = 3 →
      s.sch.pours = [] → s.host.orders = [] →
      (s.gives (.remeltComplete t x n none) [.sch, .fab, .permits, .regs, .dbg] fun s' =>
        (s'.flask n).phase = 0 ∧ (∃ c', s'.ctx x = some c' ∧ c'.st = 2 ∧ c'.sections = [] ∧ c'.running = maskOf [n.val]) ∧
        ∃ g, s'.fet (4 * n + j) = some g ∧ g.rc 0x30 = BitVec.ofNat 64 n ∧ g.rc 0x31 = BitVec.ofNat 64 j ∧
          (∀ a, a ≠ 0x30 → a ≠ 0x31 → g.rc a = f.rc a) ∧ (∀ v w, f.wait = .park v w → g.wait = .none) ∧
          ((∀ v w, f.wait ≠ .park v w) → g.wait = f.wait) ∧ g = { f with csr := g.csr, wait := g.wait }) ∧
      (∀ line, ∃ s', exec (.remeltComplete t x n (some line)) s = .next s' ∧ s'.fet (4 * n + j) = s.fet (4 * n + j) ∧
        s'.rd64 R.MEM_LAST_UNCORR = line % 2 ^ 64 ∧
        ∃ c', s'.ctx x = some c' ∧ c'.st = 6 ∧ c'.code = E_MEM_UNCORR ∧ c'.sections = []))
end
end

