-- ==== Sys2Proof/Laws/Maps.lean ====
section
/-! SUPPORT. Laws of the sparse stores: reading back what was written, leaving every other key alone, and the canonical
form every operation keeps. -/

namespace Sys2Proof.Machine

variable {α : Type}

/-! ### Reading back -/

@[simp] theorem KMap.find_nil (k : Nat) : KMap.find ([] : KMap α) k = none := rfl

theorem KMap.find_put_same (m : KMap α) (k : Nat) (v : α) : KMap.find (KMap.put m k v) k = some v := by
  induction m with
  | nil => simp [KMap.put, KMap.find]
  | cons e m ih =>
    obtain ⟨a, b⟩ := e
    simp only [KMap.put]
    split
    · simp [KMap.find]
    · split
      · simp [KMap.find]
      · simp [KMap.find, *]

theorem KMap.find_put_other (m : KMap α) {k j : Nat} (v : α) (h : j ≠ k) :
    KMap.find (KMap.put m k v) j = KMap.find m j := by
  induction m with
  | nil => simp [KMap.put, KMap.find, h]
  | cons e m ih =>
    obtain ⟨a, b⟩ := e
    simp only [KMap.put]
    split
    · subst_vars; simp [KMap.find, h]
    · split
      · simp [KMap.find, h]
      · simp [KMap.find, ih]

theorem KMap.find_del_same (m : KMap α) (k : Nat) : KMap.find (KMap.del m k) k = none := by
  induction m with
  | nil => rfl
  | cons e m ih =>
    obtain ⟨a, b⟩ := e
    simp only [KMap.del]
    split
    · exact ih
    · simp [KMap.find, *]

theorem KMap.find_del_other (m : KMap α) {k j : Nat} (h : j ≠ k) : KMap.find (KMap.del m k) j = KMap.find m j := by
  induction m with
  | nil => rfl
  | cons e m ih =>
    obtain ⟨a, b⟩ := e
    simp only [KMap.del]
    split
    · subst_vars; simp [KMap.find, h, ih]
    · simp [KMap.find, ih]

@[simp] theorem KMap.getD_put_same (m : KMap α) (k : Nat) (v d : α) : KMap.getD (KMap.put m k v) k d = v := by
  simp [KMap.getD, KMap.find_put_same]

theorem KMap.getD_put_other (m : KMap α) {k j : Nat} (v d : α) (h : j ≠ k) :
    KMap.getD (KMap.put m k v) j d = KMap.getD m j d := by
  simp [KMap.getD, KMap.find_put_other m v h]

@[simp] theorem KMap.getD_del_same (m : KMap α) (k : Nat) (d : α) : KMap.getD (KMap.del m k) k d = d := by
  simp [KMap.getD, KMap.find_del_same]

theorem KMap.getD_del_other (m : KMap α) {k j : Nat} (d : α) (h : j ≠ k) :
    KMap.getD (KMap.del m k) j d = KMap.getD m j d := by
  simp [KMap.getD, KMap.find_del_other m h]

/-! ### The canonical form -/

theorem KMap.risingFrom_le {m : KMap α} {a b : Nat} (h : a ≤ b) (hm : KMap.risingFrom b m = true) : KMap.risingFrom a m = true := by
  cases m with
  | nil => rfl
  | cons e m =>
    simp [KMap.risingFrom] at hm ⊢
    exact ⟨by omega, hm.2⟩

theorem KMap.risingFrom_put {m : KMap α} {lo k : Nat} (v : α) (hk : lo ≤ k) (hm : KMap.risingFrom lo m = true) :
    KMap.risingFrom lo (KMap.put m k v) = true := by
  induction m generalizing lo with
  | nil => simpa [KMap.put, KMap.risingFrom] using hk
  | cons e m ih =>
    obtain ⟨a, b⟩ := e
    simp [KMap.risingFrom] at hm
    simp only [KMap.put]
    split
    · subst_vars; simpa [KMap.risingFrom] using ⟨hk, hm.2⟩
    · split
      · simp [KMap.risingFrom]; exact ⟨hk, by omega, hm.2⟩
      · simp [KMap.risingFrom]; exact ⟨hm.1, ih (by omega) hm.2⟩

theorem KMap.risingFrom_del {m : KMap α} {lo : Nat} (k : Nat) (hm : KMap.risingFrom lo m = true) :
    KMap.risingFrom lo (KMap.del m k) = true := by
  induction m generalizing lo with
  | nil => rfl
  | cons e m ih =>
    obtain ⟨a, b⟩ := e
    simp [KMap.risingFrom] at hm
    simp only [KMap.del]
    split
    · exact KMap.risingFrom_le (by omega) (ih hm.2)
    · simp [KMap.risingFrom]; exact ⟨hm.1, ih hm.2⟩

theorem KMap.risingFrom_filter {m : KMap α} {lo : Nat} (p : Nat × α → Bool) (hm : KMap.risingFrom lo m = true) :
    KMap.risingFrom lo (m.filter p) = true := by
  induction m generalizing lo with
  | nil => rfl
  | cons e m ih =>
    obtain ⟨a, b⟩ := e
    simp [KMap.risingFrom] at hm
    rw [List.filter_cons]
    split
    · simp [KMap.risingFrom]; exact ⟨hm.1, ih hm.2⟩
    · exact KMap.risingFrom_le (by omega) (ih hm.2)

theorem KMap.wf_put {m : KMap α} (k : Nat) (v : α) (hm : KMap.wf m = true) : KMap.wf (KMap.put m k v) = true :=
  KMap.risingFrom_put v (Nat.zero_le k) hm

theorem KMap.wf_del {m : KMap α} (k : Nat) (hm : KMap.wf m = true) : KMap.wf (KMap.del m k) = true :=
  KMap.risingFrom_del k hm

theorem KMap.wf_filter {m : KMap α} (p : Nat × α → Bool) (hm : KMap.wf m = true) : KMap.wf (m.filter p) = true :=
  KMap.risingFrom_filter p hm

theorem KMap.mem_put {m : KMap α} {k : Nat} {v : α} {e : Nat × α} (h : e ∈ KMap.put m k v) : e = (k, v) ∨ e ∈ m := by
  induction m with
  | nil => simpa [KMap.put] using h
  | cons c m ih =>
    obtain ⟨a, b⟩ := c
    simp only [KMap.put] at h
    split at h
    · rcases List.mem_cons.mp h with h | h
      · exact .inl h
      · exact .inr (List.mem_cons_of_mem _ h)
    · split at h
      · rcases List.mem_cons.mp h with h | h
        · exact .inl h
        · exact .inr h
      · rcases List.mem_cons.mp h with h | h
        · exact .inr (h ▸ List.mem_cons_self)
        · exact (ih h).imp id (List.mem_cons_of_mem _)

theorem KMap.mem_del {m : KMap α} {k : Nat} {e : Nat × α} (h : e ∈ KMap.del m k) : e ∈ m := by
  induction m with
  | nil => exact h
  | cons c m ih =>
    obtain ⟨a, b⟩ := c
    simp only [KMap.del] at h
    split at h
    · exact List.mem_cons_of_mem _ (ih h)
    · rcases List.mem_cons.mp h with h | h
      · exact h ▸ List.mem_cons_self
      · exact List.mem_cons_of_mem _ (ih h)

/-! ### Byte memories -/

@[simp] theorem Mem.read_nil (a : Nat) : Mem.read [] a = Mem.blank := rfl

theorem Mem.read_write_same (m : Mem) (a : Nat) (v : Byte) : Mem.read (Mem.write m a v) a = v := by
  unfold Mem.read Mem.write
  split
  · simp [*]
  · simp

theorem Mem.read_write_other (m : Mem) {a b : Nat} (v : Byte) (h : b ≠ a) :
    Mem.read (Mem.write m a v) b = Mem.read m b := by
  unfold Mem.read Mem.write
  split
  · exact KMap.getD_del_other m _ h
  · exact KMap.getD_put_other m v _ h

theorem Mem.wf_write {m : Mem} (a : Nat) (v : Byte) (hm : Mem.wf m = true) : Mem.wf (Mem.write m a v) = true := by
  simp only [Mem.wf, Bool.and_eq_true, List.all_eq_true] at hm ⊢
  unfold Mem.write
  split
  · exact ⟨KMap.wf_del a hm.1, fun e he => hm.2 e (KMap.mem_del he)⟩
  · refine ⟨KMap.wf_put a v hm.1, fun e he => ?_⟩
    rcases KMap.mem_put he with rfl | h
    · simpa using ‹¬v = Mem.blank›
    · exact hm.2 e h

theorem Mem.wf_filter {m : Mem} (p : Host.Cell → Bool) (hm : Mem.wf m = true) : Mem.wf (m.filter p) = true := by
  simp only [Mem.wf, Bool.and_eq_true, List.all_eq_true] at hm ⊢
  exact ⟨KMap.wf_filter p hm.1, fun e he => hm.2 e (List.mem_filter.mp he).1⟩

theorem Mem.wf_zero {m : Mem} (a n : Nat) (hm : Mem.wf m = true) : Mem.wf (Mem.zero m a n) = true := Mem.wf_filter _ hm

theorem Mem.wf_writeLE (n : Nat) : ∀ (a v : Nat) {m : Mem}, Mem.wf m = true → Mem.wf (Mem.writeLE m a v n) = true := by
  induction n with
  | zero => intro a v m hm; exact hm
  | succ n ih => intro a v m hm; exact ih _ _ (Mem.wf_write _ _ hm)

theorem Mem.wf_writeBytes (l : List Byte) : ∀ (a : Nat) {m : Mem}, Mem.wf m = true → Mem.wf (Mem.writeBytes m a l) = true := by
  induction l with
  | nil => intro a m hm; exact hm
  | cons b l ih => intro a m hm; exact ih _ (Mem.wf_write _ _ hm)

theorem Mem.read_writeLE_other (n : Nat) : ∀ (a v : Nat) (m : Mem) {b : Nat}, (b < a ∨ a + n ≤ b) →
    Mem.read (Mem.writeLE m a v n) b = Mem.read m b := by
  induction n with
  | zero => intro a v m b _; rfl
  | succ n ih =>
    intro a v m b h
    simp only [Mem.writeLE]
    rw [ih _ _ _ (by omega), Mem.read_write_other _ _ (by omega)]

theorem Mem.readLE_writeLE_other (k : Nat) : ∀ (n a v : Nat) (m : Mem) (b : Nat), (b + k ≤ a ∨ a + n ≤ b) →
    Mem.readLE (Mem.writeLE m a v n) b k = Mem.readLE m b k := by
  induction k with
  | zero => intros; rfl
  | succ k ih =>
    intro n a v m b h
    simp only [Mem.readLE]
    rw [Mem.read_writeLE_other n a v m (by omega), ih n a v m (b + 1) (by omega)]

theorem Mem.readLE_writeLE_same (n : Nat) : ∀ (a v : Nat) (m : Mem), Mem.readLE (Mem.writeLE m a v n) a n = v % 256 ^ n := by
  induction n with
  | zero => intro a v m; simp [Mem.readLE, Nat.mod_one]
  | succ n ih =>
    intro a v m
    simp only [Mem.readLE, Mem.writeLE]
    rw [ih, Mem.read_writeLE_other n _ _ _ (by omega), Mem.read_write_same, BitVec.toNat_ofNat, Nat.pow_succ' (m := 256)]
    exact (Nat.mod_mul (x := v) (a := 256) (b := 256 ^ n)).symm

theorem Mem.read_writeBytes_other (l : List Byte) : ∀ (a : Nat) (m : Mem) {b : Nat}, (b < a ∨ a + l.length ≤ b) →
    Mem.read (Mem.writeBytes m a l) b = Mem.read m b := by
  induction l with
  | nil => intro a m b _; rfl
  | cons x l ih =>
    intro a m b h
    simp only [List.length_cons] at h
    simp only [Mem.writeBytes]
    rw [ih _ _ (by omega), Mem.read_write_other _ _ (by omega)]

theorem Mem.read_writeBytes_same (l : List Byte) : ∀ (a : Nat) (m : Mem) (i : Nat) (h : i < l.length),
    Mem.read (Mem.writeBytes m a l) (a + i) = l[i] := by
  induction l with
  | nil => intro a m i h; simp at h
  | cons x l ih =>
    intro a m i h
    simp only [Mem.writeBytes]
    cases i with
    | zero => rw [Mem.read_writeBytes_other l _ _ (by omega)]; exact Mem.read_write_same m a x
    | succ i =>
      have h' : i < l.length := by simpa using h
      have := ih (a + 1) (Mem.write m a x) i h'
      simpa [Nat.add_assoc, Nat.add_comm 1 i] using this

end Sys2Proof.Machine
end

