-- ==== Sys2Proof/Laws/State.lean ====
section
/-! SUPPORT. One lemma per field of State per update the shared operations make: what each leaves as it was. -/

namespace Sys2Proof.Machine

variable (s : State)

/-! ### A register word -/

@[simp] theorem State.setReg_now (a : Nat) (v : W32) : (s.setReg a v).now = s.now := rfl
@[simp] theorem State.setReg_free (a : Nat) (v : W32) : (s.setReg a v).free = s.free := rfl
@[simp] theorem State.setReg_rny (a : Nat) (v : W32) : (s.setReg a v).rny = s.rny := rfl
@[simp] theorem State.setReg_pins (a : Nat) (v : W32) : (s.setReg a v).pins = s.pins := rfl
@[simp] theorem State.setReg_mod (a : Nat) (v : W32) : (s.setReg a v).mod = s.mod := rfl
@[simp] theorem State.setReg_pocxp (a : Nat) (v : W32) : (s.setReg a v).pocxp = s.pocxp := rfl
@[simp] theorem State.setReg_boot (a : Nat) (v : W32) : (s.setReg a v).boot = s.boot := rfl
@[simp] theorem State.setReg_host (a : Nat) (v : W32) : (s.setReg a v).host = s.host := rfl
@[simp] theorem State.setReg_stage (a : Nat) (v : W32) : (s.setReg a v).stage = s.stage := rfl
@[simp] theorem State.setReg_line (a : Nat) (v : W32) : (s.setReg a v).line = s.line := rfl
@[simp] theorem State.setReg_jrn (a : Nat) (v : W32) : (s.setReg a v).jrn = s.jrn := rfl
@[simp] theorem State.setReg_ron (a : Nat) (v : W32) : (s.setReg a v).ron = s.ron := rfl
@[simp] theorem State.setReg_tim (a : Nat) (v : W32) : (s.setReg a v).tim = s.tim := rfl
@[simp] theorem State.setReg_chain (a : Nat) (v : W32) : (s.setReg a v).chain = s.chain := rfl
@[simp] theorem State.setReg_sec (a : Nat) (v : W32) : (s.setReg a v).sec = s.sec := rfl
@[simp] theorem State.setReg_pwr (a : Nat) (v : W32) : (s.setReg a v).pwr = s.pwr := rfl
@[simp] theorem State.setReg_dbg (a : Nat) (v : W32) : (s.setReg a v).dbg = s.dbg := rfl
@[simp] theorem State.setReg_hostMem (a : Nat) (v : W32) : (s.setReg a v).hostMem = s.hostMem := rfl
@[simp] theorem State.setReg_fab (a : Nat) (v : W32) : (s.setReg a v).fab = s.fab := rfl
@[simp] theorem State.setReg_meter (a : Nat) (v : W32) : (s.setReg a v).meter = s.meter := rfl
@[simp] theorem State.setReg_permits (a : Nat) (v : W32) : (s.setReg a v).permits = s.permits := rfl
@[simp] theorem State.setReg_sch (a : Nat) (v : W32) : (s.setReg a v).sch = s.sch := rfl
@[simp] theorem State.setReg_intk (a : Nat) (v : W32) : (s.setReg a v).intk = s.intk := rfl
@[simp] theorem State.setReg_pending (a : Nat) (v : W32) : (s.setReg a v).pending = s.pending := rfl

/-! ### A register word from a number -/

@[simp] theorem State.wr_now (a v : Nat) : (s.wr a v).now = s.now := rfl
@[simp] theorem State.wr_free (a v : Nat) : (s.wr a v).free = s.free := rfl
@[simp] theorem State.wr_rny (a v : Nat) : (s.wr a v).rny = s.rny := rfl
@[simp] theorem State.wr_pins (a v : Nat) : (s.wr a v).pins = s.pins := rfl
@[simp] theorem State.wr_mod (a v : Nat) : (s.wr a v).mod = s.mod := rfl
@[simp] theorem State.wr_pocxp (a v : Nat) : (s.wr a v).pocxp = s.pocxp := rfl
@[simp] theorem State.wr_boot (a v : Nat) : (s.wr a v).boot = s.boot := rfl
@[simp] theorem State.wr_host (a v : Nat) : (s.wr a v).host = s.host := rfl
@[simp] theorem State.wr_stage (a v : Nat) : (s.wr a v).stage = s.stage := rfl
@[simp] theorem State.wr_line (a v : Nat) : (s.wr a v).line = s.line := rfl
@[simp] theorem State.wr_jrn (a v : Nat) : (s.wr a v).jrn = s.jrn := rfl
@[simp] theorem State.wr_ron (a v : Nat) : (s.wr a v).ron = s.ron := rfl
@[simp] theorem State.wr_tim (a v : Nat) : (s.wr a v).tim = s.tim := rfl
@[simp] theorem State.wr_chain (a v : Nat) : (s.wr a v).chain = s.chain := rfl
@[simp] theorem State.wr_sec (a v : Nat) : (s.wr a v).sec = s.sec := rfl
@[simp] theorem State.wr_pwr (a v : Nat) : (s.wr a v).pwr = s.pwr := rfl
@[simp] theorem State.wr_dbg (a v : Nat) : (s.wr a v).dbg = s.dbg := rfl
@[simp] theorem State.wr_hostMem (a v : Nat) : (s.wr a v).hostMem = s.hostMem := rfl
@[simp] theorem State.wr_fab (a v : Nat) : (s.wr a v).fab = s.fab := rfl
@[simp] theorem State.wr_meter (a v : Nat) : (s.wr a v).meter = s.meter := rfl
@[simp] theorem State.wr_permits (a v : Nat) : (s.wr a v).permits = s.permits := rfl
@[simp] theorem State.wr_sch (a v : Nat) : (s.wr a v).sch = s.sch := rfl
@[simp] theorem State.wr_intk (a v : Nat) : (s.wr a v).intk = s.intk := rfl
@[simp] theorem State.wr_pending (a v : Nat) : (s.wr a v).pending = s.pending := rfl

/-! ### A field of a register -/

@[simp] theorem State.setFld_now (a lo w v : Nat) : (s.setFld a lo w v).now = s.now := rfl
@[simp] theorem State.setFld_free (a lo w v : Nat) : (s.setFld a lo w v).free = s.free := rfl
@[simp] theorem State.setFld_rny (a lo w v : Nat) : (s.setFld a lo w v).rny = s.rny := rfl
@[simp] theorem State.setFld_pins (a lo w v : Nat) : (s.setFld a lo w v).pins = s.pins := rfl
@[simp] theorem State.setFld_mod (a lo w v : Nat) : (s.setFld a lo w v).mod = s.mod := rfl
@[simp] theorem State.setFld_pocxp (a lo w v : Nat) : (s.setFld a lo w v).pocxp = s.pocxp := rfl
@[simp] theorem State.setFld_boot (a lo w v : Nat) : (s.setFld a lo w v).boot = s.boot := rfl
@[simp] theorem State.setFld_host (a lo w v : Nat) : (s.setFld a lo w v).host = s.host := rfl
@[simp] theorem State.setFld_stage (a lo w v : Nat) : (s.setFld a lo w v).stage = s.stage := rfl
@[simp] theorem State.setFld_line (a lo w v : Nat) : (s.setFld a lo w v).line = s.line := rfl
@[simp] theorem State.setFld_jrn (a lo w v : Nat) : (s.setFld a lo w v).jrn = s.jrn := rfl
@[simp] theorem State.setFld_ron (a lo w v : Nat) : (s.setFld a lo w v).ron = s.ron := rfl
@[simp] theorem State.setFld_tim (a lo w v : Nat) : (s.setFld a lo w v).tim = s.tim := rfl
@[simp] theorem State.setFld_chain (a lo w v : Nat) : (s.setFld a lo w v).chain = s.chain := rfl
@[simp] theorem State.setFld_sec (a lo w v : Nat) : (s.setFld a lo w v).sec = s.sec := rfl
@[simp] theorem State.setFld_pwr (a lo w v : Nat) : (s.setFld a lo w v).pwr = s.pwr := rfl
@[simp] theorem State.setFld_dbg (a lo w v : Nat) : (s.setFld a lo w v).dbg = s.dbg := rfl
@[simp] theorem State.setFld_hostMem (a lo w v : Nat) : (s.setFld a lo w v).hostMem = s.hostMem := rfl
@[simp] theorem State.setFld_fab (a lo w v : Nat) : (s.setFld a lo w v).fab = s.fab := rfl
@[simp] theorem State.setFld_meter (a lo w v : Nat) : (s.setFld a lo w v).meter = s.meter := rfl
@[simp] theorem State.setFld_permits (a lo w v : Nat) : (s.setFld a lo w v).permits = s.permits := rfl
@[simp] theorem State.setFld_sch (a lo w v : Nat) : (s.setFld a lo w v).sch = s.sch := rfl
@[simp] theorem State.setFld_intk (a lo w v : Nat) : (s.setFld a lo w v).intk = s.intk := rfl
@[simp] theorem State.setFld_pending (a lo w v : Nat) : (s.setFld a lo w v).pending = s.pending := rfl

/-! ### A bit of a register -/

@[simp] theorem State.setBit_now (a i : Nat) (b : Bool) : (s.setBit a i b).now = s.now := rfl
@[simp] theorem State.setBit_free (a i : Nat) (b : Bool) : (s.setBit a i b).free = s.free := rfl
@[simp] theorem State.setBit_rny (a i : Nat) (b : Bool) : (s.setBit a i b).rny = s.rny := rfl
@[simp] theorem State.setBit_pins (a i : Nat) (b : Bool) : (s.setBit a i b).pins = s.pins := rfl
@[simp] theorem State.setBit_mod (a i : Nat) (b : Bool) : (s.setBit a i b).mod = s.mod := rfl
@[simp] theorem State.setBit_pocxp (a i : Nat) (b : Bool) : (s.setBit a i b).pocxp = s.pocxp := rfl
@[simp] theorem State.setBit_boot (a i : Nat) (b : Bool) : (s.setBit a i b).boot = s.boot := rfl
@[simp] theorem State.setBit_host (a i : Nat) (b : Bool) : (s.setBit a i b).host = s.host := rfl
@[simp] theorem State.setBit_stage (a i : Nat) (b : Bool) : (s.setBit a i b).stage = s.stage := rfl
@[simp] theorem State.setBit_line (a i : Nat) (b : Bool) : (s.setBit a i b).line = s.line := rfl
@[simp] theorem State.setBit_jrn (a i : Nat) (b : Bool) : (s.setBit a i b).jrn = s.jrn := rfl
@[simp] theorem State.setBit_ron (a i : Nat) (b : Bool) : (s.setBit a i b).ron = s.ron := rfl
@[simp] theorem State.setBit_tim (a i : Nat) (b : Bool) : (s.setBit a i b).tim = s.tim := rfl
@[simp] theorem State.setBit_chain (a i : Nat) (b : Bool) : (s.setBit a i b).chain = s.chain := rfl
@[simp] theorem State.setBit_sec (a i : Nat) (b : Bool) : (s.setBit a i b).sec = s.sec := rfl
@[simp] theorem State.setBit_pwr (a i : Nat) (b : Bool) : (s.setBit a i b).pwr = s.pwr := rfl
@[simp] theorem State.setBit_dbg (a i : Nat) (b : Bool) : (s.setBit a i b).dbg = s.dbg := rfl
@[simp] theorem State.setBit_hostMem (a i : Nat) (b : Bool) : (s.setBit a i b).hostMem = s.hostMem := rfl
@[simp] theorem State.setBit_fab (a i : Nat) (b : Bool) : (s.setBit a i b).fab = s.fab := rfl
@[simp] theorem State.setBit_meter (a i : Nat) (b : Bool) : (s.setBit a i b).meter = s.meter := rfl
@[simp] theorem State.setBit_permits (a i : Nat) (b : Bool) : (s.setBit a i b).permits = s.permits := rfl
@[simp] theorem State.setBit_sch (a i : Nat) (b : Bool) : (s.setBit a i b).sch = s.sch := rfl
@[simp] theorem State.setBit_intk (a i : Nat) (b : Bool) : (s.setBit a i b).intk = s.intk := rfl
@[simp] theorem State.setBit_pending (a i : Nat) (b : Bool) : (s.setBit a i b).pending = s.pending := rfl

/-! ### A 64-bit register -/

@[simp] theorem State.wr64_now (a v : Nat) : (s.wr64 a v).now = s.now := rfl
@[simp] theorem State.wr64_free (a v : Nat) : (s.wr64 a v).free = s.free := rfl
@[simp] theorem State.wr64_rny (a v : Nat) : (s.wr64 a v).rny = s.rny := rfl
@[simp] theorem State.wr64_pins (a v : Nat) : (s.wr64 a v).pins = s.pins := rfl
@[simp] theorem State.wr64_mod (a v : Nat) : (s.wr64 a v).mod = s.mod := rfl
@[simp] theorem State.wr64_pocxp (a v : Nat) : (s.wr64 a v).pocxp = s.pocxp := rfl
@[simp] theorem State.wr64_boot (a v : Nat) : (s.wr64 a v).boot = s.boot := rfl
@[simp] theorem State.wr64_host (a v : Nat) : (s.wr64 a v).host = s.host := rfl
@[simp] theorem State.wr64_stage (a v : Nat) : (s.wr64 a v).stage = s.stage := rfl
@[simp] theorem State.wr64_line (a v : Nat) : (s.wr64 a v).line = s.line := rfl
@[simp] theorem State.wr64_jrn (a v : Nat) : (s.wr64 a v).jrn = s.jrn := rfl
@[simp] theorem State.wr64_ron (a v : Nat) : (s.wr64 a v).ron = s.ron := rfl
@[simp] theorem State.wr64_tim (a v : Nat) : (s.wr64 a v).tim = s.tim := rfl
@[simp] theorem State.wr64_chain (a v : Nat) : (s.wr64 a v).chain = s.chain := rfl
@[simp] theorem State.wr64_sec (a v : Nat) : (s.wr64 a v).sec = s.sec := rfl
@[simp] theorem State.wr64_pwr (a v : Nat) : (s.wr64 a v).pwr = s.pwr := rfl
@[simp] theorem State.wr64_dbg (a v : Nat) : (s.wr64 a v).dbg = s.dbg := rfl
@[simp] theorem State.wr64_hostMem (a v : Nat) : (s.wr64 a v).hostMem = s.hostMem := rfl
@[simp] theorem State.wr64_fab (a v : Nat) : (s.wr64 a v).fab = s.fab := rfl
@[simp] theorem State.wr64_meter (a v : Nat) : (s.wr64 a v).meter = s.meter := rfl
@[simp] theorem State.wr64_permits (a v : Nat) : (s.wr64 a v).permits = s.permits := rfl
@[simp] theorem State.wr64_sch (a v : Nat) : (s.wr64 a v).sch = s.sch := rfl
@[simp] theorem State.wr64_intk (a v : Nat) : (s.wr64 a v).intk = s.intk := rfl
@[simp] theorem State.wr64_pending (a v : Nat) : (s.wr64 a v).pending = s.pending := rfl

/-! ### A counter -/

@[simp] theorem State.inc_now (a : Nat) : (s.inc a).now = s.now := rfl
@[simp] theorem State.inc_free (a : Nat) : (s.inc a).free = s.free := rfl
@[simp] theorem State.inc_rny (a : Nat) : (s.inc a).rny = s.rny := rfl
@[simp] theorem State.inc_pins (a : Nat) : (s.inc a).pins = s.pins := rfl
@[simp] theorem State.inc_mod (a : Nat) : (s.inc a).mod = s.mod := rfl
@[simp] theorem State.inc_pocxp (a : Nat) : (s.inc a).pocxp = s.pocxp := rfl
@[simp] theorem State.inc_boot (a : Nat) : (s.inc a).boot = s.boot := rfl
@[simp] theorem State.inc_host (a : Nat) : (s.inc a).host = s.host := rfl
@[simp] theorem State.inc_stage (a : Nat) : (s.inc a).stage = s.stage := rfl
@[simp] theorem State.inc_line (a : Nat) : (s.inc a).line = s.line := rfl
@[simp] theorem State.inc_jrn (a : Nat) : (s.inc a).jrn = s.jrn := rfl
@[simp] theorem State.inc_ron (a : Nat) : (s.inc a).ron = s.ron := rfl
@[simp] theorem State.inc_tim (a : Nat) : (s.inc a).tim = s.tim := rfl
@[simp] theorem State.inc_chain (a : Nat) : (s.inc a).chain = s.chain := rfl
@[simp] theorem State.inc_sec (a : Nat) : (s.inc a).sec = s.sec := rfl
@[simp] theorem State.inc_pwr (a : Nat) : (s.inc a).pwr = s.pwr := rfl
@[simp] theorem State.inc_dbg (a : Nat) : (s.inc a).dbg = s.dbg := rfl
@[simp] theorem State.inc_hostMem (a : Nat) : (s.inc a).hostMem = s.hostMem := rfl
@[simp] theorem State.inc_fab (a : Nat) : (s.inc a).fab = s.fab := rfl
@[simp] theorem State.inc_meter (a : Nat) : (s.inc a).meter = s.meter := rfl
@[simp] theorem State.inc_permits (a : Nat) : (s.inc a).permits = s.permits := rfl
@[simp] theorem State.inc_sch (a : Nat) : (s.inc a).sch = s.sch := rfl
@[simp] theorem State.inc_intk (a : Nat) : (s.inc a).intk = s.intk := rfl
@[simp] theorem State.inc_pending (a : Nat) : (s.inc a).pending = s.pending := rfl

/-! ### A saturating counter -/

@[simp] theorem State.incSat_now (a lo w : Nat) : (s.incSat a lo w).now = s.now := rfl
@[simp] theorem State.incSat_free (a lo w : Nat) : (s.incSat a lo w).free = s.free := rfl
@[simp] theorem State.incSat_rny (a lo w : Nat) : (s.incSat a lo w).rny = s.rny := rfl
@[simp] theorem State.incSat_pins (a lo w : Nat) : (s.incSat a lo w).pins = s.pins := rfl
@[simp] theorem State.incSat_mod (a lo w : Nat) : (s.incSat a lo w).mod = s.mod := rfl
@[simp] theorem State.incSat_pocxp (a lo w : Nat) : (s.incSat a lo w).pocxp = s.pocxp := rfl
@[simp] theorem State.incSat_boot (a lo w : Nat) : (s.incSat a lo w).boot = s.boot := rfl
@[simp] theorem State.incSat_host (a lo w : Nat) : (s.incSat a lo w).host = s.host := rfl
@[simp] theorem State.incSat_stage (a lo w : Nat) : (s.incSat a lo w).stage = s.stage := rfl
@[simp] theorem State.incSat_line (a lo w : Nat) : (s.incSat a lo w).line = s.line := rfl
@[simp] theorem State.incSat_jrn (a lo w : Nat) : (s.incSat a lo w).jrn = s.jrn := rfl
@[simp] theorem State.incSat_ron (a lo w : Nat) : (s.incSat a lo w).ron = s.ron := rfl
@[simp] theorem State.incSat_tim (a lo w : Nat) : (s.incSat a lo w).tim = s.tim := rfl
@[simp] theorem State.incSat_chain (a lo w : Nat) : (s.incSat a lo w).chain = s.chain := rfl
@[simp] theorem State.incSat_sec (a lo w : Nat) : (s.incSat a lo w).sec = s.sec := rfl
@[simp] theorem State.incSat_pwr (a lo w : Nat) : (s.incSat a lo w).pwr = s.pwr := rfl
@[simp] theorem State.incSat_dbg (a lo w : Nat) : (s.incSat a lo w).dbg = s.dbg := rfl
@[simp] theorem State.incSat_hostMem (a lo w : Nat) : (s.incSat a lo w).hostMem = s.hostMem := rfl
@[simp] theorem State.incSat_fab (a lo w : Nat) : (s.incSat a lo w).fab = s.fab := rfl
@[simp] theorem State.incSat_meter (a lo w : Nat) : (s.incSat a lo w).meter = s.meter := rfl
@[simp] theorem State.incSat_permits (a lo w : Nat) : (s.incSat a lo w).permits = s.permits := rfl
@[simp] theorem State.incSat_sch (a lo w : Nat) : (s.incSat a lo w).sch = s.sch := rfl
@[simp] theorem State.incSat_intk (a lo w : Nat) : (s.incSat a lo w).intk = s.intk := rfl
@[simp] theorem State.incSat_pending (a lo w : Nat) : (s.incSat a lo w).pending = s.pending := rfl

/-! ### A word of Ronyr -/

@[simp] theorem State.setRreg_now (i v : Nat) : (s.setRreg i v).now = s.now := rfl
@[simp] theorem State.setRreg_free (i v : Nat) : (s.setRreg i v).free = s.free := rfl
@[simp] theorem State.setRreg_regs (i v : Nat) : (s.setRreg i v).regs = s.regs := rfl
@[simp] theorem State.setRreg_pins (i v : Nat) : (s.setRreg i v).pins = s.pins := rfl
@[simp] theorem State.setRreg_mod (i v : Nat) : (s.setRreg i v).mod = s.mod := rfl
@[simp] theorem State.setRreg_pocxp (i v : Nat) : (s.setRreg i v).pocxp = s.pocxp := rfl
@[simp] theorem State.setRreg_boot (i v : Nat) : (s.setRreg i v).boot = s.boot := rfl
@[simp] theorem State.setRreg_host (i v : Nat) : (s.setRreg i v).host = s.host := rfl
@[simp] theorem State.setRreg_stage (i v : Nat) : (s.setRreg i v).stage = s.stage := rfl
@[simp] theorem State.setRreg_line (i v : Nat) : (s.setRreg i v).line = s.line := rfl
@[simp] theorem State.setRreg_jrn (i v : Nat) : (s.setRreg i v).jrn = s.jrn := rfl
@[simp] theorem State.setRreg_ron (i v : Nat) : (s.setRreg i v).ron = s.ron := rfl
@[simp] theorem State.setRreg_tim (i v : Nat) : (s.setRreg i v).tim = s.tim := rfl
@[simp] theorem State.setRreg_chain (i v : Nat) : (s.setRreg i v).chain = s.chain := rfl
@[simp] theorem State.setRreg_sec (i v : Nat) : (s.setRreg i v).sec = s.sec := rfl
@[simp] theorem State.setRreg_pwr (i v : Nat) : (s.setRreg i v).pwr = s.pwr := rfl
@[simp] theorem State.setRreg_dbg (i v : Nat) : (s.setRreg i v).dbg = s.dbg := rfl
@[simp] theorem State.setRreg_hostMem (i v : Nat) : (s.setRreg i v).hostMem = s.hostMem := rfl
@[simp] theorem State.setRreg_fab (i v : Nat) : (s.setRreg i v).fab = s.fab := rfl
@[simp] theorem State.setRreg_meter (i v : Nat) : (s.setRreg i v).meter = s.meter := rfl
@[simp] theorem State.setRreg_permits (i v : Nat) : (s.setRreg i v).permits = s.permits := rfl
@[simp] theorem State.setRreg_sch (i v : Nat) : (s.setRreg i v).sch = s.sch := rfl
@[simp] theorem State.setRreg_intk (i v : Nat) : (s.setRreg i v).intk = s.intk := rfl
@[simp] theorem State.setRreg_pending (i v : Nat) : (s.setRreg i v).pending = s.pending := rfl

/-! ### A field of Ronyr -/

@[simp] theorem State.setRfld_now (i lo w v : Nat) : (s.setRfld i lo w v).now = s.now := rfl
@[simp] theorem State.setRfld_free (i lo w v : Nat) : (s.setRfld i lo w v).free = s.free := rfl
@[simp] theorem State.setRfld_regs (i lo w v : Nat) : (s.setRfld i lo w v).regs = s.regs := rfl
@[simp] theorem State.setRfld_pins (i lo w v : Nat) : (s.setRfld i lo w v).pins = s.pins := rfl
@[simp] theorem State.setRfld_mod (i lo w v : Nat) : (s.setRfld i lo w v).mod = s.mod := rfl
@[simp] theorem State.setRfld_pocxp (i lo w v : Nat) : (s.setRfld i lo w v).pocxp = s.pocxp := rfl
@[simp] theorem State.setRfld_boot (i lo w v : Nat) : (s.setRfld i lo w v).boot = s.boot := rfl
@[simp] theorem State.setRfld_host (i lo w v : Nat) : (s.setRfld i lo w v).host = s.host := rfl
@[simp] theorem State.setRfld_stage (i lo w v : Nat) : (s.setRfld i lo w v).stage = s.stage := rfl
@[simp] theorem State.setRfld_line (i lo w v : Nat) : (s.setRfld i lo w v).line = s.line := rfl
@[simp] theorem State.setRfld_jrn (i lo w v : Nat) : (s.setRfld i lo w v).jrn = s.jrn := rfl
@[simp] theorem State.setRfld_ron (i lo w v : Nat) : (s.setRfld i lo w v).ron = s.ron := rfl
@[simp] theorem State.setRfld_tim (i lo w v : Nat) : (s.setRfld i lo w v).tim = s.tim := rfl
@[simp] theorem State.setRfld_chain (i lo w v : Nat) : (s.setRfld i lo w v).chain = s.chain := rfl
@[simp] theorem State.setRfld_sec (i lo w v : Nat) : (s.setRfld i lo w v).sec = s.sec := rfl
@[simp] theorem State.setRfld_pwr (i lo w v : Nat) : (s.setRfld i lo w v).pwr = s.pwr := rfl
@[simp] theorem State.setRfld_dbg (i lo w v : Nat) : (s.setRfld i lo w v).dbg = s.dbg := rfl
@[simp] theorem State.setRfld_hostMem (i lo w v : Nat) : (s.setRfld i lo w v).hostMem = s.hostMem := rfl
@[simp] theorem State.setRfld_fab (i lo w v : Nat) : (s.setRfld i lo w v).fab = s.fab := rfl
@[simp] theorem State.setRfld_meter (i lo w v : Nat) : (s.setRfld i lo w v).meter = s.meter := rfl
@[simp] theorem State.setRfld_permits (i lo w v : Nat) : (s.setRfld i lo w v).permits = s.permits := rfl
@[simp] theorem State.setRfld_sch (i lo w v : Nat) : (s.setRfld i lo w v).sch = s.sch := rfl
@[simp] theorem State.setRfld_intk (i lo w v : Nat) : (s.setRfld i lo w v).intk = s.intk := rfl
@[simp] theorem State.setRfld_pending (i lo w v : Nat) : (s.setRfld i lo w v).pending = s.pending := rfl

/-! ### A fresh free value -/

@[simp] theorem State.fresh_now : (s.fresh).now = s.now := rfl
@[simp] theorem State.fresh_regs : (s.fresh).regs = s.regs := rfl
@[simp] theorem State.fresh_rny : (s.fresh).rny = s.rny := rfl
@[simp] theorem State.fresh_pins : (s.fresh).pins = s.pins := rfl
@[simp] theorem State.fresh_mod : (s.fresh).mod = s.mod := rfl
@[simp] theorem State.fresh_pocxp : (s.fresh).pocxp = s.pocxp := rfl
@[simp] theorem State.fresh_boot : (s.fresh).boot = s.boot := rfl
@[simp] theorem State.fresh_host : (s.fresh).host = s.host := rfl
@[simp] theorem State.fresh_stage : (s.fresh).stage = s.stage := rfl
@[simp] theorem State.fresh_line : (s.fresh).line = s.line := rfl
@[simp] theorem State.fresh_jrn : (s.fresh).jrn = s.jrn := rfl
@[simp] theorem State.fresh_ron : (s.fresh).ron = s.ron := rfl
@[simp] theorem State.fresh_tim : (s.fresh).tim = s.tim := rfl
@[simp] theorem State.fresh_chain : (s.fresh).chain = s.chain := rfl
@[simp] theorem State.fresh_sec : (s.fresh).sec = s.sec := rfl
@[simp] theorem State.fresh_pwr : (s.fresh).pwr = s.pwr := rfl
@[simp] theorem State.fresh_dbg : (s.fresh).dbg = s.dbg := rfl
@[simp] theorem State.fresh_hostMem : (s.fresh).hostMem = s.hostMem := rfl
@[simp] theorem State.fresh_fab : (s.fresh).fab = s.fab := rfl
@[simp] theorem State.fresh_meter : (s.fresh).meter = s.meter := rfl
@[simp] theorem State.fresh_permits : (s.fresh).permits = s.permits := rfl
@[simp] theorem State.fresh_sch : (s.fresh).sch = s.sch := rfl
@[simp] theorem State.fresh_intk : (s.fresh).intk = s.intk := rfl
@[simp] theorem State.fresh_pending : (s.fresh).pending = s.pending := rfl

/-! ### Elapsed time -/

@[simp] theorem State.at'_free (t : Nat) : (s.at' t).free = s.free := by unfold State.at'; split <;> rfl
@[simp] theorem State.at'_regs (t : Nat) : (s.at' t).regs = s.regs := by unfold State.at'; split <;> rfl
@[simp] theorem State.at'_rny (t : Nat) : (s.at' t).rny = s.rny := by unfold State.at'; split <;> rfl
@[simp] theorem State.at'_pins (t : Nat) : (s.at' t).pins = s.pins := by unfold State.at'; split <;> rfl
@[simp] theorem State.at'_mod (t : Nat) : (s.at' t).mod = s.mod := by unfold State.at'; split <;> rfl
@[simp] theorem State.at'_pocxp (t : Nat) : (s.at' t).pocxp = s.pocxp := by unfold State.at'; split <;> rfl
@[simp] theorem State.at'_boot (t : Nat) : (s.at' t).boot = s.boot := by unfold State.at'; split <;> rfl
@[simp] theorem State.at'_host (t : Nat) : (s.at' t).host = s.host := by unfold State.at'; split <;> rfl
@[simp] theorem State.at'_stage (t : Nat) : (s.at' t).stage = s.stage := by unfold State.at'; split <;> rfl
@[simp] theorem State.at'_line (t : Nat) : (s.at' t).line = s.line := by unfold State.at'; split <;> rfl
@[simp] theorem State.at'_jrn (t : Nat) : (s.at' t).jrn = s.jrn := by unfold State.at'; split <;> rfl
@[simp] theorem State.at'_ron (t : Nat) : (s.at' t).ron = s.ron := by unfold State.at'; split <;> rfl
@[simp] theorem State.at'_chain (t : Nat) : (s.at' t).chain = s.chain := by unfold State.at'; split <;> rfl
@[simp] theorem State.at'_sec (t : Nat) : (s.at' t).sec = s.sec := by unfold State.at'; split <;> rfl
@[simp] theorem State.at'_pwr (t : Nat) : (s.at' t).pwr = s.pwr := by unfold State.at'; split <;> rfl
@[simp] theorem State.at'_dbg (t : Nat) : (s.at' t).dbg = s.dbg := by unfold State.at'; split <;> rfl
@[simp] theorem State.at'_hostMem (t : Nat) : (s.at' t).hostMem = s.hostMem := by unfold State.at'; split <;> rfl
@[simp] theorem State.at'_fab (t : Nat) : (s.at' t).fab = s.fab := by unfold State.at'; split <;> rfl
@[simp] theorem State.at'_meter (t : Nat) : (s.at' t).meter = s.meter := by unfold State.at'; split <;> rfl
@[simp] theorem State.at'_permits (t : Nat) : (s.at' t).permits = s.permits := by unfold State.at'; split <;> rfl
@[simp] theorem State.at'_sch (t : Nat) : (s.at' t).sch = s.sch := by unfold State.at'; split <;> rfl
@[simp] theorem State.at'_intk (t : Nat) : (s.at' t).intk = s.intk := by unfold State.at'; split <;> rfl
@[simp] theorem State.at'_pending (t : Nat) : (s.at' t).pending = s.pending := by unfold State.at'; split <;> rfl

/-! ### An MSI-X message -/

@[simp] theorem State.msix_now (v : Nat) : (s.msix v).now = s.now := by unfold State.msix; split <;> (try split) <;> rfl
@[simp] theorem State.msix_free (v : Nat) : (s.msix v).free = s.free := by unfold State.msix; split <;> (try split) <;> rfl
@[simp] theorem State.msix_regs (v : Nat) : (s.msix v).regs = s.regs := by unfold State.msix; split <;> (try split) <;> rfl
@[simp] theorem State.msix_rny (v : Nat) : (s.msix v).rny = s.rny := by unfold State.msix; split <;> (try split) <;> rfl
@[simp] theorem State.msix_pins (v : Nat) : (s.msix v).pins = s.pins := by unfold State.msix; split <;> (try split) <;> rfl
@[simp] theorem State.msix_mod (v : Nat) : (s.msix v).mod = s.mod := by unfold State.msix; split <;> (try split) <;> rfl
@[simp] theorem State.msix_pocxp (v : Nat) : (s.msix v).pocxp = s.pocxp := by unfold State.msix; split <;> (try split) <;> rfl
@[simp] theorem State.msix_boot (v : Nat) : (s.msix v).boot = s.boot := by unfold State.msix; split <;> (try split) <;> rfl
@[simp] theorem State.msix_stage (v : Nat) : (s.msix v).stage = s.stage := by unfold State.msix; split <;> (try split) <;> rfl
@[simp] theorem State.msix_line (v : Nat) : (s.msix v).line = s.line := by unfold State.msix; split <;> (try split) <;> rfl
@[simp] theorem State.msix_jrn (v : Nat) : (s.msix v).jrn = s.jrn := by unfold State.msix; split <;> (try split) <;> rfl
@[simp] theorem State.msix_ron (v : Nat) : (s.msix v).ron = s.ron := by unfold State.msix; split <;> (try split) <;> rfl
@[simp] theorem State.msix_tim (v : Nat) : (s.msix v).tim = s.tim := by unfold State.msix; split <;> (try split) <;> rfl
@[simp] theorem State.msix_chain (v : Nat) : (s.msix v).chain = s.chain := by unfold State.msix; split <;> (try split) <;> rfl
@[simp] theorem State.msix_sec (v : Nat) : (s.msix v).sec = s.sec := by unfold State.msix; split <;> (try split) <;> rfl
@[simp] theorem State.msix_pwr (v : Nat) : (s.msix v).pwr = s.pwr := by unfold State.msix; split <;> (try split) <;> rfl
@[simp] theorem State.msix_dbg (v : Nat) : (s.msix v).dbg = s.dbg := by unfold State.msix; split <;> (try split) <;> rfl
@[simp] theorem State.msix_hostMem (v : Nat) : (s.msix v).hostMem = s.hostMem := by unfold State.msix; split <;> (try split) <;> rfl
@[simp] theorem State.msix_fab (v : Nat) : (s.msix v).fab = s.fab := by unfold State.msix; split <;> (try split) <;> rfl
@[simp] theorem State.msix_meter (v : Nat) : (s.msix v).meter = s.meter := by unfold State.msix; split <;> (try split) <;> rfl
@[simp] theorem State.msix_permits (v : Nat) : (s.msix v).permits = s.permits := by unfold State.msix; split <;> (try split) <;> rfl
@[simp] theorem State.msix_sch (v : Nat) : (s.msix v).sch = s.sch := by unfold State.msix; split <;> (try split) <;> rfl
@[simp] theorem State.msix_intk (v : Nat) : (s.msix v).intk = s.intk := by unfold State.msix; split <;> (try split) <;> rfl
@[simp] theorem State.msix_pending (v : Nat) : (s.msix v).pending = s.pending := by unfold State.msix; split <;> (try split) <;> rfl

/-! ### The end of a command -/

@[simp] theorem State.settle_now : (s.settle).now = s.now := rfl
@[simp] theorem State.settle_free : (s.settle).free = s.free := rfl
@[simp] theorem State.settle_regs : (s.settle).regs = s.regs := rfl
@[simp] theorem State.settle_rny : (s.settle).rny = s.rny := rfl
@[simp] theorem State.settle_mod : (s.settle).mod = s.mod := rfl
@[simp] theorem State.settle_pocxp : (s.settle).pocxp = s.pocxp := rfl
@[simp] theorem State.settle_boot : (s.settle).boot = s.boot := rfl
@[simp] theorem State.settle_host : (s.settle).host = s.host := rfl
@[simp] theorem State.settle_stage : (s.settle).stage = s.stage := rfl
@[simp] theorem State.settle_line : (s.settle).line = s.line := rfl
@[simp] theorem State.settle_jrn : (s.settle).jrn = s.jrn := rfl
@[simp] theorem State.settle_ron : (s.settle).ron = s.ron := rfl
@[simp] theorem State.settle_tim : (s.settle).tim = s.tim := rfl
@[simp] theorem State.settle_chain : (s.settle).chain = s.chain := rfl
@[simp] theorem State.settle_sec : (s.settle).sec = s.sec := rfl
@[simp] theorem State.settle_dbg : (s.settle).dbg = s.dbg := rfl
@[simp] theorem State.settle_hostMem : (s.settle).hostMem = s.hostMem := rfl
@[simp] theorem State.settle_fab : (s.settle).fab = s.fab := rfl
@[simp] theorem State.settle_meter : (s.settle).meter = s.meter := rfl
@[simp] theorem State.settle_permits : (s.settle).permits = s.permits := rfl
@[simp] theorem State.settle_sch : (s.settle).sch = s.sch := rfl
@[simp] theorem State.settle_intk : (s.settle).intk = s.intk := rfl
@[simp] theorem State.settle_pending : (s.settle).pending = s.pending := rfl

end Sys2Proof.Machine
end

