-- ==== Sys2Proof/Laws/Regs.lean ====
section
/-! SUPPORT. Laws of register words and fields: what reads back after a write, and what a write leaves alone. -/

namespace Sys2Proof.Machine

/-! ### Bits of a word with a field replaced -/

theorem testBit_putBits (x lo w v i : Nat) :
    (putBits x lo w v).testBit i = if lo ≤ i ∧ i < lo + w then v.testBit (i - lo) else x.testBit i := by
  have e : putBits x lo w v = 2 ^ lo * (2 ^ w * (x / 2 ^ (lo + w)) + v % 2 ^ w) + x % 2 ^ lo := by
    unfold putBits; rw [Nat.pow_add]; generalize x / (2 ^ lo * 2 ^ w) = q; generalize v % 2 ^ w = r
    rw [Nat.mul_add, Nat.mul_comm r, Nat.mul_comm q, Nat.mul_assoc]; omega
  rw [e, Nat.testBit_two_pow_mul_add _ (Nat.mod_lt _ (Nat.two_pow_pos lo)),
    Nat.testBit_two_pow_mul_add _ (Nat.mod_lt _ (Nat.two_pow_pos w))]
  by_cases h1 : i < lo
  · simp [h1, Nat.testBit_mod_two_pow]
  · by_cases h2 : i - lo < w
    · simp [h1, h2, Nat.testBit_mod_two_pow, show lo ≤ i ∧ i < lo + w by omega]
    · simp [h1, h2, show ¬ (lo ≤ i ∧ i < lo + w) by omega, Nat.testBit_div_two_pow,
        show i - lo - w + (lo + w) = i by omega]

theorem testBit_field (x lo w i : Nat) : (x / 2 ^ lo % 2 ^ w).testBit i = (decide (i < w) && x.testBit (i + lo)) := by
  rw [Nat.testBit_mod_two_pow, Nat.testBit_div_two_pow]

/-- A field kept modulo 2^32 that lies in the word. -/
theorem field_mod32 (x lo w : Nat) (h : lo + w ≤ 32) : x % 2 ^ 32 / 2 ^ lo % 2 ^ w = x / 2 ^ lo % 2 ^ w := by
  apply Nat.eq_of_testBit_eq
  intro i
  rw [testBit_field, testBit_field, Nat.testBit_mod_two_pow]
  by_cases hi : i < w
  · simp [hi, show i + lo < 32 by omega]
  · simp [hi]

theorem field_putBits_same (x lo w v : Nat) : putBits x lo w v / 2 ^ lo % 2 ^ w = v % 2 ^ w := by
  apply Nat.eq_of_testBit_eq
  intro i
  rw [testBit_field, testBit_putBits, Nat.testBit_mod_two_pow]
  by_cases hi : i < w
  · simp [hi, show i + lo < lo + w by omega]
  · simp [hi]

theorem field_putBits_other (x lo w v lo' w' : Nat) (h : lo' + w' ≤ lo ∨ lo + w ≤ lo') :
    putBits x lo w v / 2 ^ lo' % 2 ^ w' = x / 2 ^ lo' % 2 ^ w' := by
  apply Nat.eq_of_testBit_eq
  intro i
  rw [testBit_field, testBit_field, testBit_putBits]
  by_cases hi : i < w'
  · simp [hi, show ¬ (lo ≤ i + lo' ∧ i + lo' < lo + w) by omega]
  · simp [hi]

/-! ### Register words -/

variable (s : State)

/-- Registers read from `regs` alone. -/
theorem State.rd_congr {s s' : State} (h : s'.regs = s.regs) (a : Nat) : s'.rd a = s.rd a := by
  simp [State.rd, State.reg, h]

theorem State.fld_congr {s s' : State} (h : s'.regs = s.regs) (a lo w : Nat) : s'.fld a lo w = s.fld a lo w := by
  simp [State.fld, State.rd_congr h]

theorem State.bit_congr {s s' : State} (h : s'.regs = s.regs) (a i : Nat) : s'.bit a i = s.bit a i := by
  simp [State.bit, State.fld_congr h]

theorem State.rd_lt (a : Nat) : s.rd a < 2 ^ 32 := (s.reg a).isLt

theorem State.rd_setReg_same (a : Nat) (v : W32) : (s.setReg a v).rd a = v.toNat := by
  simp only [State.rd, State.reg, State.setReg]
  split
  · simp [*]
  · simp

theorem State.rd_setReg_other {a b : Nat} (v : W32) (h : b ≠ a) : (s.setReg a v).rd b = s.rd b := by
  simp only [State.rd, State.reg, State.setReg]
  split
  · rw [KMap.getD_del_other _ _ h]
  · rw [KMap.getD_put_other _ _ _ h]

@[simp] theorem State.rd_wr_same (a v : Nat) : (s.wr a v).rd a = v % 2 ^ 32 := by
  simp [State.wr, State.rd_setReg_same]

theorem State.rd_wr_other {a b : Nat} (v : Nat) (h : b ≠ a) : (s.wr a v).rd b = s.rd b :=
  State.rd_setReg_other s _ h

theorem State.fld_wr_other {a b : Nat} (v lo w : Nat) (h : b ≠ a) : (s.wr a v).fld b lo w = s.fld b lo w := by
  simp [State.fld, State.rd_wr_other s v h]

theorem State.rd_setFld_other {a b : Nat} (lo w v : Nat) (h : b ≠ a) : (s.setFld a lo w v).rd b = s.rd b :=
  State.rd_wr_other s _ h

/-- A field reads back what was written to it. -/
theorem State.fld_setFld_same (a lo w v : Nat) (h : lo + w ≤ 32) : (s.setFld a lo w v).fld a lo w = v % 2 ^ w := by
  simp only [State.fld, State.setFld, State.rd_wr_same]
  rw [field_mod32 _ _ _ h, field_putBits_same]

/-- A field write leaves every disjoint field of its register alone. -/
theorem State.fld_setFld_disjoint (a lo w v lo' w' : Nat) (h : lo' + w' ≤ 32) (hd : lo' + w' ≤ lo ∨ lo + w ≤ lo') :
    (s.setFld a lo w v).fld a lo' w' = s.fld a lo' w' := by
  simp only [State.fld, State.setFld, State.rd_wr_same]
  rw [field_mod32 _ _ _ h, field_putBits_other _ _ _ _ _ _ hd]

theorem State.fld_setFld_other {a b : Nat} (lo w v lo' w' : Nat) (h : b ≠ a) :
    (s.setFld a lo w v).fld b lo' w' = s.fld b lo' w' := by
  simp [State.fld, State.rd_setFld_other s lo w v h]

theorem State.bit_setBit_same (a i : Nat) (b : Bool) (h : i < 32) : (s.setBit a i b).bit a i = b := by
  have e : (s.setBit a i b).fld a i 1 = b2n b % 2 ^ 1 := State.fld_setFld_same s a i 1 (b2n b) (by omega)
  unfold State.bit
  simp only [e]
  cases b <;> rfl

theorem State.bit_setBit_other {a c : Nat} (i j : Nat) (b : Bool) (hj : j < 32) (h : c ≠ a ∨ j ≠ i) :
    (s.setBit a i b).bit c j = s.bit c j := by
  have e : (s.setBit a i b).fld c j 1 = s.fld c j 1 := by
    by_cases hc : c = a
    · subst hc
      exact State.fld_setFld_disjoint s c i 1 _ j 1 (by omega) (by have := h.resolve_left (by simp); omega)
    · exact State.fld_setFld_other s i 1 _ j 1 hc
  unfold State.bit
  simp only [e]

theorem State.rd64_wr64_same (a v : Nat) : (s.wr64 a v).rd64 a = v % 2 ^ 64 := by
  simp only [State.rd64, State.wr64]
  rw [State.rd_wr_same, State.rd_wr_other _ _ (by omega), State.rd_wr_same]
  simp only [lo32, hi32]
  omega

theorem State.rd_wr64_other {a b : Nat} (v : Nat) (h : b ≠ a ∧ b ≠ a + 4) : (s.wr64 a v).rd b = s.rd b := by
  simp only [State.wr64]
  rw [State.rd_wr_other _ _ h.2, State.rd_wr_other _ _ h.1]

/-! ### Ronyr's words -/

@[simp] theorem State.rreg_setRreg_same (i v : Nat) : (s.setRreg i v).rreg i = v % 2 ^ 32 := by
  simp only [State.rreg, State.setRreg]
  split
  · rename_i h
    rw [KMap.getD_del_same, ← h, BitVec.toNat_ofNat]
  · rw [KMap.getD_put_same, BitVec.toNat_ofNat]

theorem State.rreg_setRreg_other {i j : Nat} (v : Nat) (h : j ≠ i) : (s.setRreg i v).rreg j = s.rreg j := by
  simp only [State.rreg, State.setRreg]
  split
  · rw [KMap.getD_del_other _ _ h]
  · rw [KMap.getD_put_other _ _ _ h]

theorem State.rfld_setRfld_same (i lo w v : Nat) (h : lo + w ≤ 32) : (s.setRfld i lo w v).rfld i lo w = v % 2 ^ w := by
  simp only [State.rfld, State.setRfld, State.rreg_setRreg_same]
  rw [field_mod32 _ _ _ h, field_putBits_same]

/-! ### What time and the end of a command do not touch -/

@[simp] theorem State.rd_at' (t a : Nat) : (s.at' t).rd a = s.rd a := State.rd_congr (by simp) a
@[simp] theorem State.fld_at' (t a lo w : Nat) : (s.at' t).fld a lo w = s.fld a lo w := State.fld_congr (by simp) a lo w
@[simp] theorem State.bit_at' (t a i : Nat) : (s.at' t).bit a i = s.bit a i := State.bit_congr (by simp) a i
@[simp] theorem State.running_at' (t : Nat) : (s.at' t).running = s.running := by simp [State.running]
@[simp] theorem State.rd_settle (a : Nat) : s.settle.rd a = s.rd a := rfl
@[simp] theorem State.fld_settle (a lo w : Nat) : s.settle.fld a lo w = s.fld a lo w := rfl
@[simp] theorem State.bit_settle (a i : Nat) : s.settle.bit a i = s.bit a i := rfl
@[simp] theorem State.rreg_settle (i : Nat) : s.settle.rreg i = s.rreg i := rfl

/-- The pins a settled state drives are those it shows. -/
theorem State.pinsOf_settle : s.settle.pinsOf = s.pinsOf := by
  have h : ∀ p q : Bool, ((p || q) || q) = (p || q) := by decide
  have e : (s.settle.pwr.alert || s.settle.alertCause) = (s.pwr.alert || s.alertCause) := h _ _
  have d : bits16 s.settle.driven = bits16 s.driven := rfl
  unfold State.pinsOf
  rw [e, d]
  rfl

theorem State.settle_pins : s.settle.pins = s.settle.pinsOf := (State.pinsOf_settle s).symm

end Sys2Proof.Machine
end

