-- ==== Sys2Proof/Laws/Ops.lean ====
section
/-! SUPPORT. What the shared operations can do: the end of a command, events, MSI-X and trace records, messages to Cuette, and the outputs'
commands as Ronyr notes them. -/

namespace Sys2Proof.Machine

variable (s : State)

/-- A command that ends answers a next state, the settled one. -/
theorem done_eq : done s = .next s.settle := rfl

/-- A command of Ronyr's that ends notes what its outputs are commanded to. -/
theorem doneR_eq : doneR s = .next s.noteDrive.settle := rfl

/-- An MSI-X message changes the host interface alone. -/
theorem State.msix_frame (v : Nat) : s.msix v = { s with host := (s.msix v).host } := by
  unfold State.msix; split <;> (try split) <;> rfl

theorem State.trace_aux (x : State) (d : Debug) (w c : Nat) (b : Bool)
    (hx : x = { s with regs := x.regs, dbg := d }) :
    (if b then x.setBit w c true else x) = { s with regs := (if b then x.setBit w c true else x).regs, dbg := d } := by
  cases b
  · exact hx
  · simp only [if_true]
    rw [hx]
    rfl

/-- A trace point changes the trace buffer and its registers alone. -/
theorem State.trace_frame (p src arg : Nat) :
    ∃ r d, s.trace p src arg = { s with regs := r, dbg := d } := by
  unfold State.trace
  split
  · exact ⟨_, _, State.trace_aux s _ _ _ _ _ rfl⟩
  · exact ⟨_, _, rfl⟩

/-! ### Events -/

/-- `x` differs from `s` at most in what raising an event touches: free values, registers, the host interface, host memory, log and trace. -/
def State.raisedFrom (s x : State) : Prop :=
  x = { s with free := x.free, regs := x.regs, host := x.host, hostMem := x.hostMem, dbg := x.dbg }

theorem State.raisedFrom_refl : s.raisedFrom s := rfl

theorem State.raisedFrom_trans {s x y : State} (h : s.raisedFrom x) (g : x.raisedFrom y) : s.raisedFrom y := by
  unfold State.raisedFrom at *; rw [g, h]

theorem State.raisedFrom_host (h : HostIf) : s.raisedFrom { s with host := h } := rfl

theorem State.raisedFrom_msix (v : Nat) : s.raisedFrom (s.msix v) := by
  unfold State.msix; split <;> (try split) <;> rfl

theorem State.raisedFrom_signalRing (r : Nat) : s.raisedFrom (s.signalRing r) := by
  unfold State.signalRing
  split
  · rfl
  · split
    · exact State.raisedFrom_trans (State.raisedFrom_host _ _) (State.raisedFrom_msix _ _)
    · rfl

theorem State.raisedFrom_ring (h : HostIf) (m : Mem) : s.raisedFrom { s with hostMem := m, host := h } := rfl

theorem State.raisedFrom_dbg (d : Debug) : s.raisedFrom { s with dbg := d } := rfl

theorem State.raisedFrom_ringWrite (r : Nat) (e : RingEntry) : s.raisedFrom (s.ringWrite r e) := by
  unfold State.ringWrite
  split
  · rfl
  · exact State.raisedFrom_trans (State.raisedFrom_ring _ _ _) (State.raisedFrom_signalRing _ _)

theorem State.raisedFrom_end (n : Nat) (h : HostIf) : s.raisedFrom { s with free := n, host := h } := rfl

theorem State.raisedFrom_wr (a v : Nat) : s.raisedFrom (s.wr a v) := rfl

theorem State.raisedFrom_postEvent (e : RingEntry) : s.raisedFrom (s.postEvent e) := by
  unfold State.postEvent
  split
  · split <;> rfl
  · split
    · split <;> rfl
    · split
      · rfl
      · split
        · exact State.raisedFrom_ringWrite _ _ _
        · exact State.raisedFrom_trans (State.raisedFrom_host _ _) (State.raisedFrom_wr _ _ _)

theorem State.raisedFrom_logWrite (code : Nat) (d : List Nat) : s.raisedFrom (s.logWrite code d) := by
  have h : ∀ (x y z : State) (c b : Prop) [Decidable c] [Decidable b], s.raisedFrom x → s.raisedFrom y → s.raisedFrom z →
      s.raisedFrom (if c then (if b then y else z) else x) := by
    intro x y z c b _ _ hx hy hz
    split
    · split
      · exact hy
      · exact hz
    · exact hx
  exact h _ _ _ _ _ (State.raisedFrom_dbg _ _)
    (State.raisedFrom_trans (State.raisedFrom_dbg _ _) (State.raisedFrom_wr _ _ _)) (State.raisedFrom_dbg _ _)

/-- Raising an event changes nothing else. -/
theorem State.raisedFrom_raise (code : Nat) (w : EvWords) (ctx : Nat) : s.raisedFrom (s.raise code w ctx) := by
  unfold State.raise
  exact State.raisedFrom_trans (State.raisedFrom_trans (State.raisedFrom_postEvent _ _) (State.raisedFrom_logWrite _ _ _))
    (State.raisedFrom_end _ _ _)

theorem State.raisedFrom_raiseLim (code key period : Nat) (w : EvWords) (ctx : Nat) : s.raisedFrom (s.raiseLim code key period w ctx) := by
  unfold State.raiseLim
  split
  · exact State.raisedFrom_trans (State.raisedFrom_host _ _) (State.raisedFrom_raise _ _ _ _)
  · rfl

theorem State.raisedFrom_trace (p src arg : Nat) : s.raisedFrom (s.trace p src arg) := by
  obtain ⟨r, d, h⟩ := State.trace_frame s p src arg
  rw [h]; rfl

/-! ### Ronyr -/

/-- The rate limit of an event is kept by the host interface. -/
theorem State.rateMark_frame (code key : Nat) : s.rateMark code key = { s with host := (s.rateMark code key).host } := rfl

/-- A diagnostic event of Ronyr's is a message to Cuette, or nothing where it comes too soon. -/
theorem State.rnyEvent_frame (code key : Nat) (w2 w3 : Option Nat) :
    s.rnyEvent code key w2 w3 = { s with host := (s.rnyEvent code key w2 w3).host, ron := { s.ron with
      tx := (s.rnyEvent code key w2 w3).ron.tx } } := by
  unfold State.rnyEvent; split <;> rfl

/-- Noting the outputs' commands changes nothing else. -/
theorem State.noteDrive_frame : s.noteDrive = { s with ron := { s.ron with
    commanded := s.noteDrive.ron.commanded, drv := s.noteDrive.ron.drv } } := rfl

/-- A boot phase is a register's field; its change sends vector 9. -/
theorem State.setPhase_frame (p : Nat) : s.setPhase p = { s with regs := (s.setPhase p).regs, host := (s.setPhase p).host } := by
  unfold State.setPhase
  split
  · rfl
  · rw [State.msix_frame]; rfl

/-- The phase is the one set, if it is one of sixteen. -/
theorem State.phase_setPhase {p : Nat} (h : p < 16) : (s.setPhase p).phase = p := by
  unfold State.setPhase
  split
  · assumption
  · rename_i hp
    rw [State.msix_frame]
    exact (State.fld_setFld_same s R.GLB_BOOT_STATUS 0 4 p (by decide)).trans (Nat.mod_eq_of_lt h)

/-- Outputs are off wherever the field safe state is in force (R394). -/
theorem State.driven_safe (h : s.ron.safe = true) (k : Nat) : s.driven k = false := by
  simp [State.driven, State.cutoffClosed, h]

end Sys2Proof.Machine
end

