-- ==== Sys2Proof/Laws/Frames.lean ====
section
/-! SUPPORT. How frames are shown: time that lands twice lands once, and a command that changes only some parts keeps the others. -/

namespace Sys2Proof.Machine

variable (s : State)

/-- Landing again at the instant landed at changes nothing. -/
theorem State.at'_now (t : Nat) : s.at' (s.at' t).now = s.at' t := by
  unfold State.at'
  by_cases h : s.now < t
  · simp [h]
  · simp [h]

/-- A command that lands, and then changes only `fab`. -/
theorem State.keepsBut_fab (t : Nat) (b : Fabric) :
    s.keepsBut ({ s.at' t with fab := b } : State).settle [.fab] := by
  intro p hp
  cases p <;> first
    | exact absurd (List.mem_singleton.mpr rfl) hp
    | exact ⟨by simp [State.settle], fun k _ => by simp [State.settle]⟩
    | simp [Part.same, State.settle]
  all_goals exact congrArg State.tim (State.at'_now s t).symm

/-- A command that lands and then does no more than raise events keeps every part but those of an event. -/
theorem State.keepsBut_raise (t : Nat) {x : State} (h : (s.at' t).raisedFrom x) : s.keepsBut x.settle raiseParts := by
  intro p hp
  rw [h]
  cases p <;> first
    | exact absurd (by decide) hp
    | exact ⟨by simp [State.settle], fun k _ => by simp [State.settle]⟩
    | simp [Part.same, State.settle]
  all_goals exact congrArg State.tim (State.at'_now s t).symm

/-- A command that only lands changes no part. -/
theorem State.keepsBut_nothing (t : Nat) : s.keepsBut (s.at' t).settle [] := by
  intro p _
  cases p <;> first
    | exact ⟨by simp [State.settle], fun k _ => by simp [State.settle]⟩
    | simp [Part.same, State.settle]
  all_goals exact congrArg State.tim (State.at'_now s t).symm

/-- Ronyr, but for the instants its outputs' commands changed, is as it was once they are noted. -/
theorem State.noteDrive_same {x : State} : Part.same .ron x x.noteDrive.settle := by
  refine ⟨rfl, fun k hk => ?_⟩
  simp only [State.noteDrive, State.settle, nth]
  rw [List.getElem?_map, List.getElem?_range hk]
  simp only [Option.map_some, Option.getD_some]
  split <;> simp [State.drv, nth]

/-- A command of Ronyr's that only lands changes no part. -/
theorem State.keepsBut_nothingR (t : Nat) : s.keepsBut (s.at' t).noteDrive.settle [] := by
  intro p _
  cases p <;> first
    | simpa [Part.same] using State.noteDrive_same (x := s.at' t)
    | simp [Part.same, State.settle, State.noteDrive]
  all_goals exact congrArg State.tim (State.at'_now s t).symm

end Sys2Proof.Machine
end

