-- ==== Sys2Proof/Laws/Fettler.lean ====
section
/-! SUPPORT. What running a fettler instruction comes to (R219, R248–R250), and the laws of fettler registers (R217). -/

namespace Sys2Proof.Machine

/-! ### Registers -/

@[simp] theorem Fet.rx_zero (f : Fet) : f.rx 0 = 0 := rfl
@[simp] theorem Fet.wx_zero (f : Fet) (v : W64) : f.wx 0 v = f := rfl
@[simp] theorem Fet.rp_zero (f : Fet) : f.rp 0 = BitVec.allOnes 64 := rfl
@[simp] theorem Fet.wp_zero (f : Fet) (v : W64) : f.wp 0 v = f := rfl

theorem Fet.rx_wx_same (f : Fet) {n : BitVec 5} (h : n ≠ 0) (v : W64) : (f.wx n v).rx n = v := by
  unfold Fet.rx Fet.wx
  rw [if_neg h, if_neg h]
  exact KMap.getD_put_same _ _ _ _

theorem Fet.rx_wx_other (f : Fet) {n m : BitVec 5} (h : m ≠ n) (v : W64) : (f.wx n v).rx m = f.rx m := by
  unfold Fet.rx Fet.wx
  by_cases hn : n = 0
  · simp [hn]
  · by_cases hm : m = 0
    · simp [hm]
    · simp only [hn, hm, if_false]
      exact KMap.getD_put_other _ _ _ (fun e => h (BitVec.eq_of_toNat_eq e))

theorem Fet.rp_wp_same (f : Fet) {n : Nat} (h : n ≠ 0) (v : W64) : (f.wp n v).rp n = v := by
  simp [Fet.rp, Fet.wp, h]

theorem Fet.rp_wp_other (f : Fet) {n m : Nat} (h : m ≠ n) (v : W64) : (f.wp n v).rp m = f.rp m := by
  unfold Fet.rp Fet.wp
  by_cases hn : n = 0
  · simp [hn]
  · by_cases hm : m = 0
    · simp [hm]
    · simp only [hn, hm, if_false]
      exact KMap.getD_put_other _ _ _ h

@[simp] theorem Fet.rv_wv_same (f : Fet) (n : BitVec 5) (v : BitVec 512) : (f.wv n v).rv n = v := by
  simp [Fet.rv, Fet.wv]

theorem Fet.rv_wv_other (f : Fet) {n m : BitVec 5} (h : m ≠ n) (v : BitVec 512) : (f.wv n v).rv m = f.rv m :=
  KMap.getD_put_other _ _ _ (fun e => h (BitVec.eq_of_toNat_eq e))

@[simp] theorem Fet.rc_wc_same (f : Fet) (n : Nat) (v : W64) : (f.wc n v).rc n = v := by
  simp [Fet.rc, Fet.wc]

theorem Fet.rc_wc_other (f : Fet) {n m : Nat} (h : m ≠ n) (v : W64) : (f.wc n v).rc m = f.rc m :=
  KMap.getD_put_other _ _ _ h

@[simp] theorem Fet.wx_wait (f : Fet) (n : BitVec 5) (v : W64) : (f.wx n v).wait = f.wait := by
  unfold Fet.wx; split <;> rfl
@[simp] theorem Fet.wx_pc (f : Fet) (n : BitVec 5) (v : W64) : (f.wx n v).pc = f.pc := by
  unfold Fet.wx; split <;> rfl
@[simp] theorem Fet.wv_wait (f : Fet) (n : BitVec 5) (v : BitVec 512) : (f.wv n v).wait = f.wait := rfl
@[simp] theorem Fet.wc_wait (f : Fet) (n : Nat) (v : W64) : (f.wc n v).wait = f.wait := rfl
@[simp] theorem Fet.flag_wait (f : Fet) (b : Nat) : (f.flag b).wait = f.wait := rfl
@[simp] theorem Fet.wp_wait (f : Fet) (n : Nat) (v : W64) : (f.wp n v).wait = f.wait := by
  unfold Fet.wp; split <;> rfl

/-! ### Elapsed time -/

variable (s : State)

@[simp] theorem State.fet_at' (t i : Nat) : (s.at' t).fet i = s.fet i := by simp [State.fet]

@[simp] theorem State.fabricUp_at' (t : Nat) : (s.at' t).fabricUp = s.fabricUp := by simp [State.fabricUp]

@[simp] theorem State.stopped_at' (t n x : Nat) : (s.at' t).stopped n x = s.stopped n x := by simp [State.stopped]

@[simp] theorem State.xlate_at' (t x va : Nat) (w p : Bool) : (s.at' t).xlate x va w p = s.xlate x va w p := by
  simp [State.xlate, State.inRanges, State.leaf]

@[simp] theorem State.xlateAll_at' (t x : Nat) (w p : Bool) (k va n : Nat) :
    (s.at' t).xlateAll x w p k va n = s.xlateAll x w p k va n := by simp [State.xlateAll]

@[simp] theorem State.poisonedIn_at' (t x va n : Nat) : (s.at' t).poisonedIn x va n = s.poisonedIn x va n := by
  simp [State.poisonedIn, State.linesOf, State.hostPage, State.physOf, State.leaf]

/-! ### Running an instruction -/

/-- A ready fettler runs its instruction's effect. -/
theorem fetRun_ready {t : Nat} {i : Fin 128} {word : Nat} {body : State → Fet → FRes} {f : Fet} (h : s.fetReady i 4 f) :
    fetRun t i word true body s = .next ((s.at' t).fetApply i f 4 (body (s.at' t) f)).settle := by
  obtain ⟨h1, h2, h3, h4, h5, h7, a, h6⟩ := h
  unfold fetRun
  simp only [State.fet_at', h1, State.fabricUp_at', h2, h3, State.stopped_at', h4]
  simp [State.fetExec, h5, h6, h7, done]

/-- Retiring changes the fettler and its count of instructions, and nothing else. -/
theorem State.retire_eq (i : Nat) {g : Fet} (pc : BitVec 48) (hw : g.wait = .none) :
    s.retire i g pc = { s with fab := s.fab.retired i (g.goto pc) } := by
  have e : ({ g with pc := pc, wait := .none } : Fet) = g.goto pc := by cases g; simp at hw; simp [Fet.goto, hw]
  unfold State.retire
  rw [e]
  rfl

/-- A state that has landed and then retired an instruction. -/
theorem State.retires_of (t i : Nat) {g : Fet} (pc : BitVec 48) (hw : g.wait = .none) :
    s.retires ((s.at' t).retire i g pc).settle i (g.goto pc) := by
  rw [State.retire_eq _ _ _ hw]
  exact ⟨by simp [Fabric.retired], s.keepsBut_fab t _⟩

/-- A ready fettler retires an instruction that only works on its own registers. -/
theorem fetRun_retires {t : Nat} {i : Fin 128} {word : Nat} {body : State → Fet → FRes} {f g : Fet} (h : s.fetReady i 4 f)
    (hb : body (s.at' t) f = .ok (s.at' t) g) (hw : g.wait = .none) :
    ∃ s', fetRun t i word true body s = .next s' ∧ s.retires s' i (g.goto (f.pc + 4)) := by
  refine ⟨_, fetRun_ready s h, ?_⟩
  rw [hb]
  exact s.retires_of t i _ hw

/-- The same for one that jumps. -/
theorem fetRun_jumps {t : Nat} {i : Fin 128} {word : Nat} {body : State → Fet → FRes} {f g : Fet} {pc : BitVec 48}
    (h : s.fetReady i 4 f) (hb : body (s.at' t) f = .jump (s.at' t) g pc) (hw : g.wait = .none) :
    ∃ s', fetRun t i word true body s = .next s' ∧ s.retires s' i (g.goto pc) := by
  refine ⟨_, fetRun_ready s h, ?_⟩
  rw [hb]
  exact s.retires_of t i _ hw

/-- A trap to the fettler's handler changes the fettler alone (R248). -/
theorem State.fetTrap_handled (i : Nat) {f : Fet} (c sub tval : Nat) (h : f.handles) :
    s.fetTrap i f c sub tval = s.setFet i (f.inHandler c sub tval) := by
  unfold State.fetTrap
  have e : (0x8000000000000000#64 ||| BitVec.ofNat 64 (c % 256 + sub % 256 * 256)) =
      BitVec.ofNat 64 (2 ^ 63 + sub % 256 * 256 + c % 256) := by
    apply BitVec.eq_of_toNat_eq
    have h1 : c % 256 + sub % 256 * 256 < 2 ^ 16 := by omega
    have := Nat.two_pow_add_eq_or_of_lt (i := 63) (b := c % 256 + sub % 256 * 256) (by omega) 1
    rw [Nat.mul_one] at this
    rw [BitVec.toNat_or, BitVec.toNat_ofNat, BitVec.toNat_ofNat, BitVec.toNat_ofNat,
      Nat.mod_eq_of_lt (a := c % 256 + sub % 256 * 256) (by omega),
      Nat.mod_eq_of_lt (a := 2 ^ 63 + sub % 256 * 256 + c % 256) (by omega), Nat.mod_eq_of_lt (a := 9223372036854775808) (by omega),
      show 9223372036854775808 = 2 ^ 63 from rfl, ← this]
    omega
  simp only [h.1, h.2, and_self, ne_eq, not_false_eq_true, if_true, e]
  rfl

/-- A ready fettler with a handler whose instruction traps goes to its handler. -/
theorem fetRun_traps {t : Nat} {i : Fin 128} {word : Nat} {body : State → Fet → FRes} {f : Fet} {c sub tval : Nat}
    (h : s.fetReady i 4 f) (hh : f.handles) (hb : body (s.at' t) f = .trap c sub tval) :
    ∃ s', fetRun t i word true body s = .next s' ∧ s.keepsBut s' [.fab] ∧
      s'.fab = { s.fab with fets := KMap.put s.fab.fets i (f.inHandler c sub tval) } := by
  refine ⟨_, fetRun_ready s h, ?_⟩
  rw [hb]
  unfold State.fetApply
  dsimp only
  rw [State.fetTrap_handled _ _ _ _ _ hh]
  exact ⟨s.keepsBut_fab t _, by simp [State.setFet]⟩

/-- A ready fettler with a handler whose instruction is not legal traps with cause ILLEGAL and the word (R221). -/
theorem fetRun_illegal {t : Nat} {i : Fin 128} {word : Nat} {body : State → Fet → FRes} {f : Fet}
    (h : s.fetReady i 4 f) (hh : f.handles) :
    ∃ s', fetRun t i word false body s = .next s' ∧ s.keepsBut s' [.fab] ∧
      s'.fab = { s.fab with fets := KMap.put s.fab.fets i (f.inHandler 1 0 word) } := by
  obtain ⟨h1, h2, h3, h4, h5, h7, a, h6⟩ := h
  refine ⟨((s.at' t).fetTrap i f 1 0 word).settle, ?_, ?_⟩
  · unfold fetRun
    simp only [State.fet_at', h1, State.fabricUp_at', h2, h3, State.stopped_at', h4]
    simp [State.fetExec, h5, h6, h7, done]
  · rw [State.fetTrap_handled _ _ _ _ _ hh]
    exact ⟨s.keepsBut_fab t _, by simp [State.setFet]⟩

end Sys2Proof.Machine
end

