-- ==== Sys2Proof/Laws/Mem.lean ====
section
/-! SUPPORT. Every other operation that writes a memory keeps its canonical form: ring entries, elements and tags, moved pages and the mould
bytes of a section put back. -/

namespace Sys2Proof.Machine

theorem Mem.wf_writeWords (l : List Nat) : ∀ (a : Nat) {m : Mem}, Mem.wf m = true → Mem.wf (Mem.writeWords m a l) = true := by
  induction l with
  | nil => intro a m hm; exact hm
  | cons w l ih => intro a m hm; exact ih _ (Mem.wf_writeLE 4 _ _ hm)

theorem Mem.wf_elemPut (a f n v : Nat) {m : Mem} (hm : Mem.wf m = true) : Mem.wf (elemPut m a f n v) = true := by
  unfold elemPut
  split
  · exact Mem.wf_write _ _ hm
  · split <;> exact Mem.wf_writeLE _ _ _ hm

theorem Mem.wf_tagPut (a i t : Nat) {m : Mem} (hm : Mem.wf m = true) : Mem.wf (tagPut m a i t) = true := Mem.wf_write _ _ hm

theorem Mem.wf_foldl {α : Type} {f : Mem → α → Mem} (hf : ∀ (m : Mem) (x : α), Mem.wf m = true → Mem.wf (f m x) = true) (l : List α) :
    ∀ {m : Mem}, Mem.wf m = true → Mem.wf (l.foldl f m) = true := by
  induction l with
  | nil => intro m hm; exact hm
  | cons x l ih => intro m hm; exact ih (hf m x hm)

theorem Mem.wf_put {m : Mem} (a : Nat) {v : Byte} (hv : v ≠ Mem.blank) (hm : Mem.wf m = true) : Mem.wf (KMap.put m a v) = true := by
  have h := Mem.wf_write a v hm
  rwa [Mem.write, if_neg hv] at h

/-- Entries laid over a memory keep its form where none of them is blank. -/
theorem Mem.wf_over (l : Mem) : ∀ {m : Mem}, (∀ c ∈ l, c.2 ≠ Mem.blank) → Mem.wf m = true → Mem.wf (KMap.overlay m l) = true := by
  induction l with
  | nil => intro m _ hm; exact hm
  | cons c l ih =>
    intro m hl hm
    exact ih (fun d hd => hl d (List.mem_cons_of_mem _ hd)) (Mem.wf_put _ (hl c List.mem_cons_self) hm)

theorem Mem.wf_moveBytes {src dst : Mem} (a f len : Nat) (hs : Mem.wf src = true) (hd : Mem.wf dst = true) :
    Mem.wf (moveBytes src dst a f len) = true := by
  refine Mem.wf_over _ (fun c hc => ?_) (Mem.wf_zero _ _ hd)
  obtain ⟨e, he, rfl⟩ := List.mem_map.mp hc
  simp only [Mem.wf, Bool.and_eq_true, List.all_eq_true] at hs
  simpa using hs.2 e (List.mem_filter.mp he).1

/-- A section put back leaves the mould in canonical form (R328). -/
theorem Mem.wf_restored {m : Mem} (n : Nat) (l : List Host.Cell) (hm : Mem.wf m = true) :
    Mem.wf (l.foldl (fun m c => Mem.write m (mouldAt n c.1) c.2) m) = true :=
  Mem.wf_foldl (fun _ c h => Mem.wf_write _ c.2 h) l hm

end Sys2Proof.Machine
end

