-- ==== Sys2Proof/WellFormed.lean ====
section
/-! DEFINITION. Which commands the outside can send: the checks on the operands whose types admit more than the spec does. The
machine answers every command, well formed or not; a claim about what comes from outside may assume these. -/

namespace Sys2Proof

/-- A self-test record names a class of Table 3.2, an instance of it, and a kind of Table 3.3. -/
def BistFail.wellFormed (f : BistFail) : Bool :=
  (((decide (1 ≤ f.cls.toNat ∧ f.cls.toNat ≤ 8)) && decide (f.inst.toNat < 32)) ||
    (f.cls == 0x10 && f.inst == 0) || (f.cls == 0x11 && decide (f.inst.toNat < 16)) ||
    (f.cls == 0x12 && decide (f.inst.toNat < 3)) || f.cls == 0x13 || (f.cls == 0x20 && decide (f.inst.toNat < 8))) &&
  decide (1 ≤ f.kind.toNat ∧ f.kind.toNat ≤ 6) && decide (f.repair.toNat ≤ 2)

/-- A Nolox frame carries 0 to 256 bytes in whole 16-byte units (R427). -/
def NlxRx.wellFormed (f : NlxRx) : Bool := decide (f.payload.length ≤ 256) && decide (f.payload.length % 16 = 0)

/-- A program declares a class of its own, LINE or JOB, descriptors of sixteen words, and pages in the memory that contexts use, in aligned
frames (R178, R259, R316). -/
def Program.wellFormedOperand (p : Program) : Bool :=
  (p.cls == 1 || p.cls == 2) && p.descs.all (fun d => d.length == 16) &&
    p.maps.all (fun m => let n := if m.big then 2 ^ 21 else 2 ^ 12
      decide (m.va % n = 0) && decide (m.data.length ≤ n) && (m.host || (decide (m.frame % n = 0) && decide (m.frame + n ≤ 126976 * 2 ^ 20))))

/-- The operands of a command lie in the ranges the spec gives them. Commands without a line here have operands whose types
already admit nothing else. -/
def Instr.wellFormed : Instr → Bool
  | .bistComplete _ fails => fails.all BistFail.wellFormed
  | .progLoad _ _ _ p => p.wellFormedOperand
  | .bar2Read _ off r => decide (1 ≤ r.len) && decide (off.toNat + r.len ≤ 2 ^ 36)
  | .bar2Write _ off d => decide (1 ≤ d.bytes.length) && decide (off.toNat + d.bytes.length ≤ 2 ^ 36)
  | .cameraLineReceived _ _ px _ => decide (1 ≤ px.length) && decide (px.length ≤ 16384)
  | .nlxCheckBlockReceived _ _ _ hdr => hdr.length == 16
  | .inputSample _ pins => pins.length == 16
  | .nlxFrameReceive _ _ f => f.wellFormed
  | .scrubLine _ line _ => decide (line < 520601600)
  | .xlateFaultResolved _ _ m => decide (m.frame % 4096 = 0) && decide (m.frame < 126976 * 2 ^ 20)
  | .prbsRelock _ _ bits errs => decide (errs ≤ bits)
  | .prbsLock _ p => decide (p.errs ≤ p.bits)
  | _ => true

end Sys2Proof
end

