-- ==== Sys2Proof/Tests/Slice0.lean ====
section
/-! SUPPORT. Tests: ill-formed operands are refused, worked examples of the spec, and for every statement with hypotheses states and operands
that meet them (one witness theorem per statement). In the witnesses sNN_k is a state and aNN_k an operand. -/

namespace Sys2Proof.Tests

open Sys2Proof Sys2Proof.Machine

set_option maxRecDepth 100000
set_option exponentiation.threshold 1024

/-! ### Operands that no one may send -/

/-- A record of a self-test failure. -/
def bist1 : BistFail := { cls := 1, inst := 3, sub := 0, kind := 1, repair := 2, address := 5, bit := 6, nbits := 1, pattern := 7 }

theorem test_wellFormed_bist : (Instr.bistComplete 0 [bist1]).wellFormed = true := by decide

theorem test_illFormed_bist_class : (Instr.bistComplete 0 [{ bist1 with cls := 9 }]).wellFormed = false := by decide

theorem test_illFormed_bist_instance : (Instr.bistComplete 0 [{ bist1 with inst := 32 }]).wellFormed = false := by decide

theorem test_illFormed_bist_kind : (Instr.bistComplete 0 [{ bist1 with kind := 7 }]).wellFormed = false := by decide

theorem test_illFormed_bist_repair : (Instr.bistComplete 0 [{ bist1 with repair := 3 }]).wellFormed = false := by decide

/-- A program of no task, of a class. -/
def progOf (cls : BitVec 2) (descs : List (List Nat)) : Program :=
  ⟨true, 0, none, cls, false, [], descs, true, [], [], [], [], [], [], [], [], 0, [], none, false, [], [], [], [], [], none, (0, 1, 2)⟩

theorem test_wellFormed_program : (Instr.progLoad 0 2 5 (progOf 1 [List.replicate 16 0])).wellFormed = true := by decide

theorem test_illFormed_program_class : (Instr.progLoad 0 2 5 (progOf 0 [])).wellFormed = false := by decide

theorem test_illFormed_program_desc : (Instr.progLoad 0 2 5 (progOf 1 [List.replicate 15 0])).wellFormed = false := by decide

theorem test_illFormed_bar2Read : (Instr.bar2Read 0 0xFFFFFFFFF ⟨2, {}⟩).wellFormed = false := by decide

theorem test_illFormed_bar2Read_none : (Instr.bar2Read 0 0 ⟨0, {}⟩).wellFormed = false := by decide

theorem test_illFormed_bar2Write : (Instr.bar2Write 0 0xFFFFFFFFF ⟨[0, 0], {}⟩).wellFormed = false := by decide

theorem test_illFormed_line : (Instr.cameraLineReceived 0 3 [] {}).wellFormed = false := by decide

theorem test_illFormed_checkBlock : (Instr.nlxCheckBlockReceived 0 1 0 [64]).wellFormed = false := by decide

theorem test_illFormed_scrub : (Instr.scrubLine 0 520601600 {}).wellFormed = false := by decide

theorem test_illFormed_frame_place : (Instr.xlateFaultResolved 0 (.fettler 0) ⟨8, none⟩).wellFormed = false := by decide

theorem test_illFormed_frame_above : (Instr.xlateFaultResolved 0 (.fettler 0) ⟨126976 * 2 ^ 20, none⟩).wellFormed = false := by decide

/-- A program with one page of its map. -/
def mapOf (va frame n : Nat) : Program :=
  { progOf 1 [] with maps := [{ va := va, big := false, frame := frame, w := true, bundle := false, data := List.replicate n 0 }] }

theorem test_wellFormed_map : (Instr.progLoad 0 2 5 (mapOf 4096 8192 1)).wellFormed = true := by decide

theorem test_illFormed_map_address : (Instr.progLoad 0 2 5 (mapOf 4097 8192 1)).wellFormed = false := by decide

theorem test_illFormed_map_frame : (Instr.progLoad 0 2 5 (mapOf 4096 (126976 * 2 ^ 20) 1)).wellFormed = false := by decide

theorem test_illFormed_inputSample : (Instr.inputSample 0 []).wellFormed = false := by decide

/-- A frame of the chain with `n` bytes. -/
def frameOf (n : Nat) : NlxRx :=
  { crcOk := true, only := false, dst := 5, src := 6, typ := 0, lseq := 0, ctx := 1, addr := 0, payload := List.replicate n 7, ack := none }

theorem test_wellFormed_frame : (Instr.nlxFrameReceive 0 0 (frameOf 16)).wellFormed = true := by decide

theorem test_illFormed_frame_unit : (Instr.nlxFrameReceive 0 0 (frameOf 8)).wellFormed = false := by decide

theorem test_illFormed_frame_long : (Instr.nlxFrameReceive 0 0 (frameOf 272)).wellFormed = false := by decide

theorem test_illFormed_prbs : (Instr.prbsRelock 0 2 4 5).wellFormed = false := by decide

theorem test_illFormed_prbsLock : (Instr.prbsLock 0 ⟨2, 4, 5⟩).wellFormed = false := by decide

/-! ### Worked examples of the spec -/

/-- Table 10.9, rows 1 to 3: the keyed counter generator. -/
theorem test_kcg_row1 : kcg 0 0 0 0 = 0x2E2B34CA59FA4C883B2C8AEFD44BE966 := by decide

theorem test_kcg_row2 : kcg 0x0F0E0D0C0B0A09080706050403020100 0xFFEEDDCCBBAA9988 0x7766 0x554433221100 = 0x5AC5B47080B7CDD830047B6AD8E0C469 := by
  decide

theorem test_kcg_row3 : kcg 0x3C4FCF098815F7ABA6D2AE2816157E2B 0x340737E0A2983131 0x8D30 0x5A88A8F64332 = 0x320B6A1997851 * 2 ^ 76 +
    0x1DCFB09DC021D842539 := by decide

/-- Table 10.8: the six terms of the cancelling sum at L = −16, the underflow of the fourth, and their sum, 1.0. -/
theorem test_cancelling_sum :
    let t (neg : Bool) (a b : Nat) (e : Int) : Acc := termOf (-16) (.fin neg a e) (.fin false b e)
    Acc.sum [t false 4096 4096 0, t false 1 1 0, t true 4096 4096 0, t false 1 1 (-10), t false 3 3 (-9), t true 3 3 (-9)] =
      { v := 65536, tag := 0, uf := 1 } := by decide

/-- The drain of 2.75 to S8 with z = 5 in each mode (chapter 10, worked example): RNE, RTZ, RUP, RDN, and SR with the draw of Table 10.10. -/
theorem test_drain_modes : (List.range 5).map (fun mode => (roundInt (-128) 127 8 mode 0xD44BE966 false 11 (-2) 5).bits) = [8, 7, 8, 7, 8] := by
  decide

/-- Table 12.16: the cost of the worked `MMA` is 280 cycles. -/
theorem test_mma_cost : dCost [0x5D1, 0x1F000, 0x20000, 0x820000, 0x30000, 0x8A0000, 0x1FFFFF, 0, 0x80, 0, 0, 0, 0, 0, 0, 0xA11] = 280 := by decide

/-- The rule section of Table 17.9. -/
def rules179 : List Byte :=
  [0x00015652, 0x0C020303, 0, 0, 0, 0, 0, 0, 0x00001001, 0x3F000000, 0x00000042, 0x41400000, 0x00006002, 0,
   4, 0, 0, 0, 3, 0, 1, 0, 0, 0, 3, 0, 2, 0, 0, 0, 5, 0].flatMap (fun w => leBytes w 4)

/-- The first rule of Table 17.9 whose conditions hold: condition 0 alone gives `REJECT` with action 1, none gives `PASS` with action 0. -/
theorem test_rules_179 : ruleResult rules179 1 = (1, 1) ∧ ruleResult rules179 2 = (1, 2) ∧ ruleResult rules179 5 = (1, 1) ∧
    ruleResult rules179 0 = (0, 0) := by decide

/-- The worked head values on two samples: of the conditions of Table 17.9 exactly condition 0 holds, and the rules give `REJECT` with action 1. -/
theorem test_conditions_179 :
    let s := (State.reset.wr (R.RUN_AUG 0 4 0) 1).wr (R.RUN_AUG 0 4 1) 1
    s.condBits { cls := 4 } [[0x3EE00000, 0x40400000], [0x3F200000, 0x40200000]] rules179 = 1 ∧ ruleResult rules179 1 = (1, 1) := by decide

/-- The tablet of Table 1.2: margin 60, taps at 2,990 and 3,050 from the centre, leading edge at 0: its deadline is 2,980. -/
theorem test_tablet_deadline :
    let s := [(R.LIN_CLASS 4, 1 + 60 * 256), (R.LIN_CLASS 4 + 4, 100), (R.LIN_TAP 4 1 0, 1 + 2 ^ 1), (R.LIN_TAP 4 1 0 + 4, 2990)].foldl
      (fun (s : State) e => s.wr e.1 e.2) State.reset
    s.classRev 0 4 = false ∧ along false 0 (anchorOff 1 100 + 2990 - 60) = 2980 := by decide

/-! ### Reset -/

theorem test_reset_memory : Mem.wf State.reset.hostMem = true ∧ Mem.wf State.reset.fab.dram = true ∧ Mem.wf State.reset.fab.mould = true := by decide

theorem test_reset_id : State.reset.rd R.GLB_ID = 0x96405E7A := by decide

/-- The table of commands gives no row an encoding. -/
theorem test_no_words (nbits w : Nat) : decodeTableWord nbits w = none := rfl


/-! ### States to test in -/

/-- A state with the register words of the list set. -/
def set (l : List (Nat × Nat)) (s : State) : State := l.foldl (fun s e => s.wr e.1 e.2) s

/-- A state with the words of Ronyr's registers of the list set. -/
def rset (l : List (Nat × Nat)) (s : State) : State := l.foldl (fun s e => s.setRreg e.1 e.2) s

/-- Cuette out of reset and RUNNING, its firmware up, line work started. -/
def up : State :=
  set [(R.GLB_BOOT_STATUS, 7), (R.DBG_FW_STAT 0, 1), (R.DBG_FW_STAT 1, 1), (R.DBG_FW_STAT 2, 1), (R.DBG_FW_STAT 3, 1), (R.GLB_FLASK_USED, 1), (R.FLK_STAT 0, 1)]
    { mod := { held := false }, boot := { started := true, lineStarted := true, restored := true } }

/-- A program of one task, with an event counter, a gate counter, and runner slot 0 in its window grant. -/
def prog0 : Program where
  wellFormed := true
  hash := 0
  bundle := none
  cls := 2
  stripeProgram := false
  code := []
  descs := []
  rangesOk := true
  tasks := [⟨0x1000, none, false, false, false, false, []⟩, ⟨0x1000, none, false, false, false, false, []⟩]
  barriers := []
  evcs := [1]
  gates := [3]
  grantSlots := [(0, 0)]
  grantClasses := []
  stripes := []
  halos := []
  workset := 0
  maps := []
  seq := none
  digests := false
  pieceSlots := []
  segRegs := []
  compared := []
  chainWins := []
  chainGrants := []
  rules := none

/-- Context 1, a JOB context on flask 0 with the lowest 16 MiB of its addresses. -/
def job1 : Ctx := { cls := 2, mask := 1, st := 2, ranges := [(0, 2 ^ 24)] }

/-- Pour 1 of context 1, running its two tasks. -/
def pour1 : Pour := { id := 1, ctx := 1, prog := 1, st := 2, tasks := [{ st := 2 }, { st := 2 }] }

/-- Context 1 runs pour 1 on flask 0: its first 4 MiB are mapped, 64 KiB of the mould are its region, and 4 KiB more are protected. -/
def jobSt : State :=
  let s := set [(R.FLK_REGION 0 0, 2 ^ 29 + 2 ^ 24 + 16 * 4096), (R.FLK_REGION 0 1, 2 ^ 29 + 2 ^ 28 + 2 ^ 24 + 4096 + 32)] up
  { s with sch := { s.sch with ctxs := [(0, {}), (1, job1)], progs := [⟨1, 1, prog0⟩], nextProg := 2, pours := [pour1], nextPour := 2 }
           fab := { s.fab with pt2 := [(2 ^ 27, { frame := 0 }), (2 ^ 27 + 1, { frame := 2 ^ 21 })] } }

/-- A fettler of pour 1 with a handler. Among its registers are one's complement forms, small numbers and addresses. -/
def fet1 : Fet :=
  { pour := 1, task := 0, ctx := 1, pc := 0x1000
    x := [(5, 7), (6, -3), (7, 0x8000000000000000), (8, 0x1000), (9, 0x2001), (10, 64), (11, 0x4000000000000000), (12, 0x20000), (13, 3), (14, 1)]
    v := [(1, 0x0807060504030201807F), (2, 0x0101010102FFFF01)]
    p := [(1, 0xFF), (2, 0xF0F)]
    csr := [(0x20, 0x400), (0x41, 0)] }

/-- That fettler as number 0. -/
def fetSt : State := { jobSt with fab := { jobSt.fab with fets := [(0, fet1)] } }

theorem fetSt_ready : fetSt.fetReady 0 4 fet1 := ⟨rfl, by decide, by decide, by decide, by decide, by decide, 0x1000, rfl⟩

theorem fet1_handles : fet1.handles := by unfold Fet.handles; decide

theorem fetSt_ready_wide : fetSt.fetReady 0 8 fet1 := ⟨rfl, by decide, by decide, by decide, by decide, by decide, 0x1000, rfl⟩

/-- Fettler 0 with its sync objects: event counter 1 stands at 7, gate counter 3 at its greatest value, barrier 1 at epoch 0 with the last
arrival due. -/
def syncSt : State :=
  { fetSt with fab := { fetSt.fab with evcs := [(1, 7)], gcs := [(3, 2 ^ 64 - 1)], bars := [(1, { pour := 1, ctx := 1, parts := [0], arrived := [] })] } }

theorem syncSt_ready : syncSt.fetReady 0 4 fet1 := ⟨rfl, by decide, by decide, by decide, by decide, by decide, 0x1000, rfl⟩

/-- A fill of two 64-byte elements in the mould, its record at 0x2000. -/
def fillWords : List Nat := [385, 0, 0, 0, 0x1000, 0, 0x10002, 1, 0, 0, 0, 0, 0x04030201, 0x08070605, 0x2000, 0]

/-- Fettler 0 with that descriptor in its mould. -/
def ldqSt : State := { fetSt with fab := { fetSt.fab with mould := Mem.writeWords [] 64 fillWords } }

theorem ldqSt_ready : ldqSt.fetReady 0 4 fet1 := ⟨rfl, by decide, by decide, by decide, by decide, by decide, 0x1000, rfl⟩

/-- Fettler 0 beside full queues of its engines; its mould holds zeros from 0x1000. -/
def fullSt : State :=
  { fetSt with fab := { fetSt.fab with crus := [(0, { queue := List.replicate 32 {} })], ladles := [(0, List.replicate 16 {})] } }

theorem fullSt_ready : fullSt.fetReady 0 4 fet1 := ⟨rfl, by decide, by decide, by decide, by decide, by decide, 0x1000, rfl⟩

/-- A fettler whose tickets are settled, outstanding or failed, with a token. -/
def fet2 (st : Nat) : Fet := { fet1 with tickets := [⟨0, 0, 7, st⟩, ⟨1, 0, 7, if st = 0 then 1 else st⟩], token := some 9, csr := if st = 2 then fet1.csr else [(0x20, 0x400), (0x22, 2 ^ 63)] }

def fet2St (st : Nat) : State := { jobSt with fab := { jobSt.fab with fets := [(0, fet2 st)] } }

theorem fet2_handles : (fet2 2).handles := by unfold Fet.handles; decide

theorem fet2St_ready0 : (fet2St 0).fetReady 0 4 (fet2 0) := ⟨rfl, by decide, by decide, by decide, by decide, by decide, 0x1000, rfl⟩

theorem fet2St_ready1 : (fet2St 1).fetReady 0 4 (fet2 1) := ⟨rfl, by decide, by decide, by decide, by decide, by decide, 0x1000, rfl⟩

theorem fet2St_ready2 : (fet2St 2).fetReady 0 4 (fet2 2) := ⟨rfl, by decide, by decide, by decide, by decide, by decide, 0x1000, rfl⟩

/-- Fettler 0 waiting on event counter 1, or on barrier 1. -/
def waitSt (w : WaitOp) : State := { syncSt with fab := { syncSt.fab with fets := [(0, { fet2 1 with wait := w })] } }


/-- Second word of a tensor reference in the mould: format `f`, stride of 64 bytes. -/
def fmtWord (f : Nat) : Nat := f * 2 ^ 17 + 2 ^ 21

/-- An `MMA` of two rows, two columns and an inner dimension of 2 of S8 at 0x100 and 0x200, tile 0, cleared; record at 0x2000, event counter 1. -/
def mmaWords : List Nat := [1 + 64 + 128 + 256, 0x2000, 0x100, fmtWord 5, 0x200, fmtWord 5, 1 + 128 + 8192, 0, 0, 0, 0, 0, 0, 0, 0, 7]

/-- A `LAYOUT` of 2 × 3 elements from U8 at 0x100 to S16 at 0x300. -/
def layoutWords : List Nat := [9, 0x2000, 0x100, fmtWord 1, 0x300, fmtWord 6, 1 + 2 * 2 ^ 16, 0, 0, 0, 0, 0, 0, 0, 0, 0]

/-- A `POOL` of op `k` with a window of 1 × 1 over U8. -/
def poolWords (k : Nat) : List Nat :=
  [4, 0x2000, 0x100, fmtWord 1, if k = 0 then 0 else 0x300, if k = 0 then 0 else fmtWord 1, k + 1 * 4 + 1 * 512 + 2 ^ 15 + 2 ^ 19, 1 + 256, 4, 0, 0, 0, 0, 0, 0, 0]

/-- An `EWISE` of op `k` over 2 × 2 elements. -/
def ewiseWords (k : Nat) : List Nat :=
  [5 + 64, 0x2000, 0x100, fmtWord (if k = 2 then 15 else 5), if k = 0 then 0x200 else 0, if k = 0 then fmtWord 5 else 0, k + 4 + 512, 0, 0,
    if k = 2 then 0x400 else 0, 0, 0, 0, 0, 0, 0]

/-- An `ACCMOVE` of 2 × 2 cells of tile 0 to S16 at 0x300. -/
def moveWords : List Nat := [6, 0x2000, 0x300, fmtWord 6, 2 ^ 31, 0, 0, 8 + 1024, 0, 0, 0, 0, 0, 2, 0, 0]

/-- A `CONV` (2) or `DWCONV` (3) with a 1 × 1 window over U8 with one channel. -/
def convWords (t : Nat) : List Nat := [t + 64, 0x2000, 0x100, fmtWord 1, 0x200, fmtWord 5, 1 + 2 ^ 13 + 2 ^ 17, 1 + 256, 4 * 2 ^ 16, 0, 0, 0, 0, 0, 0, 0]

/-- A command of pour 1 in the queue of crucible 0, at a stage. -/
def cdesc (st : Nat) (w : List Nat) : CDesc := { words := w, pour := 1, task := 0, ctx := 1, ticket := 5, stage := st }

/-- Crucible 0 with commands in its queue; its mould holds small numbers, and a fettler holds the first's ticket. -/
def cruSt (q : List CDesc) : State :=
  { jobSt with fab := { jobSt.fab with
      fets := [(0, { fet1 with tickets := [⟨0, 0, 5, 0⟩, ⟨0, 1, 5, 0⟩, ⟨1, 0, 5, 0⟩] })]
      crus := [(0, { queue := q, tiles := [{ valid := true, owner := some (1, 0), cells := [(65, { v := 3 })] }, {}, {}, {}] })]
      mould := Mem.writeBytes (Mem.writeBytes (Mem.writeBytes (Mem.writeBytes [] 0x100 [1, 2, 3, 4]) 0x140 [5, 0xFE, 7, 8]) 0x200 [1, 0xFF]) 0x240 [2, 3] } }

/-- Crucible 0 running a command. -/
def cruRun (d : CDesc) : State :=
  let s := cruSt [cdesc 0 []]
  { s with fab := { s.fab with crus := [(0, { s.cru 0 with run := some d })] } }

theorem cruRun_mayRun (w : List Nat) : (cruRun (cdesc 2 w)).mayRun 0 (cdesc 2 w) := ⟨rfl, rfl, rfl⟩

/-- A ladle descriptor of pour 1. -/
def ldesc (st done : Nat) (w : List Nat) : LDesc := { words := w, pour := 1, task := 0, ctx := 1, ticket := 5, state := st, done := done }

/-- Ladle 0 of flask 0 with a descriptor at its head. -/
def ladleSt (d : LDesc) : State := { cruSt [] with fab := { (cruSt []).fab with ladles := [(0, [d, ldesc 0 0 []])] } }

/-- A copy of two elements from 0x100 to 0x1000, and a fill of three million bytes. -/
def copyWords : List Nat := [384, 0, 0x100, 0, 0x1000, 0, 0x10002, 1, 0, 0, 0, 0, 0, 0, 0x2000, 0]

def bigWords : List Nat := [385 + 6 * 64, 0, 0, 0, 0x1000, 0, 0x1000400, 1, 0, 0, 0, 0, 0, 0, 0x2000, 0]

/-- The copy with its first element moved. -/
def copy1 : LDesc := ldesc 0 1 copyWords

theorem copySt_read : (ladleSt copy1).lRead 0 1 copyWords 1 none = .inl ((ladleSt copy1).mread 0 0x140 64) := by
  unfold State.lRead; rfl


/-- An order of queue 2, or of queue 0, with its arguments from word 2. -/
def ord (op ctx : Nat) (args : List Nat) (q : Nat := 2) : Order :=
  { queue := q, seq := 5, opcode := op, ctx := ctx, tag := 0xAB, args := args, ring := some 0 }

/-- The host attached, an order open, and ring 0 at its second lap. -/
def ordSt (o : Order) (s : State := jobSt) : State :=
  let s := set [(R.CMD_HOST_STATE, 1)] s
  { s with host := { agreed := true, orders := [o], rings := [(0, { base := 0x1000, log2 := 6, written := 127, consumed := 127 })] } }

theorem ordSt_answers (o : Order) : (ordSt (ord 0 0 [])).canAnswer { o with ring := some 0 } :=
  ⟨by decide, ⟨0, _, rfl, rfl⟩, by decide⟩

/-- Context 1 FAILED, restored, chilled or created. -/
def ctxSt (c : Ctx) : State := { jobSt with sch := { jobSt.sch with ctxs := [(0, {}), (1, c)], pours := [] }, fab := { jobSt.fab with pt4 := [(2 ^ 36 + 512, {})] } }


/-! ### The queue -/

/-- The hypotheses of `StepRunsFront` are met. -/
theorem witness_StepRunsFront : ({ State.reset with pending := [.msmbVin 7, .perst 8] } : State).pending = .msmbVin 7 :: [.perst 8] := rfl

/-- The hypotheses of `IdleStep` are met. -/
theorem witness_IdleStep : State.reset.pending = [] := rfl

/-- The hypotheses of `PinsFollowStep` are met. -/
theorem witness_PinsFollowStep : ∃ s s' : State, s.pinsFollow = true ∧ s.alertShown = true ∧ s.pending = [.msmbVin 7] ∧ step s = .next s' :=
  ⟨{ State.reset with pending := [.msmbVin 7] }, _, by decide, by decide, rfl, rfl⟩

/-- The hypotheses of `FieldSafeHoldsOutputs` are met. -/
theorem witness_FieldSafeHoldsOutputs : ∃ s s' : State, s.pinsFollow = true ∧ s.pending = [.ronyrHeartbeatLoss 2000000] ∧ step s = .next s' :=
  ⟨{ State.reset with pending := [.ronyrHeartbeatLoss 2000000] }, _, by decide, rfl, rfl⟩


end Sys2Proof.Tests

namespace Sys2Proof.Tests.W01

open Sys2Proof Sys2Proof.Machine Sys2Proof.Tests

set_option maxRecDepth 100000
set_option exponentiation.threshold 1024

/-! ### Scalar instructions -/



/-- The hypotheses of `ScalarArithmetic` are met. -/
theorem witness_ScalarArithmetic :
    fetSt.fetReady 0 4 fet1 ∧
    0 = 0 := by
  refine ⟨fetSt_ready, ?_⟩
  decide

/-- The hypotheses of `JumpsAndBranches` are met. -/
theorem witness_JumpsAndBranches :
    fetSt.fetReady 0 4 fet1 ∧
    fet1.handles ∧
    fetSt.fetReady 0 8 fet1 ∧
    True ∧
    (7 < 8 ∧ 0 = 0) ∧
    (8 = 0 ∨ 4096 % 4 = 0) ∧
    (0 = 0 ∨ 0 % 4 = 0) ∧
    (9 ≠ 0 ∧ 8193 % 4 ≠ 0) ∧
    1 = 1 ∧
    5 = 5 ∧
    2 ≠ 1 ∧
    2 ≠ 5 := by
  refine ⟨fetSt_ready, fet1_handles, fetSt_ready_wide, ?_⟩
  and_intros <;> decide

end Sys2Proof.Tests.W01

namespace Sys2Proof.Tests.W02

open Sys2Proof Sys2Proof.Machine Sys2Proof.Tests

set_option maxRecDepth 100000
set_option exponentiation.threshold 1024

/-! ### Loads and stores -/

theorem rm : fetSt.mouldReach 0 8 true ⟨5,8,true,0x1FF8⟩ fet1 := by unfold State.mouldReach; decide

theorem rm1 : fetSt.mouldReach 0 1 true ⟨5,8,true,0x1FFF⟩ fet1 := by unfold State.mouldReach; decide

theorem rm1f : fetSt.mouldReach 0 1 false ⟨6,8,true,0x1FFF⟩ fet1 := by unfold State.mouldReach; decide

theorem rmf : fetSt.mouldReach 0 8 false ⟨6,8,true,0x1FF8⟩ fet1 := by unfold State.mouldReach; decide

theorem rd : fetSt.memReach 8 0xFF8 true ⟨5,8,false,0x1FF8⟩ fet1 := by unfold State.memReach; decide

theorem rdf : fetSt.memReach 8 0xFF8 false ⟨6,8,false,0x1FF8⟩ fet1 := by unfold State.memReach; decide

/-- Ten bytes wrong, which the code takes for another word. -/
def beyond : LineErr := { wrong := [0, 1, 2, 3, 4, 5, 6, 7, 8, 9], near := true }

def w0 : VlsF := ⟨1,8,0,1,0,0,0⟩

def w1 : VlsF := ⟨3,8,14,2,1,0,0⟩

theorem w0_in : ∀ (k : Nat), k < 64 / vlsSize w0 ∧ active (fet1.rp 1) (8 * vlsSize w0) k = true → (vlsAddr w0 fet1 fetSt.free k).toNat % vlsSize w0 = 0 ∧ fetSt.mouldOk (0 / 4) fet1.ctx (vlsAddr w0 fet1 fetSt.free k).toNat (vlsSize w0) = true := by
  have h : ∀ k < 64 / vlsSize w0, active (fet1.rp 1) (8 * vlsSize w0) k = true → (vlsAddr w0 fet1 fetSt.free k).toNat % vlsSize w0 = 0 ∧ fetSt.mouldOk (0 / 4) fet1.ctx (vlsAddr w0 fet1 fetSt.free k).toNat (vlsSize w0) = true := by decide
  exact fun k a => h k a.1 a.2

theorem w0_open : ∀ (k : Nat), k < 64 / vlsSize w0 ∧ active (fet1.rp 1) (8 * vlsSize w0) k = true → fetSt.mouldProt (0 / 4) fet1.ctx (vlsAddr w0 fet1 fetSt.free k).toNat (vlsSize w0) = false := by
  have h : ∀ k < 64 / vlsSize w0, active (fet1.rp 1) (8 * vlsSize w0) k = true → fetSt.mouldProt (0 / 4) fet1.ctx (vlsAddr w0 fet1 fetSt.free k).toNat (vlsSize w0) = false := by decide
  exact fun k a => h k a.1 a.2

theorem w1_in : ∀ (k : Nat), k < 64 / vlsSize w1 ∧ active (fet1.rp 2) (8 * vlsSize w1) k = true → (vlsAddr w1 fet1 fetSt.free k).toNat % vlsSize w1 = 0 ∧ fetSt.mouldOk (0 / 4) fet1.ctx (vlsAddr w1 fet1 fetSt.free k).toNat (vlsSize w1) = true := by
  have h : ∀ k < 64 / vlsSize w1, active (fet1.rp 2) (8 * vlsSize w1) k = true → (vlsAddr w1 fet1 fetSt.free k).toNat % vlsSize w1 = 0 ∧ fetSt.mouldOk (0 / 4) fet1.ctx (vlsAddr w1 fet1 fetSt.free k).toNat (vlsSize w1) = true := by decide
  exact fun k a => h k a.1 a.2

theorem w1_open : ∀ (k : Nat), k < 64 / vlsSize w1 ∧ active (fet1.rp 2) (8 * vlsSize w1) k = true → fetSt.mouldProt (0 / 4) fet1.ctx (vlsAddr w1 fet1 fetSt.free k).toNat (vlsSize w1) = false := by
  have h : ∀ k < 64 / vlsSize w1, active (fet1.rp 2) (8 * vlsSize w1) k = true → fetSt.mouldProt (0 / 4) fet1.ctx (vlsAddr w1 fet1 fetSt.free k).toNat (vlsSize w1) = false := by decide
  exact fun k a => h k a.1 a.2

def w2 : VlsF := ⟨2,8,1,1,2,1,0⟩

/-- The hypotheses of `ScalarLoadsAndStores` are met. -/
theorem witness_ScalarLoadsAndStores :
    fetSt.fetReady 0 4 fet1 ∧
    fetSt.mouldReach 0 1 true { d := 5, a := 8, sp := true, off := 8191 } fet1 ∧
    fetSt.mouldReach 0 8 true { d := 5, a := 8, sp := true, off := 8184 } fet1 ∧
    fetSt.memReach 8 4088 true { d := 5, a := 8, sp := false, off := 8184 } fet1 ∧
    fetSt.mouldReach 0 8 false { d := 6, a := 8, sp := true, off := 8184 } fet1 ∧
    fetSt.mouldReach 0 1 false { d := 6, a := 8, sp := true, off := 8191 } fet1 ∧
    fetSt.memReach 8 4088 false { d := 6, a := 8, sp := false, off := 8184 } fet1 ∧
    ({} : LineErr).bad = false ∧
    beyond.bad = false := by
  refine ⟨fetSt_ready, rm1, rm, rd, rmf, rm1f, rdf, ?_⟩
  and_intros <;> decide

/-- The hypotheses of `AccessTraps` are met. -/
theorem witness_AccessTraps :
    fetSt.fetReady 0 4 fet1 ∧
    fet1.handles ∧
    eaOf { d := 5, a := 9, sp := true, off := 0 } fet1 % 2 ≠ 0 ∧
    (eaOf { d := 5, a := 11, sp := false, off := 0 } fet1 % 1 = 0 ∧ false = false ∧
      canonical (fet1.rx 11 + BitVec.signExtend 64 (0 : BitVec 13)) = false) ∧
    (eaOf { d := 5, a := 11, sp := true, off := 0 } fet1 % 8 = 0 ∧ true = true ∧ mouldSize ≤ eaOf { d := 5, a := 11, sp := true, off := 0 } fet1) ∧
    (eaOf { d := 5, a := 12, sp := true, off := 4096 } fet1 % 8 = 0 ∧ true = true ∧
      eaOf { d := 5, a := 12, sp := true, off := 4096 } fet1 < mouldSize ∧
      fetSt.mouldOk (0 / 4) fet1.ctx (eaOf { d := 5, a := 12, sp := true, off := 4096 } fet1) 8 = false) ∧
    true = true ∧
    (eaOf { d := 5, a := 12, sp := true, off := 0 } fet1 % 8 = 0 ∧ true = true ∧
      fetSt.mouldOk (0 / 4) fet1.ctx (eaOf { d := 5, a := 12, sp := true, off := 0 } fet1) 8 = true ∧
      fetSt.mouldProt (0 / 4) fet1.ctx (eaOf { d := 5, a := 12, sp := true, off := 0 } fet1) 8 = true) ∧
    (eaOf { d := 5, a := 6, sp := false, off := 8191 } fet1 % 1 = 0 ∧ false = false ∧
      canonical (fet1.rx 6 + BitVec.signExtend 64 (8191 : BitVec 13)) = true ∧
      windowBase ≤ eaOf { d := 5, a := 6, sp := false, off := 8191 } fet1 % 2 ^ 48 ∧ 1 < 4) := by
  refine ⟨fetSt_ready, fet1_handles, ?_⟩
  and_intros <;> decide

/-- The hypotheses of `VectorLoadsAndStores` are met. -/
theorem witness_VectorLoadsAndStores :
    fetSt.fetReady 0 4 fet1 ∧
    (∀ (k : ℕ), k < 64 / vlsSize w0 ∧ active (fet1.rp 1) (8 * vlsSize w0) k = true →
      BitVec.toNat (vlsAddr w0 fet1 fetSt.free k) % vlsSize w0 = 0 ∧
      fetSt.mouldOk (0 / 4) fet1.ctx (BitVec.toNat (vlsAddr w0 fet1 fetSt.free k)) (vlsSize w0) = true) ∧
    (∀ (k : ℕ), k < 64 / vlsSize w0 ∧ active (fet1.rp 1) (8 * vlsSize w0) k = true →
      fetSt.mouldProt (0 / 4) fet1.ctx (BitVec.toNat (vlsAddr w0 fet1 fetSt.free k)) (vlsSize w0) = false) ∧
    (∀ (k : ℕ), k < 64 / vlsSize w1 ∧ active (fet1.rp 2) (8 * vlsSize w1) k = true →
      BitVec.toNat (vlsAddr w1 fet1 fetSt.free k) % vlsSize w1 = 0 ∧
      fetSt.mouldOk (0 / 4) fet1.ctx (BitVec.toNat (vlsAddr w1 fet1 fetSt.free k)) (vlsSize w1) = true) ∧
    (∀ (k : ℕ), k < 64 / vlsSize w1 ∧ active (fet1.rp 2) (8 * vlsSize w1) k = true →
      fetSt.mouldProt (0 / 4) fet1.ctx (BitVec.toNat (vlsAddr w1 fet1 fetSt.free k)) (vlsSize w1) = false) ∧
    vlsLegal w0 = true ∧
    (w0.mode = 0 → 4096 % 64 = 0) ∧
    vlsLegal w1 = true ∧
    (w1.mode = 0 → 4096 % 64 = 0) := by
  refine ⟨fetSt_ready, w0_in, w0_open, w1_in, w1_open, ?_⟩
  and_intros <;> decide

end Sys2Proof.Tests.W02

namespace Sys2Proof.Tests.W03

open Sys2Proof Sys2Proof.Machine Sys2Proof.Tests

set_option maxRecDepth 100000
set_option exponentiation.threshold 1024

/-! ### Vector instructions -/

def h0 : Nat × Nat × Nat × Nat := (12, 5012, 9000, 0)

/-- Row 12 of slot 0, alone or after four dropped rows. -/
def row12 (gap : Option (Nat × Nat × Nat) := none) : Row := { count := 5012, time := 9000, gap := gap }

/-- Slot 0 with row 12 the newest, a class 5 of at most 16 rows, and lane 3 as given. -/
def edgeOf (x : SegLane) (gap : Option (Nat × Nat × Nat) := none) : State :=
  let s := set [(R.CMD_SEQ_CLASS 5, 4 + 4 * 2 ^ 13)] fetSt
  { s with intk := { s.intk with slots := [(0, { hist := [h0], recent := [(12, row12 gap)], lanes := if x = {} then [] else [(3, x)] })] } }

theorem edge_ready (x : SegLane) (gap : Option (Nat × Nat × Nat)) : (edgeOf x gap).fetReady 0 4 fet1 := ⟨rfl, rfl, rfl, rfl, rfl, rfl, 0x1000, rfl⟩

def openLane : SegLane := { opened := true, rid := 4, cls := 5, lead := 5010, leadRow := 2, rows := 3 }

def e03_1 : State := edgeOf {}

def e03_2 : State := edgeOf {} (some (5008, 5011, 4))

def e03_3 : State := edgeOf openLane

def e03_4 : State := edgeOf { openLane with leadRow := 13 }

def e03_5 : State := edgeOf { openLane with lastEdge := 13 }

def e03_6 : State := edgeOf { cont := some 5 }

def vv (et : BitVec 3) : VecF := ⟨3,1,2,1,et⟩

/-- The hypotheses of `EdgeRecords` are met. -/
theorem witness_EdgeRecords :
    (edgeOf {  }).fetReady 0 4 fet1 ∧
    (edgeOf {  } (some (5008, 5011, 4))).fetReady 0 4 fet1 ∧
    (edgeOf openLane).fetReady 0 4 fet1 ∧
    (edgeOf { openLane with leadRow := 13 }).fetReady 0 4 fet1 ∧
    fet1.handles ∧
    (edgeOf { openLane with lastEdge := 13 }).fetReady 0 4 fet1 ∧
    (edgeOf { cont := some 5 }).fetReady 0 4 fet1 ∧
    (e03_1.winGrant fet1).1.contains (0, 0) = true ∧
    List.find? (fun h => h.1 % 2 ^ 32 == 12) (e03_1.slot (4 * 0 + 0)).hist = some h0 ∧
    (e03_1.seg (4 * 0 + 0) 3).lastEdge ≤ h0.1 ∧
    1 = 1 ∧
    (¬((e03_1.seg (4 * 0 + 0) 3).opened = true ∨ (e03_1.seg (4 * 0 + 0) 3).cont ≠ none)) ∧
    e03_1.rowsFrom (4 * 0 + 0) h0.1 = [e03_1.segRow 0 none 12 row12] ∧
    ((e03_1.segRow 0 none 12 row12).lost + 1 < e03_1.maxRows (if (e03_1.segRow 0 none 12 row12).row.gap.isSome = true then (e03_1.segRow 0 none 12 row12).lostGen else (e03_1.segRow 0 none 12 row12).gen) 5) ∧
    (e03_2.winGrant fet1).1.contains (0, 0) = true ∧
    List.find? (fun h => h.1 % 2 ^ 32 == 12) (e03_2.slot (4 * 0 + 0)).hist = some h0 ∧
    (e03_2.seg (4 * 0 + 0) 3).lastEdge ≤ h0.1 ∧
    (¬((e03_2.seg (4 * 0 + 0) 3).opened = true ∨ (e03_2.seg (4 * 0 + 0) 3).cont ≠ none)) ∧
    e03_2.rowsFrom (4 * 0 + 0) h0.1 = [e03_2.segRow 0 none 12 (row12 (some (5008, 5011, 4)))] ∧
    ((e03_2.segRow 0 none 12 (row12 (some (5008, 5011, 4)))).lost + 1 < e03_2.maxRows (if (e03_2.segRow 0 none 12 (row12 (some (5008, 5011, 4)))).row.gap.isSome = true then (e03_2.segRow 0 none 12 (row12 (some (5008, 5011, 4)))).lostGen else (e03_2.segRow 0 none 12 (row12 (some (5008, 5011, 4)))).gen) 5) ∧
    (e03_3.winGrant fet1).1.contains (0, 0) = true ∧
    List.find? (fun h => h.1 % 2 ^ 32 == 12) (e03_3.slot (4 * 0 + 0)).hist = some h0 ∧
    (e03_3.seg (4 * 0 + 0) 3).lastEdge ≤ h0.1 ∧
    2 = 2 ∧
    (e03_3.seg (4 * 0 + 0) 3).opened = true ∧
    e03_3.cutBy (4 * 0 + 0) (e03_3.seg (4 * 0 + 0) 3) h0.2.2.1 = false ∧
    (e03_4.winGrant fet1).1.contains (0, 0) = true ∧
    List.find? (fun h => h.1 % 2 ^ 32 == 12) (e03_4.slot (4 * 0 + 0)).hist = some h0 ∧
    (e03_4.seg (4 * 0 + 0) 3).lastEdge ≤ h0.1 ∧
    (e03_4.seg (4 * 0 + 0) 3).opened = true ∧
    e03_4.cutBy (4 * 0 + 0) (e03_4.seg (4 * 0 + 0) 3) h0.2.2.1 = false ∧
    (e03_1.winGrant fet1).1.contains (0, 1) = false ∧
    List.find? (fun h => h.1 % 2 ^ 32 == 13) (e03_1.slot (4 * 0 + 0)).hist = none ∧
    (e03_5.winGrant fet1).1.contains (0, 0) = true ∧
    List.find? (fun h => h.1 % 2 ^ 32 == 12) (e03_5.slot (4 * 0 + 0)).hist = some h0 ∧
    (h0.1 < (e03_5.seg (4 * 0 + 0) 3).lastEdge ∨ 1 ≠ 1 ∧ 1 ≠ 2 ∨ 1 = 1 ∧ ((e03_5.seg (4 * 0 + 0) 3).opened = true ∨
      (e03_5.seg (4 * 0 + 0) 3).cont ≠ none) ∨ 1 = 2 ∧ ¬((e03_5.seg (4 * 0 + 0) 3).opened = true ∨ (e03_5.seg (4 * 0 + 0) 3).cont ≠ none)) ∧
    (e03_6.winGrant fet1).1.contains (0, 0) = true ∧
    List.find? (fun h => h.1 % 2 ^ 32 == 12) (e03_6.slot (4 * 0 + 0)).hist = some h0 ∧
    (h0.1 < (e03_6.seg (4 * 0 + 0) 3).lastEdge ∨ 1 ≠ 1 ∧ 1 ≠ 2 ∨ 1 = 1 ∧ ((e03_6.seg (4 * 0 + 0) 3).opened = true ∨
      (e03_6.seg (4 * 0 + 0) 3).cont ≠ none) ∨ 1 = 2 ∧ ¬((e03_6.seg (4 * 0 + 0) 3).opened = true ∨ (e03_6.seg (4 * 0 + 0) 3).cont ≠ none)) ∧
    (h0.1 < (e03_1.seg (4 * 0 + 0) 3).lastEdge ∨ 2 ≠ 1 ∧ 2 ≠ 2 ∨ 2 = 1 ∧ ((e03_1.seg (4 * 0 + 0) 3).opened = true ∨
      (e03_1.seg (4 * 0 + 0) 3).cont ≠ none) ∨ 2 = 2 ∧ ¬((e03_1.seg (4 * 0 + 0) 3).opened = true ∨ (e03_1.seg (4 * 0 + 0) 3).cont ≠ none)) := by
  refine ⟨edge_ready _ _, edge_ready _ _, edge_ready _ _, edge_ready _ _, fet1_handles, edge_ready _ _, edge_ready _ _, ?_⟩
  and_intros <;> decide

/-- The hypotheses of `VectorLanes` are met. -/
theorem witness_VectorLanes :
    fetSt.fetReady 0 4 fet1 ∧
    ((vv 0).et != 7 && true) = true ∧
    ((vv 4).et != 7 && true) = true ∧
    ((vv 1).et != 7 && true) = true ∧
    ((vv 2).et != 7 && true) = true ∧
    ((vv 3).et != 7 && true) = true ∧
    ((vv 6).et != 7 && true) = true ∧
    ((vv 5).et != 7 && true) = true ∧
    ((vv 0).et != 7 && decide (0 < 4)) = true ∧
    ((vv 1).et != 7 && decide (1 < 4)) = true ∧
    (0 != 7 && 0 == 0) = true ∧
    (4 != 7 && 0 == 0) = true ∧
    (1 != 7 && 0 == 0) = true := by
  refine ⟨fetSt_ready, ?_⟩
  and_intros <;> decide

/-- The hypotheses of `VectorComparesAndMoves` are met. -/
theorem witness_VectorComparesAndMoves :
    fetSt.fetReady 0 4 fet1 ∧
    (vv 0).et ≠ 7 ∧
    3 < 8 ∧
    (vv 4).et ≠ 7 ∧
    (vv 1).et ≠ 7 ∧
    (0 ≠ 7 ∧ 0 = 0) := by
  refine ⟨fetSt_ready, ?_⟩
  and_intros <;> decide

/-- The hypotheses of `ReductionsAndPredicates` are met. -/
theorem witness_ReductionsAndPredicates :
    fetSt.fetReady 0 4 fet1 ∧
    (0 ≠ 7 ∧ 0 = 0 ∧ True) ∧
    (4 ≠ 7 ∧ 0 = 0 ∧ True) ∧
    (1 ≠ 7 ∧ 0 = 0 ∧ True) ∧
    (2 ≠ 7 ∧ 0 = 0 ∧ 2 ≤ 2) ∧
    (0 = 0 ∧ 0 = 0 ∧ 7 < 8 ∧ 1 < 8 ∧ 2 < 8) ∧
    ((0 = 0 ∧ 0 = 0 ∧ 7 < 8 ∧ 1 < 8 ∧ 0 < 8) ∧ 0 = 0) ∧
    (0 = 0 ∧ 0 = 0 ∧ 7 < 8 ∧ 0 = 0) ∧
    (0 = 0 ∧ 0 = 0 ∧ 2 < 8 ∧ 0 = 0) ∧
    0 = 0 ∧
    1 ≠ 7 ∧
    5 < 8 ∧
    (0 = 0 ∧ 1 ≠ 7 ∧ 2 < 8 ∧ 0 = 0) := by
  refine ⟨fetSt_ready, ?_⟩
  and_intros <;> decide

/-- The hypotheses of `IntegerReductions` are met. -/
theorem witness_IntegerReductions :
    0 < 4 ∧
    1 < 4 := by
  and_intros <;> decide

/-- The hypotheses of `ConversionsAndSpecialFunctions` are met. -/
theorem witness_ConversionsAndSpecialFunctions :
    fetSt.fetReady 0 4 fet1 ∧
    (0 == 0 && 0 == 0) = true ∧
    cvtLegal { d := 5, a := 1, sfmt := 12, pred := 0, dfmt := 3, mode := 0, part := 1 } = true ∧
    0 ≠ 4 ∧
    cvtLegal { d := 5, a := 1, sfmt := 3, pred := 0, dfmt := 12, mode := 0, part := 1 } = true := by
  refine ⟨fetSt_ready, ?_⟩
  and_intros <;> decide

end Sys2Proof.Tests.W03

namespace Sys2Proof.Tests.W04

open Sys2Proof Sys2Proof.Machine Sys2Proof.Tests

set_option maxRecDepth 100000
set_option exponentiation.threshold 1024

/-! ### Sync objects, queues, traps and waits -/

abbrev d := Decidable.decide

def a04_1 : Barrier := { pour := 1, ctx := 1, parts := [0], arrived := [] }

def wq : QueF := ⟨0,14,5,0⟩

def wb : QueF := ⟨5,14,6,0⟩

def wt : QueF := ⟨0,5,0,0⟩

def a04_2 : Fet := { fet2 1 with wait := .evwait wq }

def a04_3 : Fet := { fet2 1 with wait := .bar wb }

def a04_4 : Fet := { fet2 1 with wait := .cwait wt }

def a04_5 : Fet := { fet2 1 with wait := .ldw wt }

def barSt : State := { syncSt with fab := { syncSt.fab with bars := [(1, { pour := 1, ctx := 1, epoch := 2 ^ 32 - 1, parts := [0], arrived := [0] })] } }

def a04_6 : Barrier := { pour := 1, ctx := 1, epoch := 2 ^ 32 - 1, parts := [0], arrived := [0] }

/-- The hypotheses of `SyncObjects` are met. -/
theorem witness_SyncObjects :
    syncSt.fetReady 0 4 fet1 ∧
    0 = 0 ∧
    syncSt.evcOwned fet1.pour (1 / 256 % 32) (1 % 256) = true ∧
    syncSt.gateOwned fet1.pour (3 % 1024) = true ∧
    1 / 256 % 32 = 0 / 4 ∧
    evcReached (syncSt.evc (1 / 256 % 32) (1 % 256)) (7 % 2 ^ 32) = true ∧
    evcReached (syncSt.evc (1 / 256 % 32) (1 % 256)) (64 % 2 ^ 32) = false ∧
    KMap.find syncSt.fab.bars (1 % 64) = some a04_1 ∧
    a04_1.pour = fet1.pour ∧
    epochPassed a04_1.epoch (18446744073709551613 % 2 ^ 32) = true ∧
    epochPassed a04_1.epoch (0 % 2 ^ 32) = false := by
  refine ⟨syncSt_ready, ?_⟩
  and_intros <;> decide

/-- The hypotheses of `QueuedCommands` are met. -/
theorem witness_QueuedCommands :
    ldqSt.fetReady 0 4 fet1 ∧
    fullSt.fetReady 0 4 fet1 ∧
    (fet2St 1).fetReady 0 4 (fet2 1) ∧
    0 = 0 ∧
    1 ≤ 1 ∧
    64 % 64 = 0 ∧
    ldqSt.mouldOk (0 / 4) fet1.ctx 64 64 = true ∧
    (ldqSt.cru (2 * (0 / 4) + 1)).queue.length < 32 ∧
    0 ≤ 1 ∧
    fullSt.mouldOk (0 / 4) fet1.ctx 64 64 = true ∧
    32 ≤ (fullSt.cru (2 * (0 / 4) + 0)).queue.length ∧
    (ldqSt.ladle (0 / 4) 1).length < 16 ∧
    ldqSt.lFieldBad (0 / 4) fet1.ctx (List.map (fun k => Mem.readLE ldqSt.fab.mould (mouldAt (0 / 4) (64 + 4 * k)) 4) (List.range 16)) = false ∧
    ldqSt.lRecordOk (0 / 4) fet1.ctx (List.map (fun k => Mem.readLE ldqSt.fab.mould (mouldAt (0 / 4) (64 + 4 * k)) 4) (List.range 16)) = true ∧
    16 ≤ (fullSt.ladle (0 / 4) 0).length ∧
    (0 = 0 ∧ 0 = 0) ∧
    (0 = 0 ∧ 0 = 0 ∧ 0 = 0 ∧ (fet2 1).settled 0 ((fet2 1).rx 5) = true) ∧
    (0 = 0 ∧ 0 = 0 ∧ 0 = 0 ∧ (fet2 1).settled 1 ((fet2 1).rx 5) = true) := by
  refine ⟨ldqSt_ready, fullSt_ready, fet2St_ready1, ?_⟩
  and_intros <;> decide

/-- The hypotheses of `SystemInstructions` are met. -/
theorem witness_SystemInstructions :
    fetSt.fetReady 0 4 fet1 ∧
    fet1.handles ∧
    (fet2St 1).fetReady 0 4 (fet2 1) ∧
    (0 = 0 ∧ (67 ∈ csrRw ∨ 67 ∈ csrRo)) ∧
    67 ≠ 64 ∧
    (0 = 0 ∧ (32 ∈ csrRw ∨ 32 ∈ csrRo)) ∧
    32 ≠ 64 ∧
    (0 = 0 ∧ 1 ∈ csrRw ∧ (1 = 1 → 3 % 8 < 4)) ∧
    (0 = 0 ∧ 1 = 1 ∧ 4 ≤ 7 % 8) ∧
    (0 = 0 ∧ 0 = 0) ∧
    (0 = 0 ∧ 0 = 0 ∧ 0 = 0) ∧
    ((0 = 0 ∧ 0 = 0 ∧ 0 = 0) ∧ BitVec.getLsbD ((fet2 1).rc 34) 63 = true) ∧
    ((0 = 0 ∧ 0 = 0 ∧ 0 = 0) ∧ BitVec.getLsbD (fet1.rc 34) 63 = false) := by
  refine ⟨fetSt_ready, fet1_handles, fet2St_ready1, ?_⟩
  and_intros <;> decide

/-- The hypotheses of `CheckpointsAndTaskEnds` are met. -/
theorem witness_CheckpointsAndTaskEnds :
    (fet2St 1).fetReady 0 4 (fet2 1) ∧
    (fet2St 0).fetReady 0 4 (fet2 0) ∧
    (fet2St 2).fetReady 0 4 (fet2 2) ∧
    (fet2 2).handles ∧
    0 = 0 ∧
    (fet2 1).outstanding = false ∧
    (fet2 1).failed = false ∧
    (fet2St 1).pour (fet2 1).pour = some pour1 ∧
    (fet2 1).task < pour1.tasks.length ∧
    (fet2St 1).taskDecl (fet2 1).pour (fet2 1).task = some { entry := 4096, start := none, bound := false, stripe := false, seq := false, setB := false, regions := [] } ∧
    false = false ∧
    (fet2St 1).ctx (fet2 1).ctx = some job1 ∧
    (job1.cls ≠ 2 ∨ ∃ k < pour1.tasks.length, k ≠ (fet2 1).task ∧ (nth pour1.tasks k {  }).st ≠ 3) ∧
    (fet2 0).outstanding = true ∧
    (0 = 0 ∧ 0 = 0 ∧ (fet2 2).outstanding = false ∧ (fet2 2).failed = true) ∧
    (0 = 0 ∧ 0 = 0 ∧ 0 = 0 ∧ (fet2 2).outstanding = false ∧ (fet2 2).failed = true) := by
  refine ⟨fet2St_ready1, fet2St_ready0, fet2St_ready2, fet2_handles, ?_⟩
  and_intros <;> decide

/-- The hypotheses of `Waits` are met. -/
theorem witness_Waits :
    (waitSt (WaitOp.evwait wq)).fet 0 = (waitSt (WaitOp.evwait wq)).fet 0 ∧
    (waitSt (WaitOp.evwait wq)).fabricUp = true ∧
    (waitSt (WaitOp.evwait wq)).stopped (0 / 4) a04_2.ctx = false ∧
    a04_2.wait = a04_2.wait ∧
    (waitSt (WaitOp.evwait wq)).evcOwned a04_2.pour (1 / 256 % 32) (1 % 256) = true ∧
    1 / 256 % 32 = 0 / 4 ∧
    evcReached ((waitSt (WaitOp.evwait wq)).evc (1 / 256 % 32) (1 % 256)) (7 % 2 ^ 32) = true ∧
    (waitSt (WaitOp.bar wb)).fet 0 = (waitSt (WaitOp.bar wb)).fet 0 ∧
    (waitSt (WaitOp.bar wb)).fabricUp = true ∧
    (waitSt (WaitOp.bar wb)).stopped (0 / 4) a04_3.ctx = false ∧
    a04_3.wait = a04_3.wait ∧
    KMap.find (waitSt (WaitOp.bar wb)).fab.bars (1 % 64) = some a04_1 ∧
    a04_1.pour = a04_3.pour ∧
    epochPassed a04_1.epoch (18446744073709551613 % 2 ^ 32) = true ∧
    (waitSt (WaitOp.cwait wt)).fet 0 = (waitSt (WaitOp.cwait wt)).fet 0 ∧
    (waitSt (WaitOp.cwait wt)).fabricUp = true ∧
    (waitSt (WaitOp.cwait wt)).stopped (0 / 4) a04_4.ctx = false ∧
    a04_4.wait = a04_4.wait ∧
    a04_4.settled 0 (a04_4.rx wt.a) = true ∧
    (waitSt (WaitOp.ldw wt)).fet 0 = (waitSt (WaitOp.ldw wt)).fet 0 ∧
    (waitSt (WaitOp.ldw wt)).fabricUp = true ∧
    (waitSt (WaitOp.ldw wt)).stopped (0 / 4) a04_5.ctx = false ∧
    a04_5.wait = a04_5.wait ∧
    a04_5.settled 1 (a04_5.rx wt.a) = true ∧
    KMap.find barSt.fab.bars 1 = KMap.find barSt.fab.bars 1 ∧
    barSt.fabricUp = true ∧
    a04_6.parts ≠ [] ∧
    (∀ k ∈ a04_6.parts, k ∈ a04_6.arrived) := by
  and_intros <;> decide

/-- The hypotheses of `SyncAndIllegalTraps` are met. -/
theorem witness_SyncAndIllegalTraps :
    fetSt.fetReady 0 4 fet1 ∧
    fet1.handles ∧
    (0 = 0 ∧ 0 = 0 ∧ fetSt.evcOwned fet1.pour (7 / 256 % 32) (7 % 256) = false) ∧
    (0 = 0 ∧ 0 = 0 ∧ (fetSt.evcOwned fet1.pour (7 / 256 % 32) (7 % 256) = false ∨ 7 / 256 % 32 ≠ 0 / 4)) ∧
    (0 = 0 ∧ ∀ (b : Barrier), KMap.find fetSt.fab.bars (1 % 64) = some b → b.pour ≠ fet1.pour) ∧
    (0 = 0 ∧ fetSt.gateOwned fet1.pour (1 % 1024) = false) ∧
    63 ≠ 0 ∧
    (0 ≠ 0 ∨ 5 ≠ 0) ∧
    (8 ≤ 8 ∨ 0 ≠ 0) ∧
    7 = 7 ∧
    (3 = 3 ∨ 3 = 0 ∧ (0 ≠ 0 ∨ 1 ≠ 0)) ∧
    (0 ≠ 0 ∨ 2748 ∉ csrRw ∧ 2748 ∉ csrRo) ∧
    (wordLegal 29 = false ∧ 29 / 2 ^ 27 % 32 ≠ 31) := by
  refine ⟨fetSt_ready, fet1_handles, ?_⟩
  and_intros <;> decide

end Sys2Proof.Tests.W04

namespace Sys2Proof.Tests.W05

open Sys2Proof Sys2Proof.Machine Sys2Proof.Tests

set_option maxRecDepth 100000
set_option exponentiation.threshold 1024

/-! ### Crucibles -/

theorem ra : rowsApart 6 2 3 1 := by unfold rowsApart; decide

theorem ra2 : rowsApart 6 2 2 1 := by unfold rowsApart; decide

theorem ra1 : rowsApart 1 2 2 1 := by unfold rowsApart; decide

/-- Crucible 0 with a command to load behind one that runs, or not. -/
def loadSt (w : List Nat) (run : Option CDesc := none) : State :=
  let s := cruSt [cdesc 0 w, cdesc 0 []]
  { s with fab := { s.fab with crus := [(0, { s.cru 0 with run := run })] } }

def badW : List Nat := 4 :: mmaWords.tail

/-- The `MMA` with its second operand at virtual address 0x200. -/
def virtW : List Nat := (mmaWords.set 5 (fmtWord 5 + 2 ^ 16)).set 12 (2 ^ 31 + 0x4000)

def runLd : State := loadSt mmaWords (some (cdesc 2 mmaWords))

def badW2 : List Nat := (mmaWords.set 6 (127 + 8192)).set 11 1

theorem cruRun_pour : ∀ p, (cruRun (cdesc 3 mmaWords)).pour 1 = some p → p.st ≠ 3 := by
  intro p h; cases (show some pour1 = some p from h); decide

theorem cruRun_ctx : ∀ x, (cruRun (cdesc 3 mmaWords)).ctx 1 = some x → x.endedAt = none := by
  intro x h; cases (show some job1 = some x from h); rfl

theorem cruRun_next : ∀ e l, ((cruRun (cdesc 3 mmaWords)).cru 0).queue = e :: l → e.stage ≠ 4 := by
  intro e l h; cases (show [cdesc 0 []] = e :: l from h); decide

def pr0 : PermitReq := { unit := 0, charge := 100, at' := 0 }

def prSt : State := { cruSt [cdesc 1 mmaWords, cdesc 0 []] with permits := { waiting := [pr0], window := 10000, used := 6 } }

def prL : PermitReq := { ladle := true, unit := 1, charge := 100, at' := 0 }

def prLSt : State := { ladleSt { copy1 with permitWait := true } with permits := { waiting := [{ prL with unit := 0 }], window := 10000, used := 6 } }

/-- The hypotheses of `AccumulatingCommands` are met. -/
theorem witness_AccumulatingCommands :
    (cruRun (cdesc 2 mmaWords)).mayRun 0 (cdesc 2 mmaWords) ∧
    (cruRun (cdesc 2 (convWords 2))).mayRun 0 (cdesc 2 (convWords 2)) ∧
    (cruRun (cdesc 2 (convWords 3))).mayRun 0 (cdesc 2 (convWords 3)) ∧
    (cruRun (cdesc 2 (poolWords 0))).mayRun 0 (cdesc 2 (poolWords 0)) ∧
    (cruRun (cdesc 2 (ewiseWords 0))).mayRun 0 (cdesc 2 (ewiseWords 0)) ∧
    (cruRun (cdesc 2 (ewiseWords 1))).mayRun 0 (cdesc 2 (ewiseWords 1)) ∧
    (cruRun (cdesc 2 (ewiseWords 2))).mayRun 0 (cdesc 2 (ewiseWords 2)) ∧
    dType (cdesc 2 mmaWords).words = 1 ∧
    true = true ∧
    ((cruRun (cdesc 2 mmaWords)).cru 0).tiles.length = 4 ∧
    (dRect (cdesc 2 mmaWords).words).c0 + (dRect (cdesc 2 mmaWords).words).n ≤ 64 ∧
    dType (cdesc 2 (convWords 2)).words = 2 ∧
    ((cruRun (cdesc 2 (convWords 2))).cru 0).tiles.length = 4 ∧
    (dRect (cdesc 2 (convWords 2)).words).c0 + (dRect (cdesc 2 (convWords 2)).words).n ≤ 64 ∧
    dType (cdesc 2 (convWords 3)).words = 3 ∧
    ((cruRun (cdesc 2 (convWords 3))).cru 0).tiles.length = 4 ∧
    (dRect (cdesc 2 (convWords 3)).words).c0 + (dRect (cdesc 2 (convWords 3)).words).n ≤ 64 ∧
    dType (cdesc 2 (poolWords 0)).words = 4 ∧
    (dOp (cdesc 2 (poolWords 0)).words == 0) = true ∧
    ((cruRun (cdesc 2 (poolWords 0))).cru 0).tiles.length = 4 ∧
    (dRect (cdesc 2 (poolWords 0)).words).c0 + (dRect (cdesc 2 (poolWords 0)).words).n ≤ 64 ∧
    dType (cdesc 2 (ewiseWords 0)).words = 5 ∧
    (dOp (cdesc 2 (ewiseWords 0)).words == 0) = true ∧
    ((cruRun (cdesc 2 (ewiseWords 0))).cru 0).tiles.length = 4 ∧
    (dRect (cdesc 2 (ewiseWords 0)).words).c0 + (dRect (cdesc 2 (ewiseWords 0)).words).n ≤ 64 ∧
    dType (cdesc 2 (ewiseWords 1)).words = 5 ∧
    (dOp (cdesc 2 (ewiseWords 1)).words == 1) = true ∧
    ((cruRun (cdesc 2 (ewiseWords 1))).cru 0).tiles.length = 4 ∧
    (dRect (cdesc 2 (ewiseWords 1)).words).c0 + (dRect (cdesc 2 (ewiseWords 1)).words).n ≤ 64 ∧
    dType (cdesc 2 (ewiseWords 2)).words = 5 ∧
    (dOp (cdesc 2 (ewiseWords 2)).words == 2) = true ∧
    ((cruRun (cdesc 2 (ewiseWords 2))).cru 0).tiles.length = 4 ∧
    (dRect (cdesc 2 (ewiseWords 2)).words).c0 + (dRect (cdesc 2 (ewiseWords 2)).words).n ≤ 64 := by
  refine ⟨cruRun_mayRun _, cruRun_mayRun _, cruRun_mayRun _, cruRun_mayRun _, cruRun_mayRun _, cruRun_mayRun _, cruRun_mayRun _, ?_⟩
  and_intros <;> decide

/-- The hypotheses of `IntegerMatrixProduct` are met. -/
theorem witness_IntegerMatrixProduct :
    ((tref mmaWords 2).fmt = 1 ∨ (tref mmaWords 2).fmt = 3 ∨ (tref mmaWords 2).fmt = 4 ∨ (tref mmaWords 2).fmt = 5 ∨ (tref mmaWords 2).fmt = 6) ∧
    ((tref mmaWords 4).fmt = 1 ∨ (tref mmaWords 4).fmt = 3 ∨ (tref mmaWords 4).fmt = 4 ∨ (tref mmaWords 4).fmt = 5 ∨ (tref mmaWords 4).fmt = 6) ∧
    dType mmaWords = 1 ∧
    (tref mmaWords 2).space = 0 ∧
    (tref mmaWords 4).space = 0 := by
  and_intros <;> decide

/-- The hypotheses of `WritingCommands` are met. -/
theorem witness_WritingCommands :
    (cruRun (cdesc 2 layoutWords)).mayRun 0 (cdesc 2 layoutWords) ∧
    rowsApart 6 2 3 1 ∧
    (cruRun (cdesc 2 (poolWords 1))).mayRun 0 (cdesc 2 (poolWords 1)) ∧
    rowsApart 1 2 2 1 ∧
    (cruRun (cdesc 2 (poolWords 2))).mayRun 0 (cdesc 2 (poolWords 2)) ∧
    (cruRun (cdesc 2 moveWords)).mayRun 0 (cdesc 2 moveWords) ∧
    rowsApart 6 2 2 1 ∧
    dType (cdesc 2 layoutWords).words = 9 ∧
    (decide ((tref (cdesc 2 layoutWords).words 2).fmt ≠ 13) && decide ((tref (cdesc 2 layoutWords).words 2).fmt ≠ 14) && decide ((tref (cdesc 2 layoutWords).words 2).fmt ≠ 15) && (decide ((tref (cdesc 2 layoutWords).words 4).fmt ≠ 13) && decide ((tref (cdesc 2 layoutWords).words 4).fmt ≠ 14) && decide ((tref (cdesc 2 layoutWords).words 4).fmt ≠ 15)) && dfld (cdesc 2 layoutWords).words 7 0 1 == 0) = true ∧
    0 < fmtBits (tref (cdesc 2 layoutWords).words 4).fmt ∧
    dType (cdesc 2 (poolWords 1)).words = 4 ∧
    (dOp (cdesc 2 (poolWords 1)).words == 1) = true ∧
    0 < fmtBits (tref (cdesc 2 (poolWords 1)).words 4).fmt ∧
    dType (cdesc 2 (poolWords 2)).words = 4 ∧
    (dOp (cdesc 2 (poolWords 2)).words == 2) = true ∧
    0 < fmtBits (tref (cdesc 2 (poolWords 2)).words 4).fmt ∧
    dType (cdesc 2 moveWords).words = 6 ∧
    (dfld (cdesc 2 moveWords).words 7 30 1 == 0 && (tref (cdesc 2 moveWords).words 2).fmt != 15) = true ∧
    0 < fmtBits (tref (cdesc 2 moveWords).words 2).fmt := by
  refine ⟨cruRun_mayRun _, ra, cruRun_mayRun _, ra1, cruRun_mayRun _, cruRun_mayRun _, ra2, ?_⟩
  and_intros <;> decide

/-- The hypotheses of `DescriptorLoads` are met. -/
theorem witness_DescriptorLoads :
    ((loadSt mmaWords).cru 0).queue = [cdesc 0 mmaWords, cdesc 0 []] ∧
    (loadSt mmaWords).crucibleUp = true ∧
    (cdesc 0 mmaWords).stage = 0 ∧
    (cdesc 0 mmaWords).parked = none ∧
    (loadSt mmaWords).stopped (0 / 2) (cdesc 0 mmaWords).ctx = false ∧
    (loadSt mmaWords).dReason (0 / 2) (cdesc 0 mmaWords).ctx 0 (cdesc 0 mmaWords).words ((loadSt mmaWords).pageList (0 / 2) (cdesc 0 mmaWords).ctx (cdesc 0 mmaWords).words) (cdesc 0 mmaWords).pour (cdesc 0 mmaWords).task = 0 ∧
    dCost (cdesc 0 mmaWords).words ≤ 50000 ∧
    (loadSt mmaWords).stageClash 0 (cdesc 0 mmaWords).words ((loadSt mmaWords).pageList (0 / 2) (cdesc 0 mmaWords).ctx (cdesc 0 mmaWords).words) = false ∧
    (loadSt mmaWords).fetchRes (cdesc 0 mmaWords).ctx (fetchRanges (cdesc 0 mmaWords).words ((loadSt mmaWords).pageList (0 / 2) (cdesc 0 mmaWords).ctx (cdesc 0 mmaWords).words)) = none ∧
    ({} : LineErr).bad = false ∧
    (loadSt mmaWords).fetchPoison (cdesc 0 mmaWords).ctx (fetchRanges (cdesc 0 mmaWords).words ((loadSt mmaWords).pageList (0 / 2) (cdesc 0 mmaWords).ctx (cdesc 0 mmaWords).words)) = none ∧
    (runLd.cru 0).queue = [cdesc 0 mmaWords, cdesc 0 []] ∧
    runLd.crucibleUp = true ∧
    runLd.stopped (0 / 2) (cdesc 0 mmaWords).ctx = false ∧
    runLd.dReason (0 / 2) (cdesc 0 mmaWords).ctx 0 (cdesc 0 mmaWords).words (runLd.pageList (0 / 2) (cdesc 0 mmaWords).ctx (cdesc 0 mmaWords).words) (cdesc 0 mmaWords).pour (cdesc 0 mmaWords).task = 0 ∧
    runLd.stageClash 0 (cdesc 0 mmaWords).words (runLd.pageList (0 / 2) (cdesc 0 mmaWords).ctx (cdesc 0 mmaWords).words) = false ∧
    runLd.fetchRes (cdesc 0 mmaWords).ctx (fetchRanges (cdesc 0 mmaWords).words (runLd.pageList (0 / 2) (cdesc 0 mmaWords).ctx (cdesc 0 mmaWords).words)) = none ∧
    runLd.fetchPoison (cdesc 0 mmaWords).ctx (fetchRanges (cdesc 0 mmaWords).words (runLd.pageList (0 / 2) (cdesc 0 mmaWords).ctx (cdesc 0 mmaWords).words)) = none ∧
    ((loadSt badW).cru 0).queue = [cdesc 0 badW, cdesc 0 []] ∧
    (loadSt badW).crucibleUp = true ∧
    (cdesc 0 badW).stage = 0 ∧
    (cdesc 0 badW).parked = none ∧
    (loadSt badW).stopped (0 / 2) (cdesc 0 badW).ctx = false ∧
    (loadSt badW).dReason (0 / 2) (cdesc 0 badW).ctx 0 (cdesc 0 badW).words ((loadSt badW).pageList (0 / 2) (cdesc 0 badW).ctx (cdesc 0 badW).words) (cdesc 0 badW).pour (cdesc 0 badW).task ≠ 0 ∧
    (loadSt badW).mouldOk (0 / 2) (cdesc 0 badW).ctx (dfld (cdesc 0 badW).words 1 0 23) 32 = true ∧
    ((loadSt virtW).cru 0).queue = [cdesc 0 virtW, cdesc 0 []] ∧
    (loadSt virtW).crucibleUp = true ∧
    (cdesc 0 virtW).stage = 0 ∧
    (cdesc 0 virtW).parked = none ∧
    (loadSt virtW).stopped (0 / 2) (cdesc 0 virtW).ctx = false ∧
    (loadSt virtW).dReason (0 / 2) (cdesc 0 virtW).ctx 0 (cdesc 0 virtW).words ((loadSt virtW).pageList (0 / 2) (cdesc 0 virtW).ctx (cdesc 0 virtW).words) (cdesc 0 virtW).pour (cdesc 0 virtW).task = 0 ∧
    dCost (cdesc 0 virtW).words ≤ 50000 ∧
    (loadSt virtW).stageClash 0 (cdesc 0 virtW).words ((loadSt virtW).pageList (0 / 2) (cdesc 0 virtW).ctx (cdesc 0 virtW).words) = false ∧
    (loadSt virtW).fetchRes (cdesc 0 virtW).ctx (fetchRanges (cdesc 0 virtW).words ((loadSt virtW).pageList (0 / 2) (cdesc 0 virtW).ctx (cdesc 0 virtW).words)) = none ∧
    (loadSt virtW).fetchPoison (cdesc 0 virtW).ctx (fetchRanges (cdesc 0 virtW).words ((loadSt virtW).pageList (0 / 2) (cdesc 0 virtW).ctx (cdesc 0 virtW).words)) = none ∧
    ((loadSt badW2).cru 0).queue = [cdesc 0 badW2, cdesc 0 []] ∧
    (loadSt badW2).crucibleUp = true ∧
    (cdesc 0 badW2).stage = 0 ∧
    (cdesc 0 badW2).parked = none ∧
    (loadSt badW2).stopped (0 / 2) (cdesc 0 badW2).ctx = false ∧
    (loadSt badW2).dReason (0 / 2) (cdesc 0 badW2).ctx 0 (cdesc 0 badW2).words ((loadSt badW2).pageList (0 / 2) (cdesc 0 badW2).ctx (cdesc 0 badW2).words) (cdesc 0 badW2).pour (cdesc 0 badW2).task ≠ 0 ∧
    (loadSt badW2).mouldOk (0 / 2) (cdesc 0 badW2).ctx (dfld (cdesc 0 badW2).words 1 0 23) 32 = true := by
  and_intros <;> decide

/-- The hypotheses of `CrucibleCompletes` are met. -/
theorem witness_CrucibleCompletes :
    (∀ (e : CDesc) (l : List CDesc), ((cruRun (cdesc 3 mmaWords)).cru 0).queue = e :: l → e.stage ≠ 4) ∧
    (∀ (p : Pour), (cruRun (cdesc 3 mmaWords)).pour 1 = some p → p.st ≠ 3) ∧
    (∀ (x : Ctx), (cruRun (cdesc 3 mmaWords)).ctx 1 = some x → x.endedAt = none) ∧
    ((cruRun (cdesc 3 mmaWords)).cru 0).run = some (cdesc 3 mmaWords) ∧
    (cdesc 3 mmaWords).stage = 3 ∧
    (cdesc 3 mmaWords).code = 0 ∧
    List.find? (fun o => o.opcode == 6 && o.started && nth o.args 0 0 % 16 == (cdesc 3 mmaWords).ctx) (cruRun (cdesc 3 mmaWords)).host.orders = none ∧
    (dUsesTile (cdesc 3 mmaWords).words = true → ((cruRun (cdesc 3 mmaWords)).tile 0 (dfld (cdesc 3 mmaWords).words 0 4 2)).stale = false) ∧
    (cruRun (cdesc 3 mmaWords)).mouldOk (0 / 2) (cdesc 3 mmaWords).ctx (dfld (cdesc 3 mmaWords).words 1 0 23) 32 = true := by
  refine ⟨cruRun_next, cruRun_pour, cruRun_ctx, ?_⟩
  and_intros <;> decide

/-- The hypotheses of `Permits` are met. -/
theorem witness_Permits :
    prSt.permits.waiting = [pr0] ∧
    prSt.crucibleUp = true ∧
    ((if (prSt.at' 3).tim.ns / 100000 = prSt.permits.window then prSt.permits.used else 0) + pr0.charge ≤ prSt.permitBudget) ∧
    (pr0.ladle = true ∨ (prSt.at' 3).recentGrants.length < 8) ∧
    ((if (prSt.at' 100000).tim.ns / 100000 = prSt.permits.window then prSt.permits.used else 0) + pr0.charge ≤ prSt.permitBudget) ∧
    (pr0.ladle = true ∨ (prSt.at' 100000).recentGrants.length < 8) ∧
    (prSt.at' 100000).tim.ns / 100000 ≠ prSt.permits.window ∧
    (prSt.at' 200000).tim.ns / 100000 ≠ prSt.permits.window ∧
    prLSt.permits.waiting = [{ prL with unit := 0 }] ∧
    prLSt.crucibleUp = true ∧
    ((if (prLSt.at' 3).tim.ns / 100000 = prLSt.permits.window then prLSt.permits.used else 0) + prL.charge ≤ prLSt.permitBudget) ∧
    (prL.ladle = true ∨ (prLSt.at' 3).recentGrants.length < 8) := by
  and_intros <;> decide

end Sys2Proof.Tests.W05

namespace Sys2Proof.Tests.W06

open Sys2Proof Sys2Proof.Machine Sys2Proof.Tests

set_option maxRecDepth 100000
set_option exponentiation.threshold 1024

/-! ### Ladles and memory faults -/

def big : LDesc := ldesc 0 0 bigWords

def fl : LDesc := ldesc 1 1 fillWords

def fltSt : State :=
  { fetSt with fab := { fetSt.fab with pt2 := [], pt4 := [(2 ^ 36 + 1, { frame := 0x5000, tier := 1 })], fets := [(0, { fet1 with wait := .park 2 0x1008 })] }
               hostMem := Mem.writeBytes [] 0x105000 [1, 2, 3]
               regs := KMap.put fetSt.regs R.MEM_HOST_TIER_BASE 0x100000 }

def fs2 : State := ((fltSt.at' 5).bringPage 1 0x1008 0x3000).getD {}

def a06_1 : Pte := { frame := 0x5000, tier := 1 }

def fltUp : State := set [(R.CMD_HOST_STATE, 1)] fltSt

/-- Context 1 with every frame of device memory mapped, the host attached and a host tier of 2 MiB. -/
def tierSt : State :=
  let s := set [(R.CMD_HOST_STATE, 1), (R.MEM_HOST_TIER_SIZE, 2)] jobSt
  { s with fab := { s.fab with dram := [(5, 7)], pt2 := (2 ^ 27, { frame := 0 }) :: (List.range 63487).map (fun i => (2 ^ 27 + 1 + i, { frame := (i + 1) * 2 ^ 21 })) } }

theorem tierSt_full : tierSt.freeFrames = [] := by
  unfold State.freeFrames
  rw [List.filter_eq_nil_iff]
  intro f hf
  have hf := List.mem_range.mp hf
  have h : tierSt.fab.pt2.any (fun e => e.2.inDram && e.2.frame / 2 ^ 21 == f) = true := by
    rw [List.any_eq_true]
    rcases Nat.eq_zero_or_pos f with h0 | h0
    · exact ⟨(2 ^ 27, { frame := 0 }), List.mem_cons_self, by subst h0; rfl⟩
    · refine ⟨(2 ^ 27 + 1 + (f - 1), { frame := (f - 1 + 1) * 2 ^ 21 }), List.mem_cons_of_mem _ (List.mem_map.mpr ⟨f - 1, List.mem_range.mpr (by omega), rfl⟩), ?_⟩
      have : (f - 1 + 1) * 2 ^ 21 / 2 ^ 21 = f := by omega
      simp only [this, beq_self_eq_true, Bool.and_true]; rfl
  simp only [h]; simp

theorem tierSt_tier : tierSt.tierFree = some 0 := by
  have h : tierSt.fab.pt2.any (fun e => e.2.onHost && e.2.frame / 2 ^ 21 == 0) = false := by
    rw [List.any_eq_false]
    intro e he
    rcases List.mem_cons.mp he with rfl | he
    · decide
    · obtain ⟨k, -, rfl⟩ := List.mem_map.mp he
      show ¬ ((false || (false && false)) && _) = true
      simp
  have h2 : tierSt.rd R.MEM_HOST_TIER_SIZE = 2 := rfl
  unfold State.tierFree
  rw [h2]
  show List.findSome? _ [0] = _
  rw [List.findSome?_cons]
  simp only [h]; rfl

theorem tierSt_out : ∃ s2, tierSt.sendOut 1 0 = some s2 := by
  have h : KMap.find tierSt.fab.pt2 134217728 = some { frame := 0 } := rfl
  have h2 : (!(match tierSt.ctx 1 with | some c => c.cls == 2 | none => false) || !({ frame := 0 } : Pte).inDram || ({ frame := 0 } : Pte).prot ||
    tierSt.pinned 1 0 2097152 || !tierSt.attached || !tierSt.freeFrames.isEmpty) = false := by
    rw [tierSt_full]; rfl
  unfold State.sendOut
  simp only [Nat.reduceMul, Nat.reducePow, Nat.reduceDiv, Nat.reduceAdd, Nat.reduceMod, Nat.reduceSub, h, tierSt_tier]
  exact ⟨_, if_neg (by rw [Bool.not_eq_true]; exact h2)⟩

def ts2 : State := (tierSt.sendOut 1 0).getD {}

theorem tierSt_ts2 : tierSt.sendOut 1 0 = some ts2 := by
  obtain ⟨s2, h⟩ := tierSt_out
  unfold ts2; rw [h]; rfl

theorem tierSt_wf : tierSt.memWf = true := rfl

def e06_1 : LineErr := { inner := true, wrong := [3] }

def e06_2 : LineErr := { wrong := [0, 2, 4], near := true }

def e06_3 : LineErr := { wrong := [1, 3, 5] }

def e06_4 : State := { up with fab := { up.fab with poison := [7] } }

/-- A copy from virtual memory to the mould, its first page one of host memory, that a JOB pour has started, and another pour of its context. -/
def hostCopy : LDesc := ldesc 1 0 (copyWords.set 0 (384 + 8))

def hostLd : State :=
  let s := ladleSt hostCopy
  { s with fab := { s.fab with pt2 := [], pt4 := [(2 ^ 36, { frame := 0x100000, host := true })] }
           sch := { s.sch with pours := [pour1, { pour1 with id := 2 }] } }

/-- The hypotheses of `LadleTransfers` are met. -/
theorem witness_LadleTransfers :
    (ladleSt copy1).lRead 0 1 copyWords 1 none = Sum.inl ((ladleSt copy1).mread 0 320 64) ∧
    (ladleSt big).ladle 0 0 = (ladleSt big).ladle 0 0 ∧
    (ladleSt big).fabricUp = true ∧
    (ladleSt big).stopped 0 big.ctx = false ∧
    big.state < 2 ∧
    big.permitWait = false ∧
    2 ^ 20 < big.left ∧
    big.permit = false ∧
    (ladleSt copy1).ladle 0 0 = (ladleSt copy1).ladle 0 0 ∧
    (ladleSt copy1).fabricUp = true ∧
    (ladleSt copy1).stopped 0 copy1.ctx = false ∧
    copy1.state < 2 ∧
    copy1.permitWait = false ∧
    (copy1.left ≤ 2 ^ 20 ∨ copy1.permit = true) ∧
    copy1.issued ≤ copy1.done ∧
    copy1.done < lTotal copy1.words ∧
    (lKinds copy1.words).2 = 0 ∧
    (ladleSt copy1).mouldOk 0 copy1.ctx (lDst copy1.words copy1.done) (lEsize copy1.words) = true ∧
    (ladleSt fl).ladle 0 0 = (ladleSt fl).ladle 0 0 ∧
    (ladleSt fl).fabricUp = true ∧
    (ladleSt fl).stopped 0 fl.ctx = false ∧
    fl.state = 1 ∧
    fl.issued ≤ fl.done ∧
    fl.done ≤ lTotal fl.words ∧
    (fl.left ≤ 2 ^ 20 ∨ fl.permit = true) ∧
    lFill fl.words = true ∧
    (lKinds fl.words).2 = 0 ∧
    (∀ e < lTotal fl.words, lDst fl.words e % 64 = 0 ∧ (ladleSt fl).mouldOk 0 fl.ctx (lDst fl.words e) (lEsize fl.words) = true) ∧
    (ladleSt fl).lRecordOk 0 fl.ctx fl.words = true := by
  refine ⟨copySt_read, ?_⟩
  and_intros <;> decide

/-- The hypotheses of `FaultsScrubAndPoison` are met. -/
theorem witness_FaultsScrubAndPoison :
    tierSt.memWf = true ∧
    tierSt.sendOut 1 0 = some ts2 ∧
    fltSt.parkedAt (Agent.fettler 0) = fltSt.parkedAt (Agent.fettler 0) ∧
    (fltSt.at' 5).bringPage 1 4104 12288 = (fltSt.at' 5).bringPage 1 4104 12288 ∧
    (∀ (a : Fin 32) (a_1 : Fin 2), Agent.fettler 0 = Agent.ladle a a_1 → fltSt.stopped (↑a) 1 = false) ∧
    fltSt.memWf = true ∧
    KMap.find fltSt.fab.pt2 (1 * 2 ^ 27 + 4104 / 2 ^ 21) = none ∧
    KMap.find fltSt.fab.pt4 (1 * 2 ^ 36 + 4104 / 2 ^ 12) = KMap.find fltSt.fab.pt4 (1 * 2 ^ 36 + 4104 / 2 ^ 12) ∧
    a06_1.onHost = true ∧
    12288 % 2 ^ 12 = 0 ∧
    12288 + 2 ^ 12 ≤ 126976 * 2 ^ 20 ∧
    fltSt.frameFree (1 * 2 ^ 27 + 4104 / 2 ^ 21) (1 * 2 ^ 36 + 4104 / 2 ^ 12) 12288 (2 ^ 12) = true ∧
    up.running = true ∧
    memLines - 1 < memLines ∧
    ({} : LineErr).bad = false ∧
    memLines - 1 ∉ up.fab.poison ∧
    7 < memLines ∧
    e06_1.bad = false ∧
    7 ∉ up.fab.poison ∧
    e06_2.bad = false ∧
    (e06_3.bad = true ∨ 7 ∈ up.fab.poison) ∧
    e06_4.running = true ∧
    (({} : LineErr).bad = true ∨ 7 ∈ e06_4.fab.poison) ∧
    hostLd.ladle 0 0 = hostLd.ladle 0 0 ∧
    (hostCopy.state = 1 ∨ hostCopy.state = 2) ∧
    hostLd.lHost hostCopy.ctx hostCopy.words hostCopy.done = true ∧
    hostLd.pour hostCopy.pour = hostLd.pour hostCopy.pour ∧
    pour1.st = 2 ∧
    pour1.fault = 0 ∧
    hostLd.ctx pour1.ctx = hostLd.ctx pour1.ctx ∧
    job1.cls = 2 := by
  refine ⟨tierSt_wf, tierSt_ts2, ?_⟩
  and_intros <;> decide

end Sys2Proof.Tests.W06

namespace Sys2Proof.Tests.W07

open Sys2Proof Sys2Proof.Machine Sys2Proof.Tests

set_option maxRecDepth 100000
set_option exponentiation.threshold 1024

/-! ### Orders -/

def noNop : Order := { ord 0 0 [] with rsv := 1 }

def ps : Order := ord 0x41 3 []

def pc : Order := ord 0x42 1 []

def fc : Ctx := { job1 with st := 6, code := 0x1234 }

def rs : Order := ord 2 0 [0x10000000, 1, 8 * 256 + 16, 255, 1000]

def ht : Order := ord 3 0 [0xFFFFF000, 1, 0xFFE00000, 3]

def ht0 : Order := ord 3 0 [5, 1, 0, 0]

def bm : Order := ord 4 0 [63 + 64 + 1024, 0xC0000000, 0xFFFF]

def cc : Order := ord 5 0 [0x72, 100000, 1]

def cc1 : Order := ord 5 0 [0x1, 0, 0xFFFFFFFF]

def cd : Order := ord 6 0 [1]

def cl : Order := ord 7 0 []

def fn : Order := ord 8 0 []

def dr : Order := ord 9 0 [0x5E7A0001]

def pl : Order := ord 0x40 1 []

def a07_1 : Program := {prog0 with wellFormed := false}

def pst : Order := ord 0x41 1 [1]

def pcc : Order := ord 0x42 1 [7]

def pcr : Order := { ord 0x42 1 [0] with id := 2 }

def psr : Order := { ord 0x41 1 [1] with id := 1, seq := 4, tag := 0, started := true }

/-- Pour 1 runs: its two tasks, a command in a queue and a transfer; its start and its cancel are open. -/
def cancelSt : State :=
  let s := ordSt pcr (ladleSt { copy1 with pour := 1 })
  { s with host := { s.host with orders := [psr, pcr] }, fab := { s.fab with crus := [(0, { queue := [cdesc 0 mmaWords] })] } }

def cch : Order := ord 0x43 1 []

def runF : State := { jobSt with sch := { jobSt.sch with flasks := [(0, {job := some 1})] } }

def a07_2 : FlaskSt := {job := some 1}

def rem : Order := ord 0x44 1 []

def chC : Ctx := {job1 with st := 4, held := true}

def chSt : State := { jobSt with sch := { jobSt.sch with ctxs := [(0, {}), (1, chC)] } }

def chSt0 : State := { chSt with sch := { chSt.sch with pours := [] } }

def chC1 : Ctx := { chC with sections := [{ kind := 1 }] }

def chSt1 : State := { chSt0 with sch := { chSt0.sch with ctxs := [(0, {}), (1, chC1)] } }

def sb (st : Nat) (t : Nat) : State := set [(R.CMD_SBAR 3 + 8, st * 4 + 16), (R.CMD_SBAR 3, t)] { up with sch := { up.sch with ctxs := [(0, {})] } }

/-- The hypotheses of `RefusedOrders` are met. -/
theorem witness_RefusedOrders :
    (ordSt noNop).canAnswer noNop ∧
    (ordSt ps).canAnswer ps ∧
    (ordSt pc (ctxSt fc)).canAnswer pc ∧
    (ordSt noNop).orderReady 2 5 0 = (ordSt noNop).orderReady 2 5 0 ∧
    (noNop.rsv ≠ 0 ∨ noNop.ctx ≠ 0) ∧
    (ordSt ps).orderReady 2 5 65 = (ordSt ps).orderReady 2 5 65 ∧
    (ordSt ps).ctx ps.ctx = none ∧
    (ordSt pc (ctxSt fc)).orderReady 2 5 66 = (ordSt pc (ctxSt fc)).orderReady 2 5 66 ∧
    (ordSt pc (ctxSt fc)).ctx pc.ctx = (ordSt pc (ctxSt fc)).ctx pc.ctx ∧
    fc.st = 6 ∧
    fc.code ≠ 0 := by
  refine ⟨⟨by decide, ⟨0, _, rfl, rfl⟩, by decide⟩, ⟨by decide, ⟨0, _, rfl, rfl⟩, by decide⟩, ⟨by decide, ⟨0, _, rfl, rfl⟩, by decide⟩, ?_⟩
  and_intros <;> decide

/-- The hypotheses of `WindowOrders` are met. -/
theorem witness_WindowOrders :
    (ordSt (ord 0 0 [])).canAnswer (ord 0 0 []) ∧
    (ordSt (ord 1 0 [383] 0)).canAnswer (ord 1 0 [383] 0) ∧
    (ordSt rs).canAnswer rs ∧
    (ordSt ht).canAnswer ht ∧
    (ordSt ht0).canAnswer ht0 ∧
    (ordSt bm).canAnswer bm ∧
    (ordSt (ord 0 0 [])).orderReady 2 5 0 = (ordSt (ord 0 0 [])).orderReady 2 5 0 ∧
    (ordSt (ord 0 0 [])).orderRefusal (ord 0 0 []) = 0 ∧
    (ord 0 0 []).only [] = true ∧
    (ordSt (ord 1 0 [383] 0)).orderReady 0 5 1 = (ordSt (ord 1 0 [383] 0)).orderReady 0 5 1 ∧
    (ordSt (ord 1 0 [383] 0)).orderRefusal (ord 1 0 [383] 0) = 0 ∧
    ((ord 1 0 [383] 0).only [511] = true ∧ (ord 1 0 [383] 0).queue = 0 ∧ (ord 1 0 [383] 0).w 2 % 16 ≠ 0 ∧ (ord 1 0 [383] 0).w 2 / 16 % 16 ≤ 7) ∧
    (ordSt rs).orderReady 2 5 2 = (ordSt rs).orderReady 2 5 2 ∧
    (ordSt rs).orderRefusal rs = 0 ∧
    (ringArgsOk rs = true ∧ rs.ring ≠ some (rs.w 4 / 256 % 16) ∧ (ordSt rs).host.backlog = [] ∧ (ordSt rs).host.evtLostPending = 0) ∧
    (ordSt ht).orderReady 2 5 3 = (ordSt ht).orderReady 2 5 3 ∧
    (ordSt ht).orderRefusal ht = 0 ∧
    (ht.only [4294967295, 4294967295, 4294967295, 4294967295] = true ∧ (ht.w 4 + 2 ^ 32 * ht.w 5) % 2 ^ 21 = 0 ∧ ht.w 2 < 2 ^ 32 ∧
      ht.w 3 < 2 ^ 32 ∧ (ordSt ht).tierPages = []) ∧
    (ordSt ht0).orderReady 2 5 3 = (ordSt ht0).orderReady 2 5 3 ∧
    (ordSt ht0).orderRefusal ht0 = 0 ∧
    (ht0.only [4294967295, 4294967295, 4294967295, 4294967295] = true ∧ (ht0.w 4 + 2 ^ 32 * ht0.w 5) % 2 ^ 21 = 0 ∧ ht0.w 2 < 2 ^ 32 ∧
      ht0.w 3 < 2 ^ 32 ∧ (ordSt ht0).tierPages = []) ∧
    (ordSt bm).orderReady 2 5 4 = (ordSt bm).orderReady 2 5 4 ∧
    (ordSt bm).orderRefusal bm = 0 ∧
    (bm.only [4095, 4294967295, 4294967295] = true ∧ (bm.w 3 + 2 ^ 32 * bm.w 4) % 2 ^ 30 = 0 ∧ bm.w 3 + 2 ^ 32 * bm.w 4 < 2 ^ 48 ∧
      ((ordSt bm).ctx (bm.w 2 / 64 % 16)).isSome = true) := by
  refine ⟨⟨by decide, ⟨0, _, rfl, rfl⟩, by decide⟩, ⟨by decide, ⟨0, _, rfl, rfl⟩, by decide⟩, ⟨by decide, ⟨0, _, rfl, rfl⟩, by decide⟩,
    ⟨by decide, ⟨0, _, rfl, rfl⟩, by decide⟩, ⟨by decide, ⟨0, _, rfl, rfl⟩, by decide⟩, ⟨by decide, ⟨0, _, rfl, rfl⟩, by decide⟩, ?_⟩
  and_intros <;> decide

/-- The hypotheses of `ContextOrders` are met. -/
theorem witness_ContextOrders :
    (ordSt cc).canAnswer cc ∧
    (ordSt cc1).canAnswer cc1 ∧
    (ordSt cd (ctxSt job1)).canAnswer cd ∧
    (ordSt cl).canAnswer cl ∧
    (ordSt fn).canAnswer fn ∧
    (ordSt cc).orderReady 2 5 5 = (ordSt cc).orderReady 2 5 5 ∧
    (ordSt cc).orderRefusal cc = 0 ∧
    (cc.only [115, 4294967295, 4294967295] = true ∧ (cc.w 2 % 4 = 1 ∧ cc.w 3 = 0 ∨ cc.w 2 % 4 = 2 ∧ (cc.w 3 = 0 ∨ 100 ≤ cc.w 3 ∧
      cc.w 3 ≤ 100000 ∧ cc.w 3 % 10 = 0)) ∧ (ordSt cc).maskFlasks (cc.w 4) ≠ 0 ∧ (ordSt cc).freeCtx.isSome = true ∧
      reserveUnits { cls := cc.w 2 % 4, mask := (ordSt cc).maskFlasks (cc.w 4) } * 65536 ≤ (ordSt cc).memFree) ∧
    (ordSt cc1).orderReady 2 5 5 = (ordSt cc1).orderReady 2 5 5 ∧
    (ordSt cc1).orderRefusal cc1 = 0 ∧
    (cc1.only [115, 4294967295, 4294967295] = true ∧ (cc1.w 2 % 4 = 1 ∧ cc1.w 3 = 0 ∨ cc1.w 2 % 4 = 2 ∧ (cc1.w 3 = 0 ∨ 100 ≤ cc1.w 3 ∧
      cc1.w 3 ≤ 100000 ∧ cc1.w 3 % 10 = 0)) ∧ (ordSt cc1).maskFlasks (cc1.w 4) ≠ 0 ∧ (ordSt cc1).freeCtx.isSome = true ∧
      reserveUnits { cls := cc1.w 2 % 4, mask := (ordSt cc1).maskFlasks (cc1.w 4) } * 65536 ≤ (ordSt cc1).memFree) ∧
    (ordSt cd (ctxSt job1)).orderReady 2 5 6 = (ordSt cd (ctxSt job1)).orderReady 2 5 6 ∧
    (ordSt cd (ctxSt job1)).orderRefusal cd = 0 ∧
    (cd.only [15] = true ∧ cd.w 2 % 16 ≠ 0 ∧ (∃ c, (ordSt cd (ctxSt job1)).ctx (cd.w 2 % 16) = some c ∧ c.restored = false) ∧
      (ordSt cd (ctxSt job1)).pinnedByCast (cd.w 2 % 16) = false ∧ (ordSt cd (ctxSt job1)).pinnedLive (cd.w 2 % 16) = false ∧
      (ordSt cd (ctxSt job1)).ctxIssued (cd.w 2 % 16) = false ∧ (ordSt cd (ctxSt job1)).chilling (cd.w 2 % 16) = [] ∧
      (∀ p ∈ (ordSt cd (ctxSt job1)).sch.pours, p.ctx ≠ cd.w 2 % 16) ∧
      List.filter (fun p => p.ctx == cd.w 2 % 16 || p.opcode == 6) (ordSt cd (ctxSt job1)).host.orders = [cd]) ∧
    (ordSt cl).orderReady 2 5 7 = (ordSt cl).orderReady 2 5 7 ∧
    (ordSt cl).orderRefusal cl = 0 ∧
    cl.only [] = true ∧
    (ordSt fn).orderReady 2 5 8 = (ordSt fn).orderReady 2 5 8 ∧
    (ordSt fn).orderRefusal fn = 0 ∧
    fn.only [] = true ∧
    (ordSt dr).orderReady 2 5 9 = (ordSt dr).orderReady 2 5 9 ∧
    (ordSt dr).orderRefusal dr = 0 ∧
    dr.only [4294967295] = true ∧
    dr.w 2 = 1585053697 := by
  refine ⟨⟨by decide, ⟨0, _, rfl, rfl⟩, by decide⟩, ⟨by decide, ⟨0, _, rfl, rfl⟩, by decide⟩, ⟨by decide, ⟨0, _, rfl, rfl⟩, by decide⟩,
    ⟨by decide, ⟨0, _, rfl, rfl⟩, by decide⟩, ⟨by decide, ⟨0, _, rfl, rfl⟩, by decide⟩, ?_⟩
  and_intros <;> decide

/-- The hypotheses of `PourOrders` are met. -/
theorem witness_PourOrders :
    (ordSt pl (ctxSt job1)).canAnswer pl ∧
    (ordSt pcc).canAnswer pcc ∧
    (ordSt pl (ctxSt job1)).orderReady 2 5 64 = (ordSt pl (ctxSt job1)).orderReady 2 5 64 ∧
    (ordSt pl (ctxSt job1)).orderRefusal pl = 0 ∧
    (ordSt pl (ctxSt job1)).scUp = true ∧
    (ordSt pl (ctxSt job1)).ctx pl.ctx = (ordSt pl (ctxSt job1)).ctx pl.ctx ∧
    (job1.cls = 2 ∨ banksNeeded prog0 ≤ (ordSt pl (ctxSt job1)).freeBanks.length) ∧
    (∀ l ∈ (ordSt pl (ctxSt job1)).sch.progs, l.id < (ordSt pl (ctxSt job1)).sch.nextProg) ∧
    (ordSt pl (ctxSt job1)).progRefusal pl.ctx job1 prog0 = none ∧
    (job1.cls = 2 ∨ banksNeeded a07_1 ≤ (ordSt pl (ctxSt job1)).freeBanks.length) ∧
    (ordSt pl (ctxSt job1)).progRefusal pl.ctx job1 a07_1 = some (E_PROG_VERIFY, 1) ∧
    (ordSt pst (ctxSt job1)).orderReady 2 5 65 = (ordSt pst (ctxSt job1)).orderReady 2 5 65 ∧
    (ordSt pst (ctxSt job1)).orderRefusal pst = 0 ∧
    (ordSt pst (ctxSt job1)).ctx pst.ctx = (ordSt pst (ctxSt job1)).ctx pst.ctx ∧
    job1.cls = 2 ∧
    pourArgsOk pst = true ∧
    (ordSt pst (ctxSt job1)).program (pst.w 2 % 65536) = (ordSt pst (ctxSt job1)).program (pst.w 2 % 65536) ∧
    1 = pst.ctx ∧
    (pst.w 2).testBit 17 = false ∧
    (∀ p ∈ (ordSt pst (ctxSt job1)).sch.pours, p.id < (ordSt pst (ctxSt job1)).sch.nextPour) ∧
    (ordSt pst (ctxSt job1)).syncFree pst.ctx prog0 = true ∧
    banksNeeded prog0 = 0 ∧
    (ordSt pcc).orderReady 2 5 66 = (ordSt pcc).orderReady 2 5 66 ∧
    (ordSt pcc).orderRefusal pcc = 0 ∧
    (pcc.only [4294967295] = true ∧ ∀ p ∈ (ordSt pcc).sch.pours, ¬(p.ctx = pcc.ctx ∧ p.tag = pcc.w 2)) ∧
    cancelSt.orderReady 2 5 66 = cancelSt.orderReady 2 5 66 ∧
    cancelSt.orderRefusal pcr = 0 ∧
    pcr.only [4294967295] = true ∧
    pour1.ctx = pcr.ctx ∧
    pour1.tag = pcr.w 2 ∧
    pour1.st = 2 ∧
    cancelSt.cruBusy pour1.id = false ∧
    List.filter (fun r => r.id == pour1.id || r.ctx == pour1.ctx && r.tag == pour1.tag) cancelSt.sch.pours = [pour1] ∧
    cancelSt.openOrder 65 pour1.ctx pour1.tag = cancelSt.openOrder 65 pour1.ctx pour1.tag := by
  refine ⟨⟨by decide, ⟨0, _, rfl, rfl⟩, by decide⟩, ⟨by decide, ⟨0, _, rfl, rfl⟩, by decide⟩, ?_⟩
  and_intros <;> decide

/-- The hypotheses of `ChillOrdersAndStartBarriers` are met. -/
theorem witness_ChillOrdersAndStartBarriers :
    (ordSt cch).canAnswer cch ∧
    (ordSt rem chSt0).canAnswer rem ∧
    (ordSt cch).orderReady 2 5 67 = (ordSt cch).orderReady 2 5 67 ∧
    (ordSt cch).orderRefusal cch = 0 ∧
    (cch.only [] = true ∧ (∃ c, (ordSt cch).ctx cch.ctx = some c ∧ c.cls = 2 ∧ c.st ≠ 6 ∧ (c.sections.any fun k => k.kind == 0) = false) ∧
      (ordSt cch).jobFlasks cch.ctx = [] ∧ List.filter (fun p => p.ctx == cch.ctx) (ordSt cch).host.orders = [cch]) ∧
    (ordSt cch runF).orderReady 2 5 67 = (ordSt cch runF).orderReady 2 5 67 ∧
    (ordSt cch runF).orderRefusal cch = 0 ∧
    cch.only [] = true ∧
    (ordSt cch runF).ctx cch.ctx = (ordSt cch runF).ctx cch.ctx ∧
    job1.cls = 2 ∧
    (∀ p ∈ (ordSt cch runF).host.orders, p.opcode ≠ 68) ∧
    (ordSt cch runF).sch.flasks = (ordSt cch runF).sch.flasks ∧
    a07_2.job = a07_2.job ∧
    a07_2.phase = a07_2.phase ∧
    (ordSt rem chSt0).orderReady 2 5 68 = (ordSt rem chSt0).orderReady 2 5 68 ∧
    (ordSt rem chSt0).orderRefusal rem = 0 ∧
    rem.only [] = true ∧
    (ordSt rem chSt0).ctx rem.ctx = (ordSt rem chSt0).ctx rem.ctx ∧
    chC.cls = 2 ∧
    chC.st = 4 ∧
    chC.sections = [] ∧
    ((ordSt rem chSt0).setCtx rem.ctx chC).pick [] = none ∧
    (ordSt rem chSt1).orderReady 2 5 68 = (ordSt rem chSt1).orderReady 2 5 68 ∧
    (ordSt rem chSt1).orderRefusal rem = 0 ∧
    (ordSt rem chSt1).ctx rem.ctx = (ordSt rem chSt1).ctx rem.ctx ∧
    chC1.cls = 2 ∧
    chC1.st = 4 ∧
    chC1.sections ≠ [] ∧
    ((ordSt rem chSt1).setCtx rem.ctx chC1).pick [] = none ∧
    (sb 0 250025000).running = true ∧
    (sb 0 250025000).fld (R.CMD_SBAR 3 + 8) 2 2 ≠ 1 ∧
    (sb 2 250024999).running = true ∧
    (sb 2 250024999).fld (R.CMD_SBAR 3 + 8) 2 2 ≠ 1 ∧
    (sb 1 250025000).running = true ∧
    (sb 1 250025000).fld (R.CMD_SBAR 3 + 8) 2 2 = 1 ∧
    (sb 1 250025000).sch.pours = [] ∧
    (sb 1 250025000).tim.stepWait = none ∧
    (sb 1 250000000).running = true ∧
    (sb 1 250000000).fld (R.CMD_SBAR 3 + 8) 2 2 = 1 ∧
    (sb 1 250000000).rd64 (R.CMD_SBAR 3) ≤ ((sb 1 250000000).at' 3).tim.ns / 4 ∧
    (sb 1 250000000).sch.pours = [] ∧
    (sb 1 250000000).sch.ctxs = [(0, {  })] ∧
    (sb 1 250000000).tim.stepWait = none := by
  refine ⟨⟨by decide, ⟨0, _, rfl, rfl⟩, by decide⟩, ⟨by decide, ⟨0, _, rfl, rfl⟩, by decide⟩, ?_⟩
  and_intros <;> decide

end Sys2Proof.Tests.W07

namespace Sys2Proof.Tests.W08

open Sys2Proof Sys2Proof.Machine Sys2Proof.Tests

set_option maxRecDepth 100000
set_option exponentiation.threshold 1024

/-! ### Host, scheduler ticks and register writes -/

def hg : State := set [(R.GLB_HIV_HOST, 2 ^ 31)] up

def b2 : State := { set [(R.CMD_HOST_STATE, 1)] jobSt with mod := { jobSt.mod with pcieUp := true }, fab := { jobSt.fab with dram := Mem.writeBytes [] 0xFF8 [1,2,3,4,5,6,7,8,9] }, host := { jobSt.host with bar2 := [(63, { ctx := 1, writable := true, base := 0 })] } }

def rg : Ring := { base := 0x1000, log2 := 6, count := 4, timeUs := 10, written := 70, consumed := 66, unsig := 2, unsigAt := 100 }

def rgS : State := { up with mod := { up.mod with pcieUp := true }, host := { up.host with rings := [(8, rg)] } }

def idle : State := up

theorem idl (s : State) (h : s.sch.ctxs = [(0, {})]) (h2 : s.sch.pours = []) : s.schIdle := ⟨h, h2⟩

def hs1 : State := set [(R.GLB_HIV_HOST, 2 ^ 31 + 256), (R.GLB_HIV_DEV, 256 + 3)] idle

def hs2 : State := set [(R.GLB_HIV_HOST, 2 ^ 31 + 256 + 4 * 65536), (R.GLB_HIV_DEV, 256 + 3)] idle

def q3 (seq : Nat) : State := { set [(R.CMD_Q_HEAD 3, 2 ^ 24 + seq * 256 + 255), (R.CMD_Q_HEAD 0, 0), (R.CMD_HOST_HB, 1), (0x200000 + 3 * 0x4000 + 255*64, seq), (0x200000 + 3 * 0x4000 + 255*64+4, 0xAB)] idle with host := { agreed := true, rings := [(0, rg)] } }

def qo : Order := ((q3 0xFFFF).nextOrder 3).getD {}

def gn : State := { set [(R.CMD_HOST_STATE, 1), (R.MEM_HOST_TIER_SIZE, 5)] idle with host := { agreed := true, bar2 := [(0,{})] } }

def so : State := { set [(R.CMD_HOST_STATE, 1)] idle with host := { agreed := true } }

def lc : Nat := R.LIN_CLASS 2

def a08_1 : StWord := { base := 58724480, words := 6, flds := [{ lo := 0, w := 1, mn := 0, mx := 1 }, { lo := 1, w := 1, mn := 0, mx := 1 }, { lo := 2, w := 1, mn := 0, mx := 1 }, { lo := 3, w := 1, mn := 0, mx := 1 }, { lo := 4, w := 3, mn := 0, mx := 7 }, { lo := 8, w := 16, mn := 1, mx := 65535 }] }

def lat : State := { up with host := { up.host with readLatch := [(4, 0x12345678)] } }

/-- The hypotheses of `HostAccesses` are met. -/
theorem witness_HostAccesses :
    hg.running = true ∧
    hg.bit R.GLB_HIV_HOST 31 = true ∧
    up.running = true ∧
    up.bit R.GLB_HIV_HOST 31 = false ∧
    b2.running = true ∧
    b2.mod.pcieUp = true ∧
    b2.bar2Refused 67645739000 8 false = some (1, 4088) ∧
    b2.poisonedIn 1 4088 8 = none ∧
    ({} : LineErr).beyond = false ∧
    (b2.poisonedIn 1 4088 8 ≠ none ∨ ({ wrong := [0, 2, 4] } : LineErr).bad = true) ∧
    b2.bar2Refused 0 8 false = none ∧
    b2.bar2Refused 67645739000 [9, 9, 9, 9, 9, 9, 9, 9].length true = some (1, 4088) ∧
    b2.partPoison 1 4088 [9, 9, 9, 9, 9, 9, 9, 9].length = none ∧
    4088 % 4096 + [9, 9, 9, 9, 9, 9, 9, 9].length ≤ 4096 ∧
    (b2.partPoison 1 4088 [9, 9, 9, 9, 9, 9, 9, 9].length ≠ none ∨ [9, 9, 9, 9, 9, 9, 9, 9].length < 256 ∧
      ({ wrong := [0, 2, 4] } : LineErr).bad = true) ∧
    b2.bar2Refused 0 [9, 9, 9, 9, 9, 9, 9, 9].length true = none ∧
    rgS.running = true ∧
    KMap.find rgS.host.rings 8 = some rg ∧
    rg.log2 ≤ 16 ∧
    rgS.host.backlog = [] ∧
    rgS.host.evtLostPending = 0 ∧
    0 < rg.unsig ∧
    rg.unsigAt + rg.timeUs * 1000 ≤ max rgS.now 10100 ∧
    rgS.gone = false ∧
    rgS.mod.pcieUp = true ∧
    max rgS.now 10099 < rg.unsigAt + rg.timeUs * 1000 := by
  and_intros <;> decide

/-- The hypotheses of `SchedulerTicks` are met. -/
theorem witness_SchedulerTicks :
    hs1.schIdle ∧
    hs2.schIdle ∧
    (q3 65535).schIdle ∧
    gn.schIdle ∧
    hs1.running = true ∧
    hs1.schUp = true ∧
    hs1.host.orders = [] ∧
    hs1.boot.lineStarted = true ∧
    hs1.bit R.GLB_HIV_HOST 31 = true ∧
    (hs1.rd R.GLB_HIV_HOST / 256 % 256 = hs1.rd R.GLB_HIV_DEV / 256 % 256 ∧ hs1.rd R.GLB_HIV_HOST / 65536 % 256 ≤ hs1.rd R.GLB_HIV_DEV % 256) ∧
    hs2.running = true ∧
    hs2.schUp = true ∧
    hs2.host.orders = [] ∧
    hs2.boot.lineStarted = true ∧
    hs2.bit R.GLB_HIV_HOST 31 = true ∧
    (¬(hs2.rd R.GLB_HIV_HOST / 256 % 256 = hs2.rd R.GLB_HIV_DEV / 256 % 256 ∧ hs2.rd R.GLB_HIV_HOST / 65536 % 256 ≤ hs2.rd R.GLB_HIV_DEV % 256)) ∧
    hs2.attached = false ∧
    (q3 65535).running = true ∧
    (q3 65535).schUp = true ∧
    (q3 65535).host.orders = [] ∧
    (q3 65535).boot.lineStarted = true ∧
    (q3 65535).bit R.GLB_HIV_HOST 31 = false ∧
    (q3 65535).agreed = true ∧
    3 < 16 ∧
    (q3 65535).rd R.CMD_HOST_HB ≠ (q3 65535).host.hbLast ∧
    (∀ k < 16, (q3 65535).bit (R.CMD_Q_HEAD k) 24 = true ↔ k = 3) ∧
    (q3 65535).nextOrder 3 = some qo ∧
    (q3 65535).mayCollect qo = true ∧
    opcodeKnown qo.opcode = true ∧
    ((q3 65535).take qo).nextOrder 3 = none ∧
    gn.running = true ∧
    gn.schUp = true ∧
    gn.host.orders = [] ∧
    gn.boot.lineStarted = true ∧
    gn.attached = true ∧
    gn.rd R.CMD_HOST_HB = gn.host.hbLast ∧
    gn.host.hbRestart = false ∧
    gn.host.hbAt + 500000000 ≤ max gn.now 500000000 ∧
    max gn.now 499999999 < gn.host.hbAt + 500000000 := by
  refine ⟨⟨rfl, rfl⟩, ⟨rfl, rfl⟩, ⟨rfl, rfl⟩, ⟨rfl, rfl⟩, ?_⟩
  and_intros <;> decide

/-- The hypotheses of `RegisterWrites` are met. -/
theorem witness_RegisterWrites :
    up.running = true ∧
    (¬(8 = 4 ∧ 6 % 4 = 0)) ∧
    (¬(8 = 8 ∧ 6 % 8 = 0)) ∧
    (¬(2 = 4 ∧ 6 % 4 = 0)) ∧
    (¬(2 = 8 ∧ 6 % 8 = 0)) ∧
    66061328 = R.DBG_LOG_IDX ∧
    16777216 % 4 = 0 ∧
    (16777216 ≤ 16777216 ∧ 16777216 < 50331648 ∨ 54525952 ≤ 16777216 ∧ 16777216 < 56623104 ∧ stagedWord 16777216 = none) ∧
    54525964 % 4 = 0 ∧
    (16777216 ≤ 54525964 ∧ 54525964 < 50331648 ∨ 54525952 ≤ 54525964 ∧ 54525964 < 56623104 ∧ stagedWord 54525964 = none) ∧
    so.running = true ∧
    58724480 % 4 = 0 ∧
    stagedWord 58724480 = some a08_1 ∧
    so.shadowOpen = true ∧
    up.shadowOpen = false ∧
    (2359296 = R.CMD_HOST_HB ∨ 2359296 = R.STG_CAST_LEAD ∨ 2359296 = R.DBG_LOG_IDX) ∧
    1048648 = R.STG_QUIESCE ∧
    lat.running = true ∧
    4 % 4 = 0 ∧
    KMap.find lat.host.readLatch 4 = some 305419896 ∧
    1048648 % 4 = 0 ∧
    KMap.find up.host.readLatch 1048648 = none ∧
    wideWords 1048648 = 1 := by
  and_intros <;> decide

end Sys2Proof.Tests.W08

namespace Sys2Proof.Tests.W09

open Sys2Proof Sys2Proof.Machine Sys2Proof.Tests

set_option maxRecDepth 100000
set_option exponentiation.threshold 1024

/-! ### Stage, casts and debug writes -/

def host0 : State := { set [(R.CMD_HOST_STATE, 1)] up with host := { agreed := true } }

def lcWord : StWord := { base := 58724480, words := 6, flds := [{ lo := 0, w := 1, mn := 0, mx := 1 }, { lo := 1, w := 1, mn := 0, mx := 1 }, { lo := 2, w := 1, mn := 0, mx := 1 }, { lo := 3, w := 1, mn := 0, mx := 1 }, { lo := 4, w := 3, mn := 0, mx := 7 }, { lo := 8, w := 16, mn := 1, mx := 65535 }] }

def sg (st : Nat) (p : Option Pending) (s : State := host0) : State := { set [(R.STG_STATUS, st)] s with stage := { pend := p } }

def pa : Pending := { mode := 1, time := 1000000500, set := [(0x3801080, 1)], arm := true }

def sgm : State := set [(R.STG_CTRL + 4, 2 + 16)] (sg 0 none)

def pr : Pending := { mode := 2, set := [], rny := [(5, 1)], arm := true, armedAt := 10 }

def prS : State := let s := sg 2 (some pr); { s with line := { rx := [.applied 12] } }

def s09_1 : State := { sg 0 none with stage := {shadow := [(0x3801080, 1)] }}

def pck : Pending := { set := [(0x3801080, 0x100)] }

def pckBad : Pending := { set := [(0x3801080, 1)] }

def pt : Pending := { mode := 1, time := 1000000500, rny := [(R.RNY_IN_CFG 0, 1)], arm := true }

def pcn : Pending := { mode := 2, chan := 1, count := 2 ^ 48 - 5, rny := [(R.RNY_IN_CFG 0, 1)], arm := true, armedAt := 10 }

def noctx (s : State) : State := { s with sch := { s.sch with ctxs := [(0, {})] } }

def cs1 : State := noctx (sg 2 (some pt))

def cs2 : State := let s := noctx (sg 2 (some pcn)); { s with line := { rx := [.applied 12] } }

def cs3 : State := set [(R.LIN_MIRROR 1, 0xFFFFFFFA), (R.LIN_MIRROR 1 + 4, 0xFFFF)] cs2

def cs4 : State := { up with line := { rx := [.applied 12] } }

def rr : RetRecord := { seq := 2^32 - 1 }

def cs5 : State := { up with stage := { writing := [rr], records := List.replicate 64 {} } }

def rs5 : State := { set [(R.GLB_BOOT_STATUS, 5)] up with boot := { up.boot with restored := false } }

def db1 : State := noctx (set [(R.SEC_STAT, 32), (R.STG_DBG_ADDR, 0x3801080)] up)

def db2 : State := set [(R.STG_QUIESCE, 0x133)] (set [(R.LIN_CLASS 2, 0)] db1)

/-- The hypotheses of `StageTransaction` are met. -/
theorem witness_StageTransaction :
    host0.running = true ∧
    stagedWord 58724480 = some lcWord ∧
    host0.shadowOpen = true ∧
    up.running = true ∧
    up.shadowOpen = false ∧
    (sg 1 (some pa)).running = true ∧
    ((if true = true then Instr.stageArm 3 3 else Instr.stageCheck 3 3) =
      (if true = true then Instr.stageArm 3 3 else Instr.stageCheck 3 3)) ∧
    (sg 1 (some pa)).stgState = 1 ∧
    (sg 2 (some pa)).running = true ∧
    ((if false = true then Instr.stageArm 3 3 else Instr.stageCheck 3 3) =
      (if false = true then Instr.stageArm 3 3 else Instr.stageCheck 3 3)) ∧
    (sg 2 (some pa)).stgState = 2 ∧
    (sg 0 none).running = true ∧
    (sg 0 none).stgState ≠ 1 ∧
    (sg 0 none).stgState ≠ 2 ∧
    (¬(((sg 0 none).stgParams 3 true).needsRonyr = true ∧ (sg 0 none).line.validSince = none)) ∧
    (sg 4 none).running = true ∧
    ((if false = true then Instr.stageArm 3 1 else Instr.stageCheck 3 1) =
      (if false = true then Instr.stageArm 3 1 else Instr.stageCheck 3 1)) ∧
    (sg 4 none).stgState ≠ 1 ∧
    (sg 4 none).stgState ≠ 2 ∧
    (¬(((sg 4 none).stgParams 1 false).needsRonyr = true ∧ (sg 4 none).line.validSince = none)) ∧
    (sg 4 none).stage.pend = none ∧
    (sg 1 (some pa)).stage.pend = some pa ∧
    pa.discardHeld = false ∧
    (sg 2 (some pa)).stage.pend = some pa ∧
    (sg 2 (some pa)).tim.stepWait = none ∧
    (¬if pa.rny ≠ [] then (sg 2 (some pa)).crossing.isSome = true ∨ pa.mode = 1 ∧
      (sg 2 (some pa)).ron.armed = none else if pa.mode = 2 then 0 ≤ Machine.dist (decide (pa.dir = 1)) pa.count ((sg 2 (some pa)).mirror pa.chan) else pa.time ≤ ((sg 2 (some pa)).at' 3).tim.ns) ∧
    (if pa.rny ≠ [] then (sg 2 (some pa)).crossing.isSome = true ∨ pa.mode = 1 ∧
      (sg 2 (some pa)).ron.armed = none else if pa.mode = 2 then 0 ≤ Machine.dist (decide (pa.dir = 1)) pa.count ((sg 2 (some pa)).mirror pa.chan) else pa.time ≤ ((sg 2 (some pa)).at' 500).tim.ns) ∧
    prS.running = true ∧
    prS.stage.pend = some pr ∧
    prS.stgState = 2 ∧
    (if pr.rny ≠ [] then prS.crossing.isSome = true ∨ pr.mode = 1 ∧
      prS.ron.armed = none else if pr.mode = 2 then 0 ≤ Machine.dist (decide (pr.dir = 1)) pr.count (prS.mirror pr.chan) else pr.time ≤ (prS.at' 3).tim.ns) ∧
    s09_1.running = true ∧
    s09_1.stgState ≠ 1 ∧
    (sg 1 (some pckBad)).running = true ∧
    (sg 1 (some pckBad)).stage.pend = some pckBad ∧
    (sg 1 (some pckBad)).stgState = 1 ∧
    pckBad.arm = false ∧
    pckBad.discardHeld = false ∧
    (¬(pckBad.needsRonyr = true ∧ (sg 1 (some pckBad)).line.validSince = none)) ∧
    (sg 1 (some pckBad)).stageCheck pckBad.set pckBad.rny false = (sg 1 (some pckBad)).stageCheck pckBad.set pckBad.rny false ∧
    (∀ j ∈ slotsWritten pckBad.set, ((sg 1 (some pckBad)).withSet pckBad.set pckBad.rny).tblPoison j = none) ∧
    (sg 1 (some pck)).running = true ∧
    (sg 1 (some pck)).stage.pend = some pck ∧
    (sg 1 (some pck)).stgState = 1 ∧
    pck.arm = false ∧
    pck.discardHeld = false ∧
    (¬(pck.needsRonyr = true ∧ (sg 1 (some pck)).line.validSince = none)) ∧
    (sg 1 (some pck)).stageCheck pck.set pck.rny false = none ∧
    (sg 1 none).running = true ∧
    (sg 1 none).stage.pend = none ∧
    ((if true = true then Instr.stageArm 3 35 else Instr.stageCheck 3 35) =
      (if true = true then Instr.stageArm 3 35 else Instr.stageCheck 3 35)) ∧
    (((sg 0 none).stgParams 35 true).needsRonyr = true ∧ (sg 0 none).line.validSince = none) := by
  and_intros <;> decide

/-- The hypotheses of `Casts` are met. -/
theorem witness_Casts :
    (Instr.castTimeReached 500 = Instr.castTimeReached 500 ∧ pt.mode = 1 ∧ pt.time ≤ (cs1.at' 500).tim.ns ∧ 1000000500 = pt.time ∨
      Instr.castTimeReached 500 = Instr.castCountCrossing 500 ∧ pt.mode = 2 ∧
      0 ≤ Machine.dist (decide (pt.dir = 1)) pt.count (cs1.mirror pt.chan) ∧ cs1.crossing = some 1000000500 ∨
      Instr.castTimeReached 500 = Instr.ronyrApplyReport 500 ∧ pt.mode = 2 ∧ pt.armedAt ≤ 1000000500 ∧
      ∃ rest, cs1.line.rx = Msg.applied 1000000500 :: rest) ∧
    (Instr.castCountCrossing 500 = Instr.castTimeReached 500 ∧ pcn.mode = 1 ∧ pcn.time ≤ (cs2.at' 500).tim.ns ∧ 12 = pcn.time ∨
      Instr.castCountCrossing 500 = Instr.castCountCrossing 500 ∧ pcn.mode = 2 ∧
      0 ≤ Machine.dist (decide (pcn.dir = 1)) pcn.count (cs2.mirror pcn.chan) ∧ cs2.crossing = some 12 ∨
      Instr.castCountCrossing 500 = Instr.ronyrApplyReport 500 ∧ pcn.mode = 2 ∧ pcn.armedAt ≤ 12 ∧
      ∃ rest, cs2.line.rx = Msg.applied 12 :: rest) ∧
    (Instr.ronyrApplyReport 500 = Instr.castTimeReached 500 ∧ pcn.mode = 1 ∧ pcn.time ≤ (cs2.at' 500).tim.ns ∧ 12 = pcn.time ∨
      Instr.ronyrApplyReport 500 = Instr.castCountCrossing 500 ∧ pcn.mode = 2 ∧
      0 ≤ Machine.dist (decide (pcn.dir = 1)) pcn.count (cs2.mirror pcn.chan) ∧ cs2.crossing = some 12 ∨
      Instr.ronyrApplyReport 500 = Instr.ronyrApplyReport 500 ∧ pcn.mode = 2 ∧ pcn.armedAt ≤ 12 ∧
      ∃ rest, cs2.line.rx = Msg.applied 12 :: rest) ∧
    stagedWord 58724480 = some lcWord ∧
    KMap.wf pa.set = true ∧
    cs1.running = true ∧
    cs1.stage.pend = some pt ∧
    cs1.stgState = 2 ∧
    pt.set = [] ∧
    cs1.sch.ctxs = [(0, {  })] ∧
    cs1.tim.stepWait = none ∧
    cs2.running = true ∧
    cs2.stage.pend = some pcn ∧
    cs2.stgState = 2 ∧
    pcn.set = [] ∧
    cs2.sch.ctxs = [(0, {  })] ∧
    cs2.tim.stepWait = none ∧
    (pt.mode ≠ 1 ∨ (cs1.at' 499).tim.ns < pt.time) ∧
    cs3.running = true ∧
    cs3.stage.pend = some pcn ∧
    (pcn.mode ≠ 2 ∨ Machine.dist (decide (pcn.dir = 1)) pcn.count (cs3.mirror pcn.chan) < 0) ∧
    cs4.running = true ∧
    cs4.stage.pend = none ∧
    cs4.line.rx = cs4.line.rx ∧
    cs5.running = true ∧
    cs5.stage.writing = [rr] ∧
    cs5.scUp = true := by
  refine ⟨.inl ⟨rfl, by decide, by decide, rfl⟩, .inr (.inl ⟨rfl, by decide, by decide, by decide⟩),
    .inr (.inr ⟨rfl, by decide, by decide, _, rfl⟩), ?_⟩
  and_intros <;> decide

/-- The hypotheses of `RestoreAndDebugWrites` are met. -/
theorem witness_RestoreAndDebugWrites :
    rs5.running = true ∧
    rs5.phase = 5 ∧
    rs5.scUp = true ∧
    rs5.boot.restored = false ∧
    rs5.stage.records = [] ∧
    rs5.agreed = false ∧
    up.running = true ∧
    (up.phase ≠ 5 ∨ up.scUp = false ∨ up.boot.restored = true) ∧
    (up.bit R.SEC_STAT 5 = false ∨ up.rd R.STG_DBG_ADDR < 2 ^ 31 ∧ stagedWord (up.rd R.STG_DBG_ADDR) = none) ∧
    db1.running = true ∧
    db1.bit R.SEC_STAT 5 = true ∧
    (2 ^ 31 ≤ db1.rd R.STG_DBG_ADDR ∨ (stagedWord (db1.rd R.STG_DBG_ADDR)).isSome = true ∧
      (blockOf (db1.rd R.STG_DBG_ADDR) ≠ db1.fld R.STG_QUIESCE 0 6 ∨ db1.quiescedNow = false)) ∧
    db2.running = true ∧
    db2.bit R.SEC_STAT 5 = true ∧
    db2.rd R.STG_DBG_ADDR < 2 ^ 31 ∧
    stagedWord (db2.rd R.STG_DBG_ADDR) = some lcWord ∧
    blockOf (db2.rd R.STG_DBG_ADDR) = db2.fld R.STG_QUIESCE 0 6 ∧
    db2.quiescedNow = true ∧
    db2.sch.ctxs = [(0, {  })] ∧
    (db2.rd R.STG_DBG_ADDR = R.MEM_QOS ∨ 58724352 ≤ db2.rd R.STG_DBG_ADDR ∧ db2.rd R.STG_DBG_ADDR < 58753024) := by
  and_intros <;> decide

end Sys2Proof.Tests.W09

namespace Sys2Proof.Tests.W10

open Sys2Proof Sys2Proof.Machine Sys2Proof.Tests

set_option maxRecDepth 100000
set_option exponentiation.threshold 1024

/-! ### Cameras, lanes and chain -/

/-- A bound on the bits of 7. -/
theorem lsb7 (v : BitVec 7) (P : Nat → Prop) (h : ∀ w : Fin 7, v.getLsbD w = true → P w) : ∀ w, v.getLsbD w = true → P w :=
  fun w hw => h ⟨w, BitVec.lt_of_getLsbD hw⟩ hw

def cam3 (st : Nat) (k : Cam := {}) : State := { set [(R.CXP_PORT_CFG 3, 1 + 5 * 4 + 96), (R.CXP_PORT_STAT 3, st)] up with intk := { cams := [(3, k)] } }

def cam3i : State := set [(R.CXP_INIT_LEN 3, 3), (R.CXP_INIT 3 1, 0x55), (R.CXP_INIT 3 1 + 4, 0x66)] (cam3 2)

def cam7 : State := set [(R.CXP_INIT_LEN 3, 3), (R.CXP_INIT 3 1, 0x55), (R.CXP_PORT_STAT 3, 7 + 8)] (cam3 2 { initDone := 1 })

def cam3b : State := set [(R.CXP_PORT_CFG 2, 1 + 64 + 2^13)] (set [(R.CXP_PORT_STAT 2, 2)] up)

def s10_1 : State := cam3 4 {retryAt := some 3}

def s10_2 : State := cam3 4 {retryAt := some 4}

def pox : State := let s := set [(R.CXP_PORT_CFG 3, 99), (R.CXP_PORT_STAT 3, 3)] up; { s with pocxp := { enables := 0x18, prevFault := 0x8 } }

def pox2 : State := let s := set [(R.CXP_PORT_CFG 3, 99), (R.CXP_PORT_STAT 3, 5)] up; { s with pocxp := { enables := 0x18, retryAt := [(3, 5)] } }

def pox3 : State := let s := set [(R.CXP_PORT_CFG 3, 99), (R.CXP_PORT_STAT 3, 5), (R.CXP_POCXP_FAULT, 9)] up; { s with pocxp := { enables := 0, retryAt := [(3, 5)] } }

def edg (st : Nat) (l : Bool) (n : Nat := 0): State := cam3 st { edges := [(7, 8, l), (9, 9, false)], dropped := some (5,6,2), stamps := List.replicate n {} }

def ctlS (c : Option CtlOp) : State := let s := set [(R.CMD_HOST_STATE, 1), (R.CXP_CTL_ADDR, 4), (R.CXP_CTL_DATA, 6)] up; { s with intk := { ctl := c } }

def s10_3 : State := ctlS (some {})

def s10_4 : State := ctlS (some {write := false})

def a10_1 : CtlOp := {write := false}

def s10_5 : State := ctlS (some {write := true})

def a10_2 : CtlOp := {write := true}

def s10_6 : State := ctlS (some {resends := 2})

def a10_3 : CtlOp := {resends := 2}

def s10_7 : State := ctlS (some {resends := 3})

def a10_4 : CtlOp := {resends := 3}

def prb (l : Nat) : State := set [(R.CXP_PRBS_CTRL 2, 1), (R.CXP_PRBS_STAT 2, l), (R.CXP_PRBS_ERR 2, 2^32-2)] up

def eyeS (k : Option EyeScan) : State := { set [(eyeBase 1 + 4, 2 * 256 + 2^16), (eyeBase 1 + 8, 255 + 1 * 256 + 2^16)] up with intk := { eye := match k with | some k => [(1, k)] | none => [] } }

def ey : EyeScan := { lane := 0, dwell := 10, phase := (0, 1, 3), volt := (-1, 1, 3), next := 0 }

def s10_8 : State := eyeS (some {ey with next := 8})

def a10_5 : EyeScan := {ey with next := 8}

def ch (st : Nat) : State := set [(R.LNK_CHAIN_CFG, 5 + 64 + 2^8 + 2^21), (R.LNK_NLX_PORT_STAT 0, 0), (R.LNK_NLX_LANE_STAT 0, st), (R.LNK_NLX_LANE_STAT 1, st), (R.LNK_NLX_TXEQ 1, 0x11234)] up

def ch4 (l : List Nat) : State := { ch 4 with intk := { lanes := [(1, { retrains := l })] } }

def chR : State := { ch 2 with intk := { lanes := [(1, { rxIdle := true })] } }

def chI : State := set [(R.LNK_NLX_LANE_CFG, 1 + 2 * 256)] (ch 2)

def au : State := set [(R.LNK_NLX_PORT_STAT 0, 1 + 6 * 4)] (ch 2)

def auO : State := { au with sec := { au.sec with owner := some 7 } }

def pu : State := let s := set [(R.LNK_NLX_PORT_STAT 0, 2 + 6 * 4), (R.LNK_NLX_CRC_ERR 0, 2^32-1)] (ch 2)
  { s with chain := { s.chain with grants := [{ src := 6, srcCtx := 1, ctx := 1, base := 0x1FF000, size := 4096 }], ports := [{ rxSeq := 4095 }, {}, {}, {}] }, sch := jobSt.sch, fab := jobSt.fab }

def frm : NlxRx := { crcOk := true, only := false, dst := 5, src := 6, typ := 0, lseq := 4095, ctx := 1, addr := 0xFF0, payload := List.replicate 16 7, ack := none }

def a10_6 : NlxRx := { frm with crcOk := false }

def a10_7 : WinGrant := { src := 6, srcCtx := 1, ctx := 1, base := 0x1FF000, size := 4096 }

def pr (r : Nat) : State := let s := set [(R.LNK_NLX_PORT_STAT 0, 2 + 6 * 4), (R.LNK_NLX_RESENDS 0, 2^32-2)] (ch 2)
  { s with chain := { s.chain with ports := [{ replay := [{}, {}], resends := r }, {}, {}, {}] } }

def sh (r : Nat) : State := let s := set [(R.LNK_SHARE 4, r), (R.LNK_SHARE 4 + 4, 64), (R.LNK_SHARE_STAT, 0xFFFF)] up
  { s with line := { ledger := [(9, { cls := 4, lead := 5 })] } }

def al (a : Nat) : State := let s := set [(R.LNK_ALIGN 1, 0xFFFFFFFE), (R.LNK_ALIGN 1 + 4, 0xFFFF + a * 65536), (R.LNK_ALIGN_CNT 1, 0xFFFF)] (ch 1)
  { s with chain := { s.chain with align := [{}, { offs := [], lastP := 2 }] } }

/-- The hypotheses of `Cameras` are met. -/
theorem witness_Cameras :
    ((cam3 2).camState 3 = 7 ∧ 2 = (cam3 2).fld (R.CXP_PORT_STAT 3) 3 3 ∨ (cam3 2).camState 3 = 2 ∧
      2 ^ (cam3 2).fld (R.CXP_PORT_CFG 3) 13 2 ≤ 1 ∧ BitVec.getLsbD (7 : BitVec 7) 2 = true ∧ 2 ≤ (cam3 2).fld (R.CXP_PORT_CFG 3) 2 3 ∧
      ∀ (w : ℕ), BitVec.getLsbD (7 : BitVec 7) w = true → w ≤ (cam3 2).fld (R.CXP_PORT_CFG 3) 2 3 → w ≤ 2) ∧
    (cam3i.camState 3 = 7 ∧ 2 = cam3i.fld (R.CXP_PORT_STAT 3) 3 3 ∨ cam3i.camState 3 = 2 ∧ 2 ^ cam3i.fld (R.CXP_PORT_CFG 3) 13 2 ≤ 1 ∧
      BitVec.getLsbD (7 : BitVec 7) 2 = true ∧ 2 ≤ cam3i.fld (R.CXP_PORT_CFG 3) 2 3 ∧ ∀ (w : ℕ), BitVec.getLsbD (7 : BitVec 7) w = true →
      w ≤ cam3i.fld (R.CXP_PORT_CFG 3) 2 3 → w ≤ 2) ∧
    (cam7.camState 3 = 7 ∧ 1 = cam7.fld (R.CXP_PORT_STAT 3) 3 3 ∨ cam7.camState 3 = 2 ∧ 2 ^ cam7.fld (R.CXP_PORT_CFG 3) 13 2 ≤ 1 ∧
      BitVec.getLsbD (7 : BitVec 7) 1 = true ∧ 1 ≤ cam7.fld (R.CXP_PORT_CFG 3) 2 3 ∧ ∀ (w : ℕ), BitVec.getLsbD (7 : BitVec 7) w = true →
      w ≤ cam7.fld (R.CXP_PORT_CFG 3) 2 3 → w ≤ 1) ∧
    (1 < 2 ^ cam3b.fld (R.CXP_PORT_CFG 2) 13 2 ∨ ∀ (w : ℕ), BitVec.getLsbD (5 : BitVec 7) w = true → cam3b.fld (R.CXP_PORT_CFG 2) 2 3 < w) ∧
    (cam3 2).running = true ∧
    (cam3 2).camOn 3 = true ∧
    min (min 256 ((cam3 2).fld (R.CXP_INIT_LEN 3) 0 9)) (((cam3 2).cam 3).initDone + 0) = min 256 ((cam3 2).fld (R.CXP_INIT_LEN 3) 0 9) ∧
    cam3i.running = true ∧
    cam3i.camOn 3 = true ∧
    min (min 256 (cam3i.fld (R.CXP_INIT_LEN 3) 0 9)) ((cam3i.cam 3).initDone + 1) < min 256 (cam3i.fld (R.CXP_INIT_LEN 3) 0 9) ∧
    false = false ∧
    cam7.running = true ∧
    cam7.camOn 3 = true ∧
    min (min 256 (cam7.fld (R.CXP_INIT_LEN 3) 0 9)) ((cam7.cam 3).initDone + 2) = min 256 (cam7.fld (R.CXP_INIT_LEN 3) 0 9) ∧
    min (min 256 (cam7.fld (R.CXP_INIT_LEN 3) 0 9)) ((cam7.cam 3).initDone + 1) < min 256 (cam7.fld (R.CXP_INIT_LEN 3) 0 9) ∧
    true = true ∧
    cam7.camSlots 3 = [] ∧
    cam3b.running = true ∧
    cam3b.camOn 2 = true ∧
    cam3b.camState 2 = 2 ∧
    cam3b.camSlots 2 = [] ∧
    (cam3 3).running = true ∧
    (cam3 3).camOn 3 = true ∧
    ((cam3 3).camState 3 = 3 ∨ (cam3 3).camState 3 = 2 ∨ (cam3 3).camState 3 = 7) ∧
    (cam3 3).camSlots 3 = [] ∧
    (cam3 7).running = true ∧
    (cam3 7).camOn 3 = true ∧
    ((cam3 7).camState 3 = 3 ∨ (cam3 7).camState 3 = 2 ∨ (cam3 7).camState 3 = 7) ∧
    (cam3 7).camSlots 3 = [] ∧
    s10_1.running = true ∧
    (s10_1.cam 3).retryAt = some 3 ∧
    s10_1.camOn 3 = true ∧
    s10_1.camState 3 = 4 ∧
    3 ≤ max s10_1.now 3 ∧
    s10_1.bit (R.CXP_PORT_CFG 3) 1 = false ∧
    s10_2.running = true ∧
    (s10_2.cam 3).retryAt = some 4 ∧
    s10_2.camOn 3 = true ∧
    s10_2.camState 3 = 4 ∧
    max s10_2.now 3 < 4 ∧
    pox.running = true ∧
    4294967287 &&& pox.pocxp.enables &&& pox.pocxp.prevFault = 0 ∧
    4294967295 &&& pox.pocxp.enables &&& pox.pocxp.prevFault = 1#32 <<< 3 ∧
    pox.camState (pox.camOf 3) ≠ 5 ∧
    pox.camSlots (pox.camOf 3) = [] ∧
    pox2.running = true ∧
    KMap.find pox2.pocxp.retryAt (pox2.camOf 3) = some 5 ∧
    5 ≤ max pox2.now 5 ∧
    pox2.camOn (pox2.camOf 3) = true ∧
    pox2.camState (pox2.camOf 3) = 5 ∧
    pox3.running = true ∧
    KMap.find pox3.pocxp.retryAt (pox3.camOf 3) = some 5 ∧
    5 ≤ max pox3.now 5 ∧
    pox3.camOn (pox3.camOf 3) = true ∧
    pox3.camState (pox3.camOf 3) = 5 ∧
    (edg 3 true).running = true ∧
    ((edg 3 true).cam 3).edges = ((edg 3 true).cam 3).edges ∧
    (true = true ∨ (edg 3 true).camState 3 ≠ 3) ∧
    (edg 4 false).running = true ∧
    ((edg 4 false).cam 3).edges = ((edg 4 false).cam 3).edges ∧
    (false = true ∨ (edg 4 false).camState 3 ≠ 3) ∧
    (edg 3 false).running = true ∧
    ((edg 3 false).cam 3).edges = ((edg 3 false).cam 3).edges ∧
    (edg 3 false).camState 3 = 3 ∧
    ((edg 3 false).cam 3).uplink = [] ∧
    ((edg 3 false).cam 3).stamps.length < 8192 ∧
    (ctlS none).running = true ∧
    (Instr.cxpCtlWrite 5 127 = Instr.cxpCtlRead 5 127 ∨ Instr.cxpCtlWrite 5 127 = Instr.cxpCtlWrite 5 127) ∧
    BitVec.getLsbD (127 : W32) 6 = true ∧
    (ctlS none).attached = true ∧
    (ctlS none).intk.ctl = none ∧
    (Instr.cxpCtlRead 5 67 = Instr.cxpCtlRead 5 67 ∨ Instr.cxpCtlRead 5 67 = Instr.cxpCtlWrite 5 67) ∧
    BitVec.getLsbD (67 : W32) 6 = true ∧
    s10_3.running = true ∧
    (BitVec.getLsbD (67 : W32) 6 = false ∨ s10_3.attached = false ∨ s10_3.intk.ctl ≠ none) ∧
    s10_4.running = true ∧
    s10_4.intk.ctl = some a10_1 ∧
    a10_1.held = false ∧
    s10_5.running = true ∧
    s10_5.intk.ctl = some a10_2 ∧
    a10_2.held = false ∧
    max s10_5.now 99999999 < a10_2.sentAt + 100000000 ∧
    s10_6.running = true ∧
    s10_6.intk.ctl = some a10_3 ∧
    a10_3.held = false ∧
    a10_3.sentAt + 100000000 ≤ max s10_6.now 100000000 ∧
    a10_3.resends < 3 ∧
    s10_7.running = true ∧
    s10_7.intk.ctl = some a10_4 ∧
    a10_4.held = false ∧
    a10_4.sentAt + 100000000 ≤ max s10_7.now 100000000 ∧
    3 ≤ a10_4.resends ∧
    (cam3 3).camState ((cam3 3).camOf 3) = 3 := by
  refine ⟨.inr ⟨by decide, by decide, by decide, by decide, lsb7 _ _ (by decide)⟩,
    .inr ⟨by decide, by decide, by decide, by decide, lsb7 _ _ (by decide)⟩, .inl ⟨by decide, by decide⟩, .inl (by decide), ?_⟩
  and_intros <;> decide

/-- The hypotheses of `LaneMeasurements` are met. -/
theorem witness_LaneMeasurements :
    (prb 65280).running = true ∧
    (prb 65280).prbsActive 2 = true ∧
    (prb 65281).running = true ∧
    (prb 65281).prbsActive 2 = true ∧
    (prb 65281).bit (R.CXP_PRBS_STAT 2) 0 = true ∧
    (eyeS none).running = true ∧
    (Instr.eyeScanAbort 5 1 (65536 + 10 * 256) = Instr.eyeScanStart 5 1 (65536 + 10 * 256) ∨
      Instr.eyeScanAbort 5 1 (65536 + 10 * 256) = Instr.eyeScanAbort 5 1 (65536 + 10 * 256)) ∧
    KMap.find (eyeS none).intk.eye 1 = none ∧
    BitVec.getLsbD ((65536 + 10 * 256) : W32) 16 = true ∧
    (eyeS none).eyeAsk 1 68096 = (eyeS none).eyeAsk 1 68096 ∧
    (Instr.eyeScanStart 5 1 (65536 + 9 * 256) = Instr.eyeScanStart 5 1 (65536 + 9 * 256) ∨
      Instr.eyeScanStart 5 1 (65536 + 9 * 256) = Instr.eyeScanAbort 5 1 (65536 + 9 * 256)) ∧
    BitVec.getLsbD ((65536 + 9 * 256) : W32) 16 = true ∧
    (eyeS none).eyeAsk 1 67840 = none ∧
    (eyeS (some ey)).running = true ∧
    (Instr.eyeScanStart 5 1 196608 = Instr.eyeScanStart 5 1 196608 ∨ Instr.eyeScanStart 5 1 196608 = Instr.eyeScanAbort 5 1 196608) ∧
    KMap.find (eyeS (some ey)).intk.eye 1 = some ey ∧
    BitVec.getLsbD (196608 : W32) 17 = true ∧
    ey.next < 4096 ∧
    s10_8.running = true ∧
    KMap.find s10_8.intk.eye 1 = some a10_5 ∧
    a10_5.next < 4096 := by
  and_intros <;> decide

/-- The hypotheses of `ChainCommands` are met. -/
theorem witness_ChainCommands :
    (∃ x, pu.xlateAll a10_7.ctx true false 2 2097136 (max 1 frm.payload.length) = XRes.ok x) ∧
    (ch 1).running = true ∧
    (ch 1).chain.inject = [] ∧
    (ch 1).chain.transit = [] ∧
    (ch 1).chain.heldAt = none ∧
    (ch 1).chain.ports.length = 4 ∧
    (ch 1).portOn (1 / 2) = true ∧
    (ch 1).laneState 1 ≤ 1 ∧
    (ch 0).running = true ∧
    (ch 0).chain.inject = [] ∧
    (ch 0).chain.transit = [] ∧
    (ch 0).chain.heldAt = none ∧
    (ch 0).chain.ports.length = 4 ∧
    (ch 0).portOn (0 / 2) = true ∧
    (ch 0).laneState 0 ≤ 1 ∧
    (ch 1).fld (R.LNK_NLX_PORT_STAT (1 / 2)) 0 2 = 0 ∧
    (ch4 [1, 2]).running = true ∧
    (ch4 [1, 2]).chain.inject = [] ∧
    (ch4 [1, 2]).chain.transit = [] ∧
    (ch4 [1, 2]).chain.heldAt = none ∧
    (ch4 [1, 2]).chain.ports.length = 4 ∧
    (ch4 [1, 2]).laneState 1 = 4 ∧
    ((ch4 [1, 2]).lane 1).retrains.length < 3 ∧
    (ch4 [1, 2, 3]).running = true ∧
    (ch4 [1, 2, 3]).chain.inject = [] ∧
    (ch4 [1, 2, 3]).chain.transit = [] ∧
    (ch4 [1, 2, 3]).chain.heldAt = none ∧
    (ch4 [1, 2, 3]).chain.ports.length = 4 ∧
    (ch4 [1, 2, 3]).laneState 1 = 4 ∧
    (ch 2).running = true ∧
    (ch 2).chain.inject = [] ∧
    (ch 2).chain.transit = [] ∧
    (ch 2).chain.heldAt = none ∧
    (ch 2).chain.ports.length = 4 ∧
    (((ch 2).laneState 1 = 2 ∨ (ch 2).laneState 1 = 3) ∧ ((ch 2).lane 1).rxIdle = false) ∧
    (ch 3).running = true ∧
    (ch 3).chain.inject = [] ∧
    (ch 3).chain.transit = [] ∧
    (ch 3).chain.heldAt = none ∧
    (ch 3).chain.ports.length = 4 ∧
    (((ch 3).laneState 1 = 2 ∨ (ch 3).laneState 1 = 3) ∧ ((ch 3).lane 1).rxIdle = false) ∧
    chR.running = true ∧
    chR.chain.inject = [] ∧
    chR.chain.transit = [] ∧
    chR.chain.heldAt = none ∧
    chR.chain.ports.length = 4 ∧
    (¬((chR.laneState 1 = 2 ∨ chR.laneState 1 = 3) ∧ (chR.lane 1).rxIdle = false)) ∧
    (chR.lane 1).rxIdle = true ∧
    chI.running = true ∧
    chI.chain.inject = [] ∧
    chI.chain.transit = [] ∧
    chI.chain.heldAt = none ∧
    chI.chain.ports.length = 4 ∧
    chI.laneState 1 = 2 ∧
    chI.bit R.LNK_NLX_LANE_CFG 0 = true ∧
    chI.sbarArmed = false ∧
    (chI.lane 1).frameAt + chI.fld R.LNK_NLX_LANE_CFG 8 8 * 1000 ≤ max chI.now 2000 ∧
    (ch 3).laneState 1 = 3 ∧
    (ch 2).portOn 0 = true ∧
    (ch 2).portUp 0 = false ∧
    ((ch 2).nlx 0).replay = [] ∧
    (ch 2).timSrc ≠ 2 ∧
    (ch 2).laneState (2 * 0) = 2 ∧
    (ch 2).laneState (2 * 0 + 1) = 2 ∧
    (¬(4 = (ch 2).chainId ∨ 1 ≠ (ch 2).topo ∨ if (ch 2).topo = 1 then ¬(0 = 0 ∧
      4 = ((ch 2).chainId + max 1 ((ch 2).fld R.LNK_CHAIN_CFG 18 7) - 1) % max 1 ((ch 2).fld R.LNK_CHAIN_CFG 18 7) ∨ 0 = 1 ∧
      4 = ((ch 2).chainId + 1) % max 1 ((ch 2).fld R.LNK_CHAIN_CFG 18 7)) else true = false)) ∧
    (6 = (ch 2).chainId ∨ 1 ≠ (ch 2).topo ∨ if (ch 2).topo = 1 then ¬(0 = 0 ∧
      6 = ((ch 2).chainId + max 1 ((ch 2).fld R.LNK_CHAIN_CFG 18 7) - 1) % max 1 ((ch 2).fld R.LNK_CHAIN_CFG 18 7) ∨ 0 = 1 ∧
      6 = ((ch 2).chainId + 1) % max 1 ((ch 2).fld R.LNK_CHAIN_CFG 18 7)) else true = false) ∧
    auO.running = true ∧
    auO.chain.inject = [] ∧
    auO.chain.transit = [] ∧
    auO.chain.heldAt = none ∧
    auO.chain.ports.length = 4 ∧
    auO.fld (R.LNK_NLX_PORT_STAT 0) 0 2 = 1 ∧
    auO.scUp = true ∧
    (true = true ∧ true = true ∧ some 7 = auO.sec.owner) ∧
    au.running = true ∧
    au.chain.inject = [] ∧
    au.chain.transit = [] ∧
    au.chain.heldAt = none ∧
    au.chain.ports.length = 4 ∧
    au.fld (R.LNK_NLX_PORT_STAT 0) 0 2 = 1 ∧
    au.scUp = true ∧
    (¬(true = true ∧ true = true ∧ some 7 = au.sec.owner)) ∧
    (au.nlx 0).replay = [] ∧
    au.timSrc ≠ 2 ∧
    (Tests.set [(R.DBG_FW_STAT 0, 2)] auO).running = true ∧
    (Tests.set [(R.DBG_FW_STAT 0, 2)] auO).chain.inject = [] ∧
    (Tests.set [(R.DBG_FW_STAT 0, 2)] auO).chain.transit = [] ∧
    (Tests.set [(R.DBG_FW_STAT 0, 2)] auO).chain.heldAt = none ∧
    (Tests.set [(R.DBG_FW_STAT 0, 2)] auO).chain.ports.length = 4 ∧
    (Tests.set [(R.DBG_FW_STAT 0, 2)] auO).fld (R.LNK_NLX_PORT_STAT 0) 0 2 = 1 ∧
    (Tests.set [(R.DBG_FW_STAT 0, 2)] auO).scUp = false ∧
    pu.running = true ∧
    pu.chain.inject = [] ∧
    pu.chain.transit = [] ∧
    pu.chain.heldAt = none ∧
    pu.chain.ports.length = 4 ∧
    pu.portUp 0 = true ∧
    a10_6.ack = none ∧
    a10_6.only = false ∧
    a10_6.heads = [] ∧
    a10_6.answers = [] ∧
    a10_6.reach = none ∧
    a10_6.aligned = [] ∧
    a10_6.crcOk = false ∧
    frm.ack = none ∧
    frm.only = false ∧
    frm.heads = [] ∧
    frm.answers = [] ∧
    frm.reach = none ∧
    frm.aligned = [] ∧
    frm.crcOk = true ∧
    4095 = (pu.nlx 0).rxSeq ∧
    5 = pu.chainId ∧
    frm.typ = 0 ∧
    pu.grantFor 6 1 4080 frm.payload.length = some a10_7 ∧
    2097136 = a10_7.base + 4080 ∧
    2097136 % 4096 + frm.payload.length ≤ 4096 ∧
    (pr 14).running = true ∧
    (pr 14).chain.inject = [] ∧
    (pr 14).chain.transit = [] ∧
    (pr 14).chain.heldAt = none ∧
    (pr 14).chain.ports.length = 4 ∧
    (pr 14).portUp 0 = true ∧
    ((pr 14).nlx 0).replay ≠ [] ∧
    ((pr 14).nlx 0).ackAt + 3000 ≤ max (pr 14).now 3000 ∧
    ((pr 14).nlx 0).resends < 15 ∧
    max (pr 14).now 2999 < ((pr 14).nlx 0).ackAt + 3000 ∧
    (sh 1).running = true ∧
    (sh 1).chain.inject = [] ∧
    (sh 1).chain.transit = [] ∧
    (sh 1).chain.heldAt = none ∧
    (sh 1).chain.ports.length = 4 ∧
    (sh 1).shareEntry 4 6 0 = some 9 ∧
    0 = 0 ∧
    (sh 1).shareEntry 4 7 0 = none ∧
    (ch 1).route 7 = none ∧
    7 ∉ (ch 1).chain.lost ∧
    7 ≠ (ch 1).chainId ∧
    (ch 1).sch.pours = [] ∧
    (ch 1).line.ledger = [] ∧
    (al 0).running = true ∧
    (al 0).chain.inject = [] ∧
    (al 0).chain.transit = [] ∧
    (al 0).chain.heldAt = none ∧
    (al 0).chain.ports.length = 4 ∧
    (¬(↑1000 - ↑2000 < 1000 ∧ ↑2000 - ↑1000 < 1000)) ∧
    (al 0).bit (R.LNK_ALIGN 1 + 4) 16 = false ∧
    (al 1).running = true ∧
    (al 1).chain.inject = [] ∧
    (al 1).chain.transit = [] ∧
    (al 1).chain.heldAt = none ∧
    (al 1).chain.ports.length = 4 ∧
    (↑1000 - ↑1999 < 1000 ∧ ↑1999 - ↑1000 < 1000) ∧
    (al 1).bit (R.LNK_ALIGN 1 + 4) 16 = true ∧
    (diff48 2 (nth (al 1).chain.align 1 {  }).lastP).natAbs ≤ 2 * (al 1).rfld (R.RNY_ENC_CHK 1) 0 16 ∧
    wrapI (diff48 0 2) 48 = (al 1).rd64 (R.LNK_ALIGN 1) % 2 ^ 48 ∧
    (↑1999 - ↑1000 < 1000 ∧ ↑1000 - ↑1999 < 1000) ∧
    (¬wrapI (diff48 1 2) 48 = (al 1).rd64 (R.LNK_ALIGN 1) % 2 ^ 48) := by
  refine ⟨⟨_, rfl⟩, ?_⟩
  and_intros <;> decide

end Sys2Proof.Tests.W10

namespace Sys2Proof.Tests.W11

open Sys2Proof Sys2Proof.Machine Sys2Proof.Tests

set_option maxRecDepth 100000
set_option exponentiation.threshold 1024

/-! ### Runners, ledger and journal -/

/-- Slot `k` of runner 2 takes lines of four U8 pixels of stream 7 from camera 3. -/
def runW (k src : Nat) : List (Nat × Nat) :=
  [(R.RUN_SRC 2 k, src + 7 * 4), (R.RUN_GEOM 2 k, 4 + 2 * 2 ^ 16), (R.CXP_STREAM_MAP 7, 1 + 3 * 2), (R.CXP_PORT_STAT 3, 3), (R.CXP_TRIG_CFG 3, 1), (R.RUN_BLK_TIMEOUT 2 k, 5),
   (R.RUN_CROP 2 k, 4 * 2 ^ 16), (R.RUN_BIN 2 k, 17), (R.RUN_STRIPE 2 k 0, 1), (R.RUN_TM_SIZE 2 k, 1)]

def runSt (k src : Nat) (x : Slot) : State :=
  let s := set (runW k src) up
  { s with intk := { s.intk with cams := [(3, { stamps := [{ count := 50, time := 60 }, { count := 51, time := 61 }] })], slots := [(8 + k, x)] } }

def s11_1 : State := runSt 0 1 {blk := some (4, 2, 1), blkHdr := (7, 3, 4, 0)}

def s11_2 : State := runSt 1 1 {blk := some (4, 2, 0), blkHdr := (7, 3, 4, 0)}

def s11_3 : State := runSt 1 1 {nextBlock := 2^32-1}

def a11_1 : BlockHeader := { lines := 2, width := 4, fmt := 0 }

def a11_2 : BlockHeader := { lines := 3, width := 4, fmt := 0 }

def s11_4 : State := runSt 1 1 {nextBlock := 5}

def a11_3 : BlockHeader := { lines := 0, width := 4, fmt := 0 }

def s11_5 : State := runSt 1 1 {blk := some (2^24+4, 2, 1)}

def s11_6 : State := runSt 1 1 {}

def feedBytes (codec : Bool) : List Byte := blockRecord 7 0 0 4 4 codec false false [{ px := [1,2,3,4] }, { px := [4,3,2,255] }]

def feedSt (bs : List Byte) : State :=
  let s := set ([(R.RUN_FEED_CFG 2 1, 4 + 256), (R.RUN_FEED_BASE 2 1, 0x100000), (R.RUN_FEED_TAIL 2 1, 1), (R.RUN_DEC_MAX 2 1, 64)] ++ runW 1 3) jobSt
  { s with fab := { s.fab with dram := Mem.writeBytes (Mem.writeBytes [] 0x100000 (leBytes 0x100100 8 ++ leBytes bs.length 4 ++ zeroBytes 20)) 0x100100 bs } }

theorem feedHead1 : (feedSt (feedBytes true)).feedHead (4 * 2 + 1) = .ok (feedBytes true) := rfl

def a11_4 : TileHdr := { w := 4, h := 2, bits := 8, entries := [(2, 5)] }

def badTile : List Byte := (feedBytes true).set 96 0

theorem feedHead2 : (feedSt badTile).feedHead (4 * 2 + 1) = .ok badTile := rfl

def roiSt (n : Nat) : State := let s := set [(R.RUN_ROI_COUNT 2 1, n), (R.RUN_ROI_LIST 2 1 0 0, 5), (R.RUN_ROI_LIST 2 1 0 0 + 4, 6)] (runSt 1 1 {nextBlock := 6, rois := [(6, [1]), (8, [2])], roiRow := (0, 5)}); s

def outSt (x : Slot) (p : Program := prog0) : State :=
  let s := runSt 0 1 x
  { s with sch := { s.sch with progs := [⟨1, 1, p⟩] } }

def il : InLine := { row := { px := [1,2,3,255], count := 9, time := 70, t0 := 70 }, block := 4, last := true }

def s11_7 : State := outSt {inq := [il], gapOut := some (1,2,3), rowNo := 6}

def rowA : Row := { px := [1,2,3,255], count := 9, time := 70 }

def strSt (es : List StripeAt) (b : Bool) : State :=
  let s := outSt {outq := [rowA, rowA], rowNo := 8} { prog0 with stripes := if b then [{ runner := 2, slot := 0, stripe := 0, fill := 3, free := 4, reachL := 0, reachR := 0 }] else [] }
  { s with fab := { s.fab with stripes := es } }

def strE : StripeAt := { runner := 2, slot := 0, depth := 1, fill := 3, free := 4 }

def s11_8 : State := strSt [{ strE with n := 1 }] true

def a11_5 : StripeAt := { strE with n := 1 }

def ruleBytes : List Byte := [0,0,0,0, 1, 1, 0, 12, 0] ++ zeroBytes 23 ++ leBytes 0 4 ++ leBytes 0x3F800000 4 ++ leBytes 1 8 ++ zeroBytes 8 ++ leBytes 7 4 ++ zeroBytes 4

def headSt (e : LEntry) : State :=
  let s := set [(R.LIN_CLASS 4, 1), (R.LIN_CLASS 4 + 8, 1), (R.LIN_CLASS 4 + 4*5, 2)] up
  { s with sch := { s.sch with progs := [⟨1, 1, { prog0 with rules := some (ruleBytes, 0) }⟩], handoffs := [(17, 5)] }, line := { s.line with ledger := [(17, e)] } }

def he : LEntry := { cls := 4, serial := 5, deadline := 1000, trailKnown := true, state := 2, held := true }

def s11_9 : State := headSt { he with verdict := 3 }

def a11_6 : LEntry := { he with verdict := 3 }

def opn : OpenReq := { rid := 8, slot := 9, lane := 2, stream := 7, cls := 4, lead := 100, leadTime := 60 }

def opSt (l : KMap LEntry) (safe : Bool) : State :=
  let s := set [(R.LIN_CLASS 4, 1 + 256 * 10), (R.PWR_SAFE_STAT, if safe then 1 else 0)] up
  { s with intk := { s.intk with opens := [opn, opn] }, line := { s.line with ledger := l, serialNext := 77, mark := 65536 } }

def oneSt (e : LEntry) : State := let s := headSt e; { s with line := { s.line with serialNext := 77, mark := 65536 } }

def fullL : State := opSt (List.replicate 131072 (5, {})) false

theorem fullLedger : 131072 ≤ List.length fullL.line.ledger := by
  show 131072 ≤ List.length (List.replicate 131072 _); rw [List.length_replicate]

def trSt (cut : Bool) (e : LEntry) : State :=
  let s := set [(R.LIN_CLASS 4, 1 + 256 * 10)] up
  { s with intk := { s.intk with trails := [(8, 900, 6, cut), (1, 2, 3, true)] }, line := { s.line with ledger := [(3, {e with rid := 1, cls := 4}), (5, e)] } }

def s11_10 : State := trSt false {he with rid := 8, state := 1, trailKnown := false, lead := 100}

def a11_7 : LEntry := {he with rid := 8, state := 1, trailKnown := false, lead := 100}

def lkSt (e : LEntry) (m : Nat) : State :=
  let s := set [(R.LIN_CLASS 4, 1 + 256 * 10), (R.LIN_MIRROR 0, m)] up
  { s with line := { s.line with ledger := [(5, e)] } }

def hk : LEntry := { he with trailKnown := false, held := false }

def rpSt (k : Nat) (e : LEntry) : State :=
  let s := lkSt e 0
  { s with sch := { s.sch with reports := [{ entry := 5, serial := 5, kind := k, step := 2^32 + 7 }] } }

def hr : LEntry := { hk with held := true }

def a11_8 : Report := { entry := 5, serial := 5, kind := 0, step := 2^32 + 7 }

def a11_9 : Report := { entry := 5, serial := 5, kind := 1, step := 2^32 + 7 }

def a11_10 : Report := { entry := 5, serial := 5, kind := 2, step := 2^32 + 7 }

def a11_11 : Report := { entry := 5, serial := 5, kind := 3, step := 2^32 + 7 }

def tord : TapOrder := { k := 3, entry := 5, tap := 2, serial := 5 }

def rxSt (m : Msg) (e : LEntry) : State := let s := lkSt e 0; { s with line := { s.line with rx := [m, .motion 1], tx := [] } }

def ht (h : Bool) : LEntry := { hr with held := h, state := 4, verdict := 2, trailKnown := true, taps := [.fired, .off, .sent, .unfired] }

def jSt (full : Bool) (f : Nat) : State :=
  let s := set [(R.LIN_JRN_CFG, f * 256), (R.CMD_HOST_STATE, 1), (R.LIN_JRN_RD_BLOCK, 7), (R.LIN_HALT_STAT, 0xFFFFFFFF), (R.LIN_HALT_CFG, 16)] up
  { s with jrn := { s.jrn with openBlock := { num := 8, recs := if full then [{}] else [] }, firstAt := 5, pageAt := 7, sealedBlocks := [{ num := 7, recs := [{}], atBoot := true }] } , line := { s.line with causeAt := [(0, 5), (1, 7)]} }

def a11_12 : JBlock := { num := 7, recs := [{}], atBoot := true }

/-- The hypotheses of `RunnerInput` are met. -/
theorem witness_RunnerInput :
    (∀ x : ℕ, s11_1.rowGen (4 * 2 + 0) x = s11_1.liveGen) ∧
    (∀ x : ℕ, s11_2.rowGen (4 * 2 + 1) x = s11_2.liveGen) ∧
    (∀ x : ℕ, s11_3.rowGen (4 * 2 + 1) x = s11_3.liveGen) ∧
    (∀ x : ℕ, s11_4.rowGen (4 * 2 + 1) x = s11_4.liveGen) ∧
    (∀ x : ℕ, s11_5.rowGen (4 * 2 + 1) x = s11_5.liveGen) ∧
    (∀ x : ℕ, s11_6.rowGen (4 * 2 + 1) x = s11_6.liveGen) ∧
    (∀ x : ℕ, (feedSt (feedBytes true)).rowGen (4 * 2 + 1) x = (feedSt (feedBytes true)).liveGen) ∧
    (feedSt (feedBytes true)).feedHead (4 * 2 + 1) = FeedRec.ok (feedBytes true) ∧
    (∀ x : ℕ, (feedSt badTile).rowGen (4 * 2 + 1) x = (feedSt badTile).liveGen) ∧
    (feedSt badTile).feedHead (4 * 2 + 1) = FeedRec.ok badTile ∧
    (∀ x : ℕ, (roiSt 257).rowGen (4 * 2 + 1) x = (roiSt 257).liveGen) ∧
    (∀ x : ℕ, (roiSt 256).rowGen (4 * 2 + 1) x = (roiSt 256).liveGen) ∧
    (∀ x : ℕ, (roiSt 1).rowGen (4 * 2 + 1) x = (roiSt 1).liveGen) ∧
    s11_1.running = true ∧
    s11_1.streamCam 7 = some 3 ∧
    s11_1.fld (R.CXP_TRIG_CFG 3) 0 2 ≠ 0 ∧
    (s11_1.cam 3).stamps = (s11_1.cam 3).stamps ∧
    s11_1.blkSlot 7 = some (4 * 2 + 0) ∧
    s11_1.rd (R.RUN_SRC 2 0) % 4 = 1 ∧
    s11_1.rd (R.RUN_SRC 2 0) / 4 % 64 = 7 ∧
    (s11_1.slot (4 * 2 + 0)).blkHdr = (7, 3, s11_1.fld (R.RUN_GEOM 2 0) 0 16, s11_1.fld (R.RUN_SRC 2 0) 8 2) ∧
    (1 ≤ 2 ∧ 2 ≤ s11_1.fld (R.RUN_GEOM 2 0) 16 16 ∧ 2 % (s11_1.fld (R.RUN_LIN 2 0) 1 2 + 1) = 0) ∧
    (s11_1.slot (4 * 2 + 0)).blk = some (4, 2, 1) ∧
    (s11_1.slot (4 * 2 + 0)).dropRest = false ∧
    [1, 2, 3, 4].length = s11_1.fld (R.RUN_GEOM 2 0) 0 16 ∧
    s11_1.lineRoom s11_1.liveGen (4 * 2 + 0) (s11_1.fld (R.RUN_SRC 2 0) 8 2) (s11_1.fld (R.RUN_GEOM 2 0) 0 16) 4 = true ∧
    s11_2.running = true ∧
    s11_2.streamCam 7 = some 3 ∧
    s11_2.fld (R.CXP_TRIG_CFG 3) 0 2 ≠ 0 ∧
    (s11_2.cam 3).stamps = (s11_2.cam 3).stamps ∧
    s11_2.blkSlot 7 = some (4 * 2 + 1) ∧
    s11_2.rd (R.RUN_SRC 2 1) % 4 = 1 ∧
    s11_2.rd (R.RUN_SRC 2 1) / 4 % 64 = 7 ∧
    (s11_2.slot (4 * 2 + 1)).blkHdr = (7, 3, s11_2.fld (R.RUN_GEOM 2 1) 0 16, s11_2.fld (R.RUN_SRC 2 1) 8 2) ∧
    (1 ≤ 2 ∧ 2 ≤ s11_2.fld (R.RUN_GEOM 2 1) 16 16 ∧ 2 % (s11_2.fld (R.RUN_LIN 2 1) 1 2 + 1) = 0) ∧
    (s11_2.slot (4 * 2 + 1)).blk = some (4, 2, 0) ∧
    (s11_2.slot (4 * 2 + 1)).dropRest = false ∧
    [1, 2, 3, 4].length = s11_2.fld (R.RUN_GEOM 2 1) 0 16 ∧
    s11_2.lineRoom s11_2.liveGen (4 * 2 + 1) (s11_2.fld (R.RUN_SRC 2 1) 8 2) (s11_2.fld (R.RUN_GEOM 2 1) 0 16) 4 = true ∧
    s11_3.running = true ∧
    s11_3.rd (R.RUN_SRC 2 1) % 4 = 1 ∧
    s11_3.streamCam (s11_3.rd (R.RUN_SRC 2 1) / 4 % 64) = some 3 ∧
    (s11_3.slot (4 * 2 + 1)).blk = none ∧
    (s11_3.slot (4 * 2 + 1)).tap = none ∧
    (s11_3.slot (4 * 2 + 1)).inq = [] ∧
    (4 = s11_3.fld (R.RUN_GEOM 2 1) 0 16 ∧ (1 ≤ 2 ∧ 2 ≤ s11_3.fld (R.RUN_GEOM 2 1) 16 16 ∧ 2 % (s11_3.fld (R.RUN_LIN 2 1) 1 2 + 1) = 0) ∧
      0 = s11_3.fld (R.RUN_SRC 2 1) 8 2) ∧
    (¬(4 = s11_3.fld (R.RUN_GEOM 2 1) 0 16 ∧ (1 ≤ 3 ∧ 3 ≤ s11_3.fld (R.RUN_GEOM 2 1) 16 16 ∧ 3 % (s11_3.fld (R.RUN_LIN 2 1) 1 2 + 1) = 0) ∧
      0 = s11_3.fld (R.RUN_SRC 2 1) 8 2)) ∧
    s11_4.running = true ∧
    s11_4.rd (R.RUN_SRC 2 1) % 4 = 1 ∧
    s11_4.streamCam (s11_4.rd (R.RUN_SRC 2 1) / 4 % 64) = some 3 ∧
    (s11_4.slot (4 * 2 + 1)).blk = none ∧
    (s11_4.slot (4 * 2 + 1)).tap = none ∧
    (s11_4.slot (4 * 2 + 1)).inq = [] ∧
    (¬(4 = s11_4.fld (R.RUN_GEOM 2 1) 0 16 ∧ (1 ≤ 0 ∧ 0 ≤ s11_4.fld (R.RUN_GEOM 2 1) 16 16 ∧ 0 % (s11_4.fld (R.RUN_LIN 2 1) 1 2 + 1) = 0) ∧
      0 = s11_4.fld (R.RUN_SRC 2 1) 8 2)) ∧
    s11_5.running = true ∧
    (s11_5.slot (4 * 2 + 1)).blk = some (2 ^ 24 + 4, 2, 1) ∧
    (s11_5.slot (4 * 2 + 1)).dropRest = false ∧
    (s11_5.slot (4 * 2 + 1)).blkCut = false ∧
    (s11_5.slot (4 * 2 + 1)).tap = none ∧
    (s11_5.slot (4 * 2 + 1)).inq = [] ∧
    (s11_5.slot (4 * 2 + 1)).pktAt + s11_5.fld (R.RUN_BLK_TIMEOUT 2 1) 0 16 * 1000 < max s11_5.now 5001 ∧
    max s11_5.now 5000 ≤ (s11_5.slot (4 * 2 + 1)).pktAt + s11_5.fld (R.RUN_BLK_TIMEOUT 2 1) 0 16 * 1000 ∧
    s11_6.running = true ∧
    (feedSt (feedBytes true)).running = true ∧
    (feedSt (feedBytes true)).isFeed (4 * 2 + 1) = true ∧
    ((feedSt (feedBytes true)).slot (4 * 2 + 1)).inq = [] ∧
    ((feedSt (feedBytes true)).slot (4 * 2 + 1)).tap = none ∧
    (leAt (feedBytes true) 5 1).testBit 1 = true ∧
    tileHdr (List.take (leAt (feedBytes true) 36 4) (List.drop (64 + 16 * leAt (feedBytes true) 12 2) (feedBytes true))) (leAt (feedBytes true) 36 4) = some a11_4 ∧
    a11_4.w * a11_4.h * a11_4.bits ≤ (feedSt (feedBytes true)).rd (R.RUN_DEC_MAX 2 1) ∧
    (a11_4.entries.any fun e => decide (2048 * e.2 < e.1 * a11_4.w * a11_4.bits)) = false ∧
    (feedSt (feedBytes true)).recMatch (4 * 2 + 1) (feedBytes true) a11_4.w a11_4.h a11_4.bits = true ∧
    a11_4.h = leAt (feedBytes true) 12 2 ∧
    decodeBlocks a11_4.bits a11_4.w a11_4.entries (List.drop (32 + 8 * a11_4.entries.length) (List.take (leAt (feedBytes true) 36 4) (List.drop (64 + 16 * leAt (feedBytes true) 12 2) (feedBytes true)))) = ([[1, 2, 3, 4], [4, 3, 2, 255]], true) ∧
    (feedSt badTile).running = true ∧
    (feedSt badTile).isFeed (4 * 2 + 1) = true ∧
    ((feedSt badTile).slot (4 * 2 + 1)).inq = [] ∧
    ((feedSt badTile).slot (4 * 2 + 1)).tap = none ∧
    (leAt badTile 5 1).testBit 1 = true ∧
    tileHdr (List.take (leAt badTile 36 4) (List.drop (64 + 16 * leAt badTile 12 2) badTile)) (leAt badTile 36 4) = none ∧
    (roiSt 257).running = true ∧
    256 < (roiSt 257).fld (R.RUN_ROI_COUNT 2 1) 0 10 ∧
    (roiSt 256).running = true ∧
    (roiSt 256).fld (R.RUN_ROI_COUNT 2 1) 0 10 ≤ 256 ∧
    ((roiSt 256).slot (4 * 2 + 1)).roiLate 4 = true ∧
    (roiSt 1).running = true ∧
    (roiSt 1).fld (R.RUN_ROI_COUNT 2 1) 0 10 ≤ 256 ∧
    ((roiSt 1).slot (4 * 2 + 1)).roiLate 6 = false := by
  refine ⟨(fun _ => rfl), (fun _ => rfl), (fun _ => rfl), (fun _ => rfl), (fun _ => rfl), (fun _ => rfl), (fun _ => rfl), feedHead1,
    (fun _ => rfl), feedHead2, (fun _ => rfl), (fun _ => rfl), (fun _ => rfl), ?_⟩
  and_intros <;> decide

/-- The hypotheses of `RunnerOutput` are met. -/
theorem witness_RunnerOutput :
    (∀ x : ℕ, s11_7.rowGen (4 * 2) x = s11_7.liveGen) ∧
    s11_7.running = true ∧
    s11_7.slot (4 * 2) = { (s11_7.slot (4 * 2)) with inq := [il] } ∧
    s11_7.pwr.state = 0 ∧
    s11_7.boot.lineStarted = true ∧
    s11_7.crossing = none ∧
    s11_7.fld (R.RUN_SRC 2 0) 0 2 = 1 ∧
    s11_7.fld (R.RUN_LIN 2 0) 0 3 = 0 ∧
    s11_7.fld (R.RUN_FF 2 0) 0 2 = 0 ∧
    s11_7.fld (R.RUN_CROP 2 0) 0 14 = 0 ∧
    il.row.px.length ≤ s11_7.fld (R.RUN_CROP 2 0) 16 15 ∧
    s11_7.fld (R.RUN_BIN 2 0) 0 10 = 17 ∧
    s11_7.fld (R.RUN_TAP_CFG 2 0) 0 1 = 0 ∧
    s11_7.fld (R.RUN_ROI_CFG 2 0) 0 1 = 0 ∧
    s11_7.fld (R.RUN_SEG_CFG 2 0) 0 2 = 0 ∧
    il.row.gap = none ∧
    (strSt [] false).running = true ∧
    ((strSt [] false).slot (4 * 2 + 0)).outq = [rowA, rowA] ∧
    (strSt [] false).pwr.state = 0 ∧
    (∀ e ∈ (strSt [] false).fab.stripes, e.till = none) ∧
    (strSt [] false).stripesFor (4 * 2 + 0) ((strSt [] false).rowGen (4 * 2 + 0) rowA.time :: rowA.gens) = [] ∧
    (strSt [strE] true).running = true ∧
    ((strSt [strE] true).slot (4 * 2 + 0)).outq = [rowA, rowA] ∧
    (strSt [strE] true).pwr.state = 0 ∧
    (∀ e ∈ (strSt [strE] true).fab.stripes, e.till = none) ∧
    (strSt [strE] true).stripesFor (4 * 2 + 0) ((strSt [strE] true).rowGen (4 * 2 + 0) rowA.time :: rowA.gens) = [strE] ∧
    (strSt [strE] true).stripeRoom strE = true ∧
    (strSt [strE] true).stripeBound strE = true ∧
    s11_8.running = true ∧
    (s11_8.slot (4 * 2 + 0)).outq = [rowA, rowA] ∧
    s11_8.pwr.state = 0 ∧
    (∀ e ∈ s11_8.fab.stripes, e.till = none) ∧
    a11_5 ∈ s11_8.stripesFor (4 * 2 + 0) (s11_8.rowGen (4 * 2 + 0) rowA.time :: rowA.gens) ∧
    s11_8.stripeRoom a11_5 = false ∧
    s11_9.running = true ∧
    s11_9.schUp = true ∧
    List.find? (fun h => h.1 == 17) s11_9.sch.handoffs = some (17, 5) ∧
    s11_9.entry 17 = some a11_6 ∧
    a11_6.serial = 5 ∧
    s11_9.ruleSection a11_6 = some (ruleBytes, 0) ∧
    a11_6.verdict ≠ 0 ∧
    (headSt he).running = true ∧
    (headSt he).schUp = true ∧
    List.find? (fun h => h.1 == 17) (headSt he).sch.handoffs = some (17, 5) ∧
    (headSt he).entry 17 = some he ∧
    he.serial = 5 ∧
    (headSt he).ruleSection he = some (ruleBytes, 0) ∧
    he.verdict = 0 ∧
    (headSt he).reached he he.deadline = false ∧
    (headSt he).line.frozen = false ∧
    he.held = true := by
  refine ⟨(fun _ => rfl), ?_⟩
  and_intros <;> decide

/-- The hypotheses of `LedgerCommands` are met. -/
theorem witness_LedgerCommands :
    131072 ≤ List.length fullL.line.ledger ∧
    (opSt [(3, he)] false).running = true ∧
    (opSt [(3, he)] false).line.frozen = false ∧
    (opSt [(3, he)] false).intk.opens = [opn, opn] ∧
    (opSt [(3, he)] false).shareRole opn.gen opn.cls ≠ 2 ∧
    List.length (opSt [(3, he)] false).line.ledger < 131072 ∧
    (opSt [(3, he)] false).entry 2 = none ∧
    (opSt [(3, he)] false).sec.fault = false ∧
    (opSt [(3, he)] false).safe = false ∧
    opn.corrupt = false ∧
    (opSt [(3, he)] false).memberMissing opn.gen opn.cls = false ∧
    (opSt [(3, he)] true).running = true ∧
    (opSt [(3, he)] true).line.frozen = false ∧
    (opSt [(3, he)] true).intk.opens = [opn, opn] ∧
    (opSt [(3, he)] true).shareRole opn.gen opn.cls ≠ 2 ∧
    List.length (opSt [(3, he)] true).line.ledger < 131072 ∧
    (opSt [(3, he)] true).entry 2 = none ∧
    (opSt [(3, he)] true).sec.fault = false ∧
    ((opSt [(3, he)] true).safe = true ∨ opn.corrupt = true) ∧
    fullL.running = true ∧
    fullL.line.frozen = false ∧
    fullL.intk.opens = [opn, opn] ∧
    fullL.shareRole opn.gen opn.cls ≠ 2 ∧
    s11_10.running = true ∧
    s11_10.line.frozen = false ∧
    s11_10.intk.trails = [(8, 900, 6, false), (1, 2, 3, true)] ∧
    s11_10.intk.opens = [] ∧
    List.find? (fun e => e.2.rid == 8) s11_10.line.ledger = some (5, a11_7) ∧
    a11_7.verdict = 0 ∧
    (lkSt hk 999).running = true ∧
    (lkSt hk 999).line.frozen = false ∧
    (lkSt hk 999).entry 5 = some hk ∧
    (lkSt hk 999).reached hk hk.deadline = false ∧
    (lkSt hk 1000).running = true ∧
    (lkSt hk 1000).line.frozen = false ∧
    (lkSt hk 1000).entry 5 = some hk ∧
    (lkSt hk 1000).reached hk hk.deadline = true ∧
    hk.verdict = 0 ∧
    hk.trailKnown = false ∧
    (rpSt 0 hr).running = true ∧
    (rpSt 0 hr).line.frozen = false ∧
    (rpSt 0 hr).sch.reports = [a11_8] ∧
    a11_8.entry < 131072 ∧
    (rpSt 0 hr).entry a11_8.entry = some hr ∧
    hr.serial = a11_8.serial ∧
    hr.verdict = 0 ∧
    hr.trailKnown = false ∧
    (rpSt 1 hr).running = true ∧
    (rpSt 1 hr).line.frozen = false ∧
    (rpSt 1 hr).sch.reports = [a11_9] ∧
    a11_9.entry < 131072 ∧
    (rpSt 1 hr).entry a11_9.entry = some hr ∧
    hr.serial = a11_9.serial ∧
    (rpSt 2 hr).running = true ∧
    (rpSt 2 hr).line.frozen = false ∧
    (rpSt 2 hr).sch.reports = [a11_10] ∧
    a11_10.entry < 131072 ∧
    (rpSt 2 hr).entry a11_10.entry = some hr ∧
    hr.serial = a11_10.serial ∧
    (rpSt 3 hr).running = true ∧
    (rpSt 3 hr).line.frozen = false ∧
    (rpSt 3 hr).sch.reports = [a11_11] ∧
    a11_11.entry < 131072 ∧
    (rpSt 3 hr).entry a11_11.entry = some hr ∧
    hr.serial = a11_11.serial ∧
    (rxSt (Msg.tapAnswer tord 0) (ht true)).running = true ∧
    (rxSt (Msg.tapAnswer tord 0) (ht true)).line.frozen = false ∧
    (rxSt (Msg.tapAnswer tord 0) (ht true)).line.rx = [Msg.tapAnswer tord 0, Msg.motion 1] ∧
    tord.noent = false ∧
    (rxSt (Msg.tapAnswer tord 0) (ht true)).orderEntry tord = some (ht true) ∧
    (ht true).held = true ∧
    0 ≠ 2 ∧
    (rxSt (Msg.tapAnswer tord 1) (ht true)).running = true ∧
    (rxSt (Msg.tapAnswer tord 1) (ht true)).line.frozen = false ∧
    (rxSt (Msg.tapAnswer tord 1) (ht true)).line.rx = [Msg.tapAnswer tord 1, Msg.motion 1] ∧
    (rxSt (Msg.tapAnswer tord 1) (ht true)).orderEntry tord = some (ht true) ∧
    1 ≠ 2 ∧
    (rxSt (Msg.tapAnswer tord 3) (ht true)).running = true ∧
    (rxSt (Msg.tapAnswer tord 3) (ht true)).line.frozen = false ∧
    (rxSt (Msg.tapAnswer tord 3) (ht true)).line.rx = [Msg.tapAnswer tord 3, Msg.motion 1] ∧
    (rxSt (Msg.tapAnswer tord 3) (ht true)).orderEntry tord = some (ht true) ∧
    3 ≠ 2 ∧
    (rxSt (Msg.fire tord 1 2 0 false) (ht true)).running = true ∧
    (rxSt (Msg.fire tord 1 2 0 false) (ht true)).line.frozen = false ∧
    (rxSt (Msg.fire tord 1 2 0 false) (ht true)).line.rx = [Msg.fire tord 1 2 0 false, Msg.motion 1] ∧
    (rxSt (Msg.fire tord 1 2 0 false) (ht true)).orderEntry tord = some (ht true) ∧
    (rxSt (Msg.fire tord 1 2 1 true) (ht false)).running = true ∧
    (rxSt (Msg.fire tord 1 2 1 true) (ht false)).line.frozen = false ∧
    (rxSt (Msg.fire tord 1 2 1 true) (ht false)).line.rx = [Msg.fire tord 1 2 1 true, Msg.motion 1] ∧
    (rxSt (Msg.fire tord 1 2 1 true) (ht false)).orderEntry tord = some (ht false) ∧
    (ht false).verdict ≠ 0 ∧
    (ht false).verdict < 8 ∧
    (ht false).state = 4 ∧
    (ht false).trailKnown = true ∧
    (ht false).held = false ∧
    { (ht false) with fired := (ht false).fired ||| BitVec.ofNat 4 (2 ^ tord.tap), taps := setNth (ht false).taps tord.tap TapState.fired }.tapsSettled = true := by
  refine ⟨fullLedger, ?_⟩
  and_intros <;> decide

/-- The hypotheses of `HaltAndJournal` are met. -/
theorem witness_HaltAndJournal :
    (Instr.deadlineSweepStall 5000 = Instr.deadlineSweepStall 5000 ∧ 7 = 7 ∨
      (∃ i, Instr.deadlineSweepStall 5000 = Instr.ledgerEntryUncorrectable 5000 i) ∧ 7 = 3) ∧
    (Instr.ledgerEntryUncorrectable 5000 9 = Instr.deadlineSweepStall 5000 ∧ 3 = 7 ∨
      (∃ i, Instr.ledgerEntryUncorrectable 5000 9 = Instr.ledgerEntryUncorrectable 5000 i) ∧ 3 = 3) ∧
    up.running = true ∧
    up.safe = false ∧
    up.line.ledger = [] ∧
    (up.sch.ctxs = [(0, {  })] ∧ up.sch.pours = []) ∧
    (jSt true 1).running = true ∧
    (jSt true 1).jrn.pageAt + 100000000 ≤ max (jSt true 1).now 100000007 ∧
    max (jSt true 1).now 100000006 < (jSt true 1).jrn.pageAt + 100000000 ∧
    (jSt true 1).jrn.openBlock.recs ≠ [] ∧
    (jSt true 1).jrn.firstAt + (jSt true 1).fld R.LIN_JRN_CFG 8 6 * 1000000000 ≤ max (jSt true 1).now 1000000005 ∧
    (jSt true 1).jrn.sealedBlocks.length + 1 < 1572864 ∧
    ((jSt true 1).jrn.openBlock.recs = [] ∨
      max (jSt true 1).now 1000000004 < (jSt true 1).jrn.firstAt + (jSt true 1).fld R.LIN_JRN_CFG 8 6 * 1000000000) ∧
    (jSt false 1).running = true ∧
    ((jSt false 1).jrn.openBlock.recs = [] ∨
      max (jSt false 1).now 9000000004 < (jSt false 1).jrn.firstAt + (jSt false 1).fld R.LIN_JRN_CFG 8 6 * 1000000000) ∧
    (jSt false 1).jrn.sealedBlocks = [a11_12] ∧
    a11_12.trailer = none ∧
    (jSt false 1).scUp = true ∧
    4294967294 % 2 = 0 ∧
    4294967295 % 2 = 1 ∧
    (jSt false 1).attached = true ∧
    (jSt false 1).blockNo ((jSt false 1).rd64 R.LIN_JRN_RD_BLOCK) = some a11_12 ∧
    (up.attached = false ∨ up.blockNo (up.rd64 R.LIN_JRN_RD_BLOCK) = none) ∧
    (jSt false 1).bit R.LIN_HALT_CFG 4 = true ∧
    (Tests.set [(R.LIN_HALT_CFG, 0)] up).running = true ∧
    (Tests.set [(R.LIN_HALT_CFG, 0)] up).bit R.LIN_HALT_CFG 4 = false := by
  refine ⟨.inl ⟨rfl, rfl⟩, .inr ⟨⟨9, rfl⟩, rfl⟩, ?_⟩
  and_intros <;> decide

end Sys2Proof.Tests.W11

namespace Sys2Proof.Tests.W12

open Sys2Proof Sys2Proof.Machine Sys2Proof.Tests

set_option maxRecDepth 100000
set_option exponentiation.threshold 1024

/-! ### Ronyr, barrier and time -/

/-- Ronyr out of its field safe state with output 9 on, a fire waiting and its heartbeat last at 0. -/
def ronSt (safe : Bool) (fs : List Fire := [{}]) : State :=
  let s := rset [(R.RNY_OUT_SET, if safe then 0 else 0x200), (R.RNY_STAT, 0xFF00), (R.RNY_SAFE_CAUSE, if safe then 16 else 0)] up
  { s with ron := { s.ron with safe := safe, fires := fs, energised := if safe then 0 else 0x200 }, pins := { s.pins with dq := if safe then 0 else 0x200 } }

def noViso (b : Bool) : State := let s := ronSt true; { s with mod := { s.mod with visoUp := b } }

def resSt (p : BitVec 7) (b : Option Nat) : State := let s := ronSt true; { s with ron := { s.ron with present := p, beatSince := b, rx := [.tap {}, .resume, .safe], resumeHeld := true } }

def tapSt (safe : Bool) (o : TapOrder) (n : Nat) : State := let s := ronSt safe (List.replicate n {}); { s with ron := { s.ron with rx := [.resume, .tap o] } }

def to1 : TapOrder := { k := 3, chan := 1, n := 5, w := 10, serial := 77 }

def s12_1 : State := tapSt false {to1 with n := 0} 2

def a12_1 : TapOrder := {to1 with n := 0}

def fr (f : Fire) : State := ronSt false [f, {}]

def s12_2 : State := fr {order := {to1 with n := 0}, phase := 1}

def a12_2 : Fire := {order := {to1 with n := 0}, phase := 1}

def a12_3 : Fire := {}

def s12_3 : State := fr {order := {to1 with n := 0, wmode := 1}, phase := 1}

def a12_4 : Fire := {order := {to1 with n := 0, wmode := 1}, phase := 1}

def s12_4 : State := fr {order := to1, phase := 1, jumped := true}

def a12_5 : Fire := {order := to1, phase := 1, jumped := true}

def s12_5 : State := fr {order := to1, phase := 1}

def a12_6 : Fire := {order := to1, phase := 1}

def s12_6 : State := fr {order := to1, phase := 3}

def a12_7 : Fire := {order := to1, phase := 3}

def s12_7 : State := fr {order := to1, phase := 3, blocked := true}

def a12_8 : Fire := {order := to1, phase := 3, blocked := true}

def encSt (m : Nat) (e : Enc) (more : List (Nat × Nat) := []) : State :=
  let s := rset ([(R.RNY_ENC_CFG 1, 1 + 2 * m + 2 ^ 7), (R.RNY_ENC_ERR 1, 0xFFFFFFFF)] ++ more) (ronSt false)
  { s with ron := { s.ron with enc := [{}, e] } }

def s12_8 : State := encSt 1 {}

def s12_9 : State := encSt 2 {lastAt := some 0, p := 2^48-2, r := 0}

def s12_10 : State := encSt 3 {lastAt := some 0, p := 2^48-2, r := 2^48-1}

def serW : List (Nat × Nat) := [(R.RNY_ENC_SER 1, 12 + 64), (R.RNY_ENC_MAXSTEP 1, 16)]

def s12_11 : State := encSt 4 {} serW

def s12_12 : State := encSt 5 {lastRead := some 0xFFF, r := 5} serW

def s12_13 : State := encSt 4 {lastRead := some 2730, r := 5} serW

def s12_14 : State := encSt 1 {p := 2^40+3} [(R.RNY_ENC_CFG 1, 3 + 256)]

def s12_15 : State := encSt 2 {p := 2^40+3}

def s12_16 : State := encSt 2 {lastAt := some 5, steps := [(5,1)]}

def s12_17 : State := encSt 3 {} [(R.RNY_ENC_ERR 1, 0xFF00FFFF)]

def inSt : State := let s := rset [(R.RNY_IN_CFG 3, 1 + 5 * 65536)] (ronSt false); { s with ron := { s.ron with inp := setNth s.ron.inp 3 { acc := 4 } } }

def emuSt : State := let s := rset [(R.RNY_EMU_CFG 1, 1 + 10 * 256)] (ronSt false)
  { s with ron := { s.ron with emu := [{}, { edges := [(7, 8), (9, 10)], busyUntil := 50 }] } }

def drvSt (d : Drv) (more : List (Nat × Nat) := []) : State := let s := rset ([(R.RNY_OUT_CFG 9, 3), (R.RNY_OUT_DIAG 9, 0x3F)] ++ more) (ronSt false)
  { s with ron := { s.ron with drv := setNth s.ron.drv 9 d } }

def s12_18 : State := drvSt {off := true, offAt := 7}

def s12_19 : State := drvSt {hot := true}

def s12_20 : State := drvSt {off := true}

def s12_21 : State := drvSt {}

def lowL : State := { (drvSt {}) with ron := { (drvSt {}).ron with supplyLow := true } }

def s12_22 : State := drvSt {mismatch := 2} [(R.RNY_OUT_SET, 0)]

def s12_23 : State := drvSt {mismatch := 2}

def s12_24 : State := drvSt {} [(R.RNY_OUT_SET, 0)]

def linkSt (f : State → State) : State := f { (ronSt false) with boot := { (ronSt false).boot with released := true }, line := { (ronSt false).line with epochSeen := 255, tx := [.safe, .resume] } }

def lk1 : State := let s := set [(R.PWR_SAFE_CFG, 0)] (linkSt id)
  { s with boot := { s.boot with lineStarted := false }, ron := { s.ron with tx := [.motion 1, .applied 5], ackSafe := true, enc := [{p := 5}, {p := 2^48-1}] } }

theorem lk1_tx : ∀ (m : Msg), m ∈ lk1.ron.tx → ∀ (c : Nat) (a b : Option Nat), m ≠ Msg.event c a b := by
  intro m h c a b
  have h : m ∈ [Msg.motion 1, Msg.applied 5] := h
  simp only [List.mem_cons, List.not_mem_nil, or_false] at h
  rcases h with rfl | rfl <;> nofun

def s12_25 : State := { lk1 with line := { lk1.line with live := true } }

def bad1 : State := { lk1 with line := { lk1.line with badFrames := [0, 40000] } }

def hbl : State := { lk1 with line := { lk1.line with live := true, validSince := some 0 } }

def saf (b : Bool) : State := { lk1 with line := { lk1.line with safeSent := some 0, safeAcked := b } }

def encCfgWord : StWord := (stagedRny (R.RNY_ENC_CFG 1)).get (by decide)

def acc (i d : Nat) (v : Option Nat) (safe : Bool := false) : State := let s := set [(R.LIN_RNY_ADDR, i), (R.LIN_RNY_DATA, d), (R.CMD_HOST_STATE, 1)] (ronSt safe)
  { s with line := { s.line with validSince := v }, host := { s.host with agreed := true }, boot := { s.boot with restored := true } }

def timS (src st : Nat) (f : Tim → Tim) : State := let s := set [(R.TIM_CFG, src + 4), (R.TIM_STAT, st), (R.TIM_STEP_THR, 20), (R.TIM_PTP_CFG, 7 + 3 * 1024)] up
  { s with tim := f { s.tim with master := some {}, ns := 5000000000 } }

def s12_26 : State := timS 1 9 (fun m => {m with runIn := 15})

def s12_27 : State := timS 1 10 (fun m => {m with sum := -5000000})

def s12_28 : State := timS 1 10 (fun m => {m with runAbove := 6})

def s12_29 : State := timS 1 10 (fun m => {m with runAbove := 7})

def s12_30 : State := timS 1 10 (fun m => {m with newMaster := true})

def s12_31 : State := timS 1 42 (fun m => {m with announceLog := -1, freqs := [(5,6),(7,9)]})

def s12_32 : State := timS 1 42 (fun m => {m with announceLog := 1})

def ann : Announce := { domain := 7, ident := 0x123456789ABCDEF0, port := 3, prio1 := 1, cclass := 2, accuracy := 3, variance := 4, prio2 := 5, gm := 6, steps := 7, utc := some 37, logInterval := 1 }

def s12_33 : State := timS 1 8 (fun m => {m with master := none})

def s12_37 : State := set [(R.TIM_PTP_CFG, 7 + 3 * 1024 + 512), (R.TIM_PHY_DLY, 3 + 5 * 65536)] (timS 1 9 id)

def s12_34 : State := timS 2 9 (fun m => {m with chainOkSince := some 5})

def s12_35 : State := timS 2 10 (fun m => {m with chainOkSince := some 5})

def s12_36 : State := timS 1 10 (fun m => {m with chainOkSince := some 5})

/-- The hypotheses of `FieldSafetyAndFires` are met. -/
theorem witness_FieldSafetyAndFires :
    (ronSt false).mod.visoUp = true ∧
    (ronSt false).ron.beatAt + 1000000 ≤ max (ronSt false).now 1000000 ∧
    (ronSt true).mod.visoUp = true ∧
    (ronSt true).ron.beatAt + 1000000 ≤ max (ronSt true).now 1000000 ∧
    max (ronSt true).now 999999 < (ronSt true).ron.beatAt + 1000000 ∧
    (noViso false).mod.visoUp = false ∧
    (noViso true).mod.visoUp = true ∧
    Msg.resume ∈ (resSt 64 (some 0)).ron.rx ∧
    Msg.resume ∈ (resSt 64 (some 1)).ron.rx ∧
    (resSt 64 (some 0)).ron.resumeHeld = true ∧
    (resSt 64 (some 0)).ron.present &&& 63 = 0 ∧
    ((resSt 64 (some 0)).at' 10000000).beatSteady = true ∧
    (resSt 64 (some 1)).ron.resumeHeld = true ∧
    (resSt 64 (some 1)).ron.present &&& 63 = 0 ∧
    ((resSt 64 (some 1)).at' 10000000).beatSteady = false ∧
    Msg.safe ∈ (resSt 64 (some 1)).ron.rx ∧
    takeTap (tapSt false to1 2).ron.rx = some (to1, [Msg.resume]) ∧
    takeTap (tapSt true to1 2).ron.rx = some (to1, [Msg.resume]) ∧
    takeTap s12_1.ron.rx = some (a12_1, [Msg.resume]) ∧
    takeTap (tapSt false to1 4096).ron.rx = takeTap (tapSt false to1 4096).ron.rx ∧
    s12_2.ron.fires = [a12_2, a12_3] ∧
    a12_2.phase = 1 ∧
    s12_3.ron.fires = [a12_4, a12_3] ∧
    a12_4.phase = 1 ∧
    s12_4.ron.fires = [a12_5, a12_3] ∧
    a12_5.phase = 1 ∧
    s12_5.ron.fires = [a12_6, a12_3] ∧
    a12_6.phase = 1 ∧
    s12_6.ron.fires = [a12_7, a12_3] ∧
    a12_7.phase = 3 ∧
    s12_7.ron.fires = [a12_8, a12_3] ∧
    a12_8.phase = 3 ∧
    (ronSt false []).ron.fires = [] := by
  and_intros <;> decide

/-- The hypotheses of `EncodersInputsOutputs` are met. -/
theorem witness_EncodersInputsOutputs :
    (∀ (a : ℕ), (s12_16.enc 1).lastAt = some a → a + 100000000 ≤ max s12_16.now 100000005) ∧
    s12_8.mod.visoUp = true ∧
    s12_8.ron.enc.length = 2 ∧
    s12_8.ron.emu.length = 2 ∧
    s12_8.ron.inp.length = 16 ∧
    s12_8.ron.drv.length = 16 ∧
    (s12_8.encMode 1 = 1 ∨ s12_8.encMode 1 = 2 ∨ s12_8.encMode 1 = 3) ∧
    s12_8.ron.armed = none ∧
    (s12_8.encMode 1 = 3 ∨ (s12_8.at' 50).tooFast 1 = false) ∧
    s12_9.mod.visoUp = true ∧
    s12_9.ron.enc.length = 2 ∧
    s12_9.ron.emu.length = 2 ∧
    s12_9.ron.inp.length = 16 ∧
    s12_9.ron.drv.length = 16 ∧
    (s12_9.encMode 1 = 1 ∨ s12_9.encMode 1 = 2 ∨ s12_9.encMode 1 = 3) ∧
    s12_9.ron.armed = none ∧
    (s12_9.encMode 1 = 3 ∨ (s12_9.at' 50).tooFast 1 = false) ∧
    s12_10.mod.visoUp = true ∧
    s12_10.ron.enc.length = 2 ∧
    s12_10.ron.emu.length = 2 ∧
    s12_10.ron.inp.length = 16 ∧
    s12_10.ron.drv.length = 16 ∧
    (s12_10.encMode 1 = 1 ∨ s12_10.encMode 1 = 2 ∨ s12_10.encMode 1 = 3) ∧
    s12_10.ron.armed = none ∧
    (s12_10.encMode 1 = 3 ∨ (s12_10.at' 50).tooFast 1 = false) ∧
    (s12_8.encMode 1 = 1 ∨ s12_8.encMode 1 = 2) ∧
    s12_11.mod.visoUp = true ∧
    s12_11.ron.enc.length = 2 ∧
    s12_11.ron.emu.length = 2 ∧
    s12_11.ron.inp.length = 16 ∧
    s12_11.ron.drv.length = 16 ∧
    (s12_11.encMode 1 = 4 ∨ s12_11.encMode 1 = 5) ∧
    s12_11.ron.armed = none ∧
    (s12_11.enc 1).lastRead = none ∧
    s12_12.mod.visoUp = true ∧
    s12_12.ron.enc.length = 2 ∧
    s12_12.ron.emu.length = 2 ∧
    s12_12.ron.inp.length = 16 ∧
    s12_12.ron.drv.length = 16 ∧
    (s12_12.encMode 1 = 4 ∨ s12_12.encMode 1 = 5) ∧
    s12_12.ron.armed = none ∧
    (s12_12.enc 1).lastRead = some 4095 ∧
    ((readDiff (s12_12.rfld (R.RNY_ENC_SER 1) 0 6) (if s12_12.encMode 1 = 4 ∧
      s12_12.rbit (R.RNY_ENC_SER 1) 6 = true then grayDecode (s12_12.rfld (R.RNY_ENC_SER 1) 0 6) (15 % 2 ^ s12_12.rfld (R.RNY_ENC_SER 1) 0 6) else 15 % 2 ^ s12_12.rfld (R.RNY_ENC_SER 1) 0 6) 4095).natAbs ≤ s12_12.rfld (R.RNY_ENC_MAXSTEP 1) 0 24) ∧
    s12_13.mod.visoUp = true ∧
    s12_13.ron.enc.length = 2 ∧
    s12_13.ron.emu.length = 2 ∧
    s12_13.ron.inp.length = 16 ∧
    s12_13.ron.drv.length = 16 ∧
    (s12_13.encMode 1 = 4 ∨ s12_13.encMode 1 = 5) ∧
    s12_13.ron.armed = none ∧
    (s12_13.enc 1).lastRead = some 2730 ∧
    ((readDiff (s12_13.rfld (R.RNY_ENC_SER 1) 0 6) (if s12_13.encMode 1 = 4 ∧
      s12_13.rbit (R.RNY_ENC_SER 1) 6 = true then grayDecode (s12_13.rfld (R.RNY_ENC_SER 1) 0 6) (4095 % 2 ^ s12_13.rfld (R.RNY_ENC_SER 1) 0 6) else 4095 % 2 ^ s12_13.rfld (R.RNY_ENC_SER 1) 0 6) 2730).natAbs ≤ s12_13.rfld (R.RNY_ENC_MAXSTEP 1) 0 24) ∧
    (s12_12.enc 1).badReads = 0 ∧
    s12_14.mod.visoUp = true ∧
    s12_14.ron.enc.length = 2 ∧
    s12_14.ron.emu.length = 2 ∧
    s12_14.ron.inp.length = 16 ∧
    s12_14.ron.drv.length = 16 ∧
    (s12_14.encMode 1 = 1 ∨ s12_14.encMode 1 = 2) ∧
    s12_14.rfld (R.RNY_ENC_CHK 1) 0 16 = 0 ∧
    (s12_14.rbit (R.RNY_ENC_CFG 1) 8 = true → true = true ∧ true = true) ∧
    s12_15.mod.visoUp = true ∧
    s12_15.ron.enc.length = 2 ∧
    s12_15.ron.emu.length = 2 ∧
    s12_15.ron.inp.length = 16 ∧
    s12_15.ron.drv.length = 16 ∧
    (s12_15.encMode 1 = 1 ∨ s12_15.encMode 1 = 2) ∧
    s12_15.rfld (R.RNY_ENC_CHK 1) 0 16 = 0 ∧
    (s12_15.rbit (R.RNY_ENC_CFG 1) 8 = true → true = true ∧ false = true) ∧
    s12_16.mod.visoUp = true ∧
    s12_16.ron.enc.length = 2 ∧
    s12_16.ron.emu.length = 2 ∧
    s12_16.ron.inp.length = 16 ∧
    s12_16.ron.drv.length = 16 ∧
    (s12_8.encMode 1 = 1 ∨ s12_8.encMode 1 = 3) ∧
    s12_17.mod.visoUp = true ∧
    s12_17.ron.enc.length = 2 ∧
    s12_17.ron.emu.length = 2 ∧
    s12_17.ron.inp.length = 16 ∧
    s12_17.ron.drv.length = 16 ∧
    (s12_17.encMode 1 = 1 ∨ s12_17.encMode 1 = 3) ∧
    inSt.mod.visoUp = true ∧
    inSt.ron.enc.length = 2 ∧
    inSt.ron.emu.length = 2 ∧
    inSt.ron.inp.length = 16 ∧
    inSt.ron.drv.length = 16 ∧
    (List.replicate 16 (⟨true, 7⟩ : PinSample)).length = 16 ∧
    emuSt.mod.visoUp = true ∧
    emuSt.ron.enc.length = 2 ∧
    emuSt.ron.emu.length = 2 ∧
    emuSt.ron.inp.length = 16 ∧
    emuSt.ron.drv.length = 16 ∧
    (emuSt.emu 1).edges = [(7, 8), (9, 10)] ∧
    (emuSt.emu 1).busyUntil ≤ max emuSt.now 50 ∧
    emuSt.rbit (R.RNY_EMU_CFG 1) 0 = true ∧
    (emuSt.emu 1).reports.length < 64 ∧
    emuSt.driven 9 = true ∧
    emuSt.driven 8 = false ∧
    (emuSt.drv 9).off = false ∧
    s12_18.mod.visoUp = true ∧
    s12_18.ron.enc.length = 2 ∧
    s12_18.ron.emu.length = 2 ∧
    s12_18.ron.inp.length = 16 ∧
    s12_18.ron.drv.length = 16 ∧
    (s12_18.drv 9).off = true ∧
    s12_18.rbit (R.RNY_OUT_CFG 9) 1 = true ∧
    (s12_18.drv 9).stay = false ∧
    (s12_18.drv 9).hot = false ∧
    (s12_18.drv 9).offAt + 100000000 ≤ max s12_18.now 100000007 ∧
    max s12_18.now 100000006 < (s12_18.drv 9).offAt + 100000000 ∧
    s12_19.mod.visoUp = true ∧
    s12_19.ron.enc.length = 2 ∧
    s12_19.ron.emu.length = 2 ∧
    s12_19.ron.inp.length = 16 ∧
    s12_19.ron.drv.length = 16 ∧
    (s12_19.drv 9).off = false ∧
    s12_20.mod.visoUp = true ∧
    s12_20.ron.enc.length = 2 ∧
    s12_20.ron.emu.length = 2 ∧
    s12_20.ron.inp.length = 16 ∧
    s12_20.ron.drv.length = 16 ∧
    s12_21.mod.visoUp = true ∧
    s12_21.ron.enc.length = 2 ∧
    s12_21.ron.emu.length = 2 ∧
    s12_21.ron.inp.length = 16 ∧
    s12_21.ron.drv.length = 16 ∧
    16999 < 17000 ∧
    17000 ≤ 17000 ∧
    lowL.mod.visoUp = true ∧
    lowL.ron.enc.length = 2 ∧
    lowL.ron.emu.length = 2 ∧
    lowL.ron.inp.length = 16 ∧
    lowL.ron.drv.length = 16 ∧
    18000 ≤ 18000 ∧
    (∀ i < 16, BitVec.getLsbD (512 : BitVec 16) i = s12_21.driven i) ∧
    s12_22.mod.visoUp = true ∧
    s12_22.ron.enc.length = 2 ∧
    s12_22.ron.emu.length = 2 ∧
    s12_22.ron.inp.length = 16 ∧
    s12_22.ron.drv.length = 16 ∧
    (∀ i < 16, i ≠ 9 → BitVec.getLsbD (512 : BitVec 16) i = s12_22.driven i) ∧
    BitVec.getLsbD (512 : BitVec 16) 9 = true ∧
    s12_22.driven 9 = false ∧
    (s12_22.drv 9).mismatch = 2 ∧
    (s12_22.drv 9).changedAt + 50000 ≤ max s12_22.now 50000 ∧
    (s12_22.drv 9).off = false ∧
    s12_22.ron.supplyLow = false ∧
    s12_23.mod.visoUp = true ∧
    s12_23.ron.enc.length = 2 ∧
    s12_23.ron.emu.length = 2 ∧
    s12_23.ron.inp.length = 16 ∧
    s12_23.ron.drv.length = 16 ∧
    (∀ i < 16, i ≠ 9 → BitVec.getLsbD (0 : BitVec 16) i = s12_23.driven i) ∧
    BitVec.getLsbD (0 : BitVec 16) 9 = false ∧
    s12_23.driven 9 = true ∧
    (s12_23.drv 9).mismatch = 2 ∧
    (s12_23.drv 9).changedAt + 50000 ≤ max s12_23.now 50000 ∧
    s12_23.ron.supplyLow = false ∧
    s12_24.mod.visoUp = true ∧
    s12_24.ron.enc.length = 2 ∧
    s12_24.ron.emu.length = 2 ∧
    s12_24.ron.inp.length = 16 ∧
    s12_24.ron.drv.length = 16 ∧
    s12_24.rbit (R.RNY_OUT_CFG 9) 0 = true ∧
    s12_24.driven 9 = false := by
  refine ⟨(fun a h => by cases h; decide), ?_⟩
  and_intros <;> decide

/-- The hypotheses of `BarrierLink` are met. -/
theorem witness_BarrierLink :
    (∀ m ∈ lk1.ron.tx, ∀ (c : ℕ) (a b : Option ℕ), m ≠ Msg.event c a b) ∧
    lk1.linkUp = true ∧
    lk1.epoch = lk1.line.epochSeen ∧
    lk1.ownSafe = false ∧
    lk1.boot.lineStarted = false ∧
    lk1.bit R.PWR_SAFE_CFG 2 = false ∧
    (∀ ch < 2, lk1.bit (R.LNK_ALIGN ch + 4) 16 = false) ∧
    (noViso false).linkUp = false ∧
    s12_25.linkUp = true ∧
    s12_25.line.ledger = [] ∧
    s12_25.ron.armed = none ∧
    lk1.line.ledger = [] ∧
    lk1.ron.armed = none ∧
    bad1.linkUp = true ∧
    hbl.running = true ∧
    4 ≤ hbl.phase ∧
    hbl.line.frameAt + 1000000 ≤ max hbl.now 1000000 ∧
    hbl.line.live = true ∧
    hbl.stage.pend = none ∧
    hbl.safe = false ∧
    hbl.line.ledger = [] ∧
    max hbl.now 999999 < hbl.line.frameAt + 1000000 ∧
    (saf false).running = true ∧
    (saf false).line.safeSent = some 0 ∧
    (saf false).line.safeAcked = false ∧
    0 + 100000 ≤ max (saf false).now 100000 ∧
    (saf true).line.safeSent = some 0 ∧
    ((saf true).line.safeAcked = true ∨ max (saf true).now 100000 < 0 + 100000) ∧
    ((saf false).line.safeAcked = true ∨ max (saf false).now 99999 < 0 + 100000) ∧
    (acc 0 0 none).running = true ∧
    (acc 0 0 none).line.validSince = none ∧
    (Instr.ronyrRead 99999 = Instr.ronyrRead 99999 ∨ Instr.ronyrRead 99999 = Instr.ronyrWrite 99999) ∧
    (Instr.ronyrWrite 99999 = Instr.ronyrRead 99999 ∨ Instr.ronyrWrite 99999 = Instr.ronyrWrite 99999) ∧
    (acc R.RNY_STAT 0 (some 0)).running = true ∧
    (acc R.RNY_STAT 0 (some 0)).line.validSince ≠ none ∧
    (acc (R.RNY_ENC_CFG 1) 4294967295 (some 0)).running = true ∧
    (acc (R.RNY_ENC_CFG 1) 4294967295 (some 0)).line.validSince ≠ none ∧
    stagedRny ((acc (R.RNY_ENC_CFG 1) 4294967295 (some 0)).fld R.LIN_RNY_ADDR 0 16) = some encCfgWord ∧
    (acc (R.RNY_ENC_CFG 1) 4294967295 (some 0)).shadowOpen = true ∧
    (acc R.RNY_OUT_SET 4294967295 (some 0)).running = true ∧
    (acc R.RNY_OUT_SET 4294967295 (some 0)).line.validSince ≠ none ∧
    (acc R.RNY_OUT_SET 4294967295 (some 0)).fld R.LIN_RNY_ADDR 0 16 = R.RNY_OUT_SET ∧
    (acc R.RNY_OUT_SET 4294967295 (some 0) true).running = true ∧
    (acc R.RNY_OUT_SET 4294967295 (some 0) true).line.validSince ≠ none ∧
    (acc R.RNY_OUT_SET 4294967295 (some 0) true).fld R.LIN_RNY_ADDR 0 16 = R.RNY_OUT_SET := by
  refine ⟨lk1_tx, ?_⟩
  and_intros <;> decide

/-- The hypotheses of `TimeCommands` are met. -/
theorem witness_TimeCommands :
    (timS 1 1 id).timSrc = 1 ∧
    (timS 1 1 id).tim.master.isSome = true ∧
    (timS 1 1 id).running = true ∧
    (timS 1 1 id).bit R.TIM_STAT 3 = false ∧
    (timS 1 1 id).stepBlocked = false ∧
    s12_26.timSrc = 1 ∧
    s12_26.tim.master.isSome = true ∧
    s12_26.running = true ∧
    s12_26.bit R.TIM_STAT 3 = true ∧
    ((if s12_26.bit R.TIM_PTP_CFG 9 = true then -2000 - (s12_26.fld R.TIM_PHY_DLY 16 16 : Int) - (0 - (s12_26.fld R.TIM_PHY_DLY 16 16 : Int) - (s12_26.fld R.TIM_PHY_DLY 0 16 : Int)).tdiv 2 else (-2000 - (s12_26.fld R.TIM_PHY_DLY 16 16 : Int) - (0 - (s12_26.fld R.TIM_PHY_DLY 0 16 : Int))).tdiv 2).natAbs ≤ s12_26.rd R.TIM_STEP_THR * 1000) ∧
    (s12_26.servo = 1 ∨ s12_26.servo = 2) ∧
    ((if s12_26.bit R.TIM_PTP_CFG 9 = true then 40000 - (s12_26.fld R.TIM_PHY_DLY 16 16 : Int) - (0 - (s12_26.fld R.TIM_PHY_DLY 16 16 : Int) - (s12_26.fld R.TIM_PHY_DLY 0 16 : Int)).tdiv 2 else (40000 - (s12_26.fld R.TIM_PHY_DLY 16 16 : Int) - (0 - (s12_26.fld R.TIM_PHY_DLY 0 16 : Int))).tdiv 2).natAbs ≤ s12_26.rd R.TIM_STEP_THR * 1000) ∧
    s12_27.timSrc = 1 ∧
    s12_27.tim.master.isSome = true ∧
    s12_27.running = true ∧
    s12_27.bit R.TIM_STAT 3 = true ∧
    ((if s12_27.bit R.TIM_PTP_CFG 9 = true then 40000 - (s12_27.fld R.TIM_PHY_DLY 16 16 : Int) - (0 - (s12_27.fld R.TIM_PHY_DLY 16 16 : Int) - (s12_27.fld R.TIM_PHY_DLY 0 16 : Int)).tdiv 2 else (40000 - (s12_27.fld R.TIM_PHY_DLY 16 16 : Int) - (0 - (s12_27.fld R.TIM_PHY_DLY 0 16 : Int))).tdiv 2).natAbs ≤ s12_27.rd R.TIM_STEP_THR * 1000) ∧
    (s12_27.servo = 1 ∨ s12_27.servo = 2) ∧
    s12_28.timSrc = 1 ∧
    s12_28.tim.master.isSome = true ∧
    s12_28.running = true ∧
    s12_28.bit R.TIM_STAT 3 = true ∧
    (s12_28.rd R.TIM_STEP_THR * 1000 < (if s12_28.bit R.TIM_PTP_CFG 9 = true then 40002 - (s12_28.fld R.TIM_PHY_DLY 16 16 : Int) - (0 - (s12_28.fld R.TIM_PHY_DLY 16 16 : Int) - (s12_28.fld R.TIM_PHY_DLY 0 16 : Int)).tdiv 2 else (40002 - (s12_28.fld R.TIM_PHY_DLY 16 16 : Int) - (0 - (s12_28.fld R.TIM_PHY_DLY 0 16 : Int))).tdiv 2).natAbs) ∧
    s12_28.bit R.TIM_CTRL 0 = false ∧
    s12_28.servo ≠ 4 ∧
    s12_28.tim.newMaster = false ∧
    s12_28.tim.runAbove < 7 ∧
    s12_29.timSrc = 1 ∧
    s12_29.tim.master.isSome = true ∧
    s12_29.running = true ∧
    s12_29.bit R.TIM_STAT 3 = true ∧
    (s12_29.rd R.TIM_STEP_THR * 1000 < (if s12_29.bit R.TIM_PTP_CFG 9 = true then 40002 - (s12_29.fld R.TIM_PHY_DLY 16 16 : Int) - (0 - (s12_29.fld R.TIM_PHY_DLY 16 16 : Int) - (s12_29.fld R.TIM_PHY_DLY 0 16 : Int)).tdiv 2 else (40002 - (s12_29.fld R.TIM_PHY_DLY 16 16 : Int) - (0 - (s12_29.fld R.TIM_PHY_DLY 0 16 : Int))).tdiv 2).natAbs) ∧
    s12_29.bit R.TIM_CTRL 0 = false ∧
    s12_29.servo ≠ 4 ∧
    (s12_29.tim.newMaster = true ∨ 7 ≤ s12_29.tim.runAbove) ∧
    s12_30.timSrc = 1 ∧
    s12_30.tim.master.isSome = true ∧
    s12_30.running = true ∧
    s12_30.bit R.TIM_STAT 3 = true ∧
    (s12_30.rd R.TIM_STEP_THR * 1000 < (if s12_30.bit R.TIM_PTP_CFG 9 = true then 40002 - (s12_30.fld R.TIM_PHY_DLY 16 16 : Int) - (0 - (s12_30.fld R.TIM_PHY_DLY 16 16 : Int) - (s12_30.fld R.TIM_PHY_DLY 0 16 : Int)).tdiv 2 else (40002 - (s12_30.fld R.TIM_PHY_DLY 16 16 : Int) - (0 - (s12_30.fld R.TIM_PHY_DLY 0 16 : Int))).tdiv 2).natAbs) ∧
    s12_30.bit R.TIM_CTRL 0 = false ∧
    s12_30.servo ≠ 4 ∧
    (s12_30.tim.newMaster = true ∨ 7 ≤ s12_30.tim.runAbove) ∧
    s12_31.timSrc = 1 ∧
    s12_31.tim.master.isSome = true ∧
    ((s12_31.tim.announceAt + s12_31.fld R.TIM_PTP_CFG 10 4 * if 0 ≤ s12_31.tim.announceLog then 2 ^ s12_31.tim.announceLog.toNat * 1000000000 else 1000000000 / 2 ^ (-s12_31.tim.announceLog).toNat) ≤ max s12_31.now 1500000000) ∧
    s12_32.timSrc = 1 ∧
    s12_32.tim.master.isSome = true ∧
    ((s12_32.tim.announceAt + s12_32.fld R.TIM_PTP_CFG 10 4 * if 0 ≤ s12_32.tim.announceLog then 2 ^ s12_32.tim.announceLog.toNat * 1000000000 else 1000000000 / 2 ^ (-s12_32.tim.announceLog).toNat) ≤ max s12_32.now 6000000000) ∧
    (max s12_32.now 5999999999 < s12_32.tim.announceAt + s12_32.fld R.TIM_PTP_CFG 10 4 * if 0 ≤ s12_32.tim.announceLog then 2 ^ s12_32.tim.announceLog.toNat * 1000000000 else 1000000000 / 2 ^ (-s12_32.tim.announceLog).toNat) ∧
    s12_33.running = true ∧
    (true = true ∧ s12_33.timSrc = 1 ∧ 7 = s12_33.fld R.TIM_PTP_CFG 0 8 ∧ ann.udp = s12_33.bit R.TIM_PTP_CFG 8) ∧
    s12_33.tim.master = none ∧
    (timS 2 8 id).running = true ∧
    (¬(true = true ∧ (timS 2 8 id).timSrc = 1 ∧ 7 = (timS 2 8 id).fld R.TIM_PTP_CFG 0 8 ∧ ann.udp = (timS 2 8 id).bit R.TIM_PTP_CFG 8)) ∧
    (¬(false = true ∧ s12_33.timSrc = 1 ∧ 7 = s12_33.fld R.TIM_PTP_CFG 0 8 ∧ ann.udp = s12_33.bit R.TIM_PTP_CFG 8)) ∧
    s12_37.timSrc = 1 ∧
    s12_37.tim.master.isSome = true ∧
    s12_37.running = true ∧
    s12_37.bit R.TIM_STAT 3 = true ∧
    ((if s12_37.bit R.TIM_PTP_CFG 9 = true then 2005 - (s12_37.fld R.TIM_PHY_DLY 16 16 : Int) - (1018 - (s12_37.fld R.TIM_PHY_DLY 16 16 : Int) - (s12_37.fld R.TIM_PHY_DLY 0 16 : Int)).tdiv 2 else (2005 - (s12_37.fld R.TIM_PHY_DLY 16 16 : Int) - (1018 - (s12_37.fld R.TIM_PHY_DLY 0 16 : Int))).tdiv 2).natAbs ≤ s12_37.rd R.TIM_STEP_THR * 1000) ∧
    (s12_37.servo = 1 ∨ s12_37.servo = 2) ∧
    BitVec.getLsbD (1 : W32) 0 = true ∧
    BitVec.getLsbD (2 : W32) 0 = false ∧
    ((timS 2 8 id).bit R.TIM_CFG 2 = true ∧ (((timS 2 8 id).at' 10).tim.ns % 1000000000 ≤ 10 ∨
      999999990 ≤ ((timS 2 8 id).at' 10).tim.ns % 1000000000)) ∧
    (¬((timS 2 8 id).bit R.TIM_CFG 2 = true ∧ (((timS 2 8 id).at' 11).tim.ns % 1000000000 ≤ 10 ∨
      999999990 ≤ ((timS 2 8 id).at' 11).tim.ns % 1000000000))) ∧
    (¬((Tests.set [(R.TIM_CFG, 0)] up).bit R.TIM_CFG 2 = true ∧ (((Tests.set [(R.TIM_CFG, 0)] up).at' 99).tim.ns % 1000000000 ≤ 10 ∨
      999999990 ≤ ((Tests.set [(R.TIM_CFG, 0)] up).at' 99).tim.ns % 1000000000))) ∧
    s12_34.timSrc = 2 ∧
    s12_34.bit R.TIM_STAT 3 = true ∧
    (-32768).natAbs ≤ 32768 ∧
    (s12_34.servo = 1 ∨ s12_34.servo = 2) ∧
    s12_35.timSrc = 2 ∧
    s12_35.bit R.TIM_STAT 3 = true ∧
    Int.natAbs 32768 ≤ 32768 ∧
    (s12_35.servo = 1 ∨ s12_35.servo = 2) ∧
    s12_36.timSrc ≠ 2 := by
  and_intros <;> decide

end Sys2Proof.Tests.W12

namespace Sys2Proof.Tests.W13

open Sys2Proof Sys2Proof.Machine Sys2Proof.Tests

set_option maxRecDepth 100000
set_option exponentiation.threshold 1024

/-! ### Security and firmware processors -/

/-- The mailbox holds request `q`; the host is attached. -/
def mbSt (q : List Byte) (k : Sec := {}) : State :=
  let s := set ([(R.CMD_HOST_STATE, 1), (R.SEC_MB_LEN, q.length)] ++ (List.range ((q.length + 3) / 4)).map (fun i => (R.SEC_MB_REQ + 4 * i, numAt q (4 * i) 4))) jobSt
  { s with host := { agreed := true }, sec := k }

def bun : Bundle := { digest := 7, signer := 9, len := 0x400 }

def s13_1 : State := { mbSt [] with sec := { fault := true } }

def s13_2 : State := mbSt [] { bundles := [bun] }

def s13_3 : State := mbSt [1] { bundles := [bun] }

def qq : List Byte := List.replicate 48 5 ++ [1,0,0,0] ++ [0x1F, 3, 0, 0]

def s13_4 : State := mbSt qq { bundles := [bun] }

def ld : List Byte := leBytes 1 4 ++ leBytes 0x1000 8 ++ leBytes 0x400 8

def dl : List Byte := leBytes 7 48

def s13_5 : State := mbSt dl { bundles := [bun, {}] }

def mbUse (_ : Bool) : State := let s := mbSt dl { bundles := [bun, {}] }
  { s with sch := { s.sch with progs := [⟨1, 1, { prog0 with bundle := some 7 }⟩] } }

def tk (m : Nat) : List Byte := leBytes m 4 ++ leBytes 3 4 ++ zeroBytes 208

def s13_6 : State := mbSt (tk 5) {owner := some 3}

def fwSt (i st : Nat) (rs : List Nat) (f : State → State := id) : State :=
  let s := set [(R.DBG_FW_STAT i, st), (R.DBG_FW_STAT i + 4, 0xFFFFFFFF), (R.GLB_FLASK_USED, 0x30), (R.FLK_STAT 4, 1), (R.CMD_HOST_STATE, 1)] up
  f { s with dbg := { s.dbg with fw := [(i, { resets := rs })], trace := [(0, {})] } }

def s13_7 : State := fwSt 7 1 [0, 6] (fun s => { s with fab := { s.fab with crus := [(8, { queue := [cdesc 3 [], cdesc 1 []] })], fets := [(17, fet1), (20, fet1)] } })

def s13_8 : State := fwSt 1 2 [] (fun s => { set [(R.PWR_STATE, 1)] s with pwr := { s.pwr with waitReq := some 0, state := 1 } })

def s13_9 : State := fwSt 0 1 [5, 6] (fun s => { s with fab := { s.fab with pt4 := [(3, { frame := 0x5000, prot := true })], dram := [(0x5004, 7), (0x6000, 8)] } })

def s13_10 : State := fwSt 0 2 [] (fun s => { s with jrn := { s.jrn with sealedBlocks := [{ num := 7, recs := [{}], atBoot := true }] } })

def s13_11 : State := fwSt 0 2 [] (fun s => { s with sec := { fault := true } })

def mbPin : State := let s := set [(R.STG_STATUS, 2)] (mbUse true); { s with stage := { s.stage with pend := some { arm := true, set := [(R.LIN_CLASS 4, 1), (R.LIN_CLASS 4 + 8, 1)] } } }

/-- The hypotheses of `SecurityMailbox` are met. -/
theorem witness_SecurityMailbox :
    s13_1.running = true ∧
    (Instr.quote 9 = Instr.certs 9 ∨ Instr.quote 9 = Instr.quote 9 ∨ Instr.quote 9 = Instr.bundleLoad 9 ∨
      Instr.quote 9 = Instr.bundleDelete 9 ∨ Instr.quote 9 = Instr.bundleList 9 ∨ Instr.quote 9 = Instr.challenge 9 ∨
      Instr.quote 9 = Instr.token 9 ∨ Instr.quote 9 = Instr.debugLock 9 ∨ Instr.quote 9 = Instr.ownerSet 9 ∨
      Instr.quote 9 = Instr.ownerClear 9) ∧
    s13_1.scUp = false ∧
    up.running = true ∧
    (Instr.ownerClear 9 = Instr.certs 9 ∨ Instr.ownerClear 9 = Instr.quote 9 ∨ Instr.ownerClear 9 = Instr.bundleLoad 9 ∨
      Instr.ownerClear 9 = Instr.bundleDelete 9 ∨ Instr.ownerClear 9 = Instr.bundleList 9 ∨ Instr.ownerClear 9 = Instr.challenge 9 ∨
      Instr.ownerClear 9 = Instr.token 9 ∨ Instr.ownerClear 9 = Instr.debugLock 9 ∨ Instr.ownerClear 9 = Instr.ownerSet 9 ∨
      Instr.ownerClear 9 = Instr.ownerClear 9) ∧
    up.scUp = true ∧
    (up.attached && up.agreed) = false ∧
    s13_2.running = true ∧
    s13_2.scUp = true ∧
    s13_2.attached = true ∧
    s13_2.agreed = true ∧
    s13_2.mbReq = [] ∧
    s13_3.running = true ∧
    s13_3.scUp = true ∧
    s13_3.attached = true ∧
    s13_3.agreed = true ∧
    s13_3.mbReq ≠ [] ∧
    s13_4.running = true ∧
    s13_4.scUp = true ∧
    s13_4.attached = true ∧
    s13_4.agreed = true ∧
    1 ≤ 16 ∧
    s13_4.mbReq.length = 52 + 4 * 1 ∧
    numAt s13_4.mbReq 48 4 = 1 ∧
    (∀ i < 1, quoteEntryOk (numAt s13_4.mbReq (52 + 4 * i) 4) = true) ∧
    (mbSt (List.take 51 qq)).running = true ∧
    (mbSt (List.take 51 qq)).scUp = true ∧
    (mbSt (List.take 51 qq)).attached = true ∧
    (mbSt (List.take 51 qq)).agreed = true ∧
    (mbSt (List.take 51 qq)).mbReq.length < 52 ∧
    (mbSt ld).running = true ∧
    (mbSt ld).scUp = true ∧
    (mbSt ld).attached = true ∧
    (mbSt ld).agreed = true ∧
    (mbSt ld).mbReq.length = 20 ∧
    numAt (mbSt ld).mbReq 0 4 < 16 ∧
    1024 ≤ numAt (mbSt ld).mbReq 12 8 ∧
    numAt (mbSt ld).mbReq 12 8 ≤ bundleStore ∧
    numAt (mbSt ld).mbReq 4 8 + numAt (mbSt ld).mbReq 12 8 ≤ 2 ^ 48 ∧
    (mbSt ld).readable (numAt (mbSt ld).mbReq 0 4) (numAt (mbSt ld).mbReq 4 8) (numAt (mbSt ld).mbReq 12 8) = true ∧
    (mbSt ld).poisonedIn (numAt (mbSt ld).mbReq 0 4) (numAt (mbSt ld).mbReq 4 8) (numAt (mbSt ld).mbReq 12 8) = none ∧
    List.find? (fun b => b.digest == (Config.sha384 ((mbSt ld).vreadBytes (numAt (mbSt ld).mbReq 0 4) (numAt (mbSt ld).mbReq 4 8) (numAt (mbSt ld).mbReq 12 8))).toNat) (mbSt ld).sec.bundles = none ∧
    (mbSt ld).bundleBad ((mbSt ld).vreadBytes (numAt (mbSt ld).mbReq 0 4) (numAt (mbSt ld).mbReq 4 8) (numAt (mbSt ld).mbReq 12 8)) = some (1, E_CMD_ARG) ∧
    s13_5.running = true ∧
    s13_5.scUp = true ∧
    s13_5.attached = true ∧
    s13_5.agreed = true ∧
    s13_5.mbReq.length = 48 ∧
    (s13_5.sec.bundles.any fun b => b.digest == numAt s13_5.mbReq 0 48) = true ∧
    s13_5.bundlePinned (numAt s13_5.mbReq 0 48) = false ∧
    s13_5.bundleUsed (numAt s13_5.mbReq 0 48) = false ∧
    (mbUse false).running = true ∧
    (mbUse false).scUp = true ∧
    (mbUse false).attached = true ∧
    (mbUse false).agreed = true ∧
    (mbUse false).mbReq.length = 48 ∧
    ((mbUse false).sec.bundles.any fun b => b.digest == numAt (mbUse false).mbReq 0 48) = true ∧
    (mbUse false).bundlePinned (numAt (mbUse false).mbReq 0 48) = false ∧
    (mbUse false).bundleUsed (numAt (mbUse false).mbReq 0 48) = true ∧
    (mbSt (tk 5)).running = true ∧
    (mbSt (tk 5)).scUp = true ∧
    (mbSt (tk 5)).attached = true ∧
    (mbSt (tk 5)).agreed = true ∧
    (mbSt (tk 5)).mbReq.length = 216 ∧
    ((mbSt (tk 5)).at' 9).tokenReason (mbSt (tk 5)).mbReq ≠ 0 ∧
    s13_6.running = true ∧
    s13_6.scUp = true ∧
    s13_6.attached = true ∧
    s13_6.agreed = true ∧
    s13_6.sec.owner ≠ none ∧
    (mbSt (tk 5)).sec.owner = none ∧
    mbPin.running = true ∧
    mbPin.scUp = true ∧
    mbPin.attached = true ∧
    mbPin.agreed = true ∧
    mbPin.mbReq.length = 48 ∧
    (mbPin.sec.bundles.any fun b => b.digest == numAt mbPin.mbReq 0 48) = true ∧
    mbPin.bundlePinned (numAt mbPin.mbReq 0 48) = true := by
  and_intros <;> decide

/-- The hypotheses of `FirmwareProcessors` are met. -/
theorem witness_FirmwareProcessors :
    (fwSt 7 1 [5]).running = true ∧
    (fwSt 7 1 [5]).fwState (3 + 4) = 1 ∧
    ((fwSt 7 1 [5]).sch.ctxs = [(0, {  })] ∧ (fwSt 7 1 [5]).sch.pours = []) ∧
    (fwSt 7 1 [5]).sch.pieces = [] ∧
    (fwSt 7 1 [5]).sch.deques = [] ∧
    ((fwSt 7 1 [5]).flask 4).crashed = [] ∧
    ((fwSt 7 1 [5]).flask 4).job = none ∧
    ((fwSt 7 1 [5]).flask 4).phase = 0 ∧
    (fwSt 7 1 [5]).ladle 4 0 = [] ∧
    (fwSt 7 1 [5]).ladle 4 1 = [] ∧
    (fwSt 7 1 [5, 6]).running = true ∧
    (fwSt 7 1 [5, 6]).fwState (3 + 4) = 1 ∧
    ((fwSt 7 1 [5, 6]).sch.ctxs = [(0, {  })] ∧ (fwSt 7 1 [5, 6]).sch.pours = []) ∧
    (fwSt 7 1 [5, 6]).sch.pieces = [] ∧
    (fwSt 7 1 [5, 6]).sch.deques = [] ∧
    ((fwSt 7 1 [5, 6]).flask 4).crashed = [] ∧
    ((fwSt 7 1 [5, 6]).flask 4).job = none ∧
    ((fwSt 7 1 [5, 6]).flask 4).phase = 0 ∧
    (fwSt 7 1 [5, 6]).ladle 4 0 = [] ∧
    (fwSt 7 1 [5, 6]).ladle 4 1 = [] ∧
    s13_7.running = true ∧
    s13_7.fwState (3 + 4) = 1 ∧
    (s13_7.sch.ctxs = [(0, {  })] ∧ s13_7.sch.pours = []) ∧
    s13_7.sch.pieces = [] ∧
    s13_7.sch.deques = [] ∧
    (s13_7.flask 4).crashed = [] ∧
    (s13_7.flask 4).job = none ∧
    (s13_7.flask 4).phase = 0 ∧
    s13_7.ladle 4 0 = [] ∧
    s13_7.ladle 4 1 = [] ∧
    (fwSt 7 2 []).running = true ∧
    (fwSt 7 2 []).fwState (3 + 4) ≠ 1 ∧
    (fwSt 7 2 []).fwState (3 + 4) = 2 ∧
    ((fwSt 7 2 []).sch.ctxs = [(0, {  })] ∧ (fwSt 7 2 []).sch.pours = []) ∧
    (fwSt 2 1 []).running = true ∧
    (fwSt 2 1 []).fwState 2 = 1 ∧
    (fwSt 2 2 []).running = true ∧
    (fwSt 2 2 []).fwState 2 = 2 ∧
    ((fwSt 2 2 []).sch.ctxs = [(0, {  })] ∧ (fwSt 2 2 []).sch.pours = []) ∧
    (fwSt 2 2 []).line.ledger = [] ∧
    (fwSt 2 2 []).sch.seqs = [] ∧
    (fwSt 1 1 []).running = true ∧
    (fwSt 1 1 []).fwState 1 = 1 ∧
    (fwSt 1 2 [] (Tests.set [(R.PWR_CLK, 4102 + 3 * 16), (R.PWR_CLK_CAP, 2)])).running = true ∧
    (fwSt 1 2 [] (Tests.set [(R.PWR_CLK, 4102 + 3 * 16), (R.PWR_CLK_CAP, 2)])).fwState 1 = 2 ∧
    (fwSt 1 2 [] (Tests.set [(R.PWR_CLK, 4102 + 3 * 16), (R.PWR_CLK_CAP, 2)])).pwr.waitReq = none ∧
    (fwSt 1 2 [] (Tests.set [(R.PWR_CLK, 4102 + 3 * 16), (R.PWR_CLK_CAP, 2)])).mod.serrefOk = true ∧
    (fwSt 1 2 [] (Tests.set [(R.PWR_CLK, 4102 + 3 * 16), (R.PWR_CLK_CAP, 2)])).phase ≠ 3 ∧
    s13_8.running = true ∧
    s13_8.fwState 1 = 2 ∧
    s13_8.pwr.waitReq = some 0 ∧
    s13_8.pwr.state = 1 ∧
    (fwSt 0 1 [5]).running = true ∧
    (fwSt 0 1 [5]).fwState 0 = 1 ∧
    (((fwSt 0 1 [5]).at' 9).fwRecent 0 60000000000).length < 3 ∧
    s13_9.running = true ∧
    s13_9.fwState 0 = 1 ∧
    3 ≤ ((s13_9.at' 9).fwRecent 0 60000000000).length ∧
    s13_9.sec.fault = false ∧
    s13_9.line.ledger = [] ∧
    s13_9.sch.pours = [] ∧
    s13_9.fab.crus = [] ∧
    s13_10.running = true ∧
    s13_10.fwState 0 = 2 ∧
    s13_10.sec.fault = false ∧
    s13_10.sec.authWait = [] ∧
    s13_11.running = true ∧
    s13_11.sec.fault = true ∧
    (fwSt 0 2 []).running = true := by
  and_intros <;> decide

/-! The clauses of `SecurityMailbox` behind a signature, a decryption or a hash: these are opaque, so that nothing in Lean evaluates a
check of them. Each is assumed to come out well, and everything else is evaluated. -/

/-- Mailbox state with an open challenge of nonce 0 and no pour. -/
def sgSt (q : List Byte) (k : Sec := {}) : State :=
  let s := mbSt q { k with challenge := some (0, 0) }
  { s with sch := { s.sch with pours := [] } }

/-- The bytes that `ld` names. -/
def ldBytes (s : State) : List Byte := s.vreadBytes 1 0x1000 0x400

/-- A state that stores the bundle at the address of `ld`. -/
def againSt : State := mbSt ld { bundles := [{ digest := (Config.sha384 (ldBytes (mbSt ld))).toNat }] }

/-- A state with the header of a bundle at the address of `ld`. -/
def bundleSt : State :=
  let s := mbSt ld
  { s with fab := { s.fab with dram := [(0x1000, 0x42), (0x1001, 0x4C), (0x1002, 1), (0x1005, 4), (0x110C, 1)] } }

/-- A token of type `typ` with payload `pay`. -/
def tokenOf (typ pay : Nat) : List Byte := leBytes 0x1544B 4 ++ leBytes typ 4 ++ zeroBytes 96 ++ leBytes pay 16 ++ zeroBytes 96

theorem bundleBad_none (hv : ∀ k m g, Config.ecdsaVerify k m g = true) (hb : shaBytes (leBytes bkPublic.toNat 96) = zeroBytes 48)
    (ho : ∀ k n a c g, (Config.gcmOpen k n a c g).isSome = true) (s : State) (bs : List Byte)
    (h1 : s.bundleForm (bs.take 0x400) bs.length = true) (h2 : cut (bs.take 0x400) 0xD0 48 = zeroBytes 48) (h3 : s.sec.owner = none) :
    s.bundleBad bs = none := by
  have h4 : (bundleClear bs).isNone = false := by unfold bundleClear; rw [← Option.not_isSome, ho]; rfl
  have h5 : bundleSigned bs = true := hv _ _ _
  unfold State.bundleBad
  simp only [h1, h2, h3, h4, h5, hb]; simp

theorem tokenReason_zero (hv : ∀ k m g, Config.ecdsaVerify k m g = true) (hd : deviceId = zeroBytes 48) (s : State) (q : List Byte)
    (h1 : numAt q 0 4 = 0x1544B) (h2 : 1 ≤ numAt q 4 4) (h3 : numAt q 4 4 ≤ 3) (h4 : cut q 8 48 = zeroBytes 48)
    (h5 : s.openNonce = some (cut q 0x38 48)) (h6 : s.payloadOk (numAt q 4 4) (numAt q 0x68 16) = true) : s.tokenReason q = 0 := by
  have a : ¬ (numAt q 4 4 = 0 ∨ 3 < numAt q 4 4) := by omega
  unfold State.tokenReason sigOk
  simp only [h1, h4, h5, h6, hd, hv, ne_eq, not_true_eq_false, false_or, Bool.not_true]
  rw [if_neg a]; rfl

theorem ownerSig_true (hv : ∀ k m g, Config.ecdsaVerify k m g = true) (s : State) (key sig : Nat) (tail n : List Byte)
    (h : s.openNonce = some n) : s.ownerSig key sig tail = true := by
  unfold State.ownerSig sigOk; rw [h]; exact hv _ _ _

/-- The hypotheses of the remaining clauses of `SecurityMailbox` are met where the opaque checks come out well. -/
theorem witness_SecurityMailbox_signed (hv : ∀ k m g, Config.ecdsaVerify k m g = true)
    (hb : shaBytes (leBytes bkPublic.toNat 96) = zeroBytes 48) (ho : ∀ k n a c g, (Config.gcmOpen k n a c g).isSome = true)
    (hd : deviceId = zeroBytes 48) :
    ((∃ b, againSt.sec.bundles.find? (fun b => b.digest == (Config.sha384 (ldBytes againSt)).toNat) = some b) ∧ againSt.mbReq = ld ∧
      againSt.poisonedIn 1 0x1000 0x400 = none ∧ againSt.sec.noLoad = false) ∧
    (bundleSt.bundleBad (ldBytes bundleSt) = none ∧ bundleSt.mbReq = ld ∧ bundleSt.readable 1 0x1000 0x400 = true ∧
      bundleSt.poisonedIn 1 0x1000 0x400 = none ∧ bundleSt.sec.bundles = [] ∧ bundleSt.sec.noLoad = false) ∧
    (((sgSt (tokenOf 3 0)).at' 9).tokenReason (sgSt (tokenOf 3 0)).mbReq = 0 ∧ (sgSt (tokenOf 3 0)).mbReq.length = 216 ∧
      numAt (sgSt (tokenOf 3 0)).mbReq 4 4 = 3) ∧
    (((sgSt (tokenOf 1 2)).at' 9).tokenReason (sgSt (tokenOf 1 2)).mbReq = 0 ∧ (sgSt (tokenOf 1 2)).mbReq.length = 216 ∧
      numAt (sgSt (tokenOf 1 2)).mbReq 4 4 = 1 ∧ numAt (sgSt (tokenOf 1 2)).mbReq 0x68 16 = 2) ∧
    (((sgSt (tokenOf 1 1)).at' 9).tokenReason (sgSt (tokenOf 1 1)).mbReq = 0 ∧ (sgSt (tokenOf 1 1)).mbReq.length = 216 ∧
      numAt (sgSt (tokenOf 1 1)).mbReq 4 4 = 1 ∧ numAt (sgSt (tokenOf 1 1)).mbReq 0x68 16 % 2 = 1 ∧ (sgSt (tokenOf 1 1)).sch.pours = []) ∧
    (let s := sgSt (leBytes 5 96 ++ zeroBytes 96) { bundles := [{ signer := 5 }] }
     (s.at' 9).ownerSig (numAt s.mbReq 0 96) (numAt s.mbReq 96 96) [] = true ∧ s.mbReq.length = 192 ∧ s.sec.owner = none ∧
       s.sec.bundles.all (fun b => b.signer == numAt s.mbReq 0 96) = true) ∧
    (let s := sgSt (zeroBytes 96) { owner := some 5 }
     (s.at' 9).ownerSig 5 (leNum s.mbReq) [0x43] = true ∧ s.sec.owner = some 5 ∧ s.mbReq.length = 96) ∧
    ∀ s ∈ [againSt, bundleSt, sgSt []], s.running = true ∧ s.scUp = true ∧ s.attached = true ∧ s.agreed = true := by
  have token (q : List Byte) (h : ((sgSt q).at' 9).openNonce = some (cut (sgSt q).mbReq 0x38 48)) (h2 : numAt (sgSt q).mbReq 0 4 = 0x1544B) :=
    fun h3 h4 h5 h6 => tokenReason_zero hv hd ((sgSt q).at' 9) (sgSt q).mbReq h2 h3 h4 h5 h h6
  refine ⟨⟨⟨{ digest := (Config.sha384 (ldBytes (mbSt ld))).toNat }, ?_⟩, ?_⟩, ⟨bundleBad_none hv hb ho _ _ ?_ ?_ ?_, ?_⟩, ⟨token _ ?_ ?_ ?_ ?_ ?_ ?_, ?_⟩, ⟨token _ ?_ ?_ ?_ ?_ ?_ ?_, ?_⟩,
    ⟨token _ ?_ ?_ ?_ ?_ ?_ ?_, ?_⟩, ⟨ownerSig_true hv _ _ _ _ (zeroBytes 48) ?_, ?_⟩, ⟨ownerSig_true hv _ _ _ _ (zeroBytes 48) ?_, ?_⟩, ?_⟩
  · show List.find? _ [_] = _
    have e : ldBytes againSt = ldBytes (mbSt ld) := rfl
    rw [List.find?_cons_of_pos]; rw [e]; exact beq_self_eq_true _
  all_goals decide

end Sys2Proof.Tests.W13

namespace Sys2Proof.Tests.W14

open Sys2Proof Sys2Proof.Machine Sys2Proof.Tests

set_option maxRecDepth 100000
set_option exponentiation.threshold 1024

/-! ### Supply, boot and power -/

/-- A state with things in it: output 9 on, a bundle loaded, a piece open, a record in the journal, and a command waiting. -/
def busySt (f : Module → Module := id) (p : Power → Power := id) : State :=
  let s := rset [(R.RNY_OUT_SET, 0x200)] (set [(R.GLB_BOOT_COUNT, 5), (R.LIN_CLASS 4, 1), (R.TIM_STAT, 8), (R.PWR_STATE, (p {}).state)] jobSt)
  { s with mod := f s.mod, pwr := p s.pwr, ron := { s.ron with safe := false, fires := [{}] }, pins := { s.pins with dq := 0x200 }
           sec := { s.sec with bundles := [{ digest := 7, loaded := true }], owner := some 5 }, line := { s.line with ledger := [(5, { cls := 4 })], serialNext := 12 }
           jrn := { s.jrn with openBlock := { num := 4, recs := [{}] }, sealedBlocks := [{ num := 3, sealNs := 77 }] }, hostMem := [(5, 6)], pending := [.msmbVin 7] }

def dead : Module → Module := fun m => { m with railsUp := false, held := true }

def s14_1 : State := busySt (fun m => { dead m with visoUp := false, aonUp := false }) (fun p => { p with state := 3 })

def testing (b : Bool) : State := let s := set [(R.GLB_BOOT_STATUS, 3)] busySt; { s with mod := { s.mod with refclkOk := b } }

def warned (f : Module → Module := id) : State := busySt (fun m => f { dead m with warning := true, warnAt := 100, badAt := 200 }) (fun p => { p with failStop := true })

def counting : State := let s := busySt; { s with boot := { s.boot with countOld := some 4 } }

def s3 (f : Module → Module := id) : State := busySt (fun m => f { dead m with visoUp := false, aonUp := false, modResetLow := true, warnAt := 50 }) (fun p => { p with state := 3 })

def up2 : State := busySt (fun m => { m with pcieUp := true })

def ph (k : Nat) (m : Module → Module := id) : State := let s := busySt m; set [(R.GLB_BOOT_STATUS, k + 7 * 16), (R.PWR_CLK, 0x4000 + 2 * 16), (R.PWR_CLK_CAP, 6), (R.PWR_SAFE_STAT, 32)] s

def s14_2 : State := ph 7 (fun m => {m with serrefOk := false})

def cold (ph : Nat) (f : Boot → Boot := id) : State := let s := set [(R.GLB_BOOT_STATUS, ph), (R.GLB_BOOT_COUNT, 2^32-1)] State.reset
  { s with mod := { s.mod with held := ph = 0 }, boot := f { s.boot with started := ph != 0, nextCause := 2, serrefAtRom := true } }

def img (b : Bool) : Image := { lengthOk := true, headerOk := true, signatureOk := b, hivMajor := 2, hivMinor := 3, version := 0x123 }

def cm (v : Nat) : CondMeas := { vinMv := v, refclkPpm := -5300 }

def keyless : State := let s := cold 1; { s with sec := { s.sec with keysOk := false } }

def coldX : State := let s := cold 1; { s with mod := { s.mod with serrefOk := false } }

def s14_18 : State := cold 1 (fun b => { b with serrefAtRom := false })

def s14_3 : State := cold 2 (fun b => { b with condFails := 8, condNext := 5 })

def s14_4 : State := cold 2 (fun b => { b with condFails := 9, condNext := 5 })

def s14_5 : State := cold 3 (fun b => { b with condFails := 9, condNext := 5 })

def s14_6 : State := cold 3 (fun b => { b with fuseOff := 2 })

def s14_7 : State := cold 3 (fun b => { b with fuseOff := 0x1FF })

def bf : BistFail := { cls := 1, inst := 3, sub := 0, kind := 1, repair := 2, address := 5, bit := 6, nbits := 1, pattern := 7 }

def strict : State := set [(R.GLB_STRAPS, 2)] (cold 3)

def noclk : State := let s := cold 3; { s with mod := { s.mod with serrefOk := false } }

def pSt (p : Power → Power) (f : Module → Module := id) (clk : Nat := 0x35) : State := let s := busySt f p; let s := set [(R.PWR_CLK, clk), (R.PWR_CLK_CAP, 1)] s; { s with line := { s.line with ledger := [] }, sch := {}, fab := {} }

def s14_8 : State := pSt (fun p => { p with junction := 169, thermAt := 5, power := 1501, guardAt := 5 })

def s14_9 : State := pSt (fun p => { p with junction := 169, thermAt := 6, power := 1501, guardAt := 6 })

def s14_10 : State := pSt (fun p => { p with junction := 163, throttling := true, thermAt := 5, power := 1450, guardAt := 5 })

def s14_11 : State := pSt (fun p => { p with junction := 168, throttling := true, thermAt := 5, power := 1451, guardAt := 5 })

def pmcOff : State := set [(R.DBG_FW_STAT 1, 2)] busySt

def s14_12 : State := pSt (fun p => {p with hot := true})

def s14_19 : State := set [(R.PWR_SAFE_STAT, 32)] s14_12

def tel : Telemetry := { vinMv := 12345, current := 2345, power := 777, junction := 120, board := 90, rnyJunction := 100 }

def teLow : Telemetry := { tel with vinMv := 10799 }

def s14_20 : State := set [(R.GLB_BOOT_STATUS, 3)] (pSt id)

def s2s (w : Bool) : State := pSt (fun p => {p with state := 2, wakeReq := w}) dead

def s14_13 : State := pSt (fun p => {p with state := 1})

def s14_14 : State := pSt (fun p => {p with motionAt := 1000005})

def s1c (n : Nat) (p : Power → Power) : State := set [(R.PWR_S1_CFG, n)] (pSt p)

def s14_15 : State := s1c 0 (fun p => {p with s1Req := true})

def s1w : State := let s := pSt (fun p => {p with state := 1}); { s with line := { s.line with rx := [.applied 4, .motion 1, .motion 0, .motion 1] } }

/-- The CRC-8 of the write of MSMB_WAKE with data 1. -/
def wakePec : Byte := BitVec.ofNat 8 (pecOf [0x98, 0x60, 1, 0])

def badPec : Byte := wakePec + 1

theorem badPec_bad : ¬ ∀ c, some badPec = some c → c.toNat = pecOf [0x98, 0x60, 1, 0] := fun h => absurd (h badPec rfl) (by decide)

def sf (v : Nat) (cfg : Nat) (p : Power → Power := id) : State := set [(R.PWR_SAFE_STAT, v), (R.PWR_SAFE_CFG, cfg)] (pSt p)

def s14_16 : State := sf 0x1021 0 (fun p => {p with hot := true})

def s14_17 : State := sf 0x1021 512 (fun p => {p with absentSince := some 7})

/-- The hypotheses of `SupplyAndResets` are met. -/
theorem witness_SupplyAndResets :
    (10800 ≤ 10800 ∧ 10800 ≤ 13200) ∧
    (busySt dead).mod.railsUp = false ∧
    (busySt dead).mod.warning = false ∧
    (busySt dead).pwr.state ≠ 2 ∧
    (10800 ≤ 13200 ∧ 13200 ≤ 13200) ∧
    s14_1.mod.railsUp = false ∧
    s14_1.mod.warning = false ∧
    s14_1.pwr.state ≠ 2 ∧
    (¬(10800 ≤ 10799 ∧ 10799 ≤ 13200) ∨ (busySt dead).mod.railsUp = true ∨ (busySt dead).mod.warning = true ∨ (busySt dead).pwr.state = 2) ∧
    (((busySt dead).running = false ∨ (busySt dead).phase ≠ 3) ∨ (busySt dead).condNow = true ∧ 10800 ≤ 10799 ∧ 10799 ≤ 13200) ∧
    (¬(10800 ≤ 13200 ∧ 13200 ≤ 13200) ∨ (testing true).mod.railsUp = true ∨ (testing true).mod.warning = true ∨ (testing true).pwr.state = 2) ∧
    (((testing true).running = false ∨ (testing true).phase ≠ 3) ∨ (testing true).condNow = true ∧ 10800 ≤ 13200 ∧ 13200 ≤ 13200) ∧
    (¬(10800 ≤ 10799 ∧ 10799 ≤ 13200) ∨ (testing true).mod.railsUp = true ∨ (testing true).mod.warning = true ∨ (testing true).pwr.state = 2) ∧
    (testing true).running = true ∧
    (testing true).phase = 3 ∧
    (¬(10800 ≤ 10799 ∧ 10799 ≤ 13200)) ∧
    warned.mod.warning = true ∧
    warned.mod.badAt + 10000000 ≤ max warned.now 10000200 ∧
    (¬(10800 ≤ 13200 ∧ 13200 ≤ 13200) ∨ warned.mod.warning = false ∨ max warned.now 10000199 < warned.mod.badAt + 10000000) ∧
    ((warned.running = false ∨ warned.phase ≠ 3) ∨ warned.condNow = true ∧ 10800 ≤ 13200 ∧ 13200 ≤ 13200) ∧
    (¬(10800 ≤ 13201 ∧ 13201 ≤ 13200) ∨ warned.mod.warning = false ∨ max warned.now 10000199 < warned.mod.badAt + 10000000) ∧
    ((warned.running = false ∨ warned.phase ≠ 3) ∨ warned.condNow = true ∧ 10800 ≤ 13201 ∧ 13201 ≤ 13200) ∧
    (¬(10800 ≤ 0 ∧ 0 ≤ 13200) ∨ (testing true).mod.warning = false ∨ max (testing true).now 9 < (testing true).mod.badAt + 10000000) ∧
    (¬(10800 ≤ 0 ∧ 0 ≤ 13200)) ∧
    10200 ≤ 10200 ∧
    ((busySt.running = false ∨ busySt.phase ≠ 3) ∨ busySt.condNow = true ∧ 10800 ≤ 10200 ∧ 10200 ≤ 13200) ∧
    (¬(10800 ≤ 10200 ∧ 10200 ≤ 13200)) ∧
    s14_1.pwr.state = 3 ∧
    ((s14_1.running = false ∨ s14_1.phase ≠ 3) ∨ s14_1.condNow = true ∧ 10800 ≤ 9000 ∧ 9000 ≤ 13200) ∧
    (true = true ∨ 12000 < 10200) ∧
    warned.pwr.state ≠ 3 ∧
    (false = true ∨ 10199 < 10200) ∧
    busySt.pwr.state ≠ 3 ∧
    busySt.mod.warning = false ∧
    (busySt dead).pwr.state ≠ 3 ∧
    (8500 ≤ 8500 ∨ busySt.pwr.state = 3) ∧
    ((busySt.running = false ∨ busySt.phase ≠ 3) ∨ busySt.condNow = true ∧ 10800 ≤ 8500 ∧ 8500 ≤ 13200) ∧
    (8500 ≤ 0 ∨ s14_1.pwr.state = 3) ∧
    ((s14_1.running = false ∨ s14_1.phase ≠ 3) ∨ s14_1.condNow = true ∧ 10800 ≤ 0 ∧ 0 ≤ 13200) ∧
    (8500 ≤ 8500 ∨ (testing true).pwr.state = 3) ∧
    (¬(10800 ≤ 8500 ∧ 8500 ≤ 13200)) ∧
    8499 < 8500 ∧
    0 < 8500 ∧
    counting.pwr.state ≠ 3 ∧
    busySt.pwr.state ≠ 2 ∧
    warned.pwr.state ≠ 2 ∧
    (s3.pwr.state = 2 ∨ s3.pwr.state = 3) ∧
    (busySt.pwr.state ≠ 3 ∨ busySt.mod.warning = true ∨ max busySt.now 10000099 < busySt.mod.warnAt + 1000000) ∧
    (s3.pwr.state ≠ 3 ∨ s3.mod.warning = true ∨ max s3.now 1000049 < s3.mod.warnAt + 1000000) ∧
    s3.pwr.state = 3 ∧
    s3.mod.modResetLow = true ∧
    s3.mod.warning = false ∧
    s3.mod.warnAt + 1000000 ≤ max s3.now 1000050 ∧
    busySt.mod.pcieUp = false ∧
    (busySt.running = false ∨ busySt.phase ≠ 3) ∧
    (testing true).mod.pcieUp = false ∧
    up2.mod.pcieUp = true ∧
    up2.running = true ∧
    up2.phase ≠ 3 ∧
    busySt.running = true ∧
    busySt.boot.started = true ∧
    ((busySt dead).running = false ∨ (busySt dead).boot.started = false) ∧
    busySt.mod.serrefOk = true ∧
    2 ≤ busySt.phase ∧
    busySt.phase ≠ 8 ∧
    (testing true).mod.serrefOk = true ∧
    2 ≤ (testing true).phase ∧
    (testing true).phase ≠ 8 ∧
    ((ph 1).mod.serrefOk = false ∨ (ph 1).running = false ∨ (ph 1).phase < 2 ∨ (ph 1).phase = 8) ∧
    s14_2.mod.serrefOk = false ∧
    s14_2.running = true ∧
    s14_2.fld R.PWR_CLK_CAP 0 3 ≤ 6 ∧
    s14_2.fld R.PWR_CLK 8 3 ≤ 6 ∧
    s14_2.pmcUp = true := by
  and_intros <;> decide

/-- The hypotheses of `BringUp` are met. -/
theorem witness_BringUp :
    (cold 0).mod.held = true ∧
    (cold 0).mod.railsUp = true ∧
    (cold 0).mod.aonUp = true ∧
    (cold 0).mod.modResetLow = false ∧
    (cold 0).mod.warning = false ∧
    (cold 0).pwr.state = 0 ∧
    ((cold 1).mod.held = false ∨ (cold 1).mod.railsUp = false ∨ (cold 1).mod.aonUp = false ∨ (cold 1).mod.modResetLow = true ∨
      (cold 1).mod.warning = true ∨ (cold 1).pwr.state ≠ 0) ∧
    (cold 1).running = true ∧
    (cold 1).boot.started = true ∧
    (cold 1).phase = 1 ∧
    imageOk (img false) = false ∧
    imageOk (img true) = true ∧
    (cold 1).sec.keysOk = true ∧
    (cold 1).mod.serrefOk = true ∧
    (cold 1).boot.serrefAtRom = true ∧
    keyless.running = true ∧
    keyless.boot.started = true ∧
    keyless.phase = 1 ∧
    keyless.sec.keysOk = false ∧
    coldX.running = true ∧
    coldX.boot.started = true ∧
    coldX.phase = 1 ∧
    coldX.sec.keysOk = true ∧
    (coldX.mod.serrefOk = false ∨ coldX.boot.serrefAtRom = false) ∧
    s14_18.running = true ∧
    s14_18.boot.started = true ∧
    s14_18.phase = 1 ∧
    s14_18.sec.keysOk = true ∧
    (s14_18.mod.serrefOk = false ∨ s14_18.boot.serrefAtRom = false) ∧
    ((cold 2).running = false ∨ (cold 2).boot.started = false ∨ (cold 2).phase ≠ 1) ∧
    (cold 8).running = true ∧
    (cold 8).phase = 8 ∧
    (imageOk (img false) = false ∨ (cold 8).running = false ∨ (cold 8).phase ≠ 8) ∧
    s14_3.running = true ∧
    s14_3.phase = 2 ∧
    s14_3.boot.condNext ≤ max s14_3.now 5 ∧
    condOk (cm 12000) = true ∧
    s14_3.mod.serrefOk = true ∧
    (condOk (cm 10799) = false ∨ s14_3.mod.serrefOk = false) ∧
    s14_3.boot.condFails < 9 ∧
    s14_4.running = true ∧
    s14_4.phase = 2 ∧
    s14_4.boot.condNext ≤ max s14_4.now 5 ∧
    (condOk (cm 10799) = false ∨ s14_4.mod.serrefOk = false) ∧
    s14_4.boot.condFails = 9 ∧
    (s14_4.running = false ∨ s14_4.phase ≠ 2 ∨ max s14_4.now 4 < s14_4.boot.condNext) ∧
    s14_5.running = true ∧
    s14_5.phase = 3 ∧
    condOk (cm 10799) = false ∧
    (condOk (cm 10800) = true ∨ s14_5.running = false ∨ s14_5.phase ≠ 3) ∧
    s14_6.running = true ∧
    s14_6.phase = 3 ∧
    s14_6.condNow = true ∧
    (gradeOf (min (List.filter (fun n => (List.foldl (fun a n => if s14_6.boot.fuseOff.getLsbD n = true then a else a + 2 ^ n) 0 (List.range 32)).testBit n) (List.range 32)).length s14_6.boot.fuseCeiling) ≠ 0) ∧
    s14_7.running = true ∧
    s14_7.phase = 3 ∧
    s14_7.condNow = true ∧
    (gradeOf (min (List.filter (fun n => (List.foldl (fun a n => if s14_7.boot.fuseOff.getLsbD n = true then a else a + 2 ^ n) 0 (List.range 32)).testBit n) (List.range 32)).length s14_7.boot.fuseCeiling) = 0) ∧
    strict.running = true ∧
    strict.phase = 3 ∧
    strict.condNow = true ∧
    strict.judged [bf] ≠ [] ∧
    strict.strap 1 = true ∧
    noclk.running = true ∧
    noclk.phase = 3 ∧
    noclk.condNow = false ∧
    ((cold 2).running = false ∨ (cold 2).phase ≠ 3) := by
  and_intros <;> decide

/-- The hypotheses of `PowerThermalAndSafety` are met. -/
theorem witness_PowerThermalAndSafety :
    ((∃ ch, Msg.motion ch ∈ s1w.line.rx) ∨ s1w.jobBusy = true) ∧
    ((pSt id).pwr.state ≠ 1 ∨ (∀ (ch : ℕ), Msg.motion ch ∉ (pSt id).line.rx) ∧ (pSt id).jobBusy = false) ∧
    ((∃ ch, Msg.motion ch ∈ (s2s true).ron.tx) ∧ (s2s true).pwr.s2Motion = true ∨ (s2s true).pwr.wakeReq = true ∨
      (s2s true).mod.modResetLow = true) ∧
    (∀ (x : Byte), none = some x → BitVec.toNat x = pecOf [152, 96, 1 % 256, 1 / 256]) ∧
    ((s2s false).pwr.state ≠ 2 ∨ 3 ≠ 1 ∨ ¬∀ (c : Byte), none = some c → BitVec.toNat c = pecOf [152, 96, 3 % 256, 3 / 256]) ∧
    (∀ (x : Byte), some wakePec = some x → BitVec.toNat x = pecOf [152, 96, 1 % 256, 1 / 256]) ∧
    ((s2s false).pwr.state ≠ 2 ∨ 1 ≠ 1 ∨ ¬∀ (c : Byte), some badPec = some c → BitVec.toNat c = pecOf [152, 96, 1 % 256, 1 / 256]) ∧
    s14_8.running = true ∧
    s14_8.pmcUp = true ∧
    s14_9.running = true ∧
    s14_9.pmcUp = true ∧
    s14_10.running = true ∧
    s14_10.pmcUp = true ∧
    s14_11.running = true ∧
    s14_11.pmcUp = true ∧
    (pmcOff.running = false ∨ pmcOff.pmcUp = false) ∧
    179 ≤ 179 ∧
    (pSt id).running = true ∧
    ((pSt id).pwr.hot && (pSt id).bit R.PWR_SAFE_STAT 5) = false ∧
    (pSt id).safe = false ∧
    (pSt id).line.ledger = [] ∧
    (pSt id).sch.pours = [] ∧
    (pSt id).fab.crus = [] ∧
    179 ≤ 180 ∧
    (s14_19.running = false ∨ s14_19.pwr.hot = true ∧ s14_19.bit R.PWR_SAFE_STAT 5 = true) ∧
    163 < 164 ∧
    164 ≤ 164 ∧
    164 < 179 ∧
    164 ≤ 178 ∧
    178 < 179 ∧
    (pSt id).pmcUp = true ∧
    (pSt id).pwr.state ≠ 2 ∧
    (pSt id).phase ≠ 3 ∧
    s14_20.running = true ∧
    s14_20.pmcUp = true ∧
    s14_20.pwr.state ≠ 2 ∧
    s14_20.phase = 3 ∧
    (¬(10800 ≤ 10799 ∧ 10799 ≤ 13200)) ∧
    (s2s true).pwr.state = 2 ∧
    (pSt id dead).pwr.state ≠ 2 ∧
    ((pSt id dead).running = false ∨ (pSt id dead).pmcUp = false) ∧
    s14_13.running = true ∧
    s14_13.pmcUp = true ∧
    s14_13.pwr.state = 1 ∧
    (pSt id).pwr.state = 0 ∧
    ((pSt id).at' 1000005).s1Ready 1 = true ∧
    s14_14.running = true ∧
    s14_14.pmcUp = true ∧
    s14_14.pwr.state = 0 ∧
    (s14_14.at' 1000005).s1Ready 1 = false ∧
    busySt.running = true ∧
    busySt.pmcUp = true ∧
    (3 = 2 ∨ 3 = 3) ∧
    busySt.sleepRefusal ≠ 0 ∧
    (pSt id).sleepRefusal = 0 ∧
    (2 = 2 ∨ 2 = 3) ∧
    (Instr.pwrReqS2 1000005, 2) ∈ [(Instr.pwrReqS0 1000005, 0), (Instr.pwrReqS1 1000005, 1), (Instr.pwrReqS2 1000005, 2), (Instr.pwrReqS3 1000005, 3)] ∧
    pmcOff.running = true ∧
    pmcOff.pmcUp = false ∧
    (Instr.pwrReqS3 1000005, 3) ∈ [(Instr.pwrReqS0 1000005, 0), (Instr.pwrReqS1 1000005, 1), (Instr.pwrReqS2 1000005, 2), (Instr.pwrReqS3 1000005, 3)] ∧
    (pSt id dead).running = false ∧
    (s1c 17 fun p => { p with idleSince := some 0 }).running = true ∧
    (s1c 17 fun p => { p with idleSince := some 0 }).pmcUp = true ∧
    (s1c 17 fun p => { p with idleSince := some 0 }).pwr.state = 0 ∧
    ((s1c 17 fun p => { p with idleSince := some 0 }).pwr.s1Req = true ∧
      ((s1c 17 fun p => { p with idleSince := some 0 }).at' 1000000000).s1Ready 1 = true ∨
      ((s1c 17 fun p => { p with idleSince := some 0 }).at' 1000000000).s1Idle ((s1c 17 fun p => { p with idleSince := some 0 }).fld R.PWR_S1_CFG 4 12 * 1000000000) = true) ∧
    s14_15.running = true ∧
    s14_15.pmcUp = true ∧
    s14_15.pwr.state = 0 ∧
    (s14_15.pwr.s1Req = true ∧ (s14_15.at' 1000).s1Ready 1 = true ∨ (s14_15.at' 1000).s1Idle (s14_15.fld R.PWR_S1_CFG 4 12 * 1000000000) = true) ∧
    (s1c 0 id).running = true ∧
    (s1c 0 id).pmcUp = true ∧
    (s1c 0 id).pwr.state = 0 ∧
    ((s1c 0 id).pwr.s1Req = false ∨ ((s1c 0 id).at' 1000).s1Ready 1 = false) ∧
    ((s1c 0 id).at' 1000).s1Idle ((s1c 0 id).fld R.PWR_S1_CFG 4 12 * 1000000000) = false ∧
    s1w.running = true ∧
    s1w.pwr.state = 1 ∧
    (s2s true).mod.warning = false ∧
    ((pSt id).pwr.state ≠ 2 ∨ (pSt id).mod.warning = true) ∧
    (s2s false).pwr.state = 2 ∧
    1 = 1 ∧
    (sf 4129 0).running = true ∧
    (sf 4129 0).safe = true ∧
    ((sf 4129 0).at' 1000).causesAbsent = true ∧
    s14_16.running = true ∧
    s14_16.safe = true ∧
    (s14_16.at' 1000).causesAbsent = false ∧
    s14_17.running = true ∧
    s14_17.safe = true ∧
    s14_17.pwr.absentSince = some 7 ∧
    s14_17.fld R.PWR_SAFE_CFG 8 16 ≠ 0 ∧
    7 + s14_17.fld R.PWR_SAFE_CFG 8 16 * 1000000000 ≤ max s14_17.now 2000000007 ∧
    (s14_17.at' 2000000007).causesAbsent = true ∧
    (sf 4129 0).fld R.PWR_SAFE_CFG 8 16 = 0 ∧
    (sf 1 0).running = true ∧
    (sf 1 0).safe = true ∧
    (sf 0 0).running = true ∧
    (sf 0 0).safe = false ∧
    (sf 0 0).line.ledger = [] := by
  refine ⟨.inl ⟨1, by decide⟩, .inl (by decide), .inr (.inl (by decide)), (fun _ h => nomatch h), .inr (.inl (by decide)),
    (fun _ h => by cases h; decide), .inr (.inr badPec_bad), ?_⟩
  and_intros <;> decide

end Sys2Proof.Tests.W14

namespace Sys2Proof.Tests.W15

open Sys2Proof Sys2Proof.Machine Sys2Proof.Tests

set_option maxRecDepth 100000
set_option exponentiation.threshold 1024

/-! ### Scheduler -/

def sq0 (twin : Bool) : SeqDecl := { lp := 4, g := 1, bt := 16, rows := 1, dpool := 1, mpool := 1, positions := 64, twin := twin }

def decl0 (reg : List (Nat × Nat × Bool)) : TaskDecl := ⟨0x1000, none, false, false, false, false, reg⟩

def pgS (twin : Bool) : Program := { prog0 with seq := some (sq0 twin), pieceSlots := [0, 1], compared := [] }

/-- LINE context 2 runs a sequence program on flask 0. -/
def lineCtx : Ctx := { cls := 1, mask := 0xF, st := 2, running := 1, prio := 3 }

def sqSt (twin : Bool) (q : SeqSt) (ps : List Piece) : State :=
  let s := set [(R.CMD_SEQ_CLASS 4, 20 + 7 * 2 ^ 21)] up
  { s with sch := { s.sch with ctxs := [(0, {}), (2, lineCtx)], progs := [⟨1, 2, pgS twin⟩], pours := [{ pour1 with ctx := 2 }], seqs := [(2, q)], pieces := ps } }

def pc : Piece := { entry := 5, ctx := 2, cls := 4, serial := 9, st := 2, tokens := 3 }

def s15_1 : State := sqSt false {step := 4, free := 6} [pc]

def a15_1 : Pour := { pour1 with ctx := 2 }

def a15_2 : SeqSt := {step := 4, free := 6}

def tw : SeqSt := { step := 2^64-1, busy := true, compare := true, batch := [(5, 3, 7)], commits := [1] }

theorem tw_batch : ∀ e ∈ tw.batch, ∀ r, (sqSt true tw [pc]).piece e.1 = some r → r.total = none := by
  intro e he r h; rcases he with _ | ⟨_, h2⟩
  · cases (show some pc = some r from h); rfl
  · cases h2

def pcT : Piece := { pc with dA := [0,7,0,0,0,0,0,0] }

def dqSt (ds : List (Nat × Nat × Nat × Nat)) (m : BitVec 32 := 1) (p : Program := { prog0 with tasks := [decl0 [(16, 1, false)], decl0 [(16, 1, false)]] }) : State :=
  let s := set [(R.DBG_FW_STAT 3, 1), (R.DBG_FW_STAT 4, 1)] up
  { s with sch := { s.sch with ctxs := [(0, {}), (2, { lineCtx with cls := 2, running := m })], progs := [⟨1, 2, p⟩], pours := [{ pour1 with ctx := 2, prog := 1 }], deques := ds } }

def dqT := dqSt [(0,2,1,0),(0,2,1,1)]

def dqTr : State := ((dqT.at' 9).addRegions 0 2 [(16, 1, false)]).get (by decide)

/-- A protected region of another context fills flask 0's mould. -/
def dqF : State := set [(R.FLK_REGION 0 0, 2 ^ 29 + 2 ^ 28 + 2 ^ 24 + 1536 * 4096)] dqT

def dqS := dqSt [(1,2,1,0),(1,2,1,1)] 3

def a15_3 : Ctx := { lineCtx with cls := 2, running := 3 }

def jx : Ctx := { cls := 2, mask := 1, st := 2, sliceAt := 5, granted := 10, running := 1 }

def slSt (c : Ctx) (k : FlaskSt) : State := let s := set [(R.DBG_FW_STAT 3, 1)] up
  { s with sch := { s.sch with ctxs := [(0, {}), (2, c)], flasks := [(0, k)], progs := [⟨1, 2, prog0⟩], pours := [{ pour1 with ctx := 2 }] }, fab := { s.fab with fets := [(1, { fet1 with ctx := 2 })] } }

def s15_2 : State := slSt jx {job := some 2}

def a15_4 : FlaskSt := {job := some 2}

def s15_3 : State := slSt {jx with st := 4} {job := some 2}

def a15_5 : Ctx := {jx with st := 4}

def s15_4 : State := { s15_2 with sch := { s15_2.sch with pours := [] } }

def ldSt : State := let s := dqSt [(0,2,1,0)]
  let l := { lineCtx with mask := 3, running := 2 }
  { s with sch := { s.sch with ctxs := [(0, {}), (1, job1), (2, l)], flasks := [(0, { job := some 1 }), (1, { line := some 2 })] }
           fab := { s.fab with fets := (List.range 4).map (fun f => (4 + f, { fet1 with ctx := 2 })) } }

def lrSt : State := let s := up
  { s with sch := { s.sch with ctxs := [(0, {}), (2, lineCtx)], flasks := [(0, { line := some 2, lineAt := 7 })] } }

def ch1 : Ctx := { jx with held := true, st := 3 }

def chSt : State := let s := set [(R.FLK_REGION 0 0, 2 ^ 29 + 2 * 2 ^ 24 + 16 * 4096), (R.FLK_REGION 0 1, 2 ^ 29 + 3 * 2 ^ 24 + 16 * 4096 + 16)] (slSt ch1 { job := some 2, phase := 1, full := true })
  { s with fab := { s.fab with mould := [(8, 9), (100, 7), (65600, 7)] } }

def a15_6 : FlaskSt := { job := some 2, phase := 1, full := true }

def rm1 : Ctx := { jx with st := 5, running := 0, sections := [{ flask := 0, kind := 0, fets := [(3, { fet1 with ctx := 2 })] }] }

def rmSt : State := let s := slSt rm1 { job := some 2, phase := 3 }
  { s with sch := { s.sch with pours := [] }, fab := { s.fab with fets := [] } }

def a15_7 : FlaskSt := { job := some 2, phase := 3 }

def a15_8 : Section := { flask := 0, kind := 0, fets := [(3, { fet1 with ctx := 2 })] }

def a15_9 : Fet := { fet1 with ctx := 2 }

/-- The hypotheses of `SchedulerCommands` are met. -/
theorem witness_SchedulerCommands :
    (∀ e ∈ tw.batch, ∀ (r : Piece), (sqSt true tw [pc]).piece e.1 = some r → r.total = none) ∧
    (s15_1.at' 9).seqPour 2 = some (a15_1, pgS false, sq0 false) ∧
    a15_1.replay = false ∧
    KMap.find s15_1.sch.seqs 2 = some a15_2 ∧
    s15_1.fabricUp = true ∧
    s15_1.schUp = true ∧
    a15_2.busy = false ∧
    a15_2.compare = false ∧
    s15_1.sch.pieces = [pc] ∧
    pc.ctx = 2 ∧
    pc.st = 2 ∧
    pc.voided = false ∧
    pc.total = none ∧
    s15_1.sch.pendRet = [] ∧
    0 < (sq0 false).bt ∧
    1 ≤ (s15_1.at' 9).backlog [(5, 4)] pc ∧
    1 ≤ (s15_1.at' 9).backlog [(5, 400)] pc ∧
    ((sqSt true tw [pc]).at' 9).seqPour 2 = some (a15_1, pgS true, sq0 true) ∧
    KMap.find (sqSt true tw [pc]).sch.seqs 2 = some tw ∧
    (sqSt true tw [pc]).running = true ∧
    tw.compare = true ∧
    (∀ e ∈ ((sqSt true tw [pc]).at' 9).twinSlots 2 (pgS true) tw, e.2 = []) ∧
    ((sqSt true tw [pc]).at' 9).twinRegs (pgS true) a15_1 = [] ∧
    (sqSt true tw [pc]).schUp = true ∧
    (sqSt true tw [pc]).replayPour 2 = none ∧
    ((sqSt true tw [pcT]).at' 9).seqPour 2 = some (a15_1, pgS true, sq0 true) ∧
    KMap.find (sqSt true tw [pcT]).sch.seqs 2 = some tw ∧
    (sqSt true tw [pcT]).running = true ∧
    ((sqSt true tw [pcT]).at' 9).twinSlots 2 (pgS true) tw = [(pcT, [1])] ∧
    ((sqSt true tw [pcT]).at' 9).twinRegs (pgS true) a15_1 = [] ∧
    (List.filter (fun d => d.1 == 0 && d.2.1 == 2) dqT.sch.deques).getLast? = some (0, 2, 1, 1) ∧
    dqT.fabricUp = true ∧
    dqT.fwState (3 + 0) = 1 ∧
    dqT.fet (0 * 4 + 3) = none ∧
    ((dqT.at' 9).placeable 2).contains 0 = true ∧
    (dqT.at' 9).stopped 0 2 = false ∧
    (dqT.at' 9).goesFirst 0 2 1 = true ∧
    (dqT.at' 9).taskDecl 1 1 = some (decl0 [(16, 1, false)]) ∧
    (dqT.at' 9).bringRegions 0 2 (decl0 [(16, 1, false)]).regions = some dqTr ∧
    (List.filter (fun d => d.1 == 0 && d.2.1 == 2) dqF.sch.deques).getLast? = some (0, 2, 1, 1) ∧
    (dqF.at' 9).taskDecl 1 1 = some (decl0 [(16, 1, false)]) ∧
    (dqF.at' 9).bringRegions 0 2 (decl0 [(16, 1, false)]).regions = none ∧
    (dqS.sch.deques.any fun d => d.1 == 0 && d.2.1 == 2) = false ∧
    dqS.fabricUp = true ∧
    dqS.schUp = true ∧
    dqS.fwState (3 + 0) = 1 ∧
    dqS.fet (0 * 4 + 3) = none ∧
    ((dqS.at' 9).placeable 2).contains 0 = true ∧
    (dqS.at' 9).stopped 0 2 = false ∧
    List.filter (fun k => k != 0) ((dqS.at' 9).runs 2) = [1] ∧
    List.find? (fun d => d.1 == 1 && d.2.1 == 2 && (dqS.at' 9).stealable 0 d) dqS.sch.deques = some (1, 2, 1, 0) ∧
    dqS.ctx 2 = some a15_3 ∧
    s15_2.running = true ∧
    s15_2.schUp = true ∧
    2 ≠ 0 ∧
    s15_2.sch.ctxs = [(0, {  }), (2, jx)] ∧
    jx.cls = 2 ∧
    jx.st = 2 ∧
    (jx.sliceAt + jx.granted ≤ max s15_2.now 15 ∨ (s15_2.at' 15).jobWork 2 = false) ∧
    s15_2.sch.flasks = [(0, a15_4)] ∧
    a15_4.job = some 2 ∧
    a15_4.phase = 0 ∧
    s15_3.ctx 2 = some a15_5 ∧
    (a15_5.st ≠ 2 ∨ max s15_3.now 15 < a15_5.sliceAt + a15_5.granted ∧ (s15_3.at' 15).jobWork 2 = true) ∧
    s15_4.running = true ∧
    s15_4.schUp = true ∧
    s15_4.sch.ctxs = [(0, {  }), (2, jx)] ∧
    (jx.sliceAt + jx.granted ≤ max s15_4.now 5 ∨ (s15_4.at' 5).jobWork 2 = false) ∧
    s15_4.sch.flasks = [(0, a15_4)] ∧
    ldSt.running = true ∧
    ldSt.schUp = true ∧
    ldSt.clsOf 2 = 1 ∧
    (ldSt.flask 0).job = some 1 ∧
    (ldSt.flask 0).phase = 0 ∧
    (ldSt.at' 15).claimFlask 2 = some 0 ∧
    lrSt.running = true ∧
    lrSt.schUp = true ∧
    (lrSt.flask 0).line ≠ none ∧
    (lrSt.flask 0).job = none ∧
    (∀ e ∈ lrSt.sch.ctxs, e.2.cls ≠ 2) ∧
    (lrSt.sch.deques.any fun d => d.1 == 0 && lrSt.clsOf d.2.1 == 1) = false ∧
    (List.any lrSt.fab.fets fun e => e.1 / 4 == 0 && lrSt.clsOf e.2.ctx == 1) = false ∧
    (lrSt.flask 0).lineAt + 1000000 ≤ max lrSt.now 1000007 ∧
    max lrSt.now 1000006 < (lrSt.flask 0).lineAt + 1000000 ∧
    (lrSt.at' 15).claimFlask 2 ≠ some 0 ∧
    chSt.running = true ∧
    chSt.fwState (3 + 0) = 1 ∧
    chSt.sch.ctxs = [(0, {  }), (2, ch1)] ∧
    ch1.held = true ∧
    ch1.cls = 2 ∧
    ch1.sections = [] ∧
    ch1.st = 3 ∧
    chSt.sch.flasks = [(0, a15_6)] ∧
    a15_6.job = some 2 ∧
    a15_6.phase = 1 ∧
    a15_6.full = true ∧
    a15_6.crashed = [] ∧
    a15_6.askedAt = none ∧
    chSt.hasPours 2 = true ∧
    chSt.host.orders = [] ∧
    (chSt.at' 1000006).issuedOn 0 2 = false ∧
    (chSt.at' 1000006).draining 0 2 = false ∧
    rmSt.running = true ∧
    rmSt.fwState (3 + 0) = 1 ∧
    rmSt.sch.ctxs = [(0, {  }), (2, rm1)] ∧
    rm1.st = 5 ∧
    rm1.cls = 2 ∧
    rm1.sections = [a15_8] ∧
    a15_8.flask = 0 ∧
    a15_8.kind = 0 ∧
    a15_8.fets = [(3, a15_9)] ∧
    3 < 4 ∧
    rmSt.sch.flasks = [(0, a15_7)] ∧
    a15_7.job = some 2 ∧
    a15_7.phase = 3 ∧
    rmSt.sch.pours = [] ∧
    rmSt.host.orders = [] := by
  refine ⟨tw_batch, ?_⟩
  and_intros <;> decide

end Sys2Proof.Tests.W15
end

section
/-! PROOF. Frames of a whole command, composed from what each of its updates changes. -/

namespace Sys2Proof.Machine

/-- `x` differs from `y` in the parts `l` alone, and no time passes between them: the frame of an update within a command. -/
def State.changesOnly (y x : State) (l : List Part) : Prop := x.now = y.now ∧ y.keepsBut x l

variable {x y z : State} {l : List Part}

/-- Landing at the present instant changes nothing. -/
theorem State.at'_self (s : State) : s.at' s.now = s := by simp [State.at']

theorem State.keepsBut_refl (s : State) (l : List Part) : s.keepsBut s l := by
  intro p _
  cases p with
  | ron => exact ⟨rfl, fun _ _ => rfl⟩
  | tim => exact (congrArg State.tim s.at'_self).symm
  | _ => rfl

/-- Landing changes no part. -/
theorem State.keepsBut_at' (s : State) (t : Nat) (l : List Part) : s.keepsBut (s.at' t) l := by
  intro p _
  cases p with
  | tim => exact congrArg State.tim (s.at'_now t).symm
  | _ => simp [Part.same]

/-- Frames compose where the second command takes no time. -/
theorem State.keepsBut_trans (hxy : x.keepsBut y l) (hyz : y.changesOnly z l) : x.keepsBut z l := by
  obtain ⟨hn, hyz⟩ := hyz
  intro p hp
  have h1 := hxy p hp
  have h2 := hyz p hp
  cases p with
  | tim =>
    simp only [Part.same] at h1 h2 ⊢
    rw [h2, hn, State.at'_self, h1]
  | ron =>
    obtain ⟨h1, d1⟩ := h1
    obtain ⟨h2, d2⟩ := h2
    refine ⟨by rw [h2, h1], fun k hk => ?_⟩
    rw [← d1 k hk, ← d2 k hk]
  | pwr =>
    simp only [Part.same] at h1 h2 ⊢
    rw [h2, h1]
  | _ => exact Eq.trans h2 h1

theorem State.changesOnly_refl (s : State) (l : List Part) : s.changesOnly s l := ⟨rfl, s.keepsBut_refl l⟩

theorem State.changesOnly.trans (hxy : x.changesOnly y l) (hyz : y.changesOnly z l) : x.changesOnly z l :=
  ⟨hyz.1.trans hxy.1, State.keepsBut_trans hxy.2 hyz⟩

/-! ### What one update changes -/

/-- A new host interface, register map and staging block change those parts alone. -/
theorem State.changesOnly_update (y : State) (h : HostIf) (r : KMap W32) (g : Stage)
    (hh : .host ∈ l ∨ h = y.host) (hr : .regs ∈ l ∨ r = y.regs) (hg : .stage ∈ l ∨ g = y.stage) :
    y.changesOnly { y with host := h, regs := r, stage := g } l := by
  refine ⟨rfl, fun p hp => ?_⟩
  have hk := y.keepsBut_refl l p hp
  cases p with
  | host => exact hh.resolve_left hp
  | regs => exact hr.resolve_left hp
  | stage => exact hg.resolve_left hp
  | _ => exact hk

theorem State.changesOnly_host (y : State) (h : HostIf) (hl : .host ∈ l) : y.changesOnly { y with host := h } l :=
  y.changesOnly_update h y.regs y.stage (.inl hl) (.inr rfl) (.inr rfl)

theorem State.changesOnly_wr (y : State) (a v : Nat) (hl : .regs ∈ l) : y.changesOnly (y.wr a v) l :=
  y.changesOnly_update y.host _ y.stage (.inr rfl) (.inl hl) (.inr rfl)

theorem State.changesOnly_wr64 (y : State) (a v : Nat) (hl : .regs ∈ l) : y.changesOnly (y.wr64 a v) l :=
  (y.changesOnly_wr _ _ hl).trans (State.changesOnly_wr _ _ _ hl)

theorem State.changesOnly_stage (y : State) (g : Stage) (hl : .stage ∈ l) : y.changesOnly { y with stage := g } l :=
  y.changesOnly_update y.host y.regs g (.inr rfl) (.inr rfl) (.inl hl)

/-! ### A command that ends -/

/-- A command that lands, changes the parts `l` and ends as a command of Ronyr's changes nothing else. -/
theorem State.keepsBut_doneR (s : State) (t : Nat) (h : (s.at' t).changesOnly x l) : s.keepsBut x.noteDrive.settle l := by
  have hend : x.keepsBut x.noteDrive.settle l := fun p _ => by
    simpa [State.at'_self] using x.keepsBut_nothingR x.now p (by simp)
  exact State.keepsBut_trans (s.keepsBut_at' t l) (State.changesOnly.trans h ⟨rfl, hend⟩)

theorem State.gives_doneR {s : State} {c : Instr} {t : Nat} {post : State → Prop} (hc : exec c s = doneR x)
    (h : (s.at' t).changesOnly x l) (hp : post x.noteDrive.settle) : s.gives c l post :=
  ⟨_, hc.trans (doneR_eq x), State.keepsBut_doneR s t h, hp⟩

@[simp] theorem State.noteDrive_host (s : State) : s.noteDrive.host = s.host := rfl
@[simp] theorem State.noteDrive_stage (s : State) : s.noteDrive.stage = s.stage := rfl
@[simp] theorem State.rd_noteDrive (s : State) (a : Nat) : s.noteDrive.rd a = s.rd a := rfl

end Sys2Proof.Machine
end

section
/-! PROOF. Staged words: where each of a register's words lies, and what the shadow holds after a write (R94). -/

namespace Sys2Proof.Machine

/-- The register a decoder answers for address `a`, if any, has a word at `a`. -/
def StWord.placesAt (a : Nat) (o : Option StWord) : Prop := ∀ q, o = some q → a ∈ q.addrs 4

theorem StWord.placesAt_none (a : Nat) : StWord.placesAt a none ↔ True := by simp [StWord.placesAt]

theorem StWord.placesAt_st1 (a : Nat) (fs : List StFld) : StWord.placesAt a (st1 a fs) ↔ True := by
  simp [StWord.placesAt, st1, StWord.addrs]

theorem StWord.placesAt_stn (a b n : Nat) (fs : List StFld) :
    StWord.placesAt a (stn b n fs) ↔ b ≤ a ∧ (a - b) % 4 = 0 ∧ (a - b) / 4 < n := by
  simp only [StWord.placesAt, stn, Option.some.injEq, forall_eq', StWord.addrs, List.mem_map, List.mem_range]
  constructor
  · rintro ⟨i, hi, rfl⟩
    omega
  · intro h
    exact ⟨(a - b) / 4, h.2.2, by omega⟩

theorem StWord.placesAt_ite (a : Nat) (c : Prop) [Decidable c] (o p : Option StWord) :
    StWord.placesAt a (if c then o else p) ↔ (c → StWord.placesAt a o) ∧ (¬ c → StWord.placesAt a p) := by
  split <;> simp [*]

theorem stSlot_placesAt {a z : Nat} (ha : a % 4 = 0) (hz : z % 8 = a % 8) : StWord.placesAt a (stSlot a z) := by
  simp only [stSlot, StWord.placesAt_ite, StWord.placesAt_none, StWord.placesAt_st1, StWord.placesAt_stn, implies_true, and_true,
    true_and]
  omega

theorem stSeg_placesAt {a z : Nat} (ha : a % 4 = 0) (hz : z % 16 = a % 16) : StWord.placesAt a (stSeg a z) := by
  simp only [stSeg, StWord.placesAt_ite, StWord.placesAt_none, StWord.placesAt_st1, StWord.placesAt_stn, implies_true, and_true,
    true_and]
  omega

theorem stPack_placesAt {a : Nat} (z : Nat) (ha : a % 4 = 0) : StWord.placesAt a (stPack a z) := by
  simp only [stPack, StWord.placesAt_ite, StWord.placesAt_none, StWord.placesAt_st1, StWord.placesAt_stn, implies_true, and_true,
    true_and]
  omega

theorem stRun_placesAt {a : Nat} (r : Nat) (ha : a % 4 = 0) : StWord.placesAt a (stRun a r (a % 0x10000)) := by
  simp only [stRun, StWord.placesAt_ite, StWord.placesAt_none, stPack_placesAt _ ha, implies_true, and_true]
  exact ⟨fun _ => stSlot_placesAt ha (by omega), fun _ _ => stSeg_placesAt ha (by omega)⟩

theorem stCxp_placesAt {a : Nat} (o : Nat) (ha : a % 4 = 0) : StWord.placesAt a (stCxp a o) := by
  simp only [stCxp, StWord.placesAt_ite, StWord.placesAt_none, StWord.placesAt_st1, StWord.placesAt_stn, implies_true, and_true,
    true_and]
  omega

theorem stLnk_placesAt {a o : Nat} (ha : a % 4 = 0) (ho : o % 16 = a % 16) : StWord.placesAt a (stLnk a o) := by
  simp only [stLnk, StWord.placesAt_ite, StWord.placesAt_none, StWord.placesAt_st1, StWord.placesAt_stn, implies_true, and_true,
    true_and]
  omega

theorem stLin_placesAt {a o : Nat} (ha : a % 4 = 0) (ho : o % 0x40 = a % 0x40) : StWord.placesAt a (stLin a o) := by
  simp only [stLin, StWord.placesAt_ite, StWord.placesAt_none, StWord.placesAt_st1, StWord.placesAt_stn, implies_true, and_true,
    true_and]
  omega

theorem stTim_placesAt (a o : Nat) : StWord.placesAt a (stTim a o) := by
  simp [stTim, StWord.placesAt_ite, StWord.placesAt_none, StWord.placesAt_st1]

theorem stPwr_placesAt (a o : Nat) : StWord.placesAt a (stPwr a o) := by
  simp [stPwr, StWord.placesAt_ite, StWord.placesAt_none, StWord.placesAt_st1]

/-- The address of a staged word is one of its register's words (R93). -/
theorem stagedWord_mem_addrs {a : Nat} {q : StWord} (h : stagedWord a = some q) : a ∈ q.addrs 4 := by
  suffices StWord.placesAt a (stagedWord a) from this q h
  simp only [stagedWord, StWord.placesAt_ite, StWord.placesAt_none, StWord.placesAt_st1, StWord.placesAt_stn, stTim_placesAt,
    stPwr_placesAt, implies_true, and_true, true_and]
  intro h4
  have ha : a % 4 = 0 := by omega
  exact ⟨fun _ => by omega, fun _ => ⟨fun _ => stRun_placesAt _ ha, fun _ => ⟨fun _ => stCxp_placesAt _ ha,
    fun _ _ => ⟨fun _ => stLnk_placesAt ha (by omega), fun _ _ => stLin_placesAt ha (by omega)⟩⟩⟩⟩

/-- A fold whose steps write `v` at `k`, and leave `k` alone at every other key, ends with `v` at `k` where `k` is among its keys. -/
theorem KMap.find_foldl_of_mem {α : Type} {f : KMap α → Nat → KMap α} {k : Nat} {v : α} (hput : ∀ m, KMap.find (f m k) k = some v)
    (hkeep : ∀ m j, j ≠ k → KMap.find (f m j) k = KMap.find m k) (js : List Nat) :
    ∀ m : KMap α, k ∈ js ∨ KMap.find m k = some v → KMap.find (js.foldl f m) k = some v := by
  induction js with
  | nil => exact fun m h => h.resolve_left (List.not_mem_nil)
  | cons j js ih =>
    intro m h
    refine ih (f m j) ?_
    by_cases hj : j = k
    · exact .inr (hj ▸ hput m)
    · rw [hkeep m j hj]
      exact h.imp_left fun hk => (List.mem_cons.mp hk).resolve_left (Ne.symm hj)

/-- The shadow holds the assigned bits of a word written to it. -/
theorem find_shadowPut_same (m : KMap W32) {q : StWord} {a : Nat} (v : Nat) (live : Nat → Nat) (h : a ∈ q.addrs 4) :
    KMap.find (shadowPut m q 4 a v live) a = some (BitVec.ofNat 32 (q.keep v)) := by
  refine KMap.find_foldl_of_mem (fun m => ?_) (fun m b hb => ?_) _ m (.inl h)
  · simp only [if_true]
    exact KMap.find_put_same m a _
  · simp only [if_neg hb]
    split
    · rfl
    · exact KMap.find_put_other m _ (Ne.symm hb)

/-- Noting a written word changes the transaction it belongs to, and neither shadow. -/
theorem State.noteWritten_frame (s : State) (k : Nat) :
    s.noteWritten k = { s with stage := { s.stage with pend := (s.noteWritten k).stage.pend } } := by
  unfold State.noteWritten
  split <;> rfl

theorem State.stagedWrite_open {s : State} {a : Nat} {q : StWord} (v : Nat) (hq : stagedWord a = some q) (ho : s.shadowOpen = true) :
    s.stagedWrite a v = s.shadowWrite a v := by simp [State.stagedWrite, hq, ho]

theorem State.stagedWrite_shut {s : State} {a : Nat} {q : StWord} (v : Nat) (hq : stagedWord a = some q) (ho : s.shadowOpen = false) :
    s.stagedWrite a v = s.inc R.STG_IGNORED := by simp [State.stagedWrite, hq, ho, State.stgIgnored]

theorem State.shadowWrite_frame (s : State) (a v : Nat) : s.shadowWrite a v = { s with stage := (s.shadowWrite a v).stage } := by
  unfold State.shadowWrite
  split
  · rfl
  · rw [State.noteWritten_frame]

/-- A shadow write leaves the assigned bits of its word in the shadow (R94). -/
theorem State.find_shadowWrite (s : State) {a : Nat} {q : StWord} (v : Nat) (hq : stagedWord a = some q) :
    KMap.find (s.shadowWrite a v).stage.shadow a = some (BitVec.ofNat 32 (q.keep v)) := by
  simp only [State.shadowWrite, hq]
  rw [State.noteWritten_frame]
  exact find_shadowPut_same _ _ _ (stagedWord_mem_addrs hq)

end Sys2Proof.Machine
end

section
/-! PROOF. What host accesses to BAR0 do (R9, R11, R76, R94). -/

namespace Sys2Proof.Machine

/-! ### Words by address -/

/-- No staged register stands between the end of the command block and the runners. -/
theorem stagedWord_flask {a : Nat} (h : 0x01000000 ≤ a ∧ a < 0x03000000) : stagedWord a = none := by
  unfold stagedWord
  split
  · rfl
  · rw [if_neg (by omega), if_neg (by omega), if_neg (by omega), if_neg (by unfold R.MEM_QOS; omega), if_neg (by omega), if_neg (by omega),
      if_neg (by omega), if_neg (by omega)]

/-- A write to a staged word goes to the staging block. -/
theorem State.regWrite_staged {a : Nat} {q : StWord} (s : State) (v : Nat) (hq : stagedWord a = some q) :
    s.regWrite a v = s.stagedWrite a v := by simp [State.regWrite, hq]

/-- The words of the flasks, and the live words of the memory block, are read-only (R9). -/
theorem State.regWrite_readOnly {a : Nat} (s : State) (v : Nat)
    (h : 0x01000000 ≤ a ∧ a < 0x03000000 ∨ 0x03400000 ≤ a ∧ a < 0x03600000 ∧ stagedWord a = none) : s.regWrite a v = s := by
  have hq : stagedWord a = none := h.elim stagedWord_flask (·.2.2)
  rw [State.regWrite, if_neg (by simp [hq]), if_neg (by omega), if_neg (by omega), if_neg (by omega)]
  rcases h with ⟨-, hflask⟩ | ⟨hmem, hmem', -⟩
  · rw [if_pos hflask]
  · rw [if_neg (by omega), if_neg (by omega), if_neg (by omega), if_neg (by omega), if_pos hmem']

/-- Plain words that keep every bit written to them. -/
theorem State.regWrite_plain {a : Nat} (s : State) (v : Nat)
    (h : a = R.CMD_HOST_HB ∨ a = R.STG_CAST_LEAD ∨ a = R.DBG_LOG_IDX ∨ a = R.DBG_LOG_IDX + 4) : s.regWrite a v = s.wr a v := by
  rcases h with rfl | rfl | rfl | rfl <;> rfl

/-- `STG_QUIESCE` keeps its two fields (Table 5.5). -/
theorem State.regWrite_quiesce (s : State) (v : Nat) : s.regWrite R.STG_QUIESCE v = s.wr R.STG_QUIESCE (v &&& 0x13F) := rfl

/-- The bits of `STG_QUIESCE` (Table 5.5) end below bit 9. -/
theorem quiesceBits_lt (x : Nat) : x &&& 0x13F < 512 := Nat.lt_of_le_of_lt Nat.and_le_right (by decide)

theorem quiesceBits_block (x : Nat) : (x &&& 0x13F) % 2 ^ 6 = x % 2 ^ 6 := by
  rw [Nat.and_mod_two_pow, show (0x13F : Nat) % 2 ^ 6 = 2 ^ 6 - 1 from rfl, Nat.and_two_pow_sub_one_eq_mod, Nat.mod_mod]

theorem quiesceBits_request (x : Nat) : (x &&& 0x13F).testBit 8 = x.testBit 8 := by
  rw [Nat.testBit_land, show (0x13F : Nat).testBit 8 = true from rfl, Bool.and_true]

/-! ### Accesses by size -/

/-- The host's side of an access that completes, and of a word it writes: the word is no longer shown as latched. -/
def State.accepted (s : State) (a : Nat) : State :=
  { s with host := { s.host with lastCpl := .ok, readLatch := KMap.del s.host.readLatch a } }

/-- A word written later in the same access is no longer shown as latched either. -/
def State.unlatched (s : State) (a : Nat) : State := { s with host := { s.host with readLatch := KMap.del s.host.readLatch a } }

theorem State.hostWrite_word {a : Nat} (s : State) (v : Nat) (ha : a % 4 = 0) :
    s.hostWrite a 4 v = (s.accepted a).regWrite a (v % 2 ^ 32) := by
  rw [State.hostWrite, if_pos ⟨rfl, ha⟩]
  rfl

/-- Both words of `DBG_LOG_IDX` are plain, so a 64-bit write sets the whole register. -/
theorem State.hostWrite_logIdx {a : Nat} (s : State) (v : Nat) (h : a = R.DBG_LOG_IDX) :
    s.hostWrite a 8 v = ((s.accepted a).unlatched (a + 4)).wr64 a v := by
  subst h
  rw [State.hostWrite, if_neg (by decide), if_pos (by decide), State.bar0Write, State.bar0Write,
    State.regWrite_plain (a := R.DBG_LOG_IDX) _ _ (.inr (.inr (.inl rfl))),
    State.regWrite_plain (a := R.DBG_LOG_IDX + 4) _ _ (.inr (.inr (.inr rfl)))]
  rfl

theorem State.hostWrite_unsupported {a n : Nat} (s : State) (v : Nat) (h4 : ¬ (n = 4 ∧ a % 4 = 0)) (h8 : ¬ (n = 8 ∧ a % 8 = 0)) :
    s.hostWrite a n v = { s with host := { s.host with lastCpl := .unsupported } } := by
  simp only [State.hostWrite, if_neg h4, if_neg h8]

theorem State.hostRead_unsupported {a n : Nat} (s : State) (h4 : ¬ (n = 4 ∧ a % 4 = 0)) (h8 : ¬ (n = 8 ∧ a % 8 = 0)) :
    s.hostRead a n = { s with host := { s.host with lastCpl := .unsupported, lastData := [] } } := by
  simp only [State.hostRead, if_neg h4, if_neg h8]

/-- A word that is latched is read as latched. -/
theorem State.hostRead_latched {a : Nat} {w : W32} (s : State) (ha : a % 4 = 0) (hw : KMap.find s.host.readLatch a = some w) :
    s.hostRead a 4 = { s with host := { s.host with lastCpl := .ok, lastData := leBytes w.toNat 4 } } := by
  simp only [State.hostRead, ha, and_self, if_true, State.bar0Read, hw]

/-- A word that is not latched, and starts no wide register, is read as its register shows it. -/
theorem State.hostRead_single {a : Nat} (s : State) (ha : a % 4 = 0) (hl : KMap.find s.host.readLatch a = none) (hw : wideWords a = 1) :
    s.hostRead a 4 = { s with host := { s.host with lastCpl := .ok, lastData := leBytes (s.regView a % 2 ^ 32) 4 } } := by
  simp only [State.hostRead, ha, and_self, if_true, State.bar0Read, hl, hw, Nat.sub_self, List.range_zero, List.foldl_nil]

@[simp] theorem State.accepted_host (s : State) (a : Nat) :
    (s.accepted a).host = { s.host with lastCpl := .ok, readLatch := KMap.del s.host.readLatch a } := rfl
@[simp] theorem State.rd_accepted (s : State) (a b : Nat) : (s.accepted a).rd b = s.rd b := rfl
@[simp] theorem State.shadowOpen_accepted (s : State) (a : Nat) : (s.accepted a).shadowOpen = s.shadowOpen := rfl
@[simp] theorem State.shadowOpen_at' (s : State) (t : Nat) : (s.at' t).shadowOpen = s.shadowOpen := by
  simp [State.shadowOpen, State.attached, State.agreed]

@[simp] theorem State.rd_unlatched (s : State) (a b : Nat) : (s.unlatched a).rd b = s.rd b := rfl

theorem State.changesOnly_accepted (s : State) (a : Nat) {l : List Part} (hl : .host ∈ l) : s.changesOnly (s.accepted a) l :=
  s.changesOnly_host _ hl

theorem State.changesOnly_unlatched (s : State) (a : Nat) {l : List Part} (hl : .host ∈ l) : s.changesOnly (s.unlatched a) l :=
  s.changesOnly_host _ hl

/-! ### The command -/

section
variable {s : State} {t : Nat} {off : BitVec 26} {v : BitVec 64} (hrun : s.running = true)
include hrun

theorem exec_registerWrite_write (n : Nat) :
    exec (.registerWrite t off n (.write v)) s = doneR ((s.at' t).hostWrite off.toNat n v.toNat) := by
  change execRegisterWrite t off n (.write v) s = _
  simp [execRegisterWrite, hrun]

theorem exec_registerWrite_read (n : Nat) : exec (.registerWrite t off n .read) s = doneR ((s.at' t).hostRead off.toNat n) := by
  change execRegisterWrite t off n .read s = _
  simp [execRegisterWrite, hrun]

/-- A 32-bit write, once accepted, has the outcome its register gives it: `x`, which differs in the parts `l` alone. -/
theorem gives_wordWrite {l : List Part} {post : State → Prop} {x : State} (ha : off.toNat % 4 = 0) (hl : .host ∈ l)
    (hx : ((s.at' t).accepted off.toNat).regWrite off.toNat (v.toNat % 2 ^ 32) = x)
    (hf : ((s.at' t).accepted off.toNat).changesOnly x l) (hp : post x.noteDrive.settle) :
    s.gives (.registerWrite t off 4 (.write v)) l post := by
  refine State.gives_doneR (t := t) ?_ (State.changesOnly.trans (State.changesOnly_accepted _ off.toNat hl) hf) hp
  rw [exec_registerWrite_write hrun, State.hostWrite_word _ _ ha, hx]

/-- A 32-bit write that leaves `w` in the word written and touches no other register. -/
theorem gives_wordWrite_wr {post : State → Prop} {w : Nat} (ha : off.toNat % 4 = 0)
    (hx : ((s.at' t).accepted off.toNat).regWrite off.toNat (v.toNat % 2 ^ 32) = ((s.at' t).accepted off.toNat).wr off.toNat w)
    (hp : ∀ s' : State, s.regsBut s' [off.toNat] → s'.rd off.toNat = w % 2 ^ 32 → post s') :
    s.gives (.registerWrite t off 4 (.write v)) [.host, .regs] post := by
  refine gives_wordWrite hrun ha (by decide) hx (State.changesOnly_wr _ _ _ (by decide)) (hp _ (fun b hb => ?_) ?_)
  · simpa using State.rd_wr_other ((s.at' t).accepted off.toNat) w (by simpa using hb)
  · simp

/-- R76: an access of another size or alignment completes with Unsupported Request. -/
theorem registerWrite_unsupported {n : Nat} (h4 : ¬ (n = 4 ∧ off.toNat % 4 = 0)) (h8 : ¬ (n = 8 ∧ off.toNat % 8 = 0)) :
    s.gives (.registerWrite t off n (.write v)) [.host] fun s' => s'.host = { s.host with lastCpl := .unsupported } :=
  State.gives_doneR ((exec_registerWrite_write hrun n).trans (congrArg doneR (State.hostWrite_unsupported _ _ h4 h8)))
    (State.changesOnly_host _ _ (by decide)) (by simp)

theorem registerRead_unsupported {n : Nat} (h4 : ¬ (n = 4 ∧ off.toNat % 4 = 0)) (h8 : ¬ (n = 8 ∧ off.toNat % 8 = 0)) :
    s.gives (.registerWrite t off n .read) [.host] fun s' => s'.host = { s.host with lastCpl := .unsupported, lastData := [] } :=
  State.gives_doneR ((exec_registerWrite_read hrun n).trans (congrArg doneR (State.hostRead_unsupported _ h4 h8)))
    (State.changesOnly_host _ _ (by decide)) (by simp)

theorem registerRead_latched {w : W32} (ha : off.toNat % 4 = 0) (hw : KMap.find s.host.readLatch off.toNat = some w) :
    s.gives (.registerWrite t off 4 .read) [.host] fun s' => s'.host = { s.host with lastCpl := .ok, lastData := leBytes w.toNat 4 } :=
  State.gives_doneR ((exec_registerWrite_read hrun 4).trans (congrArg doneR (State.hostRead_latched _ ha (by simpa using hw))))
    (State.changesOnly_host _ _ (by decide)) (by simp)

theorem registerRead_single (ha : off.toNat % 4 = 0) (hl : KMap.find s.host.readLatch off.toNat = none)
    (hw : wideWords off.toNat = 1) : s.gives (.registerWrite t off 4 .read) [.host] fun s' =>
      s'.host = { s.host with lastCpl := .ok, lastData := leBytes ((s.at' t).regView off.toNat % 2 ^ 32) 4 } :=
  State.gives_doneR ((exec_registerWrite_read hrun 4).trans (congrArg doneR (State.hostRead_single _ ha (by simpa using hl) hw)))
    (State.changesOnly_host _ _ (by decide)) (by simp)

/-- R9: a write to a read-only word changes only what the host sees of the access. -/
theorem registerWrite_readOnly (ha : off.toNat % 4 = 0)
    (h : 0x01000000 ≤ off.toNat ∧ off.toNat < 0x03000000 ∨
      0x03400000 ≤ off.toNat ∧ off.toNat < 0x03600000 ∧ stagedWord off.toNat = none) :
    s.gives (.registerWrite t off 4 (.write v)) [.host] fun s' =>
      s'.host = { s.host with lastCpl := .ok, readLatch := KMap.del s.host.readLatch off.toNat } :=
  gives_wordWrite hrun ha (by decide) (State.regWrite_readOnly _ _ h) (State.changesOnly_refl _ _) (by simp)

/-- R94: while the shadow is open a staged word is written there. -/
theorem registerWrite_shadow {q : StWord} (ha : off.toNat % 4 = 0) (hq : stagedWord off.toNat = some q) (ho : s.shadowOpen = true) :
    s.gives (.registerWrite t off 4 (.write v)) [.host, .stage] fun s' =>
      KMap.find s'.stage.shadow off.toNat = some (BitVec.ofNat 32 (q.keep (v.toNat % 2 ^ 32))) := by
  have hx := (State.regWrite_staged ((s.at' t).accepted off.toNat) (v.toNat % 2 ^ 32) hq).trans
    (State.stagedWrite_open _ hq (by simpa using ho))
  refine gives_wordWrite hrun ha (by decide) hx ?_ (State.find_shadowWrite _ _ hq)
  rw [State.shadowWrite_frame]
  exact State.changesOnly_stage _ _ (by decide)

/-- R94: while the shadow is shut a write to a staged word is ignored and counted. -/
theorem registerWrite_ignored {q : StWord} (ha : off.toNat % 4 = 0) (hq : stagedWord off.toNat = some q) (ho : s.shadowOpen = false) :
    s.gives (.registerWrite t off 4 (.write v)) [.host, .regs] fun s' =>
      s.regsBut s' [R.STG_IGNORED] ∧ s'.rd R.STG_IGNORED = (s.rd R.STG_IGNORED + 1) % 2 ^ 32 := by
  have hx := (State.regWrite_staged ((s.at' t).accepted off.toNat) (v.toNat % 2 ^ 32) hq).trans
    (State.stagedWrite_shut _ hq (by simpa using ho))
  refine gives_wordWrite hrun ha (by decide) hx (State.changesOnly_wr _ _ _ (by decide)) ⟨fun b hb => ?_, ?_⟩
  · simpa [State.inc] using State.rd_wr_other ((s.at' t).accepted off.toNat) _ (by simpa using hb)
  · simp [State.inc]

/-- R9: a plain word reads back what was written. -/
theorem registerWrite_plain (h : off.toNat = R.CMD_HOST_HB ∨ off.toNat = R.STG_CAST_LEAD ∨ off.toNat = R.DBG_LOG_IDX) :
    s.gives (.registerWrite t off 4 (.write v)) [.host, .regs] fun s' =>
      s.regsBut s' [off.toNat] ∧ s'.rd off.toNat = v.toNat % 2 ^ 32 := by
  have ha : off.toNat % 4 = 0 := by rcases h with h | h | h <;> rw [h] <;> rfl
  refine gives_wordWrite_wr hrun ha (State.regWrite_plain _ _ (by tauto)) fun s' hb hr => ⟨hb, ?_⟩
  rw [hr, Nat.mod_mod]

/-- R11, R109: `STG_QUIESCE` keeps its block number and its request bit, and its reserved bits read 0. -/
theorem registerWrite_quiesce (h : off.toNat = R.STG_QUIESCE) :
    s.gives (.registerWrite t off 4 (.write v)) [.host, .regs] fun s' =>
      s.regsBut s' [off.toNat] ∧ s'.fld off.toNat 0 6 = v.toNat % 64 ∧ s'.bit off.toNat 8 = v.getLsbD 8 ∧ s'.rd off.toNat < 512 := by
  have hx : ((s.at' t).accepted off.toNat).regWrite off.toNat (v.toNat % 2 ^ 32) =
      ((s.at' t).accepted off.toNat).wr off.toNat (v.toNat % 2 ^ 32 &&& 0x13F) := by
    rw [h]; exact State.regWrite_quiesce _ _
  refine gives_wordWrite_wr hrun (by rw [h]; rfl) hx fun s' hb hw => ?_
  have hr : s'.rd off.toNat = v.toNat % 2 ^ 32 &&& 0x13F := hw.trans (Nat.mod_eq_of_lt ((quiesceBits_lt _).trans (by decide)))
  refine ⟨hb, ?_, ?_, hr ▸ quiesceBits_lt _⟩
  · rw [State.fld, hr, Nat.pow_zero, Nat.div_one, quiesceBits_block]
    omega
  · rw [State.bit, State.fld, hr, Nat.pow_one, ← Nat.testBit_eq_decide_div_mod_eq, quiesceBits_request, Nat.testBit_mod_two_pow]
    simp [BitVec.getLsbD]

/-- R76: a 64-bit write writes both words of `DBG_LOG_IDX`. -/
theorem registerWrite_logIdx64 (h : off.toNat = R.DBG_LOG_IDX) :
    s.gives (.registerWrite t off 8 (.write v)) [.host, .regs] fun s' =>
      s.regsBut s' [off.toNat, off.toNat + 4] ∧ s'.rd64 off.toNat = v.toNat := by
  have hx := (exec_registerWrite_write hrun 8).trans (congrArg doneR (State.hostWrite_logIdx (s.at' t) v.toNat h))
  have hf : (s.at' t).changesOnly ((((s.at' t).accepted off.toNat).unlatched (off.toNat + 4)).wr64 off.toNat v.toNat) [.host, .regs] :=
    (State.changesOnly_accepted _ _ (by decide)).trans
      ((State.changesOnly_unlatched _ _ (by decide)).trans (State.changesOnly_wr64 _ _ _ (by decide)))
  refine State.gives_doneR hx hf ⟨fun b hb => ?_, ?_⟩
  · simpa using State.rd_wr64_other (((s.at' t).accepted off.toNat).unlatched (off.toNat + 4)) v.toNat (by simpa using hb)
  · exact (State.rd64_wr64_same _ _ _).trans (Nat.mod_eq_of_lt v.isLt)

end

/-- Settles O40, clause by clause: each access is reduced to what its register does with it, and every part it does not name is kept. -/
theorem registerWrites : Obligations.RegisterWrites := by
  unfold Obligations.RegisterWrites
  intro s t off v hrun
  exact ⟨fun _ => registerWrite_unsupported hrun, registerWrite_logIdx64 hrun, registerWrite_readOnly hrun,
    fun _ => registerWrite_shadow hrun, fun _ => registerWrite_ignored hrun, registerWrite_plain hrun, registerWrite_quiesce hrun,
    fun _ => registerRead_unsupported hrun, fun _ => registerRead_latched hrun, registerRead_single hrun⟩

end Sys2Proof.Machine
end

section
/-! PROOF. Every command ends (R25, R28): no command answers anything but a settled next state, so that pins and alert follow every step. -/

namespace Sys2Proof.Machine

/-- The outcome is the end of a command: a next state whose pins follow. -/
def Ends (o : Host.Outcome State Fault Refusal) : Prop := ∃ x : State, o = done x

theorem ends_done (x : State) : Ends (done x) := ⟨x, rfl⟩

theorem ends_ite {c : Prop} [Decidable c] {a b : Host.Outcome State Fault Refusal} (ha : Ends a) (hb : Ends b) :
    Ends (if c then a else b) := by
  split <;> assumption

/-- Every fettler instruction ends, with or without a task to run it. -/
theorem fetRun_ends (t i word : Nat) (legal : Bool) (body : State → Fet → FRes) (s : State) : Ends (fetRun t i word legal body s) := by
  unfold fetRun
  dsimp only
  split
  · exact ends_done _
  · exact ends_ite (ends_done _) (ends_done _)

theorem runType_ends (t : Nat) (c : Fin 64) (ty : Nat) (sel : List Nat → Bool) (run : State → CDesc → State) (s : State) :
    Ends (runType t c ty sel run s) := by
  unfold runType
  dsimp only
  split
  · exact ends_done _
  · exact ends_ite (ends_done _) (ends_done _)

theorem runOrder_ends (t : Nat) (q : Fin 16) (seq : BitVec 16) (op : Nat) (body : State → Order → State) (s : State) :
    Ends (runOrder t q seq op body s) := by
  unfold runOrder
  dsimp only
  split
  · exact ends_done _
  · exact ends_ite (ends_done _) (ends_done _)

theorem execPocxpRetryTimeout_ends (t p s) : Ends (execPocxpRetryTimeout t p s) := by
  unfold execPocxpRetryTimeout; dsimp only
  repeat' (first | exact ends_done _ | split)

theorem execRestore_ends (t s) : Ends (execRestore t s) := by
  unfold execRestore; dsimp only
  repeat' (first | exact ends_done _ | split)

theorem execProgLoad_ends (t q seq p s) : Ends (execProgLoad t q seq p s) := by
  unfold execProgLoad
  dsimp only
  split
  · exact ends_done _
  · exact ends_ite (ends_done _) (runOrder_ends _ _ _ _ _ _)

theorem execBar2Read_ends (t off r s) : Ends (execBar2Read t off r s) := by
  unfold execBar2Read; dsimp only
  repeat' (first | exact ends_done _ | split)

theorem execBar2Write_ends (t off d s) : Ends (execBar2Write t off d s) := by
  unfold execBar2Write; dsimp only
  repeat' (first | exact ends_done _ | split)

theorem execPoisonedTlpReceived_ends (t ladle s) : Ends (execPoisonedTlpReceived t ladle s) := by
  unfold execPoisonedTlpReceived; dsimp only
  repeat' (first | exact ends_done _ | split)

theorem execRegisterWrite_ends (t off size data s) : Ends (execRegisterWrite t off size data s) := by
  unfold execRegisterWrite; dsimp only
  repeat' (first | exact ends_done _ | split)

theorem execMsixCoalesceTimeout_ends (t ring s) : Ends (execMsixCoalesceTimeout t ring s) := by
  unfold execMsixCoalesceTimeout; dsimp only
  repeat' (first | exact ends_done _ | split)

theorem execStageCheckComplete_ends (t s) : Ends (execStageCheckComplete t s) := by
  unfold execStageCheckComplete; dsimp only
  repeat' (first | exact ends_done _ | split)

theorem execCastTimeReached_ends (t s) : Ends (execCastTimeReached t s) := by
  unfold execCastTimeReached; dsimp only
  repeat' (first | exact ends_done _ | split)

theorem execCastCountCrossing_ends (t s) : Ends (execCastCountCrossing t s) := by
  unfold execCastCountCrossing; dsimp only
  repeat' (first | exact ends_done _ | split)

theorem execRonyrApplyReport_ends (t s) : Ends (execRonyrApplyReport t s) := by
  unfold execRonyrApplyReport; dsimp only
  repeat' (first | exact ends_done _ | split)

theorem execRetainedRecordComplete_ends (t s) : Ends (execRetainedRecordComplete t s) := by
  unfold execRetainedRecordComplete; dsimp only
  repeat' (first | exact ends_done _ | split)

theorem execCameraDiscoveryDone_ends (t c d s) : Ends (execCameraDiscoveryDone t c d s) := by
  unfold execCameraDiscoveryDone; dsimp only
  repeat' (first | exact ends_done _ | split)

theorem execCameraLineReceived_ends (t str px ok s) : Ends (execCameraLineReceived t str px ok s) := by
  unfold execCameraLineReceived; dsimp only
  repeat' (first | exact ends_done _ | split)

theorem execCameraRediscoveryTimer_ends (t c s) : Ends (execCameraRediscoveryTimer t c s) := by
  unfold execCameraRediscoveryTimer; dsimp only
  repeat' (first | exact ends_done _ | split)

theorem execCxpCtlAckTimeout_ends (t s) : Ends (execCxpCtlAckTimeout t s) := by
  unfold execCxpCtlAckTimeout; dsimp only
  repeat' (first | exact ends_done _ | split)

theorem execTriggerEdgeReport_ends (t c s) : Ends (execTriggerEdgeReport t c s) := by
  unfold execTriggerEdgeReport; dsimp only
  repeat' (first | exact ends_done _ | split)

theorem execEyeScanPointDone_ends (t e errs disturbed s) : Ends (execEyeScanPointDone t e errs disturbed s) := by
  unfold execEyeScanPointDone; dsimp only
  repeat' (first | exact ends_done _ | split)

theorem execBlockHeaderReceived_ends (t r k h s) : Ends (execBlockHeaderReceived t r k h s) := by
  unfold execBlockHeaderReceived; dsimp only
  repeat' (first | exact ends_done _ | split)

theorem execRunnerLine_ends (t r k bad s) : Ends (execRunnerLine t r k bad s) := by
  unfold execRunnerLine; dsimp only
  repeat' (first | exact ends_done _ | split)

theorem execTileDecode_ends (t r k bad s) : Ends (execTileDecode t r k bad s) := by
  unfold execTileDecode; dsimp only
  repeat' (first | exact ends_done _ | split)

theorem execGateRowDeliver_ends (t r k s) : Ends (execGateRowDeliver t r k s) := by
  unfold execGateRowDeliver; dsimp only
  repeat' (first | exact ends_done _ | split)

theorem execLedgerOpenRequest_ends (t idx s) : Ends (execLedgerOpenRequest t idx s) := by
  unfold execLedgerOpenRequest; dsimp only
  repeat' (first | exact ends_done _ | split)

theorem execTrailingEdge_ends (t s) : Ends (execTrailingEdge t s) := by
  unfold execTrailingEdge; dsimp only
  repeat' (first | exact ends_done _ | split)

theorem execDeadlineReached_ends (t idx s) : Ends (execDeadlineReached t idx s) := by
  unfold execDeadlineReached; dsimp only
  repeat' (first | exact ends_done _ | split)

theorem execPieceStateReport_ends (t s) : Ends (execPieceStateReport t s) := by
  unfold execPieceStateReport; dsimp only
  repeat' (first | exact ends_done _ | split)

theorem execHeadOutputsHandoff_ends (t idx vals s) : Ends (execHeadOutputsHandoff t idx vals s) := by
  unfold execHeadOutputsHandoff; dsimp only
  repeat' (first | exact ends_done _ | split)

theorem execTapOrderAnswer_ends (t s) : Ends (execTapOrderAnswer t s) := by
  unfold execTapOrderAnswer; dsimp only
  repeat' (first | exact ends_done _ | split)

theorem execFireReportReceived_ends (t s) : Ends (execFireReportReceived t s) := by
  unfold execFireReportReceived; dsimp only
  repeat' (first | exact ends_done _ | split)

theorem execSafeAckTimeout_ends (t s) : Ends (execSafeAckTimeout t s) := by
  unfold execSafeAckTimeout; dsimp only
  repeat' (first | exact ends_done _ | split)

theorem execTapOrderReceive_ends (t s) : Ends (execTapOrderReceive t s) := by
  unfold execTapOrderReceive; dsimp only
  repeat' (first | exact ends_done _ | split)

theorem execFireEnd_ends (t seen openWire s) : Ends (execFireEnd t seen openWire s) := by
  unfold execFireEnd; dsimp only
  repeat' (first | exact ends_done _ | split)

theorem execEncoderStep_ends (t ch k s) : Ends (execEncoderStep t ch k s) := by
  unfold execEncoderStep; dsimp only
  repeat' (first | exact ends_done _ | split)

theorem execInputSample_ends (t pins s) : Ends (execInputSample t pins s) := by
  unfold execInputSample; dsimp only
  repeat' (first | exact ends_done _ | split)

theorem execNlxFrameReceive_ends (t p f s) : Ends (execNlxFrameReceive t p f s) := by
  unfold execNlxFrameReceive; dsimp only
  repeat' (first | exact ends_done _ | split)

theorem execShareMessage_ends (t src cls seg lead kind s) : Ends (execShareMessage t src cls seg lead kind s) := by
  unfold execShareMessage; dsimp only
  repeat' (first | exact ends_done _ | split)

theorem execNlxDestUnreachable_ends (t d s) : Ends (execNlxDestUnreachable t d s) := by
  unfold execNlxDestUnreachable; dsimp only
  repeat' (first | exact ends_done _ | split)

theorem execPmcRestartComplete_ends (t s) : Ends (execPmcRestartComplete t s) := by
  unfold execPmcRestartComplete; dsimp only
  repeat' (first | exact ends_done _ | split)

theorem execMsmbWake_ends (t m s) : Ends (execMsmbWake t m s) := by
  unfold execMsmbWake; dsimp only
  repeat' (first | exact ends_done _ | split)

theorem execSafeAutoAck_ends (t s) : Ends (execSafeAutoAck t s) := by
  unfold execSafeAutoAck; dsimp only
  repeat' (first | exact ends_done _ | split)

theorem execStepBegin_ends (t x ready s) : Ends (execStepBegin t x ready s) := by
  unfold execStepBegin; dsimp only
  repeat' (first | exact ends_done _ | split)

theorem execTwinCompare_ends (t x s) : Ends (execTwinCompare t x s) := by
  unfold execTwinCompare; dsimp only
  repeat' (first | exact ends_done _ | split)

theorem execTaskDispatch_ends (t n f x s) : Ends (execTaskDispatch t n f x s) := by
  unfold execTaskDispatch; dsimp only
  repeat' (first | exact ends_done _ | split)

theorem execTaskSteal_ends (t n f x s) : Ends (execTaskSteal t n f x s) := by
  unfold execTaskSteal; dsimp only
  repeat' (first | exact ends_done _ | split)

theorem execSliceEnd_ends (t x s) : Ends (execSliceEnd t x s) := by
  unfold execSliceEnd; dsimp only
  repeat' (first | exact ends_done _ | split)

theorem execLineDemandClaim_ends (t x n y s) : Ends (execLineDemandClaim t x n y s) := by
  unfold execLineDemandClaim; dsimp only
  repeat' (first | exact ends_done _ | split)

theorem execLineFlaskReturn_ends (t n s) : Ends (execLineFlaskReturn t n s) := by
  unfold execLineFlaskReturn; dsimp only
  repeat' (first | exact ends_done _ | split)

theorem execChillComplete_ends (t x n s) : Ends (execChillComplete t x n s) := by
  unfold execChillComplete; dsimp only
  repeat' (first | exact ends_done _ | split)

theorem execRemeltComplete_ends (t x n bad s) : Ends (execRemeltComplete t x n bad s) := by
  unfold execRemeltComplete; dsimp only
  repeat' (first | exact ends_done _ | split)

theorem execPermitGrant_ends (t s) : Ends (execPermitGrant t s) := by
  unfold execPermitGrant; dsimp only
  repeat' (first | exact ends_done _ | split)

theorem execDescriptorLoad_ends (t c bad s) : Ends (execDescriptorLoad t c bad s) := by
  unfold execDescriptorLoad; dsimp only
  repeat' (first | exact ends_done _ | split)

theorem execCrucibleComplete_ends (t c cycles s) : Ends (execCrucibleComplete t c cycles s) := by
  unfold execCrucibleComplete; dsimp only
  repeat' (first | exact ends_done _ | split)

theorem execLadleDescriptorStart_ends (t n l k bad s) : Ends (execLadleDescriptorStart t n l k bad s) := by
  unfold execLadleDescriptorStart; dsimp only
  repeat' (first | exact ends_done _ | split)

theorem execLadleComplete_ends (t n l bad s) : Ends (execLadleComplete t n l bad s) := by
  unfold execLadleComplete; dsimp only
  repeat' (first | exact ends_done _ | split)

theorem execXlateFaultResolved_ends (t g m s) : Ends (execXlateFaultResolved t g m s) := by
  unfold execXlateFaultResolved; dsimp only
  repeat' (first | exact ends_done _ | split)

theorem execBarrierRelease_ends (t b s) : Ends (execBarrierRelease t b s) := by
  unfold execBarrierRelease; dsimp only
  repeat' (first | exact ends_done _ | split)

theorem execFettlerWaitResume_ends (t n s) : Ends (execFettlerWaitResume t n s) := by
  unfold execFettlerWaitResume; dsimp only
  repeat' (first | exact ends_done _ | split)

theorem execWidePrefix_ends (t n hi next s) : Ends (execWidePrefix t n hi next s) := by
  unfold execWidePrefix; dsimp only
  repeat' (first | exact ends_done _ | split)

theorem execTrap_ends (t n w s) : Ends (execTrap t n w s) := by
  unfold execTrap
  split
  · exact fetRun_ends _ _ _ _ _ _
  · exact ends_ite (ends_done _) (fetRun_ends _ _ _ _ _ _)

theorem execCxpCtlAck_ends (t code a s) : Ends (execCxpCtlAck t code a s) := by
  unfold execCxpCtlAck; dsimp only
  repeat' (first | exact ends_done _ | split)

theorem execEmulatedEdgeOut_ends (t e s) : Ends (execEmulatedEdgeOut t e s) := by
  unfold execEmulatedEdgeOut; dsimp only
  repeat' (first | exact ends_done _ | split)

theorem execEncoderSpeedTimeout_ends (t ch s) : Ends (execEncoderSpeedTimeout t ch s) := by
  unfold execEncoderSpeedTimeout; dsimp only
  repeat' (first | exact ends_done _ | split)

theorem execPtpAnnounceReceived_ends (t m s) : Ends (execPtpAnnounceReceived t m s) := by
  unfold execPtpAnnounceReceived; dsimp only
  repeat' (first | exact ends_done _ | split)

/-- No command answers anything but the end of a command. -/
theorem exec_ends (c : Instr) (s : State) : Ends (exec c s) := by
  unfold exec
  cases c with
  | segPostWrite | add | sub | and | or | xor | sll | srl | sra | slt | sltu | mul | mulh | mulhu | div | divu | rem | remu | min | max |
    minu | maxu | addw | subw | clz | ctz | popc | slli | srli | srai | addi | lb | lh | lw | ld | lbu | lhu | lwu | sb | sh | sw | sd |
    beq | bne | blt | bge | bltu | bgeu | bany | bnone | jal | vadd | vsub | vmul | vfma | vmin | vmax | vand | vor | vxor | vsll |
    vsrl | vsra | vabs | vneg | vceq | vclt | vcle | vsel | vbcst | vextx | vld | vst | rsum | rmin | rmax | rsumw | vcvt | pand | por |
    pxor | pandn | pnot | pfromx | ptox | planes | pcount | evinc | evwait | bar | gcadd | cast | cpoll | cwait | ldq | ldw | csrd |
    cswr | yield | chkpt | eret | fence | tend | vexp | vrcp | vrsq | vlog => exact fetRun_ends _ _ _ _ _ _
  | mma | conv | dwconv | poolSum | poolMax | poolMin | ewiseMul | ewiseAdd | ewiseQadd | accmove | attnQk | attnPv | layout => exact runType_ends _ _ _ _ _ _
  | nop | queueBind | ringSetup | hostTier | bar2Map | ctxCreate | ctxDestroy | ctxList | factoryNext | deviceReset | pourStart |
    pourCancel | ctxChill | ctxRemelt => exact runOrder_ends _ _ _ _ _ _
  | powerUp | railOutOfRegulation | pwrFailWarning | vinBrownoutReset | powerFailRestart | modResetAssert | modResetRelease | perst |
    refclkLoss | clockLoss | serrefRelock | thermalThrottleStep | thermalSafe | telemetrySample | pocxpChainRun | pocxpFaultClear |
    romStart | imageVerifyDone | recoveryImageWrite | bistCondRecheck | bistComplete | schTick | hivRequest | hostHeartbeatWrite |
    hostLoss | hostRingHeadWrite | stagedWrite | stageCheck | stageArm | stageCancel | stageDiscard | quiesceRequest | debugWrite |
    cameraLinkLost | cxpCtlRead | cxpCtlWrite | nlxTrainingDone | nlxLaneRetrain | nlxCheckBlockReceived | nlxIdleEnter | nlxIdleExit |
    eyeScanStart | eyeScanAbort | prbsClear | blockTimeout | feedTailWrite | roiCommit | deadlineSweepStall | journalPageWrite |
    journalBlockSeal | journalBlockSign | journalRead | haltRequest | haltConditionClear | haltAutoClear | barrierFrameFromRonyr |
    barrierFrameToRonyr | ronyrHeartbeatLoss | cuetteHeartbeatLoss | safeMessage | resumeMessage | resumeHeldTimeout | ronyrClockFault |
    ronyrWatchdogExpire | visoReturn | fireTrigger | encoderSerialRead | indexEdge | alignPair | outputOverload | outputThermal |
    outputAutoRestart | outputDiagClear | fieldSupplyLow | fieldSupplyRestore | outputReadback | outputOpenOff | ronyrRead | ronyrWrite |
    ptpSyncSample | ptpMasterLost | stepOk | ppsPulse | chainTimeExchange | nlxPortLinkup | peerAuthComplete | nlxRetryTimeout | certs |
    quote | bundleLoad | bundleDelete | bundleList | challenge | token | debugLock | ownerSet | ownerClear | scWatchdogReset |
    scRestartComplete | fcWatchdogReset | fcRestartComplete | schWatchdogReset | schRestartComplete | pmcWatchdogReset | pwrReqS0 |
    pwrReqS1 | pwrReqS2 | pwrReqS3 | s1IdleEntry | s1Wake | s2Wake | msmbStatus | msmbVin | msmbInputCurrent | msmbInputPower |
    msmbJunction | msmbBoardTemp | msmbRonyrJunction | msmbLplus | msmbCrucibleStep | msmbSafeCauses | safeAck | safeForce |
    permitWindow | sbarArm | sbarDisarm | sbarFire | scrubLine | traceClear | logIndexWrite | pcieLinkUp | pcieLinkDown |
    cameraEventPacket | prbsLock | prbsRelock | ledgerEntryUncorrectable | encoderSignalInvalid | selfTestConditionFail |
    driverJunctionCooled => apply_rules [ends_done, ends_ite]
  | pocxpRetryTimeout => exact execPocxpRetryTimeout_ends ..
  | restore => exact execRestore_ends ..
  | progLoad => exact execProgLoad_ends ..
  | bar2Read => exact execBar2Read_ends ..
  | bar2Write => exact execBar2Write_ends ..
  | poisonedTlpReceived => exact execPoisonedTlpReceived_ends ..
  | registerWrite => exact execRegisterWrite_ends ..
  | msixCoalesceTimeout => exact execMsixCoalesceTimeout_ends ..
  | stageCheckComplete => exact execStageCheckComplete_ends ..
  | castTimeReached => exact execCastTimeReached_ends ..
  | castCountCrossing => exact execCastCountCrossing_ends ..
  | ronyrApplyReport => exact execRonyrApplyReport_ends ..
  | retainedRecordComplete => exact execRetainedRecordComplete_ends ..
  | cameraDiscoveryDone => exact execCameraDiscoveryDone_ends ..
  | cameraLineReceived => exact execCameraLineReceived_ends ..
  | cameraRediscoveryTimer => exact execCameraRediscoveryTimer_ends ..
  | cxpCtlAckTimeout => exact execCxpCtlAckTimeout_ends ..
  | triggerEdgeReport => exact execTriggerEdgeReport_ends ..
  | eyeScanPointDone => exact execEyeScanPointDone_ends ..
  | blockHeaderReceived => exact execBlockHeaderReceived_ends ..
  | runnerLine => exact execRunnerLine_ends ..
  | tileDecode => exact execTileDecode_ends ..
  | gateRowDeliver => exact execGateRowDeliver_ends ..
  | ledgerOpenRequest => exact execLedgerOpenRequest_ends ..
  | trailingEdge => exact execTrailingEdge_ends ..
  | deadlineReached => exact execDeadlineReached_ends ..
  | pieceStateReport => exact execPieceStateReport_ends ..
  | headOutputsHandoff => exact execHeadOutputsHandoff_ends ..
  | tapOrderAnswer => exact execTapOrderAnswer_ends ..
  | fireReportReceived => exact execFireReportReceived_ends ..
  | safeAckTimeout => exact execSafeAckTimeout_ends ..
  | tapOrderReceive => exact execTapOrderReceive_ends ..
  | fireEnd => exact execFireEnd_ends ..
  | encoderStep => exact execEncoderStep_ends ..
  | inputSample => exact execInputSample_ends ..
  | nlxFrameReceive => exact execNlxFrameReceive_ends ..
  | shareMessage => exact execShareMessage_ends ..
  | nlxDestUnreachable => exact execNlxDestUnreachable_ends ..
  | pmcRestartComplete => exact execPmcRestartComplete_ends ..
  | msmbWake => exact execMsmbWake_ends ..
  | safeAutoAck => exact execSafeAutoAck_ends ..
  | stepBegin => exact execStepBegin_ends ..
  | twinCompare => exact execTwinCompare_ends ..
  | taskDispatch => exact execTaskDispatch_ends ..
  | taskSteal => exact execTaskSteal_ends ..
  | sliceEnd => exact execSliceEnd_ends ..
  | lineDemandClaim => exact execLineDemandClaim_ends ..
  | lineFlaskReturn => exact execLineFlaskReturn_ends ..
  | chillComplete => exact execChillComplete_ends ..
  | remeltComplete => exact execRemeltComplete_ends ..
  | permitGrant => exact execPermitGrant_ends ..
  | descriptorLoad => exact execDescriptorLoad_ends ..
  | crucibleComplete => exact execCrucibleComplete_ends ..
  | ladleDescriptorStart => exact execLadleDescriptorStart_ends ..
  | ladleComplete => exact execLadleComplete_ends ..
  | xlateFaultResolved => exact execXlateFaultResolved_ends ..
  | barrierRelease => exact execBarrierRelease_ends ..
  | fettlerWaitResume => exact execFettlerWaitResume_ends ..
  | widePrefix => exact execWidePrefix_ends ..
  | trap => exact execTrap_ends ..
  | cxpCtlAck => exact execCxpCtlAck_ends ..
  | emulatedEdgeOut => exact execEmulatedEdgeOut_ends ..
  | encoderSpeedTimeout => exact execEncoderSpeedTimeout_ends ..
  | ptpAnnounceReceived => exact execPtpAnnounceReceived_ends ..

/-! ### Every step -/

theorem State.pinsFollow_settle (x : State) : x.settle.pinsFollow = true := by
  simp [State.pinsFollow, State.settle_pins]

theorem State.alertShown_settle (x : State) : x.settle.alertShown = true := by
  have hp : x.settle.pins.msmbAlertLow = (x.pwr.alert || x.alertCause) := rfl
  have ha : x.settle.pwr.alert = (x.pwr.alert || x.alertCause) := rfl
  have hc : x.settle.alertCause = x.alertCause := rfl
  rw [State.alertShown, hp, ha, hc]
  cases x.pwr.alert <;> cases x.alertCause <;> rfl

/-- A step idles, or ends a command. -/
theorem step_cases {s s' : State} (h : step s = .next s') : s' = s ∨ ∃ x : State, s' = x.settle := by
  unfold step at h
  split at h
  · exact .inl (Host.Outcome.next.inj h).symm
  · rename_i c rest _
    obtain ⟨x, hx⟩ := exec_ends c { s with pending := rest }
    exact .inr ⟨x, (Host.Outcome.next.inj ((hx.symm.trans h))).symm⟩

/-- Settles O4: on an empty queue nothing changes, and every command ends by settling the pins. -/
theorem pinsFollowStep : Obligations.PinsFollowStep := by
  unfold Obligations.PinsFollowStep
  intro s s' hpins halert hstep
  rcases step_cases hstep with rfl | ⟨x, rfl⟩
  · exact ⟨hpins, halert⟩
  · exact ⟨x.pinsFollow_settle, x.alertShown_settle⟩

/-- Settles O6: the reset state, evaluated part by part. -/
theorem resetInvariants : Obligations.ResetInvariants := by
  unfold Obligations.ResetInvariants
  and_intros <;> decide


end Sys2Proof.Machine
end

section
/-! PROOF. Frames by part: which parts an update within a command leaves exactly as they were, said once for each shared operation. -/

namespace Sys2Proof.Machine

/-- A part is exactly the same in two states, what `settle` and time move in it included. -/
def Part.exact : Part → State → State → Prop
  | .free, y, x => x.free = y.free
  | .regs, y, x => x.regs = y.regs
  | .rny, y, x => x.rny = y.rny
  | .mod, y, x => x.mod = y.mod
  | .pocxp, y, x => x.pocxp = y.pocxp
  | .boot, y, x => x.boot = y.boot
  | .host, y, x => x.host = y.host
  | .stage, y, x => x.stage = y.stage
  | .line, y, x => x.line = y.line
  | .jrn, y, x => x.jrn = y.jrn
  | .ron, y, x => x.ron = y.ron
  | .tim, y, x => x.tim = y.tim
  | .chain, y, x => x.chain = y.chain
  | .sec, y, x => x.sec = y.sec
  | .pwr, y, x => x.pwr = y.pwr
  | .dbg, y, x => x.dbg = y.dbg
  | .hostMem, y, x => x.hostMem = y.hostMem
  | .fab, y, x => x.fab = y.fab
  | .meter, y, x => x.meter = y.meter
  | .permits, y, x => x.permits = y.permits
  | .sch, y, x => x.sch = y.sch
  | .intk, y, x => x.intk = y.intk
  | .pending, y, x => x.pending = y.pending

/-- No time passes from `y` to `x`, and every part but those listed is exactly the same. -/
def State.sameBut (y x : State) (l : List Part) : Prop := x.now = y.now ∧ ∀ p : Part, p ∉ l → p.exact y x

/-- `y` with the listed parts of `x`. -/
def State.mix (y x : State) (l : List Part) : State :=
  { now := y.now, pins := x.pins
    free := if Part.free ∈ l then x.free else y.free
    regs := if Part.regs ∈ l then x.regs else y.regs
    rny := if Part.rny ∈ l then x.rny else y.rny
    mod := if Part.mod ∈ l then x.mod else y.mod
    pocxp := if Part.pocxp ∈ l then x.pocxp else y.pocxp
    boot := if Part.boot ∈ l then x.boot else y.boot
    host := if Part.host ∈ l then x.host else y.host
    stage := if Part.stage ∈ l then x.stage else y.stage
    line := if Part.line ∈ l then x.line else y.line
    jrn := if Part.jrn ∈ l then x.jrn else y.jrn
    ron := if Part.ron ∈ l then x.ron else y.ron
    tim := if Part.tim ∈ l then x.tim else y.tim
    chain := if Part.chain ∈ l then x.chain else y.chain
    sec := if Part.sec ∈ l then x.sec else y.sec
    pwr := if Part.pwr ∈ l then x.pwr else y.pwr
    dbg := if Part.dbg ∈ l then x.dbg else y.dbg
    hostMem := if Part.hostMem ∈ l then x.hostMem else y.hostMem
    fab := if Part.fab ∈ l then x.fab else y.fab
    meter := if Part.meter ∈ l then x.meter else y.meter
    permits := if Part.permits ∈ l then x.permits else y.permits
    sch := if Part.sch ∈ l then x.sch else y.sch
    intk := if Part.intk ∈ l then x.intk else y.intk
    pending := if Part.pending ∈ l then x.pending else y.pending }

variable {x y z : State} {l l' : List Part}

theorem Part.exact_refl (p : Part) (y : State) : p.exact y y := by cases p <;> rfl

theorem Part.exact.symm {p : Part} (h : p.exact y x) : p.exact x y := by cases p <;> exact Eq.symm h

theorem Part.exact.trans {p : Part} (hxy : p.exact x y) (hyz : p.exact y z) : p.exact x z := by
  cases p <;> exact Eq.trans hyz hxy

/-- An exact part is the same part, as the claims say it, where no time has passed. -/
theorem Part.exact.same {p : Part} (h : p.exact y x) (hn : x.now = y.now) : p.same y x := by
  cases p with
  | ron => exact ⟨by rw [show x.ron = y.ron from h], fun _ _ => by rw [show x.ron = y.ron from h]⟩
  | tim => exact Eq.trans h (by rw [hn, State.at'_self])
  | pwr => exact Eq.trans h (by rw [show x.pwr = y.pwr from h])
  | _ => exact h

@[simp] theorem State.sameBut_refl (y : State) (l : List Part) : y.sameBut y l := ⟨rfl, fun p _ => p.exact_refl y⟩

theorem State.sameBut.symm (h : y.sameBut x l) : x.sameBut y l := ⟨h.1.symm, fun p hp => (h.2 p hp).symm⟩

theorem State.sameBut.trans (hxy : x.sameBut y l) (hyz : y.sameBut z l) : x.sameBut z l :=
  ⟨hyz.1.trans hxy.1, fun p hp => (hxy.2 p hp).trans (hyz.2 p hp)⟩

theorem State.sameBut.mono (h : y.sameBut x l) (hl : ∀ p ∈ l, p ∈ l') : y.sameBut x l' :=
  ⟨h.1, fun p hp => h.2 p fun hm => hp (hl p hm)⟩

/-- A frame is a condition on the parts: mixing in the listed parts of a state changes no other part. -/
theorem State.sameBut_mix (y x : State) (l : List Part) : y.sameBut (y.mix x l) l :=
  ⟨rfl, fun p hp => by cases p <;> exact if_neg hp⟩

theorem State.sameBut.changesOnly (h : y.sameBut x l) : y.changesOnly x l := ⟨h.1, fun p hp => (h.2 p hp).same h.1⟩

/-- What follows a step that keeps the frame keeps it where the step is undone. -/
theorem State.sameBut.comm (h : x.sameBut z l) : y.sameBut z l ↔ y.sameBut x l :=
  ⟨fun g => g.trans h.symm, fun g => g.trans h⟩

/-! ### The shared operations -/

section Operations

variable {a v lo w i n : Nat} {b : Bool}

theorem State.sameBut_regs (y : State) (r : KMap W32) : y.sameBut { y with regs := r } [.regs] := y.sameBut_mix { y with regs := r } _

theorem State.sameBut_host (y : State) (h : HostIf) : y.sameBut { y with host := h } [.host] := y.sameBut_mix { y with host := h } _

/-- What changes one part keeps a frame that lists it. -/
theorem State.sameBut.one {p : Part} (h : y.sameBut x [p]) (hp : p ∈ l) : y.sameBut x l :=
  h.mono fun _ hq => List.mem_singleton.mp hq ▸ hp

@[simp] theorem State.sameBut_wr (h : .regs ∈ l) : y.sameBut (x.wr a v) l ↔ y.sameBut x l :=
  State.sameBut.comm (.one (x.sameBut_regs _) h)

@[simp] theorem State.sameBut_setFld (h : .regs ∈ l) : y.sameBut (x.setFld a lo w v) l ↔ y.sameBut x l := State.sameBut_wr h

@[simp] theorem State.sameBut_setBit (h : .regs ∈ l) : y.sameBut (x.setBit a i b) l ↔ y.sameBut x l := State.sameBut_wr h

@[simp] theorem State.sameBut_inc (h : .regs ∈ l) : y.sameBut (x.inc a) l ↔ y.sameBut x l := State.sameBut_wr h

@[simp] theorem State.sameBut_incSat (h : .regs ∈ l) : y.sameBut (x.incSat a lo w) l ↔ y.sameBut x l := State.sameBut_wr h

@[simp] theorem State.sameBut_wr64 (h : .regs ∈ l) : y.sameBut (x.wr64 a v) l ↔ y.sameBut x l :=
  (State.sameBut_wr h).trans (State.sameBut_wr h)

@[simp] theorem State.sameBut_setRreg (h : .rny ∈ l) : y.sameBut (x.setRreg i v) l ↔ y.sameBut x l :=
  State.sameBut.comm (.one (x.sameBut_mix (x.setRreg i v) [.rny]) h)

@[simp] theorem State.sameBut_setRfld (h : .rny ∈ l) : y.sameBut (x.setRfld i lo w v) l ↔ y.sameBut x l := State.sameBut_setRreg h

@[simp] theorem State.sameBut_fresh (h : .free ∈ l) : y.sameBut x.fresh l ↔ y.sameBut x l :=
  State.sameBut.comm (.one (x.sameBut_mix x.fresh [.free]) h)

@[simp] theorem State.sameBut_msix (h : .host ∈ l) : y.sameBut (x.msix n) l ↔ y.sameBut x l := by
  rw [State.msix_frame]
  exact State.sameBut.comm (.one (x.sameBut_host _) h)

/-- What raising an event touches is a frame. -/
theorem State.raisedFrom.sameBut (h : x.raisedFrom z) (hl : ∀ p ∈ raiseParts, p ∈ l) : x.sameBut z l := by
  rw [h]
  exact (x.sameBut_mix { x with free := z.free, regs := z.regs, host := z.host, hostMem := z.hostMem, dbg := z.dbg } raiseParts).mono hl

@[simp] theorem State.sameBut_raise {c : Nat} {e : EvWords} {k : Nat} (h : ∀ p ∈ raiseParts, p ∈ l) :
    y.sameBut (x.raise c e k) l ↔ y.sameBut x l :=
  State.sameBut.comm ((x.raisedFrom_raise c e k).sameBut h)

@[simp] theorem State.sameBut_trace {p q r : Nat} (h : ∀ p ∈ [Part.regs, .dbg], p ∈ l) : y.sameBut (x.trace p q r) l ↔ y.sameBut x l := by
  obtain ⟨rs, d, ht⟩ := x.trace_frame p q r
  rw [ht]
  exact State.sameBut.comm ((x.sameBut_mix { x with regs := rs, dbg := d } [.regs, .dbg]).mono h)

@[simp] theorem State.sameBut_setPhase {p : Nat} (h : ∀ p ∈ [Part.regs, .host], p ∈ l) :
    y.sameBut (x.setPhase p) l ↔ y.sameBut x l := by
  rw [State.setPhase_frame]
  exact State.sameBut.comm
    ((x.sameBut_mix { x with regs := (x.setPhase p).regs, host := (x.setPhase p).host } [.regs, .host]).mono h)

end Operations

/-! ### A command that ends -/

/-- A settled state differs from the one it settles in the pins and what they follow. -/
theorem State.changesOnly_settle (x : State) (l : List Part) : x.changesOnly x.settle l := by
  refine ⟨rfl, fun p _ => ?_⟩
  cases p with
  | ron => exact ⟨rfl, fun _ _ => rfl⟩
  | tim => exact (congrArg State.tim x.at'_self).symm
  | _ => rfl

theorem State.sameBut.keepsBut {s : State} {t : Nat} (h : (s.at' t).sameBut x l) : s.keepsBut x.settle l :=
  State.keepsBut_trans (s.keepsBut_at' t l) (h.changesOnly.trans (x.changesOnly_settle l))

theorem State.sameBut.keepsButR {s : State} {t : Nat} (h : (s.at' t).sameBut x l) : s.keepsBut x.noteDrive.settle l :=
  State.keepsBut_doneR s t h.changesOnly

/-- A command that ends in `x`, which differs from where it landed in the listed parts alone. -/
theorem State.gives_of_done {s : State} {c : Instr} (t : Nat) {post : State → Prop} (hc : exec c s = done x)
    (h : (s.at' t).sameBut x l) (hp : post x.settle) : s.gives c l post := ⟨_, hc, h.keepsBut, hp⟩

theorem State.gives_of_doneR {s : State} {c : Instr} (t : Nat) {post : State → Prop} (hc : exec c s = doneR x)
    (h : (s.at' t).sameBut x l) (hp : post x.noteDrive.settle) : s.gives c l post := ⟨_, hc, h.keepsButR, hp⟩

theorem State.givesNothing_of_done {s : State} {c : Instr} (t : Nat) (hc : exec c s = done (s.at' t)) : s.givesNothing c :=
  ⟨_, hc, s.keepsBut_nothing t⟩

theorem State.givesNothing_of_doneR {s : State} {c : Instr} (t : Nat) (hc : exec c s = doneR (s.at' t)) : s.givesNothing c :=
  ⟨_, hc, s.keepsBut_nothingR t⟩

/-- A command lands at the later of its instant and the present one. -/
@[simp] theorem State.now_at' (s : State) (t : Nat) : (s.at' t).now = max s.now t := by
  unfold State.at'
  split
  next h => exact (Nat.max_eq_right h.le).symm
  next h => exact (Nat.max_eq_left (Nat.le_of_not_lt h)).symm

end Sys2Proof.Machine
end

section
/-! PROOF. Registers across the shared operations: what a word, a field or a bit reads after an update of another one. The side conditions
are closed facts of addresses and field bounds. -/

namespace Sys2Proof.Machine

variable {x y z : State} {l : List Nat} {a b v lo w lo' w' i j : Nat} {p : Bool}

theorem State.regsBut_refl (y : State) (l : List Nat) : y.regsBut y l := fun _ _ => rfl

theorem State.regsBut.trans (hxy : x.regsBut y l) (hyz : y.regsBut z l) : x.regsBut z l := fun a ha => (hyz a ha).trans (hxy a ha)

theorem State.regsBut_congr (h : x.regs = y.regs) (l : List Nat) : y.regsBut x l := fun a _ => State.rd_congr h a

theorem State.regsBut.fld (h : y.regsBut x l) (ha : a ∉ l) : x.fld a lo w = y.fld a lo w := by simp only [State.fld, h a ha]

theorem State.regsBut.bit (h : y.regsBut x l) (ha : a ∉ l) : x.bit a i = y.bit a i := by simp only [State.bit, h.fld ha]

theorem State.regsBut_wr (h : y.regsBut x l) (ha : a ∈ l) : y.regsBut (x.wr a v) l :=
  fun b hb => (State.rd_wr_other x v (ne_of_mem_of_not_mem ha hb).symm).trans (h b hb)

theorem State.regsBut_setFld (h : y.regsBut x l) (ha : a ∈ l) : y.regsBut (x.setFld a lo w v) l := State.regsBut_wr h ha

theorem State.regsBut_setBit (h : y.regsBut x l) (ha : a ∈ l) : y.regsBut (x.setBit a i p) l := State.regsBut_wr h ha

/-! ### Words, fields and bits of the register set -/

theorem State.fld_setFld_apart (x : State) (h : lo' + w' ≤ 32 ∧ (b ≠ a ∨ lo' + w' ≤ lo ∨ lo + w ≤ lo')) :
    (x.setFld a lo w v).fld b lo' w' = x.fld b lo' w' := by
  by_cases hab : b = a
  · subst hab
    exact State.fld_setFld_disjoint x b lo w v lo' w' h.1 (h.2.resolve_left (not_not_intro rfl))
  · exact State.fld_setFld_other x lo w v lo' w' hab

theorem State.fld_setBit_apart (x : State) (h : lo' + w' ≤ 32 ∧ (b ≠ a ∨ lo' + w' ≤ i ∨ i + 1 ≤ lo')) :
    (x.setBit a i p).fld b lo' w' = x.fld b lo' w' := State.fld_setFld_apart x h

theorem State.bit_setFld_apart (x : State) (h : i + 1 ≤ 32 ∧ (b ≠ a ∨ i + 1 ≤ lo ∨ lo + w ≤ i)) :
    (x.setFld a lo w v).bit b i = x.bit b i := by simp only [State.bit, State.fld_setFld_apart x h]

theorem State.bit_setBit_apart (x : State) (h : i + 1 ≤ 32 ∧ (b ≠ a ∨ i + 1 ≤ j ∨ j + 1 ≤ i)) :
    (x.setBit a j p).bit b i = x.bit b i := State.bit_setFld_apart x h

theorem State.rd_setBit_other (x : State) (h : b ≠ a) : (x.setBit a i p).rd b = x.rd b := State.rd_setFld_other x i 1 (b2n p) h

theorem State.fld_incSat_apart (x : State) (h : lo' + w' ≤ 32 ∧ (b ≠ a ∨ lo' + w' ≤ lo ∨ lo + w ≤ lo')) :
    (x.incSat a lo w).fld b lo' w' = x.fld b lo' w' := State.fld_setFld_apart x h

theorem State.bit_incSat_apart (x : State) (h : i + 1 ≤ 32 ∧ (b ≠ a ∨ i + 1 ≤ lo ∨ lo + w ≤ i)) :
    (x.incSat a lo w).bit b i = x.bit b i := State.bit_setFld_apart x h

/-! ### Events and trace points -/

/-- Registers that raising an event counts in. -/
def raiseRegs : List Nat := [R.CMD_EVT_LOST, R.DBG_LOG_UART_DROP]

/-- Registers of the trace buffer. -/
def traceRegs : List Nat := [R.DBG_TRACE_WR, R.DBG_TRACE_STAT]

theorem State.regsBut_signalRing (h : y.regsBut x l) (r : Nat) : y.regsBut (x.signalRing r) l := by
  unfold State.signalRing
  split
  · exact h
  · split
    · exact h.trans (State.regsBut_congr (by simp) l)
    · exact h

theorem State.regsBut_ringWrite (h : y.regsBut x l) (r : Nat) (e : RingEntry) : y.regsBut (x.ringWrite r e) l := by
  unfold State.ringWrite
  split
  · exact h
  · dsimp only
    exact State.regsBut_signalRing (h.trans (State.regsBut_congr (by rfl) l)) r

theorem State.regsBut_postEvent (x : State) (e : RingEntry) : x.regsBut (x.postEvent e) raiseRegs := by
  unfold State.postEvent
  split
  · split <;> exact State.regsBut_congr rfl _
  · split
    · split <;> exact State.regsBut_congr rfl _
    · split
      · exact x.regsBut_refl _
      · split
        · exact State.regsBut_ringWrite (x.regsBut_refl _) _ _
        · exact State.regsBut_wr (State.regsBut_congr (by rfl) _) (by simp [raiseRegs])

theorem State.regsBut_logWrite (x : State) (code : Nat) (d : List Nat) : x.regsBut (x.logWrite code d) raiseRegs := by
  have h : ∀ (r : State) (c b : Prop) [Decidable c] [Decidable b] (g : Debug), r.regs = x.regs →
      x.regsBut (if c then (if b then r.incSat R.DBG_LOG_UART_DROP 0 32 else { r with dbg := g }) else r) raiseRegs := by
    intro r c b _ _ g hr
    split
    · split
      · exact State.regsBut_setFld (State.regsBut_congr hr _) (by simp [raiseRegs])
      · exact State.regsBut_congr hr _
    · exact State.regsBut_congr hr _
  exact h _ _ _ _ rfl

theorem State.regsBut_raise (x : State) (c : Nat) (e : EvWords) (k : Nat) : x.regsBut (x.raise c e k) raiseRegs :=
  ((x.regsBut_postEvent _).trans (State.regsBut_logWrite _ _ _)).trans (State.regsBut_congr rfl _)

theorem State.regsBut_trace (x : State) (k src arg : Nat) : x.regsBut (x.trace k src arg) traceRegs := by
  unfold State.trace
  split
  · dsimp only
    have h : ∀ (d : Debug) (v : Nat), x.regsBut ((({ x with dbg := d } : State).wr R.DBG_TRACE_WR v).incSat R.DBG_TRACE_STAT 1 31)
        traceRegs := fun _ _ =>
      State.regsBut_setFld (State.regsBut_wr (State.regsBut_congr rfl _) (by simp [traceRegs])) (by simp [traceRegs])
    split
    · exact State.regsBut_setBit (h _ _) (by simp [traceRegs])
    · exact h _ _
  · exact x.regsBut_refl _

section Raise

variable {c k src arg : Nat} {e : EvWords}

theorem State.rd_raise (x : State) (h : a ∉ raiseRegs) : (x.raise c e k).rd a = x.rd a := x.regsBut_raise c e k a h
theorem State.fld_raise (x : State) (h : a ∉ raiseRegs) : (x.raise c e k).fld a lo w = x.fld a lo w := (x.regsBut_raise c e k).fld h
theorem State.rd_trace (x : State) (h : a ∉ traceRegs) : (x.trace k src arg).rd a = x.rd a := x.regsBut_trace k src arg a h
theorem State.fld_trace (x : State) (h : a ∉ traceRegs) : (x.trace k src arg).fld a lo w = x.fld a lo w := (x.regsBut_trace k src arg).fld h

end Raise

/-! ### The boot phase -/

theorem State.regs_setPhase (x : State) (k : Nat) (hk : x.phase ≠ k) : (x.setPhase k).regs = (x.setFld R.GLB_BOOT_STATUS 0 4 k).regs := by
  unfold State.setPhase
  rw [if_neg hk]
  simp

theorem State.fld_setPhase (x : State) (k : Nat) (h : lo' + w' ≤ 32 ∧ (b ≠ R.GLB_BOOT_STATUS ∨ 4 ≤ lo')) :
    (x.setPhase k).fld b lo' w' = x.fld b lo' w' := by
  by_cases hk : x.phase = k
  · rw [State.setPhase, if_pos hk]
  · rw [State.fld_congr (x.regs_setPhase k hk)]
    exact State.fld_setFld_apart x ⟨h.1, by omega⟩

theorem State.rd_setPhase (x : State) (k : Nat) (h : b ≠ R.GLB_BOOT_STATUS) : (x.setPhase k).rd b = x.rd b := by
  by_cases hk : x.phase = k
  · rw [State.setPhase, if_pos hk]
  · rw [State.rd_congr (x.regs_setPhase k hk)]
    exact State.rd_setFld_other x 0 4 k h

end Sys2Proof.Machine
end

section
/-! PROOF. The crucible clock (R465): the step in force, the thermal source and the input-power guard. -/

namespace Sys2Proof.Machine

variable {x y z : State} {l : List Part} {lo w a i : Nat}

/-- The first effect of a clock update: `PWR_CLK` shows the step in force and the sources of R465. -/
def State.showClk (s : State) : State :=
  (((s.setFld R.PWR_CLK 0 3 s.clkWanted.1).setBit R.PWR_CLK 12 (!s.pmcUp)).setBit R.PWR_CLK 13 (decide (s.phase = 3))).setBit
    R.PWR_CLK 14 (!s.mod.serrefOk)

/-- A clock update shows the step, and a change of it passes a trace point. -/
theorem State.clkUpdate_cases (s : State) : s.clkUpdate = s.showClk ∨ ∃ n, s.clkUpdate = s.showClk.trace 0x20 1 n := by
  unfold State.clkUpdate
  dsimp only
  split
  · exact .inl rfl
  · exact .inr ⟨_, rfl⟩

@[simp] theorem State.sameBut_clkUpdate (h : ∀ p ∈ [Part.regs, .dbg], p ∈ l) : y.sameBut x.clkUpdate l ↔ y.sameBut x l := by
  have hr : Part.regs ∈ l := h _ (by decide)
  have hs : y.sameBut x.showClk l ↔ y.sameBut x l := by simp [State.showClk, hr]
  obtain e | ⟨n, e⟩ := x.clkUpdate_cases <;> rw [e]
  · exact hs
  · exact (State.sameBut_trace h).trans hs

theorem State.regsBut_clkUpdate (x : State) : x.regsBut x.clkUpdate (R.PWR_CLK :: traceRegs) := by
  have hs : x.regsBut x.showClk (R.PWR_CLK :: traceRegs) :=
    State.regsBut_setBit (State.regsBut_setBit (State.regsBut_setBit (State.regsBut_setFld (x.regsBut_refl _)
      (by simp)) (by simp)) (by simp)) (by simp)
  obtain e | ⟨n, e⟩ := x.clkUpdate_cases <;> rw [e]
  · exact hs
  · exact hs.trans fun a ha => State.rd_trace _ fun hm => ha (List.mem_cons_of_mem _ hm)

/-- A field of `PWR_CLK` after a clock update is what the update shows. -/
theorem State.fld_clkUpdate (x : State) : x.clkUpdate.fld R.PWR_CLK lo w = x.showClk.fld R.PWR_CLK lo w := by
  obtain e | ⟨n, e⟩ := x.clkUpdate_cases <;> rw [e]
  exact State.fld_trace _ (by decide)

theorem State.bit_clkUpdate (x : State) : x.clkUpdate.bit R.PWR_CLK i = x.showClk.bit R.PWR_CLK i := by
  simp only [State.bit, State.fld_clkUpdate]

/-- The sources of R465 keep their requests in `PWR_CLK` [10:4]. -/
theorem State.fld_clkUpdate_request (x : State) (h : lo + w ≤ 12 ∧ 3 ≤ lo) :
    x.clkUpdate.fld R.PWR_CLK lo w = x.fld R.PWR_CLK lo w := by
  rw [State.fld_clkUpdate, State.showClk, State.fld_setBit_apart _ ⟨by omega, by omega⟩, State.fld_setBit_apart _ ⟨by omega, by omega⟩,
    State.fld_setBit_apart _ ⟨by omega, by omega⟩, State.fld_setFld_apart _ ⟨by omega, by omega⟩]

theorem State.fld_clkUpdate_step (x : State) : x.clkUpdate.fld R.PWR_CLK 0 3 = x.clkWanted.1 % 8 := by
  rw [State.fld_clkUpdate, State.showClk, State.fld_setBit_apart _ (by decide), State.fld_setBit_apart _ (by decide),
    State.fld_setBit_apart _ (by decide), State.fld_setFld_same _ _ _ _ _ (by decide)]
  rfl

theorem State.bit_clkUpdate_serref (x : State) : x.clkUpdate.bit R.PWR_CLK 14 = !x.mod.serrefOk := by
  rw [State.bit_clkUpdate, State.showClk, State.bit_setBit_same _ _ _ _ (by decide)]

/-- With PMC and SERREF there, outside self-test, the slowest step requested is in force (R465). -/
theorem State.clkWanted_of_requests (hp : x.pmcUp = true) (hs : x.mod.serrefOk = true) (h3 : x.phase ≠ 3) :
    x.clkWanted.1 = max (x.fld R.PWR_CLK_CAP 0 3) (max (x.fld R.PWR_CLK 4 3) (x.fld R.PWR_CLK 8 3)) := by
  have hmax : ∀ a b c : Nat, ([(a, 1), (b, 2), (c, 3)].foldl (fun a b : Nat × Nat => if a.1 < b.1 then b else a) (0, 0)).1 =
      max a (max b c) := by
    intro a b c
    simp only [List.foldl_cons, List.foldl_nil]
    grind
  unfold State.clkWanted
  simp only [hp, hs, h3, if_false]
  exact hmax _ _ _

theorem State.fld_lt (x : State) (a lo w : Nat) : x.fld a lo w < 2 ^ w := Nat.mod_lt _ (by positivity)

/-! ### The thermal source -/

/-- From `x` to `y` the thermal source acts: it moves its request in `PWR_CLK` and what it shows in `PWR_THERM`, and may raise an event. -/
def State.thermMoves (x y : State) : Prop :=
  x.sameBut y (.pwr :: raiseParts) ∧ x.regsBut y (R.PWR_CLK :: R.PWR_THERM :: raiseRegs) ∧
    (∀ lo w, lo + w ≤ 32 ∧ (lo + w ≤ 4 ∨ 7 ≤ lo) → y.fld R.PWR_CLK lo w = x.fld R.PWR_CLK lo w) ∧
    y.pwr = { x.pwr with throttling := y.pwr.throttling, thermAt := y.pwr.thermAt }

theorem State.thermMoves_refl (x : State) : x.thermMoves x := ⟨x.sameBut_refl _, x.regsBut_refl _, fun _ _ _ => rfl, rfl⟩

theorem State.thermMoves.trans (hxy : x.thermMoves y) (hyz : y.thermMoves z) : x.thermMoves z := by
  obtain ⟨f, r, c, p⟩ := hxy
  obtain ⟨f', r', c', p'⟩ := hyz
  exact ⟨f.trans f', r.trans r', fun lo w h => (c' lo w h).trans (c lo w h), by rw [p', p]⟩

/-- Throttling begins, with its event, unless it is in force. -/
def State.startThrottle (s : State) : State :=
  if s.pwr.throttling then s else (s.setThrottle true).raise E_THERMAL_THROTTLE {}

/-- Throttling ends. -/
def State.endThrottle (s : State) : State := if s.pwr.throttling then s.setThrottle false else s

/-- The thermal source requests step `st` once `wait` ns have passed since its last step, where `c` holds. -/
def State.thermTo (s : State) (wait : Nat) (c : Prop) [Decidable c] (st : Nat) : State :=
  if s.pwr.thermAt + wait ≤ s.now ∧ c then ({ s with pwr := { s.pwr with thermAt := s.now } }).setFld R.PWR_CLK 4 3 st else s

theorem State.thermStep_hot (h : 169 ≤ x.pwr.junction) :
    x.thermStep = x.startThrottle.thermTo ms (x.fld R.PWR_CLK 4 3 < 6) (x.fld R.PWR_CLK 4 3 + 1) := by
  rw [State.thermStep, if_pos h]
  rfl

theorem State.thermStep_cool (h : x.pwr.junction < 164) :
    x.thermStep = x.endThrottle.thermTo (10 * ms) (0 < x.fld R.PWR_CLK 4 3) (x.fld R.PWR_CLK 4 3 - 1) := by
  have h' : ¬ 169 ≤ x.pwr.junction := by omega
  rw [State.thermStep, if_neg h', if_pos h]
  rfl

theorem State.thermStep_between (h : 164 ≤ x.pwr.junction) (h' : x.pwr.junction < 169) : x.thermStep = x := by
  simp only [State.thermStep, show ¬ 169 ≤ x.pwr.junction by omega, show ¬ x.pwr.junction < 164 by omega, if_false]

theorem State.thermMoves_setThrottle (x : State) (b : Bool) : x.thermMoves (x.setThrottle b) := by
  refine ⟨?_, State.regsBut_setBit (State.regsBut_congr rfl _) (by simp), fun lo w h => ?_, rfl⟩
  · rw [State.setThrottle, State.sameBut_setBit (by decide)]
    exact .one (x.sameBut_mix { x with pwr := { x.pwr with throttling := b } } [.pwr]) (by decide)
  · exact State.fld_setBit_apart _ ⟨h.1, .inl (by decide)⟩

theorem State.thermMoves_raise (x : State) (c : Nat) (e : EvWords) (k : Nat) : x.thermMoves (x.raise c e k) := by
  refine ⟨(State.sameBut_raise (by decide)).mpr (x.sameBut_refl _), fun a ha => State.rd_raise x ?_, fun lo w _ =>
    State.fld_raise x (by decide), ?_⟩
  · exact fun hm => ha (List.mem_cons_of_mem _ (List.mem_cons_of_mem _ hm))
  · rw [x.raisedFrom_raise c e k]

theorem State.pwr_raise (x : State) (c : Nat) (e : EvWords) (k : Nat) : (x.raise c e k).pwr = x.pwr := by
  rw [x.raisedFrom_raise c e k]

theorem State.thermMoves_startThrottle (x : State) :
    x.thermMoves x.startThrottle ∧ x.startThrottle.pwr = { x.pwr with throttling := true } ∧
      x.startThrottle.fld R.PWR_CLK 4 3 = x.fld R.PWR_CLK 4 3 := by
  unfold State.startThrottle
  split
  next h => exact ⟨x.thermMoves_refl, by rw [← h], rfl⟩
  · refine ⟨(x.thermMoves_setThrottle true).trans (State.thermMoves_raise _ _ _ _), ?_, ?_⟩
    · rw [State.pwr_raise]
      rfl
    · rw [State.fld_raise _ (by decide)]
      exact State.fld_setBit_apart _ (by decide)

theorem State.thermMoves_endThrottle (x : State) :
    x.thermMoves x.endThrottle ∧ x.endThrottle.pwr = { x.pwr with throttling := false } ∧
      x.endThrottle.fld R.PWR_CLK 4 3 = x.fld R.PWR_CLK 4 3 := by
  unfold State.endThrottle
  split
  · exact ⟨x.thermMoves_setThrottle false, rfl, State.fld_setBit_apart _ (by decide)⟩
  next h => exact ⟨x.thermMoves_refl, by rw [← Bool.eq_false_of_not_eq_true h], rfl⟩

theorem State.thermMoves_thermTo (x : State) (wait : Nat) (c : Prop) [Decidable c] (st : Nat) : x.thermMoves (x.thermTo wait c st) := by
  unfold State.thermTo
  split
  · refine ⟨?_, State.regsBut_setFld (State.regsBut_congr rfl _) (by simp), fun lo w h => State.fld_setFld_apart _ ⟨h.1, .inr h.2⟩, rfl⟩
    rw [State.sameBut_setFld (by decide)]
    exact .one (x.sameBut_mix { x with pwr := { x.pwr with thermAt := x.now } } [.pwr]) (by decide)
  · exact x.thermMoves_refl

theorem State.throttling_thermTo (x : State) (wait : Nat) (c : Prop) [Decidable c] (st : Nat) :
    (x.thermTo wait c st).pwr.throttling = x.pwr.throttling := by
  unfold State.thermTo
  split <;> rfl

theorem State.fld_thermTo (x : State) (wait : Nat) (c : Prop) [Decidable c] (st : Nat) (h : c → st < 8) :
    (x.thermTo wait c st).fld R.PWR_CLK 4 3 = if x.pwr.thermAt + wait ≤ x.now ∧ c then st else x.fld R.PWR_CLK 4 3 := by
  unfold State.thermTo
  split
  next hc => exact (State.fld_setFld_same _ _ _ _ _ (by decide)).trans (Nat.mod_eq_of_lt (h hc.2))
  · rfl

theorem State.thermMoves_thermStep (x : State) : x.thermMoves x.thermStep := by
  obtain h | h | h : 169 ≤ x.pwr.junction ∨ x.pwr.junction < 164 ∨ (164 ≤ x.pwr.junction ∧ x.pwr.junction < 169) := by omega
  · rw [State.thermStep_hot h]
    exact x.thermMoves_startThrottle.1.trans (State.thermMoves_thermTo _ _ _ _)
  · rw [State.thermStep_cool h]
    exact x.thermMoves_endThrottle.1.trans (State.thermMoves_thermTo _ _ _ _)
  · rw [State.thermStep_between h.1 h.2]
    exact x.thermMoves_refl

/-- At 105 °C or more throttling is in force and the source goes a step slower each 1 ms. -/
theorem State.thermStep_hot_shows (h : 169 ≤ x.pwr.junction) : x.thermStep.pwr.throttling = true ∧
    x.thermStep.fld R.PWR_CLK 4 3 = if x.pwr.thermAt + 1000000 ≤ x.now ∧ x.fld R.PWR_CLK 4 3 < 6 then x.fld R.PWR_CLK 4 3 + 1
      else x.fld R.PWR_CLK 4 3 := by
  obtain ⟨⟨⟨hn, -⟩, -⟩, hp, hf⟩ := x.thermMoves_startThrottle
  rw [State.thermStep_hot h, State.throttling_thermTo, State.fld_thermTo _ _ _ _ (by omega), hf, hn, hp]
  exact ⟨rfl, rfl⟩

/-- Below 100 °C throttling ends and the source goes a step faster each 10 ms. -/
theorem State.thermStep_cool_shows (h : x.pwr.junction < 164) : x.thermStep.pwr.throttling = false ∧
    x.thermStep.fld R.PWR_CLK 4 3 = if x.pwr.thermAt + 10000000 ≤ x.now ∧ 0 < x.fld R.PWR_CLK 4 3 then x.fld R.PWR_CLK 4 3 - 1
      else x.fld R.PWR_CLK 4 3 := by
  have hlt := x.fld_lt R.PWR_CLK 4 3
  obtain ⟨⟨⟨hn, -⟩, -⟩, hp, hf⟩ := x.thermMoves_endThrottle
  rw [State.thermStep_cool h, State.throttling_thermTo, State.fld_thermTo _ _ _ _ (by omega), hf, hn, hp]
  exact ⟨rfl, rfl⟩

/-! ### The input-power guard -/

/-- The guard requests step `st` once `wait` ns have passed since its last step, where `c` holds. -/
def State.guardTo (s : State) (wait : Nat) (c : Prop) [Decidable c] (st : Nat) : State :=
  if s.pwr.guardAt + wait ≤ s.now ∧ c then ({ s with pwr := { s.pwr with guardAt := s.now } }).setFld R.PWR_CLK 8 3 st else s

theorem State.guardStep_above (h : 1500 < x.pwr.power) :
    x.guardStep = x.guardTo ms (x.fld R.PWR_CLK 8 3 < 6) (x.fld R.PWR_CLK 8 3 + 1) := by
  simp only [State.guardStep, h, if_true, State.guardTo]

theorem State.guardStep_below (h : x.pwr.power ≤ 1450) :
    x.guardStep = x.guardTo (10 * ms) (0 < x.fld R.PWR_CLK 8 3) (x.fld R.PWR_CLK 8 3 - 1) := by
  have h' : ¬ 1500 < x.pwr.power := by omega
  simp only [State.guardStep, h, h', if_true, if_false, State.guardTo]

theorem State.guardStep_between (h : 1450 < x.pwr.power) (h' : x.pwr.power ≤ 1500) : x.guardStep = x := by
  simp only [State.guardStep, show ¬ 1500 < x.pwr.power by omega, show ¬ x.pwr.power ≤ 1450 by omega, if_false]

/-- From `x` to `y` the guard acts: it moves its request in `PWR_CLK` and the instant of its step. -/
def State.guardMoves (x y : State) : Prop :=
  x.sameBut y [.pwr, .regs] ∧ x.regsBut y [R.PWR_CLK] ∧
    (∀ lo w, lo + w ≤ 32 ∧ (lo + w ≤ 8 ∨ 11 ≤ lo) → y.fld R.PWR_CLK lo w = x.fld R.PWR_CLK lo w) ∧
    y.pwr = { x.pwr with guardAt := y.pwr.guardAt }

theorem State.guardMoves_refl (x : State) : x.guardMoves x := ⟨x.sameBut_refl _, x.regsBut_refl _, fun _ _ _ => rfl, rfl⟩

theorem State.guardMoves_guardTo (x : State) (wait : Nat) (c : Prop) [Decidable c] (st : Nat) : x.guardMoves (x.guardTo wait c st) := by
  unfold State.guardTo
  split
  · refine ⟨?_, State.regsBut_setFld (State.regsBut_congr rfl _) (by simp), fun lo w h => State.fld_setFld_apart _ ⟨h.1, .inr h.2⟩, rfl⟩
    rw [State.sameBut_setFld (by decide)]
    exact .one (x.sameBut_mix { x with pwr := { x.pwr with guardAt := x.now } } [.pwr]) (by decide)
  · exact x.guardMoves_refl

theorem State.guardMoves_guardStep (x : State) : x.guardMoves x.guardStep := by
  obtain h | h | h : 1500 < x.pwr.power ∨ x.pwr.power ≤ 1450 ∨ (1450 < x.pwr.power ∧ x.pwr.power ≤ 1500) := by omega
  · rw [State.guardStep_above h]
    exact State.guardMoves_guardTo _ _ _ _
  · rw [State.guardStep_below h]
    exact State.guardMoves_guardTo _ _ _ _
  · rw [State.guardStep_between h.1 h.2]
    exact x.guardMoves_refl

theorem State.fld_guardTo (x : State) (wait : Nat) (c : Prop) [Decidable c] (st : Nat) (h : c → st < 8) :
    (x.guardTo wait c st).fld R.PWR_CLK 8 3 = if x.pwr.guardAt + wait ≤ x.now ∧ c then st else x.fld R.PWR_CLK 8 3 := by
  unfold State.guardTo
  split
  next hc => exact (State.fld_setFld_same _ _ _ _ _ (by decide)).trans (Nat.mod_eq_of_lt (h hc.2))
  · rfl

/-- Above 150 W the guard goes a step slower each 1 ms. -/
theorem State.fld_guardStep_above (h : 1500 < x.pwr.power) : x.guardStep.fld R.PWR_CLK 8 3 =
    if x.pwr.guardAt + 1000000 ≤ x.now ∧ x.fld R.PWR_CLK 8 3 < 6 then x.fld R.PWR_CLK 8 3 + 1 else x.fld R.PWR_CLK 8 3 := by
  rw [State.guardStep_above h, State.fld_guardTo _ _ _ _ (by omega)]
  rfl

/-- At 145 W or less it goes a step faster each 10 ms. -/
theorem State.fld_guardStep_below (h : x.pwr.power ≤ 1450) : x.guardStep.fld R.PWR_CLK 8 3 =
    if x.pwr.guardAt + 10000000 ≤ x.now ∧ 0 < x.fld R.PWR_CLK 8 3 then x.fld R.PWR_CLK 8 3 - 1 else x.fld R.PWR_CLK 8 3 := by
  have hlt := x.fld_lt R.PWR_CLK 8 3
  rw [State.guardStep_below h, State.fld_guardTo _ _ _ _ (by omega)]
  rfl

/-! ### A throttle step of PMC -/

/-- PMC steps: the thermal source, then the guard, then the step in force. -/
def State.throttleStep (s : State) : State := ((s.thermStep).guardStep).clkUpdate

theorem State.sameBut_throttleStep (x : State) : x.sameBut x.throttleStep (.pwr :: raiseParts) := by
  rw [State.throttleStep, State.sameBut_clkUpdate (by decide)]
  exact x.thermMoves_thermStep.1.trans (x.thermStep.guardMoves_guardStep.1.mono (by decide))

theorem State.throttling_throttleStep (x : State) : x.throttleStep.pwr.throttling = x.thermStep.pwr.throttling := by
  obtain ⟨-, -, -, hp⟩ := x.thermStep.guardMoves_guardStep
  have h := ((State.sameBut_clkUpdate (l := [.regs, .dbg]) fun _ h => h).mpr (x.thermStep.guardStep.sameBut_refl _)).2 .pwr (by decide)
  rw [State.throttleStep, show x.thermStep.guardStep.clkUpdate.pwr = _ from h, hp]

theorem State.fld_throttleStep_therm (x : State) : x.throttleStep.fld R.PWR_CLK 4 3 = x.thermStep.fld R.PWR_CLK 4 3 := by
  obtain ⟨-, -, hc, -⟩ := x.thermStep.guardMoves_guardStep
  rw [State.throttleStep, State.fld_clkUpdate_request _ (by decide), hc 4 3 (by decide)]

theorem State.fld_throttleStep_guard (x : State) : x.throttleStep.fld R.PWR_CLK 8 3 = x.thermStep.guardStep.fld R.PWR_CLK 8 3 :=
  State.fld_clkUpdate_request _ (by decide)

/-- The step in force is the slowest requested. -/
theorem State.fld_throttleStep_step (hp : x.pmcUp = true) (hs : x.mod.serrefOk = true) (h3 : x.phase ≠ 3) :
    x.throttleStep.fld R.PWR_CLK 0 3 =
      max (x.fld R.PWR_CLK_CAP 0 3) (max (x.throttleStep.fld R.PWR_CLK 4 3) (x.throttleStep.fld R.PWR_CLK 8 3)) := by
  obtain ⟨tf, tr, -, -⟩ := x.thermMoves_thermStep
  obtain ⟨gf, gr, -, -⟩ := x.thermStep.guardMoves_guardStep
  have hreg : ∀ a lo w, a ∉ R.PWR_CLK :: R.PWR_THERM :: raiseRegs → x.thermStep.guardStep.fld a lo w = x.fld a lo w := fun a lo w ha =>
    (gr.fld fun h => ha (by simp_all)).trans (tr.fld ha)
  have hmod : x.thermStep.guardStep.mod = x.mod := Eq.trans (gf.2 .mod (by decide)) (tf.2 .mod (by decide))
  have hcap := x.thermStep.guardStep.fld_lt R.PWR_CLK_CAP 0 3
  have hth := x.thermStep.guardStep.fld_lt R.PWR_CLK 4 3
  have hg := x.thermStep.guardStep.fld_lt R.PWR_CLK 8 3
  rw [State.throttleStep, State.fld_clkUpdate_step, State.fld_clkUpdate_request _ (by decide),
    State.fld_clkUpdate_request _ (by decide), State.clkWanted_of_requests]
  · rw [Nat.mod_eq_of_lt (by omega), hreg R.PWR_CLK_CAP 0 3 (by decide)]
  · rw [State.pmcUp, State.fwState, hreg (R.DBG_FW_STAT 1) 0 2 (by decide)]
    exact hp
  · rw [hmod, hs]
  · rw [State.phase, hreg R.GLB_BOOT_STATUS 0 4 (by decide)]
    exact h3

end Sys2Proof.Machine
end

section
/-! PROOF. The journal, the power-fail sequence and the resets of Cuette (R33, R37, R38, R475): what each leaves as it was. -/

namespace Sys2Proof.Machine

variable {x y z : State} {l : List Part}

/-! ### The journal -/

/-- Registers that a journal record may change. -/
def journalRegs : List Nat := [R.LIN_JRN_STAT, R.LIN_HALT_STAT] ++ raiseRegs

/-- From `x` to `y` no more happens than records written to the journal, and the events that raises. -/
def State.records (x y : State) : Prop := x.sameBut y recordParts ∧ x.regsBut y journalRegs

theorem State.records_refl (x : State) : x.records x := ⟨x.sameBut_refl _, x.regsBut_refl _⟩

theorem State.records.trans (hxy : x.records y) (hyz : y.records z) : x.records z := ⟨hxy.1.trans hyz.1, hxy.2.trans hyz.2⟩

theorem State.records_jrn (x : State) (j : Journal) : x.records { x with jrn := j } :=
  ⟨(x.sameBut_mix { x with jrn := j } [.jrn]).mono (by decide), State.regsBut_congr rfl _⟩

theorem State.records_raise (x : State) (c : Nat) (e : EvWords) (k : Nat) : x.records (x.raise c e k) :=
  ⟨(State.sameBut_raise (by decide)).mpr (x.sameBut_refl _), fun a ha => State.rd_raise x fun h => ha (List.mem_append_right _ h)⟩

theorem State.records_latchHalt (x : State) (i : Nat) : x.records (x.latchHalt i) :=
  ⟨(x.sameBut_mix (x.latchHalt i) [.regs, .line]).mono (by decide),
    (State.regsBut_setBit (x.regsBut_refl _) (by simp [journalRegs])).trans (State.regsBut_congr rfl _)⟩

theorem State.records_journalFull (x : State) : x.records x.journalFull := by
  have h : x.records ((x.setBit R.LIN_JRN_STAT 0 true).latchHalt 3) :=
    State.records.trans ⟨(State.sameBut_setBit (by decide)).mpr (x.sameBut_refl _),
      State.regsBut_setBit (x.regsBut_refl _) (by simp [journalRegs])⟩ (State.records_latchHalt _ 3)
  unfold State.journalFull
  dsimp only
  split
  · split
    · exact h.trans ((State.records_jrn _ _).trans (State.records_raise _ _ _ _))
    · exact h
  · exact h.trans ((State.records_jrn _ _).trans (State.records_raise _ _ _ _))

theorem State.records_dropOldestBlock (x : State) : x.records x.dropOldestBlock := by
  unfold State.dropOldestBlock
  split
  · exact x.records_refl
  · split
    · exact x.records_refl
    · dsimp only
      split
      · exact (x.records_jrn _).trans (State.records_journalFull _)
      · exact x.records_jrn _

theorem State.records_sealBlock (x : State) (p q : Bool) : x.records (x.sealBlock p q) :=
  x.records_dropOldestBlock.trans (State.records_jrn _ _)

theorem State.records_pageWrite (x : State) : x.records x.pageWrite := x.records_jrn _

theorem State.records_pageRoom (x : State) (n : Nat) : x.records (x.pageRoom n) := by
  unfold State.pageRoom
  split
  · exact x.records_refl
  · split
    · exact x.records_pageWrite.trans (State.records_jrn _ _)
    · exact x.records_pageWrite.trans (State.records_sealBlock _ _ _)

theorem State.records_journal (x : State) (typ n : Nat) (ws : List Nat) : x.records (x.journal typ n ws) := by
  unfold State.journal
  have hroom : x.records (if (x.pageRoom n).jrn.slot + n ≤ pageEnd (x.pageRoom n).jrn.page then x.pageRoom n
      else (x.pageRoom n).pageRoom n) := by
    split
    · exact x.records_pageRoom n
    · exact (x.records_pageRoom n).trans (State.records_pageRoom _ n)
  dsimp only
  generalize (if (x.pageRoom n).jrn.slot + n ≤ pageEnd (x.pageRoom n).jrn.page then x.pageRoom n
    else (x.pageRoom n).pageRoom n) = w at hroom ⊢
  split
  · exact hroom.trans (State.records_jrn _ _)
  · split
    · exact (hroom.trans (State.records_jrn _ _)).trans (State.records_pageWrite _)
    · exact ((hroom.trans (State.records_jrn _ _)).trans (State.records_pageWrite _)).trans (State.records_sealBlock _ _ _)

theorem State.records_raiseJ (x : State) (c : Nat) (e : EvWords) (k : Nat) : x.records (x.raiseJ c e k) :=
  (x.records_raise c e k).trans (State.records_journal _ _ _ _)

/-- Registers of the serial mark and those of the journal. -/
def failRegs : List Nat := [R.PWR_SERIAL_MARK, R.PWR_SERIAL_MARK + 4] ++ journalRegs

/-- A sequence record writes the mark to the NAND and to `PWR_SERIAL_MARK` (R477). -/
theorem State.frame_sequenceRecord (x : State) (m : Nat) :
    x.sameBut (x.sequenceRecord m) recordParts ∧ x.regsBut (x.sequenceRecord m) failRegs ∧
      ∃ r ∈ (x.sequenceRecord m).jrn.seqRecords, r.mark = m := by
  refine ⟨(x.sameBut_mix (x.sequenceRecord m) [.regs, .line, .jrn]).mono (by decide),
    State.regsBut_wr (State.regsBut_wr (State.regsBut_congr rfl _) (by simp [failRegs])) (by simp [failRegs]), { mark := m }, ?_, rfl⟩
  have hlast : ∀ (q : List SeqRecord) (r : SeqRecord), r ∈ keepLast (q ++ [r]) 2 := by
    intro q r
    rw [keepLast, List.length_append, List.length_singleton, List.drop_append_of_le_length (by omega)]
    simp
  exact hlast _ _

/-! ### Crucibles and Ronyr stop -/

theorem State.sameBut_setCru {c : Nat} {q : Cru} (h : .fab ∈ l) : y.sameBut (x.setCru c q) l ↔ y.sameBut x l :=
  State.sameBut.comm (.one (x.sameBut_mix (x.setCru c q) [.fab]) h)

theorem State.sameBut_setTile {c i : Nat} {q : Tile} (h : .fab ∈ l) : y.sameBut (x.setTile c i q) l ↔ y.sameBut x l :=
  State.sameBut_setCru h

theorem State.sameBut_allotStale {c i : Nat} (h : .fab ∈ l) : y.sameBut (x.allotStale c i) l ↔ y.sameBut x l := by
  unfold State.allotStale
  split
  · exact State.sameBut_setTile h
  · exact Iff.rfl

/-- A hard stop touches the fabric and the free values alone. -/
theorem State.frame_hardStop (x : State) : x.sameBut x.hardStop [.fab, .free] := by
  unfold State.hardStop
  refine List.foldlRecOn (motive := fun y => x.sameBut y [.fab, .free]) _ _ (x.sameBut_refl _) fun y hy c _ => ?_
  split
  · exact hy
  next d _ =>
    have hfree : x.sameBut ((dRanges d.words).2.foldl (fun s r => s.mouldFree (cruFlask c) r.1 r.2) y.fresh) [.fab, .free] :=
      List.foldlRecOn (motive := fun z => x.sameBut z [.fab, .free]) _ _ ((State.sameBut_fresh (by decide)).mpr hy) fun z hz r _ =>
        hz.trans ((z.sameBut_mix (z.mouldFree (cruFlask c) r.1 r.2) [.fab]).mono (by decide))
    dsimp only
    split
    · rw [State.sameBut_allotStale (by decide), State.sameBut_setTile (by decide), State.sameBut_setCru (by decide)]
      exact hfree
    · rw [State.sameBut_setCru (by decide)]
      exact hfree

theorem State.sameBut_ron (x : State) (r : Ronyr) : x.sameBut { x with ron := r } [.rny, .ron] :=
  (x.sameBut_mix { x with ron := r } [.ron]).mono (by decide)

theorem State.frame_fireReport (x : State) (f : Fire) (p r : Nat) :
    x.sameBut (x.fireReport f p r) [.rny, .ron] ∧ (x.fireReport f p r).ron.safe = x.ron.safe := by
  unfold State.fireReport State.rnySend
  dsimp only
  split
  · exact ⟨x.sameBut_mix ((x.setRreg _ _).rnySend _) [.rny, .ron], rfl⟩
  · exact ⟨x.sameBut_mix ((x.setRreg _ _).rnySend _) [.rny, .ron], rfl⟩

theorem State.frame_discardFires (x : State) (p : Fire → Bool) :
    x.sameBut (x.discardFires p) [.rny, .ron] ∧ (x.discardFires p).ron.safe = x.ron.safe := by
  unfold State.discardFires
  refine List.foldlRecOn (motive := fun y => x.sameBut y [.rny, .ron] ∧ y.ron.safe = x.ron.safe) _ _
    ⟨x.sameBut_ron _, rfl⟩ fun y hy f _ => ?_
  obtain ⟨hf, hs⟩ := y.frame_fireReport f (y.enc f.order.chan).p 2
  exact ⟨hy.1.trans hf, hs.trans hy.2⟩

/-- Ronyr enters its field safe state, and nothing else changes (R394). -/
theorem State.frame_fieldSafeEnter (x : State) (c : Nat) :
    x.sameBut (x.fieldSafeEnter c) [.rny, .ron] ∧ (x.fieldSafeEnter c).ron.safe = true := by
  unfold State.fieldSafeEnter
  dsimp only
  split
  next h => exact ⟨x.sameBut_mix (({ x with ron := { x.ron with present := _, resumeHeld := false } } : State).setRreg _ _) [.rny, .ron], h⟩
  · refine ⟨.trans ?_ (State.frame_discardFires _ _).1, (State.frame_discardFires _ _).2⟩
    rw [State.sameBut_setRfld (by decide), State.sameBut_setRreg (by decide), State.sameBut_setRreg (by decide)]
    exact x.sameBut_ron _

theorem State.frame_failSafe (x : State) :
    x.sameBut x.failSafe [.rny, .ron] ∧ (x.mod.visoUp = true → x.failSafe.ron.safe = true) := by
  unfold State.failSafe
  split
  · obtain ⟨hf, hs⟩ := State.frame_fieldSafeEnter { x with ron := { x.ron with ackSafe := true } } 6
    exact ⟨.trans (x.sameBut_ron _) hf, fun _ => hs⟩
  next h => exact ⟨x.sameBut_refl _, fun hv => absurd hv h⟩

/-! ### The power-fail sequence -/

/-- The ledger is frozen and no staged write goes on. -/
def State.failFrozen (s : State) : State := { s with line := { s.line with frozen := true }, stage := { s.stage with writing := [] } }

/-- The sequence's first half: the ledger is frozen, crucibles stop and SAFE reaches Ronyr (Table 21.7). -/
def State.failStopped (s : State) : State := s.failFrozen.hardStop.failSafe

/-- Its second half: the event, the open page and the sequence record are written. -/
def State.failRecorded (s : State) : State :=
  ((s.raiseJ E_PWR_FAIL {}).pageWrite).sequenceRecord (s.line.serialNext - 1)

/-- Its end: nothing runs on, and `PWR_FAIL_LAST` notes that there was work. -/
def State.failNoted (s : State) : State := ({ s with pwr := { s.pwr with failStop := true } } : State).setBit R.PWR_FAIL_LAST 4 true

theorem State.failSequence_idle (h : x.hasWork = false) : x.failSequence = x := by simp [State.failSequence, h]

theorem State.failSequence_work (h : x.hasWork = true) : x.failSequence = x.failStopped.failRecorded.failNoted := by
  rw [State.failSequence, if_neg (by simp [h]), State.failNoted, State.failRecorded, State.failStopped, State.failFrozen]

theorem State.frame_failNoted (x : State) : x.sameBut x.failNoted [.pwr, .regs] ∧ x.regsBut x.failNoted [R.PWR_FAIL_LAST] ∧
    x.failNoted.pwr = { x.pwr with failStop := true } ∧ x.failNoted.rd R.PWR_FAIL_LAST = putBits (x.rd R.PWR_FAIL_LAST) 4 1 1 % 2 ^ 32 :=
  ⟨x.sameBut_mix x.failNoted [.pwr, .regs], State.regsBut_setBit (State.regsBut_congr rfl _) (by simp), rfl, State.rd_wr_same _ _ _⟩

/-- Parts the power-fail sequence may change. -/
def failParts : List Part := [.rny, .stage, .ron, .fab, .pwr] ++ recordParts

theorem State.frame_failStopped (x : State) : x.sameBut x.failStopped [.line, .stage, .fab, .free, .rny, .ron] ∧
    x.failStopped.line.serialNext = x.line.serialNext ∧ (x.mod.visoUp = true → x.failStopped.ron.safe = true) := by
  have h1 : x.sameBut x.failFrozen [.line, .stage] := x.sameBut_mix x.failFrozen [.line, .stage]
  have h2 := x.failFrozen.frame_hardStop
  obtain ⟨h3, hs⟩ := x.failFrozen.hardStop.frame_failSafe
  have hline : x.failStopped.line = x.failFrozen.line := Eq.trans (h3.2 .line (by decide)) (h2.2 .line (by decide))
  have hmod : x.failFrozen.hardStop.mod = x.mod := h2.2 .mod (by decide)
  refine ⟨((h1.mono (by decide)).trans (h2.mono (by decide))).trans (h3.mono (by decide)), ?_, fun hv => hs ?_⟩
  · rw [hline]
    rfl
  · rw [hmod, hv]

theorem State.frame_failRecorded (x : State) : x.sameBut x.failRecorded recordParts ∧ x.regsBut x.failRecorded failRegs ∧
    ∃ r ∈ x.failRecorded.jrn.seqRecords, r.mark = x.line.serialNext - 1 := by
  obtain ⟨h1, r1⟩ := (x.records_raiseJ E_PWR_FAIL {} 0).trans (State.records_pageWrite _)
  obtain ⟨h2, r2, hm⟩ := State.frame_sequenceRecord (x.raiseJ E_PWR_FAIL {}).pageWrite (x.line.serialNext - 1)
  exact ⟨h1.trans h2, State.regsBut.trans (fun a ha => r1 a fun h => ha (List.mem_append_right _ h)) r2, hm⟩

/-- What the power-fail sequence keeps, whether or not the device has work. -/
theorem State.frame_failSequence (x : State) : x.sameBut x.failSequence failParts ∧
    x.regsBut x.failSequence (R.PWR_FAIL_LAST :: failRegs) ∧
    x.failSequence.pwr = { x.pwr with failStop := x.failSequence.pwr.failStop } := by
  by_cases h : x.hasWork = true
  · obtain ⟨hs, -, -⟩ := x.frame_failStopped
    obtain ⟨hr, rr, -⟩ := x.failStopped.frame_failRecorded
    obtain ⟨hn, rn, pn, -⟩ := x.failStopped.failRecorded.frame_failNoted
    have hpwr : x.failStopped.failRecorded.pwr = x.pwr := Eq.trans (hr.2 .pwr (by decide)) (hs.2 .pwr (by decide))
    have hregs : x.failStopped.regs = x.regs := hs.2 .regs (by decide)
    rw [State.failSequence_work h]
    refine ⟨((hs.mono (by decide)).trans (hr.mono (by decide))).trans (hn.mono (by decide)), fun a ha => ?_, by rw [pn, hpwr]⟩
    have ha' : a ∉ failRegs := fun hm => ha (List.mem_cons_of_mem _ hm)
    rw [rn a fun hm => ha (List.mem_singleton.mp hm ▸ List.mem_cons_self), rr a ha', State.rd_congr hregs]
  · rw [State.failSequence_idle (Bool.eq_false_of_not_eq_true h)]
    exact ⟨x.sameBut_refl _, x.regsBut_refl _, rfl⟩

/-- `PWR_FAIL_LAST` notes whether there was work to stop (Table 21.10). -/
theorem State.failLast_failSequence (x : State) (h : x.rd R.PWR_FAIL_LAST < 16) :
    x.failSequence.rd R.PWR_FAIL_LAST = x.rd R.PWR_FAIL_LAST + if x.hasWork then 16 else 0 := by
  by_cases hw : x.hasWork = true
  · obtain ⟨hs, -, -⟩ := x.frame_failStopped
    obtain ⟨-, rr, -⟩ := x.failStopped.frame_failRecorded
    obtain ⟨-, -, -, hn⟩ := x.failStopped.failRecorded.frame_failNoted
    have hput : ∀ v < 16, putBits v 4 1 1 % 2 ^ 32 = v + 16 := by decide
    rw [State.failSequence_work hw, hn, rr _ (by decide), State.rd_congr (hs.2 .regs (by decide)), hput _ h, hw]
    rfl
  · rw [State.failSequence_idle (Bool.eq_false_of_not_eq_true hw), Bool.eq_false_of_not_eq_true hw]
    rfl

/-- With work, the serial mark is recorded and Ronyr, where it is powered, goes to its field safe state (R475, R477). -/
theorem State.failSequence_saves (h : x.hasWork = true) :
    (∃ r ∈ x.failSequence.jrn.seqRecords, r.mark = x.line.serialNext - 1) ∧
      (x.mod.visoUp = true → x.failSequence.ron.safe = true) := by
  obtain ⟨-, hnext, hsafe⟩ := x.frame_failStopped
  obtain ⟨hr, -, hm⟩ := x.failStopped.frame_failRecorded
  obtain ⟨hn, -⟩ := x.failStopped.failRecorded.frame_failNoted
  rw [hnext] at hm
  rw [State.failSequence_work h, show x.failStopped.failRecorded.failNoted.jrn = _ from hn.2 .jrn (by decide),
    show x.failStopped.failRecorded.failNoted.ron = _ from hn.2 .ron (by decide),
    show x.failStopped.failRecorded.ron = _ from hr.2 .ron (by decide)]
  exact ⟨hm, hsafe⟩

/-! ### Resets of Cuette -/

theorem State.rd_cuetteReset (x : State) (c : Nat) :
    (x.cuetteReset c).rd R.GLB_BOOT_COUNT = x.rd R.GLB_BOOT_COUNT ∧ (x.cuetteReset c).rd R.PWR_FAIL_LAST = x.rd R.PWR_FAIL_LAST := by
  have hregs : (x.cuetteReset c).regs = ((((({ x with regs := [] } : State)).wr R.GLB_BOOT_COUNT (x.rd R.GLB_BOOT_COUNT)).wr
      R.PWR_FAIL_LAST (x.rd R.PWR_FAIL_LAST)).setFld R.TIM_STAT 3 1 (x.fld R.TIM_STAT 3 1)).regs := rfl
  constructor
  · rw [State.rd_congr hregs, State.rd_setFld_other _ _ _ _ (by decide), State.rd_wr_other _ _ (by decide), State.rd_wr_same]
    exact Nat.mod_eq_of_lt (x.rd_lt _)
  · rw [State.rd_congr hregs, State.rd_setFld_other _ _ _ _ (by decide), State.rd_wr_same]
    exact Nat.mod_eq_of_lt (x.rd_lt _)

/-- What every reset of Cuette leaves, and what of the state before it `s` it keeps (Table 21.8). -/
def State.resetFrom (s z : State) : Prop :=
  z.mod.held = true ∧ z.mod.pcieUp = false ∧ z.boot.started = false ∧ z.boot.restored = false ∧ z.boot.factoryNow = false ∧
    z.line = {} ∧ z.fab = {} ∧ z.sch = {} ∧ z.intk = {} ∧ z.permits = {} ∧ z.host = { msix := z.host.msix } ∧
    z.stage = { records := z.stage.records } ∧ z.sec.owner = s.sec.owner ∧ (∀ b ∈ z.sec.bundles, b.loaded = false) ∧
    z.pending = s.pending

theorem State.resetFrom_cuetteReset {s : State} (c : Nat) (hs : x.sec = s.sec) (hp : x.pending = s.pending) :
    s.resetFrom (x.cuetteReset c) := by
  refine ⟨rfl, rfl, rfl, rfl, rfl, rfl, rfl, rfl, rfl, rfl, rfl, rfl, hs ▸ rfl, fun b hb => ?_, hp⟩
  obtain ⟨d, -, rfl⟩ := List.mem_map.mp hb
  rfl

/-- The sequence is run and Cuette held: the module keeps its rails, the fail register shows source and work. -/
theorem State.failAndHold_keeps (x : State) (src c : Nat) (hsrc : src < 15) :
    (x.failAndHold src c).mod = { x.mod with warnAt := x.now, held := true, pcieUp := false } ∧
    (x.failAndHold src c).boot.nextCause = c ∧
    (x.failAndHold src c).pwr.s2Motion = x.pwr.s2Motion ∧ (x.failAndHold src c).now = x.now ∧
    x.resetFrom (x.failAndHold src c) ∧ (x.failAndHold src c).rd R.GLB_BOOT_COUNT = x.rd R.GLB_BOOT_COUNT ∧
    (x.failAndHold src c).rd R.PWR_FAIL_LAST = (if src = 0 then 0 else 1 + src) + (if x.hasWork then 16 else 0) ∧
    (x.hasWork = true → (∃ r ∈ (x.failAndHold src c).jrn.seqRecords, r.mark = x.line.serialNext - 1) ∧
      (x.mod.visoUp = true → (x.failAndHold src c).ron.safe = true)) := by
  obtain ⟨hf, hr, hp⟩ := (x.noteFail src).frame_failSequence
  have hphase : (x.noteFail src).phase = x.phase := State.fld_wr_other _ _ _ _ (by decide)
  have hwork : (x.noteFail src).hasWork = x.hasWork := by simp only [State.hasWork, hphase]; rfl
  have hlast : (x.noteFail src).rd R.PWR_FAIL_LAST = if src = 0 then 0 else 1 + src := by
    refine (State.rd_wr_same _ _ _).trans (Nat.mod_eq_of_lt ?_)
    split <;> omega
  have hmod : (x.noteFail src).failSequence.mod = { x.mod with warnAt := x.now } := hf.2 .mod (by decide)
  refine ⟨?_, rfl, ?_, hf.1, State.resetFrom_cuetteReset c (hf.2 .sec (by decide)) (hf.2 .pending (by decide)), ?_, ?_, fun hw => ?_⟩
  · rw [show (x.failAndHold src c).mod = { (x.noteFail src).failSequence.mod with held := true, pcieUp := false } from rfl, hmod]
  · rw [show (x.failAndHold src c).pwr.s2Motion = (x.noteFail src).failSequence.pwr.s2Motion from rfl, hp]
    rfl
  · refine ((State.rd_cuetteReset _ c).1.trans (hr _ (by decide))).trans ?_
    exact State.rd_wr_other _ _ (by decide)
  · refine (State.rd_cuetteReset _ c).2.trans ?_
    rw [State.failLast_failSequence _ (by rw [hlast]; split <;> omega), hlast, hwork]
  · exact State.failSequence_saves (hwork.trans hw)

/-- Without its supply Ronyr stands in its power-up state, which is the field safe state (R390). -/
theorem State.ron_visoLoss (x : State) : x.visoLoss.ron.safe = true ∧ x.visoLoss.ron.fires = [] := ⟨rfl, rfl⟩

/-- No output is energised in the field safe state (R394). -/
theorem State.dq_pinsOf_safe (h : x.ron.safe = true) : x.pinsOf.dq = 0 := by
  have hd : x.driven = fun _ => false := funext fun k => x.driven_safe h k
  rw [show x.pinsOf.dq = bits16 x.driven from rfl, hd]
  rfl

theorem State.frame_timeLost (x : State) : x.sameBut x.timeLost [.tim, .regs] ∧ x.regsBut x.timeLost [R.TIM_STAT] ∧
    x.timeLost.bit R.TIM_STAT 3 = false :=
  ⟨x.sameBut_mix x.timeLost [.tim, .regs], State.regsBut_setBit (State.regsBut_congr rfl _) (by simp),
    State.bit_setBit_same _ _ _ _ (by decide)⟩

end Sys2Proof.Machine
end

section
/-! PROOF. The conditions of self-test (R58) and entry to the safe state with nothing to fault (R471). -/

namespace Sys2Proof.Machine

variable {x y z : State} {l : List Part}

/-! ### Conditions of self-test -/

/-- Registers that discarding a run of self-test may change. -/
def discardRegs : List Nat := [R.GLB_BOOT_STATUS, R.GLB_BIST_SUMMARY, R.PWR_CLK] ++ traceRegs

/-- A run of self-test is marked as discarded: phase 2, the summary's mark, and the conditions due in 100 ms. -/
def State.discarded (s : State) : State :=
  { (s.setPhase 2).setBit R.GLB_BIST_SUMMARY 1 true with
    boot := { ((s.setPhase 2).setBit R.GLB_BIST_SUMMARY 1 true).boot with
      condNext := ((s.setPhase 2).setBit R.GLB_BIST_SUMMARY 1 true).now + 100 * ms } }

theorem State.regs_discarded (x : State) : x.discarded.regs = ((x.setPhase 2).setBit R.GLB_BIST_SUMMARY 1 true).regs := rfl

theorem State.frame_discarded (x : State) : x.sameBut x.discarded [.regs, .boot, .host] ∧
    x.discarded.boot = { x.boot with condNext := x.now + 100000000 } := by
  have hs : x.sameBut ((x.setPhase 2).setBit R.GLB_BIST_SUMMARY 1 true) [.regs, .host] := by simp
  have hb := State.sameBut_mix ((x.setPhase 2).setBit R.GLB_BIST_SUMMARY 1 true) x.discarded [.boot]
  have hboot : ((x.setPhase 2).setBit R.GLB_BIST_SUMMARY 1 true).boot = x.boot := hs.2 .boot (by decide)
  refine ⟨(hs.mono (by decide)).trans (.mono (l := [.boot]) hb (by decide)), ?_⟩
  rw [State.discarded, hboot, hs.1]
  rfl

/-- A discarded run shows phase 2 and the summary's mark, and the conditions are due in 100 ms (R58). -/
theorem State.frame_condDiscard (x : State) : x.sameBut x.condDiscard [.regs, .boot, .host, .dbg] ∧ x.condDiscard.phase = 2 ∧
    x.condDiscard.bit R.GLB_BIST_SUMMARY 1 = true ∧ x.condDiscard.boot = { x.boot with condNext := x.now + 100000000 } ∧
    x.regsBut x.condDiscard discardRegs := by
  obtain ⟨hf, hboot⟩ := x.frame_discarded
  have hclk : x.discarded.sameBut x.condDiscard [.regs, .dbg] := (State.sameBut_clkUpdate fun _ h => h).mpr (x.discarded.sameBut_refl _)
  have hreg : x.discarded.regsBut x.condDiscard (R.PWR_CLK :: traceRegs) := State.regsBut_clkUpdate _
  refine ⟨(hf.mono (by decide)).trans (hclk.mono (by decide)), ?_, ?_, Eq.trans (hclk.2 .boot (by decide)) hboot, fun a ha => ?_⟩
  · rw [State.phase, hreg.fld (by decide), State.fld_congr x.regs_discarded, State.fld_setBit_apart _ (by decide)]
    exact State.phase_setPhase _ (by decide)
  · rw [hreg.bit (by decide), State.bit_congr x.regs_discarded, State.bit_setBit_same _ _ _ _ (by decide)]
  · have hout : a ≠ R.GLB_BOOT_STATUS ∧ a ≠ R.GLB_BIST_SUMMARY ∧ a ∉ R.PWR_CLK :: traceRegs := by
      simpa [discardRegs] using ha
    rw [hreg a hout.2.2, State.rd_congr x.regs_discarded, State.rd_setBit_other _ hout.2.1, State.rd_setPhase _ _ hout.1]

/-- Outside self-test, or with the conditions met, monitoring them does nothing. -/
theorem State.condMonitor_calm (h : x.running = false ∨ x.phase ≠ 3 ∨ x.condNow = true) : x.condMonitor = x := by
  unfold State.condMonitor
  obtain h | h | h := h <;> simp [h]

theorem State.condMonitor_fails (hr : x.running = true) (h3 : x.phase = 3) (hc : x.condNow = false) : x.condMonitor = x.condDiscard := by
  simp [State.condMonitor, hr, h3, hc]

/-- What monitoring the conditions may change. -/
theorem State.sameBut_condMonitor (x : State) : x.sameBut x.condMonitor [.regs, .boot, .host, .dbg] := by
  unfold State.condMonitor
  split
  · exact x.frame_condDiscard.1
  · exact x.sameBut_refl _

theorem State.regsBut_condMonitor (x : State) : x.regsBut x.condMonitor discardRegs := by
  unfold State.condMonitor
  split
  · exact x.frame_condDiscard.2.2.2.2
  · exact x.regsBut_refl _

theorem vinGood_iff (v : Nat) : vinGood v = true ↔ 10800 ≤ v ∧ v ≤ 13200 := by simp [vinGood]

/-- What the module's monitor notes of VIN (R34, R35). -/
theorem State.mod_noteVin (x : State) (v : Nat) : (x.noteVin v).mod =
    { x.mod with vinMv := v, badAt := if 10800 ≤ v ∧ v ≤ 13200 then x.mod.badAt else x.now } := by
  simp [State.noteVin, vinGood_iff]

theorem State.sameBut_noteVin (x : State) (v : Nat) : x.sameBut (x.noteVin v) [.mod] := x.sameBut_mix (x.noteVin v) [.mod]

/-! ### Entry to the safe state -/

/-- `PWR_SAFE_STAT` as entry for cause `c` latches it: the cause, the state in force and one more entry. -/
def State.safeLatched (s : State) (c : Nat) : State :=
  ((s.setBit R.PWR_SAFE_STAT (4 + c) true).setBit R.PWR_SAFE_STAT 0 true).incSat R.PWR_SAFE_STAT 16 16

/-- SAFE goes to Ronyr. -/
def State.safeSend (s : State) : State :=
  { s with line := { s.line with tx := s.line.tx ++ [.safe], safeSent := some s.now, safeAcked := false } }

theorem State.safeEnter_first {c : Nat} (hr : x.running = true) (hs : x.safe = false) :
    x.safeEnter c = (x.safeLatched c).safeLine.safeStop c := by
  unfold State.safeEnter
  rw [if_neg (by simp [hr]), hs]
  rfl

theorem State.safeEnter_again {c : Nat} (hr : x.running = true) (hs : x.safe = true) :
    x.safeEnter c = (x.setBit R.PWR_SAFE_STAT (4 + c) true).safeStop c := by
  unfold State.safeEnter
  rw [if_neg (by simp [hr]), hs]
  rfl

theorem State.safeLatched_shows (x : State) {c : Nat} (hc : c < 9) : (x.safeLatched c).safe = true ∧
    (x.safeLatched c).bit R.PWR_SAFE_STAT (4 + c) = true := by
  constructor
  · exact (State.bit_incSat_apart _ (by decide)).trans (State.bit_setBit_same _ _ _ _ (by decide))
  · refine (State.bit_incSat_apart _ ⟨by omega, by omega⟩).trans ?_
    exact (State.bit_setBit_apart _ ⟨by omega, by omega⟩).trans (State.bit_setBit_same _ _ _ _ (by omega))

theorem State.sameBut_safeLatched (x : State) (c : Nat) : x.sameBut (x.safeLatched c) [.regs] := by
  simp [State.safeLatched]

theorem State.hardStop_nil (h : x.fab.crus = []) : x.hardStop = x := by simp [State.hardStop, h]

theorem State.faultPours_nil {c : Nat} (h : x.sch.pours = []) : x.faultPours c = x := by
  simp [State.faultPours, State.faultPoursOf, h]

theorem State.faultOpenPieces_nil {c : Nat} (h : x.line.ledger = []) : x.faultOpenPieces c = x := by
  simp [State.faultOpenPieces, h]

/-- The event of entry, with the causes latched. -/
def State.safeRaise (s : State) : State := s.raise E_SAFE_STATE { w3 := some (s.fld R.PWR_SAFE_STAT 4 9) }

theorem State.safeLine_eq (x : State) : x.safeLine = x.safeSend.safeRaise.faultOpenPieces E_SAFE_STATE := rfl

/-- With no piece open, the line sees SAFE sent and the event of the latched causes. -/
theorem State.frame_safeLine (x : State) (h : x.line.ledger = []) : x.sameBut x.safeLine (.line :: raiseParts) ∧
    x.regsBut x.safeLine raiseRegs ∧ x.safeLine.line = x.safeSend.line := by
  have hf : x.safeSend.sameBut x.safeSend.safeRaise raiseParts := (State.raisedFrom_raise _ _ _ _).sameBut fun _ h => h
  have hreg : x.safeSend.regsBut x.safeSend.safeRaise raiseRegs := State.regsBut_raise _ _ _ _
  have hline : x.safeSend.safeRaise.line = x.safeSend.line := hf.2 .line (by decide)
  have hsend : x.sameBut x.safeSend [.line] := x.sameBut_mix x.safeSend [.line]
  rw [State.safeLine_eq, State.faultOpenPieces_nil (by rw [hline]; exact h)]
  exact ⟨(hsend.mono (by decide)).trans (hf.mono (by decide)), State.regsBut.trans (State.regsBut_congr rfl _) hreg, hline⟩

/-- Entry with no piece open, for a cause that stops no crucible. -/
theorem State.frame_safeEnter (hl : x.line.ledger = []) {c : Nat} (hc : c < 9) :
    x.sameBut (x.safeLatched c).safeLine (.line :: raiseParts) ∧ (x.safeLatched c).safeLine.safe = true ∧
      (x.safeLatched c).safeLine.bit R.PWR_SAFE_STAT (4 + c) = true ∧
      (x.safeLatched c).safeLine.line.tx = x.line.tx ++ [.safe] := by
  have hline : (x.safeLatched c).line = x.line := (x.sameBut_safeLatched c).2 .line (by decide)
  obtain ⟨hf, hreg, ht⟩ := (x.safeLatched c).frame_safeLine (by rw [hline, hl])
  obtain ⟨h0, h1⟩ := x.safeLatched_shows hc
  refine ⟨((x.sameBut_safeLatched c).mono (by decide)).trans hf, (hreg.bit (by decide)).trans h0, (hreg.bit (by decide)).trans h1, ?_⟩
  rw [ht, show (x.safeLatched c).safeSend.line.tx = (x.safeLatched c).line.tx ++ [.safe] from rfl, hline]

/-- A safe state entered drives `MSMB_ALERT#` low (R467). -/
theorem State.alert_settle_safe (h : x.safe = true) : x.settle.pins.msmbAlertLow = true := by
  rw [show x.settle.pins.msmbAlertLow = (x.pwr.alert || x.alertCause) from rfl, State.alertCause, h]
  simp

end Sys2Proof.Machine
end

section
/-! PROOF. Clock steps and the thermal safe state (R24, R465, R471). -/

namespace Sys2Proof.Machine

variable {s x : State} {t : Nat}

theorem exec_thermalThrottleStep (s : State) (t : Nat) : exec (.thermalThrottleStep t) s =
    if (s.at' t).running && (s.at' t).pmcUp then done (s.at' t).throttleStep else done (s.at' t) := rfl

theorem State.pmcUp_at' (s : State) (t : Nat) : (s.at' t).pmcUp = s.pmcUp := by
  rw [State.pmcUp, State.pmcUp, State.fwState, State.fwState, State.fld_at']

theorem State.phase_at' (s : State) (t : Nat) : (s.at' t).phase = s.phase := State.fld_at' _ _ _ _ _

theorem State.safe_at' (s : State) (t : Nat) : (s.at' t).safe = s.safe := State.bit_at' _ _ _ _

/-- R465: the thermal source and the guard step, and the slowest step requested is in force. -/
theorem throttleStep_gives (hr : s.running = true) (hp : s.pmcUp = true) :
    s.gives (.thermalThrottleStep t) (.pwr :: raiseParts) fun s' =>
      (169 ≤ s.pwr.junction → s'.pwr.throttling = true ∧ s'.pins.thermAlertLow = true ∧ s'.fld R.PWR_CLK 4 3 =
        if s.pwr.thermAt + 1000000 ≤ max s.now t ∧ s.fld R.PWR_CLK 4 3 < 6 then s.fld R.PWR_CLK 4 3 + 1 else s.fld R.PWR_CLK 4 3) ∧
      (s.pwr.junction < 164 → s'.pwr.throttling = false ∧ s'.pins.thermAlertLow = false ∧ s'.fld R.PWR_CLK 4 3 =
        if s.pwr.thermAt + 10000000 ≤ max s.now t ∧ 0 < s.fld R.PWR_CLK 4 3 then s.fld R.PWR_CLK 4 3 - 1 else s.fld R.PWR_CLK 4 3) ∧
      (164 ≤ s.pwr.junction → s.pwr.junction < 169 → s'.pwr.throttling = s.pwr.throttling ∧
        s'.fld R.PWR_CLK 4 3 = s.fld R.PWR_CLK 4 3) ∧
      (1500 < s.pwr.power → s'.fld R.PWR_CLK 8 3 =
        if s.pwr.guardAt + 1000000 ≤ max s.now t ∧ s.fld R.PWR_CLK 8 3 < 6 then s.fld R.PWR_CLK 8 3 + 1 else s.fld R.PWR_CLK 8 3) ∧
      (s.pwr.power ≤ 1450 → s'.fld R.PWR_CLK 8 3 =
        if s.pwr.guardAt + 10000000 ≤ max s.now t ∧ 0 < s.fld R.PWR_CLK 8 3 then s.fld R.PWR_CLK 8 3 - 1 else s.fld R.PWR_CLK 8 3) ∧
      (1450 < s.pwr.power → s.pwr.power ≤ 1500 → s'.fld R.PWR_CLK 8 3 = s.fld R.PWR_CLK 8 3) ∧
      (s.mod.serrefOk = true → s.phase ≠ 3 → s'.fld R.PWR_CLK 0 3 =
        max (s.fld R.PWR_CLK_CAP 0 3) (max (s'.fld R.PWR_CLK 4 3) (s'.fld R.PWR_CLK 8 3))) := by
  refine State.gives_of_done t ((exec_thermalThrottleStep s t).trans (if_pos (by rw [State.running_at', State.pmcUp_at', hr, hp]; rfl)))
    (s.at' t).sameBut_throttleStep ?_
  have hpwr : (s.at' t).pwr = s.pwr := by simp
  have hnow : (s.at' t).now = max s.now t := by simp
  have hfld : ∀ a lo w, (s.at' t).fld a lo w = s.fld a lo w := by simp
  obtain ⟨⟨tn, -⟩, -, tc, tp⟩ := (s.at' t).thermMoves_thermStep
  have hguard : (s.at' t).thermStep.fld R.PWR_CLK 8 3 = s.fld R.PWR_CLK 8 3 := (tc 8 3 (by decide)).trans (hfld _ _ _)
  have hthr : (s.at' t).throttleStep.settle.pwr.throttling = (s.at' t).thermStep.pwr.throttling := State.throttling_throttleStep _
  have hpin : (s.at' t).throttleStep.settle.pins.thermAlertLow = (s.at' t).thermStep.pwr.throttling := State.throttling_throttleStep _
  have hpow : (s.at' t).thermStep.pwr.power = s.pwr.power ∧ (s.at' t).thermStep.pwr.guardAt = s.pwr.guardAt := by
    rw [tp, hpwr]
    exact ⟨rfl, rfl⟩
  rw [hthr, hpin, State.fld_settle, State.fld_settle, State.fld_settle, State.fld_throttleStep_therm, State.fld_throttleStep_guard]
  refine ⟨fun h => ?_, fun h => ?_, fun h h' => ?_, fun h => ?_, fun h => ?_, fun h h' => ?_, fun hs h3 => ?_⟩
  · obtain ⟨h1, h2⟩ := State.thermStep_hot_shows (x := s.at' t) (by rwa [hpwr])
    rw [h1, h2, hpwr, hnow, hfld]
    exact ⟨rfl, rfl, rfl⟩
  · obtain ⟨h1, h2⟩ := State.thermStep_cool_shows (x := s.at' t) (by rwa [hpwr])
    rw [h1, h2, hpwr, hnow, hfld]
    exact ⟨rfl, rfl, rfl⟩
  · rw [State.thermStep_between (x := s.at' t) (by rwa [hpwr]) (by rwa [hpwr]), hpwr, hfld]
    exact ⟨rfl, rfl⟩
  · rw [State.fld_guardStep_above (by rwa [hpow.1]), hguard, hpow.2, tn, hnow]
  · rw [State.fld_guardStep_below (by rwa [hpow.1]), hguard, hpow.2, tn, hnow]
  · rw [State.guardStep_between (by rwa [hpow.1]) (by rwa [hpow.1]), hguard]
  · rw [State.fld_throttleStep_step (by rw [State.pmcUp_at', hp]) (by simpa using hs) (by rwa [State.phase_at']), hfld,
      State.fld_throttleStep_therm, State.fld_throttleStep_guard]

theorem throttleStep_givesNothing (h : s.running = false ∨ s.pmcUp = false) : s.givesNothing (.thermalThrottleStep t) := by
  refine State.givesNothing_of_done t ((exec_thermalThrottleStep s t).trans (if_neg ?_))
  rw [State.running_at', State.pmcUp_at']
  obtain h | h := h <;> simp [h]

/-! ### The thermal safe state -/

/-- The junction is measured, and its cause stands as `hot` says. -/
def State.junctionIs (s : State) (j : Nat) (hot : Bool) : State := { s with pwr := { s.pwr with junction := j, hot := hot } }

theorem State.sameBut_junctionIs (x : State) (j : Nat) (b : Bool) : x.sameBut (x.junctionIs j b) [.pwr] :=
  x.sameBut_mix (x.junctionIs j b) [.pwr]

theorem exec_thermalSafe_hot {j : BitVec 8} (h : 179 ≤ j.toNat) : exec (.thermalSafe t j) s =
    if ((s.at' t).junctionIs j.toNat true).running ∧ ((s.at' t).pwr.hot && (s.at' t).bit R.PWR_SAFE_STAT 5) = false then
      done ((((s.at' t).junctionIs j.toNat true).raise E_THERMAL_SAFE {}).safeEnter 1)
    else done ((s.at' t).junctionIs j.toNat true) := by
  show execThermalSafe t j s = _
  rw [execThermalSafe, if_pos h]
  rfl

theorem exec_thermalSafe_cool {j : BitVec 8} (h : j.toNat < 164) :
    exec (.thermalSafe t j) s = done ((s.at' t).junctionIs j.toNat false) := by
  show execThermalSafe t j s = _
  rw [execThermalSafe, if_neg (by omega), if_pos h]
  rfl

theorem exec_thermalSafe_between {j : BitVec 8} (h : 164 ≤ j.toNat) (h' : j.toNat < 179) :
    exec (.thermalSafe t j) s = done ((s.at' t).junctionIs j.toNat (s.at' t).pwr.hot) := by
  show execThermalSafe t j s = _
  rw [execThermalSafe, if_neg (by omega), if_neg (by omega)]
  rfl

theorem State.running_junctionIs (x : State) (j : Nat) (b : Bool) : (x.junctionIs j b).running = x.running := rfl

theorem State.pwr_junctionIs (x : State) (j : Nat) (b : Bool) : (x.junctionIs j b).pwr = { x.pwr with junction := j, hot := b } := rfl

theorem State.settle_pwr_junctionIs (x : State) (j : Nat) (b : Bool) :
    (x.junctionIs j b).settle.pwr.junction = j ∧ (x.junctionIs j b).settle.pwr.hot = b := ⟨rfl, rfl⟩

/-- Every crucible is stopped. -/
def State.stopCrucibles (s : State) : State := { s with pwr := { s.pwr with crucibleStop := true } }

theorem State.sameBut_stopCrucibles (x : State) : x.sameBut x.stopCrucibles [.pwr] := x.sameBut_mix x.stopCrucibles [.pwr]

theorem State.bit_stopCrucibles (x : State) (a i : Nat) : x.stopCrucibles.bit a i = x.bit a i := State.bit_congr rfl a i

theorem State.settle_pwr_stopCrucibles (x : State) : x.stopCrucibles.settle.pwr.junction = x.pwr.junction ∧
    x.stopCrucibles.settle.pwr.hot = x.pwr.hot ∧ x.stopCrucibles.settle.pwr.crucibleStop = true := ⟨rfl, rfl, rfl⟩

/-- With nothing to fault, causes 0, 1 and 3 stop the crucibles alone. -/
theorem State.safeStop_idle {c : Nat} (hc : c = 0 ∨ c = 1 ∨ c = 3) (hf : x.fab.crus = []) (hp : x.sch.pours = []) :
    x.safeStop c = x.stopCrucibles := by
  rw [State.safeStop, if_pos hc]
  exact (congrArg (State.faultPours · E_SAFE_STATE) (State.hardStop_nil (x := x.stopCrucibles) hf)).trans (State.faultPours_nil hp)

/-- R24: at 115 °C the device enters its safe state with cause 1. -/
theorem thermalSafe_enters {j : BitVec 8} (h : 179 ≤ j.toNat) (hr : s.running = true)
    (hot : (s.pwr.hot && s.bit R.PWR_SAFE_STAT 5) = false) (hs : s.safe = false) (hl : s.line.ledger = []) (hp : s.sch.pours = [])
    (hf : s.fab.crus = []) : s.gives (.thermalSafe t j) ([.pwr, .line] ++ raiseParts) fun s' =>
      s'.pwr.junction = j.toNat ∧ s'.pwr.hot = true ∧ s'.safe = true ∧ s'.bit R.PWR_SAFE_STAT 5 = true ∧ s'.pwr.crucibleStop = true := by
  have hrun : ((s.at' t).junctionIs j.toNat true).running = true :=
    (State.running_junctionIs _ _ _).trans ((s.running_at' t).trans hr)
  have hraise := State.raisedFrom_raise ((s.at' t).junctionIs j.toNat true) E_THERMAL_SAFE {} 0
  have hreg := State.regsBut_raise ((s.at' t).junctionIs j.toNat true) E_THERMAL_SAFE {} 0
  have hexec := (exec_thermalSafe_hot (s := s) (t := t) h).trans (if_pos ⟨hrun, by simpa using hot⟩)
  generalize ((s.at' t).junctionIs j.toNat true).raise E_THERMAL_SAFE {} = w at hraise hreg hexec
  have hfr : (s.at' t).sameBut w (.pwr :: raiseParts) :=
    (((s.at' t).sameBut_junctionIs j.toNat true).mono (by decide)).trans (hraise.sameBut (by decide))
  have hwp : w.pwr = { s.pwr with junction := j.toNat, hot := true } := by
    rw [hraise, ← s.at'_pwr t, ← State.pwr_junctionIs]
  have hwr : w.running = true := by
    rw [State.running, hraise]
    exact hrun
  have hws : w.safe = false := (hreg.bit (by decide)).trans ((s.safe_at' t).trans hs)
  obtain ⟨hframe, h0, h1, -⟩ := State.frame_safeEnter (x := w) (c := 1) (by
    rw [show w.line = (s.at' t).line from hfr.2 .line (by decide), State.at'_line, hl]) (by decide)
  have hfab : (w.safeLatched 1).safeLine.fab = s.fab := by
    rw [show (w.safeLatched 1).safeLine.fab = w.fab from hframe.2 .fab (by decide), show w.fab = (s.at' t).fab from hfr.2 .fab (by decide),
      State.at'_fab]
  have hsch : (w.safeLatched 1).safeLine.sch = s.sch := by
    rw [show (w.safeLatched 1).safeLine.sch = w.sch from hframe.2 .sch (by decide), show w.sch = (s.at' t).sch from hfr.2 .sch (by decide),
      State.at'_sch]
  have hpwr : (w.safeLatched 1).safeLine.pwr = w.pwr := hframe.2 .pwr (by decide)
  rw [State.safeEnter_first hwr hws, State.safeStop_idle (.inr (.inl rfl)) (by rw [hfab, hf]) (by rw [hsch, hp])] at hexec
  obtain ⟨hj, hh, hstop⟩ := State.settle_pwr_stopCrucibles (w.safeLatched 1).safeLine
  refine State.gives_of_done t hexec (((hfr.mono (by decide)).trans (hframe.mono (by decide))).trans
    ((State.sameBut_stopCrucibles _).mono (by decide))) ⟨by rw [hj, hpwr, hwp], by rw [hh, hpwr, hwp], ?_, ?_, hstop⟩
  · rw [State.safe, State.bit_settle, State.bit_stopCrucibles]
    exact h0
  · rw [State.bit_settle, State.bit_stopCrucibles]
    exact h1

theorem thermalSafe_hot {j : BitVec 8} (h : 179 ≤ j.toNat) (hc : s.running = false ∨ (s.pwr.hot = true ∧ s.bit R.PWR_SAFE_STAT 5 = true)) :
    s.gives (.thermalSafe t j) [.pwr] fun s' => s'.pwr.junction = j.toNat ∧ s'.pwr.hot = true := by
  refine State.gives_of_done t ((exec_thermalSafe_hot h).trans (if_neg ?_)) ((s.at' t).sameBut_junctionIs _ _)
    (State.settle_pwr_junctionIs _ _ _)
  rw [State.running_junctionIs, State.running_at', State.at'_pwr, State.bit_at']
  obtain h | ⟨h, h'⟩ := hc <;> simp [*]

theorem thermalSafe_cool {j : BitVec 8} (h : j.toNat < 164) :
    s.gives (.thermalSafe t j) [.pwr] fun s' => s'.pwr.junction = j.toNat ∧ s'.pwr.hot = false :=
  State.gives_of_done t (exec_thermalSafe_cool h) ((s.at' t).sameBut_junctionIs _ _) (State.settle_pwr_junctionIs _ _ _)

theorem thermalSafe_between {j : BitVec 8} (h : 164 ≤ j.toNat) (h' : j.toNat < 179) :
    s.gives (.thermalSafe t j) [.pwr] fun s' => s'.pwr.junction = j.toNat ∧ s'.pwr.hot = s.pwr.hot :=
  State.gives_of_done t (exec_thermalSafe_between h h') ((s.at' t).sameBut_junctionIs _ _)
    (s.at'_pwr t ▸ State.settle_pwr_junctionIs (s.at' t) j.toNat (s.at' t).pwr.hot)

end Sys2Proof.Machine
end

section
/-! PROOF. Telemetry and what it shows (R467), with the conditions of self-test watched meanwhile. -/

namespace Sys2Proof.Machine

variable {s x y : State} {t : Nat}

/-- The powers of the last second, with that of the sample `m` (R478). -/
def State.powersWith (s : State) (m : Telemetry) : List (Nat × Nat) :=
  s.pwr.powers.filter (fun e => decide (s.now < e.1 + 1000 * ms)) ++ [(s.now, m.power.toNat)]

/-- PMC, or the always-on domain in S2, has measured. -/
def State.measured (s : State) (m : Telemetry) : State :=
  (({ s with
    mod := { s.mod with vinMv := m.vinMv.toNat }
    pwr := { s.pwr with
      junction := m.junction.toNat, board := m.board.toNat, rnyJunction := m.rnyJunction.toNat, current := m.current.toNat
      power := m.power.toNat
      powers := s.powersWith m
      hot := s.pwr.hot && !decide (m.junction.toNat < 164) } } : State).noteVin m.vinMv.toNat).setRfld R.RNY_SUPPLY 16 8
        m.rnyJunction.toNat

/-- The peak of the last second's powers. -/
def peakOf (ps : List (Nat × Nat)) : Nat := ps.foldl (fun a e => max a e.2) 0

/-- The `PWR_` registers show what was measured. -/
def State.telemShown (s : State) (m : Telemetry) (ps : List (Nat × Nat)) : State :=
  (((s.setFld R.PWR_THERM 0 8 m.junction.toNat).setFld R.PWR_THERM 8 8 m.board.toNat).wr R.PWR_VIN
    (m.vinMv.toNat + m.current.toNat * 65536)).wr R.PWR_POWER (m.power.toNat + peakOf ps * 65536)

theorem exec_telemetrySample (s : State) (t : Nat) (m : Telemetry) : exec (.telemetrySample t m) s =
    if !(((s.at' t).running && (s.at' t).pmcUp) || decide ((s.at' t).pwr.state = 2)) then done (s.at' t)
    else if (s.at' t).pwr.state = 2 then done ((s.at' t).measured m)
    else done (((s.at' t).measured m).telemShown m ((s.at' t).powersWith m)).condMonitor := rfl

theorem State.powersWith_at' (s : State) (t : Nat) (m : Telemetry) : (s.at' t).powersWith m =
    s.pwr.powers.filter (fun e => decide (max s.now t < e.1 + 1000000000)) ++ [(max s.now t, m.power.toNat)] := by
  rw [State.powersWith, State.now_at', State.at'_pwr]
  rfl

theorem State.sameBut_modPwr (x : State) (d : Module) (p : Power) : x.sameBut { x with mod := d, pwr := p } [.mod, .pwr] :=
  x.sameBut_mix { x with mod := d, pwr := p } [.mod, .pwr]

theorem State.sameBut_measured (x : State) (m : Telemetry) : x.sameBut (x.measured m) [.mod, .pwr, .rny] := by
  rw [State.measured, State.sameBut_setRfld (by decide)]
  exact ((x.sameBut_modPwr _ _).mono (by decide)).trans ((State.sameBut_noteVin _ _).mono (by decide))

theorem State.regs_measured (x : State) (m : Telemetry) : (x.measured m).regs = x.regs := (x.sameBut_measured m).2 .regs (by decide)

/-- What a sample finds stands in the module and the power block. -/
theorem State.measured_finds (x : State) (m : Telemetry) :
    (x.measured m).mod = { x.mod with
      vinMv := m.vinMv.toNat, badAt := if 10800 ≤ m.vinMv.toNat ∧ m.vinMv.toNat ≤ 13200 then x.mod.badAt else x.now } ∧
    (x.measured m).pwr = { x.pwr with
      junction := m.junction.toNat, board := m.board.toNat, rnyJunction := m.rnyJunction.toNat, current := m.current.toNat
      power := m.power.toNat
      powers := x.powersWith m
      hot := x.pwr.hot && decide (164 ≤ m.junction.toNat) } ∧
    (x.measured m).rfld R.RNY_SUPPLY 16 8 = m.rnyJunction.toNat := by
  refine ⟨State.mod_noteVin _ _, ?_, ?_⟩
  · have hcool : ∀ j : Nat, decide (164 ≤ j) = !decide (j < 164) := fun j => by grind
    rw [hcool]
    rfl
  · exact (State.rfld_setRfld_same _ _ _ _ _ (by decide)).trans (Nat.mod_eq_of_lt m.rnyJunction.isLt)

theorem State.sameBut_telemShown (x : State) (m : Telemetry) (ps : List (Nat × Nat)) : x.sameBut (x.telemShown m ps) [.regs] := by
  simp [State.telemShown]

theorem State.regsBut_telemShown (x : State) (m : Telemetry) (ps : List (Nat × Nat)) :
    x.regsBut (x.telemShown m ps) [R.PWR_THERM, R.PWR_VIN, R.PWR_POWER] :=
  State.regsBut_wr (State.regsBut_wr (State.regsBut_setFld (State.regsBut_setFld (x.regsBut_refl _) (by simp)) (by simp)) (by simp))
    (by simp)

/-- The registers of telemetry show the sample `m` and the peak of the powers `ps` (R467, R478). -/
def State.showsTelemetry (s' : State) (m : Telemetry) (ps : List (Nat × Nat)) : Prop :=
  s'.fld R.PWR_THERM 0 8 = m.junction.toNat ∧ s'.fld R.PWR_THERM 8 8 = m.board.toNat ∧
    s'.rd R.PWR_VIN = m.vinMv.toNat + m.current.toNat * 65536 ∧
    s'.rd R.PWR_POWER = (m.power.toNat + peakOf ps * 65536) % 2 ^ 32

theorem State.telemShown_shows (x : State) (m : Telemetry) (ps : List (Nat × Nat)) : (x.telemShown m ps).showsTelemetry m ps := by
  have hv := m.vinMv.isLt
  have hc := m.current.isLt
  refine ⟨?_, ?_, ?_, State.rd_wr_same _ _ _⟩
  · rw [State.telemShown, State.fld_wr_other _ _ _ _ (by decide), State.fld_wr_other _ _ _ _ (by decide),
      State.fld_setFld_apart _ (by decide), State.fld_setFld_same _ _ _ _ _ (by decide), Nat.mod_eq_of_lt m.junction.isLt]
  · rw [State.telemShown, State.fld_wr_other _ _ _ _ (by decide), State.fld_wr_other _ _ _ _ (by decide),
      State.fld_setFld_same _ _ _ _ _ (by decide), Nat.mod_eq_of_lt m.board.isLt]
  · rw [State.telemShown, State.rd_wr_other _ _ (by decide), State.rd_wr_same, Nat.mod_eq_of_lt (by omega)]

/-- Registers of telemetry are none that a discarded run of self-test touches. -/
theorem State.showsTelemetry.of_regsBut {l : List Nat} {m : Telemetry} {ps : List (Nat × Nat)} (h : x.showsTelemetry m ps)
    (hr : x.regsBut y l) (hl : R.PWR_THERM ∉ l ∧ R.PWR_VIN ∉ l ∧ R.PWR_POWER ∉ l) : y.showsTelemetry m ps := by
  obtain ⟨h0, h1, h2, h3⟩ := h
  exact ⟨(hr.fld hl.1).trans h0, (hr.fld hl.1).trans h1, (hr _ hl.2.1).trans h2, (hr _ hl.2.2).trans h3⟩

/-- From `s` to `s'` the sample `m` has been taken at the instant `now` (R467). -/
def State.sampledFrom (s s' : State) (m : Telemetry) (now : Nat) : Prop :=
  s'.mod = { s.mod with
    vinMv := m.vinMv.toNat, badAt := if 10800 ≤ m.vinMv.toNat ∧ m.vinMv.toNat ≤ 13200 then s.mod.badAt else now } ∧
  s'.pwr.junction = m.junction.toNat ∧ s'.pwr.power = m.power.toNat ∧ s'.pwr.current = m.current.toNat ∧
  s'.pwr.board = m.board.toNat ∧ s'.pwr.rnyJunction = m.rnyJunction.toNat ∧
  s'.pwr.powers = s.pwr.powers.filter (fun e => decide (now < e.1 + 1000000000)) ++ [(now, m.power.toNat)] ∧
  s'.pwr.hot = (s.pwr.hot && decide (164 ≤ m.junction.toNat)) ∧ s'.rfld R.RNY_SUPPLY 16 8 = m.rnyJunction.toNat

/-- The sample stands at the end of the command, whatever else the command did outside the module, the power block and Ronyr. -/
theorem State.sampledFrom_settle {l : List Part} {m : Telemetry} (h : ((s.at' t).measured m).sameBut x l)
    (hl : .mod ∉ l ∧ .pwr ∉ l ∧ .rny ∉ l) : s.sampledFrom x.settle m (max s.now t) := by
  obtain ⟨hm, hp, hr⟩ := (s.at' t).measured_finds m
  rw [State.now_at', State.at'_mod] at hm
  rw [State.powersWith_at', State.at'_pwr] at hp
  have hpwr : x.pwr = ((s.at' t).measured m).pwr := h.2 .pwr hl.2.1
  have hrny : x.settle.rfld R.RNY_SUPPLY 16 8 = ((s.at' t).measured m).rfld R.RNY_SUPPLY 16 8 := by
    rw [State.rfld, State.rreg_settle, State.rfld, State.rreg, State.rreg, show x.rny = _ from h.2 .rny hl.2.2]
  have hset : x.settle.pwr.junction = x.pwr.junction ∧ x.settle.pwr.power = x.pwr.power ∧ x.settle.pwr.current = x.pwr.current ∧
      x.settle.pwr.board = x.pwr.board ∧ x.settle.pwr.rnyJunction = x.pwr.rnyJunction ∧ x.settle.pwr.powers = x.pwr.powers ∧
      x.settle.pwr.hot = x.pwr.hot := ⟨rfl, rfl, rfl, rfl, rfl, rfl, rfl⟩
  obtain ⟨e1, e2, e3, e4, e5, e6, e7⟩ := hset
  refine ⟨Eq.trans (h.2 .mod hl.1) hm, ?_⟩
  rw [e1, e2, e3, e4, e5, e6, e7, hpwr, hp, hrny, hr]
  exact ⟨rfl, rfl, rfl, rfl, rfl, rfl, rfl, rfl⟩

theorem telemetry_nothing {m : Telemetry} (h2 : s.pwr.state ≠ 2) (h : s.running = false ∨ s.pmcUp = false) :
    s.givesNothing (.telemetrySample t m) := by
  refine State.givesNothing_of_done t ((exec_telemetrySample s t m).trans (if_pos ?_))
  rw [State.running_at', State.pmcUp_at', State.at'_pwr]
  obtain h | h := h <;> simp [h, h2]

theorem telemetry_s2 {m : Telemetry} (h2 : s.pwr.state = 2) :
    s.gives (.telemetrySample t m) [.mod, .pwr, .rny] fun s' => s.sampledFrom s' m (max s.now t) := by
  have hz : (s.at' t).pwr.state = 2 := by rw [State.at'_pwr, h2]
  exact State.gives_of_done t ((exec_telemetrySample s t m).trans ((if_neg (by rw [hz]; simp)).trans (if_pos hz)))
    ((s.at' t).sameBut_measured m) (State.sampledFrom_settle (State.sameBut_refl _ []) (by decide))

/-- The state a sample of PMC's ends in before the conditions are looked at. -/
theorem exec_telemetry_pmc {m : Telemetry} (hr : s.running = true) (hp : s.pmcUp = true) (h2 : s.pwr.state ≠ 2) :
    exec (.telemetrySample t m) s =
      done (((s.at' t).measured m).telemShown m ((s.at' t).powersWith m)).condMonitor := by
  have hz : (s.at' t).pwr.state ≠ 2 := by rwa [State.at'_pwr]
  refine (exec_telemetrySample s t m).trans ((if_neg ?_).trans (if_neg hz))
  rw [State.running_at', State.pmcUp_at', hr, hp]
  simp

theorem phase_telemShown (s : State) (t : Nat) (m : Telemetry) (ps : List (Nat × Nat)) :
    (((s.at' t).measured m).telemShown m ps).phase = s.phase := by
  rw [State.phase, (State.regsBut_telemShown _ m ps).fld (by decide), State.fld_congr (State.regs_measured _ m), State.fld_at']
  rfl

/-- A sample outside self-test: the conditions are not looked at. -/
theorem telemetry_gives {m : Telemetry} (hr : s.running = true) (hp : s.pmcUp = true) (h2 : s.pwr.state ≠ 2) (h3 : s.phase ≠ 3) :
    s.gives (.telemetrySample t m) [.mod, .pwr, .rny, .regs] fun s' => s.sampledFrom s' m (max s.now t) ∧ s'.showsTelemetry m
      (s.pwr.powers.filter (fun e => decide (max s.now t < e.1 + 1000000000)) ++ [(max s.now t, m.power.toNat)]) := by
  have hcalm := State.condMonitor_calm (x := ((s.at' t).measured m).telemShown m ((s.at' t).powersWith m))
    (.inr (.inl (by rwa [phase_telemShown])))
  have hsh := State.sameBut_telemShown ((s.at' t).measured m) m ((s.at' t).powersWith m)
  refine State.gives_of_done t ((exec_telemetry_pmc hr hp h2).trans (congrArg done hcalm))
    ((((s.at' t).sameBut_measured m).mono (by decide)).trans (hsh.mono (by decide))) ⟨State.sampledFrom_settle hsh (by decide), ?_⟩
  rw [← s.powersWith_at' t m]
  exact State.telemShown_shows _ m _

/-- In self-test a sample out of range discards the run (R58). -/
theorem telemetry_discards {m : Telemetry} (hr : s.running = true) (hp : s.pmcUp = true) (h2 : s.pwr.state ≠ 2) (h3 : s.phase = 3)
    (hv : ¬ (10800 ≤ m.vinMv.toNat ∧ m.vinMv.toNat ≤ 13200)) :
    s.gives (.telemetrySample t m) [.mod, .pwr, .rny, .regs, .boot, .host, .dbg] fun s' => s.sampledFrom s' m (max s.now t) ∧
      s'.showsTelemetry m
        (s.pwr.powers.filter (fun e => decide (max s.now t < e.1 + 1000000000)) ++ [(max s.now t, m.power.toNat)]) ∧ s'.phase = 2 := by
  have hsh := State.sameBut_telemShown ((s.at' t).measured m) m ((s.at' t).powersWith m)
  have hmod := hsh.2 .mod (by decide)
  have hpwr := hsh.2 .pwr (by decide)
  have hphase := phase_telemShown s t m ((s.at' t).powersWith m)
  have hshow := State.telemShown_shows ((s.at' t).measured m) m ((s.at' t).powersWith m)
  have hexec := exec_telemetry_pmc (t := t) (m := m) hr hp h2
  generalize ((s.at' t).measured m).telemShown m ((s.at' t).powersWith m) = w at *
  rw [s.powersWith_at' t m] at hshow
  have hwm : w.mod = ((s.at' t).measured m).mod := hmod
  have hwp : w.pwr = ((s.at' t).measured m).pwr := hpwr
  obtain ⟨hm, hpw, -⟩ := (s.at' t).measured_finds m
  have hrun : w.running = true := by
    rw [State.running, hwm, hwp, hm, hpw, State.at'_mod, State.at'_pwr]
    exact hr
  have hcond : w.condNow = false := by
    rw [State.condNow, hwm, hm, show vinGood m.vinMv.toNat = false from Bool.eq_false_of_not_eq_true fun h => hv ((vinGood_iff _).mp h)]
    rfl
  obtain ⟨hf, hph, -, -, hreg⟩ := w.frame_condDiscard
  rw [State.condMonitor_fails hrun (hphase.trans h3) hcond] at hexec
  refine State.gives_of_done t hexec (((((s.at' t).sameBut_measured m).mono (by decide)).trans (hsh.mono (by decide))).trans
    (hf.mono (by decide))) ⟨State.sampledFrom_settle ((hsh.mono (by decide)).trans hf) (by decide), ?_, hph⟩
  exact hshow.of_regsBut hreg (by decide)

end Sys2Proof.Machine
end

section
/-! PROOF. Power states (R460–R463): requests by the host, idle entry to S1, sleep and wake. -/

namespace Sys2Proof.Machine

variable {s x y : State} {t : Nat}

/-! ### What the conditions of S1 and of sleep depend on -/

/-- The conditions of S1 read neither the power registers nor the power block. -/
theorem State.s1Conds_congr (hf : x.fab = y.fab) (hs : x.sch = y.sch) (hr : y.regsBut x [R.PWR_STATE_REQ, R.PWR_STATE]) :
    x.s1Conds = y.s1Conds := by
  have hjob : x.jobBusy = y.jobBusy := by
    have hj : x.isJob = y.isJob := funext fun c => by rw [State.isJob, State.isJob, hs]
    rw [State.jobBusy, State.jobBusy, hf, hs, hj]
  have hcast : x.castPending = y.castPending := by rw [State.castPending, State.castPending, hr.fld (by decide)]
  have hslot : ∀ r ∈ List.range 16, x.slotTriggered r = y.slotTriggered r := by
    intro r hr16
    have hr16 := List.mem_range.mp hr16
    have hsrc : x.rd (R.RUN_SRC r 0) = y.rd (R.RUN_SRC r 0) := hr _ (by simp [R.RUN_SRC, R.PWR_STATE_REQ, R.PWR_STATE]; omega)
    have hmap : x.fld (R.CXP_STREAM_MAP (y.rd (R.RUN_SRC r 0) / 4 % 64)) 1 5 = y.fld (R.CXP_STREAM_MAP (y.rd (R.RUN_SRC r 0) / 4 % 64)) 1 5 :=
      hr.fld (by simp [R.CXP_STREAM_MAP, R.PWR_STATE_REQ, R.PWR_STATE]; omega)
    have htrig : ∀ c < 32, x.fld (R.CXP_TRIG_CFG c) 0 2 = y.fld (R.CXP_TRIG_CFG c) 0 2 := fun c _ =>
      hr.fld (by simp [R.CXP_TRIG_CFG, R.PWR_STATE_REQ, R.PWR_STATE]; omega)
    simp only [State.slotTriggered, hsrc, hmap, htrig _ (State.fld_lt _ _ _ 5)]
  rw [State.s1Conds, State.s1Conds, hjob, hcast, Bool.eq_iff_iff]
  simp only [Bool.and_eq_true, List.all_eq_true]
  exact and_congr_right fun _ => forall₂_congr fun r hr16 => by rw [hslot r hr16]

theorem State.s1Ready_congr (hn : x.now = y.now) (hp : x.pwr = y.pwr) (hf : x.fab = y.fab) (hs : x.sch = y.sch)
    (hr : y.regsBut x [R.PWR_STATE_REQ, R.PWR_STATE]) (still : Nat) : x.s1Ready still = y.s1Ready still := by
  rw [State.s1Ready, State.s1Ready, hn, hp, State.s1Conds_congr hf hs hr]

theorem State.sleepRefusal_congr (hl : x.line = y.line) (hs : x.sch = y.sch) (hr : y.regsBut x [R.PWR_STATE_REQ, R.PWR_STATE]) :
    x.sleepRefusal = y.sleepRefusal := by
  rw [State.sleepRefusal, State.sleepRefusal, hl, hs, State.castPending, State.castPending, hr.fld (by decide)]

theorem State.hasWork_congr (hm : x.mod = y.mod) (hf : x.pwr.failStop = y.pwr.failStop) (hp : x.phase = y.phase) :
    x.hasWork = y.hasWork := by
  rw [State.hasWork, State.hasWork, State.running, State.running, hm, hf, hp]

theorem State.sleepRefusal_lt (x : State) : x.sleepRefusal < 4 := by
  unfold State.sleepRefusal
  split
  · decide
  · split
    · decide
    · split <;> decide

/-! ### Requests -/

/-- A request of the host stands in `PWR_STATE_REQ`. -/
def State.asked (s : State) (v : Nat) : State := s.setFld R.PWR_STATE_REQ 0 2 v

theorem State.regsBut_asked (x : State) (v : Nat) : x.regsBut (x.asked v) [R.PWR_STATE_REQ, R.PWR_STATE] :=
  State.regsBut_setFld (x.regsBut_refl _) (by simp)

theorem State.sameBut_asked (x : State) (v : Nat) : x.sameBut (x.asked v) [.regs] := by simp [State.asked]

theorem State.pwr_asked (x : State) (v : Nat) : (x.asked v).pwr = x.pwr := rfl

theorem State.fld_asked (x : State) {v : Nat} (h : v < 4) : (x.asked v).fld R.PWR_STATE_REQ 0 2 = v :=
  (State.fld_setFld_same _ _ _ _ _ (by decide)).trans (Nat.mod_eq_of_lt h)

theorem State.pmcUp_asked (x : State) (v : Nat) : (x.asked v).pmcUp = x.pmcUp := by
  rw [State.pmcUp, State.pmcUp, State.fwState, State.fwState, (x.regsBut_asked v).fld (by decide)]

theorem State.powerRequest_pmc {v : Nat} (hp : x.pmcUp = true) :
    x.powerRequest v = if v < 2 then (x.asked v).askS0S1 v else (x.asked v).askSleep v := by
  have h : (x.asked v).pmcUp = true := (x.pmcUp_asked v).trans hp
  show (if !(x.asked v).pmcUp then _ else _) = _
  rw [h]
  rfl

/-- While PMC is absent a request waits (R486). -/
def State.waits (s : State) (v : Nat) : State := { s with pwr := { s.pwr with waitReq := some v } }

theorem State.powerRequest_absent {v : Nat} (hp : x.pmcUp = false) : x.powerRequest v = (x.asked v).waits v := by
  have h : (x.asked v).pmcUp = false := (x.pmcUp_asked v).trans hp
  show (if !(x.asked v).pmcUp then _ else _) = _
  rw [h]
  rfl

/-- The four requests, and the state each asks for. -/
def powerRequests (t : Nat) : List (Instr × Nat) := [(.pwrReqS0 t, 0), (.pwrReqS1 t, 1), (.pwrReqS2 t, 2), (.pwrReqS3 t, 3)]

theorem exec_powerRequest {c : Instr × Nat} (hc : c ∈ powerRequests t) :
    c.2 < 4 ∧ ∀ s, exec c.1 s = if (s.at' t).running then doneR ((s.at' t).powerRequest c.2) else doneR (s.at' t) := by
  simp only [powerRequests, List.mem_cons, List.not_mem_nil, or_false] at hc
  obtain rfl | rfl | rfl | rfl := hc
  all_goals exact ⟨by simp, fun _ => rfl⟩

theorem powerRequest_absent_gives {c : Instr × Nat} (hc : c ∈ powerRequests t) (hr : s.running = true) (hp : s.pmcUp = false) :
    s.gives c.1 [.regs, .pwr] fun s' => s'.pwr.waitReq = some c.2 ∧ s'.pwr.state = s.pwr.state ∧ s'.fld R.PWR_STATE_REQ 0 2 = c.2 := by
  obtain ⟨hlt, hexec⟩ := exec_powerRequest hc
  have hw : ∀ x : State, (x.waits c.2).noteDrive.settle.pwr.waitReq = some c.2 ∧ (x.waits c.2).noteDrive.settle.pwr.state = x.pwr.state ∧
      (x.waits c.2).noteDrive.settle.regs = x.regs := fun _ => ⟨rfl, rfl, rfl⟩
  obtain ⟨h1, h2, h3⟩ := hw ((s.at' t).asked c.2)
  refine State.gives_of_doneR t ((hexec s).trans ((if_pos (by rw [State.running_at', hr])).trans
    (congrArg doneR (State.powerRequest_absent (by rw [State.pmcUp_at', hp])))))
    (((State.sameBut_asked _ _).mono (by decide)).trans ((State.sameBut_mix _ (((s.at' t).asked c.2).waits c.2) [.pwr]).mono (by decide)))
    ⟨h1, ?_, ?_⟩
  · rw [h2, State.pwr_asked, State.at'_pwr]
  · rw [State.fld_congr h3, State.fld_asked _ hlt]

theorem powerRequest_nothing {c : Instr × Nat} (hc : c ∈ powerRequests t) (hr : s.running = false) : s.givesNothing c.1 :=
  State.givesNothing_of_doneR t (((exec_powerRequest hc).2 s).trans (if_neg (by rw [State.running_at', hr]; decide)))

theorem powerRequest_exec {c : Instr × Nat} (hc : c ∈ powerRequests t) (hr : s.running = true) (hp : s.pmcUp = true) :
    exec c.1 s = doneR (if c.2 < 2 then ((s.at' t).asked c.2).askS0S1 c.2 else ((s.at' t).asked c.2).askSleep c.2) :=
  ((exec_powerRequest hc).2 s).trans ((if_pos (by rw [State.running_at', hr])).trans
    (congrArg doneR (State.powerRequest_pmc (by rw [State.pmcUp_at', hp]))))

/-! ### S0 and S1 -/

/-- The power block takes the state `v`, and any request for S1 is over. -/
def State.inState (s : State) (v : Nat) : State := { s with pwr := { s.pwr with state := v, s1Req := false } }

theorem State.sameBut_pwr (x : State) (p : Power) : x.sameBut { x with pwr := p } [.pwr] := x.sameBut_mix { x with pwr := p } [.pwr]

theorem State.sameBut_inState (x : State) (v : Nat) : x.sameBut (x.inState v) [.pwr] := x.sameBut_pwr _

theorem State.leaveS1_eq (x : State) : x.leaveS1 = (x.inState 0).setFld R.PWR_STATE 0 2 0 := rfl

theorem State.enterS1_eq (x : State) : x.enterS1 = (x.motionReset.inState 1).setFld R.PWR_STATE 0 2 1 := rfl

theorem State.frame_leaveS1 (x : State) : x.sameBut x.leaveS1 [.regs, .pwr] ∧ x.leaveS1.pwr.state = 0 ∧
    x.leaveS1.fld R.PWR_STATE 0 2 = 0 := by
  rw [State.leaveS1_eq, State.sameBut_setFld (by decide)]
  exact ⟨(x.sameBut_inState 0).mono (by decide), rfl, State.fld_setFld_same _ _ _ _ _ (by decide)⟩

theorem State.sameBut_motionReset (x : State) : x.sameBut x.motionReset [.ron] := x.sameBut_mix x.motionReset [.ron]

/-- Motion is counted from here on (R404). -/
theorem State.enc_motionReset (x : State) {k : Nat} (hk : k < x.ron.enc.length) :
    (x.motionReset.enc k).motionBase = (x.enc k).p ∧ (x.motionReset.enc k).motionSent = false := by
  have h : x.motionReset.enc k = { x.enc k with motionBase := (x.enc k).p, motionSent := false } := by
    simp only [State.enc, State.motionReset, nth, List.getElem?_map, List.getElem?_eq_getElem hk, Option.map_some, Option.getD_some]
  rw [h]
  exact ⟨rfl, rfl⟩

theorem State.frame_enterS1 (x : State) : x.sameBut x.enterS1 [.regs, .pwr, .ron] ∧ x.enterS1.pwr.state = 1 ∧
    x.enterS1.fld R.PWR_STATE 0 2 = 1 ∧ x.enterS1.ron = x.motionReset.ron := by
  rw [State.enterS1_eq, State.sameBut_setFld (by decide)]
  exact ⟨(x.sameBut_motionReset.mono (by decide)).trans ((State.sameBut_inState _ 1).mono (by decide)), rfl,
    State.fld_setFld_same _ _ _ _ _ (by decide), rfl⟩

theorem State.enc_noteDrive_settle (x : State) (k : Nat) : x.noteDrive.settle.enc k = x.enc k := rfl

theorem reqS0_exec (hr : s.running = true) (hp : s.pmcUp = true) :
    exec (.pwrReqS0 t) s = doneR (((s.at' t).asked 0).askS0S1 0) :=
  (powerRequest_exec (c := (.pwrReqS0 t, 0)) (by simp [powerRequests]) hr hp).trans (congrArg doneR (if_pos (by simp)))

theorem reqS1_exec (hr : s.running = true) (hp : s.pmcUp = true) :
    exec (.pwrReqS1 t) s = doneR (((s.at' t).asked 1).askS0S1 1) :=
  (powerRequest_exec (c := (.pwrReqS1 t, 1)) (by simp [powerRequests]) hr hp).trans (congrArg doneR (if_pos (by simp)))

theorem reqS0_fromS1 (hr : s.running = true) (hp : s.pmcUp = true) (h1 : s.pwr.state = 1) :
    s.gives (.pwrReqS0 t) [.regs, .pwr] fun s' => s'.pwr.state = 0 ∧ s'.fld R.PWR_STATE 0 2 = 0 := by
  have hexec := reqS0_exec (t := t) hr hp
  have hst : ((s.at' t).asked 0).pwr.state = 1 := by
    rw [State.pwr_asked, State.at'_pwr, h1]
  rw [State.askS0S1, if_pos rfl, if_pos hst] at hexec
  obtain ⟨hf, hs, hfld⟩ := ((s.at' t).asked 0).frame_leaveS1
  exact State.gives_of_doneR t hexec (((State.sameBut_asked _ _).mono (by decide)).trans hf) ⟨hs, hfld⟩

theorem reqS0_inS0 (hr : s.running = true) (hp : s.pmcUp = true) (h0 : s.pwr.state = 0) :
    s.gives (.pwrReqS0 t) [.regs, .pwr] fun s' => s'.pwr.state = 0 ∧ s'.pwr.s1Req = false := by
  have hexec := reqS0_exec (t := t) hr hp
  have hst : ((s.at' t).asked 0).pwr.state = 0 := by
    rw [State.pwr_asked, State.at'_pwr, h0]
  rw [State.askS0S1, if_pos rfl, if_neg (by rw [hst]; decide)] at hexec
  exact State.gives_of_doneR t hexec (((State.sameBut_asked _ _).mono (by decide)).trans ((State.sameBut_pwr _ _).mono (by decide)))
    ⟨hst, rfl⟩

/-- A request for S1 is judged as it lands: the request itself moves no condition. -/
theorem s1Ready_asked (s : State) (t v : Nat) : ((s.at' t).asked v).s1Ready 1 = (s.at' t).s1Ready 1 :=
  State.s1Ready_congr (x := (s.at' t).asked v) (y := s.at' t) rfl rfl rfl rfl (State.regsBut_asked _ _) 1

theorem reqS1_enters (hr : s.running = true) (hp : s.pmcUp = true) (h0 : s.pwr.state = 0) (hready : (s.at' t).s1Ready 1 = true) :
    s.gives (.pwrReqS1 t) [.regs, .pwr, .ron] fun s' => s'.pwr.state = 1 ∧ s'.fld R.PWR_STATE 0 2 = 1 ∧
      ∀ k < s.ron.enc.length, (s'.enc k).motionBase = (s.enc k).p ∧ (s'.enc k).motionSent = false := by
  have hexec := reqS1_exec (t := t) hr hp
  have hst : ((s.at' t).asked 1).pwr.state = 0 := by
    rw [State.pwr_asked, State.at'_pwr, h0]
  rw [State.askS0S1, if_neg (by decide), if_pos hst, if_pos ((s1Ready_asked s t 1).trans hready)] at hexec
  obtain ⟨hf, hs, hfld, hron⟩ := ((s.at' t).asked 1).frame_enterS1
  have hasked : ((s.at' t).asked 1).ron = s.ron := by
    rw [show ((s.at' t).asked 1).ron = (s.at' t).ron from (State.sameBut_asked _ _).2 .ron (by decide), State.at'_ron]
  refine State.gives_of_doneR t hexec (((State.sameBut_asked _ _).mono (by decide)).trans hf) ⟨hs, hfld, fun k hk => ?_⟩
  have henc := ((s.at' t).asked 1).enc_motionReset (k := k) (by rwa [hasked])
  rw [State.enc_noteDrive_settle, State.enc, hron]
  rwa [State.enc, State.enc, hasked] at henc

theorem reqS1_waits (hr : s.running = true) (hp : s.pmcUp = true) (h0 : s.pwr.state = 0) (hready : (s.at' t).s1Ready 1 = false) :
    s.gives (.pwrReqS1 t) [.regs, .pwr] fun s' => s'.pwr.state = 0 ∧ s'.pwr.s1Req = true := by
  have hexec := reqS1_exec (t := t) hr hp
  have hst : ((s.at' t).asked 1).pwr.state = 0 := by
    rw [State.pwr_asked, State.at'_pwr, h0]
  rw [State.askS0S1, if_neg (by decide), if_pos hst, if_neg (by rw [s1Ready_asked, hready]; decide)] at hexec
  exact State.gives_of_doneR t hexec (((State.sameBut_asked _ _).mono (by decide)).trans ((State.sameBut_pwr _ _).mono (by decide)))
    ⟨hst, rfl⟩

/-! ### S2 and S3 -/

/-- A request for S2 or S3 that is not refused finds no work refused to it. -/
def State.sleepAnswered (s : State) (v : Nat) : State := (s.asked v).setFld R.PWR_STATE 4 2 s.sleepRefusal

theorem State.frame_sleepAnswered (x : State) (v : Nat) : x.sameBut (x.sleepAnswered v) [.regs] ∧
    x.regsBut (x.sleepAnswered v) [R.PWR_STATE_REQ, R.PWR_STATE] ∧ (x.sleepAnswered v).fld R.PWR_STATE 4 2 = x.sleepRefusal := by
  refine ⟨by simp [State.sleepAnswered, State.asked], State.regsBut_setFld (x.regsBut_asked v) (by simp), ?_⟩
  exact (State.fld_setFld_same _ _ _ _ _ (by decide)).trans (Nat.mod_eq_of_lt x.sleepRefusal_lt)

theorem State.askSleep_eq (x : State) (v : Nat) : (x.asked v).askSleep v =
    if x.sleepRefusal = 0 then (x.sleepAnswered v).sleep v else x.sleepAnswered v := by
  have h : (x.asked v).sleepRefusal = x.sleepRefusal := State.sleepRefusal_congr rfl rfl (x.regsBut_asked v)
  show (if (x.asked v).sleepRefusal = 0 then ((x.asked v).setFld R.PWR_STATE 4 2 (x.asked v).sleepRefusal).sleep v
    else (x.asked v).setFld R.PWR_STATE 4 2 (x.asked v).sleepRefusal) = _
  rw [h]
  rfl

theorem sleepRefusal_at' (s : State) (t : Nat) : (s.at' t).sleepRefusal = s.sleepRefusal := by
  refine State.sleepRefusal_congr (s.at'_line t) (s.at'_sch t) (State.regsBut_congr (s.at'_regs t) _)

theorem reqSleep_refused {c : Instr × Nat} (hc : c ∈ powerRequests t) (h2 : 2 ≤ c.2) (hr : s.running = true) (hp : s.pmcUp = true)
    (h : s.sleepRefusal ≠ 0) : s.gives c.1 [.regs] fun s' =>
      s'.fld R.PWR_STATE 4 2 = s.sleepRefusal ∧ s'.pwr.state = s.pwr.state ∧ s'.fld R.PWR_STATE_REQ 0 2 = c.2 := by
  have hexec := powerRequest_exec hc hr hp
  rw [if_neg (by omega), State.askSleep_eq, if_neg (by rwa [sleepRefusal_at'])] at hexec
  obtain ⟨hf, -, hfld⟩ := (s.at' t).frame_sleepAnswered c.2
  have hpwr : ((s.at' t).sleepAnswered c.2).pwr = (s.at' t).pwr := hf.2 .pwr (by decide)
  have hset : ∀ x : State, x.noteDrive.settle.pwr.state = x.pwr.state ∧ x.noteDrive.settle.regs = x.regs := fun _ => ⟨rfl, rfl⟩
  obtain ⟨e1, e2⟩ := hset ((s.at' t).sleepAnswered c.2)
  refine State.gives_of_doneR t hexec hf ⟨?_, ?_, ?_⟩
  · rw [State.fld_congr e2, hfld, sleepRefusal_at']
  · rw [e1, hpwr, State.at'_pwr]
  · rw [State.fld_congr e2, State.sleepAnswered, State.fld_setFld_apart _ (by decide), State.fld_asked _ (exec_powerRequest hc).1]

/-- Rails and power block as sleep in state `v` has them, with the motion wake as configured (R463). -/
def State.asleep (s : State) (v : Nat) (motion : Bool) : State :=
  { s with mod := { s.mod with railsUp := false, aonUp := decide (v = 2) }, pwr := { s.pwr with state := v, s2Motion := motion } }

theorem State.sleep_eq (x : State) (v : Nat) : x.sleep v =
    if v = 3 then ((x.motionReset.failAndHold 0 3).asleep v (x.bit R.PWR_S1_CFG 16)).visoLoss.timeLost
    else (x.motionReset.failAndHold 0 3).asleep v (x.bit R.PWR_S1_CFG 16) := rfl

/-- What every sleep shows, S3's loss of VISO apart. -/
theorem State.asleep_shows (x : State) (v : Nat) (m : Bool) : (x.asleep v m).pwr.state = v ∧ (x.asleep v m).mod.railsUp = false ∧
    (x.asleep v m).mod.held = x.mod.held ∧ (x.asleep v m).mod.aonUp = decide (v = 2) ∧ (x.asleep v m).boot = x.boot ∧
    (x.asleep v m).regs = x.regs ∧ (x.asleep v m).pwr.s2Motion = m := ⟨rfl, rfl, rfl, rfl, rfl, rfl, rfl⟩

/-- The loss of VISO and of device time keeps rails, boot state and the power block. -/
theorem State.visoTimeLost_keeps (x : State) : x.visoLoss.timeLost.pwr = x.pwr ∧
    x.visoLoss.timeLost.mod = { x.mod with visoUp := false } ∧ x.visoLoss.timeLost.boot = x.boot ∧
    x.visoLoss.timeLost.ron.safe = true ∧ x.regsBut x.visoLoss.timeLost [R.TIM_STAT] := by
  obtain ⟨hf, hr, -⟩ := x.visoLoss.frame_timeLost
  exact ⟨hf.2 .pwr (by decide), hf.2 .mod (by decide), hf.2 .boot (by decide),
    (congrArg Ronyr.safe (hf.2 .ron (by decide))).trans x.ron_visoLoss.1, State.regsBut.trans (State.regsBut_congr rfl _) hr⟩

/-- What a sleep leaves in the state it ends in. -/
theorem State.sleep_leaves (x : State) {v : Nat} (hv : v = 2 ∨ v = 3) : (x.sleep v).pwr.state = v ∧ (x.sleep v).mod.railsUp = false ∧
    (x.sleep v).mod.held = true ∧ (x.sleep v).mod.aonUp = decide (v = 2) ∧ (x.sleep v).boot.nextCause = 3 ∧
    (x.sleep v).rd R.PWR_FAIL_LAST = (if x.hasWork then 16 else 0) ∧ (v = 2 → (x.sleep v).pwr.s2Motion = x.bit R.PWR_S1_CFG 16) ∧
    (v = 3 → (x.sleep v).mod.visoUp = false ∧ (x.sleep v).ron.safe = true) := by
  obtain ⟨hmod, hboot, -, -, -, -, hlast, -⟩ := x.motionReset.failAndHold_keeps 0 3 (by decide)
  have hwork : x.motionReset.hasWork = x.hasWork := State.hasWork_congr rfl rfl rfl
  rw [hwork, if_pos rfl, Nat.zero_add] at hlast
  obtain ⟨h1, h2, h3, h4, h5, h6, h7⟩ := (x.motionReset.failAndHold 0 3).asleep_shows v (x.bit R.PWR_S1_CFG 16)
  rw [hmod] at h3
  rw [State.sleep_eq]
  generalize (x.motionReset.failAndHold 0 3).asleep v (x.bit R.PWR_S1_CFG 16) = w at *
  have hl : w.rd R.PWR_FAIL_LAST = if x.hasWork then 16 else 0 := (State.rd_congr h6 _).trans hlast
  obtain rfl | rfl := hv
  · rw [if_neg (by decide)]
    exact ⟨h1, h2, h3, h4, by rw [h5, hboot], hl, fun _ => h7, fun h => absurd h (by decide)⟩
  · rw [if_pos rfl]
    obtain ⟨kp, km, kb, kr, kregs⟩ := w.visoTimeLost_keeps
    rw [kp, km, kb, kr, kregs _ (by decide)]
    exact ⟨h1, h2, h3, h4, by rw [h5, hboot], hl, fun h => absurd h (by decide), fun _ => ⟨rfl, rfl⟩⟩

theorem hasWork_sleepAnswered (s : State) (t v : Nat) : ((s.at' t).sleepAnswered v).hasWork = s.hasWork := by
  obtain ⟨hf, hr, -⟩ := (s.at' t).frame_sleepAnswered v
  refine State.hasWork_congr (Eq.trans (hf.2 .mod (by decide)) (s.at'_mod t))
    (congrArg Power.failStop (Eq.trans (hf.2 .pwr (by decide)) (s.at'_pwr t))) ?_
  rw [State.phase, State.phase, hr.fld (by decide), State.fld_at']

/-- R463: a sleep that is not refused stops and flushes, and removes the rails the state does not keep. -/
theorem reqSleep_sleeps {c : Instr × Nat} (hc : c ∈ powerRequests t) (h2 : c.2 = 2 ∨ c.2 = 3) (hr : s.running = true)
    (hp : s.pmcUp = true) (h : s.sleepRefusal = 0) : ∃ s', exec c.1 s = .next s' ∧ s'.pwr.state = c.2 ∧ s'.mod.railsUp = false ∧
      s'.mod.held = true ∧ s'.mod.aonUp = decide (c.2 = 2) ∧ s'.boot.nextCause = 3 ∧
      s'.rd R.PWR_FAIL_LAST = (if s.hasWork then 16 else 0) ∧ (c.2 = 2 → s'.pwr.s2Motion = s.bit R.PWR_S1_CFG 16) ∧
      (c.2 = 3 → s'.mod.visoUp = false ∧ s'.pins.dq = 0) := by
  have hexec := powerRequest_exec hc hr hp
  rw [if_neg (by omega), State.askSleep_eq, if_pos (by rwa [sleepRefusal_at'])] at hexec
  obtain ⟨h1, h3, h4, h5, h6, h7, h8, h9⟩ := ((s.at' t).sleepAnswered c.2).sleep_leaves h2
  rw [hasWork_sleepAnswered] at h7
  rw [((s.at' t).frame_sleepAnswered c.2).2.1.bit (by decide), State.bit_at'] at h8
  have hset : ∀ x : State, x.noteDrive.settle.pwr.state = x.pwr.state ∧ x.noteDrive.settle.pwr.s2Motion = x.pwr.s2Motion ∧
      x.noteDrive.settle.pins.dq = x.noteDrive.pinsOf.dq := fun _ => ⟨rfl, rfl, rfl⟩
  obtain ⟨e1, e2, e3⟩ := hset (((s.at' t).sleepAnswered c.2).sleep c.2)
  refine ⟨_, hexec, e1.trans h1, h3, h4, h5, h6, ?_, fun h => e2.trans (h8 h), fun h => ⟨(h9 h).1, e3.trans ?_⟩⟩
  · rw [State.rd_settle, State.rd_noteDrive, h7]
  · exact State.dq_pinsOf_safe (x := State.noteDrive _) (h9 h).2

end Sys2Proof.Machine
end

section
/-! PROOF. Idle entry to S1, the wakes, MSMB and the safety monitor's commands (R461–R463, R467, R471, R473). -/

namespace Sys2Proof.Machine

variable {s x y : State} {t : Nat}

/-! ### Entry to S1 and wake from it -/

theorem exec_s1IdleEntry (s : State) (t : Nat) : exec (.s1IdleEntry t) s =
    if (s.at' t).running && (s.at' t).pmcUp && decide ((s.at' t).pwr.state = 0) &&
        (((s.at' t).pwr.s1Req && (s.at' t).s1Ready 1) || (s.at' t).s1Idle ((s.at' t).fld R.PWR_S1_CFG 4 12 * 1000 * ms))
      then doneR (s.at' t).enterS1 else doneR (s.at' t) := rfl

/-- `PWR_S1_CFG.idle_s` in ns. -/
theorem idle_at' (s : State) (t : Nat) :
    (s.at' t).fld R.PWR_S1_CFG 4 12 * 1000 * ms = s.fld R.PWR_S1_CFG 4 12 * 1000000000 := by
  rw [State.fld_at', Nat.mul_assoc]
  rfl

theorem s1IdleEntry_enters (hr : s.running = true) (hp : s.pmcUp = true) (h0 : s.pwr.state = 0)
    (h : (s.pwr.s1Req = true ∧ (s.at' t).s1Ready 1 = true) ∨ (s.at' t).s1Idle (s.fld R.PWR_S1_CFG 4 12 * 1000000000) = true) :
    s.gives (.s1IdleEntry t) [.regs, .pwr, .ron] fun s' => s'.pwr.state = 1 ∧ s'.fld R.PWR_STATE 0 2 = 1 := by
  obtain ⟨hf, hs, hfld, -⟩ := (s.at' t).frame_enterS1
  refine State.gives_of_doneR t ((exec_s1IdleEntry s t).trans (if_pos ?_)) hf ⟨hs, hfld⟩
  rw [idle_at', State.running_at', State.pmcUp_at', State.at'_pwr, hr, hp, h0]
  obtain ⟨h, h'⟩ | h := h
  · rw [h, h']
    rfl
  · rw [h, Bool.or_true]
    rfl

theorem s1IdleEntry_nothing (h : s.pwr.s1Req = false ∨ (s.at' t).s1Ready 1 = false)
    (h' : (s.at' t).s1Idle (s.fld R.PWR_S1_CFG 4 12 * 1000000000) = false) : s.givesNothing (.s1IdleEntry t) := by
  refine State.givesNothing_of_doneR t ((exec_s1IdleEntry s t).trans (if_neg ?_))
  rw [idle_at', State.at'_pwr, h']
  obtain h | h := h <;> simp [h]

/-- Messages of motion are taken in. -/
def State.motionTaken (s : State) : State := { s with line := { s.line with rx := s.line.rx.filter (fun m => !m.isMotion) } }

theorem exec_s1Wake (s : State) (t : Nat) : exec (.s1Wake t) s =
    if (s.at' t).running && (s.at' t).s1Waking then doneR (s.at' t).motionTaken.leaveS1 else doneR (s.at' t) := rfl

theorem motion_notMem_filter (l : List Msg) (ch : Nat) : Msg.motion ch ∉ l.filter (fun m => !m.isMotion) := by
  simp [List.mem_filter, Msg.isMotion]

theorem any_isMotion_iff (l : List Msg) : l.any Msg.isMotion = true ↔ ∃ ch, Msg.motion ch ∈ l := by
  rw [List.any_eq_true]
  constructor
  · rintro ⟨m, hm, h⟩
    cases m with
    | motion ch => exact ⟨ch, hm⟩
    | _ => exact absurd h (by simp [Msg.isMotion])
  · rintro ⟨ch, hm⟩
    exact ⟨_, hm, rfl⟩

theorem jobBusy_at' (s : State) (t : Nat) : (s.at' t).jobBusy = s.jobBusy := by
  have hj : (s.at' t).isJob = s.isJob := funext fun c => by rw [State.isJob, State.isJob, State.at'_sch]
  rw [State.jobBusy, State.jobBusy, State.at'_fab, State.at'_sch, hj]

/-- The device wakes from S1 if it is there and finds motion or a job (R462). -/
theorem s1Waking_at' (s : State) (t : Nat) :
    (s.at' t).s1Waking = true ↔ s.pwr.state = 1 ∧ ((∃ ch, Msg.motion ch ∈ s.line.rx) ∨ s.jobBusy = true) := by
  rw [State.s1Waking, State.at'_pwr, State.at'_line, jobBusy_at', Bool.and_eq_true, Bool.or_eq_true, any_isMotion_iff, decide_eq_true_eq]

theorem s1Wake_wakes (hr : s.running = true) (h1 : s.pwr.state = 1) (h : (∃ ch, Msg.motion ch ∈ s.line.rx) ∨ s.jobBusy = true) :
    s.gives (.s1Wake t) [.regs, .pwr, .line] fun s' => s'.pwr.state = 0 ∧ s'.fld R.PWR_STATE 0 2 = 0 ∧
      (∀ ch, Msg.motion ch ∉ s'.line.rx) ∧ s'.line = { s.line with rx := s'.line.rx } := by
  obtain ⟨hf, hs, hfld⟩ := (s.at' t).motionTaken.frame_leaveS1
  have hexec := (exec_s1Wake s t).trans (if_pos (by rw [State.running_at', hr, (s1Waking_at' s t).mpr ⟨h1, h⟩]; rfl))
  have hline : (s.at' t).motionTaken.leaveS1.line = { s.line with rx := s.line.rx.filter (fun m => !m.isMotion) } := by
    rw [show (s.at' t).motionTaken.leaveS1.line = (s.at' t).motionTaken.line from hf.2 .line (by decide), State.motionTaken, State.at'_line]
  have hset : ∀ w : State, w.noteDrive.settle.line = w.line := fun _ => rfl
  refine State.gives_of_doneR t hexec (.trans ((State.sameBut_mix _ (s.at' t).motionTaken [.line]).mono (by decide)) (hf.mono (by decide)))
    ⟨hs, hfld, fun ch => ?_, ?_⟩
  · rw [hset, hline]
    exact motion_notMem_filter _ ch
  · rw [hset, hline]

theorem s1Wake_nothing (h : s.pwr.state ≠ 1 ∨ ((∀ ch, Msg.motion ch ∉ s.line.rx) ∧ s.jobBusy = false)) :
    s.givesNothing (.s1Wake t) := by
  refine State.givesNothing_of_doneR t ((exec_s1Wake s t).trans (if_neg fun hc => ?_))
  obtain ⟨h1, h2⟩ := (s1Waking_at' s t).mp ((Bool.and_eq_true _ _).mp hc).2
  obtain h | ⟨hm, hj⟩ := h
  · exact h h1
  · obtain ⟨ch, h2⟩ | h2 := h2
    · exact hm ch h2
    · exact absurd h2 (by rw [hj]; decide)

/-! ### The rails rise -/

/-- Where VISO is up already, Ronyr goes on. -/
theorem State.visoUp'_up (h : x.mod.visoUp = true) : x.visoUp' = x := by rw [State.visoUp', if_pos h]

/-- Where VISO rises, Ronyr starts from its power-up state (R390). -/
def State.visoRisen (s : State) : State :=
  { s with mod := { s.mod with visoUp := true }, rny := []
           ron := { lplusMv := s.ron.lplusMv, supplyLow := decide (s.ron.lplusMv < 17000) } }

theorem State.visoUp'_down (h : x.mod.visoUp = false) :
    x.visoUp' = if decide (x.ron.lplusMv < 17000) then x.visoRisen.rnyEvent E_FIELD_SUPPLY 0 none none else x.visoRisen := by
  rw [State.visoUp', if_neg (by simp [h])]
  rfl

theorem State.frame_rnyEvent (x : State) (c k : Nat) (w2 w3 : Option Nat) : x.sameBut (x.rnyEvent c k w2 w3) [.host, .ron] ∧
    (x.rnyEvent c k w2 w3).ron = { x.ron with tx := (x.rnyEvent c k w2 w3).ron.tx } := by
  rw [x.rnyEvent_frame c k w2 w3]
  exact ⟨x.sameBut_mix { x with host := _, ron := { x.ron with tx := (x.rnyEvent c k w2 w3).ron.tx } } [.host, .ron], rfl⟩

/-- What the rise of VISO leaves as it was, and what it leaves Ronyr in. -/
theorem State.frame_visoUp' (x : State) : x.sameBut x.visoUp' [.mod, .rny, .ron, .host] ∧
    x.visoUp'.mod = { x.mod with visoUp := true } ∧ (x.mod.visoUp = false → x.visoUp'.ron.safe = true ∧ x.visoUp'.rny = [] ∧
      x.visoUp'.ron.supplyLow = decide (x.ron.lplusMv < 17000)) := by
  by_cases h : x.mod.visoUp = true
  · rw [State.visoUp'_up h]
    exact ⟨x.sameBut_refl _, by rw [← h], fun h' => absurd (h.symm.trans h') (by decide)⟩
  · have hrise : x.sameBut x.visoRisen [.mod, .rny, .ron, .host] := (x.sameBut_mix x.visoRisen [.mod, .rny, .ron]).mono (by decide)
    rw [State.visoUp'_down (Bool.eq_false_of_not_eq_true h)]
    split
    · obtain ⟨hf, hr⟩ := x.visoRisen.frame_rnyEvent E_FIELD_SUPPLY 0 none none
      refine ⟨hrise.trans (hf.mono (by decide)), Eq.trans (hf.2 .mod (by decide)) rfl, fun _ => ?_⟩
      rw [hr, show (State.rnyEvent _ _ _ _ _).rny = x.visoRisen.rny from hf.2 .rny (by decide)]
      exact ⟨rfl, rfl, rfl⟩
    · exact ⟨hrise, rfl, fun _ => ⟨rfl, rfl, rfl⟩⟩

/-- Parts the rise of the rails may change. -/
def riseParts : List Part := [.mod, .boot, .pwr, .rny, .ron, .host]

/-- The rails rise with VIN at `v`, Cuette to start with cause `c` (Table 2.9). -/
theorem State.frame_railsRise (x : State) (v c : Nat) : x.sameBut (x.railsRise v c) riseParts ∧
    (x.railsRise v c).mod = { x.mod with
      vinMv := v, railsUp := true, aonUp := true, held := true, warning := false, visoUp := true } ∧
    (x.railsRise v c).boot = { x.boot with nextCause := c } ∧ (x.railsRise v c).pwr.state = 0 ∧
    (x.railsRise v c).ron = x.visoUp'.ron ∧ (x.railsRise v c).rny = x.visoUp'.rny ∧ (x.railsRise v c).host = x.visoUp'.host := by
  obtain ⟨hf, hm, -⟩ := x.frame_visoUp'
  have hb : x.visoUp'.boot = x.boot := hf.2 .boot (by decide)
  refine ⟨(hf.mono (by decide)).trans ((State.sameBut_mix _ (x.railsRise v c) [.mod, .boot, .pwr]).mono (by decide)), ?_, ?_, rfl, rfl,
    rfl, rfl⟩
  · rw [State.railsRise, hm]
  · rw [State.railsRise, hb]

/-! ### Wake from S2 -/

/-- The wake from S2: HOST_WAKE# goes low for 10 ms and reports of motion are over (R463). -/
def State.s2Woken (s : State) : State :=
  { s with mod := { s.mod with hostWakeUntil := s.now + 10 * ms }, ron := { s.ron with tx := s.ron.tx.filter (fun m => !m.isMotion) }
           pwr := { s.pwr with wakeReq := false } }

theorem exec_s2Wake (s : State) (t : Nat) : exec (.s2Wake t) s =
    if decide ((s.at' t).pwr.state = 2) && !(s.at' t).mod.warning &&
        (((s.at' t).ron.tx.any Msg.isMotion && (s.at' t).pwr.s2Motion) || (s.at' t).pwr.wakeReq || (s.at' t).mod.modResetLow)
      then doneR ((s.at' t).railsRise (s.at' t).mod.vinMv 3).s2Woken else doneR (s.at' t) := rfl

theorem State.s2Woken_shows (x : State) : x.s2Woken.mod = { x.mod with hostWakeUntil := x.now + 10000000 } ∧
    (∀ ch, Msg.motion ch ∉ x.s2Woken.ron.tx) ∧ x.s2Woken.boot = x.boot ∧ x.s2Woken.pwr.state = x.pwr.state ∧
    x.s2Woken.noteDrive.settle.pins.hostWakeLow = true := by
  refine ⟨rfl, fun ch => motion_notMem_filter _ ch, rfl, rfl, decide_eq_true ?_⟩
  exact Nat.lt_add_of_pos_right (by decide)

theorem s2Wake_wakes (h2 : s.pwr.state = 2) (hw : s.mod.warning = false)
    (h : (∃ ch, Msg.motion ch ∈ s.ron.tx) ∧ s.pwr.s2Motion = true ∨ s.pwr.wakeReq = true ∨ s.mod.modResetLow = true) :
    s.gives (.s2Wake t) [.mod, .boot, .pwr, .rny, .ron, .host] fun s' => s'.mod.railsUp = true ∧ s'.mod.aonUp = true ∧
      s'.mod.held = true ∧ (∀ ch, Msg.motion ch ∉ s'.ron.tx) ∧ s'.mod.hostWakeUntil = max s.now t + 10000000 ∧
      s'.pins.hostWakeLow = true ∧ s'.boot.nextCause = 3 ∧ s'.pwr.state = 0 := by
  have hexec := (exec_s2Wake s t).trans (if_pos (by
    rw [State.at'_pwr, State.at'_mod, State.at'_ron, h2, hw]
    obtain ⟨hm, h⟩ | h | h := h
    · rw [(any_isMotion_iff _).mpr hm, h]
      rfl
    · simp [h]
    · simp [h]))
  obtain ⟨hf, hm, hb, hp, -⟩ := (s.at' t).frame_railsRise (s.at' t).mod.vinMv 3
  have hn := hf.1
  rw [State.now_at'] at hn
  generalize (s.at' t).railsRise (s.at' t).mod.vinMv 3 = w at *
  obtain ⟨hm', hx, hb', hp', hpin⟩ := w.s2Woken_shows
  have hset : ∀ v : State, v.noteDrive.settle.mod = v.mod ∧ v.noteDrive.settle.boot = v.boot ∧
      v.noteDrive.settle.pwr.state = v.pwr.state ∧ v.noteDrive.settle.ron.tx = v.ron.tx := fun _ => ⟨rfl, rfl, rfl, rfl⟩
  obtain ⟨e1, e2, e3, e4⟩ := hset w.s2Woken
  refine State.gives_of_doneR t hexec (hf.trans ((State.sameBut_mix _ w.s2Woken [.mod, .ron, .pwr]).mono (by decide))) ?_
  rw [hpin, e1, e2, e3, e4, hm', hb', hp', hm, hb, hp, hn]
  exact ⟨rfl, rfl, rfl, hx, rfl, rfl, rfl, rfl⟩

theorem s2Wake_nothing (h : s.pwr.state ≠ 2 ∨ s.mod.warning = true) : s.givesNothing (.s2Wake t) := by
  refine State.givesNothing_of_doneR t ((exec_s2Wake s t).trans (if_neg ?_))
  rw [State.at'_pwr, State.at'_mod]
  obtain h | h := h <;> simp [h]

/-! ### MSMB -/

/-- The word an MSMB read returns (R467): a command answered in S2, or one that PMC answers. -/
def State.msmbWordOf (s : State) (inS2 status : Bool) (v : Nat) : Nat :=
  if (if s.pwr.state = 2 then inS2 else status || (s.running && s.pmcUp)) then v % 65536 else 0xFFFF

theorem State.msmbWordOf_at' (s : State) (t : Nat) (inS2 status : Bool) (v : Nat) :
    (s.at' t).msmbWordOf inS2 status v = s.msmbWordOf inS2 status v := by
  rw [State.msmbWordOf, State.msmbWordOf, State.at'_pwr, State.running_at', State.pmcUp_at']

theorem State.frame_msmbRead (x : State) (cmd : Nat) (inS2 status : Bool) (v : Nat) :
    x.sameBut (x.msmbRead cmd inS2 status v) [.pwr] ∧
      (x.msmbRead cmd inS2 status v).pwr.msmb = (if x.mod.aonUp then some (x.msmbWordOf inS2 status v) else none) ∧
      (x.msmbRead cmd inS2 status v).pwr.pec =
        pecOf [0x98, cmd, 0x99, x.msmbWordOf inS2 status v % 256, x.msmbWordOf inS2 status v / 256] :=
  ⟨x.sameBut_pwr _, rfl, rfl⟩

/-- Every read but that of the status word (R467). -/
theorem msmbRead_gives {c : Instr} {cmd v : Nat} {inS2 : Bool} (h : exec c s = done ((s.at' t).msmbRead cmd inS2 false v)) :
    s.gives c [.pwr] fun s' => s'.pwr.msmb = (if s.mod.aonUp then some (s.msmbWordOf inS2 false v) else none) ∧
      s'.pwr.pec = pecOf [0x98, cmd, 0x99, s.msmbWordOf inS2 false v % 256, s.msmbWordOf inS2 false v / 256] := by
  obtain ⟨hf, hm, hp⟩ := (s.at' t).frame_msmbRead cmd inS2 false v
  rw [State.msmbWordOf_at'] at hm hp
  rw [State.at'_mod] at hm
  have hset : ∀ w : State, w.settle.pwr.msmb = w.pwr.msmb ∧ w.settle.pwr.pec = w.pwr.pec := fun _ => ⟨rfl, rfl⟩
  exact State.gives_of_done t h hf ⟨(hset _).1.trans hm, (hset _).2.trans hp⟩

/-- The alert latch takes the causes in force: a read of the status word releases it once none remains. -/
def State.alertRead (s : State) : State := { s with pwr := { s.pwr with alert := s.alertCause } }

theorem State.alertCause_congr (hp : x.pwr.throttling = y.pwr.throttling) (hs : x.safe = y.safe) (hm : x.mod = y.mod)
    (hr : x.ron = y.ron) : x.alertCause = y.alertCause := by
  rw [State.alertCause, State.alertCause, hp, hs, hm, hr]

theorem State.alertRead_shows (x : State) : x.alertRead.settle.pwr.alert = x.alertCause ∧
    x.alertRead.settle.pins.msmbAlertLow = x.alertCause ∧ x.alertRead.settle.pwr.msmb = x.pwr.msmb ∧
    x.alertRead.settle.pwr.pec = x.pwr.pec := by
  have h : x.alertRead.alertCause = x.alertCause := State.alertCause_congr rfl rfl rfl rfl
  have hset : x.alertRead.settle.pwr.alert = (x.alertCause || x.alertRead.alertCause) ∧
      x.alertRead.settle.pins.msmbAlertLow = (x.alertCause || x.alertRead.alertCause) := ⟨rfl, rfl⟩
  rw [hset.1, hset.2, h, Bool.or_self]
  exact ⟨rfl, rfl, rfl, rfl⟩

theorem exec_msmbStatus (s : State) (t : Nat) :
    exec (.msmbStatus t) s = done ((s.at' t).msmbRead 0x01 true true (s.at' t).msmbWord).alertRead := rfl

theorem State.alertCause_at' (s : State) (t : Nat) : (s.at' t).alertCause = s.alertCause :=
  State.alertCause_congr (by rw [State.at'_pwr]) (s.safe_at' t) (s.at'_mod t) (s.at'_ron t)

theorem State.msmbWord_at' (s : State) (t : Nat) : (s.at' t).msmbWord = s.msmbWord := by
  rw [State.msmbWord, State.msmbWord, State.at'_pwr, State.at'_mod, State.at'_ron, State.safe_at']

theorem msmbStatus_gives (s : State) (t : Nat) : s.gives (.msmbStatus t) [.pwr] fun s' =>
    s'.pwr.msmb = (if s.mod.aonUp then some (s.msmbWord % 65536) else none) ∧
      s'.pwr.pec = pecOf [0x98, 0x01, 0x99, s.msmbWord % 256, s.msmbWord % 65536 / 256] ∧
      s'.pwr.alert = s.alertCause ∧ s'.pins.msmbAlertLow = s.alertCause := by
  obtain ⟨hf, hm, hp⟩ := (s.at' t).frame_msmbRead 0x01 true true s.msmbWord
  have hexec := exec_msmbStatus s t
  have hword : (s.at' t).msmbWordOf true true s.msmbWord = s.msmbWord % 65536 := by
    rw [State.msmbWordOf, Bool.true_or, ite_self, if_pos rfl]
  have hbyte : s.msmbWord % 65536 % 256 = s.msmbWord % 256 := Nat.mod_mod_of_dvd _ (by decide)
  rw [hword, State.at'_mod] at hm
  rw [hword, hbyte] at hp
  rw [State.msmbWord_at'] at hexec
  have halert : ((s.at' t).msmbRead 0x01 true true s.msmbWord).alertCause = s.alertCause :=
    (State.alertCause_congr rfl rfl rfl rfl).trans (s.alertCause_at' t)
  obtain ⟨h1, h2, h3, h4⟩ := ((s.at' t).msmbRead 0x01 true true s.msmbWord).alertRead_shows
  refine State.gives_of_done t hexec (hf.trans (State.sameBut_pwr _ _)) ?_
  rw [h1, h2, h3, h4, hm, hp, halert]
  exact ⟨rfl, rfl, rfl, rfl⟩

/-- A PEC that the host appends is the right one. -/
theorem msmbWake_good (pec : Option Byte) (v : Nat) :
    (match pec with | some c => decide (c.toNat = v) | none => true) = true ↔ ∀ c, pec = some c → c.toNat = v := by
  cases pec <;> simp

theorem exec_msmbWake (s : State) (t : Nat) (w : BitVec 16) (pec : Option Byte) : exec (.msmbWake t ⟨w, pec⟩) s =
    if (s.at' t).pwr.state = 2 ∧ w = 1 ∧
        (match pec with | some c => decide (c.toNat = pecOf [msmbAddr.1, 0x60, w.toNat % 256, w.toNat / 256]) | none => true) = true
      then done { s.at' t with pwr := { (s.at' t).pwr with wakeReq := true } } else done (s.at' t) := rfl

theorem msmbWake_wakes {w : BitVec 16} {pec : Option Byte} (h2 : s.pwr.state = 2) (hw : w = 1)
    (hg : ∀ c, pec = some c → c.toNat = pecOf [0x98, 0x60, w.toNat % 256, w.toNat / 256]) :
    s.gives (.msmbWake t ⟨w, pec⟩) [.pwr] fun s' => s'.pwr.wakeReq = true :=
  State.gives_of_done t ((exec_msmbWake s t w pec).trans (if_pos ⟨by rw [State.at'_pwr, h2], hw, (msmbWake_good pec _).mpr hg⟩))
    (State.sameBut_pwr _ _) rfl

theorem msmbWake_nothing {w : BitVec 16} {pec : Option Byte} (h : s.pwr.state ≠ 2 ∨ w ≠ 1 ∨
    ¬ ∀ c, pec = some c → c.toNat = pecOf [0x98, 0x60, w.toNat % 256, w.toNat / 256]) : s.givesNothing (.msmbWake t ⟨w, pec⟩) := by
  refine State.givesNothing_of_done t ((exec_msmbWake s t w pec).trans (if_neg fun ⟨h2, hw, hg⟩ => ?_))
  rw [State.at'_pwr] at h2
  exact (h.resolve_left (not_not_intro h2)).elim (· hw) (· ((msmbWake_good pec _).mp hg))

end Sys2Proof.Machine
end

section
/-! PROOF. The safety monitor's commands (R471, R473), and the claims of power, thermal steps and safety put together. -/

namespace Sys2Proof.Machine

variable {s x y : State} {t : Nat}

/-! ### Acknowledgement -/

/-- `PWR_SAFE_STAT` after the safe state ends: neither in force nor any cause latched. -/
def State.safeCleared (s : State) : State := (s.setBit R.PWR_SAFE_STAT 0 false).setFld R.PWR_SAFE_STAT 4 9 0

/-- The safe state ends for crucibles and line. -/
def State.safeLeft (s : State) : State :=
  { s.safeCleared with pwr := { s.safeCleared.pwr with crucibleStop := false, absentSince := none }
                       line := { s.safeCleared.line with safeSent := none } }

theorem State.safeAck_leaves (hs : x.safe = true) (hc : x.causesAbsent = true) :
    x.safeAck = if x.safeLeft.boot.lineStarted then x.safeLeft.sendResume else x.safeLeft := by
  rw [State.safeAck, if_pos (by rw [hs, hc]; rfl)]
  rfl

theorem State.safeAck_ignored (hc : x.causesAbsent = false) : x.safeAck = x := by
  rw [State.safeAck, if_neg (by simp [hc])]

/-- Left: out of the safe state with no cause latched, crucibles running, RESUME sent while line work runs (R473, R395). -/
def State.leftSafe (s s' : State) : Prop :=
  s'.safe = false ∧ s'.fld R.PWR_SAFE_STAT 4 9 = 0 ∧ s'.pwr.crucibleStop = false ∧
    s'.line.tx = s.line.tx ++ (if s.boot.lineStarted then [.resume] else [])

theorem State.frame_safeLeft (x : State) : x.sameBut x.safeLeft [.regs, .pwr, .line] ∧ x.safeLeft.safe = false ∧
    x.safeLeft.fld R.PWR_SAFE_STAT 4 9 = 0 := by
  have hregs : x.safeLeft.regs = x.safeCleared.regs := rfl
  have hc : x.sameBut x.safeCleared [.regs] := by simp [State.safeCleared]
  refine ⟨(hc.mono (by decide)).trans ((State.sameBut_mix _ x.safeLeft [.pwr, .line]).mono (by decide)), ?_, ?_⟩
  · rw [State.safe, State.bit_congr hregs, State.safeCleared, State.bit_setFld_apart _ (by decide),
      State.bit_setBit_same _ _ _ _ (by decide)]
  · rw [State.fld_congr hregs, State.safeCleared, State.fld_setFld_same _ _ _ _ _ (by decide)]
    rfl

theorem State.safeAck_leftSafe (hs : x.safe = true) (hc : x.causesAbsent = true) :
    x.sameBut x.safeAck [.regs, .pwr, .line] ∧ x.leftSafe x.safeAck := by
  obtain ⟨hf, h0, h1⟩ := x.frame_safeLeft
  have hboot : x.safeLeft.boot = x.boot := hf.2 .boot (by decide)
  rw [State.safeAck_leaves hs hc, hboot]
  cases hl : x.boot.lineStarted
  · refine ⟨hf, h0, h1, rfl, ?_⟩
    rw [hl]
    exact (List.append_nil _).symm
  · have hr : x.safeLeft.sendResume.regs = x.safeLeft.regs := rfl
    refine ⟨hf.trans ((State.sameBut_mix _ x.safeLeft.sendResume [.line]).mono (by decide)), ?_, ?_, rfl, ?_⟩
    · rw [if_pos rfl, State.safe, State.bit_congr hr]
      exact h0
    · rw [if_pos rfl, State.fld_congr hr, h1]
    · rw [hl]
      rfl

theorem State.leftSafe_settle (h : x.leftSafe y) (hl : s.line = x.line) (hb : s.boot = x.boot) : s.leftSafe y.settle := by
  obtain ⟨h0, h1, h2, h3⟩ := h
  rw [← hl, ← hb] at h3
  exact ⟨h0, h1, h2, h3⟩

theorem exec_safeAck (s : State) (t : Nat) :
    exec (.safeAck t) s = if (s.at' t).running then done (s.at' t).safeAck else done (s.at' t) := rfl

/-- Any command that ends in an acknowledgement with every cause absent leaves the safe state. -/
theorem ack_gives {c : Instr} (hexec : exec c s = done (s.at' t).safeAck) (hs : s.safe = true) (hc : (s.at' t).causesAbsent = true) :
    s.gives c [.regs, .pwr, .line] s.leftSafe := by
  obtain ⟨hf, hl⟩ := State.safeAck_leftSafe (x := s.at' t) ((s.safe_at' t).trans hs) hc
  exact State.gives_of_done t hexec hf (State.leftSafe_settle hl (s.at'_line t).symm (s.at'_boot t).symm)

theorem safeAck_gives (hr : s.running = true) (hs : s.safe = true) (hc : (s.at' t).causesAbsent = true) :
    s.gives (.safeAck t) [.regs, .pwr, .line] s.leftSafe :=
  ack_gives ((exec_safeAck s t).trans (if_pos (by rw [State.running_at', hr]))) hs hc

theorem safeAck_nothing (hr : s.running = true) (hc : (s.at' t).causesAbsent = false) : s.givesNothing (.safeAck t) :=
  State.givesNothing_of_done t ((exec_safeAck s t).trans ((if_pos (by rw [State.running_at', hr])).trans
    (congrArg done (State.safeAck_ignored hc))))

theorem exec_safeAutoAck (s : State) (t : Nat) : exec (.safeAutoAck t) s =
    match (s.at' t).pwr.absentSince with
    | some t0 => if (s.at' t).running && decide ((s.at' t).fld R.PWR_SAFE_CFG 8 16 ≠ 0) &&
        decide (t0 + (s.at' t).fld R.PWR_SAFE_CFG 8 16 * 1000 * ms ≤ (s.at' t).now) then done (s.at' t).safeAck else done (s.at' t)
    | none => done (s.at' t) := rfl

theorem safeAutoAck_gives {t0 : Nat} (hr : s.running = true) (hs : s.safe = true) (h0 : s.pwr.absentSince = some t0)
    (ha : s.fld R.PWR_SAFE_CFG 8 16 ≠ 0) (ht : t0 + s.fld R.PWR_SAFE_CFG 8 16 * 1000000000 ≤ max s.now t)
    (hc : (s.at' t).causesAbsent = true) : s.gives (.safeAutoAck t) [.regs, .pwr, .line] s.leftSafe := by
  have hms : ∀ a : Nat, a * 1000 * ms = a * 1000000000 := fun a => Nat.mul_assoc a 1000 ms
  have hexec := exec_safeAutoAck s t
  rw [State.at'_pwr, h0] at hexec
  refine ack_gives (hexec.trans (if_pos ?_)) hs hc
  rw [State.running_at', State.fld_at', State.now_at', hms, hr, decide_eq_true ha, decide_eq_true ht]
  rfl

theorem safeAutoAck_nothing (ha : s.fld R.PWR_SAFE_CFG 8 16 = 0) : s.givesNothing (.safeAutoAck t) := by
  refine State.givesNothing_of_done t ((exec_safeAutoAck s t).trans ?_)
  cases (s.at' t).pwr.absentSince with
  | none => rfl
  | some t0 => exact if_neg (by simp [ha])

/-! ### A forced cause -/

theorem exec_safeForce (hr : s.running = true) : exec (.safeForce t) s = done ((s.at' t).safeEnter 8) :=
  (show exec (.safeForce t) s = if (s.at' t).running then done ((s.at' t).safeEnter 8) else done (s.at' t) from rfl).trans
    (if_pos (by rw [State.running_at', hr]))

theorem State.safeStop_other (x : State) : x.safeStop 8 = x := if_neg (by decide)

theorem safeForce_again (hr : s.running = true) (hs : s.safe = true) : s.gives (.safeForce t) [.regs] fun s' =>
    s.regsBut s' [R.PWR_SAFE_STAT] ∧ s'.bit R.PWR_SAFE_STAT 12 = true ∧ s'.safe = true := by
  have hexec := exec_safeForce (t := t) hr
  rw [State.safeEnter_again (by rw [State.running_at', hr]) ((s.safe_at' t).trans hs), State.safeStop_other] at hexec
  refine State.gives_of_done t hexec (by simp) ⟨?_, ?_, ?_⟩
  · exact ((State.regsBut_congr (s.at'_regs t) _).trans (State.regsBut_setBit (State.regsBut_refl _ _) (by simp))).trans
      (State.regsBut_congr (State.settle_regs _) _)
  · rw [State.bit_settle, show (12 : Nat) = 4 + 8 from rfl, State.bit_setBit_same _ _ _ _ (by decide)]
  · rw [State.safe, State.bit_settle, State.bit_setBit_apart _ (by decide), State.bit_at']
    exact hs

theorem safeForce_enters (hr : s.running = true) (hs : s.safe = false) (hl : s.line.ledger = []) :
    s.gives (.safeForce t) (.line :: raiseParts) fun s' => s'.safe = true ∧ s'.bit R.PWR_SAFE_STAT 12 = true ∧
      s'.line.tx = s.line.tx ++ [.safe] ∧ s'.pins.msmbAlertLow = true := by
  have hexec := exec_safeForce (t := t) hr
  rw [State.safeEnter_first (by rw [State.running_at', hr]) ((s.safe_at' t).trans hs), State.safeStop_other] at hexec
  obtain ⟨hf, h0, h1, htx⟩ := State.frame_safeEnter (x := s.at' t) (c := 8) (by rw [State.at'_line, hl]) (by decide)
  rw [State.at'_line] at htx
  refine State.gives_of_done t hexec hf ⟨?_, ?_, by rw [State.settle_line, htx], State.alert_settle_safe h0⟩
  · rw [State.safe, State.bit_settle]
    exact h0
  · rw [State.bit_settle, show (12 : Nat) = 4 + 8 from rfl, h1]

/-- Every read of MSMB but that of the status word, with the value it is of (R467). -/
theorem msmbReads (s : State) (t : Nat) :
    let reads (c : Instr) (cmd : Nat) (inS2 : Bool) (v : Nat) : Prop := exec c s = done ((s.at' t).msmbRead cmd inS2 false v)
    reads (.msmbVin t) 0x10 true s.mod.vinMv ∧ reads (.msmbInputCurrent t) 0x11 true s.pwr.current ∧
    reads (.msmbInputPower t) 0x12 true s.pwr.power ∧ reads (.msmbJunction t) 0x20 false s.pwr.junction ∧
    reads (.msmbBoardTemp t) 0x21 true s.pwr.board ∧ reads (.msmbRonyrJunction t) 0x22 true s.pwr.rnyJunction ∧
    reads (.msmbLplus t) 0x30 true (s.ron.lplusMv / 10) ∧ reads (.msmbCrucibleStep t) 0x40 false (s.fld R.PWR_CLK 0 3) ∧
    reads (.msmbSafeCauses t) 0x50 false (s.fld R.PWR_SAFE_STAT 4 9) := by
  dsimp only
  rw [← s.at'_mod t, ← s.at'_pwr t, ← s.at'_ron t, ← s.fld_at' t, ← s.fld_at' t]
  exact ⟨rfl, rfl, rfl, rfl, rfl, rfl, rfl, rfl, rfl⟩

/-- Settles O59, command by command. -/
theorem powerThermalAndSafety : Obligations.PowerThermalAndSafety := by
  unfold Obligations.PowerThermalAndSafety
  intro s t
  obtain ⟨vin, cur, pow, jun, brd, rny, lpl, stp, cau⟩ := msmbReads s t
  have s2 : (.pwrReqS2 t, 2) ∈ powerRequests t := by simp [powerRequests]
  have s3 : (.pwrReqS3 t, 3) ∈ powerRequests t := by simp [powerRequests]
  refine ⟨throttleStep_gives, throttleStep_givesNothing,
    fun j => ⟨thermalSafe_enters, thermalSafe_hot, thermalSafe_cool, thermalSafe_between⟩,
    fun m => ⟨telemetry_gives, telemetry_discards, telemetry_s2, telemetry_nothing⟩,
    fun hr hp => ⟨reqS0_fromS1 hr hp, reqS0_inS0 hr hp, reqS1_enters hr hp, reqS1_waits hr hp, fun st hst => ?_⟩,
    fun c hc => ⟨powerRequest_absent_gives hc, powerRequest_nothing hc⟩,
    fun hr hp h0 => ⟨s1IdleEntry_enters hr hp h0, s1IdleEntry_nothing⟩, s1Wake_wakes, s1Wake_nothing, s2Wake_wakes, s2Wake_nothing,
    ⟨msmbRead_gives vin, msmbRead_gives cur, msmbRead_gives pow, msmbRead_gives jun, msmbRead_gives brd, msmbRead_gives rny,
      msmbRead_gives lpl, msmbRead_gives stp, msmbRead_gives cau, msmbStatus_gives s t⟩,
    fun w pec => ⟨msmbWake_wakes, msmbWake_nothing⟩,
    fun hr hs => ⟨safeAck_gives hr hs, safeAck_nothing hr, fun t0 h0 ha ht hc => safeAutoAck_gives hr hs h0 ha ht hc,
      safeAutoAck_nothing, safeForce_again hr hs⟩, safeForce_enters⟩
  obtain rfl | rfl := hst
  · exact ⟨reqSleep_refused s2 (show 2 ≤ 2 by decide) hr hp, reqSleep_sleeps s2 (.inl rfl) hr hp⟩
  · exact ⟨reqSleep_refused s3 (show 2 ≤ 3 by decide) hr hp, reqSleep_sleeps s3 (.inr rfl) hr hp⟩

end Sys2Proof.Machine
end

section
/-! PROOF. Faulting pours and pieces (R323, R471, R457): what it leaves alone, operation by operation, down to the records and frames it
sends. -/

namespace Sys2Proof.Machine

variable {x y z : State} {l : List Part}

/-- Parts that faulting pours and pieces may change: neither module, boot, power, time, security nor Ronyr. -/
def faultParts : List Part :=
  [.free, .regs, .host, .stage, .line, .jrn, .chain, .dbg, .hostMem, .fab, .meter, .permits, .sch, .intk]

/-- Registers that tell of the safe state and of the boot: no work touches them. -/
def heldRegs : List Nat := [R.PWR_SAFE_STAT, R.GLB_BOOT_STATUS]

/-- From `x` to `y` no more happens than faulting work may bring about. -/
def State.faults (x y : State) : Prop := x.sameBut y faultParts ∧ ∀ a ∈ heldRegs, y.rd a = x.rd a

theorem State.faults_refl (x : State) : x.faults x := ⟨x.sameBut_refl _, fun _ _ => rfl⟩

theorem State.faults.trans (hxy : x.faults y) (hyz : y.faults z) : x.faults z :=
  ⟨hxy.1.trans hyz.1, fun a ha => (hyz.2 a ha).trans (hxy.2 a ha)⟩

/-- An update of parts beside the registers. -/
theorem State.faults_parts (h : x.sameBut y l) (hl : ∀ p ∈ l, p ∈ faultParts) (hr : .regs ∉ l) : x.faults y :=
  ⟨h.mono hl, fun a _ => State.rd_congr (h.2 .regs hr) a⟩

/-- An update that writes registers, none of those held. -/
theorem State.faults_regs {rs : List Nat} (h : x.sameBut y l) (hl : ∀ p ∈ l, p ∈ faultParts) (hr : x.regsBut y rs)
    (hrs : ∀ a ∈ heldRegs, a ∉ rs) : x.faults y := ⟨h.mono hl, fun a ha => hr a (hrs a ha)⟩

theorem State.faults_wr (x : State) {a : Nat} (v : Nat) (h : ∀ b ∈ heldRegs, b ≠ a) : x.faults (x.wr a v) :=
  ⟨(State.sameBut_wr (by decide)).mpr (x.sameBut_refl _), fun b hb => State.rd_wr_other x v (h b hb)⟩

theorem State.records.faults (h : x.records y) : x.faults y := State.faults_regs h.1 (by decide) h.2 (by decide)

theorem State.faults_raise (x : State) (c : Nat) (e : EvWords) (k : Nat) : x.faults (x.raise c e k) := (x.records_raise c e k).faults

theorem State.faults_journal (x : State) (typ n : Nat) (ws : List Nat) : x.faults (x.journal typ n ws) := (x.records_journal typ n ws).faults

theorem State.faults_journalEvent (x : State) (c k : Nat) (d : List Nat) : x.faults (x.journalEvent c k d) := x.faults_journal _ _ _

theorem State.faults_trace (x : State) (p src arg : Nat) : x.faults (x.trace p src arg) :=
  State.faults_regs ((State.sameBut_trace (l := [.regs, .dbg]) fun _ h => h).mpr (x.sameBut_refl _)) (by decide) (x.regsBut_trace _ _ _)
    (by decide)

/-- A fold of such steps is one. -/
theorem State.faults_foldl {α : Type} (f : State → α → State) (as : List α) (h : ∀ s : State, ∀ a ∈ as, s.faults (f s a)) (x : State) :
    x.faults (as.foldl f x) :=
  List.foldlRecOn (motive := fun y => x.faults y) as f x.faults_refl fun y hy a ha => hy.trans (h y a ha)

theorem State.faults_line (x : State) (d : Line) : x.faults { x with line := d } :=
  State.faults_parts (x.sameBut_mix { x with line := d } [.line]) (by decide) (by decide)

theorem State.faults_sch (x : State) (d : Sched) : x.faults { x with sch := d } :=
  State.faults_parts (x.sameBut_mix { x with sch := d } [.sch]) (by decide) (by decide)

theorem State.faults_fab (x : State) (d : Fabric) : x.faults { x with fab := d } :=
  State.faults_parts (x.sameBut_mix { x with fab := d } [.fab]) (by decide) (by decide)

theorem State.faults_chain (x : State) (d : Chain) : x.faults { x with chain := d } :=
  State.faults_parts (x.sameBut_mix { x with chain := d } [.chain]) (by decide) (by decide)

theorem State.faults_intk (x : State) (d : Intake) : x.faults { x with intk := d } :=
  State.faults_parts (x.sameBut_mix { x with intk := d } [.intk]) (by decide) (by decide)

theorem State.faults_jrn (x : State) (d : Journal) : x.faults { x with jrn := d } := (x.records_jrn d).faults

theorem State.faults_lineStage (x : State) (d : Line) (g : Stage) : x.faults { x with line := d, stage := g } :=
  State.faults_parts (x.sameBut_mix { x with line := d, stage := g } [.line, .stage]) (by decide) (by decide)

theorem State.faults_permits (x : State) (d : Permits) : x.faults { x with permits := d } :=
  State.faults_parts (x.sameBut_mix { x with permits := d } [.permits]) (by decide) (by decide)

theorem State.faults_host (x : State) (d : HostIf) : x.faults { x with host := d } :=
  State.faults_parts (x.sameBut_host d) (by decide) (by decide)

theorem State.faults_fresh (x : State) : x.faults x.fresh :=
  State.faults_parts (x.sameBut_mix x.fresh [.free]) (by decide) (by decide)

/-! ### Frames on the chain -/

theorem State.faults_txBytes (x : State) {p : Nat} (n : Nat) (hp : p < 4) : x.faults (x.txBytes p n) := by
  have h : ∀ a ∈ heldRegs, a ≠ R.LNK_NLX_TX_BYTES p ∧ a ≠ R.LNK_NLX_TX_BYTES p + 4 := by
    simp only [heldRegs, List.mem_cons, List.not_mem_nil, or_false, forall_eq_or_imp, forall_eq, R.LNK_NLX_TX_BYTES, R.PWR_SAFE_STAT,
      R.GLB_BOOT_STATUS]
    omega
  exact (x.faults_wr _ fun a ha => (h a ha).1).trans (State.faults_wr _ _ fun a ha => (h a ha).2)

theorem State.faults_setNlx (x : State) (p : Nat) (d : NlxPort) : x.faults (x.setNlx p d) := x.faults_chain _

theorem State.faults_sendOn (x : State) {p : Nat} (f : NlxFrame) (hp : p < 4) : x.faults (x.sendOn p f) :=
  (((x.faults_setNlx _ _).trans (State.faults_intk _ _)).trans (State.faults_intk _ _)).trans (State.faults_txBytes _ _ hp)

theorem State.faults_takeFrame (x : State) {p : Nat} (own : Bool) (f : NlxFrame) (hp : p < 4) : x.faults (x.takeFrame p own f) := by
  have h : x.faults ((x.setNlx p { x.nlx p with ownNext := !own }).sendOn p f) :=
    (x.faults_setNlx _ _).trans (State.faults_sendOn _ f hp)
  unfold State.takeFrame
  generalize (x.setNlx p { x.nlx p with ownNext := !own }).sendOn p f = w at h ⊢
  dsimp only
  split
  · exact h.trans (w.faults_chain _)
  · exact h.trans (w.faults_chain _)

theorem State.faults_flushPort {p : Nat} (hp : p < 4) (n : Nat) : ∀ x : State, x.faults (x.flushPort p n) := by
  induction n with
  | zero => exact State.faults_refl
  | succ n ih =>
    intro x
    unfold State.flushPort
    split
    · exact x.faults_refl
    · split
      · exact (x.faults_takeFrame _ _ hp).trans (ih _)
      · exact x.faults_refl

theorem State.faults_noteLimit (x : State) : x.faults x.noteLimit := by
  unfold State.noteLimit
  split
  · exact x.faults_chain _
  · exact x.faults_chain _
  · exact x.faults_refl

theorem State.faults_flushFrames (x : State) : x.faults x.flushFrames :=
  (State.faults_foldl _ [0, 1, 2, 3] (fun s p hp => State.faults_flushPort ((by decide : ∀ q ∈ [0, 1, 2, 3], q < 4) p hp) _ s) x).trans
    (State.faults_noteLimit _)

theorem State.faults_sendShare (x : State) (m : ShareMsg) : x.faults (x.sendShare m) := by
  unfold State.sendShare
  dsimp only
  split
  · exact x.faults_journalEvent _ _ _
  · exact (x.faults_chain _).trans (State.faults_flushFrames _)

/-! ### Verdicts of pieces -/

/-- Entry `i`, if it is there, has the verdict `v`. -/
def State.verdictIs (s : State) (i v : Nat) : Prop := ∀ e, s.entry i = some e → e.verdict = v

theorem State.verdictIs_congr {i v : Nat} (h : y.line.ledger = x.line.ledger) (hx : x.verdictIs i v) : y.verdictIs i v := by
  intro e he
  rw [State.entry, h] at he
  exact hx e he

theorem State.entry_setEntry (x : State) (i : Nat) (e : LEntry) : (x.setEntry i e).entry i = some e := KMap.find_put_same _ _ _

theorem State.verdictIs_setEntry (x : State) (i : Nat) (e : LEntry) : (x.setEntry i e).verdictIs i e.verdict := by
  intro d hd
  rw [State.entry_setEntry, Option.some.injEq] at hd
  rw [hd]

theorem State.faults_setEntry (x : State) (i : Nat) (e : LEntry) : x.faults (x.setEntry i e) := x.faults_line _

theorem State.ledger_trace (x : State) (p src arg : Nat) : (x.trace p src arg).line.ledger = x.line.ledger := by
  obtain ⟨r, d, h⟩ := x.trace_frame p src arg
  rw [h]

/-- SCH's mark of a code: it may let go of the entry, whose verdict stays. -/
theorem State.faults_schMark (x : State) {i v w : Nat} (hv : x.verdictIs i w) : x.faults (x.schMark i v) ∧ (x.schMark i v).verdictIs i w := by
  unfold State.schMark
  split
  · exact ⟨x.faults_refl, hv⟩
  · dsimp only
    split
    · split
      next e he =>
        have hw : e.verdict = w := hv e he
        exact ⟨(x.faults_sch _).trans (State.faults_setEntry _ _ _), hw ▸ State.verdictIs_setEntry _ i { e with held := false }⟩
      · exact ⟨x.faults_sch _, hv⟩
    · split
      · exact ⟨x.faults_sch _, hv⟩
      · split
        · exact ⟨x.faults_sch _, hv⟩
        · exact ⟨x.faults_refl, hv⟩

theorem State.faults_latchHalt (x : State) (i : Nat) : x.faults (x.latchHalt i) := (x.records_latchHalt i).faults

theorem State.faults_noteUndec (x : State) : x.faults x.noteUndec ∧ x.noteUndec.line.ledger = x.line.ledger := by
  unfold State.noteUndec
  dsimp only
  split
  · exact ⟨((x.faults_line _).trans (State.faults_latchHalt _ 0)).trans (State.faults_line _ _), rfl⟩
  · exact ⟨x.faults_line _, rfl⟩

theorem State.faults_sendTaps (x : State) (os : List TapOrder) : x.faults (x.sendTaps os) ∧
    (x.sendTaps os).line.ledger = x.line.ledger := by
  refine ⟨(x.faults_line _).trans (State.faults_foldl _ _ (fun s _ _ => s.faults_trace _ _ _) _), ?_⟩
  exact List.foldlRecOn (motive := fun y : State => y.line.ledger = x.line.ledger) os _ rfl fun y hy o _ => (y.ledger_trace _ _ _).trans hy

theorem State.faults_inc (x : State) {a : Nat} (h : ∀ b ∈ heldRegs, b ≠ a) : x.faults (x.inc a) := x.faults_wr _ h

theorem State.faults_pieceRecord (x : State) (e : LEntry) (full : Bool) (h : e.verdict = 6) : x.faults (x.pieceRecord e full) := by
  have hreg : ∀ b ∈ heldRegs, b ≠ R.LIN_VERDICTS e.verdict := by rw [h]; decide
  have hrec : ∀ (c : Prop) [Decidable c] (w : State) (t n : Nat) (ws : List Nat), x.faults w →
      x.faults (if c then w.journal t n ws else w) := by
    intro c _ w t n ws hw
    split
    · exact hw.trans (w.faults_journal _ _ _)
    · exact hw
  exact ((hrec _ _ _ _ _ (x.faults_journal _ _ _)).trans (State.faults_inc _ hreg)).trans
    (State.faults_jrn _ _)

/-- An entry with code 6 that may be freed is: its record is written, and it leaves the ledger. -/
theorem State.faults_tryFree (x : State) {i : Nat} (hv : x.verdictIs i 6) : x.faults (x.tryFree i) ∧ (x.tryFree i).verdictIs i 6 := by
  unfold State.tryFree
  split
  · exact ⟨x.faults_refl, hv⟩
  next e he =>
    split
    · refine ⟨(x.faults_pieceRecord e false (hv e he)).trans (State.faults_lineStage _ _ _), fun d hd => ?_⟩
      exact absurd (hd.symm.trans (KMap.find_del_same _ _)) (by simp)
    · exact ⟨x.faults_refl, hv⟩

theorem State.faults_planAction (x : State) {i : Nat} (a : Nat) (d : Bool) (hv : x.verdictIs i 6) :
    x.faults (x.planAction i a d) ∧ (x.planAction i a d).verdictIs i 6 := by
  unfold State.planAction
  split
  · exact ⟨x.faults_refl, hv⟩
  next e he =>
    have hentry : x.entry i = some e := by
      split at he
      · exact absurd he (by simp)
      · exact he
    dsimp only
    have hset : ∀ e' : LEntry, e'.verdict = e.verdict → (x.setEntry i e').verdictIs i 6 := fun e' he' =>
      (he'.trans (hv e hentry)) ▸ x.verdictIs_setEntry i e'
    have htaps : ∀ (e' : LEntry) (os : List TapOrder), e'.verdict = e.verdict →
        x.faults (((x.setEntry i e').sendTaps os).tryFree i) ∧ (((x.setEntry i e').sendTaps os).tryFree i).verdictIs i 6 := by
      intro e' os he'
      obtain ⟨hf, hl⟩ := (x.setEntry i e').faults_sendTaps os
      obtain ⟨hg, hw⟩ := State.faults_tryFree _ (State.verdictIs_congr hl (hset e' he'))
      exact ⟨((x.faults_setEntry _ _).trans hf).trans hg, hw⟩
    exact htaps _ _ rfl

theorem State.faults_shareSettle (x : State) (p : Piece) (k : Nat) : x.faults (x.shareSettle p k) := by
  unfold State.shareSettle
  split
  · exact x.faults_refl
  · exact x.faults_sendShare _

theorem State.faults_schMark_absent (x : State) (i v : Nat) : x.faults (x.schMark i v) := by
  unfold State.schMark
  split
  · exact x.faults_refl
  · dsimp only
    split
    · split
      · exact (x.faults_sch _).trans (State.faults_setEntry _ _ _)
      · exact x.faults_sch _
    · split
      · exact x.faults_sch _
      · split
        · exact x.faults_sch _
        · exact x.faults_refl

theorem State.faults_memberCode (x : State) (i v : Nat) : x.faults (x.memberCode i v) := by
  unfold State.memberCode
  split
  · exact x.faults_refl
  · split
    · exact x.faults_refl
    · exact (x.faults_shareSettle _ _).trans (State.faults_schMark_absent _ _ _)

end Sys2Proof.Machine
end

section
/-! PROOF. Faulting every piece and every pour (R323, R471): what the whole of it leaves alone. -/

namespace Sys2Proof.Machine

variable {x y z : State}

/-! ### Codes -/

/-- Code 6 on a piece without a code; on one with a code the cause is journalled (R368). -/
theorem State.faults_setCode (x : State) (i c : Nat) : x.faults (x.setCode i 6 c) ∧
    (∀ e, x.entry i = some e → e.verdict = 0 → x.line.frozen = false → (x.setCode i 6 c).verdictIs i 6) := by
  unfold State.setCode
  split
  next he =>
    refine ⟨?_, fun e he' => absurd (he.symm.trans he') (by simp)⟩
    split
    · exact x.faults_memberCode _ _
    · exact x.faults_refl
  next e he =>
    split
    next hf => exact ⟨x.faults_refl, fun _ _ _ hf' => absurd (hf.symm.trans hf') (by simp)⟩
    · split
      next hv =>
        refine ⟨?_, fun d hd h0 => absurd (Option.some.inj (he.symm.trans hd) ▸ h0) hv⟩
        split
        · exact x.faults_refl
        · exact x.faults_journalEvent _ _ _
      · dsimp only
        have hcode : ∀ e' : LEntry, e'.verdict = 6 → ∀ b : Bool, ∀ g k : Nat,
            let s1 := ((x.setEntry i e').trace 0x41 35 (i + 6 * 2 ^ 17)).schMark i 6
            let s2 := if b then s1.noteUndec.planAction i (s1.noteUndec.defaultAction g k) true else s1.noteUndec
            x.faults s2 ∧ s2.verdictIs i 6 := by
          intro e' h6 b g k
          have hset : (x.setEntry i e').verdictIs i 6 := h6 ▸ x.verdictIs_setEntry i e'
          have htr := State.verdictIs_congr (State.ledger_trace _ 0x41 35 (i + 6 * 2 ^ 17)) hset
          obtain ⟨hm, hmv⟩ := State.faults_schMark (v := 6) _ htr
          have hmark := ((x.faults_setEntry i e').trans (State.faults_trace _ 0x41 35 (i + 6 * 2 ^ 17))).trans hm
          generalize ((x.setEntry i e').trace 0x41 35 (i + 6 * 2 ^ 17)).schMark i 6 = w at hmark hmv
          obtain ⟨hu, hl⟩ := w.faults_noteUndec
          have huv := State.verdictIs_congr hl hmv
          cases b
          · exact ⟨hmark.trans hu, huv⟩
          · obtain ⟨hp, hpv⟩ := State.faults_planAction w.noteUndec (w.noteUndec.defaultAction g k) true huv
            exact ⟨(hmark.trans hu).trans hp, hpv⟩
        obtain ⟨h, hv⟩ := hcode { e with
          verdict := 6, cause := if 3 ≤ 6 then c else 0, state := 3, vs := x.devS, vns := x.devNs,
          vcount := x.mirror (x.classChan e.gen e.cls) } rfl e.trailKnown e.gen e.cls
        exact ⟨h, fun _ _ _ _ => hv⟩

theorem State.faults_planDefault (x : State) {i : Nat} (hv : x.verdictIs i 6) : x.faults (x.planDefault i) := by
  unfold State.planDefault
  split
  · split
    · exact (x.faults_planAction _ true hv).1
    · exact x.faults_refl
  · exact x.faults_refl

/-- A frozen ledger takes no code, and plans nothing (R475). -/
theorem State.setCode_frozen {e : LEntry} {i v c : Nat} (he : x.entry i = some e) (hf : x.line.frozen = true) : x.setCode i v c = x := by
  rw [State.setCode, he]
  exact if_pos hf

theorem State.planDefault_uncoded {e : LEntry} {i : Nat} (he : x.entry i = some e) (h0 : e.verdict = 0) : x.planDefault i = x := by
  rw [State.planDefault, he]
  exact if_neg (by omega)

theorem State.faults_faultOpenPieces (x : State) (c : Nat) : x.faults (x.faultOpenPieces c) := by
  refine State.faults_foldl _ _ (fun s i _ => ?_) x
  split
  next e he =>
    split
    next h0 =>
      cases hf : s.line.frozen
      · obtain ⟨hc, hv⟩ := s.faults_setCode i c
        exact hc.trans (State.faults_planDefault _ (hv e he h0 hf))
      · rw [State.setCode_frozen he hf, State.planDefault_uncoded he h0]
        exact s.faults_refl
    · exact s.faults_refl
  · exact s.faults_refl

theorem State.faults_faultPieces (x : State) (is : List Nat) (c : Nat) : x.faults (x.faultPieces is c) :=
  State.faults_foldl _ _ (fun s i _ => (s.faults_setCode i c).1) x

/-! ### Tasks and descriptors -/

theorem State.faults_setCru (x : State) (c : Nat) (q : Cru) : x.faults (x.setCru c q) := x.faults_fab _

theorem State.faults_setTile (x : State) (c i : Nat) (t : Tile) : x.faults (x.setTile c i t) := x.faults_fab _

theorem State.faults_leave (x : State) (i : Nat) : x.faults (x.leave i) := by
  have ht : ∀ w : State, w.faults (w.allotTiles (i / 4) (i % 4) none) := State.faults_foldl _ _ fun s t _ => by
    split
    · exact s.faults_setTile _ _ _
    · exact s.faults_setTile _ _ _
  exact ((x.faults_fab _).trans (ht _)).trans (State.faults_sch _ _)

theorem State.faults_setPour (x : State) (p : Pour) : x.faults (x.setPour p) := x.faults_sch _

theorem State.faults_stepFaulted (x : State) (c id : Nat) : x.faults (x.stepFaulted c id) := by
  unfold State.stepFaulted
  split
  · exact x.faults_refl
  · exact ((State.faults_foldl _ _ (fun s e _ => s.faults_leave e.1) x).trans (State.faults_sch _ _)).trans (State.faults_setPour _ _)

theorem State.faults_dropPermit (x : State) (b : Bool) (u : Nat) : x.faults (x.dropPermit b u) := x.faults_permits _

theorem State.faults_dropDescs (x : State) (id : Nat) : x.faults (x.dropDescs id) := by
  refine State.faults_foldl _ _ (fun s c _ => ?_) x
  dsimp only
  split
  · split
    · exact (s.faults_dropPermit _ _).trans (State.faults_setCru _ _ _)
    · exact s.faults_setCru _ _
  · exact s.faults_setCru _ _

/-! ### Transfers -/

theorem State.faults_mwrite (x : State) (n off : Nat) (bs : List Byte) : x.faults (x.mwrite n off bs) := x.faults_fab _

theorem State.faults_hostMem (x : State) (m : Mem) : x.faults { x with hostMem := m } :=
  State.faults_parts (x.sameBut_mix { x with hostMem := m } [.hostMem]) (by decide) (by decide)

theorem State.faults_placeWrite (x : State) (c va : Nat) (bs : List Byte) : x.faults (x.placeWrite c va bs) := by
  unfold State.placeWrite
  split
  · exact x.faults_hostMem _
  · unfold State.pwrite
    dsimp only
    split
    · exact x.faults_fab _
    · exact (x.faults_fab _).trans (State.faults_wr _ _ (by decide))

theorem State.faults_vwrite (c fuel : Nat) : ∀ (x : State) (va : Nat) (bs : List Byte), x.faults (x.vwrite c fuel va bs) := by
  induction fuel with
  | zero => exact fun x _ _ => x.faults_refl
  | succ n ih =>
    intro x va bs
    unfold State.vwrite
    dsimp only
    split
    · exact x.faults_placeWrite _ _ _
    · exact (x.faults_placeWrite _ _ _).trans (ih _ _ _)

theorem State.faults_lUndefined (x : State) (n : Nat) (d : LDesc) : x.faults (x.lUndefined n d) := by
  refine x.faults_fresh.trans (State.faults_foldl _ _ (fun s e _ => ?_) _)
  split
  · exact s.faults_refl
  · dsimp only
    split
    · split
      · split
        · exact State.faults_vwrite _ _ _ _ _
        · exact s.faults_refl
      · exact s.faults_refl
    · split
      · exact s.faults_mwrite _ _ _
      · exact s.faults_refl

theorem State.faults_evcDone (x : State) (p n c : Nat) : x.faults (x.evcDone p n c) := by
  unfold State.evcDone
  split
  · exact x.faults_fab _
  · exact x.faults_refl

theorem State.faults_lRecord (x : State) (n : Nat) (d : LDesc) (c r k : Nat) : x.faults (x.lRecord n d c r k) := by
  unfold State.lRecord
  split
  · exact x.faults_mwrite _ _ _
  · exact x.faults_refl

theorem State.faults_lFinish (x : State) (n q : Nat) (d : LDesc) (c r k : Nat) : x.faults (x.lFinish n q d c r k) := by
  have hreg : ∀ a ∈ heldRegs, a ≠ R.FLK_LADLE_EVT n q := by
    simp only [heldRegs, List.mem_cons, List.not_mem_nil, or_false, forall_eq_or_imp, forall_eq, R.FLK_LADLE_EVT, R.PWR_SAFE_STAT,
      R.GLB_BOOT_STATUS]
    omega
  have h2 : ∀ (b : Prop) [Decidable b] (w : State) (p m e : Nat), w.faults (if b then w.evcDone p m e else w) := by
    intro b _ w p m e
    split
    · exact w.faults_evcDone _ _ _
    · exact w.faults_refl
  have h3 : ∀ (w : State) (p t e u m : Nat) (ok : Bool), w.faults (w.settleTicket p t e u m ok) := fun w _ _ _ _ _ _ => w.faults_fab _
  have h : ∀ w : State, x.faults w → x.faults (if c = 0 then w else (w.incSat (R.FLK_LADLE_EVT n q) 16 16).raise E_LADLE_ABORT {} d.ctx) := by
    intro w hw
    split
    · exact hw
    · exact (hw.trans (w.faults_wr _ hreg)).trans (State.faults_raise _ _ _ _)
  exact h _ (((x.faults_lRecord _ _ _ _ _).trans (h2 _ _ _ _ _)).trans (h3 _ _ _ _ _ _ _))

theorem State.faults_setLadle (x : State) (n q : Nat) (d : List LDesc) : x.faults (x.setLadle n q d) := x.faults_fab _

theorem State.faults_dropLadles (x : State) (id r : Nat) : x.faults (x.dropLadles id r) := by
  refine State.faults_foldl _ _ (fun s k _ => ?_) x
  dsimp only
  split
  · split
    · exact (((s.faults_dropPermit _ _).trans (State.faults_lUndefined _ _ _)).trans
        (State.faults_lFinish _ _ _ _ _ _ _)).trans (State.faults_setLadle _ _ _ _)
    · exact s.faults_setLadle _ _ _
  · exact s.faults_setLadle _ _ _

/-! ### Results and the ends of pours -/

theorem State.faults_backlogResult (x : State) (e : RingEntry) : x.faults (x.backlogResult e) := by
  unfold State.backlogResult
  split
  · exact x.faults_host _
  · exact x.faults_journal _ _ _

theorem State.faults_ringWrite (x : State) (r : Nat) (e : RingEntry) : x.faults (x.ringWrite r e) :=
  State.faults_regs ((x.raisedFrom_ringWrite r e).sameBut fun _ h => h) (by decide)
    (State.regsBut_ringWrite (x.regsBut_refl raiseRegs) r e) (by decide)

theorem State.faults_complete (x : State) (o : Order) (c k v3 v4 v5 : Nat) : x.faults (x.complete o c k v3 v4 v5) := by
  unfold State.complete
  dsimp only
  split
  · exact (x.faults_host _).trans (State.faults_backlogResult _ _)
  · split
    · exact (x.faults_host _).trans (State.faults_wr _ _ (by decide))
    · split
      · exact (x.faults_host _).trans (State.faults_backlogResult _ _)
      · exact (x.faults_host _).trans (State.faults_ringWrite _ _ _)

theorem State.faults_pourResult (x : State) (p : Pour) : x.faults (x.pourResult p) := by
  unfold State.pourResult
  dsimp only
  split
  · exact (x.faults_complete _ _ _ _ _ _).trans (State.faults_foldl _ _ (fun s o _ => s.faults_complete _ _ _ _ _ _) _)
  · exact State.faults_foldl _ _ (fun s o _ => s.faults_complete _ _ _ _ _ _) _

theorem State.faults_dropSaved (x : State) (p : Pour) : x.faults (x.dropSaved p) := by
  unfold State.dropSaved
  dsimp only
  split
  · exact x.faults_refl
  · split
    · exact x.faults_refl
    · exact x.faults_sch _

theorem State.faults_freeSync (x : State) (p : Pour) : x.faults (x.freeSync p) := by
  unfold State.freeSync
  split
  · exact x.faults_refl
  · exact (x.faults_fab _).trans (State.faults_fab _ _)

theorem State.faults_dropRegions (x : State) {n : Nat} (c : Nat) (hn : n < 32) : x.faults (x.dropRegions n c) := by
  have huse : ∀ a ∈ heldRegs, a ≠ R.FLK_MOULD_USE n := by
    simp only [heldRegs, List.mem_cons, List.not_mem_nil, or_false, forall_eq_or_imp, forall_eq, R.FLK_MOULD_USE, R.PWR_SAFE_STAT,
      R.GLB_BOOT_STATUS]
    omega
  have hreg : ∀ i < 16, ∀ a ∈ heldRegs, a ≠ R.FLK_REGION n i := by
    simp only [heldRegs, List.mem_cons, List.not_mem_nil, or_false, forall_eq_or_imp, forall_eq, R.FLK_REGION, R.PWR_SAFE_STAT,
      R.GLB_BOOT_STATUS]
    omega
  refine .trans (State.faults_foldl _ (List.range 16) (fun s i hi => ?_) x) (State.faults_wr _ _ huse)
  dsimp only
  split
  · exact (s.faults_fab _).trans (State.faults_wr _ _ (hreg i (List.mem_range.mp hi)))
  · exact s.faults_refl

theorem State.faults_releaseRegions (x : State) (c : Nat) : x.faults (x.releaseRegions c) := by
  unfold State.releaseRegions
  split
  · exact x.faults_refl
  · refine State.faults_foldl _ _ (fun s n hn => ?_) x
    split
    · exact (s.faults_dropRegions c (List.mem_range.mp hn)).trans (State.faults_sch _ _)
    · exact s.faults_refl

theorem State.faults_pourEnd (x : State) (p : Pour) : x.faults (x.pourEnd p) := by
  have h := ((x.faults_dropSaved p).trans (State.faults_freeSync _ p)).trans (State.faults_pourResult _ p)
  unfold State.pourEnd
  dsimp only
  split
  · exact (h.trans (State.faults_sch _ _)).trans (State.faults_releaseRegions _ _)
  · exact (h.trans (State.faults_setPour _ _)).trans (State.faults_releaseRegions _ _)

theorem State.faults_pourStop (x : State) (id r : Nat) : x.faults (x.pourStop id r) := by
  have hend : ∀ w : State, w.faults (w.pourTryEnd id) := by
    intro w
    unfold State.pourTryEnd
    split
    · exact w.faults_refl
    · split
      · exact w.faults_pourEnd _
      · exact w.faults_refl
  unfold State.pourStop
  split
  · exact x.faults_refl
  · exact (((((State.faults_foldl _ _ (fun s i _ => s.faults_leave i) x).trans (State.faults_sch _ _)).trans
      (State.faults_dropDescs _ id)).trans (State.faults_dropLadles _ id r)).trans (State.faults_setPour _ _)).trans (hend _)

theorem State.faults_pourFault (x : State) (id c : Nat) : x.faults (x.pourFault id c) := by
  unfold State.pourFault
  split
  · exact x.faults_refl
  · exact (x.faults_setPour _).trans (State.faults_pourStop _ _ _)

/-- Every pour faulted: JOB pours end, LINE pieces take their code (R471). -/
theorem State.faults_faultPours (x : State) (c : Nat) : x.faults (x.faultPours c) := by
  refine State.faults_foldl _ _ (fun s p _ => ?_) x
  split
  · split
    · exact ((s.faults_faultPieces _ c).trans (State.faults_stepFaulted _ _ _)).trans (State.faults_faultPieces _ _ c)
    · exact s.faults_pourFault _ _
  · exact s.faults_refl

theorem State.faults_hardStop (x : State) : x.faults x.hardStop := State.faults_parts x.frame_hardStop (by decide) (by decide)

end Sys2Proof.Machine
end

section
/-! PROOF. The supply (R31–R37): what the module's monitor notes, and the rise and the loss of the rails. -/

namespace Sys2Proof.Machine

variable {s x y : State} {t : Nat} {c : Instr}

/-- VIN lies within its range (Table 2.13). -/
def vinOk (v : BitVec 16) : Prop := 10800 ≤ v.toNat ∧ v.toNat ≤ 13200

/-- The module once its monitor has seen VIN at `v`, at the instant `now` (R34, R35). -/
def Module.noted (m : Module) (v : BitVec 16) (now : Nat) : Module :=
  { m with vinMv := v.toNat, badAt := if 10800 ≤ v.toNat ∧ v.toNat ≤ 13200 then m.badAt else now }

theorem State.noteVin_noted (s : State) (t : Nat) (v : BitVec 16) : ((s.at' t).noteVin v.toNat).mod = s.mod.noted v (max s.now t) := by
  rw [State.mod_noteVin, State.at'_mod, State.now_at']
  rfl

/-- No run of self-test is there to discard. -/
def State.calm (s : State) : Prop := s.running = false ∨ s.phase ≠ 3

/-- Command `c` discards the run of self-test, with the module as `m` (R58). -/
def State.discardsRun (s : State) (t : Nat) (c : Instr) (m : Module) : Prop :=
  s.gives c [.mod, .regs, .boot, .host, .dbg] fun s' => s'.mod = m ∧ s'.phase = 2 ∧ s'.bit R.GLB_BIST_SUMMARY 1 = true ∧
    s'.boot = { s.boot with condNext := max s.now t + 100000000 }

/-- Discarding a run from a state where no more than the module has changed. -/
theorem State.frame_discard {m : Module} (h : (s.at' t).sameBut x [.mod]) (hm : x.mod = m) :
    (s.at' t).sameBut x.condDiscard [.mod, .regs, .boot, .host, .dbg] ∧ x.condDiscard.mod = m ∧ x.condDiscard.phase = 2 ∧
      x.condDiscard.bit R.GLB_BIST_SUMMARY 1 = true ∧ x.condDiscard.boot = { s.boot with condNext := max s.now t + 100000000 } := by
  obtain ⟨hf, hp, hb, hboot, -⟩ := x.frame_condDiscard
  have hnow : x.now = max s.now t := h.1.trans (s.now_at' t)
  have hsb : x.boot = s.boot := Eq.trans (h.2 .boot (by decide)) (s.at'_boot t)
  rw [hnow, hsb] at hboot
  exact ⟨(h.mono (by decide)).trans (hf.mono (by decide)), Eq.trans (hf.2 .mod (by decide)) hm, hp, hb, hboot⟩

theorem State.phase_settle (x : State) : x.settle.phase = x.phase := State.fld_congr rfl _ _ _

theorem State.phase_noteDrive (x : State) : x.noteDrive.phase = x.phase := State.fld_congr rfl _ _ _

theorem State.discardsRun_of_done {m : Module} (hc : exec c s = done x.condDiscard) (h : (s.at' t).sameBut x [.mod]) (hm : x.mod = m) :
    s.discardsRun t c m := by
  obtain ⟨hf, h1, h2, h3, h4⟩ := State.frame_discard h hm
  exact State.gives_of_done t hc hf ⟨h1, (State.phase_settle _).trans h2, (State.bit_settle _ _ _).trans h3, h4⟩

theorem State.discardsRun_of_doneR {m : Module} (hc : exec c s = doneR x.condDiscard) (h : (s.at' t).sameBut x [.mod]) (hm : x.mod = m) :
    s.discardsRun t c m := by
  obtain ⟨hf, h1, h2, h3, h4⟩ := State.frame_discard h hm
  refine State.gives_of_doneR t hc hf ⟨h1, ?_, (State.bit_settle _ _ _).trans ((State.bit_congr rfl _ _).trans h3), h4⟩
  rw [State.phase_settle, State.phase_noteDrive, h2]

/-- What command `c`, that does no more than look at VIN, does (R32, R35). -/
def State.looks (s : State) (t : Nat) (c : Instr) (v : BitVec 16) : Prop :=
  ((s.calm ∨ (s.condNow = true ∧ vinOk v)) → s.gives c [.mod] fun s' => s'.mod = s.mod.noted v (max s.now t)) ∧
    (s.running = true → s.phase = 3 → ¬ vinOk v → s.discardsRun t c (s.mod.noted v (max s.now t)))

theorem State.running_congr (hm : x.mod.held = y.mod.held ∧ x.mod.railsUp = y.mod.railsUp) (hp : x.pwr.failStop = y.pwr.failStop) :
    x.running = y.running := by
  rw [State.running, State.running, hm.1, hm.2, hp]

theorem State.running_noteVin (x : State) (v : Nat) : (x.noteVin v).running = x.running := State.running_congr ⟨rfl, rfl⟩ rfl

theorem State.phase_congr (h : x.regs = y.regs) : x.phase = y.phase := State.fld_congr h _ _ _

theorem State.phase_noteVin (x : State) (v : Nat) : (x.noteVin v).phase = x.phase := State.phase_congr rfl

/-- A command that looks at VIN looks. -/
theorem State.looks_of_exec {v : BitVec 16} (h : exec c s = doneR ((s.at' t).noteVin v.toNat).condMonitor) : s.looks t c v := by
  have hf := (s.at' t).sameBut_noteVin v.toNat
  have hm := State.noteVin_noted s t v
  have hr : ((s.at' t).noteVin v.toNat).running = s.running := (State.running_noteVin _ _).trans (s.running_at' t)
  have hp : ((s.at' t).noteVin v.toNat).phase = s.phase := (State.phase_noteVin _ _).trans (s.phase_at' t)
  have hc : ((s.at' t).noteVin v.toNat).condNow = (vinGood v.toNat && s.mod.refclkOk && s.mod.serrefOk) := by
    rw [State.condNow, hm]
    rfl
  constructor
  · intro hcalm
    rw [State.condMonitor_calm] at h
    · exact State.gives_of_doneR t h hf hm
    · rw [hr, hp, hc]
      obtain (hcalm | hcalm) | ⟨hnow, hv⟩ := hcalm
      · exact .inl hcalm
      · exact .inr (.inl hcalm)
      · simp only [State.condNow, Bool.and_eq_true] at hnow
        rw [(vinGood_iff _).mpr hv, hnow.1.2, hnow.2]
        exact .inr (.inr rfl)
  · intro hrun h3 hv
    rw [State.condMonitor_fails (hr.trans hrun) (hp.trans h3) (by
      rw [hc, Bool.eq_false_of_not_eq_true fun h => hv ((vinGood_iff _).mp h)]; rfl)] at h
    exact State.discardsRun_of_doneR h hf hm

/-! ### The rails rise -/

/-- With the rails up `PWR_GOOD` is high, and `mod`, `boot` and `pwr` say how Cuette starts. -/
def State.risesTo (s s' : State) (v cause : Nat) : Prop :=
  s'.mod = { s.mod with vinMv := v, railsUp := true, aonUp := true, held := true, warning := false, visoUp := true } ∧
  s'.boot = { s.boot with nextCause := cause } ∧ s'.pwr.state = 0 ∧ s'.pins.pwrGood = true ∧
  (s.mod.visoUp = true → Part.same .ron s s' ∧ Part.same .rny s s' ∧ s'.host = s.host) ∧
  (s.mod.visoUp = false → s'.ron.safe = true ∧ s'.rny = [] ∧ s'.ron.supplyLow = decide (s.ron.lplusMv < 17000))

theorem State.sameBut_railsRise_up (x : State) (v n : Nat) (h : x.mod.visoUp = true) : x.sameBut (x.railsRise v n) [.mod, .boot, .pwr] := by
  have hr : x.visoUp'.sameBut (x.railsRise v n) [.mod, .boot, .pwr] := State.sameBut_mix _ (x.railsRise v n) [.mod, .boot, .pwr]
  rwa [State.visoUp'_up h] at hr

/-- R31, R35: a command that ends in the rise of the rails. -/
theorem State.rises_of_exec {v n : Nat} (h : exec c s = doneR ((s.at' t).railsRise v n)) :
    s.gives c [.mod, .boot, .pwr, .rny, .ron, .host] fun s' => s.risesTo s' v n := by
  obtain ⟨hf, hm, hb, hp, hron, hrny, -⟩ := (s.at' t).frame_railsRise v n
  have hup := fun hv => (s.at' t).sameBut_railsRise_up v n hv
  rw [State.at'_mod] at hm
  rw [State.at'_boot] at hb
  have hset : ∀ w : State, w.noteDrive.settle.mod = w.mod ∧ w.noteDrive.settle.boot = w.boot ∧ w.noteDrive.settle.pwr.state = w.pwr.state ∧
      w.noteDrive.settle.pins.pwrGood = w.mod.railsUp ∧ w.noteDrive.settle.ron.safe = w.ron.safe ∧ w.noteDrive.settle.rny = w.rny ∧
      w.noteDrive.settle.ron.supplyLow = w.ron.supplyLow := fun _ => ⟨rfl, rfl, rfl, rfl, rfl, rfl, rfl⟩
  obtain ⟨e1, e2, e3, e4, e5, e6, e7⟩ := hset ((s.at' t).railsRise v n)
  refine State.gives_of_doneR t h hf ⟨e1.trans hm, e2.trans hb, e3.trans hp, e4.trans (by rw [hm]), fun hv => ?_, fun hv => ?_⟩
  · have hk := (hup (by rw [State.at'_mod, hv])).keepsButR
    exact ⟨hk .ron (by decide), hk .rny (by decide), hk .host (by decide)⟩
  · obtain ⟨-, -, hdown⟩ := (s.at' t).frame_visoUp'
    obtain ⟨h1, h2, h3⟩ := hdown (by rw [State.at'_mod, hv])
    rw [e5, e6, e7, hron, hrny, h1, h2, h3, State.at'_ron]
    exact ⟨rfl, rfl, rfl⟩

theorem exec_powerUp (s : State) (t : Nat) (v : BitVec 16) : exec (.powerUp t v) s =
    if vinGood v.toNat && !(s.at' t).mod.railsUp && !(s.at' t).mod.warning && decide ((s.at' t).pwr.state ≠ 2)
      then doneR ((s.at' t).railsRise v.toNat 0) else doneR ((s.at' t).noteVin v.toNat).condMonitor := rfl

theorem powerUp_rises {v : BitVec 16} (hv : vinOk v) (hr : s.mod.railsUp = false) (hw : s.mod.warning = false) (h2 : s.pwr.state ≠ 2) :
    s.gives (.powerUp t v) [.mod, .boot, .pwr, .rny, .ron, .host] fun s' => s.risesTo s' v.toNat 0 := by
  refine State.rises_of_exec ((exec_powerUp s t v).trans (if_pos ?_))
  rw [State.at'_mod, State.at'_pwr, (vinGood_iff _).mpr hv, hr, hw, decide_eq_true h2]
  rfl

theorem powerUp_looks {v : BitVec 16} (h : ¬ vinOk v ∨ s.mod.railsUp = true ∨ s.mod.warning = true ∨ s.pwr.state = 2) :
    s.looks t (.powerUp t v) v := by
  refine State.looks_of_exec ((exec_powerUp s t v).trans (if_neg ?_))
  rw [State.at'_mod, State.at'_pwr]
  obtain h | h | h | h := h
  · rw [Bool.eq_false_of_not_eq_true fun hg => h ((vinGood_iff _).mp hg)]
    simp
  all_goals simp [h]

theorem exec_powerFailRestart (s : State) (t : Nat) (v : BitVec 16) : exec (.powerFailRestart t v) s =
    if (s.at' t).mod.warning && vinGood v.toNat && decide ((s.at' t).mod.badAt + 10 * ms ≤ (s.at' t).now)
      then doneR ((s.at' t).railsRise v.toNat 1) else doneR ((s.at' t).noteVin v.toNat).condMonitor := rfl

theorem powerFailRestart_rises {v : BitVec 16} (hv : vinOk v) (hw : s.mod.warning = true) (hb : s.mod.badAt + 10000000 ≤ max s.now t) :
    s.gives (.powerFailRestart t v) [.mod, .boot, .pwr, .rny, .ron, .host] fun s' => s.risesTo s' v.toNat 1 := by
  refine State.rises_of_exec ((exec_powerFailRestart s t v).trans (if_pos ?_))
  rw [State.at'_mod, State.now_at', (vinGood_iff _).mpr hv, hw, decide_eq_true (show s.mod.badAt + 10 * ms ≤ max s.now t from hb)]
  rfl

theorem powerFailRestart_looks {v : BitVec 16} (h : ¬ vinOk v ∨ s.mod.warning = false ∨ max s.now t < s.mod.badAt + 10000000) :
    s.looks t (.powerFailRestart t v) v := by
  refine State.looks_of_exec ((exec_powerFailRestart s t v).trans (if_neg ?_))
  rw [State.at'_mod, State.now_at']
  obtain h | h | h := h
  · rw [Bool.eq_false_of_not_eq_true fun hg => h ((vinGood_iff _).mp hg)]
    simp
  · simp [h]
  · rw [decide_eq_false (Nat.not_le_of_lt (show max s.now t < s.mod.badAt + 10 * ms from h)), Bool.and_false]
    decide

/-! ### A reset that ends a command -/

theorem State.resetFrom.congr {w w' : State} (h : s.resetFrom w) (hm : w'.mod.held = w.mod.held ∧ w'.mod.pcieUp = w.mod.pcieUp)
    (hb : w'.boot = w.boot) (hl : w'.line = w.line) (hf : w'.fab = w.fab) (hs : w'.sch = w.sch) (hi : w'.intk = w.intk)
    (hp : w'.permits = w.permits) (hh : w'.host = w.host) (hg : w'.stage = w.stage) (hc : w'.sec = w.sec) (hq : w'.pending = w.pending) :
    s.resetFrom w' := by
  unfold State.resetFrom at h ⊢
  rw [hm.1, hm.2, hb, hl, hf, hs, hi, hp, hh, hg, hc, hq]
  exact h

theorem State.resetFrom.settle {w : State} (h : s.resetFrom w) : s.resetFrom w.settle :=
  h.congr ⟨rfl, rfl⟩ rfl rfl rfl rfl rfl rfl rfl rfl rfl rfl

theorem State.resetFrom.settleR {w : State} (h : s.resetFrom w) : s.resetFrom w.noteDrive.settle :=
  h.congr ⟨rfl, rfl⟩ rfl rfl rfl rfl rfl rfl rfl rfl rfl rfl

theorem State.rd_settleR (x : State) (a : Nat) : x.noteDrive.settle.rd a = x.rd a := State.rd_congr rfl a

theorem State.bit_settleR (x : State) (a i : Nat) : x.noteDrive.settle.bit a i = x.bit a i := State.bit_congr rfl a i

theorem State.fld_settleR (x : State) (a lo w : Nat) : x.noteDrive.settle.fld a lo w = x.fld a lo w := State.fld_congr rfl a lo w

theorem State.dq_settleR_safe (h : x.ron.safe = true) : x.noteDrive.settle.pins.dq = 0 := State.dq_pinsOf_safe (x := x.noteDrive) h

/-! ### A rail out of regulation -/

/-- `PWR_GOOD` drops. -/
def State.railsDown (s : State) : State := { s with mod := { s.mod with railsUp := false } }

theorem exec_railOut (s : State) (t : Nat) : exec (.railOutOfRegulation t false) s =
    doneR ((s.at' t).cuetteReset (if (s.at' t).mod.warning then 1 else 0)).railsDown := rfl

theorem exec_railOut_viso (s : State) (t : Nat) : exec (.railOutOfRegulation t true) s =
    doneR ((s.at' t).visoLoss.cuetteReset (if (s.at' t).visoLoss.mod.warning then 1 else 0)).railsDown := rfl

/-- What a reset of Cuette keeps beside Cuette: Ronyr, host memory and the commands that wait. -/
theorem State.frame_cuetteReset (x : State) (n : Nat) : x.sameBut (x.cuetteReset n)
    [.free, .regs, .mod, .pocxp, .boot, .host, .stage, .line, .jrn, .tim, .chain, .sec, .pwr, .dbg, .fab, .meter, .permits, .sch, .intk] :=
  x.sameBut_mix (x.cuetteReset n) [.free, .regs, .mod, .pocxp, .boot, .host, .stage, .line, .jrn, .tim, .chain, .sec, .pwr, .dbg, .fab,
    .meter, .permits, .sch, .intk]

theorem State.sameBut_railsDown (x : State) : x.sameBut x.railsDown [.mod] := x.sameBut_mix x.railsDown [.mod]

theorem State.railsDown_shows (x : State) : x.railsDown.noteDrive.settle.mod = { x.mod with railsUp := false } ∧
    x.railsDown.noteDrive.settle.pins.pwrGood = false ∧ x.railsDown.noteDrive.settle.boot = x.boot ∧
    x.railsDown.noteDrive.settle.tim = x.tim ∧ x.railsDown.noteDrive.settle.regs = x.regs ∧
    x.railsDown.noteDrive.settle.rny = x.rny ∧ x.railsDown.noteDrive.settle.ron.fires = x.ron.fires ∧
    x.railsDown.noteDrive.settle.ron.safe = x.ron.safe := ⟨rfl, rfl, rfl, rfl, rfl, rfl, rfl, rfl⟩

theorem State.resetFrom.railsDown {w : State} (h : s.resetFrom w) : s.resetFrom w.railsDown :=
  h.congr ⟨rfl, rfl⟩ rfl rfl rfl rfl rfl rfl rfl rfl rfl rfl

/-- R37: a rail of Cuette's fails. -/
theorem railOut_holds (s : State) (t : Nat) : ∃ s', exec (.railOutOfRegulation t false) s = .next s' ∧ s.resetFrom s' ∧
    s'.rd R.GLB_BOOT_COUNT = s.rd R.GLB_BOOT_COUNT ∧ s'.mod.railsUp = false ∧ s'.pins.pwrGood = false ∧
    s'.boot.nextCause = (if s.mod.warning then 1 else 0) ∧ Part.same .rny s s' ∧ Part.same .ron s s' ∧ s'.hostMem = s.hostMem ∧
    s'.tim.ns = (s.at' t).tim.ns := by
  obtain ⟨e1, e2, e3, e4, e5, -⟩ := ((s.at' t).cuetteReset (if (s.at' t).mod.warning then 1 else 0)).railsDown_shows
  have hf := (s.at' t).frame_cuetteReset (if (s.at' t).mod.warning then 1 else 0)
  have hk := (hf.trans ((State.sameBut_railsDown _).mono (by decide))).keepsButR
  have hreset := State.resetFrom_cuetteReset (x := s.at' t) (if (s.at' t).mod.warning then 1 else 0) (s.at'_sec t) (s.at'_pending t)
  refine ⟨_, exec_railOut s t, hreset.railsDown.settleR, ?_, ?_, e2, ?_, hk .rny (by decide), hk .ron (by decide),
    hk .hostMem (by decide), ?_⟩
  · exact (State.rd_congr e5 _).trans ((State.rd_cuetteReset _ _).1.trans (s.rd_at' t _))
  · exact congrArg Module.railsUp e1
  · refine (congrArg Boot.nextCause e3).trans ?_
    rw [← s.at'_mod t]
    rfl
  · exact (congrArg Tim.ns e4).trans rfl

/-- With VISO, Ronyr loses its supply too (R37, R390). -/
theorem railOut_viso (s : State) (t : Nat) : ∃ s', exec (.railOutOfRegulation t true) s = .next s' ∧ s.resetFrom s' ∧
    s'.rd R.GLB_BOOT_COUNT = s.rd R.GLB_BOOT_COUNT ∧ s'.mod.railsUp = false ∧ s'.mod.visoUp = false ∧ s'.rny = [] ∧
    s'.ron.safe = true ∧ s'.ron.fires = [] ∧ s'.pins.dq = 0 := by
  obtain ⟨e1, -, -, -, e5, e6, e7, e8⟩ :=
    ((s.at' t).visoLoss.cuetteReset (if (s.at' t).visoLoss.mod.warning then 1 else 0)).railsDown_shows
  have hreset := State.resetFrom_cuetteReset (x := (s.at' t).visoLoss) (if (s.at' t).visoLoss.mod.warning then 1 else 0)
    (s.at'_sec t) (s.at'_pending t)
  refine ⟨_, exec_railOut_viso s t, hreset.railsDown.settleR, ?_, congrArg Module.railsUp e1, congrArg Module.visoUp e1, e6, e8, e7,
    State.dq_settleR_safe (x := State.railsDown _) rfl⟩
  exact (State.rd_congr e5 _).trans ((State.rd_cuetteReset _ _).1.trans ((State.rd_congr rfl _).trans (s.rd_at' t _)))

end Sys2Proof.Machine
end

section
/-! PROOF. Power-fail warning, brownout and `MOD_RESET#` (R32, R33, R38, R475). -/

namespace Sys2Proof.Machine

variable {s x y : State} {t : Nat} {c : Instr}

/-! ### The warning -/

/-- VIN seen at `v` as a warning sees it: the 10 ms of R35 start anew. -/
def State.warnSeen (s : State) (v : Nat) : State :=
  { s.noteVin v with mod := { (s.noteVin v).mod with badAt := (s.noteVin v).now } }

/-- The warning is latched. -/
def State.warned (s : State) : State := { s with mod := { s.mod with warning := true } }

/-- Where a warning came from, in `PWR_FAIL_LAST` (Table 21.10). -/
def warnSrc (pin : Bool) : Nat := if pin then 2 else 4

theorem exec_pwrFailWarning (s : State) (t : Nat) (pin : Bool) (v : BitVec 16) : exec (.pwrFailWarning t pin v) s =
    if (!pin && decide (10200 ≤ v.toNat)) || decide ((s.at' t).pwr.state = 3) then doneR ((s.at' t).noteVin v.toNat).condMonitor
    else if ((s.at' t).warnSeen v.toNat).mod.warning then
      doneR (((s.at' t).warnSeen v.toNat).setBit R.PWR_FAIL_LAST (if pin then 1 else 2) true)
    else doneR (((s.at' t).warnSeen v.toNat).failAndHold (warnSrc pin) 1).warned := rfl

theorem State.mod_warnSeen (x : State) (v : Nat) : (x.warnSeen v).mod = { x.mod with vinMv := v, badAt := x.now } := rfl

theorem State.sameBut_warnSeen (x : State) (v : Nat) : x.sameBut (x.warnSeen v) [.mod] := x.sameBut_mix (x.warnSeen v) [.mod]

theorem pwrFailWarning_looks {pin : Bool} {v : BitVec 16} (h : (pin = false ∧ 10200 ≤ v.toNat) ∨ s.pwr.state = 3) :
    s.looks t (.pwrFailWarning t pin v) v := by
  refine State.looks_of_exec ((exec_pwrFailWarning s t pin v).trans (if_pos ?_))
  rw [State.at'_pwr]
  obtain ⟨h, h'⟩ | h := h
  · simp [h, h']
  · simp [h]

/-- A warning is one: the pin or VIN raises it, and a monitor runs. -/
theorem pwrFailWarning_exec {pin : Bool} {v : BitVec 16} (h : pin = true ∨ v.toNat < 10200) (h3 : s.pwr.state ≠ 3) :
    exec (.pwrFailWarning t pin v) s = if s.mod.warning then
      doneR (((s.at' t).warnSeen v.toNat).setBit R.PWR_FAIL_LAST (if pin then 1 else 2) true)
    else doneR (((s.at' t).warnSeen v.toNat).failAndHold (warnSrc pin) 1).warned := by
  refine (exec_pwrFailWarning s t pin v).trans ((if_neg ?_).trans ?_)
  · rw [State.at'_pwr]
    obtain h | h := h
    · simp [h, h3]
    · simp [Nat.not_le_of_lt h, h3]
  · rw [State.mod_warnSeen, State.at'_mod]

theorem pwrFailWarning_again {pin : Bool} {v : BitVec 16} (h : pin = true ∨ v.toNat < 10200) (h3 : s.pwr.state ≠ 3)
    (hw : s.mod.warning = true) : s.gives (.pwrFailWarning t pin v) [.mod, .regs] fun s' => s.regsBut s' [R.PWR_FAIL_LAST] ∧
      s'.bit R.PWR_FAIL_LAST (if pin then 1 else 2) = true ∧ s'.mod = { s.mod with vinMv := v.toNat, badAt := max s.now t } := by
  have hexec := (pwrFailWarning_exec (s := s) (t := t) h h3).trans (if_pos hw)
  have hm := (s.at' t).mod_warnSeen v.toNat
  have hf := (s.at' t).sameBut_warnSeen v.toNat
  rw [State.at'_mod, State.now_at'] at hm
  generalize (s.at' t).warnSeen v.toNat = w at *
  have hregs : w.regs = s.regs := Eq.trans (hf.2 .regs (by decide)) (s.at'_regs t)
  refine State.gives_of_doneR t hexec ((State.sameBut_setBit (by decide)).mpr (hf.mono (by decide))) ⟨?_, ?_, hm⟩
  · exact ((State.regsBut_congr hregs _).trans (State.regsBut_setBit (w.regsBut_refl _) (by simp))).trans (State.regsBut_congr rfl _)
  · rw [State.bit_settleR]
    exact State.bit_setBit_same _ _ _ _ (by split <;> decide)

theorem State.hasWork_warnSeen (s : State) (t v : Nat) : ((s.at' t).warnSeen v).hasWork = s.hasWork := by
  have hm := (s.at' t).mod_warnSeen v
  rw [State.at'_mod] at hm
  have hp : ((s.at' t).warnSeen v).pwr = s.pwr := Eq.trans (((s.at' t).sameBut_warnSeen v).2 .pwr (by decide)) (s.at'_pwr t)
  have hr : ((s.at' t).warnSeen v).regs = s.regs := Eq.trans (((s.at' t).sameBut_warnSeen v).2 .regs (by decide)) (s.at'_regs t)
  rw [State.hasWork, State.hasWork, State.phase_congr hr, State.running, State.running, hm, hp]

/-- What a state that landed from `s` kept, a reset of it keeps. -/
theorem State.resetFrom.of_same {w : State} (h : x.resetFrom w) (hs : x.sec = s.sec) (hp : x.pending = s.pending) : s.resetFrom w := by
  unfold State.resetFrom at h ⊢
  rwa [← hs, ← hp]

theorem State.resetFrom.warned {w : State} (h : s.resetFrom w) : s.resetFrom w.warned :=
  h.congr ⟨rfl, rfl⟩ rfl rfl rfl rfl rfl rfl rfl rfl rfl rfl

/-- R32, R475: the first warning runs the power-fail sequence, and Cuette is held. -/
theorem pwrFailWarning_first {pin : Bool} {v : BitVec 16} (h : pin = true ∨ v.toNat < 10200) (h3 : s.pwr.state ≠ 3)
    (hw : s.mod.warning = false) : ∃ s', exec (.pwrFailWarning t pin v) s = .next s' ∧ s.resetFrom s' ∧
      s'.rd R.GLB_BOOT_COUNT = s.rd R.GLB_BOOT_COUNT ∧ s'.mod.warning = true ∧ s'.mod.warnAt = max s.now t ∧ s'.mod.badAt = max s.now t ∧
      s'.boot.nextCause = 1 ∧ s'.rd R.PWR_FAIL_LAST = 1 + (if pin then 2 else 4) + (if s.hasWork then 16 else 0) ∧
      (s.hasWork = true → (∃ r ∈ s'.jrn.seqRecords, r.mark = s.line.serialNext - 1) ∧
        (s.mod.visoUp = true → s'.ron.safe = true ∧ s'.pins.dq = 0)) := by
  have hexec := (pwrFailWarning_exec (s := s) (t := t) h h3).trans (if_neg (by rw [hw]; decide))
  have hm := (s.at' t).mod_warnSeen v.toNat
  have hf := (s.at' t).sameBut_warnSeen v.toNat
  have hwork := State.hasWork_warnSeen s t v.toNat
  rw [State.at'_mod, State.now_at'] at hm
  generalize (s.at' t).warnSeen v.toNat = w at *
  have hnow : w.now = max s.now t := hf.1.trans (s.now_at' t)
  obtain ⟨kmod, kboot, -, -, kreset, kcount, klast, ksave⟩ := w.failAndHold_keeps (warnSrc pin) 1 (by unfold warnSrc; split <;> decide)
  rw [hm, hnow] at kmod
  rw [hwork] at klast ksave
  generalize w.failAndHold (warnSrc pin) 1 = u at *
  have hset : u.warned.noteDrive.settle.mod = { u.mod with warning := true } ∧ u.warned.noteDrive.settle.boot = u.boot ∧
      u.warned.noteDrive.settle.jrn = u.jrn ∧ u.warned.noteDrive.settle.ron.safe = u.ron.safe ∧
      u.warned.noteDrive.settle.regs = u.regs := ⟨rfl, rfl, rfl, rfl, rfl⟩
  obtain ⟨e1, e2, e3, e4, e5⟩ := hset
  refine ⟨_, hexec, ?_, ?_, congrArg Module.warning e1, ?_, ?_, (congrArg Boot.nextCause e2).trans kboot, ?_, fun hk => ?_⟩
  · exact (kreset.warned.settleR).of_same (Eq.trans (hf.2 .sec (by decide)) (s.at'_sec t))
      (Eq.trans (hf.2 .pending (by decide)) (s.at'_pending t))
  · rw [State.rd_congr e5, kcount, State.rd_congr (hf.2 .regs (by decide)), State.rd_at']
  · rw [e1, kmod]
  · rw [e1, kmod]
  · rw [State.rd_congr e5, klast]
    cases pin <;> rfl
  · obtain ⟨hrec, hsafe⟩ := ksave hk
    have hline : w.line = s.line := Eq.trans (hf.2 .line (by decide)) (s.at'_line t)
    rw [hline] at hrec
    rw [hm] at hsafe
    rw [e3, e4]
    exact ⟨hrec, fun hv => ⟨hsafe hv, State.dq_settleR_safe (x := u.warned) (hsafe hv)⟩⟩

/-! ### Brownout -/

theorem State.frame_countLoss (x : State) : x.sameBut x.countLoss [.regs] ∧ x.regsBut x.countLoss [R.GLB_BOOT_COUNT] ∧
    (x.boot.countOld = none → x.countLoss.rd R.GLB_BOOT_COUNT = x.rd R.GLB_BOOT_COUNT) ∧
    (∀ n, x.boot.countOld = some n → x.countLoss.rd R.GLB_BOOT_COUNT = x.rd R.GLB_BOOT_COUNT ∨
      x.countLoss.rd R.GLB_BOOT_COUNT = n % 2 ^ 32) := by
  unfold State.countLoss
  split
  next v hv =>
    refine ⟨?_, ?_, fun hn => absurd (hn.symm.trans hv) (by simp), fun n hn => ?_⟩
    · split
      · simp
      · exact x.sameBut_refl _
    · split
      · exact State.regsBut_wr (x.regsBut_refl _) (by simp)
      · exact x.regsBut_refl _
    · rw [Option.some.inj (hn.symm.trans hv)]
      split
      · exact .inr (State.rd_wr_same _ _ _)
      · exact .inl rfl
  next hn => exact ⟨x.sameBut_refl _, x.regsBut_refl _, fun _ => rfl, fun n hs => absurd (hn.symm.trans hs) (by simp)⟩

/-- The loss of VIN is noted as a warning of its own where none came before, and the boot count may be lost. -/
def State.brownoutNoted (s : State) (v : Nat) : State :=
  (if (s.noteVin v).mod.warning then s.noteVin v else (s.noteVin v).noteFail 4).countLoss

/-- How long after the warning VIN was lost, in ms, in `PWR_FAIL_LAST` (Table 21.10). -/
def State.brownoutTimed (s : State) : State := s.setFld R.PWR_FAIL_LAST 16 16 (min 65535 ((s.now - s.mod.warnAt) / ms))

/-- No rail is up, and the warning stays latched. -/
def State.blackout (s : State) : State :=
  { s with mod := { s.mod with warning := true, railsUp := false, aonUp := false }, pwr := { s.pwr with state := 0, alert := false } }

/-- VISO, device time and the rails are lost with VIN. -/
def State.vinLost (s : State) : State := s.visoLoss.timeLost.blackout

theorem exec_vinBrownout (s : State) (t : Nat) (v : BitVec 16) : exec (.vinBrownoutReset t v) s =
    if 8500 ≤ v.toNat ∨ (s.at' t).pwr.state = 3 then doneR ((s.at' t).noteVin v.toNat).condMonitor
    else doneR (((s.at' t).brownoutNoted v.toNat).brownoutTimed.cuetteReset 1).vinLost := rfl

theorem vinBrownout_looks {v : BitVec 16} (h : 8500 ≤ v.toNat ∨ s.pwr.state = 3) : s.looks t (.vinBrownoutReset t v) v :=
  State.looks_of_exec ((exec_vinBrownout s t v).trans (if_pos (by rwa [State.at'_pwr])))

theorem State.sameBut_noteFail (x : State) (src : Nat) : x.sameBut (x.noteFail src) [.mod, .regs] :=
  x.sameBut_mix (x.noteFail src) [.mod, .regs]

theorem State.frame_brownoutNoted (x : State) (v : Nat) : x.sameBut (x.brownoutNoted v) [.mod, .regs] := by
  obtain ⟨hf, -⟩ := State.frame_countLoss (if (x.noteVin v).mod.warning then x.noteVin v else (x.noteVin v).noteFail 4)
  refine .trans ?_ (hf.mono (by decide))
  split
  · exact (x.sameBut_noteVin v).mono (by decide)
  · exact ((x.sameBut_noteVin v).mono (by decide)).trans (State.sameBut_noteFail _ 4)

/-- What a brownout notes (R33): VIN out of range now, and the warning's instant, the present one where there was no warning. -/
theorem State.brownoutNoted_notes (x : State) {v : Nat} (hv : v < 10800) :
    (x.brownoutNoted v).mod = { x.mod with vinMv := v, badAt := x.now, warnAt := if x.mod.warning then x.mod.warnAt else x.now } ∧
    (x.brownoutNoted v).rd R.PWR_FAIL_LAST = (if x.mod.warning then x.rd R.PWR_FAIL_LAST else 5) ∧
    (x.boot.countOld = none → (x.brownoutNoted v).rd R.GLB_BOOT_COUNT = x.rd R.GLB_BOOT_COUNT) ∧
    (∀ n, x.boot.countOld = some n → (x.brownoutNoted v).rd R.GLB_BOOT_COUNT = x.rd R.GLB_BOOT_COUNT ∨
      (x.brownoutNoted v).rd R.GLB_BOOT_COUNT = n % 2 ^ 32) := by
  obtain ⟨hf, hr, hnone, hsome⟩ := State.frame_countLoss (if (x.noteVin v).mod.warning then x.noteVin v else (x.noteVin v).noteFail 4)
  have hm : (x.noteVin v).mod = { x.mod with vinMv := v, badAt := x.now } := by
    rw [State.mod_noteVin, if_neg (by omega)]
  have hmod : (x.brownoutNoted v).mod = _ := hf.2 .mod (by decide)
  have hlast : (x.brownoutNoted v).rd R.PWR_FAIL_LAST = _ := hr _ (by decide)
  rw [hmod, hlast]
  have hcount : (if (x.noteVin v).mod.warning then x.noteVin v else (x.noteVin v).noteFail 4).rd R.GLB_BOOT_COUNT =
      x.rd R.GLB_BOOT_COUNT := by
    split
    · exact State.rd_congr rfl _
    · exact (State.rd_wr_other _ _ (by decide)).trans (State.rd_congr rfl _)
  have hboot : (if (x.noteVin v).mod.warning then x.noteVin v else (x.noteVin v).noteFail 4).boot = x.boot := by split <;> rfl
  rw [hcount, hboot] at hnone hsome
  refine ⟨?_, ?_, hnone, hsome⟩
  · rw [show (x.noteVin v).mod.warning = x.mod.warning from rfl]
    split
    · exact hm
    · rw [show ((x.noteVin v).noteFail 4).mod = { (x.noteVin v).mod with warnAt := x.now } from rfl, hm]
  · rw [show (x.noteVin v).mod.warning = x.mod.warning from rfl]
    split
    · exact State.rd_congr rfl _
    · exact State.rd_wr_same _ _ _

/-- What the module and Cuette are left as once VIN is gone, whatever reset state comes before. -/
theorem State.blackout_shows (x : State) : x.blackout.mod = { x.mod with warning := true, railsUp := false, aonUp := false } ∧
    x.blackout.ron = x.ron ∧ x.blackout.boot = x.boot ∧ x.blackout.regs = x.regs ∧ x.blackout.pwr.state = 0 ∧ x.blackout.tim = x.tim :=
  ⟨rfl, rfl, rfl, rfl, rfl, rfl⟩

theorem State.resetFrom.vinLost {w : State} (h : s.resetFrom w) : s.resetFrom w.vinLost := by
  have hb : s.resetFrom w.visoLoss.timeLost := h.congr ⟨rfl, rfl⟩ rfl rfl rfl rfl rfl rfl rfl rfl rfl rfl
  unfold State.vinLost
  generalize w.visoLoss.timeLost = y at *
  exact hb.congr ⟨rfl, rfl⟩ rfl rfl rfl rfl rfl rfl rfl rfl rfl rfl

theorem State.vinLost_shows (x : State) :
    x.vinLost.mod = { x.mod with warning := true, railsUp := false, aonUp := false, visoUp := false } ∧ x.vinLost.ron.safe = true ∧
    x.vinLost.boot = x.boot ∧ x.vinLost.pwr.state = 0 ∧ x.regsBut x.vinLost [R.TIM_STAT] ∧ x.vinLost.bit R.TIM_STAT 3 = false ∧
    x.vinLost.tim = x.visoLoss.timeLost.tim := by
  obtain ⟨-, km, kb, kr, kregs⟩ := x.visoTimeLost_keeps
  obtain ⟨-, -, kset⟩ := x.visoLoss.frame_timeLost
  unfold State.vinLost
  generalize x.visoLoss.timeLost = y at *
  obtain ⟨e1, e2, e3, e4, e5, e6⟩ := y.blackout_shows
  exact ⟨by rw [e1, km], by rw [e2, kr], by rw [e3, kb], e5, fun a ha => (State.rd_congr e4 a).trans (kregs a ha),
    (State.bit_congr e4 _ _).trans kset, e6⟩

theorem State.tim_timeLost (x : State) {b : JBlock} (h : x.jrn.sealedBlocks.getLast? = some b) :
    x.timeLost.tim.ns = b.sealNs + 1000000000 := by
  show (match x.jrn.sealedBlocks.getLast? with | some b => b.sealNs + 1000000000 | none => 1000000000) = _
  rw [h]

/-- A word of `PWR_FAIL_LAST` with no time yet takes none at once. -/
theorem State.brownoutTimed_now (x : State) (hn : x.mod.warnAt = x.now) (h5 : x.rd R.PWR_FAIL_LAST = 5) :
    x.brownoutTimed.rd R.PWR_FAIL_LAST = 5 := by
  refine (State.rd_wr_same _ _ _).trans ?_
  rw [hn, Nat.sub_self, h5]
  decide

theorem State.fld_brownoutTimed (x : State) :
    x.brownoutTimed.fld R.PWR_FAIL_LAST 16 16 = min 65535 ((x.now - x.mod.warnAt) / 1000000) := by
  rw [State.brownoutTimed, State.fld_setFld_same _ _ _ _ _ (by decide), Nat.mod_eq_of_lt (by omega), ms]

theorem State.sameBut_brownoutTimed (x : State) : x.sameBut x.brownoutTimed [.regs] :=
  (State.sameBut_setFld (by decide)).mpr (x.sameBut_refl _)

theorem State.cuetteReset_shows (x : State) (c : Nat) : (x.cuetteReset c).mod = { x.mod with held := true, pcieUp := false } ∧
    (x.cuetteReset c).visoLoss.jrn.sealedBlocks = x.jrn.sealedBlocks ∧ (x.cuetteReset c).boot.nextCause = c := ⟨rfl, rfl, rfl⟩

/-- What the end of a command that touches Ronyr keeps. -/
theorem State.settleR_shows (x : State) : x.noteDrive.settle.mod = x.mod ∧ x.noteDrive.settle.ron.safe = x.ron.safe ∧
    x.noteDrive.settle.boot = x.boot ∧ x.noteDrive.settle.pwr.state = x.pwr.state ∧ x.noteDrive.settle.tim = x.tim :=
  ⟨rfl, rfl, rfl, rfl, rfl⟩

/-- R33: below 8.5 V all domains reset. -/
theorem vinBrownout_resets {v : BitVec 16} (hv : v.toNat < 8500) (h3 : s.pwr.state ≠ 3) :
    ∃ s', exec (.vinBrownoutReset t v) s = .next s' ∧ s.resetFrom s' ∧
      s'.mod.warning = true ∧ s'.mod.badAt = max s.now t ∧ s'.mod.railsUp = false ∧ s'.mod.aonUp = false ∧ s'.mod.visoUp = false ∧
      s'.ron.safe = true ∧ s'.pins.dq = 0 ∧ s'.boot.nextCause = 1 ∧ s'.bit R.TIM_STAT 3 = false ∧ s'.pwr.state = 0 ∧
      (s.mod.warning = true → s'.mod.warnAt = s.mod.warnAt ∧
        s'.fld R.PWR_FAIL_LAST 16 16 = min 65535 ((max s.now t - s.mod.warnAt) / 1000000)) ∧
      (s.mod.warning = false → s'.mod.warnAt = max s.now t ∧ s'.rd R.PWR_FAIL_LAST = 5) ∧
      (s.boot.countOld = none → s'.rd R.GLB_BOOT_COUNT = s.rd R.GLB_BOOT_COUNT) ∧
      (∀ n, s.boot.countOld = some n → s'.rd R.GLB_BOOT_COUNT = s.rd R.GLB_BOOT_COUNT ∨ s'.rd R.GLB_BOOT_COUNT = n % 2 ^ 32) ∧
      (∀ b, s.jrn.sealedBlocks.getLast? = some b → s'.tim.ns = b.sealNs + 1000000000) := by
  have hexec := (exec_vinBrownout s t v).trans (if_neg (by rw [State.at'_pwr]; omega))
  have hf := (s.at' t).frame_brownoutNoted v.toNat
  obtain ⟨nmod, nlast, nnone, nsome⟩ := (s.at' t).brownoutNoted_notes (v := v.toNat) (by omega)
  rw [State.at'_mod, State.now_at'] at nmod
  rw [State.at'_mod, State.rd_at'] at nlast
  rw [State.at'_boot, State.rd_at'] at nnone nsome
  generalize (s.at' t).brownoutNoted v.toNat = w at *
  have hnow : w.now = max s.now t := hf.1.trans (s.now_at' t)
  have hjrn : w.jrn = s.jrn := Eq.trans (hf.2 .jrn (by decide)) (s.at'_jrn t)
  have hsec : w.sec = s.sec := Eq.trans (hf.2 .sec (by decide)) (s.at'_sec t)
  have hpend : w.pending = s.pending := Eq.trans (hf.2 .pending (by decide)) (s.at'_pending t)
  have hcount : w.brownoutTimed.rd R.GLB_BOOT_COUNT = w.rd R.GLB_BOOT_COUNT := State.rd_setFld_other _ _ _ _ (by decide)
  have hfirst := w.brownoutTimed_now
  have htimed := w.fld_brownoutTimed
  have hb := w.sameBut_brownoutTimed
  generalize w.brownoutTimed = z at *
  obtain ⟨hmod, hseal, hcause⟩ := z.cuetteReset_shows 1
  rw [show z.mod = w.mod from hb.2 .mod (by decide), nmod] at hmod
  rw [show z.jrn = w.jrn from hb.2 .jrn (by decide), hjrn] at hseal
  have hreset := State.resetFrom_cuetteReset 1 (Eq.trans (hb.2 .sec (by decide)) hsec) (Eq.trans (hb.2 .pending (by decide)) hpend)
  obtain ⟨rcount, rlast⟩ := z.rd_cuetteReset 1
  generalize z.cuetteReset 1 = u at *
  obtain ⟨e1, e2, e3, e4, e5, e6, e7⟩ := u.vinLost_shows
  rw [hmod] at e1
  have hns : ∀ b, s.jrn.sealedBlocks.getLast? = some b → u.vinLost.tim.ns = b.sealNs + 1000000000 := fun b hl => by
    rw [e7]
    exact State.tim_timeLost _ (by rw [hseal, hl])
  have hlast : ∀ a ≠ R.TIM_STAT, u.vinLost.rd a = u.rd a := fun a ha => e5 a (by simpa using ha)
  have hlost := hreset.vinLost
  generalize u.vinLost = y at *
  obtain ⟨k1, k2, k3, k4, k5⟩ := y.settleR_shows
  rw [e1] at k1
  refine ⟨_, hexec, hlost.settleR, by rw [k1], by rw [k1], by rw [k1], by rw [k1], by rw [k1], by rw [k2, e2],
    State.dq_settleR_safe e2, by rw [k3, e3, hcause], by rw [State.bit_settleR, e6], by rw [k4, e4],
    fun hw => ⟨by rw [k1, if_pos hw], ?_⟩, fun hw => ⟨by rw [k1, hw, if_neg (by decide)], ?_⟩, fun hn => ?_, fun n hn => ?_,
    fun b hl => by rw [k5, hns b hl]⟩
  · rw [State.fld_settleR, State.fld, hlast _ (by decide), rlast, ← State.fld, htimed, hnow, nmod, if_pos hw]
  · rw [State.rd_settleR, hlast _ (by decide), rlast]
    exact hfirst (by rw [nmod, hnow, hw, if_neg (by decide)]) (by rw [nlast, hw, if_neg (by decide)])
  · rw [State.rd_settleR, hlast _ (by decide), rcount, hcount, nnone hn]
  · rw [State.rd_settleR, hlast _ (by decide), rcount, hcount]
    exact nsome n hn

/-! ### `MOD_RESET#` -/

/-- The pin is low, or high. -/
def State.resetPin (s : State) (low : Bool) : State := { s with mod := { s.mod with modResetLow := low } }

theorem State.sameBut_mod (x : State) (d : Module) : x.sameBut { x with mod := d } [.mod] := x.sameBut_mix { x with mod := d } [.mod]

theorem exec_modResetAssert (s : State) (t : Nat) : exec (.modResetAssert t) s =
    if (s.at' t).pwr.state = 2 ∨ (s.at' t).pwr.state = 3 then
      doneR { (s.at' t).resetPin true with mod := { ((s.at' t).resetPin true).mod with warnAt := ((s.at' t).resetPin true).now } }
    else doneR (((s.at' t).resetPin true).failAndHold 8 (if (s.at' t).mod.warning then 1 else 2)) := rfl

theorem modResetAssert_asleep (h : s.pwr.state = 2 ∨ s.pwr.state = 3) : s.gives (.modResetAssert t) [.mod] fun s' =>
    s'.mod = { s.mod with modResetLow := true, warnAt := max s.now t } := by
  refine State.gives_of_doneR t ((exec_modResetAssert s t).trans (if_pos (by rwa [State.at'_pwr])))
    (.trans (State.sameBut_mod _ _) (State.sameBut_mod _ _)) ?_
  rw [← s.at'_mod t, ← s.now_at' t]
  rfl

/-- R38: Cuette is stopped and flushed, and held. -/
theorem modResetAssert_holds (h2 : s.pwr.state ≠ 2) (h3 : s.pwr.state ≠ 3) :
    ∃ s', exec (.modResetAssert t) s = .next s' ∧ s.resetFrom s' ∧ s'.rd R.GLB_BOOT_COUNT = s.rd R.GLB_BOOT_COUNT ∧
      s'.mod.modResetLow = true ∧ s'.boot.nextCause = (if s.mod.warning then 1 else 2) ∧
      s'.rd R.PWR_FAIL_LAST = 9 + (if s.hasWork then 16 else 0) := by
  have hexec := (exec_modResetAssert s t).trans (if_neg (by rw [State.at'_pwr]; omega))
  rw [State.at'_mod] at hexec
  generalize (if s.mod.warning then 1 else 2) = n at *
  obtain ⟨kmod, kboot, -, -, kreset, kcount, klast, -⟩ := ((s.at' t).resetPin true).failAndHold_keeps 8 n (by decide)
  have hlow : ((s.at' t).resetPin true).mod.modResetLow = true := rfl
  have hwork : ((s.at' t).resetPin true).hasWork = s.hasWork := by
    have hz : ((s.at' t).resetPin true).hasWork = (s.at' t).hasWork := rfl
    rw [hz]
    exact State.hasWork_congr (s.at'_mod t) (congrArg Power.failStop (s.at'_pwr t)) (s.phase_at' t)
  have hcount : ((s.at' t).resetPin true).rd R.GLB_BOOT_COUNT = s.rd R.GLB_BOOT_COUNT := (State.rd_congr rfl _).trans (s.rd_at' t _)
  have hsec : ((s.at' t).resetPin true).sec = s.sec := s.at'_sec t
  have hpend : ((s.at' t).resetPin true).pending = s.pending := s.at'_pending t
  rw [hcount] at kcount
  rw [hwork, if_neg (show ¬ (8 : Nat) = 0 by decide)] at klast
  generalize ((s.at' t).resetPin true).failAndHold 8 n = u at *
  have hset : u.noteDrive.settle.mod = u.mod ∧ u.noteDrive.settle.boot = u.boot := ⟨rfl, rfl⟩
  refine ⟨_, hexec, kreset.settleR.of_same hsec hpend, ?_, ?_, ?_, ?_⟩
  · rw [State.rd_settleR, kcount]
  · rw [hset.1, kmod]
    exact hlow
  · rw [hset.2, kboot]
  · rw [State.rd_settleR, klast]

theorem exec_modResetRelease (s : State) (t : Nat) : exec (.modResetRelease t) s =
    if (s.at' t).mod.modResetLow && decide ((s.at' t).pwr.state = 3) && !(s.at' t).mod.warning &&
        decide ((s.at' t).mod.warnAt + ms ≤ (s.at' t).now)
      then doneR (((s.at' t).resetPin false).railsRise (s.at' t).mod.vinMv 2) else doneR ((s.at' t).resetPin false) := rfl

theorem modResetRelease_rises (h3 : s.pwr.state = 3) (hl : s.mod.modResetLow = true) (hw : s.mod.warning = false)
    (hn : s.mod.warnAt + 1000000 ≤ max s.now t) : s.gives (.modResetRelease t) [.mod, .boot, .pwr, .rny, .ron, .host] fun s' =>
      s'.mod = { s.mod with modResetLow := false, railsUp := true, aonUp := true, held := true, visoUp := true } ∧
      s'.boot = { s.boot with nextCause := 2 } ∧ s'.pwr.state = 0 := by
  have hexec := (exec_modResetRelease s t).trans (if_pos (by
    rw [State.at'_mod, State.at'_pwr, State.now_at', h3, hl, hw, decide_eq_true (show s.mod.warnAt + ms ≤ max s.now t from hn)]
    rfl))
  obtain ⟨hf, hm, hb, hp, -⟩ := ((s.at' t).resetPin false).frame_railsRise (s.at' t).mod.vinMv 2
  have hpm : ((s.at' t).resetPin false).mod = { s.mod with modResetLow := false } := by
    rw [← s.at'_mod t]
    rfl
  have hpb : ((s.at' t).resetPin false).boot = s.boot := s.at'_boot t
  rw [hpm, State.at'_mod] at hm
  rw [hpb] at hb
  rw [State.at'_mod] at hexec hf hb hp
  generalize ((s.at' t).resetPin false).railsRise s.mod.vinMv 2 = u at *
  have hset : u.noteDrive.settle.mod = u.mod ∧ u.noteDrive.settle.boot = u.boot ∧ u.noteDrive.settle.pwr.state = u.pwr.state :=
    ⟨rfl, rfl, rfl⟩
  refine State.gives_of_doneR t hexec (.trans ((State.sameBut_mod _ _).mono (by decide)) hf) ⟨?_, hset.2.1.trans hb, hset.2.2.trans hp⟩
  rw [hset.1, hm, ← hw]

theorem modResetRelease_stays (h : s.pwr.state ≠ 3 ∨ s.mod.warning = true ∨ max s.now t < s.mod.warnAt + 1000000) :
    s.gives (.modResetRelease t) [.mod] fun s' => s'.mod = { s.mod with modResetLow := false } := by
  refine State.gives_of_doneR t ((exec_modResetRelease s t).trans (if_neg ?_)) (State.sameBut_mod _ _) ?_
  · rw [State.at'_mod, State.at'_pwr, State.now_at']
    obtain h | h | h := h
    · simp [h]
    · simp [h]
    · rw [decide_eq_false (Nat.not_le_of_lt (show max s.now t < s.mod.warnAt + ms from h)), Bool.and_false]
      decide
  · rw [← s.at'_mod t]
    rfl

end Sys2Proof.Machine
end

section
/-! PROOF. The PCIe link (R27, R42, R73, R132), SERREF (R466), and the claim on supply and resets. -/

namespace Sys2Proof.Machine

variable {s x y : State} {t : Nat}

/-! ### The PCIe link -/

/-- The link is out of L0. -/
def State.linkDown (s : State) : State := { s with mod := { s.mod with pcieUp := false } }

theorem State.pcieDown_down (h : x.mod.pcieUp = false) : x.pcieDown = x := by
  rw [State.pcieDown, if_neg (by simp [h])]

theorem State.pcieDown_up (h : x.mod.pcieUp = true) (hr : x.running = true) : x.pcieDown = x.linkDown.raise E_PCIE_DOWN {} := by
  rw [State.pcieDown, if_pos h, if_pos hr]
  rfl

theorem State.frame_linkDown (x : State) : x.sameBut (x.linkDown.raise E_PCIE_DOWN {}) (.mod :: raiseParts) ∧
    (x.linkDown.raise E_PCIE_DOWN {}).mod = { x.mod with pcieUp := false } := by
  have hf : x.linkDown.sameBut (x.linkDown.raise E_PCIE_DOWN {}) raiseParts := (State.raisedFrom_raise _ _ _ _).sameBut fun _ h => h
  have hd : x.sameBut x.linkDown [.mod] := x.sameBut_mix x.linkDown [.mod]
  exact ⟨(hd.mono (by decide)).trans (hf.mono (by decide)), hf.2 .mod (by decide)⟩

/-- The endpoint forgets what it answered. -/
def State.endpointReset (s : State) : State := { s with host := { s.host with readLatch := [], lastCpl := .none, lastData := [] } }

theorem State.sameBut_endpointReset (x : State) : x.sameBut x.endpointReset [.host] := x.sameBut_host _

theorem exec_perst (s : State) (t : Nat) : exec (.perst t) s = done (s.at' t).pcieDown.endpointReset := rfl

theorem perst_down (h : s.mod.pcieUp = false) :
    s.gives (.perst t) [.host] fun s' => s'.host = { s.host with readLatch := [], lastCpl := .none, lastData := [] } := by
  have hexec := exec_perst s t
  rw [State.pcieDown_down (by rwa [State.at'_mod])] at hexec
  refine State.gives_of_done t hexec (State.sameBut_endpointReset _) ?_
  rw [← s.at'_host t]
  rfl

theorem State.endpointReset_shows (x : State) : x.endpointReset.settle.mod = x.mod ∧ x.endpointReset.settle.host.readLatch = [] ∧
    x.endpointReset.settle.host.lastCpl = .none ∧ x.endpointReset.settle.host.lastData = [] := ⟨rfl, rfl, rfl, rfl⟩

theorem perst_up (h : s.mod.pcieUp = true) (hr : s.running = true) : s.gives (.perst t) (.mod :: raiseParts) fun s' =>
    s'.mod = { s.mod with pcieUp := false } ∧ s'.host.readLatch = [] ∧ s'.host.lastCpl = .none ∧ s'.host.lastData = [] := by
  have hexec := exec_perst s t
  obtain ⟨hf, hm⟩ := (s.at' t).frame_linkDown
  rw [State.pcieDown_up (by rwa [State.at'_mod]) (by rwa [State.running_at'])] at hexec
  rw [State.at'_mod] at hm
  obtain ⟨e1, e2⟩ := ((s.at' t).linkDown.raise E_PCIE_DOWN {}).endpointReset_shows
  exact State.gives_of_done t hexec (hf.trans ((State.sameBut_endpointReset _).mono (by decide))) ⟨e1.trans hm, e2⟩

theorem pcieLinkDown_down (h : s.mod.pcieUp = false) : s.givesNothing (.pcieLinkDown t) := by
  have hexec : exec (.pcieLinkDown t) s = done (s.at' t).pcieDown := rfl
  rw [State.pcieDown_down (by rwa [State.at'_mod])] at hexec
  exact State.givesNothing_of_done t hexec

theorem pcieLinkDown_up (h : s.mod.pcieUp = true) (hr : s.running = true) : s.gives (.pcieLinkDown t) (.mod :: raiseParts) fun s' =>
    s'.mod = { s.mod with pcieUp := false } := by
  have hexec : exec (.pcieLinkDown t) s = done (s.at' t).pcieDown := rfl
  obtain ⟨hf, hm⟩ := (s.at' t).frame_linkDown
  rw [State.pcieDown_up (by rwa [State.at'_mod]) (by rwa [State.running_at'])] at hexec
  rw [State.at'_mod] at hm
  exact State.gives_of_done t hexec hf hm

theorem exec_pcieLinkUp (s : State) (t : Nat) (w : Fin 4) (r : Fin 5) : exec (.pcieLinkUp ⟨t, w, r⟩) s =
    if (s.at' t).running && (s.at' t).boot.started then
      done { s.at' t with mod := { (s.at' t).mod with pcieUp := true, pcieWidth := w, pcieRate := r, refclkOk := true } }
    else done (s.at' t) := rfl

theorem pcieLinkUp_trains (w : Fin 4) (r : Fin 5) (hr : s.running = true) (hb : s.boot.started = true) :
    s.gives (.pcieLinkUp ⟨t, w, r⟩) [.mod] fun s' =>
      s'.mod = { s.mod with pcieUp := true, pcieWidth := w, pcieRate := r, refclkOk := true } := by
  refine State.gives_of_done t ((exec_pcieLinkUp s t w r).trans (if_pos (by rw [State.running_at', State.at'_boot, hr, hb]; rfl)))
    (State.sameBut_mod _ _) ?_
  rw [← s.at'_mod t]
  rfl

theorem pcieLinkUp_not (w : Fin 4) (r : Fin 5) (h : s.running = false ∨ s.boot.started = false) :
    s.givesNothing (.pcieLinkUp ⟨t, w, r⟩) := by
  refine State.givesNothing_of_done t ((exec_pcieLinkUp s t w r).trans (if_neg ?_))
  rw [State.running_at', State.at'_boot]
  obtain h | h := h <;> simp [h]

/-! ### REFCLK -/

/-- REFCLK is away. -/
def State.refclkLost (s : State) : State := { s with mod := { s.mod with refclkOk := false } }

theorem State.sameBut_refclkLost (x : State) : x.sameBut x.refclkLost [.mod] := x.sameBut_mix x.refclkLost [.mod]

theorem State.refclkLost_shows (s : State) (t : Nat) : (s.at' t).refclkLost.mod = { s.mod with refclkOk := false } ∧
    (s.at' t).refclkLost.running = s.running ∧ (s.at' t).refclkLost.phase = s.phase := by
  refine ⟨?_, (State.running_congr ⟨rfl, rfl⟩ rfl).trans (s.running_at' t), (State.phase_congr rfl).trans (s.phase_at' t)⟩
  rw [← s.at'_mod t]
  rfl

theorem exec_refclkLoss (s : State) (t : Nat) : exec (.refclkLoss t) s = done (s.at' t).refclkLost.pcieDown.condMonitor := rfl

theorem refclkLoss_calm (h : s.mod.pcieUp = false) (hc : s.running = false ∨ s.phase ≠ 3) :
    s.gives (.refclkLoss t) [.mod] fun s' => s'.mod = { s.mod with refclkOk := false } := by
  have hexec := exec_refclkLoss s t
  have hf := (s.at' t).sameBut_refclkLost
  obtain ⟨hm, hr, hp⟩ := s.refclkLost_shows t
  generalize (s.at' t).refclkLost = w at *
  rw [State.pcieDown_down (by rw [hm]; exact h), State.condMonitor_calm (by rw [hr, hp]; exact hc.imp_right .inl)] at hexec
  exact State.gives_of_done t hexec hf hm

theorem refclkLoss_discards (hr : s.running = true) (h3 : s.phase = 3) (h : s.mod.pcieUp = false) :
    s.discardsRun t (.refclkLoss t) { s.mod with refclkOk := false } := by
  have hexec := exec_refclkLoss s t
  have hf := (s.at' t).sameBut_refclkLost
  obtain ⟨hm, hr', hp⟩ := s.refclkLost_shows t
  generalize (s.at' t).refclkLost = w at *
  rw [State.pcieDown_down (by rw [hm]; exact h),
    State.condMonitor_fails (hr'.trans hr) (hp.trans h3) (by rw [State.condNow, hm]; simp)] at hexec
  exact State.discardsRun_of_done hexec hf hm

theorem refclkLoss_up (h : s.mod.pcieUp = true) (hr : s.running = true) (h3 : s.phase ≠ 3) :
    s.gives (.refclkLoss t) (.mod :: raiseParts) fun s' => s'.mod = { s.mod with pcieUp := false, refclkOk := false } := by
  have hexec := exec_refclkLoss s t
  have hf := (s.at' t).sameBut_refclkLost
  obtain ⟨hm, hr', hp⟩ := s.refclkLost_shows t
  generalize (s.at' t).refclkLost = w at *
  obtain ⟨hfd, hmd⟩ := w.frame_linkDown
  have hphase : (w.linkDown.raise E_PCIE_DOWN {}).phase = s.phase :=
    (State.fld_raise _ (by decide)).trans ((State.phase_congr (y := w) rfl).trans hp)
  rw [State.pcieDown_up (by rw [hm]; exact h) (hr'.trans hr), State.condMonitor_calm (.inr (.inl (by rw [hphase]; exact h3)))] at hexec
  exact State.gives_of_done t hexec ((hf.mono (by decide)).trans hfd) (hmd.trans (by rw [hm]))

/-! ### Entry to the safe state with cause 0 -/

/-- What stopping the crucibles and faulting their pours leaves alone. -/
theorem State.safeStop_crucibles (x : State) : x.stopCrucibles.faults (x.safeStop 0) := by
  rw [State.safeStop, if_pos (.inl rfl)]
  exact x.stopCrucibles.faults_hardStop.trans (State.faults_faultPours _ _)

theorem State.faults_safeLine (x : State) : x.faults x.safeLine := by
  have hsend : x.faults x.safeSend := x.faults_line _
  exact (hsend.trans (State.faults_raise _ _ _ _)).trans (State.faults_faultOpenPieces _ _)

/-- Cause 0 in force: whether or not the safe state stood before, it stands now, with the cause latched and the crucibles stopped. -/
theorem State.safeEnter_crucibles (x : State) (hr : x.running = true) : (x.safeEnter 0).safe = true ∧
    (x.safeEnter 0).bit R.PWR_SAFE_STAT 4 = true ∧ (x.safeEnter 0).pwr = { x.pwr with crucibleStop := true } ∧
    (x.safeEnter 0).mod = x.mod ∧ (x.safeEnter 0).phase = x.phase := by
  have key : ∀ w : State, w.safe = true → w.bit R.PWR_SAFE_STAT 4 = true → w.pwr = x.pwr → w.mod = x.mod → w.phase = x.phase →
      (w.safeStop 0).safe = true ∧ (w.safeStop 0).bit R.PWR_SAFE_STAT 4 = true ∧ (w.safeStop 0).pwr = { x.pwr with crucibleStop := true } ∧
        (w.safeStop 0).mod = x.mod ∧ (w.safeStop 0).phase = x.phase := by
    intro w h0 h4 hpwr hmod hphase
    obtain ⟨hf, hreg⟩ := w.safeStop_crucibles
    have hrd : ∀ a ∈ heldRegs, (w.safeStop 0).rd a = w.rd a := fun a ha => (hreg a ha).trans (State.rd_congr rfl a)
    have hbit : ∀ i, (w.safeStop 0).bit R.PWR_SAFE_STAT i = w.bit R.PWR_SAFE_STAT i := fun i => by
      rw [State.bit, State.bit, State.fld, State.fld, hrd _ (by decide)]
    have hp : (w.safeStop 0).pwr = w.stopCrucibles.pwr := hf.2 .pwr (by decide)
    have hm : (w.safeStop 0).mod = w.mod := hf.2 .mod (by decide)
    refine ⟨(hbit 0).trans h0, (hbit 4).trans h4, hp.trans ?_, hm.trans hmod, ?_⟩
    · rw [← hpwr]
      rfl
    · rw [← hphase, State.phase, State.phase, State.fld, State.fld, hrd _ (by decide)]
  cases hs : x.safe with
  | true =>
    rw [State.safeEnter_again hr hs]
    exact key _ ((State.bit_setBit_apart _ (by decide)).trans hs) (State.bit_setBit_same _ _ _ _ (by decide)) rfl rfl
      (State.fld_setBit_apart _ (by decide))
  | false =>
    rw [State.safeEnter_first hr hs]
    obtain ⟨h0, h4⟩ := x.safeLatched_shows (c := 0) (by decide)
    have hl := x.sameBut_safeLatched 0
    have hphase : (x.safeLatched 0).phase = x.phase := (State.fld_incSat_apart _ (by decide)).trans
      ((State.fld_setBit_apart _ (by decide)).trans (State.fld_setBit_apart _ (by decide)))
    generalize x.safeLatched 0 = u at *
    obtain ⟨hf, hreg⟩ := u.faults_safeLine
    have hbit : ∀ i, u.safeLine.bit R.PWR_SAFE_STAT i = u.bit R.PWR_SAFE_STAT i := fun i => by
      rw [State.bit, State.bit, State.fld, State.fld, hreg _ (by decide)]
    refine key _ ((hbit 0).trans h0) ((hbit 4).trans h4) (Eq.trans (hf.2 .pwr (by decide)) (hl.2 .pwr (by decide)))
      (Eq.trans (hf.2 .mod (by decide)) (hl.2 .mod (by decide))) ?_
    rw [← hphase, State.phase, State.phase, State.fld, State.fld, hreg _ (by decide)]

/-! ### SERREF -/

/-- SERREF is away, or there. -/
def State.serref (s : State) (ok : Bool) : State := { s with mod := { s.mod with serrefOk := ok } }

theorem State.sameBut_serref (x : State) (ok : Bool) : x.sameBut (x.serref ok) [.mod] := x.sameBut_mix (x.serref ok) [.mod]

theorem State.serref_shows (s : State) (t : Nat) (ok : Bool) : ((s.at' t).serref ok).mod = { s.mod with serrefOk := ok } ∧
    ((s.at' t).serref ok).running = s.running ∧ ((s.at' t).serref ok).phase = s.phase := by
  refine ⟨?_, (State.running_congr ⟨rfl, rfl⟩ rfl).trans (s.running_at' t), (State.phase_congr rfl).trans (s.phase_at' t)⟩
  rw [← s.at'_mod t]
  rfl

theorem exec_clockLoss (s : State) (t : Nat) : exec (.clockLoss t) s =
    if (s.at' t).mod.serrefOk && (s.at' t).running && decide (2 ≤ (s.at' t).phase) && decide ((s.at' t).phase ≠ 8) then
      done ((((((s.at' t).serref false).raiseJ E_CLOCK_LOSS {}).hardStop).safeEnter 0).condMonitor).clkUpdate
    else done ((s.at' t).serref false) := rfl

theorem clockLoss_before (h : s.mod.serrefOk = false ∨ s.running = false ∨ s.phase < 2 ∨ s.phase = 8) :
    s.gives (.clockLoss t) [.mod] fun s' => s'.mod = { s.mod with serrefOk := false } := by
  refine State.gives_of_done t ((exec_clockLoss s t).trans (if_neg ?_)) (State.sameBut_serref _ _) (s.serref_shows t false).1
  rw [State.at'_mod, State.running_at', State.phase_at']
  obtain h | h | h | h := h
  · simp [h]
  · simp [h]
  · simp [Nat.not_le_of_lt h]
  · simp [h]

/-- Without SERREF the clock stops, and shows why. -/
theorem State.clkUpdate_noSerref (h : x.mod.serrefOk = false) : x.clkUpdate.fld R.PWR_CLK 0 3 = 6 ∧ x.clkUpdate.bit R.PWR_CLK 14 = true := by
  refine ⟨?_, by rw [State.bit_clkUpdate_serref, h]; rfl⟩
  have hw : x.clkWanted.1 = 6 := by
    unfold State.clkWanted
    split
    · rfl
    · rw [if_pos (by rw [h]; rfl)]
  rw [State.fld_clkUpdate_step, hw]

/-- R42, R466: once the PLLs are locked the loss of SERREF stops every crucible and enters the safe state. -/
theorem clockLoss_safe (h : s.mod.serrefOk = true) (hr : s.running = true) (h2 : 2 ≤ s.phase) (h8 : s.phase ≠ 8) :
    ∃ s', exec (.clockLoss t) s = .next s' ∧ s'.mod.serrefOk = false ∧ s'.safe = true ∧ s'.bit R.PWR_SAFE_STAT 4 = true ∧
      s'.pwr.crucibleStop = true ∧ s'.fld R.PWR_CLK 0 3 = 6 ∧ s'.bit R.PWR_CLK 14 = true ∧ (s.phase = 3 → s'.phase = 2) := by
  have hexec := (exec_clockLoss s t).trans (if_pos (by
    rw [State.at'_mod, State.running_at', State.phase_at']
    simp [h, hr, h2, h8]))
  obtain ⟨hm, hrun, hphase⟩ := s.serref_shows t false
  generalize (s.at' t).serref false = w at *
  obtain ⟨hf, hreg⟩ := (w.records_raiseJ E_CLOCK_LOSS {} _).faults.trans (State.faults_hardStop _)
  generalize (w.raiseJ E_CLOCK_LOSS {}).hardStop = u at *
  have hum : u.mod = w.mod := hf.2 .mod (by decide)
  have hup : u.pwr = w.pwr := hf.2 .pwr (by decide)
  have hur : u.running = true := (State.running_congr (y := w) ⟨by rw [hum], by rw [hum]⟩ (by rw [hup])).trans (hrun.trans hr)
  have huph : u.phase = s.phase := by rw [← hphase, State.phase, State.phase, State.fld, State.fld, hreg _ (by decide)]
  obtain ⟨e0, e4, ep, em, eph⟩ := u.safeEnter_crucibles hur
  generalize u.safeEnter 0 = v at *
  have hvm : v.mod = { s.mod with serrefOk := false } := em.trans (hum.trans hm)
  have hvr : v.running = true := (State.running_congr (y := u) ⟨by rw [em], by rw [em]⟩ (by rw [ep])).trans hur
  have h3 : s.phase = 3 → v.condMonitor.phase = 2 := fun h => by
    rw [State.condMonitor_fails hvr (eph.trans (huph.trans h)) (by rw [State.condNow, hvm]; simp)]
    exact v.frame_condDiscard.2.1
  have hcm := v.sameBut_condMonitor
  have hcr := v.regsBut_condMonitor
  generalize v.condMonitor = z at *
  have hzm : z.mod = { s.mod with serrefOk := false } := Eq.trans (hcm.2 .mod (by decide)) hvm
  obtain ⟨c6, c14⟩ := State.clkUpdate_noSerref (x := z) (by rw [hzm])
  have hkf : z.sameBut z.clkUpdate [.regs, .dbg] := (State.sameBut_clkUpdate fun _ h => h).mpr (z.sameBut_refl _)
  have hkr := z.regsBut_clkUpdate
  generalize z.clkUpdate = k at *
  have hkm : k.mod = { s.mod with serrefOk := false } := Eq.trans (hkf.2 .mod (by decide)) hzm
  have hkp : k.pwr = { u.pwr with crucibleStop := true } :=
    Eq.trans (hkf.2 .pwr (by decide)) (Eq.trans (hcm.2 .pwr (by decide)) ep)
  have hset : k.settle.mod = k.mod ∧ k.settle.pwr.crucibleStop = k.pwr.crucibleStop := ⟨rfl, rfl⟩
  refine ⟨_, hexec, by rw [hset.1, hkm], ?_, ?_, by rw [hset.2, hkp], by rw [State.fld_settle, c6], by rw [State.bit_settle, c14],
    fun h => ?_⟩
  · rw [State.safe, State.bit_settle, hkr.bit (by decide), hcr.bit (by decide)]
    exact e0
  · rw [State.bit_settle, hkr.bit (by decide), hcr.bit (by decide), e4]
  · rw [State.phase_settle, State.phase, hkr.fld (by decide)]
    exact h3 h

/-- The crucibles may run again, from step 6 of the thermal source. -/
def State.relocked (s : State) : State :=
  ({ s with pwr := { s.pwr with thermAt := s.now, crucibleStop := s.bit R.PWR_SAFE_STAT 5 || s.bit R.PWR_SAFE_STAT 7 } }).setFld R.PWR_CLK 4 3 6

theorem State.relocked_shows (x : State) : x.sameBut x.relocked [.pwr, .regs] ∧ x.relocked.fld R.PWR_CLK 4 3 = 6 ∧
    (∀ a lo w, lo + w ≤ 32 ∧ (a ≠ R.PWR_CLK ∨ lo + w ≤ 4 ∨ 7 ≤ lo) → x.relocked.fld a lo w = x.fld a lo w) ∧
    x.relocked.pwr.crucibleStop = (x.bit R.PWR_SAFE_STAT 5 || x.bit R.PWR_SAFE_STAT 7) ∧ x.relocked.pwr.failStop = x.pwr.failStop := by
  refine ⟨?_, State.fld_setFld_same _ _ _ _ _ (by decide), fun a lo w h => ?_, rfl, rfl⟩
  · exact (State.sameBut_setFld (by decide)).mpr (.one (State.sameBut_pwr _ _) (by decide))
  · exact (State.fld_setFld_apart _ h).trans (State.fld_congr rfl _ _ _)

theorem exec_serrefRelock (s : State) (t : Nat) : exec (.serrefRelock t) s =
    if (s.at' t).mod.serrefOk then done (s.at' t)
    else if !((s.at' t).serref true).running then done ((s.at' t).serref true)
    else done ((s.at' t).serref true).relocked.clkUpdate := rfl

theorem serrefRelock_there (h : s.mod.serrefOk = true) : s.givesNothing (.serrefRelock t) :=
  State.givesNothing_of_done t ((exec_serrefRelock s t).trans (if_pos (by rw [State.at'_mod, h])))

/-- The thermal source at step 6 holds the clock there, whatever self-test asks. -/
theorem State.clkWanted_slowest (hp : x.pmcUp = true) (hs : x.mod.serrefOk = true) (htherm : x.fld R.PWR_CLK 4 3 = 6)
    (hcap : x.fld R.PWR_CLK_CAP 0 3 ≤ 6) (hguard : x.fld R.PWR_CLK 8 3 ≤ 6) : x.clkWanted.1 = 6 := by
  rw [State.clkWanted, if_neg (by simp [hp]), if_neg (by simp [hs]), htherm]
  generalize x.fld R.PWR_CLK_CAP 0 3 = a at *
  generalize x.fld R.PWR_CLK 8 3 = b at *
  have hst : (if x.phase = 3 then 4 else 0) ≤ 4 := by split <;> omega
  generalize (if x.phase = 3 then 4 else 0) = st at *
  simp only [List.foldl_cons, List.foldl_nil]
  grind

/-- R466: the relock restarts the crucibles at step 6. -/
theorem serrefRelock_restarts (h : s.mod.serrefOk = false) (hr : s.running = true) (hcap : s.fld R.PWR_CLK_CAP 0 3 ≤ 6)
    (hguard : s.fld R.PWR_CLK 8 3 ≤ 6) (hp : s.pmcUp = true) :
    s.gives (.serrefRelock t) [.mod, .regs, .pwr, .dbg] fun s' => s'.mod = { s.mod with serrefOk := true } ∧
      s'.fld R.PWR_CLK 4 3 = 6 ∧ s'.fld R.PWR_CLK 0 3 = 6 ∧ s'.bit R.PWR_CLK 14 = false ∧
      s'.pwr.crucibleStop = (s.bit R.PWR_SAFE_STAT 5 || s.bit R.PWR_SAFE_STAT 7) := by
  have hexec := (exec_serrefRelock s t).trans (if_neg (by rw [State.at'_mod, h]; decide))
  obtain ⟨hm, hrun, -⟩ := s.serref_shows t true
  have hf := (s.at' t).sameBut_serref true
  have hregs : ((s.at' t).serref true).regs = s.regs := s.at'_regs t
  rw [hrun, hr, if_neg (by decide)] at hexec
  generalize (s.at' t).serref true = w at *
  obtain ⟨hrf, htherm, hfld, hstop, -⟩ := w.relocked_shows
  generalize w.relocked = u at *
  have hum : u.mod = { s.mod with serrefOk := true } := Eq.trans (hrf.2 .mod (by decide)) hm
  have hold : ∀ a lo wd, lo + wd ≤ 32 ∧ (a ≠ R.PWR_CLK ∨ lo + wd ≤ 4 ∨ 7 ≤ lo) → u.fld a lo wd = s.fld a lo wd :=
    fun a lo wd ha => (hfld a lo wd ha).trans (State.fld_congr hregs _ _ _)
  have hpmc : u.pmcUp = true := by
    rw [State.pmcUp, State.fwState, hold _ _ _ (by decide)]
    exact hp
  have hwant : u.clkWanted.1 = 6 := State.clkWanted_slowest hpmc (by rw [hum]) htherm (by rw [hold _ _ _ (by decide)]; exact hcap)
    (by rw [hold _ _ _ (by decide)]; exact hguard)
  have hkf : u.sameBut u.clkUpdate [.regs, .dbg] := (State.sameBut_clkUpdate fun _ h => h).mpr (u.sameBut_refl _)
  refine State.gives_of_done t hexec ((hf.mono (by decide)).trans ((hrf.mono (by decide)).trans (hkf.mono (by decide))))
    ⟨Eq.trans (hkf.2 .mod (by decide)) hum, ?_, ?_, ?_, ?_⟩
  · rw [State.fld_settle, State.fld_clkUpdate_request _ (by decide), htherm]
  · rw [State.fld_settle, State.fld_clkUpdate_step, hwant]
  · rw [State.bit_settle, State.bit_clkUpdate_serref, hum]
    rfl
  · have hkp : u.clkUpdate.pwr = u.pwr := hkf.2 .pwr (by decide)
    generalize u.clkUpdate = k at *
    rw [show k.settle.pwr.crucibleStop = k.pwr.crucibleStop from rfl, hkp, hstop, State.bit_congr hregs, State.bit_congr hregs]

/-! ### The claim -/

/-- Settles O57, clause by clause. -/
theorem supplyAndResets : Obligations.SupplyAndResets := by
  unfold Obligations.SupplyAndResets
  intro s t now good noted calm discards looks fresh counted rises
  refine ⟨fun v hv => powerUp_rises hv, fun v => powerUp_looks, fun v hv => powerFailRestart_rises hv, fun v => powerFailRestart_looks,
    railOut_holds s t, railOut_viso s t, fun v hv => pwrFailWarning_looks (.inl ⟨rfl, hv⟩), fun pin v h3 => pwrFailWarning_looks (.inr h3),
    fun pin v h h3 => ⟨pwrFailWarning_again h h3, pwrFailWarning_first h h3⟩, fun v => vinBrownout_looks, fun v hv h3 =>
    vinBrownout_resets hv h3, modResetAssert_holds, modResetAssert_asleep, modResetRelease_stays, modResetRelease_rises,
    fun h => ⟨perst_down h, refclkLoss_calm h, pcieLinkDown_down h⟩, refclkLoss_discards,
    fun h hr => ⟨perst_up h hr, refclkLoss_up h hr, pcieLinkDown_up h hr⟩, fun w r => ⟨pcieLinkUp_trains w r, pcieLinkUp_not w r⟩,
    clockLoss_safe, clockLoss_before, serrefRelock_restarts, serrefRelock_there⟩

end Sys2Proof.Machine
end

section
/-! PROOF. Bring-up (R56, R58): where the claim leaves out what a tenth failed check does. -/

namespace Sys2Proof.Machine

/-- The ROM is at work with nine checks of the self-test conditions failed. A reset clears that count, but the claim is about every state
in phase 1, whatever its count. -/
def ninthFailure : State :=
  ({ mod := { held := false }, boot := { started := true, serrefAtRom := true, condFails := 9 } } : State).wr R.GLB_BOOT_STATUS 1

/-- An image that passes verification. -/
def acceptedImage : Image := { lengthOk := true, headerOk := true, signatureOk := true, hivMajor := 1, hivMinor := 0, version := 1 }

/-- Conditions that do not hold: VIN is away. -/
def vinAway : CondMeas := { vinMv := 0, refclkPpm := 0 }

/-- The check that follows the image's verification is the tenth to fail: it ends the boot (R58), and the boot record goes to the
journal (R64). -/
theorem imageVerifyDone_tenthFailure : ∃ s', exec (.imageVerifyDone 0 acceptedImage vinAway) ninthFailure = .next s' ∧
    s'.jrn.nextSeq = ninthFailure.jrn.nextSeq + 1 := ⟨_, rfl, by decide⟩

/-- Refutes O58: the clause of a good image lets no part beside boot, registers, host, debug, security and module change, whatever the
count of failed checks, but the tenth failed check writes the boot record to the journal. -/
theorem not_bringUp : ¬ Obligations.BringUp := by
  unfold Obligations.BringUp
  intro h
  obtain ⟨-, -, himage, -⟩ := h ninthFailure 0
  obtain ⟨-, hgood, -⟩ := himage acceptedImage vinAway (by decide) rfl (by decide)
  obtain ⟨s', hs, hkeeps, -⟩ := hgood (by decide) rfl rfl rfl
  obtain ⟨z, hz, hseq⟩ := imageVerifyDone_tenthFailure
  obtain rfl : z = s' := Host.Outcome.next.inj (hz.symm.trans hs)
  have hsame : z.jrn = ninthFailure.jrn := hkeeps .jrn (by decide)
  rw [hsame] at hseq
  omega

end Sys2Proof.Machine
end

section
/-! PROOF. Cameras and their ports (R115, R116, R132): the port states, the camera table, and what loss and bring-up leave alone. -/

namespace Sys2Proof.Machine

variable {s x y z : State} {t m p q v : Nat} {l : List Part} {a lo w : Nat}

/-! ### The port registers -/

/-- `CXP_PORT_STAT` of every port. -/
def portStats : List Nat := (List.range 32).map R.CXP_PORT_STAT

theorem mem_portStats : a ∈ portStats ↔ ∃ p < 32, a = 0x3200020 + 0x100 * p := by
  simp [portStats, R.CXP_PORT_STAT, eq_comm]

theorem portStat_mem (hp : p < 32) : R.CXP_PORT_STAT p ∈ portStats := mem_portStats.mpr ⟨p, hp, rfl⟩

theorem State.camPorts_lt (h : p ∈ x.camPorts m) : p < 32 := by
  obtain ⟨i, -, rfl⟩ := List.mem_map.mp h
  exact Nat.mod_lt _ (by decide)

theorem State.self_mem_camPorts (x : State) (hm : m < 32) : m ∈ x.camPorts m :=
  List.mem_map.mpr ⟨0, List.mem_range.mpr (by positivity), by omega⟩

/-- What a fold over ports ends with for port `q`: the step for `q` makes it so, and no other port's step undoes it. -/
theorem State.foldl_port {ps : List Nat} {f : State → Nat → State} {P : State → Prop} (hq : q ∈ ps) (hset : ∀ y, P (f y q))
    (hkeep : ∀ y, ∀ p ∈ ps, p ≠ q → P y → P (f y p)) (x : State) : P (ps.foldl f x) := by
  have key : ∀ (l : List Nat) (y : State), (∀ p ∈ l, p ∈ ps) → (P y ∨ q ∈ l) → P (l.foldl f y) := by
    intro l
    induction l with
    | nil => exact fun y _ h => h.resolve_right (by simp)
    | cons p l ih =>
      intro y hl h
      refine ih (f y p) (fun r hr => hl r (by simp [hr])) ?_
      by_cases hpq : p = q
      · exact .inl (hpq ▸ hset y)
      · obtain h | h := h
        · exact .inl (hkeep y p (hl p (by simp)) hpq h)
        · exact .inr ((List.mem_cons.mp h).resolve_left (Ne.symm hpq))
  exact key ps x (fun _ h => h) (.inr hq)

/-- A step for each port that writes its `CXP_PORT_STAT`. -/
theorem State.frame_foldl_stat {ps : List Nat} {g : State → Nat → Nat} (hps : ∀ p ∈ ps, p < 32) (x : State) :
    x.sameBut (ps.foldl (fun s p => s.wr (R.CXP_PORT_STAT p) (g s p)) x) [.regs] ∧
      x.regsBut (ps.foldl (fun s p => s.wr (R.CXP_PORT_STAT p) (g s p)) x) portStats :=
  List.foldlRecOn (motive := fun y => x.sameBut y [.regs] ∧ x.regsBut y portStats) ps _ ⟨x.sameBut_refl _, x.regsBut_refl _⟩
    fun _ hy _ hp => ⟨(State.sameBut_wr (by simp)).mpr hy.1, State.regsBut_wr hy.2 (portStat_mem (hps _ hp))⟩

/-- The word a port shows in state `st`. -/
def portWord (st v : Nat) : Nat := if st = 3 then putBits v 0 3 3 else putBits 0 6 1 (v / 64) + st

theorem State.frame_setCamState (x : State) (m st : Nat) : x.sameBut (x.setCamState m st) [.regs] ∧
    x.regsBut (x.setCamState m st) portStats := State.frame_foldl_stat (fun _ h => State.camPorts_lt h) x

theorem portWord_state {st : Nat} (hst : st < 8) (v : Nat) : portWord st v % 2 ^ 32 / 2 ^ 0 % 2 ^ 3 = st := by
  unfold portWord putBits
  split <;> omega

theorem portWord_speed (v : Nat) : portWord 3 v % 2 ^ 32 / 2 ^ 3 % 2 ^ 3 = v / 2 ^ 3 % 2 ^ 3 := by
  unfold portWord putBits
  rw [if_pos rfl]
  omega

theorem portStat_ne (h : p ≠ q) : R.CXP_PORT_STAT q ≠ R.CXP_PORT_STAT p := by
  simp only [R.CXP_PORT_STAT]
  omega

/-- A camera shows the state it is set to. -/
theorem State.camState_setCamState (x : State) {st : Nat} (hm : m < 32) (hst : st < 8) : (x.setCamState m st).camState m = st :=
  State.foldl_port (P := fun y => y.camState m = st) (x.self_mem_camPorts hm)
    (fun y => by
      rw [State.camState, State.fld, State.rd_wr_same]
      exact portWord_state hst _)
    (fun y p _ hp hy => (State.fld_wr_other _ _ _ _ (portStat_ne hp)).trans hy) x

/-- Going UP keeps the speed. -/
theorem State.speed_setCamState (x : State) (m p : Nat) :
    (x.setCamState m 3).fld (R.CXP_PORT_STAT p) 3 3 = x.fld (R.CXP_PORT_STAT p) 3 3 :=
  List.foldlRecOn (motive := fun y : State => y.fld (R.CXP_PORT_STAT p) 3 3 = x.fld (R.CXP_PORT_STAT p) 3 3) (x.camPorts m) _ rfl
    fun y hy q _ => by
      by_cases hq : q = p
      · subst hq
        rw [← hy, State.fld, State.rd_wr_same]
        exact portWord_speed _
      · exact (State.fld_wr_other _ _ _ _ (portStat_ne hq)).trans hy

/-- A speed shown leaves the state, and every register but the ports'. -/
theorem State.camSpeed_shows (x : State) (hm : m < 32) {v : Nat} (hv : v < 8) : x.sameBut (x.camSpeed m v) [.regs] ∧
    x.regsBut (x.camSpeed m v) portStats ∧ (x.camSpeed m v).camState m = x.camState m ∧
    (x.camSpeed m v).fld (R.CXP_PORT_STAT m) 3 3 = v := by
  unfold State.camSpeed
  refine ⟨?_, ?_, ?_, ?_⟩
  · exact List.foldlRecOn (motive := fun y => x.sameBut y [.regs]) _ _ (x.sameBut_refl _) fun y hy p _ => by simpa using hy
  · exact List.foldlRecOn (motive := fun y => x.regsBut y portStats) _ _ (x.regsBut_refl _) fun y hy p hp =>
      State.regsBut_setBit (State.regsBut_setFld hy (portStat_mem (State.camPorts_lt hp))) (portStat_mem (State.camPorts_lt hp))
  · exact List.foldlRecOn (motive := fun y : State => y.camState m = x.camState m) _ _ rfl fun y hy p _ =>
      ((State.fld_setBit_apart _ (by omega)).trans (State.fld_setFld_apart _ (by omega))).trans hy
  · refine State.foldl_port (P := fun y => y.fld (R.CXP_PORT_STAT m) 3 3 = v) (x.self_mem_camPorts hm) (fun y => ?_) (fun y p _ hp hy => ?_) x
    · rw [State.fld_setBit_apart _ (by omega), State.fld_setFld_same _ _ _ _ _ (by decide)]
      exact Nat.mod_eq_of_lt hv
    · exact (State.fld_setBit_apart _ ⟨by omega, .inl (portStat_ne hp)⟩).trans
        ((State.fld_setFld_apart _ ⟨by omega, .inl (portStat_ne hp)⟩).trans hy)

/-! ### The camera table -/

theorem State.sameBut_setCam (x : State) (m : Nat) (k : Cam) : x.sameBut (x.setCam m k) [.intk] := x.sameBut_mix (x.setCam m k) [.intk]

@[simp] theorem State.cam_setCam_same (x : State) (m : Nat) (k : Cam) : (x.setCam m k).cam m = k := KMap.getD_put_same _ _ _ _

theorem State.cam_congr (h : x.intk.cams = y.intk.cams) (m : Nat) : x.cam m = y.cam m := by rw [State.cam, State.cam, h]

theorem State.camState_congr (h : x.regs = y.regs) (m : Nat) : x.camState m = y.camState m := State.fld_congr h _ _ _

/-- A waiting mailbox command is sent: the cameras stay. -/
theorem State.frame_ctlSend (x : State) (m : Nat) : x.sameBut (x.ctlSend m) [.intk] ∧ (x.ctlSend m).intk.cams = x.intk.cams := by
  unfold State.ctlSend
  split
  · split
    · exact ⟨State.sameBut_mix x { x with intk := { x.intk with ctl := some _ } } [.intk], rfl⟩
    · exact ⟨x.sameBut_refl _, rfl⟩
  · exact ⟨x.sameBut_refl _, rfl⟩

/-! ### Slots that take a camera's streams -/

/-- No register of the slots' sources is a port's. -/
theorem State.camSlots_regsBut {rs : List Nat} (h : x.regsBut y rs)
    (hsrc : ∀ j, R.RUN_SRC (j / 4) (j % 4) ∉ rs) (hmap : ∀ e < 64, R.CXP_STREAM_MAP e ∉ rs) (m : Nat) : y.camSlots m = x.camSlots m := by
  unfold State.camSlots
  refine List.filter_congr fun j _ => ?_
  dsimp only
  rw [h _ (hsrc j), h _ (hmap _ (Nat.mod_lt _ (by decide)))]

theorem src_not_mem_portStats (j : Nat) : R.RUN_SRC (j / 4) (j % 4) ∉ portStats := fun h => by
  obtain ⟨p, hp, h⟩ := mem_portStats.mp h
  simp only [R.RUN_SRC] at h
  omega

theorem map_not_mem_portStats (e : Nat) (he : e < 64) : R.CXP_STREAM_MAP e ∉ portStats := fun h => by
  obtain ⟨p, hp, h⟩ := mem_portStats.mp h
  simp only [R.CXP_STREAM_MAP] at h
  omega

/-- A camera no slot takes a stream of is cut: its stamps are lost. -/
theorem State.camCut_idle (h : x.camSlots m = []) : x.camCut m = x.setCam m (x.cam m).loseStamps := by
  rw [State.camCut, h]
  rfl

/-- R132: the ports of a lost camera show it, its stamps are lost, and bring-up is due again in 1 s. -/
theorem State.camLost_shows (x : State) (hm : m < 32) (h : x.camSlots m = []) : x.sameBut (x.camLost m) [.regs, .intk] ∧
    x.regsBut (x.camLost m) portStats ∧ (x.camLost m).camState m = 4 ∧ ((x.camLost m).cam m).stamps = [] ∧
    ((x.camLost m).cam m).retryAt = some (x.now + 1000000000) := by
  unfold State.camLost
  dsimp only
  obtain ⟨hf, hr⟩ := x.frame_setCamState m 4
  have h4 := x.camState_setCamState (st := 4) hm (by decide)
  have hidle : (x.setCamState m 4).camSlots m = [] :=
    (State.camSlots_regsBut hr src_not_mem_portStats map_not_mem_portStats m).trans h
  generalize x.setCamState m 4 = w at *
  rw [State.camCut_idle hidle, State.cam_setCam_same]
  have hc := w.sameBut_setCam m (w.cam m).loseStamps
  generalize hu : w.setCam m (w.cam m).loseStamps = u at *
  have hd := u.sameBut_setCam m { (w.cam m).loseStamps with retryAt := some (u.now + 1000 * ms), testMode := false }
  have hcam := u.cam_setCam_same m { (w.cam m).loseStamps with retryAt := some (u.now + 1000 * ms), testMode := false }
  generalize u.setCam m { (w.cam m).loseStamps with retryAt := some (u.now + 1000 * ms), testMode := false } = v at *
  obtain ⟨he, hcams⟩ := v.frame_ctlSend m
  have hregs : (v.ctlSend m).regs = w.regs :=
    Eq.trans (he.2 .regs (by decide)) (Eq.trans (hd.2 .regs (by decide)) (hc.2 .regs (by decide)))
  have hk := (State.cam_congr hcams m).trans hcam
  refine ⟨(hf.mono (by decide)).trans ((hc.mono (by decide)).trans ((hd.mono (by decide)).trans (he.mono (by decide)))),
    hr.trans (State.regsBut_congr hregs _), (State.camState_congr hregs m).trans h4, by rw [hk]; rfl, ?_⟩
  rw [hk, hc.1, hf.1]
  rfl

end Sys2Proof.Machine
end

section
/-! PROOF. A camera's bring-up, its loss and its repetition (R115, R116, R132). -/

namespace Sys2Proof.Machine

variable {s x y z : State} {t m v : Nat} {c : Fin 32} {d : Discovery}

/-! ### Limited events -/

theorem State.regsBut_raiseLim (x : State) (code key period : Nat) (w : EvWords) (ctx : Nat) :
    x.regsBut (x.raiseLim code key period w ctx) raiseRegs := by
  unfold State.raiseLim
  split
  · exact (State.regsBut_congr (x := x.rateMark code key) rfl _).trans ((x.rateMark code key).regsBut_raise _ _ _)
  · exact x.regsBut_refl _

theorem raiseRegs_not_port : ∀ p, R.CXP_PORT_STAT p ∉ raiseRegs := by
  intro p
  simp only [raiseRegs, List.mem_cons, List.not_mem_nil, or_false, R.CXP_PORT_STAT, R.CMD_EVT_LOST, R.DBG_LOG_UART_DROP]
  omega

theorem State.camSlots_raised (h : x.regsBut y raiseRegs) (m : Nat) : y.camSlots m = x.camSlots m := by
  refine State.camSlots_regsBut h (fun j => ?_) (fun e he => ?_) m
  · simp only [raiseRegs, List.mem_cons, List.not_mem_nil, or_false, R.RUN_SRC, R.CMD_EVT_LOST, R.DBG_LOG_UART_DROP]
    omega
  · simp only [raiseRegs, List.mem_cons, List.not_mem_nil, or_false, R.CXP_STREAM_MAP, R.CMD_EVT_LOST, R.DBG_LOG_UART_DROP]
    omega

/-- The camera `m` as a loss leaves it (R132), from `x` on. -/
def State.camIsLost (x y : State) (m : Nat) : Prop := x.sameBut y (.intk :: raiseParts) ∧ y.camState m = 4 ∧ (y.cam m).stamps = [] ∧
  (y.cam m).retryAt = some (x.now + 1000000000)

/-- An event of the loss comes before it, and changes nothing of it. -/
theorem State.camLost_raiseLim (x : State) (code key period : Nat) (w : EvWords) (hm : m < 32) (h : x.camSlots m = []) :
    x.camIsLost ((x.raiseLim code key period w).camLost m) m := by
  have hf : x.sameBut (x.raiseLim code key period w) raiseParts := (x.raisedFrom_raiseLim _ _ _ _ _).sameBut fun _ h => h
  have hslots := State.camSlots_raised (x.regsBut_raiseLim code key period w 0) m
  generalize x.raiseLim code key period w = u at *
  obtain ⟨hl, -, h4, hs, hr⟩ := u.camLost_shows hm (hslots.trans h)
  exact ⟨(hf.mono (by decide)).trans (hl.mono (by decide)), h4, hs, by rw [hr, hf.1]⟩

theorem State.camLost_link (x : State) (hm : m < 32) (h : x.camSlots m = []) : x.camIsLost ((x.camLink m).camLost m) m :=
  x.camLost_raiseLim _ _ _ _ hm h

theorem State.camSlots_at' (s : State) (t m : Nat) : (s.at' t).camSlots m = s.camSlots m :=
  State.camSlots_regsBut (rs := []) (State.regsBut_congr (s.at'_regs t) _) (by simp) (by simp) m

/-- A command that ends in the loss of camera `c`. -/
theorem State.gives_camIsLost {i : Instr} (hc : exec i s = done y) (h : (s.at' t).camIsLost y c) :
    s.gives i ([.intk] ++ raiseParts) fun s' => s'.camState c = 4 ∧ (s'.cam c).stamps = [] ∧
      (s'.cam c).retryAt = some (max s.now t + 1000000000) := by
  obtain ⟨hf, h4, hs, hr⟩ := h
  rw [State.now_at'] at hr
  exact State.gives_of_done t hc hf ⟨(State.fld_settle _ _ _ _).trans h4, hs, hr⟩

theorem State.camState_at' (s : State) (t m : Nat) : (s.at' t).camState m = s.camState m := s.fld_at' _ _ _ _

theorem State.camOn_at' (s : State) (t m : Nat) : (s.at' t).camOn m = s.camOn m := by
  rw [State.camOn, State.camOn, State.camOf, State.camOf, State.bit_at', State.fld_at']

theorem exec_cameraLinkLost (s : State) (t : Nat) (c : Fin 32) : exec (.cameraLinkLost t c) s =
    if (s.at' t).running ∧ (s.at' t).camOn c = true ∧ ((s.at' t).camState c = 3 ∨ (s.at' t).camState c = 2 ∨ (s.at' t).camState c = 7) then
      done (((s.at' t).camLink c).camLost c) else done (s.at' t) := rfl

theorem cameraLinkLost_loses (hr : s.running = true) (ho : s.camOn c = true)
    (hst : s.camState c = 3 ∨ s.camState c = 2 ∨ s.camState c = 7) (hs : s.camSlots c = []) :
    s.gives (.cameraLinkLost t c) ([.intk] ++ raiseParts) fun s' => s'.camState c = 4 ∧ (s'.cam c).stamps = [] ∧
      (s'.cam c).retryAt = some (max s.now t + 1000000000) :=
  State.gives_camIsLost ((exec_cameraLinkLost s t c).trans (if_pos
    ⟨(s.running_at' t).trans hr, (s.camOn_at' t c).trans ho, by rwa [State.camState_at']⟩))
    ((s.at' t).camLost_link c.isLt ((s.camSlots_at' t c).trans hs))

/-! ### The init list -/

/-- Writes in the init list of camera `m`. -/
def State.initLen (s : State) (m : Nat) : Nat := min 256 (s.fld (R.CXP_INIT_LEN m) 0 9)

/-- Writes acknowledged once `acks` more are. -/
def State.initAt (s : State) (m acks : Nat) : Nat := min (s.initLen m) ((s.cam m).initDone + acks)

/-- The acknowledged writes are noted, and the next one goes out. -/
def State.initNoted (s : State) (m acks : Nat) : State :=
  s.setCam m { s.cam m with
    initDone := s.initAt m acks, wrote := (List.range (min (s.initLen m) (s.initAt m acks + 1))).map (s.initEntry m) }

theorem State.camInit_eq (x : State) (m acks : Nat) (failed : Bool) : x.camInit m acks failed =
    if x.initAt m acks = x.initLen m then (x.initNoted m acks).camUp m
    else if failed then ((x.initNoted m acks).raiseLim E_CXP_PACKET m ms {}).camLost m else x.initNoted m acks := rfl

/-- A camera comes UP at the speed it shows, with the camera table as it was. -/
theorem State.camUp_shows (x : State) (hm : m < 32) : x.sameBut (x.camUp m) [.regs, .free, .intk] ∧ (x.camUp m).camState m = 3 ∧
    (x.camUp m).fld (R.CXP_PORT_STAT m) 3 3 = x.fld (R.CXP_PORT_STAT m) 3 3 ∧ (x.camUp m).intk.cams = x.intk.cams := by
  unfold State.camUp
  dsimp only
  obtain ⟨hf, -⟩ := x.frame_setCamState m 3
  have h3 := x.camState_setCamState (st := 3) hm (by decide)
  have hv := x.speed_setCamState m m
  generalize x.setCamState m 3 = w at *
  have hfold : ∀ (ps : List Nat) (f : State → Nat → Nat),
      w.sameBut (ps.foldl (fun s p => (s.wr (R.CXP_RXEQ_STAT p) (f s p)).fresh) w) [.regs, .free] ∧
        (ps.foldl (fun s p => (s.wr (R.CXP_RXEQ_STAT p) (f s p)).fresh) w).rd (R.CXP_PORT_STAT m) = w.rd (R.CXP_PORT_STAT m) := by
    intro ps f
    refine List.foldlRecOn (motive := fun y : State => w.sameBut y [.regs, .free] ∧ y.rd (R.CXP_PORT_STAT m) = w.rd (R.CXP_PORT_STAT m)) ps _
      ⟨w.sameBut_refl _, rfl⟩ fun y hy p _ => ⟨by simpa using hy.1, ?_⟩
    refine (State.rd_congr rfl _).trans ((State.rd_wr_other _ _ ?_).trans hy.2)
    simp only [R.CXP_PORT_STAT, R.CXP_RXEQ_STAT]
    omega
  obtain ⟨hu, hrd⟩ := hfold (w.camPorts m) fun s p => s.rxeqUse (R.CXP_RXEQ_CFG p) (R.CXP_RXEQ_STAT p)
  generalize (w.camPorts m).foldl _ w = u at *
  obtain ⟨hs, hcams⟩ := u.frame_ctlSend m
  have hreg : (u.ctlSend m).rd (R.CXP_PORT_STAT m) = w.rd (R.CXP_PORT_STAT m) := (State.rd_congr (hs.2 .regs (by decide)) _).trans hrd
  refine ⟨(hf.mono (by decide)).trans ((hu.mono (by decide)).trans (hs.mono (by decide))), ?_, ?_, ?_⟩
  · rw [State.camState, State.fld, hreg]
    exact h3
  · rw [State.fld, hreg]
    exact hv
  · have hk : u.intk = x.intk := Eq.trans (hu.2 .intk (by decide)) (hf.2 .intk (by decide))
    rw [hcams, hk]

/-- Camera `m` of `s` stands in the midst of its init list, at speed `v`: no more than the ports' registers has changed. -/
def State.atInit (s : State) (t m v : Nat) (y : State) : Prop := (s.at' t).sameBut y [.regs] ∧ (s.at' t).regsBut y portStats ∧
  y.camState m = 7 ∧ y.fld (R.CXP_PORT_STAT m) 3 3 = v

theorem State.atInit.cam (h : s.atInit t m v y) : y.cam m = s.cam m :=
  State.cam_congr (congrArg Intake.cams (Eq.trans (h.1.2 .intk (by decide)) (s.at'_intk t))) m

theorem State.atInit.initLen (h : s.atInit t m v y) : y.initLen m = s.initLen m := by
  obtain ⟨-, hr, -⟩ := h
  have hm : R.CXP_INIT_LEN m ∉ portStats := fun h => by
    obtain ⟨p, hp, h⟩ := mem_portStats.mp h
    simp only [R.CXP_INIT_LEN] at h
    omega
  rw [State.initLen, State.initLen, hr.fld hm, State.fld_at']

theorem State.atInit.initAt (h : s.atInit t m v y) (acks : Nat) : y.initAt m acks = s.initAt m acks := by
  rw [State.initAt, State.initAt, h.initLen, h.cam]

theorem State.atInit.initEntry (h : s.atInit t m v y) (e : Nat) : y.initEntry m e = s.initEntry m e := by
  obtain ⟨-, hr, -⟩ := h
  have hm : ∀ a, a = R.CXP_INIT m e ∨ a = R.CXP_INIT m e + 4 → a ∉ portStats := fun a ha h => by
    obtain ⟨p, hp, h⟩ := mem_portStats.mp h
    simp only [R.CXP_INIT] at ha
    omega
  rw [State.initEntry, State.initEntry, hr _ (hm _ (.inl rfl)), hr _ (hm _ (.inr rfl)), State.rd_at', State.rd_at']

/-- Noting the writes leaves the ports, and the camera as the claim has it. -/
theorem State.atInit.noted (h : s.atInit t m v y) (acks : Nat) : (s.at' t).sameBut (y.initNoted m acks) [.regs, .intk] ∧
    (y.initNoted m acks).regs = y.regs ∧ (y.initNoted m acks).cam m = { s.cam m with
      initDone := s.initAt m acks, wrote := (List.range (min (s.initLen m) (s.initAt m acks + 1))).map (s.initEntry m) } := by
  refine ⟨(h.1.mono (by decide)).trans ((y.sameBut_setCam _ _).mono (by decide)), rfl, ?_⟩
  rw [State.initNoted, State.cam_setCam_same, h.cam, h.initLen, h.initAt, funext h.initEntry]

/-! ### Discovery -/

/-- The highest speed offered that the configuration allows. -/
theorem camSpeedOf_of_highest {o : BitVec 7} {top : Nat} (hv : o.getLsbD v = true) (ht : v ≤ top)
    (hmax : ∀ w, o.getLsbD w = true → w ≤ top → w ≤ v) : camSpeedOf o top = some v := by
  have hp : (List.range 7).reverse.Pairwise (· > ·) := by decide
  have hmem : v ∈ (List.range 7).reverse := by simpa using BitVec.lt_of_getLsbD hv
  unfold camSpeedOf
  cases hu : (List.range 7).reverse.find? (fun v => decide (v ≤ top) && o.getLsbD v) with
  | none => exact absurd (List.find?_eq_none.mp hu v hmem) (by simp [ht, hv])
  | some u =>
    obtain ⟨hok, as, bs, hsplit, hno⟩ := List.find?_eq_some_iff_append.mp hu
    have hok' : u ≤ top ∧ o.getLsbD u = true := by simpa using hok
    rw [hsplit] at hmem hp
    obtain hm | hm := List.mem_append.mp hmem
    · exact absurd (hno v hm) (by simp [ht, hv])
    · obtain hm | hm := List.mem_cons.mp hm
      · rw [hm]
      · have hlt : u > v := List.rel_of_pairwise_cons (List.pairwise_append.mp hp).2.1 hm
        exact absurd (hmax u hok'.2 hok'.1) (by omega)

theorem camSpeedOf_of_none {o : BitVec 7} {top : Nat} (h : ∀ w, o.getLsbD w = true → top < w) : camSpeedOf o top = none :=
  List.find?_eq_none.mpr fun w _ hw => by
    have hw' : w ≤ top ∧ o.getLsbD w = true := by simpa using hw
    exact absurd (h w hw'.2) (by omega)

theorem exec_cameraDiscoveryDone (s : State) (t : Nat) (c : Fin 32) (d : Discovery) : exec (.cameraDiscoveryDone t c d) s =
    if !(s.at' t).running || !(s.at' t).camOn c then done (s.at' t)
    else if (s.at' t).camState c = 7 then done ((s.at' t).camInit c d.acks d.failed)
    else if (s.at' t).camState c ≠ 2 then done (s.at' t)
    else match (if d.conns < 2 ^ (s.at' t).fld (R.CXP_PORT_CFG c) 13 2 then none
        else camSpeedOf d.speeds ((s.at' t).fld (R.CXP_PORT_CFG c) 2 3)) with
      | none => done (((s.at' t).camLink c).camLost c)
      | some v => done ((((s.at' t).setCamState c 7).camSpeed c v).camInit c d.acks d.failed) := rfl

section Discovery

variable (hr : s.running = true) (ho : s.camOn c = true)
include hr ho

theorem cameraDiscoveryDone_on : exec (.cameraDiscoveryDone t c d) s =
    if s.camState c = 7 then done ((s.at' t).camInit c d.acks d.failed)
    else if s.camState c ≠ 2 then done (s.at' t)
    else match (if d.conns < 2 ^ s.fld (R.CXP_PORT_CFG c) 13 2 then none else camSpeedOf d.speeds (s.fld (R.CXP_PORT_CFG c) 2 3)) with
      | none => done (((s.at' t).camLink c).camLost c)
      | some v => done ((((s.at' t).setCamState c 7).camSpeed c v).camInit c d.acks d.failed) := by
  have hexec := exec_cameraDiscoveryDone s t c d
  rw [State.running_at', State.camOn_at', hr, ho, if_neg (by decide)] at hexec
  simp only [State.camState_at', State.fld_at'] at hexec
  exact hexec

/-- R116: with its connections found at one common speed, or its list under way, the camera's list goes on. -/
theorem cameraDiscoveryDone_inits (h : s.camState c = 7 ∧ v = s.fld (R.CXP_PORT_STAT c) 3 3 ∨
    s.camState c = 2 ∧ 2 ^ s.fld (R.CXP_PORT_CFG c) 13 2 ≤ d.conns ∧ d.speeds.getLsbD v = true ∧ v ≤ s.fld (R.CXP_PORT_CFG c) 2 3 ∧
      ∀ w, d.speeds.getLsbD w = true → w ≤ s.fld (R.CXP_PORT_CFG c) 2 3 → w ≤ v) :
    ∃ y, exec (.cameraDiscoveryDone t c d) s = done (y.camInit c d.acks d.failed) ∧ s.atInit t c v y := by
  have hexec := cameraDiscoveryDone_on (t := t) (d := d) hr ho
  obtain ⟨h7, rfl⟩ | ⟨h2, hcon, hv, ht, hmax⟩ := h
  · rw [if_pos h7] at hexec
    exact ⟨_, hexec, State.sameBut_refl _ _, State.regsBut_refl _ _, (s.camState_at' t c).trans h7, s.fld_at' _ _ _ _⟩
  · rw [if_neg (by omega), if_neg (by omega), if_neg (by omega), camSpeedOf_of_highest hv ht hmax] at hexec
    refine ⟨_, hexec, ?_⟩
    obtain ⟨hf, hreg⟩ := (s.at' t).frame_setCamState c 7
    have h7 := (s.at' t).camState_setCamState (st := 7) c.isLt (by decide)
    have hlt : v < 8 := by have := BitVec.lt_of_getLsbD hv; omega
    obtain ⟨hf', hreg', hst, hsp⟩ := ((s.at' t).setCamState c 7).camSpeed_shows c.isLt hlt
    exact ⟨hf.trans hf', hreg.trans hreg', hst.trans h7, hsp⟩

/-- R132: with too few connections, or no common speed, the attempt ends. -/
theorem cameraDiscoveryDone_none (h2 : s.camState c = 2) (h : d.conns < 2 ^ s.fld (R.CXP_PORT_CFG c) 13 2 ∨
    ∀ w, d.speeds.getLsbD w = true → s.fld (R.CXP_PORT_CFG c) 2 3 < w) (hs : s.camSlots c = []) :
    s.gives (.cameraDiscoveryDone t c d) ([.intk] ++ raiseParts) fun s' => s'.camState c = 4 ∧ (s'.cam c).stamps = [] ∧
      (s'.cam c).retryAt = some (max s.now t + 1000000000) := by
  have hexec := cameraDiscoveryDone_on (t := t) (d := d) hr ho
  have hnone : (if d.conns < 2 ^ s.fld (R.CXP_PORT_CFG c) 13 2 then none else camSpeedOf d.speeds (s.fld (R.CXP_PORT_CFG c) 2 3)) = none := by
    obtain h | h := h
    · exact if_pos h
    · rw [camSpeedOf_of_none h, ite_self]
  rw [if_neg (by omega), if_neg (by omega), hnone] at hexec
  exact State.gives_camIsLost hexec ((s.at' t).camLost_link c.isLt ((s.camSlots_at' t c).trans hs))

end Discovery

/-- R116: after the last write of its list the camera is UP. -/
theorem State.atInit.comesUp (hy : s.atInit t c v y) (hexec : exec (.cameraDiscoveryDone t c d) s = done (y.camInit c d.acks d.failed))
    (hn : s.initAt c d.acks = s.initLen c) : s.gives (.cameraDiscoveryDone t c d) [.regs, .free, .intk] fun s' => s'.camState c = 3 ∧
      s'.fld (R.CXP_PORT_STAT c) 3 3 = v ∧ (s'.cam c).wrote = (List.range (s.initLen c)).map (s.initEntry c) := by
  rw [State.camInit_eq, hy.initAt, hy.initLen, if_pos hn] at hexec
  obtain ⟨hf, hregs, hcam⟩ := hy.noted d.acks
  generalize y.initNoted c d.acks = w at *
  obtain ⟨hu, h3, hv, hcams⟩ := w.camUp_shows c.isLt
  refine State.gives_of_done t hexec ((hf.mono (by decide)).trans hu) ⟨(State.fld_settle _ _ _ _).trans h3, ?_, ?_⟩
  · rw [State.fld_settle, hv, State.fld_congr hregs]
    exact hy.2.2.2
  · rw [show (w.camUp c).settle.cam c = (w.camUp c).cam c from rfl, State.cam_congr hcams, hcam, hn, Nat.min_eq_left (by omega)]

/-- R116: with writes left the list goes on. -/
theorem State.atInit.goesOn (hy : s.atInit t c v y) (hexec : exec (.cameraDiscoveryDone t c d) s = done (y.camInit c d.acks d.failed))
    (hn : s.initAt c d.acks < s.initLen c) (hd : d.failed = false) : s.gives (.cameraDiscoveryDone t c d) [.regs, .intk] fun s' =>
      s'.camState c = 7 ∧ s'.fld (R.CXP_PORT_STAT c) 3 3 = v ∧ (s'.cam c).initDone = s.initAt c d.acks ∧
      (s'.cam c).wrote = (List.range (s.initAt c d.acks + 1)).map (s.initEntry c) := by
  rw [State.camInit_eq, hy.initAt, hy.initLen, if_neg (by omega), if_neg (by rw [hd]; decide)] at hexec
  obtain ⟨hf, hregs, hcam⟩ := hy.noted d.acks
  obtain ⟨-, -, h7, hv⟩ := hy
  generalize y.initNoted c d.acks = w at *
  have hset : w.settle.cam c = w.cam c := rfl
  rw [Nat.min_eq_right (by omega)] at hcam
  refine State.gives_of_done t hexec hf ⟨?_, ?_, by rw [hset, hcam], by rw [hset, hcam]⟩
  · rw [State.camState, State.fld_settle, State.fld_congr hregs]
    exact h7
  · rw [State.fld_settle, State.fld_congr hregs]
    exact hv

/-- R132: a write that failed ends the attempt. -/
theorem State.atInit.fails (hy : s.atInit t c v y) (hexec : exec (.cameraDiscoveryDone t c d) s = done (y.camInit c d.acks d.failed))
    (hn : s.initAt c d.acks < s.initLen c) (hd : d.failed = true) (hs : s.camSlots c = []) :
    s.gives (.cameraDiscoveryDone t c d) ([.intk] ++ raiseParts) fun s' => s'.camState c = 4 ∧
      (s'.cam c).retryAt = some (max s.now t + 1000000000) := by
  rw [State.camInit_eq, hy.initAt, hy.initLen, if_neg (by omega), if_pos hd] at hexec
  obtain ⟨hf, hregs, -⟩ := hy.noted d.acks
  obtain ⟨-, hreg, -⟩ := hy
  generalize y.initNoted c d.acks = w at *
  have hslots : w.camSlots c = [] := (State.camSlots_regsBut (hreg.trans (State.regsBut_congr hregs _)) src_not_mem_portStats
    map_not_mem_portStats c).trans ((s.camSlots_at' t c).trans hs)
  obtain ⟨hl, h4, -, hra⟩ := w.camLost_raiseLim E_CXP_PACKET c ms {} c.isLt hslots
  rw [hf.1, State.now_at'] at hra
  exact State.gives_of_done t hexec ((hf.mono (by decide)).trans (hl.mono (by decide))) ⟨(State.fld_settle _ _ _ _).trans h4, hra⟩

/-! ### Bring-up is repeated -/

/-- The attempt is counted on each port. -/
def State.attemptCounted (s : State) (m : Nat) : State := (s.camPorts m).foldl (fun s p => s.inc (R.CXP_REDISC p)) s

/-- Ports of one camera are distinct. -/
theorem State.camPorts_nodup (x : State) (m : Nat) : (x.camPorts m).Nodup := by
  have hn : 2 ^ x.fld (R.CXP_PORT_CFG m) 13 2 ≤ 8 :=
    Nat.pow_le_pow_right (by decide) (Nat.le_of_lt_succ (show x.fld (R.CXP_PORT_CFG m) 13 2 < 4 from x.fld_lt _ _ _))
  refine List.Nodup.map_on (fun i hi j hj h => ?_) List.nodup_range
  have hi' := List.mem_range.mp hi
  have hj' := List.mem_range.mp hj
  omega

/-- Counting the attempts touches `CXP_REDISC` of the camera's ports alone, and counts one on its master port. -/
theorem State.attemptCounted_shows (x : State) (hm : m < 32) : x.sameBut (x.attemptCounted m) [.regs] ∧
    (∀ a, (∀ p < 32, a ≠ R.CXP_REDISC p) → (x.attemptCounted m).rd a = x.rd a) ∧
    (x.attemptCounted m).rd (R.CXP_REDISC m) = (x.rd (R.CXP_REDISC m) + 1) % 2 ^ 32 := by
  unfold State.attemptCounted
  refine ⟨?_, fun a ha => ?_, ?_⟩
  · exact List.foldlRecOn (motive := fun y => x.sameBut y [.regs]) _ _ (x.sameBut_refl _) fun y hy p _ => by simpa using hy
  · exact List.foldlRecOn (motive := fun y : State => y.rd a = x.rd a) _ _ rfl fun y hy p hp =>
      (State.rd_wr_other _ _ (ha p (State.camPorts_lt hp))).trans hy
  · have hne : ∀ p ≠ m, R.CXP_REDISC m ≠ R.CXP_REDISC p := fun p hp => by
      simp only [R.CXP_REDISC]
      omega
    have key : ∀ (ps : List Nat) (y : State), ps.Nodup → (ps.foldl (fun s p => s.inc (R.CXP_REDISC p)) y).rd (R.CXP_REDISC m) =
        if m ∈ ps then (y.rd (R.CXP_REDISC m) + 1) % 2 ^ 32 else y.rd (R.CXP_REDISC m) := by
      intro ps
      induction ps with
      | nil => exact fun y _ => rfl
      | cons p ps ih =>
        intro y hps
        obtain ⟨hp, hps⟩ := List.nodup_cons.mp hps
        rw [List.foldl_cons, ih _ hps]
        by_cases h : p = m
        · subst h
          rw [if_neg hp, if_pos (by simp), State.inc, State.rd_wr_same]
        · rw [State.inc, State.rd_wr_other _ _ (hne p h)]
          simp [Ne.symm h]
    rw [key _ _ (x.camPorts_nodup m), if_pos (x.self_mem_camPorts hm)]

/-- R116: bring-up begins, through POWERING where PoCXP is configured and not all its ports are enabled. -/
theorem State.startCam_shows (x : State) (hm : m < 32) : x.sameBut (x.startCam m) [.regs, .intk] ∧
    (x.startCam m).camState m = (if x.bit (R.CXP_PORT_CFG m) 1 && !(x.camPorts m).all (x.pocxp.enables.getLsbD) then 1 else 2) ∧
    (x.startCam m).rd (R.CXP_REDISC m) = (x.rd (R.CXP_REDISC m) + 1) % 2 ^ 32 ∧ ((x.startCam m).cam m).retryAt = none ∧
    (∀ a, (∀ p < 32, a ≠ R.CXP_REDISC p) → a ∉ portStats → (x.startCam m).rd a = x.rd a) := by
  have heq : x.startCam m = (((x.attemptCounted m).setCam m { (x.attemptCounted m).cam m with
      retryAt := none, initDone := 0, wrote := [], testMode := false }).setCamState m
      (if x.bit (R.CXP_PORT_CFG m) 1 && !(x.camPorts m).all (x.pocxp.enables.getLsbD) then 1 else 2)) := rfl
  rw [heq]
  obtain ⟨hf, hrd, hcount⟩ := x.attemptCounted_shows hm
  generalize x.attemptCounted m = w at *
  have hst : (if x.bit (R.CXP_PORT_CFG m) 1 && !(x.camPorts m).all (x.pocxp.enables.getLsbD) then 1 else 2) < 8 := by split <;> decide
  generalize (if x.bit (R.CXP_PORT_CFG m) 1 && !(x.camPorts m).all (x.pocxp.enables.getLsbD) then 1 else 2) = st at *
  have hc := w.sameBut_setCam m { w.cam m with retryAt := none, initDone := 0, wrote := [], testMode := false }
  have hcam := w.cam_setCam_same m { w.cam m with retryAt := none, initDone := 0, wrote := [], testMode := false }
  generalize w.setCam m { w.cam m with retryAt := none, initDone := 0, wrote := [], testMode := false } = u at *
  obtain ⟨hs, hregs⟩ := u.frame_setCamState m st
  have hur : u.regs = w.regs := hc.2 .regs (by decide)
  have hredisc : R.CXP_REDISC m ∉ portStats := fun h => by
    obtain ⟨p, hp, h⟩ := mem_portStats.mp h
    simp only [R.CXP_REDISC] at h
    omega
  refine ⟨(hf.mono (by decide)).trans ((hc.mono (by decide)).trans (hs.mono (by decide))), u.camState_setCamState hm hst, ?_, ?_,
    fun a ha hp => by rw [hregs a hp, State.rd_congr hur, hrd a ha]⟩
  · rw [hregs _ hredisc, State.rd_congr hur, hcount]
  · rw [State.cam_congr (congrArg Intake.cams (hs.2 .intk (by decide))), hcam]

theorem State.cam_at' (s : State) (t m : Nat) : (s.at' t).cam m = s.cam m := State.cam_congr (congrArg Intake.cams (s.at'_intk t)) m

theorem exec_cameraRediscoveryTimer {a : Nat} (t : Nat) (ha : (s.cam c).retryAt = some a) : exec (.cameraRediscoveryTimer t c) s =
    if (s.at' t).running ∧ (s.at' t).camOn c = true ∧ (s.at' t).camState c = 4 ∧ a ≤ (s.at' t).now then done ((s.at' t).startCam c)
    else done (s.at' t) := by
  have hexec : exec (.cameraRediscoveryTimer t c) s = match ((s.at' t).cam c).retryAt with
      | some a => if (s.at' t).running ∧ (s.at' t).camOn c = true ∧ (s.at' t).camState c = 4 ∧ a ≤ (s.at' t).now then
          done ((s.at' t).startCam c) else done (s.at' t)
      | none => done (s.at' t) := rfl
  rw [hexec, State.cam_at', ha]

/-- R132: bring-up begins again once its time has come. -/
theorem cameraRediscoveryTimer_starts {a : Nat} (hr : s.running = true) (ha : (s.cam c).retryAt = some a) (ho : s.camOn c = true)
    (h4 : s.camState c = 4) (hn : a ≤ max s.now t) (hp : s.bit (R.CXP_PORT_CFG c) 1 = false) :
    s.gives (.cameraRediscoveryTimer t c) [.regs, .intk] fun s' => s'.camState c = 2 ∧
      s'.rd (R.CXP_REDISC c) = (s.rd (R.CXP_REDISC c) + 1) % 2 ^ 32 ∧ (s'.cam c).retryAt = none := by
  have hexec := (exec_cameraRediscoveryTimer t ha).trans (if_pos
    ⟨(s.running_at' t).trans hr, (s.camOn_at' t c).trans ho, (s.camState_at' t c).trans h4, by rwa [State.now_at']⟩)
  obtain ⟨hf, hst, hcount, hretry, -⟩ := (s.at' t).startCam_shows c.isLt
  rw [State.bit_at', hp, if_neg (by simp)] at hst
  rw [State.rd_at'] at hcount
  exact State.gives_of_done t hexec hf ⟨(State.fld_settle _ _ _ _).trans hst, (State.rd_settle _ _).trans hcount, hretry⟩

theorem cameraRediscoveryTimer_early {a : Nat} (ha : (s.cam c).retryAt = some a) (hn : max s.now t < a) :
    s.givesNothing (.cameraRediscoveryTimer t c) :=
  State.givesNothing_of_done t ((exec_cameraRediscoveryTimer t ha).trans (if_neg fun h => by
    have hle := h.2.2.2
    rw [State.now_at'] at hle
    omega))

end Sys2Proof.Machine
end

section
/-! PROOF. PoCXP (R47, R119, R120): a run of the chain, a fault that stands in two runs, its retry and its clearing. -/

namespace Sys2Proof.Machine

variable {s x y z : State} {t m k v : Nat} {c : Fin 32} {f : BitVec 32}

theorem State.sameBut_pocxp (x : State) (d : Pocxp) : x.sameBut { x with pocxp := d } [.pocxp] := x.sameBut_mix { x with pocxp := d } [.pocxp]

theorem State.camOf_lt (x : State) (p : Nat) : x.camOf p < 32 := x.fld_lt _ _ _

theorem portCfg_not_stat (p : Nat) : R.CXP_PORT_CFG p ∉ portStats := fun h => by
  obtain ⟨q, hq, h⟩ := mem_portStats.mp h
  simp only [R.CXP_PORT_CFG] at h
  omega

/-! ### A run of the chain -/

/-- A run shifts the enables out, and each port shows its own. -/
def State.chainShifted (s : State) (on : BitVec 32) (d : Pocxp) : State :=
  (List.range 32).foldl (fun s k => s.setBit (R.CXP_PORT_STAT k) 6 (on.getLsbD k)) (({ s with pocxp := d } : State).wr R.CXP_POCXP_ON on.toNat)

/-- Cameras whose ports all have power go on to discovery. -/
def State.chainPowered (s : State) (on : BitVec 32) : State :=
  (List.range 32).foldl (fun s m =>
    if s.camOn m && decide (s.camState m = 1) && (s.camPorts m).all on.getLsbD then s.setCamState m 2 else s) s

/-- A fault of port `k`, where it stands in two runs and its camera is not in POCXP_FAULT already. -/
def State.chainFault (twice : BitVec 32) (s : State) (k : Nat) : State :=
  if twice.getLsbD k && decide (s.camState (s.camOf k) ≠ 5) then s.pocxpFault k else s

/-- The chain as a run leaves it, before its faults. -/
def State.chainRun (s : State) (f : BitVec 32) : State :=
  (s.chainShifted s.pocxpWanted { s.pocxp with enables := s.pocxpWanted, prevFault := f &&& s.pocxp.enables }).chainPowered s.pocxpWanted

theorem exec_pocxpChainRun (s : State) (t : Nat) (f : BitVec 32) : exec (.pocxpChainRun t f) s =
    if !(s.at' t).running then done (s.at' t)
    else done ((List.range 32).foldl (State.chainFault (f &&& (s.at' t).pocxp.enables &&& (s.at' t).pocxp.prevFault))
      ((s.at' t).chainRun f)) := rfl

theorem pocxpChainRun_runs (hr : s.running = true) : exec (.pocxpChainRun t f) s =
    done ((List.range 32).foldl (State.chainFault (f &&& s.pocxp.enables &&& s.pocxp.prevFault)) ((s.at' t).chainRun f)) := by
  have hexec := (exec_pocxpChainRun s t f).trans (if_neg (by rw [State.running_at', hr]; decide))
  rwa [State.at'_pocxp] at hexec

/-- A run writes the enables, the ports' registers and the chain's state; no camera falls into POCXP_FAULT by it. -/
theorem State.chainShifted_shows (x : State) (on : BitVec 32) (d : Pocxp) : x.sameBut (x.chainShifted on d) [.regs, .pocxp] ∧
    x.regsBut (x.chainShifted on d) (R.CXP_POCXP_ON :: portStats) ∧ (x.chainShifted on d).pocxp = d ∧
    (x.chainShifted on d).rd R.CXP_POCXP_ON = on.toNat ∧ ∀ m, (x.chainShifted on d).camState m = x.camState m := by
  have hon : ∀ p, R.CXP_POCXP_ON ≠ R.CXP_PORT_STAT p := fun p => by
    simp only [R.CXP_PORT_STAT, R.CXP_POCXP_ON]
    omega
  have hw := x.sameBut_pocxp d
  have hwr : ({ x with pocxp := d } : State).regs = x.regs := rfl
  have hwp : ({ x with pocxp := d } : State).pocxp = d := rfl
  unfold State.chainShifted
  generalize ({ x with pocxp := d } : State) = w at *
  have hs : x.sameBut (w.wr R.CXP_POCXP_ON on.toNat) [.regs, .pocxp] := by
    rw [State.sameBut_wr (by decide)]
    exact hw.mono (by decide)
  have hrd : (w.wr R.CXP_POCXP_ON on.toNat).rd R.CXP_POCXP_ON = on.toNat := (State.rd_wr_same _ _ _).trans (Nat.mod_eq_of_lt on.isLt)
  have hregs : x.regsBut (w.wr R.CXP_POCXP_ON on.toNat) (R.CXP_POCXP_ON :: portStats) :=
    State.regsBut_wr (State.regsBut_congr hwr _) (by simp)
  have hst : ∀ m, (w.wr R.CXP_POCXP_ON on.toNat).camState m = x.camState m := fun m =>
    (State.fld_wr_other _ _ _ _ (hon m).symm).trans (State.camState_congr hwr m)
  have hp : (w.wr R.CXP_POCXP_ON on.toNat).pocxp = d := hwp
  generalize w.wr R.CXP_POCXP_ON on.toNat = u at *
  refine List.foldlRecOn (motive := fun y : State => x.sameBut y [.regs, .pocxp] ∧ x.regsBut y (R.CXP_POCXP_ON :: portStats) ∧ y.pocxp = d ∧
    y.rd R.CXP_POCXP_ON = on.toNat ∧ ∀ m, y.camState m = x.camState m) _ _ ⟨hs, hregs, hp, hrd, hst⟩ ?_
  intro y hy p hm
  obtain ⟨h1, h2, h3, h4, h5⟩ := hy
  exact ⟨by simpa using h1, State.regsBut_setBit h2 (List.mem_cons_of_mem _ (portStat_mem (List.mem_range.mp hm))), h3,
    (State.rd_setBit_other _ (hon p)).trans h4, fun m => (State.fld_setBit_apart _ (by omega)).trans (h5 m)⟩

/-- Setting one camera's state to another than 5 puts no camera into state 5. -/
theorem State.camState_setCamState_ne (x : State) (p : Nat) {st : Nat} (hst : st < 8) (h5 : st ≠ 5) (h : x.camState m ≠ 5) :
    (x.setCamState p st).camState m ≠ 5 :=
  List.foldlRecOn (motive := fun y : State => y.camState m ≠ 5) _ _ h fun y hy q _ => by
    by_cases hq : q = m
    · subst hq
      rw [State.camState, State.fld, State.rd_wr_same]
      exact fun h => h5 ((portWord_state hst _).symm.trans h)
    · rw [State.camState, State.fld_wr_other _ _ _ _ (portStat_ne hq)]
      exact hy

theorem State.chainPowered_shows (x : State) (on : BitVec 32) : x.sameBut (x.chainPowered on) [.regs] ∧
    x.regsBut (x.chainPowered on) portStats ∧ ∀ m, x.camState m ≠ 5 → (x.chainPowered on).camState m ≠ 5 := by
  refine List.foldlRecOn (motive := fun y : State => x.sameBut y [.regs] ∧ x.regsBut y portStats ∧ ∀ m, x.camState m ≠ 5 → y.camState m ≠ 5) _ _
    ⟨x.sameBut_refl _, x.regsBut_refl _, fun _ h => h⟩ ?_
  intro y hy p _
  obtain ⟨h1, h2, h3⟩ := hy
  split
  · obtain ⟨hf, hr⟩ := y.frame_setCamState p 2
    exact ⟨h1.trans hf, h2.trans hr, fun m hm => y.camState_setCamState_ne p (by decide) (by decide) (h3 m hm)⟩
  · exact ⟨h1, h2, h3⟩

theorem State.chainRun_shows (x : State) (f : BitVec 32) : x.sameBut (x.chainRun f) [.regs, .pocxp] ∧
    x.regsBut (x.chainRun f) (R.CXP_POCXP_ON :: portStats) ∧
    (x.chainRun f).pocxp = { x.pocxp with enables := x.pocxpWanted, prevFault := f &&& x.pocxp.enables } ∧
    (x.chainRun f).rd R.CXP_POCXP_ON = x.pocxpWanted.toNat ∧ ∀ m, x.camState m ≠ 5 → (x.chainRun f).camState m ≠ 5 := by
  unfold State.chainRun
  obtain ⟨hf, hr, hp, hon, hst⟩ :=
    x.chainShifted_shows x.pocxpWanted { x.pocxp with enables := x.pocxpWanted, prevFault := f &&& x.pocxp.enables }
  generalize x.chainShifted x.pocxpWanted { x.pocxp with enables := x.pocxpWanted, prevFault := f &&& x.pocxp.enables } = w at *
  obtain ⟨hf', hr', hst'⟩ := w.chainPowered_shows x.pocxpWanted
  have hout : R.CXP_POCXP_ON ∉ portStats := fun h => by
    obtain ⟨p, hp, h⟩ := mem_portStats.mp h
    simp only [R.CXP_POCXP_ON] at h
    omega
  refine ⟨hf.trans (hf'.mono (by decide)), hr.trans fun a ha => hr' a fun h => ha (List.mem_cons_of_mem _ h),
    Eq.trans (hf'.2 .pocxp (by decide)) hp, (hr' _ hout).trans hon, fun m hm => hst' m ?_⟩
  rw [hst]
  exact hm

theorem State.pocxpWanted_at' (s : State) (t : Nat) : (s.at' t).pocxpWanted = s.pocxpWanted := by
  simp only [State.pocxpWanted, State.bit_at', State.camState_at']

/-- Ports with no fault that stands take no action. -/
theorem State.foldl_chainFault_none {twice : BitVec 32} {ks : List Nat} (x : State) (h : ∀ k ∈ ks, twice.getLsbD k = false) :
    ks.foldl (State.chainFault twice) x = x := by
  induction ks with
  | nil => rfl
  | cons k ks ih =>
    rw [List.foldl_cons, State.chainFault, if_neg (by simp [h k (by simp)]), ih fun j hj => h j (by simp [hj])]

/-- R47: with no fault that stands in two runs, a run moves no more than enables and fault bits. -/
theorem pocxpChainRun_clean (hr : s.running = true) (h0 : f &&& s.pocxp.enables &&& s.pocxp.prevFault = 0) :
    s.gives (.pocxpChainRun t f) [.regs, .pocxp] fun s' =>
      s'.pocxp = { s.pocxp with enables := s.pocxpWanted, prevFault := f &&& s.pocxp.enables } ∧
      s'.rd R.CXP_POCXP_ON = s.pocxpWanted.toNat := by
  have hexec := pocxpChainRun_runs (t := t) (f := f) hr
  rw [h0, State.foldl_chainFault_none _ (by simp)] at hexec
  obtain ⟨hf, -, hp, hon, -⟩ := (s.at' t).chainRun_shows f
  rw [State.pocxpWanted_at', State.at'_pocxp] at hp
  rw [State.pocxpWanted_at'] at hon
  generalize (s.at' t).chainRun f = w at *
  exact State.gives_of_done t hexec hf ⟨by rw [State.settle_pocxp, hp], by rw [State.rd_settle, hon]⟩

/-! ### A fault that stands -/

/-- The fault is noted: two in an hour are retried in 10 s, a third is not. -/
def State.faultNoted (s : State) (m : Nat) (fs : List Nat) : State :=
  { s with pocxp := { s.pocxp with
    faults := KMap.put s.pocxp.faults m fs
    retryAt := if fs.length < 3 then KMap.put s.pocxp.retryAt m (s.now + 10000 * ms) else KMap.del s.pocxp.retryAt m } }

theorem State.pocxpFault_eq (x : State) (k : Nat) : x.pocxpFault k =
    ((((((x.setCamState (x.camOf k) 5).camCut (x.camOf k)).setBit R.CXP_POCXP_FAULT k true).faultNoted (x.camOf k)
      (x.camFaults (x.camOf k) ++ [x.now])).raise E_POCXP_FAULT {}).camLink (x.camOf k)).ctlSend (x.camOf k) := rfl

/-- R120: the camera goes to POCXP_FAULT, the bit latches, and the first fault within an hour is retried in 10 s. -/
theorem State.pocxpFault_shows (x : State) (hk : k < 32) (hs : x.camSlots (x.camOf k) = []) :
    x.sameBut (x.pocxpFault k) (.pocxp :: .intk :: raiseParts) ∧ (x.pocxpFault k).camState (x.camOf k) = 5 ∧
    (x.pocxpFault k).bit R.CXP_POCXP_FAULT k = true ∧ (x.camFaults (x.camOf k) = [] →
      KMap.find (x.pocxpFault k).pocxp.retryAt (x.camOf k) = some (x.now + 10000000000)) := by
  rw [State.pocxpFault_eq]
  have hm := x.camOf_lt k
  have hlen : x.camFaults (x.camOf k) = [] → (x.camFaults (x.camOf k) ++ [x.now]).length < 3 := fun h => by rw [h]; simp
  generalize x.camFaults (x.camOf k) ++ [x.now] = fs at *
  generalize x.camOf k = m at *
  obtain ⟨hf, hr⟩ := x.frame_setCamState m 5
  have h5 := x.camState_setCamState (st := 5) hm (by decide)
  have hidle := (State.camSlots_regsBut hr src_not_mem_portStats map_not_mem_portStats m).trans hs
  generalize x.setCamState m 5 = w at *
  rw [State.camCut_idle hidle]
  have hc := w.sameBut_setCam m (w.cam m).loseStamps
  generalize w.setCam m (w.cam m).loseStamps = u at *
  have hb : u.sameBut (u.setBit R.CXP_POCXP_FAULT k true) [.regs] := by simp
  have hbit : (u.setBit R.CXP_POCXP_FAULT k true).bit R.CXP_POCXP_FAULT k = true := State.bit_setBit_same _ _ _ _ hk
  have hb5 : (u.setBit R.CXP_POCXP_FAULT k true).camState m = 5 := by
    rw [State.camState, State.fld_setBit_apart _ ⟨by omega, .inl (by simp only [R.CXP_PORT_STAT, R.CXP_POCXP_FAULT]; omega)⟩,
      State.fld_congr (hc.2 .regs (by decide))]
    exact h5
  generalize u.setBit R.CXP_POCXP_FAULT k true = v at *
  have hn : v.sameBut (v.faultNoted m fs) [.pocxp] := v.sameBut_pocxp _
  have hnr : (v.faultNoted m fs).regs = v.regs := rfl
  have hretry : (v.faultNoted m fs).pocxp.retryAt =
      if fs.length < 3 then KMap.put v.pocxp.retryAt m (v.now + 10000 * ms) else KMap.del v.pocxp.retryAt m := rfl
  generalize v.faultNoted m fs = n at *
  have hraise : n.sameBut (n.raise E_POCXP_FAULT {}) raiseParts := (State.raisedFrom_raise _ _ _ _).sameBut fun _ h => h
  have hrr := n.regsBut_raise E_POCXP_FAULT {} 0
  generalize n.raise E_POCXP_FAULT {} = r at *
  have hlim : r.sameBut (r.camLink m) raiseParts := (State.raisedFrom_raiseLim _ _ _ _ _ _).sameBut fun _ h => h
  have hlr : r.regsBut (r.camLink m) raiseRegs := r.regsBut_raiseLim _ _ _ _ _
  generalize r.camLink m = e at *
  obtain ⟨hg, -⟩ := e.frame_ctlSend m
  have hfld : ∀ a lo wd, a ∉ raiseRegs → (e.ctlSend m).fld a lo wd = v.fld a lo wd := fun a lo wd ha => by
    rw [State.fld_congr (hg.2 .regs (by decide)), hlr.fld ha, hrr.fld ha, State.fld_congr hnr]
  refine ⟨?_, (hfld _ _ _ (raiseRegs_not_port m)).trans hb5, ?_, fun h => ?_⟩
  · exact (hf.mono (by decide)).trans ((hc.mono (by decide)).trans ((hb.mono (by decide)).trans ((hn.mono (by decide)).trans
      ((hraise.mono (by decide)).trans ((hlim.mono (by decide)).trans (hg.mono (by decide)))))))
  · rw [State.bit, hfld _ _ _ (by decide)]
    exact hbit
  · have hp : (e.ctlSend m).pocxp = n.pocxp :=
      Eq.trans (hg.2 .pocxp (by decide)) (Eq.trans (hlim.2 .pocxp (by decide)) (hraise.2 .pocxp (by decide)))
    rw [hp, hretry, if_pos (hlen h), KMap.find_put_same, hb.1, hc.1, hf.1]
    rfl

/-- Of the ports one alone has a fault that stands. -/
theorem State.foldl_chainFault_one (c : Fin 32) (x : State) (h5 : x.camState (x.camOf c) ≠ 5) :
    (List.range 32).foldl (State.chainFault (1#32 <<< (c : Nat))) x = x.pocxpFault c := by
  have hbit : ∀ k : Nat, k ≠ c → (1#32 <<< (c : Nat)).getLsbD k = false := fun k hk => by
    rw [← BitVec.twoPow_eq, BitVec.getLsbD_twoPow]
    simp [Ne.symm hk]
  have hset : (1#32 <<< (c : Nat)).getLsbD c = true := by
    rw [← BitVec.twoPow_eq, BitVec.getLsbD_twoPow]
    simp
  obtain ⟨as, bs, hsplit⟩ := List.append_of_mem (List.mem_range.mpr c.isLt)
  have hnodup : (as ++ (c : Nat) :: bs).Nodup := hsplit ▸ List.nodup_range
  obtain ⟨hout, -⟩ := List.nodup_cons.mp (List.nodup_middle.mp hnodup)
  rw [hsplit, List.foldl_append, List.foldl_cons,
    State.foldl_chainFault_none x fun k hk => hbit k fun h => hout (List.mem_append_left _ (h ▸ hk)), State.chainFault,
    if_pos (by rw [hset, decide_eq_true h5]; rfl),
    State.foldl_chainFault_none _ fun k hk => hbit k fun h => hout (List.mem_append_right _ (h ▸ hk))]

theorem State.camOf_at' (s : State) (t p : Nat) : (s.at' t).camOf p = s.camOf p := s.fld_at' _ _ _ _

/-- Faults of the last hour, seen later, are no more. -/
theorem State.camFaults_at' (t m : Nat) (h : s.camFaults m = []) : (s.at' t).camFaults m = [] := by
  rw [State.camFaults, List.filter_eq_nil_iff] at h ⊢
  rw [State.at'_pocxp, State.now_at']
  intro a ha hlt
  exact h a ha (decide_eq_true (lt_of_le_of_lt (Nat.le_max_left _ _) (of_decide_eq_true hlt)))

/-- R120: the one fault that stands in two runs. -/
theorem pocxpChainRun_faults (hr : s.running = true) (h1 : f &&& s.pocxp.enables &&& s.pocxp.prevFault = 1#32 <<< (c : Nat))
    (h5 : s.camState (s.camOf c) ≠ 5) (hs : s.camSlots (s.camOf c) = []) :
    s.gives (.pocxpChainRun t f) ([.pocxp, .intk] ++ raiseParts) fun s' => s'.camState (s.camOf c) = 5 ∧
      s'.bit R.CXP_POCXP_FAULT c = true ∧ (s.camFaults (s.camOf c) = [] →
        KMap.find s'.pocxp.retryAt (s.camOf c) = some (max s.now t + 10000000000)) := by
  have hexec := pocxpChainRun_runs (t := t) (f := f) hr
  obtain ⟨hf, hreg, hp, -, hst⟩ := (s.at' t).chainRun_shows f
  have hfaults := State.camFaults_at' (s := s) t (s.camOf c)
  have hslots := (s.camSlots_at' t (s.camOf c)).trans hs
  have hstate := hst (s.camOf c) (by rwa [State.camState_at'])
  have hof : ((s.at' t).chainRun f).camOf c = s.camOf c := by
    refine Eq.trans (hreg.fld fun h => ?_) (s.camOf_at' t c)
    obtain h | h := List.mem_cons.mp h
    · simp only [R.CXP_PORT_CFG, R.CXP_POCXP_ON] at h
      omega
    · exact portCfg_not_stat c h
  have hkept : ((s.at' t).chainRun f).camFaults (s.camOf c) = (s.at' t).camFaults (s.camOf c) := by
    rw [State.camFaults, State.camFaults, hf.1, hp]
  have hidle : ((s.at' t).chainRun f).camSlots (s.camOf c) = [] := by
    refine (State.camSlots_regsBut hreg (fun j h => ?_) (fun e he h => ?_) _).trans hslots
    · obtain h | h := List.mem_cons.mp h
      · simp only [R.RUN_SRC, R.CXP_POCXP_ON] at h
        omega
      · exact src_not_mem_portStats j h
    · obtain h | h := List.mem_cons.mp h
      · simp only [R.CXP_STREAM_MAP, R.CXP_POCXP_ON] at h
        omega
      · exact map_not_mem_portStats e he h
  generalize (s.at' t).chainRun f = w at *
  rw [h1, State.foldl_chainFault_one c w (by rwa [hof])] at hexec
  obtain ⟨hg, g5, gbit, gretry⟩ := w.pocxpFault_shows c.isLt (by rwa [hof])
  rw [hof] at g5 gretry
  rw [hkept, hf.1, State.now_at'] at gretry
  generalize w.pocxpFault c = u at *
  exact State.gives_of_done t hexec ((hf.mono (by decide)).trans (hg.mono (by decide)))
    ⟨(State.fld_settle _ _ _ _).trans g5, (State.bit_settle _ _ _).trans gbit, fun h => by
      rw [State.settle_pocxp, gretry (hfaults h)]⟩

/-! ### The retry -/

/-- The retry of camera `m` is no longer due. -/
def State.retryDropped (s : State) (m : Nat) : State := { s with pocxp := { s.pocxp with retryAt := KMap.del s.pocxp.retryAt m } }

theorem State.retryDropped_shows (x : State) (m : Nat) : x.sameBut (x.retryDropped m) [.pocxp] ∧ (x.retryDropped m).regs = x.regs ∧
    (x.retryDropped m).pocxp.enables = x.pocxp.enables ∧ KMap.find (x.retryDropped m).pocxp.retryAt m = none :=
  ⟨x.sameBut_pocxp _, rfl, rfl, KMap.find_del_same _ _⟩

theorem exec_pocxpRetryTimeout {a : Nat} (t : Nat) (ha : KMap.find s.pocxp.retryAt (s.camOf c) = some a) :
    exec (.pocxpRetryTimeout t c) s =
    if (s.at' t).running ∧ a ≤ (s.at' t).now ∧ (s.at' t).camOn (s.camOf c) = true ∧ (s.at' t).camState (s.camOf c) = 5 then
      done (((s.at' t).retryDropped (s.camOf c)).startCam (s.camOf c)) else done (s.at' t) := by
  have hexec : exec (.pocxpRetryTimeout t c) s = match KMap.find (s.at' t).pocxp.retryAt ((s.at' t).camOf c) with
      | some a => if (s.at' t).running ∧ a ≤ (s.at' t).now ∧ (s.at' t).camOn ((s.at' t).camOf c) = true ∧
          (s.at' t).camState ((s.at' t).camOf c) = 5 then done (((s.at' t).retryDropped ((s.at' t).camOf c)).startCam ((s.at' t).camOf c))
        else done (s.at' t)
      | none => done (s.at' t) := rfl
  rw [hexec, State.camOf_at', State.at'_pocxp, ha]

/-- R120: the retry enables the camera again and brings it up. -/
theorem pocxpRetryTimeout_retries {a : Nat} (hr : s.running = true) (ha : KMap.find s.pocxp.retryAt (s.camOf c) = some a)
    (hn : a ≤ max s.now t) (ho : s.camOn (s.camOf c) = true) (h5 : s.camState (s.camOf c) = 5) :
    s.gives (.pocxpRetryTimeout t c) [.regs, .pocxp, .intk] fun s' => KMap.find s'.pocxp.retryAt (s.camOf c) = none ∧
      s'.camState (s.camOf c) =
        if s.bit (R.CXP_PORT_CFG (s.camOf c)) 1 && !(s.camPorts (s.camOf c)).all (s.pocxp.enables.getLsbD) then 1 else 2 := by
  have hexec := (exec_pocxpRetryTimeout t ha).trans (if_pos
    ⟨(s.running_at' t).trans hr, by rwa [State.now_at'], (s.camOn_at' t _).trans ho, (s.camState_at' t _).trans h5⟩)
  have hm := s.camOf_lt c
  generalize s.camOf c = m at *
  obtain ⟨hf, hregs, hen, hfind⟩ := (s.at' t).retryDropped_shows m
  rw [State.at'_regs] at hregs
  rw [State.at'_pocxp] at hen
  generalize (s.at' t).retryDropped m = w at *
  obtain ⟨hg, hst, -⟩ := w.startCam_shows hm
  have hports : w.camPorts m = s.camPorts m := by rw [State.camPorts, State.camPorts, State.fld_congr hregs]
  rw [State.bit_congr hregs, hports, hen] at hst
  refine State.gives_of_done t hexec ((hf.mono (by decide)).trans (hg.mono (by decide))) ⟨?_, (State.fld_settle _ _ _ _).trans hst⟩
  have hp : (w.startCam m).settle.pocxp = w.pocxp := hg.2 .pocxp (by decide)
  rw [hp, hfind]

/-! ### Clearing latched faults -/

/-- A latched fault with a 1 in `v` clears, and its camera starts bring-up. -/
def State.clearFault (v : Nat) (s : State) (k : Nat) : State :=
  if v.testBit k && s.bit R.CXP_POCXP_FAULT k then
    if (s.setBit R.CXP_POCXP_FAULT k false).camOn (s.camOf k) && decide ((s.setBit R.CXP_POCXP_FAULT k false).camState (s.camOf k) = 5) then
      ((s.setBit R.CXP_POCXP_FAULT k false).retryDropped (s.camOf k)).startCam (s.camOf k)
    else s.setBit R.CXP_POCXP_FAULT k false
  else s

/-- Bit `k` of the latched faults goes with a 1 in `v`; the other bits stay. -/
theorem State.clearFault_shows (x : State) (v : Nat) {k : Nat} (hk : k < 32) : x.sameBut (x.clearFault v k) [.regs, .pocxp, .intk] ∧
    ∀ i < 32, (x.clearFault v k).bit R.CXP_POCXP_FAULT i = (x.bit R.CXP_POCXP_FAULT i && !(decide (i = k) && v.testBit k)) := by
  have hbits : ∀ i < 32, (x.setBit R.CXP_POCXP_FAULT k false).bit R.CXP_POCXP_FAULT i = (x.bit R.CXP_POCXP_FAULT i && decide (i ≠ k)) := by
    intro i hi
    by_cases h : i = k
    · subst h
      rw [State.bit_setBit_same _ _ _ _ hk]
      simp
    · rw [State.bit_setBit_apart _ ⟨by omega, by omega⟩]
      simp [h]
  have hf : x.sameBut (x.setBit R.CXP_POCXP_FAULT k false) [.regs] := by simp
  have hm := x.camOf_lt k
  unfold State.clearFault
  split
  next h =>
    have hv : v.testBit k = true := (Bool.and_eq_true_iff.mp h).1
    have hgoal : ∀ i, (x.bit R.CXP_POCXP_FAULT i && !(decide (i = k) && v.testBit k)) = (x.bit R.CXP_POCXP_FAULT i && decide (i ≠ k)) :=
      fun i => by simp [hv]
    simp only [hgoal]
    generalize x.setBit R.CXP_POCXP_FAULT k false = w at *
    split
    · obtain ⟨hd, hr, -⟩ := w.retryDropped_shows (x.camOf k)
      generalize w.retryDropped (x.camOf k) = u at *
      obtain ⟨hs, -, -, -, hrd⟩ := u.startCam_shows hm
      have hword : (u.startCam (x.camOf k)).rd R.CXP_POCXP_FAULT = w.rd R.CXP_POCXP_FAULT := by
        rw [hrd _ (fun p _ => by simp only [R.CXP_POCXP_FAULT, R.CXP_REDISC]; omega) (fun h => by
          obtain ⟨p, hp, h⟩ := mem_portStats.mp h
          simp only [R.CXP_POCXP_FAULT] at h
          omega), State.rd_congr hr]
      refine ⟨(hf.mono (by decide)).trans ((hd.mono (by decide)).trans (hs.mono (by decide))), fun i hi => ?_⟩
      rw [State.bit, State.fld, hword]
      exact hbits i hi
    · exact ⟨hf.mono (by decide), hbits⟩
  next h =>
    refine ⟨x.sameBut_refl _, fun i _ => ?_⟩
    by_cases hi : i = k
    · subst hi
      cases hb : x.bit R.CXP_POCXP_FAULT i with
      | false => rfl
      | true =>
        have hv : v.testBit i = false := by simpa [hb] using h
        simp [hv]
    · simp [hi]

/-- Faults clear one after the other. -/
theorem State.foldl_clearFault (v : Nat) (ks : List Nat) (hks : ∀ k ∈ ks, k < 32) : ∀ x : State,
    x.sameBut (ks.foldl (State.clearFault v) x) [.regs, .pocxp, .intk] ∧ ∀ i < 32, (ks.foldl (State.clearFault v) x).bit R.CXP_POCXP_FAULT i =
      (x.bit R.CXP_POCXP_FAULT i && !(decide (i ∈ ks) && v.testBit i)) := by
  induction ks with
  | nil => exact fun x => ⟨x.sameBut_refl _, fun i _ => by simp⟩
  | cons k ks ih =>
    intro x
    obtain ⟨hf, hb⟩ := x.clearFault_shows v (hks k (by simp))
    obtain ⟨hf', hb'⟩ := ih (fun j hj => hks j (by simp [hj])) (x.clearFault v k)
    refine ⟨hf.trans hf', fun i hi => ?_⟩
    rw [List.foldl_cons, hb' i hi, hb i hi]
    by_cases h : i = k
    · subst h
      cases x.bit R.CXP_POCXP_FAULT i <;> cases v.testBit i <;> simp
    · simp [h]

theorem exec_pocxpFaultClear (s : State) (t : Nat) (v : W32) : exec (.pocxpFaultClear t v) s =
    if (s.at' t).running then done ((List.range 32).foldl (State.clearFault v.toNat) (s.at' t)) else done (s.at' t) := rfl

/-- R120: a 1 written clears a latched fault, and no other. -/
theorem pocxpFaultClear_clears (hr : s.running = true) (v : W32) : s.gives (.pocxpFaultClear t v) [.regs, .pocxp, .intk] fun s' =>
    ∀ i, i < 32 → s'.bit R.CXP_POCXP_FAULT i = (s.bit R.CXP_POCXP_FAULT i && !v.getLsbD i) := by
  have hexec := (exec_pocxpFaultClear s t v).trans (if_pos ((s.running_at' t).trans hr))
  obtain ⟨hf, hb⟩ := State.foldl_clearFault v.toNat (List.range 32) (fun k hk => List.mem_range.mp hk) (s.at' t)
  refine State.gives_of_done t hexec hf fun i hi => ?_
  rw [State.bit_settle, hb i hi, State.bit_at', decide_eq_true (List.mem_range.mpr hi), Bool.true_and, BitVec.testBit_toNat]

end Sys2Proof.Machine
end

section
/-! PROOF. Triggers (R121, R122), the control mailbox (R118), event packets, and the claim on cameras. -/

namespace Sys2Proof.Machine

variable {s x y z : State} {t m : Nat} {c : Fin 32}

/-! ### Triggers -/

/-- Another trigger counted in a register, and camera `m` as `k`. -/
theorem State.counted_shows (x : State) (a m : Nat) (k : Cam) : x.sameBut ((x.inc a).setCam m k) [.regs, .intk] ∧
    x.regsBut ((x.inc a).setCam m k) [a] ∧ ((x.inc a).setCam m k).rd a = (x.rd a + 1) % 2 ^ 32 ∧ ((x.inc a).setCam m k).cam m = k := by
  have hi : x.sameBut (x.inc a) [.regs] := by simp
  have hr : x.regsBut (x.inc a) [a] := State.regsBut_wr (x.regsBut_refl _) (by simp)
  have hrd : (x.inc a).rd a = (x.rd a + 1) % 2 ^ 32 := State.rd_wr_same _ _ _
  generalize x.inc a = w at *
  exact ⟨(hi.mono (by decide)).trans ((w.sameBut_setCam m k).mono (by decide)), hr.trans (State.regsBut_congr rfl _),
    (State.rd_congr rfl _).trans hrd, w.cam_setCam_same m k⟩

/-- The report is taken. -/
def State.edgeTaken (s : State) (m : Nat) (rest : List (Nat × Nat × Bool)) : State := s.setCam m { s.cam m with edges := rest }

theorem exec_triggerEdgeReport {n a : Nat} {lost : Bool} {rest : List (Nat × Nat × Bool)} (t : Nat) (hr : s.running = true)
    (he : (s.cam c).edges = (n, a, lost) :: rest) : exec (.triggerEdgeReport t c) s =
    if lost || decide (s.camState c ≠ 3) then done (((s.at' t).edgeTaken c rest).trigDrop c n)
    else done (((s.at' t).edgeTaken c rest).trigSend c n a) := by
  have hexec : exec (.triggerEdgeReport t c) s = match ((s.at' t).cam c).edges with
      | [] => done (s.at' t)
      | (n, a, lost) :: rest =>
        if !(s.at' t).running then done (s.at' t)
        else if lost || decide (((s.at' t).edgeTaken c rest).camState c ≠ 3) then done (((s.at' t).edgeTaken c rest).trigDrop c n)
        else done (((s.at' t).edgeTaken c rest).trigSend c n a) := rfl
  have hst : ((s.at' t).edgeTaken c rest).camState c = s.camState c := (State.camState_congr rfl c).trans (s.camState_at' t c)
  rw [hexec, State.cam_at', he]
  dsimp only
  rw [State.running_at', hr, hst, if_neg (by decide)]

/-- Taking the report, then one count and the camera as `k`, is all that has happened. -/
theorem State.gives_counted {i : Instr} {a : Nat} {rest : List (Nat × Nat × Bool)} {k : Cam}
    (hc : exec i s = done ((((s.at' t).edgeTaken c rest).inc a).setCam c k)) : s.gives i [.regs, .intk] fun s' =>
      s.regsBut s' [a] ∧ s'.rd a = (s.rd a + 1) % 2 ^ 32 ∧ s'.cam c = k := by
  have hf : (s.at' t).sameBut ((s.at' t).edgeTaken c rest) [.intk] := State.sameBut_setCam _ _ _
  have hregs : ((s.at' t).edgeTaken c rest).regs = s.regs := s.at'_regs t
  generalize (s.at' t).edgeTaken c rest = w at *
  obtain ⟨hg, hr, hrd, hk⟩ := w.counted_shows a c k
  generalize (w.inc a).setCam c k = u at *
  refine State.gives_of_done t hc ((hf.mono (by decide)).trans hg) ⟨fun b hb => ?_, ?_, ?_⟩
  · rw [State.rd_settle, hr b hb, State.rd_congr hregs]
  · rw [State.rd_settle, hrd, State.rd_congr hregs]
  · rw [← hk]
    rfl

theorem State.cam_edgeTaken (x : State) (m : Nat) (rest : List (Nat × Nat × Bool)) :
    (x.edgeTaken m rest).cam m = { x.cam m with edges := rest } := x.cam_setCam_same _ _

/-- R121: a trigger of a camera that is not UP, or that was lost on the way, is dropped. -/
theorem triggerEdgeReport_drops {n a : Nat} {lost : Bool} {rest : List (Nat × Nat × Bool)} (hr : s.running = true)
    (he : (s.cam c).edges = (n, a, lost) :: rest) (h : lost = true ∨ s.camState c ≠ 3) :
    s.gives (.triggerEdgeReport t c) [.regs, .intk] fun s' =>
      s.regsBut s' [R.CXP_TRIG_DROP c] ∧ s'.rd (R.CXP_TRIG_DROP c) = (s.rd (R.CXP_TRIG_DROP c) + 1) % 2 ^ 32 ∧
      s'.cam c = { s.cam c with edges := rest, dropped := joinGap (s.cam c).dropped (n, n, 1) } := by
  have hexec := (exec_triggerEdgeReport t hr he).trans (if_pos (by obtain h | h := h <;> simp [h]))
  rw [State.trigDrop, State.cam_edgeTaken, State.cam_at'] at hexec
  exact State.gives_counted hexec

/-- With the uplink free and room in the stamp queue a trigger goes out at once. -/
theorem State.trigSend_free {n a : Nat} {k : Cam} (hk : x.cam m = k) (hu : k.uplink = []) (hl : k.stamps.length < 8192) :
    x.trigSend m n a = (x.inc (R.CXP_TRIG_SENT m)).setCam m
      { k with uplink := [x.now], stamps := k.stamps ++ [{ lost := k.dropped, count := n, time := a }], dropped := none } := by
  unfold State.trigSend
  rw [hk]
  dsimp only
  rw [hu, if_neg (by simp; omega)]
  rfl

/-- R121, R122: a trigger goes out, and its stamp waits for its line. -/
theorem triggerEdgeReport_sends {n a : Nat} {lost : Bool} {rest : List (Nat × Nat × Bool)} (hr : s.running = true)
    (he : (s.cam c).edges = (n, a, lost) :: rest) (h0 : lost = false) (h3 : s.camState c = 3) (hu : (s.cam c).uplink = [])
    (hl : (s.cam c).stamps.length < 8192) : s.gives (.triggerEdgeReport t c) [.regs, .intk] fun s' =>
      s.regsBut s' [R.CXP_TRIG_SENT c] ∧ s'.rd (R.CXP_TRIG_SENT c) = (s.rd (R.CXP_TRIG_SENT c) + 1) % 2 ^ 32 ∧
      s'.cam c = { s.cam c with edges := rest, uplink := [max s.now t], dropped := none
                                stamps := (s.cam c).stamps ++ [{ lost := (s.cam c).dropped, count := n, time := a }] } := by
  have hexec := (exec_triggerEdgeReport t hr he).trans (if_neg (by simp [h0, h3]))
  have hk := (s.at' t).cam_edgeTaken c rest
  rw [State.cam_at'] at hk
  have hnow : ((s.at' t).edgeTaken c rest).now = max s.now t := s.now_at' t
  rw [State.trigSend_free hk hu hl, hnow] at hexec
  exact State.gives_counted hexec

/-! ### The control mailbox -/

/-- The mailbox command outstanding is `o`. -/
def State.ctlIs (s : State) (o : Option CtlOp) : State := { s with intk := { s.intk with ctl := o } }

theorem State.ctlIs_shows (x : State) (o : Option CtlOp) : x.sameBut (x.ctlIs o) [.intk] ∧ (x.ctlIs o).regs = x.regs ∧
    (x.ctlIs o).intk = { x.intk with ctl := o } := ⟨x.sameBut_mix (x.ctlIs o) [.intk], rfl, rfl⟩

/-- A command the mailbox takes, and its answer still out. -/
def State.ctlTaken (s : State) (v : Nat) (o : CtlOp) : State := ((s.wr R.CXP_CTL_CMD (v % 64)).ctlIs (some o)).wr R.CXP_CTL_STAT 1

/-- The command a write of `v` gives. -/
def State.ctlOp (s : State) (v : Nat) : CtlOp :=
  { port := v % 32, write := v.testBit 5, addr := s.rd R.CXP_CTL_ADDR, data := s.rd R.CXP_CTL_DATA
    held := decide (s.camState (v % 32) = 1 ∨ s.camState (v % 32) = 2 ∨ s.camState (v % 32) = 7), sentAt := s.now }

theorem State.ctlGo_eq (x : State) (v : Nat) : x.ctlGo v =
    if v.testBit 6 ∧ x.attached = true ∧ x.intk.ctl = none then x.ctlTaken v (x.ctlOp v) else x.wr R.CXP_CTL_CMD (v % 64) := rfl

theorem State.ctlTaken_shows (x : State) (v : Nat) (o : CtlOp) : x.sameBut (x.ctlTaken v o) [.regs, .intk] ∧
    (x.ctlTaken v o).rd R.CXP_CTL_STAT = 1 ∧ (x.ctlTaken v o).intk.ctl = some o := by
  unfold State.ctlTaken
  have hw : x.sameBut (x.wr R.CXP_CTL_CMD (v % 64)) [.regs] := by simp
  generalize x.wr R.CXP_CTL_CMD (v % 64) = w at *
  obtain ⟨hf, -, hi⟩ := w.ctlIs_shows (some o)
  generalize w.ctlIs (some o) = u at *
  have hu : u.sameBut (u.wr R.CXP_CTL_STAT 1) [.regs] := by simp
  exact ⟨(hw.mono (by decide)).trans ((hf.mono (by decide)).trans (hu.mono (by decide))), State.rd_wr_same _ _ _, by
    rw [show (u.wr R.CXP_CTL_STAT 1).intk = u.intk from rfl, hi]⟩

theorem State.attached_at' (s : State) (t : Nat) : (s.at' t).attached = s.attached := by
  rw [State.attached, State.attached, State.fld_at']

section Mailbox

variable {i : Instr} {v : W32} (hr : s.running = true) (hi : i = .cxpCtlRead t v ∨ i = .cxpCtlWrite t v)
include hr hi

theorem cxpCtl_exec : exec i s = done ((s.at' t).ctlGo v.toNat) := by
  have hrd : exec (.cxpCtlRead t v) s = if (s.at' t).running then done ((s.at' t).ctlGo v.toNat) else done (s.at' t) := rfl
  have hwr : exec (.cxpCtlWrite t v) s = if (s.at' t).running then done ((s.at' t).ctlGo v.toNat) else done (s.at' t) := rfl
  rw [State.running_at', if_pos hr] at hrd hwr
  obtain rfl | rfl := hi
  · exact hrd
  · exact hwr

/-- R118: with go set, the host attached and no command out, the mailbox takes one. -/
theorem cxpCtl_takes (hg : v.getLsbD 6 = true) (ha : s.attached = true) (hn : s.intk.ctl = none) : s.gives i [.regs, .intk] fun s' =>
    s'.rd R.CXP_CTL_STAT = 1 ∧ ∃ o, s'.intk.ctl = some o ∧ o.port = v.toNat % 32 ∧ o.write = v.getLsbD 5 ∧
      o.addr = s.rd R.CXP_CTL_ADDR ∧ o.data = s.rd R.CXP_CTL_DATA ∧ o.held = decide (s.camState (v.toNat % 32) ∈ [1, 2, 7]) := by
  have hexec := cxpCtl_exec hr hi
  rw [State.ctlGo_eq, State.at'_intk, State.attached_at', BitVec.testBit_toNat, if_pos ⟨hg, ha, hn⟩] at hexec
  have hop : ((s.at' t).ctlOp v.toNat).addr = s.rd R.CXP_CTL_ADDR ∧ ((s.at' t).ctlOp v.toNat).data = s.rd R.CXP_CTL_DATA ∧
      ((s.at' t).ctlOp v.toNat).held = decide (s.camState (v.toNat % 32) ∈ [1, 2, 7]) := by
    refine ⟨s.rd_at' t _, s.rd_at' t _, ?_⟩
    rw [State.ctlOp, State.camState_at']
    simp
  have hbit : ((s.at' t).ctlOp v.toNat).write = v.getLsbD 5 := BitVec.testBit_toNat _
  have hport : ((s.at' t).ctlOp v.toNat).port = v.toNat % 32 := rfl
  generalize (s.at' t).ctlOp v.toNat = o at *
  obtain ⟨hf, h1, h2⟩ := (s.at' t).ctlTaken_shows v.toNat o
  exact State.gives_of_done t hexec hf ⟨by rw [State.rd_settle, h1], o, by rw [State.settle_intk, h2], hport, hbit, hop⟩

/-- R118: else the write leaves the command register alone as it was written. -/
theorem cxpCtl_ignored (h : v.getLsbD 6 = false ∨ s.attached = false ∨ s.intk.ctl ≠ none) :
    s.gives i [.regs] fun s' => s.regsBut s' [R.CXP_CTL_CMD] := by
  have hexec := cxpCtl_exec hr hi
  rw [State.ctlGo_eq, State.at'_intk, State.attached_at', BitVec.testBit_toNat, if_neg (by
    rintro ⟨h1, h2, h3⟩
    obtain h | h | h := h
    · exact Bool.false_ne_true (h.symm.trans h1)
    · exact Bool.false_ne_true (h.symm.trans h2)
    · exact h h3)] at hexec
  refine State.gives_of_done t hexec (by simp [State.sameBut_refl]) fun a ha => ?_
  rw [State.rd_settle, State.rd_wr_other _ _ (by simpa using ha), State.rd_at']

end Mailbox

/-- A command without a good acknowledgement is sent again, or has failed. -/
def State.ctlResent (s : State) (o : CtlOp) : State := s.ctlIs (some { o with resends := o.resends + 1, sentAt := s.now })

/-- The command has failed. -/
def State.ctlFailed (s : State) (o : CtlOp) : State := ((s.ctlIs none).wr R.CXP_CTL_STAT 3).raiseLim E_CXP_PACKET o.port ms {}

theorem State.ctlAgain_eq (x : State) (o : CtlOp) : x.ctlAgain o = if o.resends < 3 then x.ctlResent o else x.ctlFailed o := rfl

theorem State.ctlFailed_shows (x : State) (o : CtlOp) : x.sameBut (x.ctlFailed o) ([.intk] ++ raiseParts) ∧
    (x.ctlFailed o).intk = { x.intk with ctl := none } ∧ (x.ctlFailed o).rd R.CXP_CTL_STAT = 3 := by
  unfold State.ctlFailed
  obtain ⟨hf, -, hi⟩ := x.ctlIs_shows none
  generalize x.ctlIs none = w at *
  have hw : w.sameBut (w.wr R.CXP_CTL_STAT 3) [.regs] := by simp
  have hrd : (w.wr R.CXP_CTL_STAT 3).rd R.CXP_CTL_STAT = 3 := State.rd_wr_same _ _ _
  generalize w.wr R.CXP_CTL_STAT 3 = u at *
  have hl : u.sameBut (u.raiseLim E_CXP_PACKET o.port ms {}) raiseParts := (State.raisedFrom_raiseLim _ _ _ _ _ _).sameBut fun _ h => h
  exact ⟨(hf.mono (by decide)).trans ((hw.mono (by decide)).trans (hl.mono (by decide))),
    Eq.trans (hl.2 .intk (by decide)) (Eq.trans (hw.2 .intk (by decide)) hi), (u.regsBut_raiseLim _ _ _ _ _ _ (by decide)).trans hrd⟩

/-- R132: three times a command is sent again. -/
theorem State.gives_ctlResent {i : Instr} {o : CtlOp} (hc : exec i s = done ((s.at' t).ctlAgain o)) (h : o.resends < 3) :
    s.gives i [.intk] fun s' => s'.intk = { s.intk with ctl := some { o with resends := o.resends + 1, sentAt := max s.now t } } := by
  rw [State.ctlAgain_eq, if_pos h] at hc
  obtain ⟨hf, -, hi⟩ := (s.at' t).ctlIs_shows (some { o with resends := o.resends + 1, sentAt := (s.at' t).now })
  rw [State.at'_intk] at hi
  refine State.gives_of_done t hc hf ?_
  rw [State.settle_intk, State.ctlResent, hi, State.now_at']

/-- R132: then it has failed. -/
theorem State.gives_ctlFailed {i : Instr} {o : CtlOp} (hc : exec i s = done ((s.at' t).ctlAgain o)) (h : 3 ≤ o.resends) :
    s.gives i ([.intk] ++ raiseParts) fun s' => s'.intk = { s.intk with ctl := none } ∧ s'.rd R.CXP_CTL_STAT = 3 := by
  rw [State.ctlAgain_eq, if_neg (by omega)] at hc
  obtain ⟨hf, hi, hrd⟩ := (s.at' t).ctlFailed_shows o
  rw [State.at'_intk] at hi
  exact State.gives_of_done t hc hf ⟨by rw [State.settle_intk, hi], by rw [State.rd_settle, hrd]⟩

/-- The command is answered with code `e`. -/
def State.ctlAnswered (s : State) (e : BitVec 8) : State := (s.ctlIs none).wr R.CXP_CTL_STAT (2 + e.toNat * 256)

theorem State.ctlAnswered_shows (x : State) (e : BitVec 8) : x.sameBut (x.ctlAnswered e) [.regs, .intk] ∧
    (x.ctlAnswered e).intk = { x.intk with ctl := none } ∧ (x.ctlAnswered e).rd R.CXP_CTL_STAT = 2 + e.toNat * 256 ∧
    (x.ctlAnswered e).rd R.CXP_CTL_DATA = x.rd R.CXP_CTL_DATA := by
  unfold State.ctlAnswered
  obtain ⟨hf, hr, hi⟩ := x.ctlIs_shows none
  generalize x.ctlIs none = w at *
  have hw : w.sameBut (w.wr R.CXP_CTL_STAT (2 + e.toNat * 256)) [.regs] := by simp
  refine ⟨(hf.mono (by decide)).trans (hw.mono (by decide)), Eq.trans (hw.2 .intk (by decide)) hi, (State.rd_wr_same _ _ _).trans ?_, ?_⟩
  · have := e.isLt
    omega
  · rw [State.rd_wr_other _ _ (by decide), State.rd_congr hr]

section Answers

variable {o : CtlOp} (hr : s.running = true) (ho : s.intk.ctl = some o) (hh : o.held = false)
include hr ho hh

theorem cxpCtlAck_exec (e : BitVec 8) (a : CtlAck) : exec (.cxpCtlAck t e a) s =
    if !a.ok then done ((s.at' t).ctlAgain o)
    else if !o.write then done (((s.at' t).ctlAnswered e).wr R.CXP_CTL_DATA a.data.toNat)
    else if e = 0 ∧ o.addr = Config.testModeReg.toNat then
      done (((s.at' t).ctlAnswered e).setCam o.port { ((s.at' t).ctlAnswered e).cam o.port with testMode := decide (o.data ≠ 0) })
    else done ((s.at' t).ctlAnswered e) := by
  have hexec : exec (.cxpCtlAck t e a) s = match (s.at' t).intk.ctl with
      | none => done (s.at' t)
      | some c =>
        if !(s.at' t).running || c.held then done (s.at' t)
        else if !a.ok then done ((s.at' t).ctlAgain c)
        else if !c.write then done (((s.at' t).ctlAnswered e).wr R.CXP_CTL_DATA a.data.toNat)
        else if e = 0 ∧ c.addr = Config.testModeReg.toNat then
          done (((s.at' t).ctlAnswered e).setCam c.port { ((s.at' t).ctlAnswered e).cam c.port with testMode := decide (c.data ≠ 0) })
        else done ((s.at' t).ctlAnswered e) := rfl
  rw [hexec, State.at'_intk, ho]
  dsimp only
  rw [State.running_at', hr, hh, if_neg (by decide)]

theorem cxpCtlAckTimeout_exec : exec (.cxpCtlAckTimeout t) s =
    if max s.now t < o.sentAt + 100000000 then done (s.at' t) else done ((s.at' t).ctlAgain o) := by
  have hexec : exec (.cxpCtlAckTimeout t) s = match (s.at' t).intk.ctl with
      | none => done (s.at' t)
      | some c => if !(s.at' t).running || c.held || decide ((s.at' t).now < c.sentAt + 100000000) then done (s.at' t)
        else done ((s.at' t).ctlAgain c) := rfl
  rw [hexec, State.at'_intk, ho]
  dsimp only
  rw [State.running_at', hr, hh, State.now_at']
  simp

/-- R118, R129: a good acknowledgement completes the command, and one of a write to the test-mode register sets or ends the camera's. -/
theorem cxpCtlAck_completes (e : BitVec 8) (w : W32) : s.gives (.cxpCtlAck t e ⟨w, true⟩) [.regs, .intk] fun s' => s'.intk.ctl = none ∧
    s'.rd R.CXP_CTL_STAT = 2 + e.toNat * 256 ∧ s'.rd R.CXP_CTL_DATA = (if o.write then s.rd R.CXP_CTL_DATA else w.toNat) ∧
    if o.write = true ∧ e = 0 ∧ o.addr = Config.testModeReg.toNat
      then s'.cam o.port = { s.cam o.port with testMode := decide (o.data ≠ 0) } else s'.intk = { s.intk with ctl := none } := by
  have hexec := (cxpCtlAck_exec (t := t) hr ho hh e ⟨w, true⟩).trans (if_neg (show ¬ (!true) = true by decide))
  obtain ⟨hf, hi, hst, hd⟩ := (s.at' t).ctlAnswered_shows e
  rw [State.at'_intk] at hi
  rw [State.rd_at'] at hd
  generalize (s.at' t).ctlAnswered e = u at *
  cases hw : o.write with
  | false =>
    rw [hw, if_pos (by decide)] at hexec
    have hwr : u.sameBut (u.wr R.CXP_CTL_DATA w.toNat) [.regs] := by simp
    have hintk : (u.wr R.CXP_CTL_DATA w.toNat).intk = { s.intk with ctl := none } := Eq.trans (hwr.2 .intk (by decide)) hi
    have hdata : (u.wr R.CXP_CTL_DATA w.toNat).rd R.CXP_CTL_DATA = w.toNat := (State.rd_wr_same _ _ _).trans (Nat.mod_eq_of_lt w.isLt)
    have hstat : (u.wr R.CXP_CTL_DATA w.toNat).rd R.CXP_CTL_STAT = 2 + e.toNat * 256 := (State.rd_wr_other _ _ (by decide)).trans hst
    refine State.gives_of_done t hexec (hf.trans (hwr.mono (by decide))) ?_
    generalize u.wr R.CXP_CTL_DATA w.toNat = z at *
    rw [State.settle_intk, State.rd_settle, State.rd_settle, hintk, if_neg (by simp), if_neg (by simp)]
    exact ⟨rfl, hstat, hdata, rfl⟩
  | true =>
    rw [hw, if_neg (by decide)] at hexec
    have hcam : u.cam o.port = s.cam o.port := State.cam_congr (by rw [hi]) _
    by_cases hm : e = 0 ∧ o.addr = Config.testModeReg.toNat
    · rw [if_pos hm, hcam] at hexec
      have hset := u.sameBut_setCam o.port { s.cam o.port with testMode := decide (o.data ≠ 0) }
      have hk := u.cam_setCam_same o.port { s.cam o.port with testMode := decide (o.data ≠ 0) }
      have hctl : (u.setCam o.port { s.cam o.port with testMode := decide (o.data ≠ 0) }).intk.ctl = none := congrArg Intake.ctl hi
      generalize u.setCam o.port { s.cam o.port with testMode := decide (o.data ≠ 0) } = z at *
      refine State.gives_of_done t hexec (hf.trans (hset.mono (by decide))) ?_
      rw [State.settle_intk, State.rd_settle, State.rd_settle, if_pos rfl, if_pos ⟨rfl, hm⟩, State.rd_congr (hset.2 .regs (by decide)),
        State.rd_congr (hset.2 .regs (by decide))]
      exact ⟨hctl, hst, hd, (State.cam_congr (by rw [State.settle_intk]) _).trans hk⟩
    · rw [if_neg hm] at hexec
      refine State.gives_of_done t hexec hf ?_
      rw [State.settle_intk, State.rd_settle, State.rd_settle, hi, if_pos rfl, if_neg fun h => hm h.2]
      exact ⟨rfl, hst, hd, rfl⟩

theorem cxpCtlAck_bad (e : BitVec 8) (w : W32) : exec (.cxpCtlAck t e ⟨w, false⟩) s = done ((s.at' t).ctlAgain o) :=
  (cxpCtlAck_exec hr ho hh e ⟨w, false⟩).trans (if_pos rfl)

theorem cxpCtlAckTimeout_due (h : o.sentAt + 100000000 ≤ max s.now t) : exec (.cxpCtlAckTimeout t) s = done ((s.at' t).ctlAgain o) :=
  (cxpCtlAckTimeout_exec hr ho hh).trans (if_neg (by omega))

theorem cxpCtlAckTimeout_early (h : max s.now t < o.sentAt + 100000000) : s.givesNothing (.cxpCtlAckTimeout t) :=
  State.givesNothing_of_done t ((cxpCtlAckTimeout_exec hr ho hh).trans (if_pos h))

end Answers

/-! ### Event packets -/

theorem State.sameBut_dbg (x : State) (g : Debug) : x.sameBut { x with dbg := g } [.dbg] := x.sameBut_mix { x with dbg := g } [.dbg]

/-- The record stands in the log. -/
def State.logged (s : State) (code : Nat) (d : List Nat) : State :=
  { s with dbg := { s.dbg with
      log := keepLast (s.dbg.log ++ [{ w0 := code % 65536 + (Config.logOrigin code s.free).toNat * 65536, detail := d, seq := s.dbg.logSeq + 1,
                                       timeS := lo32 s.devS, timeNs := s.devNs }]) logMax
      logSeq := s.dbg.logSeq + 1 } }

theorem State.logWrite_eq (x : State) (code : Nat) (d : List Nat) : x.logWrite code d =
    if (x.logged code d).fld R.DBG_LOG_CFG 0 2 ≤ (Config.logOrigin code x.free).toNat / 64 % 4 then
      (if Config.uartBusy x.free then (x.logged code d).incSat R.DBG_LOG_UART_DROP 0 32
       else { x.logged code d with dbg := { (x.logged code d).dbg with uart := (x.logged code d).dbg.uart ++ [(x.logged code d).dbg.logSeq] } })
    else x.logged code d := rfl

theorem State.logWrite_shows (x : State) (code : Nat) (d : List Nat) : x.sameBut (x.logWrite code d) [.regs, .dbg] ∧
    (x.logWrite code d).dbg.logSeq = x.dbg.logSeq + 1 := by
  have hw : x.sameBut (x.logged code d) [.dbg] := x.sameBut_dbg _
  have hl : (x.logged code d).dbg.logSeq = x.dbg.logSeq + 1 := rfl
  rw [State.logWrite_eq]
  generalize x.logged code d = w at *
  split
  · split
    · exact ⟨(State.sameBut_incSat (by decide)).mpr (hw.mono (by decide)), hl⟩
    · exact ⟨.mono (l := [.dbg]) (hw.trans (w.sameBut_dbg _)) (by decide), hl⟩
  · exact ⟨hw.mono (by decide), hl⟩

/-- Table 6.2: a packet of events is logged. -/
theorem cameraEventPacket_logs (hr : s.running = true) (h3 : s.camState (s.camOf c) = 3) :
    s.gives (.cameraEventPacket t c) [.free, .regs, .dbg] fun s' => s'.dbg.logSeq = s.dbg.logSeq + 1 := by
  have hexec : exec (.cameraEventPacket t c) s = if (s.at' t).running ∧ (s.at' t).camState ((s.at' t).camOf c) = 3 then
      done ((s.at' t).logWrite E_NONE ((s.at' t).evWords E_NONE {})).fresh else done (s.at' t) := rfl
  rw [State.running_at', State.camOf_at', State.camState_at', if_pos ⟨hr, h3⟩] at hexec
  obtain ⟨hf, hl⟩ := (s.at' t).logWrite_shows E_NONE ((s.at' t).evWords E_NONE {})
  rw [State.at'_dbg] at hl
  generalize (s.at' t).logWrite E_NONE ((s.at' t).evWords E_NONE {}) = w at *
  have hw : w.sameBut w.fresh [.free] := by simp
  exact State.gives_of_done t hexec ((hf.mono (by decide)).trans (hw.mono (by decide))) hl

/-! ### The claim -/

/-- Settles O44, clause by clause. -/
theorem cameras : Obligations.Cameras := by
  unfold Obligations.Cameras
  intro s t c hr now k
  refine ⟨fun d ho => ⟨fun v hv => ?_, fun h2 h hs => cameraDiscoveryDone_none hr ho h2 h hs⟩, cameraLinkLost_loses hr, ?_,
    fun f => pocxpChainRun_clean hr, fun f => pocxpChainRun_faults hr, fun a => pocxpRetryTimeout_retries hr, pocxpFaultClear_clears hr,
    fun n a lost rest he => ⟨triggerEdgeReport_drops hr he, triggerEdgeReport_sends hr he⟩,
    fun v i hi => ⟨cxpCtl_takes hr hi, cxpCtl_ignored hr hi⟩, fun o ho hh => ⟨cxpCtlAck_completes hr ho hh, fun e w =>
      ⟨State.gives_ctlResent (cxpCtlAck_bad hr ho hh e w), State.gives_ctlFailed (cxpCtlAck_bad hr ho hh e w)⟩,
      cxpCtlAckTimeout_early hr ho hh, fun h => State.gives_ctlResent (cxpCtlAckTimeout_due hr ho hh h),
      fun h => State.gives_ctlFailed (cxpCtlAckTimeout_due hr ho hh h)⟩, cameraEventPacket_logs hr⟩
  · obtain ⟨y, hexec, hy⟩ := cameraDiscoveryDone_inits (t := t) hr ho hv
    exact ⟨hy.comesUp hexec, hy.goesOn hexec, hy.fails hexec⟩
  · exact fun a ha ho h4 => ⟨fun hn hp => cameraRediscoveryTimer_starts hr ha ho h4 hn hp, cameraRediscoveryTimer_early ha⟩

end Sys2Proof.Machine
end

section
/-! PROOF. Host accesses (R69, R76, R77, R84, R85, R87): the handshake register, the heartbeat, BAR2, ring heads and coalesced MSI-X. -/

namespace Sys2Proof.Machine

variable {s x y z : State} {t : Nat}

/-- What a settled state shows in its registers is what the state it settles does. -/
theorem State.regsBut.settle {l : List Nat} (h : y.regsBut x l) : y.regsBut x.settle l := fun a ha => (State.rd_settle x a).trans (h a ha)

theorem State.regsBut.mono {l l' : List Nat} (h : y.regsBut x l) (hl : ∀ a ∈ l, a ∈ l') : y.regsBut x l' :=
  fun a ha => h a fun hm => ha (hl a hm)

/-! ### The handshake register and the heartbeat -/

theorem exec_hivRequest (t : Nat) (w : W32) (s : State) (hr : s.running = true) :
    exec (.hivRequest t w) s = done ((s.at' t).hivWrite w.toNat) := by
  have hexec : exec (.hivRequest t w) s = if (s.at' t).running then done ((s.at' t).hivWrite w.toNat) else done (s.at' t) := rfl
  rw [hexec, State.running_at', if_pos hr]

/-- The new value of the register: its fields as written, without the bits between them. -/
theorem handshakeWord (w : W32) : putBits w.toNat 24 7 0 = w.toNat % 2 ^ 24 + 2 ^ 31 * b2n (w.getLsbD 31) := by
  have h31 : w.toNat / 2 ^ 31 = b2n (w.getLsbD 31) := by
    have hw := w.isLt
    rw [← BitVec.testBit_toNat, Nat.testBit_eq_decide_div_mod_eq, b2n]
    simp only [decide_eq_true_eq]
    split <;> omega
  rw [putBits, show (24 : Nat) + 7 = 31 from rfl, h31]
  omega

/-- A change of the handshake status shows in its two fields, and may send a message. -/
theorem State.setHiv_shows (x : State) {st code : Nat} (hst : st < 4) : x.sameBut (x.setHiv st code) [.regs, .host] ∧
    x.regsBut (x.setHiv st code) [R.GLB_HIV_STATUS] ∧ (x.setHiv st code).fld R.GLB_HIV_STATUS 0 2 = st ∧
    (x.setHiv st code).fld R.GLB_HIV_STATUS 16 16 = code % 2 ^ 16 := by
  have hregs : (x.setHiv st code).regs = ((x.setFld R.GLB_HIV_STATUS 0 2 st).setFld R.GLB_HIV_STATUS 16 16 code).regs := by
    unfold State.setHiv
    dsimp only
    split <;> simp
  have hfld := State.fld_congr hregs R.GLB_HIV_STATUS
  refine ⟨?_, ?_, ?_, ?_⟩
  · unfold State.setHiv
    dsimp only
    split <;> simp
  · exact (State.regsBut_setFld (State.regsBut_setFld (x.regsBut_refl _) (by simp)) (by simp)).trans (State.regsBut_congr hregs _)
  · rw [hfld, State.fld_setFld_apart _ (by omega), State.fld_setFld_same _ _ _ _ _ (by omega)]
    omega
  · rw [hfld, State.fld_setFld_same _ _ _ _ _ (by omega)]

/-- R69: fields of a request in progress are not changed. -/
theorem hivRequest_ignored (w : W32) (hr : s.running = true) (h : s.bit R.GLB_HIV_HOST 31 = true) : s.givesNothing (.hivRequest t w) := by
  have hexec := exec_hivRequest t w s hr
  rw [State.hivWrite, State.bit_at', if_pos h] at hexec
  exact State.givesNothing_of_done t hexec

/-- R69: the register takes the fields, and with go set a request is PENDING. -/
theorem hivRequest_takes (w : W32) (hr : s.running = true) (h : s.bit R.GLB_HIV_HOST 31 = false) :
    s.gives (.hivRequest t w) [.regs, .host] fun s' =>
      s.regsBut s' [R.GLB_HIV_HOST, R.GLB_HIV_STATUS] ∧ s'.rd R.GLB_HIV_HOST = w.toNat % 2 ^ 24 + 2 ^ 31 * b2n (w.getLsbD 31) ∧
      (w.getLsbD 31 = true → s'.fld R.GLB_HIV_STATUS 0 2 = 1 ∧ s'.fld R.GLB_HIV_STATUS 16 16 = 0) ∧
      (w.getLsbD 31 = false → s'.host = s.host ∧ s'.rd R.GLB_HIV_STATUS = s.rd R.GLB_HIV_STATUS) := by
  have hexec := exec_hivRequest t w s hr
  rw [State.hivWrite, State.bit_at', if_neg (by simp [h]), BitVec.testBit_toNat] at hexec
  dsimp only at hexec
  have hf : (s.at' t).sameBut ((s.at' t).wr R.GLB_HIV_HOST (putBits w.toNat 24 7 0)) [.regs] := by simp
  have hrb : s.regsBut ((s.at' t).wr R.GLB_HIV_HOST (putBits w.toNat 24 7 0)) [R.GLB_HIV_HOST] :=
    State.regsBut_wr (State.regsBut_congr (s.at'_regs t) _) (by simp)
  have hrd : ((s.at' t).wr R.GLB_HIV_HOST (putBits w.toNat 24 7 0)).rd R.GLB_HIV_HOST =
      w.toNat % 2 ^ 24 + 2 ^ 31 * b2n (w.getLsbD 31) := by
    have hbit : b2n (w.getLsbD 31) < 2 := by unfold b2n; split <;> decide
    rw [State.rd_wr_same, handshakeWord]
    omega
  generalize (s.at' t).wr R.GLB_HIV_HOST (putBits w.toNat 24 7 0) = u at *
  cases hw : w.getLsbD 31 with
  | true =>
    rw [hw, if_pos rfl] at hexec
    obtain ⟨hg, hgr, h1, h2⟩ := u.setHiv_shows (st := 1) (code := 0) (by decide)
    refine State.gives_of_done t hexec ((hf.mono (by decide)).trans hg)
      ⟨((hrb.mono (by simp)).trans (hgr.mono (by simp))).settle, ?_, fun _ => ?_, fun h => absurd h (by decide)⟩
    · rw [State.rd_settle, hgr _ (by decide), hrd, hw]
    · rw [State.fld_settle, State.fld_settle]
      exact ⟨h1, h2⟩
  | false =>
    rw [hw, if_neg (by decide)] at hexec
    refine State.gives_of_done t hexec (hf.mono (by decide)) ⟨(hrb.mono (by simp)).settle, ?_, fun h => absurd h (by decide),
      fun _ => ⟨?_, ?_⟩⟩
    · rw [State.rd_settle, hrd, hw]
    · rw [State.settle_host]
      exact Eq.trans (hf.2 .host (by decide)) (s.at'_host t)
    · rw [State.rd_settle, hrb _ (by decide)]

/-- R87: the value SCH samples at its next tick. -/
theorem hostHeartbeatWrite_takes (v : W32) (hr : s.running = true) : s.gives (.hostHeartbeatWrite t v) [.regs] fun s' =>
    s.regsBut s' [R.CMD_HOST_HB] ∧ s'.rd R.CMD_HOST_HB = v.toNat := by
  have hexec : exec (.hostHeartbeatWrite t v) s =
      if (s.at' t).running then done ((s.at' t).wr R.CMD_HOST_HB v.toNat) else done (s.at' t) := rfl
  rw [State.running_at', if_pos hr] at hexec
  refine State.gives_of_done t hexec (by simp) ⟨(State.regsBut_wr (State.regsBut_congr (s.at'_regs t) _) (by simp)).settle, ?_⟩
  rw [State.rd_settle, State.rd_wr_same, Nat.mod_eq_of_lt v.isLt]

/-! ### Lines of device memory and their codes -/

theorem LineErr.bad_of_within {e : LineErr} (h : e.beyond = false) : e.bad = false ∧ e.wrongWord = false := by
  simp [LineErr.bad, LineErr.wrongWord, h]

/-- What the codes corrected is counted for the line's package. -/
theorem State.countCorr_shows (x : State) (a : Nat) (e : LineErr) : x.sameBut (x.countCorr (a / 256) e) [.regs] ∧
    x.regsBut (x.countCorr (a / 256) e) (corrRegs a) := by
  have h : ∀ (y : State) (b : Bool) (r : Nat), r ∈ corrRegs a → y.sameBut (if b then y.incSat r 0 32 else y) [.regs] ∧
      y.regsBut (if b then y.incSat r 0 32 else y) (corrRegs a) := by
    intro y b r hr
    cases b
    · exact ⟨y.sameBut_refl _, y.regsBut_refl _⟩
    · exact ⟨by simp, State.regsBut_setFld (y.regsBut_refl _) hr⟩
  obtain ⟨hf, hr⟩ := h x e.inner (R.MEM_CORR_INNER (linePackage (a / 256))) (by simp [corrRegs])
  obtain ⟨hg, hs⟩ := h (if e.inner then x.incSat (R.MEM_CORR_INNER (linePackage (a / 256))) 0 32 else x) e.corrected
    (R.MEM_CORR_OUTER (linePackage (a / 256))) (by simp [corrRegs])
  exact ⟨hf.trans hg, hr.trans hs⟩

theorem linePackage_lt (l : Nat) : linePackage l < 8 := by
  unfold linePackage
  omega

theorem State.rd_incSat_word (x : State) (a : Nat) : (x.incSat a 0 32).rd a = min (2 ^ 32 - 1) (x.rd a + 1) := by
  have h := x.rd_lt a
  have hs : (x.incSat a 0 32).fld a 0 32 = satInc (x.fld a 0 32) 32 % 2 ^ 32 := State.fld_setFld_same _ _ _ _ _ (by decide)
  have hl := (x.incSat a 0 32).rd_lt a
  simp only [State.fld, Nat.pow_zero, Nat.div_one, Nat.mod_eq_of_lt h, Nat.mod_eq_of_lt hl] at hs
  rw [hs, satInc]
  split <;> omega

/-- An uncorrectable read is counted for a package, and raises an event. -/
theorem State.memUncorr_shows (x : State) (l reader c n : Nat) : x.sameBut (x.memUncorr l reader c n) raiseParts ∧
    (x.memUncorr l reader c n).rd (R.MEM_UNCORR (linePackage l)) = min (2 ^ 32 - 1) (x.rd (R.MEM_UNCORR (linePackage l)) + 1) := by
  have hl := linePackage_lt l
  unfold State.memUncorr
  refine ⟨(State.sameBut_raise fun _ h => h).mpr (by simp [raiseParts]), ?_⟩
  rw [State.rd_raise _ (by simp only [raiseRegs, R.MEM_UNCORR, R.CMD_EVT_LOST, R.DBG_LOG_UART_DROP, List.mem_cons, List.not_mem_nil, or_false]; omega),
    State.rd_incSat_word, State.rd_wr_other _ _ (by simp only [R.MEM_UNCORR, R.MEM_LAST_UNCORR_SRC]; omega),
    State.rd_wr64_other _ _ (by simp only [R.MEM_UNCORR, R.MEM_LAST_UNCORR]; omega)]

/-! ### BAR2: translation -/

theorem xlatePages_first {one : Nat → XRes} {fuel va n a : Nat} (h : xlatePages one fuel va n = .ok a) : one va = .ok a := by
  cases fuel with
  | zero => exact h
  | succ fuel =>
    unfold xlatePages at h
    cases hv : one va with
    | ok b =>
      rw [hv] at h
      dsimp only at h
      split at h
      · exact h
      · split at h
        · exact h
        next hne => exact absurd h (hne a)
    | park c v => rw [hv] at h; exact h
    | fault c v => rw [hv] at h; exact h

/-- A page of host memory is no address of an agent (R74). -/
theorem State.hostPage_of_xlate {c va a : Nat} {w p : Bool} (h : s.xlate c va w p = .ok a) : s.hostPage c va = false := by
  unfold State.xlate at h
  unfold State.hostPage
  split at h
  · exact absurd h (by simp)
  · cases hl : s.leaf c va with
    | none => rfl
    | some e =>
      obtain ⟨q, off⟩ := e
      rw [hl] at h
      dsimp only at h ⊢
      cases hq : q.host with
      | false => rfl
      | true =>
        rw [if_pos hq] at h
        exact absurd h (by simp)

theorem State.hostPage_of_bar2 {off n c va : Nat} {w : Bool} (h : s.bar2Refused off n w = some (c, va)) : s.hostPage c va = false := by
  unfold State.bar2Refused at h
  split at h
  · exact absurd h (by simp)
  · dsimp only at h
    split at h
    · exact absurd h (by simp)
    · split at h
      next a hx =>
        obtain ⟨rfl, rfl⟩ := Prod.mk.inj (Option.some.inj h)
        exact State.hostPage_of_xlate (xlatePages_first hx)
      · exact absurd h (by simp)

theorem State.scUp_at' (s : State) (t : Nat) : (s.at' t).scUp = s.scUp := by
  rw [State.scUp, State.scUp, State.fwState, State.fwState, State.fld_at', State.at'_sec]

theorem State.bar2Refused_at' (s : State) (t off n : Nat) (w : Bool) : (s.at' t).bar2Refused off n w = s.bar2Refused off n w := by
  simp [State.bar2Refused, State.attached_at', State.scUp_at']

theorem State.leaf_at' (s : State) (t c va : Nat) : (s.at' t).leaf c va = s.leaf c va := by simp [State.leaf]

theorem State.physOf_at' (s : State) (t c va : Nat) : (s.at' t).physOf c va = s.physOf c va := by simp [State.physOf, State.leaf_at']

theorem State.hostPage_at' (s : State) (t c va : Nat) : (s.at' t).hostPage c va = s.hostPage c va := by
  simp [State.hostPage, State.leaf_at']

theorem State.vreadBytes_at' (s : State) (t c va n : Nat) : (s.at' t).vreadBytes c va n = s.vreadBytes c va n := by
  simp [State.vreadBytes, State.vread, State.physOf_at', State.hostPage_at']

theorem State.partPoison_at' (s : State) (t c va n : Nat) : (s.at' t).partPoison c va n = s.partPoison c va n := by
  simp [State.partPoison, State.linesOf, State.physOf_at', State.hostPage_at']

/-! ### BAR2: accesses -/

/-- An access that is refused is counted (R77). -/
theorem State.bar2Deny_shows (x : State) (off : Nat) : x.sameBut (x.bar2Deny off) raiseParts ∧
    (x.bar2Deny off).rd R.SEC_BAR2_DENIED = (x.rd R.SEC_BAR2_DENIED + 1) % 2 ^ 32 := by
  have hi : x.sameBut (x.inc R.SEC_BAR2_DENIED) raiseParts := by simp [raiseParts]
  exact ⟨hi.trans ((State.raisedFrom_raiseLim _ _ _ _ _ _).sameBut fun _ h => h),
    (State.regsBut_raiseLim _ _ _ _ _ _ _ (by decide)).trans (State.rd_wr_same _ _ _)⟩

/-- A host access completes as `c`, with data `d`. -/
def State.completes (s : State) (c : Completion) (d : List Byte) : State := { s with host := { s.host with lastCpl := c, lastData := d } }

theorem State.completes_shows (x : State) (c : Completion) (d : List Byte) : x.sameBut (x.completes c d) [.host] ∧
    (x.completes c d).regs = x.regs ∧ (x.completes c d).host = { x.host with lastCpl := c, lastData := d } :=
  ⟨x.sameBut_host _, rfl, rfl⟩

theorem State.sameBut_fab (x : State) (b : Fabric) : x.sameBut { x with fab := b } [.fab] := x.sameBut_mix { x with fab := b } [.fab]

/-- A write to device memory puts the bytes at their address. -/
theorem State.pwrite_shows (x : State) (a : Nat) (bs : List Byte) : x.sameBut (x.pwrite a bs) [.fab, .regs] ∧
    (x.pwrite a bs).fab.dram = Mem.writeBytes x.fab.dram a bs := by
  unfold State.pwrite
  dsimp only
  split
  · exact ⟨(x.sameBut_fab _).mono (by decide), rfl⟩
  · exact ⟨(State.sameBut_wr (by decide)).mpr ((x.sameBut_fab _).mono (by decide)), rfl⟩

theorem State.physOf_congr (h : x.fab = y.fab) (c va : Nat) : x.physOf c va = y.physOf c va := by simp [State.physOf, State.leaf, h]

theorem State.hostPage_congr (h : x.fab = y.fab) (c va : Nat) : x.hostPage c va = y.hostPage c va := by
  simp [State.hostPage, State.leaf, h]

/-- A write that stays within a page of device memory is one write there. -/
theorem State.vwrite_page {c va f : Nat} {bs : List Byte} (x : State) (h : x.hostPage c va = false) (hn : va % 4096 + bs.length ≤ 4096) :
    x.vwrite c (f + 1) va bs = x.pwrite (x.physOf c va) bs := by
  have hle : bs.length ≤ 4096 - va % 4096 := by omega
  unfold State.vwrite
  dsimp only
  rw [if_pos hle, List.take_of_length_le hle, State.placeWrite, if_neg (by simp [h])]

section Bar2

variable (hr : s.running = true) (hl : s.mod.pcieUp = true) {off : BitVec 36} {c va n : Nat} {e : LineErr} {d : List Byte}
include hr hl

theorem exec_bar2Read : exec (.bar2Read t off ⟨n, e⟩) s = match s.bar2Refused off.toNat n false with
    | none => done (((s.at' t).bar2Deny off.toNat).completes .ok (List.replicate n 0xFF))
    | some (x, va) => match (if e.bad then some (s.physOf x va / 256) else s.poisonedIn x va n) with
      | some k => done (((s.at' t).memUncorr k 4 x 0).completes .aborted [])
      | none => done ((if e.wrongWord then ((s.at' t).countCorr (s.physOf x va / 256) e).fresh
          else (s.at' t).countCorr (s.physOf x va / 256) e).completes .ok
            (e.deliver s.free va ((s.vreadBytes x va n).take (256 - va % 256)) ++ (s.vreadBytes x va n).drop (256 - va % 256))) := by
  have hexec : exec (.bar2Read t off ⟨n, e⟩) s = if !(s.at' t).running || !(s.at' t).mod.pcieUp then done (s.at' t)
      else match (s.at' t).bar2Refused off.toNat n false with
      | none => done (((s.at' t).bar2Deny off.toNat).completes .ok (List.replicate n 0xFF))
      | some (x, va) => match (if e.bad then some ((s.at' t).physOf x va / 256) else (s.at' t).poisonedIn x va n) with
        | some k => done (((s.at' t).memUncorr k 4 x 0).completes .aborted [])
        | none => done ((if e.wrongWord then ((s.at' t).countCorr ((s.at' t).physOf x va / 256) e).fresh
            else (s.at' t).countCorr ((s.at' t).physOf x va / 256) e).completes .ok
              (e.deliver (s.at' t).free va (((s.at' t).vreadBytes x va n).take (256 - va % 256)) ++
                ((s.at' t).vreadBytes x va n).drop (256 - va % 256))) := rfl
  simp only [State.running_at', hr, State.at'_mod, hl, State.bar2Refused_at', State.physOf_at', State.poisonedIn_at', State.at'_free,
    State.vreadBytes_at'] at hexec
  exact hexec.trans (if_neg (by decide))

theorem exec_bar2Write : exec (.bar2Write t off ⟨d, e⟩) s = match s.bar2Refused off.toNat d.length true with
    | none => done ((s.at' t).bar2Deny off.toNat)
    | some (x, va) =>
      match (if decide (va % 256 ≠ 0 ∨ d.length < 256) && e.bad then some (s.physOf x va / 256) else s.partPoison x va d.length) with
      | some k => done ((s.at' t).memUncorr k 4 x 0)
      | none => done ((if decide (va % 256 ≠ 0 ∨ d.length < 256) then
          ((s.at' t).countCorr (s.physOf x va / 256) e).miscorrect (s.physOf x va / 256) e else s.at' t).vwrite x (d.length / 4096 + 2) va d) := by
  have hexec : exec (.bar2Write t off ⟨d, e⟩) s = if !(s.at' t).running || !(s.at' t).mod.pcieUp then done (s.at' t)
      else match (s.at' t).bar2Refused off.toNat d.length true with
      | none => done ((s.at' t).bar2Deny off.toNat)
      | some (x, va) =>
        match (if decide (va % 256 ≠ 0 ∨ d.length < 256) && e.bad then some ((s.at' t).physOf x va / 256)
          else (s.at' t).partPoison x va d.length) with
        | some k => done ((s.at' t).memUncorr k 4 x 0)
        | none => done ((if decide (va % 256 ≠ 0 ∨ d.length < 256) then
            ((s.at' t).countCorr ((s.at' t).physOf x va / 256) e).miscorrect ((s.at' t).physOf x va / 256) e
            else s.at' t).vwrite x (d.length / 4096 + 2) va d) := rfl
  simp only [State.running_at', hr, State.at'_mod, hl, State.bar2Refused_at', State.physOf_at', State.partPoison_at'] at hexec
  exact hexec.trans (if_neg (by decide))

/-- R77, R78: a read that meets no error gives the bytes. -/
theorem bar2Read_gives (h : s.bar2Refused off.toNat n false = some (c, va)) (hp : s.poisonedIn c va n = none) (he : e.beyond = false) :
    s.gives (.bar2Read t off ⟨n, e⟩) [.host, .regs] fun s' =>
      s'.host = { s.host with lastCpl := .ok, lastData := s.vreadBytes c va n } ∧ s.regsBut s' (corrRegs (s.physOf c va)) := by
  have hexec := exec_bar2Read (t := t) (off := off) (n := n) (e := e) hr hl
  obtain ⟨hb, hw⟩ := LineErr.bad_of_within he
  simp only [h, hb, hw, hp, LineErr.deliver, Bool.false_eq_true, if_false, List.take_append_drop] at hexec
  obtain ⟨hf, hrb⟩ := (s.at' t).countCorr_shows (s.physOf c va) e
  generalize (s.at' t).countCorr (s.physOf c va / 256) e = u at *
  obtain ⟨hg, hregs, hhost⟩ := u.completes_shows .ok (s.vreadBytes c va n)
  have hh : u.host = s.host := Eq.trans (hf.2 .host (by decide)) (s.at'_host t)
  refine State.gives_of_done t hexec ((hf.mono (by decide)).trans (hg.mono (by decide))) ⟨?_, State.regsBut.settle ?_⟩
  · rw [State.settle_host, hhost, hh]
  · exact ((State.regsBut_congr (s.at'_regs t) _).trans hrb).trans (State.regsBut_congr hregs _)

/-- R78, R181: a read that meets an uncorrectable error aborts. -/
theorem bar2Read_aborts (h : s.bar2Refused off.toNat n false = some (c, va)) (hp : s.poisonedIn c va n ≠ none ∨ e.bad = true) :
    s.gives (.bar2Read t off ⟨n, e⟩) [.free, .regs, .host, .hostMem, .dbg] fun s' => s'.host.lastCpl = .aborted ∧ s'.host.lastData = [] := by
  have hexec := exec_bar2Read (t := t) (off := off) (n := n) (e := e) hr hl
  obtain ⟨k, hk⟩ : ∃ k, (if e.bad then some (s.physOf c va / 256) else s.poisonedIn c va n) = some k := by
    cases hb : e.bad with
    | true => exact ⟨_, rfl⟩
    | false =>
      rw [if_neg (by decide)]
      exact Option.ne_none_iff_exists'.mp (hp.resolve_right (by simp [hb]))
  simp only [h, hk] at hexec
  obtain ⟨hf, -⟩ := (s.at' t).memUncorr_shows k 4 c 0
  generalize (s.at' t).memUncorr k 4 c 0 = u at *
  obtain ⟨hg, -, hhost⟩ := u.completes_shows .aborted []
  refine State.gives_of_done t hexec (hf.trans (hg.mono (by decide))) ?_
  rw [State.settle_host, hhost]
  exact ⟨rfl, rfl⟩

/-- R77: a read that is refused gives bytes 0xFF. -/
theorem bar2Read_denied (h : s.bar2Refused off.toNat n false = none) :
    s.gives (.bar2Read t off ⟨n, e⟩) [.free, .regs, .host, .hostMem, .dbg] fun s' => s'.host.lastCpl = .ok ∧
      s'.host.lastData = List.replicate n 0xFF ∧ s'.rd R.SEC_BAR2_DENIED = (s.rd R.SEC_BAR2_DENIED + 1) % 2 ^ 32 := by
  have hexec := exec_bar2Read (t := t) (off := off) (n := n) (e := e) hr hl
  simp only [h] at hexec
  obtain ⟨hf, hrd⟩ := (s.at' t).bar2Deny_shows off.toNat
  generalize (s.at' t).bar2Deny off.toNat = u at *
  obtain ⟨hg, hregs, hhost⟩ := u.completes_shows .ok (List.replicate n 0xFF)
  refine State.gives_of_done t hexec (hf.trans (hg.mono (by decide))) ?_
  rw [State.settle_host, hhost, State.rd_settle, State.rd_congr hregs, hrd, State.rd_at']
  exact ⟨rfl, rfl, rfl⟩

/-- R77, R78: a write within a page puts its bytes in device memory. -/
theorem bar2Write_writes (h : s.bar2Refused off.toNat d.length true = some (c, va)) (hp : s.partPoison c va d.length = none)
    (he : e.beyond = false) (hn : va % 4096 + d.length ≤ 4096) : s.gives (.bar2Write t off ⟨d, e⟩) [.fab, .regs] fun s' =>
      (∀ k, k < d.length → Mem.read s'.fab.dram (s.physOf c va + k) = nth d k 0) ∧
      ∀ a, (a < s.physOf c va ∨ s.physOf c va + d.length ≤ a) → Mem.read s'.fab.dram a = Mem.read s.fab.dram a := by
  have hexec := exec_bar2Write (t := t) (off := off) (d := d) (e := e) hr hl
  obtain ⟨hb, hw⟩ := LineErr.bad_of_within he
  simp only [h, hb, Bool.and_false, Bool.false_eq_true, if_false, hp] at hexec
  have hf : (s.at' t).sameBut (if decide (va % 256 ≠ 0 ∨ d.length < 256) then
      ((s.at' t).countCorr (s.physOf c va / 256) e).miscorrect (s.physOf c va / 256) e else s.at' t) [.regs] := by
    split
    · rw [State.miscorrect, hw, if_neg (by decide)]
      exact ((s.at' t).countCorr_shows (s.physOf c va) e).1
    · exact State.sameBut_refl _ _
  generalize (if decide (va % 256 ≠ 0 ∨ d.length < 256) then
      ((s.at' t).countCorr (s.physOf c va / 256) e).miscorrect (s.physOf c va / 256) e else s.at' t) = u at *
  have hfab : u.fab = s.fab := Eq.trans (hf.2 .fab (by decide)) (s.at'_fab t)
  rw [u.vwrite_page ((State.hostPage_congr hfab c va).trans (State.hostPage_of_bar2 h)) hn, State.physOf_congr hfab] at hexec
  obtain ⟨hg, hdram⟩ := u.pwrite_shows (s.physOf c va) d
  refine State.gives_of_done t hexec ((hf.mono (by decide)).trans hg) ?_
  rw [State.settle_fab, hdram, hfab]
  refine ⟨fun k hk => ?_, fun a ha => Mem.read_writeBytes_other d _ _ ha⟩
  rw [Mem.read_writeBytes_same d _ _ k hk, nth, List.getElem?_eq_getElem hk, Option.getD_some]

/-- R180, R181: a write that covers a line in part is not performed where the line fails its code. -/
theorem bar2Write_aborts (h : s.bar2Refused off.toNat d.length true = some (c, va))
    (hp : s.partPoison c va d.length ≠ none ∨ d.length < 256 ∧ e.bad = true) :
    s.gives (.bar2Write t off ⟨d, e⟩) [.free, .regs, .host, .hostMem, .dbg] fun s' =>
      ∃ p, s'.rd (R.MEM_UNCORR p) = min (2 ^ 32 - 1) (s.rd (R.MEM_UNCORR p) + 1) := by
  have hexec := exec_bar2Write (t := t) (off := off) (d := d) (e := e) hr hl
  obtain ⟨k, hk⟩ : ∃ k, (if decide (va % 256 ≠ 0 ∨ d.length < 256) && e.bad then some (s.physOf c va / 256)
      else s.partPoison c va d.length) = some k := by
    split
    · exact ⟨_, rfl⟩
    next hb =>
      exact Option.ne_none_iff_exists'.mp (hp.resolve_right fun ⟨h1, h2⟩ => hb (by simp [h1, h2]))
  simp only [h, hk] at hexec
  obtain ⟨hf, hrd⟩ := (s.at' t).memUncorr_shows k 4 c 0
  exact State.gives_of_done t hexec hf ⟨linePackage k, by rw [State.rd_settle, hrd, State.rd_at']⟩

/-- R77: a write that is refused is dropped. -/
theorem bar2Write_denied (h : s.bar2Refused off.toNat d.length true = none) :
    s.gives (.bar2Write t off ⟨d, e⟩) [.free, .regs, .host, .hostMem, .dbg] fun s' =>
      s'.rd R.SEC_BAR2_DENIED = (s.rd R.SEC_BAR2_DENIED + 1) % 2 ^ 32 := by
  have hexec := exec_bar2Write (t := t) (off := off) (d := d) (e := e) hr hl
  simp only [h] at hexec
  obtain ⟨hf, hrd⟩ := (s.at' t).bar2Deny_shows off.toNat
  refine State.gives_of_done t hexec hf ?_
  rw [State.rd_settle, hrd, State.rd_at']

end Bar2

/-! ### Ring heads -/

/-- Entries the host has consumed since it last wrote the head register, by its new value (R85, log 106). -/
def Ring.advance (g : Ring) (v : Nat) : Nat := (v % 65536 + 2 ^ 17 - g.consumed % 2 ^ g.log2) % 2 ^ g.log2

theorem Ring.advance_lt (g : Ring) (v : Nat) : g.advance v < 2 ^ g.log2 := Nat.mod_lt _ (Nat.two_pow_pos _)

/-- The entries consumed lead from the old index to the one written. -/
theorem Ring.advance_reaches (g : Ring) (v : Nat) (h : g.log2 ≤ 16) :
    (g.consumed % 2 ^ g.log2 + g.advance v) % 2 ^ g.log2 = v % 65536 % 2 ^ g.log2 := by
  obtain ⟨k, hk⟩ : 2 ^ g.log2 ∣ 2 ^ 17 := Nat.pow_dvd_pow 2 (by omega)
  have hlt : g.consumed % 2 ^ g.log2 < 2 ^ g.log2 := Nat.mod_lt _ (Nat.two_pow_pos _)
  have hle : 2 ^ g.log2 ≤ 2 ^ 17 := Nat.pow_le_pow_right (by decide) (by omega)
  rw [Ring.advance, Nat.add_mod_mod, show g.consumed % 2 ^ g.log2 + (v % 65536 + 2 ^ 17 - g.consumed % 2 ^ g.log2) =
    v % 65536 + 2 ^ g.log2 * k by omega, Nat.add_mul_mod_self_left]

/-- With no backlog there is nothing to deliver. -/
theorem State.deliver_none (h : x.host.backlog = []) : x.deliver = x := by
  unfold State.deliver
  split
  · rfl
  · dsimp only
    rw [h, State.deliverKind, h, State.deliverKind]

/-- With no event lost there is nothing to report. -/
theorem State.reportLost_none (h : x.host.evtLostPending = 0) : x.reportLost = x := by
  unfold State.reportLost
  split
  · rfl
  · rw [if_neg (by omega)]

/-- Ring `r` is `g`. -/
def State.setRing (s : State) (r : Nat) (g : Ring) : State := { s with host := { s.host with rings := KMap.put s.host.rings r g } }

theorem State.setRing_shows (x : State) (r : Nat) (g : Ring) : x.sameBut (x.setRing r g) [.host] ∧ (x.setRing r g).regs = x.regs ∧
    (x.setRing r g).host = { x.host with rings := KMap.put x.host.rings r g } := ⟨x.sameBut_host _, rfl, rfl⟩

/-- The head register of ring `r`. -/
def headReg (r : Nat) : Nat := if r = 8 then R.CMD_EVT_HEAD else R.CMD_RR_HEAD r

/-- A write of the head of a ring in force consumes entries of it. -/
theorem State.ringHead_eq {r v : Nat} {g : Ring} (h : KMap.find x.host.rings r = some g) : x.ringHead r v =
    (((x.wr (headReg r) (v % 65536)).setRing r { g with consumed := min g.written (g.consumed + g.advance v) }).deliver).reportLost := by
  have hw : KMap.find (x.wr (headReg r) (v % 65536)).host.rings r = some g := h
  unfold headReg at *
  unfold State.ringHead
  dsimp only
  rw [hw]
  rfl

/-- R85: the host reports the entries it has consumed. -/
theorem hostRingHeadWrite_consumes {r : Fin 9} {v : W32} {g : Ring} (hr : s.running = true) (h : KMap.find s.host.rings r = some g)
    (hlog : g.log2 ≤ 16) (hb : s.host.backlog = []) (hl : s.host.evtLostPending = 0) :
    s.gives (.hostRingHeadWrite t r v) [.regs, .host] fun s' => s'.rd (headReg r) = v.toNat % 65536 ∧ s.regsBut s' [headReg r] ∧
      ∃ n, n < 2 ^ g.log2 ∧ (g.consumed % 2 ^ g.log2 + n) % 2 ^ g.log2 = v.toNat % 65536 % 2 ^ g.log2 ∧
        s'.host = { s.host with rings := KMap.put s.host.rings r { g with consumed := min g.written (g.consumed + n) } } := by
  have hexec : exec (.hostRingHeadWrite t r v) s =
      if (s.at' t).running then done ((s.at' t).ringHead r v.toNat) else done (s.at' t) := rfl
  rw [State.running_at', if_pos hr, State.ringHead_eq (by rw [State.at'_host, h])] at hexec
  have hw : (s.at' t).sameBut ((s.at' t).wr (headReg r) (v.toNat % 65536)) [.regs] := by simp
  have hrb : s.regsBut ((s.at' t).wr (headReg r) (v.toNat % 65536)) [headReg r] :=
    State.regsBut_wr (State.regsBut_congr (s.at'_regs t) _) (by simp)
  have hrd : ((s.at' t).wr (headReg r) (v.toNat % 65536)).rd (headReg r) = v.toNat % 65536 := by
    rw [State.rd_wr_same]
    omega
  generalize (s.at' t).wr (headReg r) (v.toNat % 65536) = u at *
  have huh : u.host = s.host := Eq.trans (hw.2 .host (by decide)) (s.at'_host t)
  obtain ⟨hg, hregs, hhost⟩ := u.setRing_shows r { g with consumed := min g.written (g.consumed + g.advance v.toNat) }
  rw [huh] at hhost
  rw [State.deliver_none (by rw [hhost, hb]), State.reportLost_none (by rw [hhost, hl])] at hexec
  refine State.gives_of_done t hexec ((hw.mono (by decide)).trans (hg.mono (by decide)))
    ⟨?_, (hrb.trans (State.regsBut_congr hregs _)).settle, g.advance v.toNat, g.advance_lt _, g.advance_reaches _ hlog, ?_⟩
  · rw [State.rd_settle, State.rd_congr hregs, hrd]
  · rw [State.settle_host, hhost]

/-! ### Coalesced messages -/

/-- A message that the mask holds back becomes pending; another goes out over the link of a host that is not GONE. -/
theorem State.msix_shows (x : State) (v : Nat) (hg : x.gone = false) (hp : x.mod.pcieUp = true) :
    (x.msix v).host.rings = x.host.rings ∧ (x.msix v).host.msix = (if x.msixWord (4 * v + 3) % 2 = 1 then x.host.msix
      else x.host.msix ++ [{ vector := v, addr := x.msixWord (4 * v) + 2 ^ 32 * x.msixWord (4 * v + 1), data := x.msixWord (4 * v + 2) }]) ∧
    (x.msixWord (4 * v + 3) % 2 = 1 → v ∈ (x.msix v).host.msixPend) := by
  unfold State.msix
  by_cases hm : x.msixWord (4 * v + 3) % 2 = 1
  · simp only [if_pos hm]
    exact ⟨trivial, trivial, fun _ => List.mem_cons_self⟩
  · simp only [if_neg hm, hg, hp, Bool.not_true, Bool.or_self, Bool.false_eq_true, if_false]
    exact ⟨trivial, trivial, fun h => absurd h hm⟩

section Coalesce

variable {r : Fin 9} {g : Ring} (hr : s.running = true) (h : KMap.find s.host.rings r = some g)
include hr h

theorem exec_msixCoalesceTimeout : exec (.msixCoalesceTimeout t r) s =
    if 0 < g.unsig ∧ g.unsigAt + g.timeUs * 1000 ≤ max s.now t then
      done (((s.at' t).setRing r { g with unsig := 0 }).msix (ringVector r)) else done (s.at' t) := by
  have hexec : exec (.msixCoalesceTimeout t r) s = match KMap.find (s.at' t).host.rings r with
      | none => done (s.at' t)
      | some g => if (s.at' t).running && decide (0 < g.unsig ∧ g.unsigAt + g.timeUs * 1000 ≤ (s.at' t).now) then
          done (((s.at' t).setRing r { g with unsig := 0 }).msix (ringVector r)) else done (s.at' t) := rfl
  rw [hexec, State.at'_host, h]
  simp only [State.running_at', hr, State.now_at', Bool.true_and, decide_eq_true_eq]

/-- R84: the time of the first unsignalled entry has run out: the ring is signalled. -/
theorem msixCoalesceTimeout_signals (hu : 0 < g.unsig) (hd : g.unsigAt + g.timeUs * 1000 ≤ max s.now t) (hg : s.gone = false)
    (hp : s.mod.pcieUp = true) :
    let v := if (r : Nat) = 8 then 0 else (r : Nat) + 1
    let word := fun k => s.msixWord (4 * v + k)
    s.gives (.msixCoalesceTimeout t r) [.host] fun s' => KMap.find s'.host.rings r = some { g with unsig := 0 } ∧
      s'.host.msix = (if word 3 % 2 = 1 then s.host.msix
        else s.host.msix ++ [{ vector := v, addr := word 0 + 2 ^ 32 * word 1, data := word 2 }]) ∧
      (word 3 % 2 = 1 → v ∈ s'.host.msixPend) := by
  intro v word
  have hexec := (exec_msixCoalesceTimeout (t := t) hr h).trans (if_pos ⟨hu, hd⟩)
  obtain ⟨hf, hregs, hhost⟩ := (s.at' t).setRing_shows r { g with unsig := 0 }
  rw [State.at'_host] at hhost
  rw [State.at'_regs] at hregs
  have hmod := Eq.trans (hf.2 .mod (by decide)) (s.at'_mod t)
  generalize (s.at' t).setRing r { g with unsig := 0 } = u at *
  have hword : ∀ k, u.msixWord k = s.msixWord k := fun k => by rw [State.msixWord, hhost, State.msixWord]
  obtain ⟨h1, h2, h3⟩ := u.msix_shows v (by rw [State.gone, State.fld_congr hregs, ← State.gone, hg])
    (by rw [show u.mod = s.mod from hmod, hp])
  have hm : u.sameBut (u.msix v) [.host] := by simp
  refine State.gives_of_done t hexec (hf.trans hm) ?_
  rw [hword, hhost] at h2
  rw [hword] at h3
  rw [State.settle_host, show u.msix (ringVector r) = u.msix v from rfl, h1, h2, hhost, hword, hword, hword]
  exact ⟨KMap.find_put_same _ _ _, rfl, h3⟩

/-- R84: before that nothing happens. -/
theorem msixCoalesceTimeout_early (hd : max s.now t < g.unsigAt + g.timeUs * 1000) : s.givesNothing (.msixCoalesceTimeout t r) :=
  State.givesNothing_of_done t ((exec_msixCoalesceTimeout hr h).trans (if_neg fun hu => absurd hu.2 (by omega)))

end Coalesce

/-! ### The claim -/

/-- Settles O38, clause by clause. -/
theorem hostAccesses : Obligations.HostAccesses := by
  unfold Obligations.HostAccesses
  intro s t hr
  exact ⟨fun w => hivRequest_ignored w hr, fun w => hivRequest_takes w hr, fun v => hostHeartbeatWrite_takes v hr,
    fun off n c va e hl h => ⟨bar2Read_gives hr hl h, bar2Read_aborts hr hl h⟩, fun off n e hl => bar2Read_denied hr hl,
    fun off d c va e hl h => ⟨bar2Write_writes hr hl h, bar2Write_aborts hr hl h⟩, fun off d e hl => bar2Write_denied hr hl,
    fun r v g => hostRingHeadWrite_consumes hr,
    fun r g h => ⟨msixCoalesceTimeout_signals hr h, msixCoalesceTimeout_early hr h⟩⟩

end Sys2Proof.Machine
end

section
/-! PROOF. What events and records change of the host interface: rings, backlog, counts and messages, and neither agreement, orders,
heartbeat nor mappings. -/

namespace Sys2Proof.Machine

variable {x y z : State}

/-- From `a` to `b` no more happens to the host interface than entries posted to it: no ring comes into being. -/
def HostIf.posted (a b : HostIf) : Prop :=
  b = { a with rings := b.rings, backlog := b.backlog, evtNumber := b.evtNumber, evtLostPending := b.evtLostPending, rate := b.rate
               msix := b.msix, msixPend := b.msixPend } ∧ (a.rings = [] → b.rings = [])

theorem HostIf.posted_refl (a : HostIf) : a.posted a := ⟨rfl, id⟩

theorem HostIf.posted.trans {a b c : HostIf} (hab : a.posted b) (hbc : b.posted c) : a.posted c :=
  ⟨by rw [hbc.1, hab.1], fun h => hbc.2 (hab.2 h)⟩

/-- What posted entries leave alone. -/
theorem HostIf.posted.keeps {a b : HostIf} (h : a.posted b) : b.agreed = a.agreed ∧ b.orders = a.orders ∧ b.bar2 = a.bar2 ∧
    b.hbLast = a.hbLast ∧ b.hbAt = a.hbAt ∧ b.hbRestart = a.hbRestart ∧ b.rrStart = a.rrStart ∧ b.nextOrder = a.nextOrder := by
  rw [h.1]
  exact ⟨rfl, rfl, rfl, rfl, rfl, rfl, rfl, rfl⟩

/-- From `x` to `y` entries are posted to the host interface, and no more happens to it. -/
def State.posts (x y : State) : Prop := x.host.posted y.host

theorem State.posts.trans (hxy : x.posts y) (hyz : y.posts z) : x.posts z := HostIf.posted.trans hxy hyz

theorem State.posts_of_host (h : y.host = x.host) : x.posts y := by
  rw [State.posts, h]
  exact HostIf.posted_refl _

theorem State.posts_msix (x : State) (v : Nat) : x.posts (x.msix v) := by
  unfold State.msix
  split
  · exact ⟨rfl, id⟩
  · split
    · exact ⟨rfl, id⟩
    · exact ⟨rfl, id⟩

/-- A ring that is in force changes. -/
theorem State.posts_putRing (x : State) {r : Nat} {g g' : Ring} (h : KMap.find x.host.rings r = some g) :
    x.host.posted { x.host with rings := KMap.put x.host.rings r g' } :=
  ⟨rfl, fun hn => by rw [hn] at h; exact absurd h (by simp)⟩

theorem State.posts_signalRing (x : State) (r : Nat) : x.posts (x.signalRing r) := by
  unfold State.signalRing
  split
  · exact HostIf.posted_refl _
  next g hg =>
    split
    · exact (State.posts_putRing x hg).trans (State.posts_msix _ _)
    · exact HostIf.posted_refl _

theorem State.posts_ringWrite (x : State) (r : Nat) (e : RingEntry) : x.posts (x.ringWrite r e) := by
  unfold State.ringWrite
  split
  · exact HostIf.posted_refl _
  next g hg => exact (State.posts_putRing x hg).trans (State.posts_signalRing _ _)

theorem State.posts_postEvent (x : State) (e : RingEntry) : x.posts (x.postEvent e) := by
  unfold State.postEvent
  split
  · split
    · exact ⟨rfl, id⟩
    · exact HostIf.posted_refl _
  · split
    · split
      · exact ⟨rfl, id⟩
      · exact HostIf.posted_refl _
    · split
      · exact HostIf.posted_refl _
      · split
        · exact x.posts_ringWrite _ _
        · exact ⟨rfl, id⟩

theorem State.posts_logWrite (x : State) (c : Nat) (d : List Nat) : x.posts (x.logWrite c d) :=
  State.posts_of_host ((x.logWrite_shows c d).1.2 .host (by decide))

theorem State.posts_raise (x : State) (c : Nat) (e : EvWords) (k : Nat) : x.posts (x.raise c e k) :=
  ((x.posts_postEvent _).trans (State.posts_logWrite _ _ _)).trans ⟨rfl, id⟩

/-! ### Records -/

theorem State.posts_jrn (x : State) (j : Journal) : x.posts { x with jrn := j } := State.posts_of_host rfl

theorem State.posts_journalFull (x : State) : x.posts x.journalFull := by
  have h : x.posts ((x.setBit R.LIN_JRN_STAT 0 true).latchHalt 3) := State.posts_of_host rfl
  unfold State.journalFull
  dsimp only
  split
  · split
    · exact h.trans ((State.posts_jrn _ _).trans (State.posts_raise _ _ _ _))
    · exact h
  · exact h.trans ((State.posts_jrn _ _).trans (State.posts_raise _ _ _ _))

theorem State.posts_sealBlock (x : State) (p q : Bool) : x.posts (x.sealBlock p q) := by
  have h : x.posts x.dropOldestBlock := by
    unfold State.dropOldestBlock
    split
    · exact HostIf.posted_refl _
    · split
      · exact HostIf.posted_refl _
      · dsimp only
        split
        · exact (x.posts_jrn _).trans (State.posts_journalFull _)
        · exact x.posts_jrn _
  exact h.trans (State.posts_jrn _ _)

theorem State.posts_pageRoom (x : State) (n : Nat) : x.posts (x.pageRoom n) := by
  unfold State.pageRoom
  split
  · exact HostIf.posted_refl _
  · split
    · exact (x.posts_jrn _).trans (State.posts_jrn _ _)
    · exact (x.posts_jrn _).trans (State.posts_sealBlock _ _ _)

theorem State.posts_journal (x : State) (typ n : Nat) (ws : List Nat) : x.posts (x.journal typ n ws) := by
  unfold State.journal
  have hroom : x.posts (if (x.pageRoom n).jrn.slot + n ≤ pageEnd (x.pageRoom n).jrn.page then x.pageRoom n
      else (x.pageRoom n).pageRoom n) := by
    split
    · exact x.posts_pageRoom n
    · exact (x.posts_pageRoom n).trans (State.posts_pageRoom _ n)
  dsimp only
  generalize (if (x.pageRoom n).jrn.slot + n ≤ pageEnd (x.pageRoom n).jrn.page then x.pageRoom n
    else (x.pageRoom n).pageRoom n) = w at hroom ⊢
  split
  · exact hroom.trans (State.posts_jrn _ _)
  · split
    · exact (hroom.trans (State.posts_jrn _ _)).trans (State.posts_jrn _ _)
    · exact ((hroom.trans (State.posts_jrn _ _)).trans (State.posts_jrn _ _)).trans (State.posts_sealBlock _ _ _)

theorem State.posts_journalEvent (x : State) (c k : Nat) (d : List Nat) : x.posts (x.journalEvent c k d) := x.posts_journal _ _ _

theorem State.records_journalEvent (x : State) (c k : Nat) (d : List Nat) : x.records (x.journalEvent c k d) := x.records_journal _ _ _

theorem State.records_fresh (x : State) : x.records x.fresh :=
  ⟨(State.sameBut_fresh (by decide)).mpr (x.sameBut_refl _), State.regsBut_congr rfl _⟩

/-- A code in the log and the journal posts no more than the journal's own events. -/
theorem State.logJournal_shows (x : State) (c : Nat) : x.records (x.logJournal c) ∧ x.posts (x.logJournal c) := by
  have hl : x.records (x.logWrite c (x.evWords c {})) :=
    ⟨(x.logWrite_shows c _).1.mono (by decide), fun a ha => x.regsBut_logWrite c _ a fun h => ha (List.mem_append_right _ h)⟩
  have hp := x.posts_logWrite c (x.evWords c {})
  rw [show x.logJournal c = ((x.logWrite c (x.evWords c {})).journalEvent c 0 (x.evWords c {})).fresh from rfl]
  generalize x.logWrite c (x.evWords c {}) = w at *
  have hj := w.records_journalEvent c 0 (x.evWords c {})
  have hq := w.posts_journalEvent c 0 (x.evWords c {})
  generalize w.journalEvent c 0 (x.evWords c {}) = u at *
  exact ⟨hl.trans (hj.trans u.records_fresh), hp.trans (hq.trans (State.posts_of_host rfl))⟩

end Sys2Proof.Machine
end

section
/-! PROOF. A scheduler with nothing to look after does nothing (R80, R325). -/

namespace Sys2Proof.Machine

variable {x y : State}

theorem State.schIdle_congr (h : y.sch = x.sch) (hi : x.schIdle) : y.schIdle := by
  unfold State.schIdle at *
  rwa [h]

/-- Only JOB contexts are selected. -/
theorem State.schedule_idle (h : x.schIdle) : x.schedule = x := by
  obtain ⟨hc, -⟩ := h
  have hpick : x.pick [] = none := by simp [State.pick, hc, State.candidate]
  unfold State.schedule
  split
  · rw [State.selectJobs, hpick]
  · rfl

theorem State.pourRetry_idle (h : x.schIdle) : x.pourRetry = x := by
  obtain ⟨-, hp⟩ := h
  simp [State.pourRetry, hp]

theorem State.refuseUnknown_known (h : ∀ o ∈ x.host.orders, opcodeKnown o.opcode = true) : x.refuseUnknown = x := by
  have hnil : x.host.orders.filter (fun o => !opcodeKnown o.opcode) = [] := List.filter_eq_nil_iff.mpr fun o ho => by simp [h o ho]
  rw [State.refuseUnknown, hnil, List.foldl_nil]

theorem State.startLineWork_started (h : x.boot.lineStarted = true) : x.startLineWork = x := by
  unfold State.startLineWork
  rw [h]
  rfl

end Sys2Proof.Machine
end

section
/-! PROOF. A tick of SCH (R70, R71, R80) and the loss of the host (R87, R88). -/

namespace Sys2Proof.Machine

variable {s x y z : State} {t : Nat}

theorem State.posts_setHiv (x : State) (st code : Nat) : x.posts (x.setHiv st code) := by
  unfold State.setHiv
  dsimp only
  have h : x.posts ((x.setFld R.GLB_HIV_STATUS 0 2 st).setFld R.GLB_HIV_STATUS 16 16 code) :=
    State.posts_of_host (by rw [State.setFld_host, State.setFld_host])
  split
  · exact h
  · exact h.trans (State.posts_msix _ _)

theorem State.posts_setPhase (x : State) (p : Nat) : x.posts (x.setPhase p) := by
  unfold State.setPhase
  split
  · exact HostIf.posted_refl _
  · exact (State.posts_of_host (State.setFld_host _ _ _ _ _)).trans (State.posts_msix _ _)

/-! ### The tick -/

theorem State.schUp_at' (s : State) (t : Nat) : (s.at' t).schUp = s.schUp := by
  rw [State.schUp, State.schUp, State.fwState, State.fwState, State.fld_at']

/-- The count of ticks. -/
def State.ticked (s : State) : State := s.wr64 R.CMD_TICKS (s.rd64 R.CMD_TICKS + 1)

theorem State.ticked_shows (x : State) : x.sameBut x.ticked [.regs] ∧ x.regsBut x.ticked [R.CMD_TICKS, R.CMD_TICKS + 4] :=
  ⟨by simp [State.ticked], fun a ha => State.rd_wr64_other _ _ (by simpa using ha)⟩

/-- What a tick collects, once it has judged handshake and heartbeat. -/
def State.collects (s : State) (asked : Bool) : State × Nat := if s.agreed && !asked then s.collect else (s, 0)

/-- The trace point a tick passes. -/
def State.tickTraced (s : State) (first n : Nat) : State := s.trace 0x01 2 (n + first * 65536)

/-- With line work started, what a tick does before it looks at pours and contexts. -/
theorem exec_schTick (hr : s.running = true) (hu : s.schUp = true) (hl : s.boot.lineStarted = true) :
    exec (.schTick t) s = done ((((((s.at' t).ticked.evalHiv.judgeHeartbeat).collects (s.bit R.GLB_HIV_HOST 31)).1.tickTraced
      ((s.at' t).ticked.evalHiv.judgeHeartbeat).host.rrStart
      ((((s.at' t).ticked.evalHiv.judgeHeartbeat).collects (s.bit R.GLB_HIV_HOST 31)).2)).refuseUnknown).pourRetry).schedule := by
  have hexec : exec (.schTick t) s = if !(s.at' t).running || !(s.at' t).schUp then done (s.at' t) else
      done ((((((s.at' t).ticked.startLineWork.evalHiv.judgeHeartbeat).collects ((s.at' t).ticked.bit R.GLB_HIV_HOST 31)).1.tickTraced
        ((s.at' t).ticked.startLineWork.evalHiv.judgeHeartbeat).host.rrStart
        ((((s.at' t).ticked.startLineWork.evalHiv.judgeHeartbeat).collects ((s.at' t).ticked.bit R.GLB_HIV_HOST 31)).2)).refuseUnknown).pourRetry).schedule := rfl
  have hbit : (s.at' t).ticked.bit R.GLB_HIV_HOST 31 = s.bit R.GLB_HIV_HOST 31 := by
    rw [(s.at' t).ticked_shows.2.bit (by decide), State.bit_at']
  have hst : (s.at' t).ticked.startLineWork = (s.at' t).ticked := State.startLineWork_started (by
    rw [show (s.at' t).ticked.boot = s.boot from Eq.trans ((s.at' t).ticked_shows.1.2 .boot (by decide)) (s.at'_boot t), hl])
  rw [hexec, State.running_at', State.schUp_at', hr, hu, if_neg (by decide), hbit, hst]

/-- A tick that collects `y`, with no pour and no context to look after and no unknown order, ends there. -/
theorem exec_schTick_ends {n : Nat} (hr : s.running = true) (hu : s.schUp = true) (hl : s.boot.lineStarted = true) (hi : s.schIdle)
    (hc : ((s.at' t).ticked.evalHiv.judgeHeartbeat).collects (s.bit R.GLB_HIV_HOST 31) = (y, n)) (hy : y.sch = s.sch)
    (ho : ∀ o ∈ y.host.orders, opcodeKnown o.opcode = true) :
    ∃ f, exec (.schTick t) s = done (y.tickTraced f n) ∧ y.sameBut (y.tickTraced f n) [.regs, .dbg] ∧
      y.regsBut (y.tickTraced f n) traceRegs := by
  have htr : ∀ f, y.sameBut (y.tickTraced f n) [.regs, .dbg] := fun f => by simp [State.tickTraced]
  have hexec := exec_schTick (t := t) hr hu hl
  rw [hc] at hexec
  dsimp only at hexec
  generalize ((s.at' t).ticked.evalHiv.judgeHeartbeat).host.rrStart = f at hexec
  refine ⟨f, ?_, htr f, State.regsBut_trace _ _ _ _⟩
  have hidle : (y.tickTraced f n).schIdle := State.schIdle_congr (Eq.trans ((htr f).2 .sch (by decide)) hy) hi
  rw [hexec, State.refuseUnknown_known (by rwa [show (y.tickTraced f n).host = y.host from (htr f).2 .host (by decide)]),
    State.pourRetry_idle hidle, State.schedule_idle hidle]

/-! ### The handshake agrees -/

theorem KMap.find_filter_keys {α : Type} (m : KMap α) (q : Nat → Bool) {k : Nat} (hk : q k = true) :
    KMap.find (m.filter fun e => q e.1) k = KMap.find m k := by
  induction m with
  | nil => rfl
  | cons e m ih =>
    obtain ⟨a, b⟩ := e
    by_cases ha : q a = true
    · rw [List.filter_cons_of_pos (by simpa using ha)]
      simp only [KMap.find, ih]
    · rw [List.filter_cons_of_neg (by simpa using ha), ih, KMap.find, if_neg (by rintro rfl; exact ha hk)]

/-- The window is zeroed, and rings and heartbeat start anew. -/
def State.agreeStart (s : State) : State :=
  { s with
    regs := s.regs.filter (fun e => !(decide (0x200000 ≤ e.1) && decide (e.1 < 0x240000)))
    boot := { s.boot with agreedOnce := true }
    host := { s.host with
      agreed := true, rings := [], rrStart := 0, hbLast := s.rd R.CMD_HOST_HB, hbAt := s.now, hbRestart := false
      orders := s.host.orders.map (fun o => { o with ring := none }) } }

theorem State.agreeStart_shows (x : State) : x.sameBut x.agreeStart [.regs, .boot, .host] ∧
    (∀ a, 0x240000 ≤ a ∨ a < 0x200000 → x.agreeStart.rd a = x.rd a) ∧
    x.agreeStart.host.agreed = true ∧ x.agreeStart.host.rings = [] ∧ x.agreeStart.host.hbLast = x.rd R.CMD_HOST_HB ∧
    x.agreeStart.host.hbAt = x.now ∧ x.agreeStart.host.hbRestart = false ∧
    x.agreeStart.host.orders = x.host.orders.map (fun o => { o with ring := none }) := by
  refine ⟨x.sameBut_mix x.agreeStart [.regs, .boot, .host], fun a ha => ?_, rfl, rfl, rfl, rfl, rfl, rfl⟩
  have h := KMap.find_filter_keys x.regs (fun k => !(decide (0x200000 ≤ k) && decide (k < 0x240000))) (k := a) (by simp; omega)
  simp only [State.rd, State.reg, KMap.getD, State.agreeStart, h]

/-- Every queue starts anew, and queue 0 is enabled. -/
def State.agreeQueues (s : State) : State :=
  (List.range 16).foldl (fun s q => s.wr (R.CMD_Q_HEAD q) (256 + (if q = 0 then 2 ^ 24 else 0))) s

/-- The heads of the queues. -/
def queueHeads : List Nat := (List.range 16).map R.CMD_Q_HEAD

theorem State.agreeQueues_shows (x : State) : x.sameBut x.agreeQueues [.regs] ∧ x.regsBut x.agreeQueues queueHeads ∧
    x.agreeQueues.rd (R.CMD_Q_HEAD 0) = 256 + 2 ^ 24 := by
  unfold State.agreeQueues
  refine ⟨?_, ?_, ?_⟩
  · exact List.foldlRecOn (motive := fun y => x.sameBut y [.regs]) _ _ (x.sameBut_refl _) fun y hy q _ => (State.sameBut_wr (by decide)).mpr hy
  · exact List.foldlRecOn (motive := fun y => x.regsBut y queueHeads) _ _ (x.regsBut_refl _) fun y hy q hq =>
      State.regsBut_wr hy (List.mem_map.mpr ⟨q, hq, rfl⟩)
  · rw [show List.range 16 = 0 :: List.range' 1 15 from rfl, List.foldl_cons]
    refine List.foldlRecOn (motive := fun y : State => y.rd (R.CMD_Q_HEAD 0) = 256 + 2 ^ 24) _ _ (State.rd_wr_same _ _ _) fun y hy q hq => ?_
    have h1 := (List.mem_range'_1.mp hq).1
    rw [State.rd_wr_other _ _ (by simp only [R.CMD_Q_HEAD]; omega), hy]

/-- Host state ATTACHED, handshake AGREED. -/
def State.agreeShown (s : State) : State := (s.agreeStart.agreeQueues.setFld R.CMD_HOST_STATE 0 2 1).setHiv 2 0

/-- A host that returns is reported. -/
def State.agreeRaised (s : State) : State := if s.gone then s.agreeShown.raise E_HOST_ATTACHED {} else s.agreeShown

theorem State.agree_eq (x : State) : x.agree = if x.agreeRaised.phase = 6 ∧ !x.agreeRaised.anyClass then x.agreeRaised.setPhase 7
    else x.agreeRaised := rfl

/-- Registers beside the window that an agreement may change. -/
def agreeRegs : List Nat := queueHeads ++ [R.CMD_HOST_STATE, R.GLB_HIV_STATUS, R.GLB_BOOT_STATUS] ++ raiseRegs

theorem State.agreeShown_shows (x : State) : x.sameBut x.agreeShown [.regs, .boot, .host] ∧
    (∀ a, 0x240000 ≤ a ∨ a < 0x200000 → a ∉ agreeRegs → x.agreeShown.rd a = x.rd a) ∧
    x.agreeStart.posts x.agreeShown ∧ x.agreeShown.fld R.GLB_HIV_STATUS 0 2 = 2 ∧ x.agreeShown.fld R.CMD_HOST_STATE 0 2 = 1 ∧
    x.agreeShown.rd (R.CMD_Q_HEAD 0) = 256 + 2 ^ 24 := by
  obtain ⟨hf, hr, -⟩ := x.agreeStart_shows
  obtain ⟨gf, gr, g0⟩ := x.agreeStart.agreeQueues_shows
  unfold State.agreeShown
  generalize x.agreeStart = u at *
  have hu : u.host = u.agreeQueues.host := (gf.2 .host (by decide)).symm
  generalize u.agreeQueues = v at *
  have kf : v.sameBut (v.setFld R.CMD_HOST_STATE 0 2 1) [.regs] := by simp
  have kr : v.regsBut (v.setFld R.CMD_HOST_STATE 0 2 1) [R.CMD_HOST_STATE] := State.regsBut_setFld (v.regsBut_refl _) (by simp)
  have k1 : (v.setFld R.CMD_HOST_STATE 0 2 1).fld R.CMD_HOST_STATE 0 2 = 1 := State.fld_setFld_same _ _ _ _ _ (by decide)
  have kh : (v.setFld R.CMD_HOST_STATE 0 2 1).host = v.host := rfl
  generalize v.setFld R.CMD_HOST_STATE 0 2 1 = w at *
  obtain ⟨lf, lr, l1, -⟩ := w.setHiv_shows (st := 2) (code := 0) (by decide)
  refine ⟨(hf.trans (gf.mono (by decide))).trans ((kf.mono (by decide)).trans (lf.mono (by decide))), fun a ha hm => ?_, ?_, l1, ?_, ?_⟩
  · simp only [agreeRegs, List.mem_append, List.mem_cons, not_or] at hm
    rw [lr a (by simp [hm]), kr a (by simp [hm]), gr a (by simp [hm]), hr a ha]
  · exact (State.posts_of_host (kh.trans hu.symm)).trans (State.posts_setHiv _ _ _)
  · rw [lr.fld (by decide), k1]
  · rw [lr _ (by decide), kr _ (by decide), g0]

/-- R70, R82: what an agreement shows. -/
theorem State.agree_shows (x : State) : x.sameBut x.agree [.free, .regs, .boot, .host, .hostMem, .dbg] ∧
    (∀ a, 0x240000 ≤ a ∨ a < 0x200000 → a ∉ agreeRegs → x.agree.rd a = x.rd a) ∧
    x.agreeStart.posts x.agree ∧ x.agree.fld R.GLB_HIV_STATUS 0 2 = 2 ∧ x.agree.fld R.CMD_HOST_STATE 0 2 = 1 ∧
    x.agree.rd (R.CMD_Q_HEAD 0) = 256 + 2 ^ 24 := by
  obtain ⟨hf, hr, hp, h1, h2, h3⟩ := x.agreeShown_shows
  have hra : x.agreeShown.sameBut x.agreeRaised raiseParts ∧ x.agreeShown.regsBut x.agreeRaised raiseRegs ∧ x.agreeShown.posts x.agreeRaised := by
    unfold State.agreeRaised
    split
    · exact ⟨(State.sameBut_raise fun _ h => h).mpr (State.sameBut_refl _ _), State.regsBut_raise _ _ _ _, State.posts_raise _ _ _ _⟩
    · exact ⟨State.sameBut_refl _ _, State.regsBut_refl _ _, HostIf.posted_refl _⟩
  obtain ⟨gf, gr, gp⟩ := hra
  have hph : x.agreeRaised.sameBut x.agree [.regs, .host] ∧ x.agreeRaised.regsBut x.agree [R.GLB_BOOT_STATUS] ∧ x.agreeRaised.posts x.agree := by
    rw [State.agree_eq]
    split
    · refine ⟨(State.sameBut_setPhase fun _ h => h).mpr (State.sameBut_refl _ _), fun a ha => State.rd_setPhase _ _ (by simpa using ha), ?_⟩
      exact State.posts_setPhase _ _
    · exact ⟨State.sameBut_refl _ _, State.regsBut_refl _ _, HostIf.posted_refl _⟩
  obtain ⟨kf, kr, kp⟩ := hph
  generalize x.agreeRaised = w at *
  generalize x.agree = u at *
  generalize x.agreeShown = v at *
  refine ⟨(hf.mono (by decide)).trans ((gf.mono (by decide)).trans (kf.mono (by decide))), fun a ha hm => ?_, hp.trans (gp.trans kp), ?_, ?_, ?_⟩
  · rw [kr a fun h => hm (by simp [agreeRegs]; simp at h; tauto), gr a fun h => hm (List.mem_append_right _ h), hr a ha hm]
  · rw [kr.fld (by decide), gr.fld (by decide), h1]
  · rw [kr.fld (by decide), gr.fld (by decide), h2]
  · rw [kr _ (by decide), gr _ (by decide), h3]

/-! ### A request is judged -/

/-- The versions that R70 lets agree. -/
def State.versionsMatch (s : State) : Prop := s.rd R.GLB_HIV_HOST / 256 % 256 = s.rd R.GLB_HIV_DEV / 256 % 256 ∧
  s.rd R.GLB_HIV_HOST / 65536 % 256 ≤ s.rd R.GLB_HIV_DEV % 256

/-- The request is judged: go is clear. -/
def State.hivTaken (s : State) : State := s.setBit R.GLB_HIV_HOST 31 false

/-- No agreement is in force. -/
def State.disagreed (s : State) : State := { s with host := { s.host with agreed := false } }

theorem State.evalHiv_idle (h : x.bit R.GLB_HIV_HOST 31 = false) : x.evalHiv = x := by
  unfold State.evalHiv
  rw [h]
  rfl

theorem State.evalHiv_agrees (h : x.bit R.GLB_HIV_HOST 31 = true) (hv : x.versionsMatch) : x.evalHiv = x.hivTaken.agree := by
  obtain ⟨h1, h2⟩ := hv
  unfold State.evalHiv
  dsimp only
  rw [h, if_neg (by decide), if_neg (by omega)]
  rfl

theorem State.evalHiv_refuses (h : x.bit R.GLB_HIV_HOST 31 = true) (hv : ¬ x.versionsMatch) :
    x.evalHiv = x.hivTaken.disagreed.setHiv 3 E_HIV_MISMATCH := by
  unfold State.evalHiv
  dsimp only
  rw [h, if_neg (by decide), if_pos (by unfold State.versionsMatch at hv; omega)]
  rfl

theorem State.hivTaken_shows (x : State) : x.sameBut x.hivTaken [.regs] ∧ x.regsBut x.hivTaken [R.GLB_HIV_HOST] ∧
    x.hivTaken.bit R.GLB_HIV_HOST 31 = false :=
  ⟨by simp [State.hivTaken], State.regsBut_setBit (x.regsBut_refl _) (by simp), State.bit_setBit_same _ _ _ _ (by decide)⟩

/-- The heartbeat has just been seen. -/
theorem State.judgeHeartbeat_fresh (hr : x.host.hbRestart = false) (hl : x.host.hbLast = x.rd R.CMD_HOST_HB) (hn : x.host.hbAt = x.now) :
    x.judgeHeartbeat = x := by
  unfold State.judgeHeartbeat
  rw [hr, hl, hn]
  split
  · rfl
  · rw [if_neg (by simp), if_neg (by simp [ms])]

theorem State.judgeHeartbeat_detached (h : x.attached = false) : x.judgeHeartbeat = x := by
  unfold State.judgeHeartbeat
  rw [h]
  rfl

/-- While a request is pending a tick collects nothing. -/
theorem State.collects_asked (x : State) : x.collects true = (x, 0) := by
  unfold State.collects
  rw [if_neg (by simp)]

section Tick

variable (hr : s.running = true) (hu : s.schUp = true) (hi : s.schIdle) (ho : s.host.orders = []) (hl : s.boot.lineStarted = true)
include hr hu hi ho hl

/-- R70, R82: matching versions agree. -/
theorem schTick_agrees (hg : s.bit R.GLB_HIV_HOST 31 = true) (hv : s.versionsMatch) :
    s.gives (.schTick t) [.free, .regs, .boot, .host, .hostMem, .dbg] fun s' =>
      s'.fld R.GLB_HIV_STATUS 0 2 = 2 ∧ s'.fld R.CMD_HOST_STATE 0 2 = 1 ∧ s'.agreed = true ∧ s'.bit R.GLB_HIV_HOST 31 = false ∧
      s'.host.rings = [] ∧ s'.fld (R.CMD_Q_HEAD 0) 0 25 = 2 ^ 24 + 256 ∧ s'.host.orders = [] := by
  obtain ⟨hf, hrb⟩ := (s.at' t).ticked_shows
  have hrd : ∀ a, a ∉ [R.CMD_TICKS, R.CMD_TICKS + 4] → (s.at' t).ticked.rd a = s.rd a := fun a ha => (hrb a ha).trans (s.rd_at' t a)
  have hhost : (s.at' t).ticked.host = s.host := Eq.trans (hf.2 .host (by decide)) (s.at'_host t)
  have hends := exec_schTick_ends (t := t) (y := (s.at' t).ticked.evalHiv.judgeHeartbeat) (n := 0) hr hu hl hi
    (by rw [hg, State.collects_asked])
  have hsch : (s.at' t).ticked.sch = s.sch := Eq.trans (hf.2 .sch (by decide)) (s.at'_sch t)
  generalize (s.at' t).ticked = w at *
  rw [State.evalHiv_agrees (by rw [State.bit, State.fld, hrd _ (by decide), ← State.fld, ← State.bit, hg])
    (by rw [State.versionsMatch, hrd _ (by decide), hrd _ (by decide)]; exact hv)] at hends
  obtain ⟨gf, gr, g0⟩ := w.hivTaken_shows
  have ghost : w.hivTaken.host = s.host := Eq.trans (gf.2 .host (by decide)) hhost
  have gsch : w.hivTaken.sch = s.sch := Eq.trans (gf.2 .sch (by decide)) hsch
  generalize w.hivTaken = v at *
  obtain ⟨kf, kr, kp, k1, k2, k3⟩ := v.agree_shows
  obtain ⟨p1, p2, -, p4, p5, p6, -⟩ := kp.keeps
  obtain ⟨-, -, q1, q2, q3, q4, q5, q6⟩ := v.agreeStart_shows
  have hrings := kp.2 q2
  rw [q1] at p1
  rw [q3] at p4
  rw [q4] at p5
  rw [q5] at p6
  have ksch : v.agree.sch = s.sch := Eq.trans (kf.2 .sch (by decide)) gsch
  have know : v.agree.now = v.now := kf.1
  have khb : v.agree.rd R.CMD_HOST_HB = v.rd R.CMD_HOST_HB := kr _ (by decide) (by decide)
  have kbit : v.agree.bit R.GLB_HIV_HOST 31 = false := by
    rw [State.bit, State.fld, kr _ (by decide) (by decide), ← State.fld, ← State.bit, g0]
  generalize v.agree = u at *
  rw [State.judgeHeartbeat_fresh p6 (p4.trans khb.symm) (p5.trans know.symm)] at hends
  have horders : u.host.orders = [] := by rw [p2, q6, ghost, ho, List.map_nil]
  obtain ⟨f, hexec, ef, er⟩ := hends ksch (by rw [horders]; exact fun o h => absurd h (List.not_mem_nil))
  have ehost : (u.tickTraced f 0).host = u.host := ef.2 .host (by decide)
  generalize u.tickTraced f 0 = q at *
  refine State.gives_of_done t hexec ((hf.mono (by decide)).trans ((gf.mono (by decide)).trans (kf.trans (ef.mono (by decide))))) ?_
  rw [State.fld_settle, State.fld_settle, State.fld_settle, State.bit_settle, State.agreed, State.settle_host, ehost, er.fld (by decide),
    er.fld (by decide), er.fld (by decide), er.bit (by decide)]
  exact ⟨k1, k2, p1, kbit, hrings, by rw [State.fld, k3]; rfl, horders⟩

/-- R70, R71: other versions are refused. -/
theorem schTick_refuses (hg : s.bit R.GLB_HIV_HOST 31 = true) (hv : ¬ s.versionsMatch) (ha : s.attached = false) :
    s.gives (.schTick t) [.regs, .host, .dbg] fun s' => s'.fld R.GLB_HIV_STATUS 0 2 = 3 ∧
      s'.fld R.GLB_HIV_STATUS 16 16 = E_HIV_MISMATCH ∧ s'.agreed = false := by
  obtain ⟨hf, hrb⟩ := (s.at' t).ticked_shows
  have hrd : ∀ a, a ∉ [R.CMD_TICKS, R.CMD_TICKS + 4] → (s.at' t).ticked.rd a = s.rd a := fun a ha => (hrb a ha).trans (s.rd_at' t a)
  have hends := exec_schTick_ends (t := t) (y := (s.at' t).ticked.evalHiv.judgeHeartbeat) (n := 0) hr hu hl hi
    (by rw [hg, State.collects_asked])
  have hsch : (s.at' t).ticked.sch = s.sch := Eq.trans (hf.2 .sch (by decide)) (s.at'_sch t)
  have hhost : (s.at' t).ticked.host = s.host := Eq.trans (hf.2 .host (by decide)) (s.at'_host t)
  generalize (s.at' t).ticked = w at *
  rw [State.evalHiv_refuses (by rw [State.bit, State.fld, hrd _ (by decide), ← State.fld, ← State.bit, hg])
    (by rw [State.versionsMatch, hrd _ (by decide), hrd _ (by decide)]; exact hv)] at hends
  obtain ⟨gf, gr, -⟩ := w.hivTaken_shows
  have gsch : w.hivTaken.sch = s.sch := Eq.trans (gf.2 .sch (by decide)) hsch
  have gatt : w.hivTaken.fld R.CMD_HOST_STATE 0 2 = s.fld R.CMD_HOST_STATE 0 2 := by
    rw [gr.fld (by decide), State.fld, hrd _ (by decide), ← State.fld]
  have ghost : w.hivTaken.host = s.host := Eq.trans (gf.2 .host (by decide)) hhost
  generalize w.hivTaken = v at *
  have df : v.sameBut v.disagreed [.host] := v.sameBut_host _
  have dregs : v.disagreed.regs = v.regs := rfl
  have dhost : v.disagreed.host = { v.host with agreed := false } := rfl
  generalize v.disagreed = d at *
  obtain ⟨kf, kr, k1, k2⟩ := d.setHiv_shows (st := 3) (code := E_HIV_MISMATCH) (by decide)
  have kp : d.posts (d.setHiv 3 E_HIV_MISMATCH) := State.posts_setHiv _ _ _
  obtain ⟨p1, p2, -⟩ := kp.keeps
  rw [dhost, ghost] at p1 p2
  rw [State.judgeHeartbeat_detached (by rw [State.attached, kr.fld (by decide), State.fld_congr dregs, gatt]; exact ha)] at hends
  have ksch : (d.setHiv 3 E_HIV_MISMATCH).sch = s.sch := Eq.trans (kf.2 .sch (by decide)) (Eq.trans (df.2 .sch (by decide)) gsch)
  generalize d.setHiv 3 E_HIV_MISMATCH = u at *
  obtain ⟨f, hexec, ef, er⟩ := hends ksch (by rw [p2]; simp [ho])
  have ehost : (u.tickTraced f 0).host = u.host := ef.2 .host (by decide)
  generalize u.tickTraced f 0 = q at *
  refine State.gives_of_done t hexec ((hf.mono (by decide)).trans ((gf.mono (by decide)).trans
    ((df.mono (by decide)).trans ((kf.mono (by decide)).trans (ef.mono (by decide)))))) ?_
  rw [State.fld_settle, State.fld_settle, State.agreed, State.settle_host, ehost, er.fld (by decide), er.fld (by decide)]
  exact ⟨k1, k2, p1⟩

end Tick

end Sys2Proof.Machine
end

section
/-! PROOF. A tick of SCH collects the order its queue expects (R79, R80). -/

namespace Sys2Proof.Machine

variable {s x y z : State} {t q : Nat} {o : Order}

/-! ### The order in the next slot -/

/-- The queues and their heads: the words that finding an order reads. -/
def State.queuesSame (x y : State) : Prop := ∀ a, 0x200000 ≤ a → a < 0x240050 → y.rd a = x.rd a

theorem State.nextOrder_congr (h : x.queuesSame y) (hq : q < 16) : y.nextOrder q = x.nextOrder q := by
  have hh : y.rd (R.CMD_Q_HEAD q) = x.rd (R.CMD_Q_HEAD q) := h _ (by simp only [R.CMD_Q_HEAD]; omega) (by simp only [R.CMD_Q_HEAD]; omega)
  have hslot : ∀ k, k < 64 → y.rd (0x200000 + q * 0x4000 + x.rd (R.CMD_Q_HEAD q) % 256 * 0x40 + k) =
      x.rd (0x200000 + q * 0x4000 + x.rd (R.CMD_Q_HEAD q) % 256 * 0x40 + k) := by
    intro k hk
    have := Nat.mod_lt (x.rd (R.CMD_Q_HEAD q)) (show 0 < 256 by decide)
    exact h _ (by omega) (by omega)
  have hargs : (List.range 14).map (fun i => y.rd (0x200000 + q * 0x4000 + x.rd (R.CMD_Q_HEAD q) % 256 * 0x40 + 8 + 4 * i)) =
      (List.range 14).map (fun i => x.rd (0x200000 + q * 0x4000 + x.rd (R.CMD_Q_HEAD q) % 256 * 0x40 + 8 + 4 * i)) := by
    refine List.map_congr_left fun i hi => ?_
    have := List.mem_range.mp hi
    rw [Nat.add_assoc _ 8, hslot _ (by omega)]
  have h0 := hslot 0 (by decide)
  rw [Nat.add_zero] at h0
  unfold State.nextOrder
  dsimp only
  rw [hh, h0, hslot 4 (by decide), hargs]

theorem State.nextOrder_some (h : x.nextOrder q = some o) : o.queue = q ∧ o.seq < 65536 := by
  unfold State.nextOrder at h
  dsimp only at h
  split at h
  · rw [Option.some.injEq] at h
    subst h
    exact ⟨rfl, Nat.mod_lt _ (by decide)⟩
  · exact absurd h (by simp)

theorem State.mayCollect_congr (hr : y.host.rings = x.host.rings) (hb : y.host.backlog = x.host.backlog)
    (ho : y.host.orders = x.host.orders) (o : Order) : y.mayCollect o = x.mayCollect o := by
  have hfree : ∀ r, y.ringFree r = x.ringFree r := fun r => by
    unfold State.ringFree State.reserved
    rw [hr, ho]
  unfold State.mayCollect
  dsimp only
  rw [hr, hb, hfree]

/-! ### It is taken -/

/-- The sequence number after an order's. -/
def Order.nextSeq (o : Order) : Nat := if o.seq = 0xFFFF then 1 else o.seq + 1

/-- The head of an order's queue goes on. -/
def State.queueNext (s : State) (o : Order) : State :=
  s.wr (R.CMD_Q_HEAD o.queue) (putBits (putBits (s.rd (R.CMD_Q_HEAD o.queue)) 0 8 (s.rd (R.CMD_Q_HEAD o.queue) + 1)) 8 16 o.nextSeq)

/-- An order is open. -/
def State.addOrder (s : State) (o : Order) : State :=
  { s with host := { s.host with orders := s.host.orders ++ [{ o with id := s.host.nextOrder }], nextOrder := s.host.nextOrder + 1 } }

theorem State.addOrder_shows (x : State) (o : Order) : x.sameBut (x.addOrder o) [.host] ∧ (x.addOrder o).regs = x.regs ∧
    (x.addOrder o).host.orders = x.host.orders ++ [{ o with id := x.host.nextOrder }] := ⟨x.sameBut_host _, rfl, rfl⟩

theorem State.take_eq (x : State) (o : Order) : x.take o = (x.queueNext o).addOrder o := rfl

theorem State.take_shows (x : State) (o : Order) : x.sameBut (x.take o) [.regs, .host] ∧ x.regsBut (x.take o) [R.CMD_Q_HEAD o.queue] ∧
    (x.take o).rd (R.CMD_Q_HEAD o.queue) =
      putBits (putBits (x.rd (R.CMD_Q_HEAD o.queue)) 0 8 (x.rd (R.CMD_Q_HEAD o.queue) + 1)) 8 16 o.nextSeq % 2 ^ 32 ∧
    (x.take o).host.orders = x.host.orders ++ [{ o with id := x.host.nextOrder }] := by
  have hf : x.sameBut (x.queueNext o) [.regs] := by simp [State.queueNext]
  have hr : x.regsBut (x.queueNext o) [R.CMD_Q_HEAD o.queue] := State.regsBut_wr (x.regsBut_refl _) (by simp)
  have hrd : (x.queueNext o).rd (R.CMD_Q_HEAD o.queue) = _ := State.rd_wr_same _ _ _
  have hh : (x.queueNext o).host = x.host := hf.2 .host (by decide)
  rw [State.take_eq]
  generalize x.queueNext o = w at *
  obtain ⟨gf, gr, go⟩ := w.addOrder_shows o
  rw [hh] at go
  exact ⟨(hf.mono (by decide)).trans (gf.mono (by decide)), hr.trans (State.regsBut_congr gr _), (State.rd_congr gr _).trans hrd, go⟩

/-- Taking an order from the same queues leaves the same queues. -/
theorem State.queuesSame.take (h : x.queuesSame y) (hq : o.queue < 16) : (x.take o).queuesSame (y.take o) := by
  intro a h1 h2
  obtain ⟨-, hxr, hxq, -⟩ := x.take_shows o
  obtain ⟨-, hyr, hyq, -⟩ := y.take_shows o
  by_cases ha : a = R.CMD_Q_HEAD o.queue
  · rw [ha, hxq, hyq, h _ (by simp only [R.CMD_Q_HEAD]; omega) (by simp only [R.CMD_Q_HEAD]; omega)]
  · rw [hxr a (by simpa using ha), hyr a (by simpa using ha), h a h1 h2]

/-- The queue goes on to the next slot and sequence number. -/
theorem State.head_take (x : State) (hs : o.seq < 65536) :
    (x.take o).fld (R.CMD_Q_HEAD o.queue) 0 8 = (x.fld (R.CMD_Q_HEAD o.queue) 0 8 + 1) % 256 ∧
    (x.take o).fld (R.CMD_Q_HEAD o.queue) 8 16 = o.nextSeq := by
  have hseq : o.nextSeq < 2 ^ 16 := by
    unfold Order.nextSeq
    split <;> omega
  obtain ⟨-, -, hrd, -⟩ := x.take_shows o
  simp only [State.fld, hrd]
  rw [field_mod32 _ _ _ (by decide), field_mod32 _ _ _ (by decide), field_putBits_other _ _ _ _ _ _ (.inl (by decide)),
    field_putBits_same, field_putBits_same, Nat.mod_eq_of_lt hseq]
  omega

/-- With one order to take, a queue gives it and no more. -/
theorem State.collectQueue_one {n : Nat} (h : x.nextOrder q = some o) (hm : x.mayCollect o = true) (hn : (x.take o).nextOrder q = none) :
    x.collectQueue q (n + 2) = (x.take o, 1) := by
  rw [State.collectQueue, h]
  dsimp only
  rw [if_pos hm, State.collectQueue, hn]

/-! ### The round of the queues -/

/-- A tick visits the `i`-th queue from `first`. -/
def State.visit (first : Nat) (a : State × Nat) (i : Nat) : State × Nat :=
  if a.1.bit (R.CMD_Q_HEAD ((first + i) % 16)) 24 then
    ((a.1.collectQueue ((first + i) % 16) (min 16 (64 - a.2))).1, a.2 + (a.1.collectQueue ((first + i) % 16) (min 16 (64 - a.2))).2)
  else a

/-- The next round starts one queue on. -/
def State.nextRound (s : State) (first : Nat) : State := { s with host := { s.host with rrStart := (first + 1) % 16 } }

theorem State.nextRound_shows (x : State) (f : Nat) : x.sameBut (x.nextRound f) [.host] ∧ (x.nextRound f).regs = x.regs ∧
    (x.nextRound f).host.orders = x.host.orders := ⟨x.sameBut_host _, rfl, rfl⟩

theorem State.collect_eq (x : State) : x.collect = ((((List.range 16).foldl (State.visit x.host.rrStart) (x, 0)).1).nextRound x.host.rrStart,
    ((List.range 16).foldl (State.visit x.host.rrStart) (x, 0)).2) := rfl

/-- With one queue enabled, and one order in it, a round takes that order. -/
theorem State.collect_one (hq : q < 16) (hb : ∀ k, k < 16 → (x.bit (R.CMD_Q_HEAD k) 24 = true ↔ k = q)) (h : x.nextOrder q = some o)
    (hm : x.mayCollect o = true) (hn : (x.take o).nextOrder q = none) : x.collect = ((x.take o).nextRound x.host.rrStart, 1) := by
  have hqueue := (State.nextOrder_some h).1
  have hkeep : ∀ k, k < 16 → k ≠ q → (x.take o).bit (R.CMD_Q_HEAD k) 24 = false := by
    intro k hk hkq
    rw [(x.take_shows o).2.1.bit (by rw [hqueue, List.mem_singleton]; simp only [R.CMD_Q_HEAD]; omega), Bool.eq_false_iff]
    exact fun ht => hkq ((hb k hk).mp ht)
  have hround : ∀ n, n ≤ 16 → (List.range n).foldl (State.visit x.host.rrStart) (x, 0) =
      if ∃ i < n, (x.host.rrStart + i) % 16 = q then (x.take o, 1) else (x, 0) := by
    intro n
    induction n with
    | zero => exact fun _ => by simp
    | succ n ih =>
      intro hn16
      have hlt : (x.host.rrStart + n) % 16 < 16 := Nat.mod_lt _ (by decide)
      rw [List.range_succ, List.foldl_append, ih (by omega), List.foldl_cons, List.foldl_nil]
      by_cases hbefore : ∃ i < n, (x.host.rrStart + i) % 16 = q
      · have hne : (x.host.rrStart + n) % 16 ≠ q := by
          obtain ⟨i, hi, he⟩ := hbefore
          omega
        have hafter : ∃ i < n + 1, (x.host.rrStart + i) % 16 = q := by
          obtain ⟨i, hi, he⟩ := hbefore
          exact ⟨i, by omega, he⟩
        rw [if_pos hbefore, if_pos hafter, State.visit, hkeep _ hlt hne, if_neg (by decide)]
      · rw [if_neg hbefore]
        by_cases hnow : (x.host.rrStart + n) % 16 = q
        · rw [if_pos ⟨n, by omega, hnow⟩, State.visit, hnow, if_pos ((hb q hq).mpr rfl)]
          dsimp only
          rw [show min 16 (64 - 0) = 14 + 2 from rfl, State.collectQueue_one h hm hn, Nat.zero_add]
        · have hnone : ¬ ∃ i < n + 1, (x.host.rrStart + i) % 16 = q := by
            rintro ⟨i, hi, he⟩
            obtain hi | rfl := Nat.lt_succ_iff_lt_or_eq.mp hi
            · exact hbefore ⟨i, hi, he⟩
            · exact hnow he
          have hoff : x.bit (R.CMD_Q_HEAD ((x.host.rrStart + n) % 16)) 24 = false := by
            rw [Bool.eq_false_iff]
            exact fun ht => hnow ((hb _ hlt).mp ht)
          rw [if_neg hnone, State.visit, hoff, if_neg (by decide)]
  have hsome : ∃ i < 16, (x.host.rrStart + i) % 16 = q := ⟨(q + 16 - x.host.rrStart % 16) % 16, Nat.mod_lt _ (by decide), by omega⟩
  rw [State.collect_eq, hround 16 (by decide), if_pos hsome]

/-- A changed heartbeat is noted, and no more. -/
theorem State.judgeHeartbeat_changed (h : x.rd R.CMD_HOST_HB ≠ x.host.hbLast) : ∃ l n r,
    x.judgeHeartbeat = { x with host := { x.host with hbLast := l, hbAt := n, hbRestart := r } } := by
  unfold State.judgeHeartbeat
  split
  · exact ⟨x.host.hbLast, x.host.hbAt, x.host.hbRestart, rfl⟩
  · rw [if_pos (by simp [h])]
    exact ⟨_, _, _, rfl⟩

/-- R79, R80: a tick collects the order its queue expects. -/
theorem schTick_collects (hr : s.running = true) (hu : s.schUp = true) (hi : s.schIdle) (ho : s.host.orders = [])
    (hl : s.boot.lineStarted = true) (hg : s.bit R.GLB_HIV_HOST 31 = false) (ha : s.agreed = true) (hq : q < 16)
    (hh : s.rd R.CMD_HOST_HB ≠ s.host.hbLast) (hb : ∀ k, k < 16 → (s.bit (R.CMD_Q_HEAD k) 24 = true ↔ k = q))
    (hn : s.nextOrder q = some o) (hm : s.mayCollect o = true) (hk : opcodeKnown o.opcode = true) (hend : (s.take o).nextOrder q = none) :
    s.gives (.schTick t) [.regs, .host, .dbg] fun s' => s'.host.orders = [{ o with id := s.host.nextOrder }] ∧
      s'.fld (R.CMD_Q_HEAD q) 0 8 = (s.fld (R.CMD_Q_HEAD q) 0 8 + 1) % 256 ∧
      s'.fld (R.CMD_Q_HEAD q) 8 16 = (if o.seq = 0xFFFF then 1 else o.seq + 1) := by
  obtain ⟨hqueue, hseq⟩ := State.nextOrder_some hn
  obtain ⟨hf, hrb⟩ := (s.at' t).ticked_shows
  have hrd : ∀ a, a ∉ [R.CMD_TICKS, R.CMD_TICKS + 4] → (s.at' t).ticked.rd a = s.rd a := fun a ha => (hrb a ha).trans (s.rd_at' t a)
  have hsch : (s.at' t).ticked.sch = s.sch := Eq.trans (hf.2 .sch (by decide)) (s.at'_sch t)
  have hhost : (s.at' t).ticked.host = s.host := Eq.trans (hf.2 .host (by decide)) (s.at'_host t)
  have hends := fun y => exec_schTick_ends (t := t) (y := y) (n := 1) hr hu hl hi
  generalize (s.at' t).ticked = w at *
  rw [State.evalHiv_idle (by rw [State.bit, State.fld, hrd _ (by decide), ← State.fld, ← State.bit, hg])] at hends
  obtain ⟨l, n, r, hj⟩ := w.judgeHeartbeat_changed (by rw [hrd _ (by decide), hhost]; exact hh)
  have jf : w.sameBut w.judgeHeartbeat [.host] := hj ▸ w.sameBut_host _
  have jregs : w.judgeHeartbeat.regs = w.regs := by rw [hj]
  have jhost : w.judgeHeartbeat.host = { s.host with hbLast := l, hbAt := n, hbRestart := r } := by rw [hj, hhost]
  generalize w.judgeHeartbeat = v at *
  have hvrd : ∀ a, a ∉ [R.CMD_TICKS, R.CMD_TICKS + 4] → v.rd a = s.rd a := fun a ha => (State.rd_congr jregs a).trans (hrd a ha)
  have hsame : s.queuesSame v := fun a h1 h2 => hvrd a (by
    simp only [R.CMD_TICKS, List.mem_cons, List.not_mem_nil, or_false]
    omega)
  have hcollect := State.collect_one (x := v) (o := o) hq (fun k hk => by
    rw [State.bit, State.fld, hsame _ (by simp only [R.CMD_Q_HEAD]; omega) (by simp only [R.CMD_Q_HEAD]; omega), ← State.fld, ← State.bit]
    exact hb k hk) ((State.nextOrder_congr hsame hq).trans hn)
    ((State.mayCollect_congr (by rw [jhost]) (by rw [jhost]) (by rw [jhost]) o).trans hm)
    ((State.nextOrder_congr (hsame.take (by omega)) hq).trans hend)
  have hcs : v.collects (s.bit R.GLB_HIV_HOST 31) = ((v.take o).nextRound v.host.rrStart, 1) := by
    rw [State.collects, hg, State.agreed, jhost]
    dsimp only
    rw [show s.host.agreed = true from ha, if_pos (by decide), hcollect, jhost]
  obtain ⟨tf, tr, trd, tord⟩ := v.take_shows o
  obtain ⟨h1, h2⟩ := v.head_take hseq
  rw [hqueue] at h1 h2
  obtain ⟨hrf, hrr, hro⟩ := (v.take o).nextRound_shows v.host.rrStart
  generalize (v.take o).nextRound v.host.rrStart = u at *
  have horders : u.host.orders = [{ o with id := s.host.nextOrder }] := by
    rw [hro, tord, jhost]
    dsimp only
    rw [ho, List.nil_append]
  have usch : u.sch = s.sch := Eq.trans (hrf.2 .sch (by decide)) (Eq.trans (tf.2 .sch (by decide)) (Eq.trans (jf.2 .sch (by decide)) hsch))
  obtain ⟨f, hexec, ef, er⟩ := hends u hcs usch (by
    rw [horders]
    intro p hp
    rw [List.mem_singleton.mp hp]
    exact hk)
  have ehost : (u.tickTraced f 1).host = u.host := ef.2 .host (by decide)
  generalize u.tickTraced f 1 = e at *
  refine State.gives_of_done t hexec ((hf.mono (by decide)).trans ((jf.mono (by decide)).trans ((tf.mono (by decide)).trans
    ((hrf.mono (by decide)).trans (ef.mono (by decide)))))) ?_
  have hhead : ∀ lo w, e.fld (R.CMD_Q_HEAD q) lo w = (v.take o).fld (R.CMD_Q_HEAD q) lo w := fun lo w => by
    rw [er.fld (by simp only [traceRegs, R.CMD_Q_HEAD, R.DBG_TRACE_WR, R.DBG_TRACE_STAT, List.mem_cons, List.not_mem_nil, or_false]; omega),
      State.fld_congr hrr]
  rw [State.settle_host, ehost, State.fld_settle, State.fld_settle, hhead, hhead, h1, h2, State.fld,
    hsame _ (by simp only [R.CMD_Q_HEAD]; omega) (by simp only [R.CMD_Q_HEAD]; omega), ← State.fld]
  exact ⟨horders, rfl, rfl⟩

end Sys2Proof.Machine
end

section
/-! PROOF. The host is lost (R87, R88). -/

namespace Sys2Proof.Machine

variable {s x y z : State} {t : Nat}

theorem exec_hostLoss (hr : s.running = true) (hu : s.schUp = true) : exec (.hostLoss t) s = done (s.at' t).judgeHeartbeat := by
  have hexec : exec (.hostLoss t) s = if (s.at' t).running && (s.at' t).schUp then done (s.at' t).judgeHeartbeat else done (s.at' t) := rfl
  rw [hexec, State.running_at', State.schUp_at', hr, hu, if_pos (by decide)]

/-- Attached, with the heartbeat as it was, the 500 ms decide. -/
theorem State.judgeHeartbeat_same (ha : x.attached = true) (hh : x.rd R.CMD_HOST_HB = x.host.hbLast) (hr : x.host.hbRestart = false) :
    x.judgeHeartbeat = if x.host.hbAt + 500000000 ≤ x.now then x.hostGone else x := by
  unfold State.judgeHeartbeat
  rw [ha, hh, hr, if_neg (by decide), if_neg (by simp)]
  rfl

theorem State.hostTransfers_congr (h : y.fab = x.fab) : y.hostTransfers = x.hostTransfers := by
  unfold State.hostTransfers State.lHost State.hostPage State.leaf
  rw [h]

/-! ### GONE -/

/-- Host state GONE, and the loss counted. -/
def State.goneShown (s : State) : State := (s.setFld R.CMD_HOST_STATE 0 2 2).inc R.CMD_HOST_LOSSES

theorem State.goneShown_shows (x : State) : x.sameBut x.goneShown [.regs] ∧ x.goneShown.fld R.CMD_HOST_STATE 0 2 = 2 ∧
    x.goneShown.rd R.CMD_HOST_LOSSES = (x.rd R.CMD_HOST_LOSSES + 1) % 2 ^ 32 := by
  unfold State.goneShown State.inc
  refine ⟨by simp, ?_, ?_⟩
  · exact (State.fld_wr_other _ _ _ _ (by decide)).trans (State.fld_setFld_same _ _ _ _ _ (by decide))
  · rw [State.rd_wr_same, State.rd_setFld_other _ _ _ _ (by decide)]

/-- BAR2 is unmapped. -/
def State.bar2Gone (s : State) : State := { s with host := { s.host with bar2 := [] } }

/-- The pages that rested on the host tier are lost. -/
def State.tierLost (s : State) : State :=
  { s with fab := { s.fab with pt2 := s.fab.pt2.map (fun e => if e.2.onHost then (e.1, { e.2 with tier := 3, back := false }) else e) } }

/-- The mappings and the host tier's pages are gone, and the agreement: neither registers nor the bytes of device memory change. -/
theorem State.unmapped_shows (x : State) : x.sameBut x.bar2Gone.tierLost [.host, .fab] ∧ x.bar2Gone.tierLost.regs = x.regs ∧
    x.bar2Gone.tierLost.host.bar2 = [] ∧ x.bar2Gone.tierLost.fab.dram = x.fab.dram :=
  ⟨x.sameBut_mix x.bar2Gone.tierLost [.host, .fab], rfl, rfl, rfl⟩

theorem State.disagreed_shows (x : State) : x.sameBut x.disagreed [.host] ∧ x.disagreed.regs = x.regs ∧
    x.disagreed.host.agreed = false ∧ x.disagreed.host.bar2 = x.host.bar2 := ⟨x.sameBut_host _, rfl, rfl, rfl⟩

/-- The host tier is no more. -/
def State.tierGone (s : State) : State := (s.wr64 R.MEM_HOST_TIER_BASE 0).wr R.MEM_HOST_TIER_SIZE 0

theorem State.tierGone_shows (x : State) : x.sameBut x.tierGone [.regs] ∧
    x.regsBut x.tierGone [R.MEM_HOST_TIER_BASE, R.MEM_HOST_TIER_BASE + 4, R.MEM_HOST_TIER_SIZE] ∧ x.tierGone.rd R.MEM_HOST_TIER_SIZE = 0 := by
  refine ⟨by simp [State.tierGone], ?_, State.rd_wr_same _ _ _⟩
  exact State.regsBut_wr (State.regsBut_wr (State.regsBut_wr (x.regsBut_refl _) (by simp)) (by simp)) (by simp)

/-- Context 0 is no JOB context. -/
theorem filter_noJob (p : Nat × Ctx → Bool) : [(0, ({} : Ctx))].filter (fun e => e.2.cls == 2 && p e) = [] := rfl

/-- With no JOB context and no transfer to or from host memory, the loss of the host stops at the host tier. -/
theorem State.hostGone_eq (hc : x.sch.ctxs = [(0, {})]) (ht : x.hostTransfers = []) :
    x.hostGone = (((x.goneShown.bar2Gone.tierLost.tierGone.disagreed).setHiv 0 0).logJournal E_HOST_GONE).schedule := by
  have hctx : x.goneShown.sch.ctxs = [(0, {})] := by rw [State.goneShown, State.inc_sch, State.setFld_sch, hc]
  have htr : x.goneShown.hostTransfers = [] := (State.hostTransfers_congr (by rw [State.goneShown, State.inc_fab, State.setFld_fab])).trans ht
  have hend : x.goneShown.bar2Gone.tierLost.tierGone.sch.ctxs = [(0, {})] := hctx
  have hgone : x.hostGone = (let lost := (x.goneShown.sch.ctxs.filter (fun e => e.2.cls == 2 &&
        (x.goneShown.onTier e.1 || x.goneShown.hostTransfers.any (fun h => h.2 == e.1)))).map Prod.fst
      let s4 := lost.foldl (fun s x => s.ctxFail x E_HOST_GONE)
        ((x.goneShown.hostTransfers.map Prod.fst).foldl State.hostAbort x.goneShown.bar2Gone).tierLost.tierGone
      ((((((s4.sch.ctxs.filter (fun e => e.2.cls == 2 && e.2.st != 6)).map Prod.fst).foldl (fun s x => s.chillAll x) s4).disagreed).setHiv 0 0).logJournal
        E_HOST_GONE).schedule) := rfl
  rw [hgone]
  dsimp only
  rw [htr, hctx, filter_noJob, List.map_nil, List.map_nil, List.foldl_nil, List.foldl_nil, hend, filter_noJob, List.map_nil, List.foldl_nil]

/-- R87, R88: 500 ms without a changed heartbeat set GONE. -/
theorem hostLoss_loses (hr : s.running = true) (hu : s.schUp = true) (hi : s.schIdle) (ha : s.attached = true)
    (hh : s.rd R.CMD_HOST_HB = s.host.hbLast) (hs : s.host.hbRestart = false) (hd : s.host.hbAt + 500000000 ≤ max s.now t)
    (ht : s.hostTransfers = []) : ∃ s', exec (.hostLoss t) s = .next s' ∧ s'.fld R.CMD_HOST_STATE 0 2 = 2 ∧ s'.agreed = false ∧
      s'.host.bar2 = [] ∧ s'.rd R.MEM_HOST_TIER_SIZE = 0 ∧ s'.rd R.CMD_HOST_LOSSES = (s.rd R.CMD_HOST_LOSSES + 1) % 2 ^ 32 ∧
      s'.fab.dram = s.fab.dram := by
  have hexec := exec_hostLoss (t := t) hr hu
  rw [State.judgeHeartbeat_same ((s.attached_at' t).trans ha) (by rw [State.rd_at', State.at'_host, hh]) (by rw [State.at'_host, hs]),
    if_pos (by rw [State.at'_host, State.now_at']; exact hd),
    State.hostGone_eq (by rw [State.at'_sch]; exact hi.1) ((State.hostTransfers_congr (s.at'_fab t)).trans ht)] at hexec
  obtain ⟨hf, h1, h2⟩ := (s.at' t).goneShown_shows
  rw [State.rd_at'] at h2
  have hsch : (s.at' t).goneShown.sch = s.sch := Eq.trans (hf.2 .sch (by decide)) (s.at'_sch t)
  have hfab : (s.at' t).goneShown.fab = s.fab := Eq.trans (hf.2 .fab (by decide)) (s.at'_fab t)
  generalize (s.at' t).goneShown = v at *
  obtain ⟨uf, ur, ub, ud⟩ := v.unmapped_shows
  have usch := Eq.trans (uf.2 .sch (by decide)) hsch
  generalize v.bar2Gone.tierLost = u at *
  obtain ⟨tf, tr, t0⟩ := u.tierGone_shows
  have tsch := Eq.trans (tf.2 .sch (by decide)) usch
  have tb : u.tierGone.host.bar2 = [] := (congrArg HostIf.bar2 (tf.2 .host (by decide))).trans ub
  have td : u.tierGone.fab.dram = s.fab.dram := (congrArg Fabric.dram (tf.2 .fab (by decide))).trans (ud.trans (congrArg Fabric.dram hfab))
  generalize u.tierGone = w at *
  obtain ⟨df, dr, da, db⟩ := w.disagreed_shows
  have dsch := Eq.trans (df.2 .sch (by decide)) tsch
  have dd : w.disagreed.fab.dram = s.fab.dram := (congrArg Fabric.dram (df.2 .fab (by decide))).trans td
  generalize w.disagreed = d at *
  obtain ⟨kf, kr, -, -⟩ := d.setHiv_shows (st := 0) (code := 0) (by decide)
  have kp := d.posts_setHiv 0 0
  have ksch := Eq.trans (kf.2 .sch (by decide)) dsch
  have kd : (d.setHiv 0 0).fab.dram = s.fab.dram := (congrArg Fabric.dram (kf.2 .fab (by decide))).trans dd
  generalize d.setHiv 0 0 = k at *
  obtain ⟨⟨jf, jr⟩, jp⟩ := k.logJournal_shows E_HOST_GONE
  have jsch : (k.logJournal E_HOST_GONE).sch = s.sch := Eq.trans (jf.2 .sch (by decide)) ksch
  have jd : (k.logJournal E_HOST_GONE).fab.dram = s.fab.dram := (congrArg Fabric.dram (jf.2 .fab (by decide))).trans kd
  rw [State.schedule_idle (State.schIdle_congr jsch hi)] at hexec
  generalize k.logJournal E_HOST_GONE = e at *
  obtain ⟨pa, -, pb, -⟩ := (kp.trans jp).keeps
  have hregs : ∀ a, a ∉ journalRegs → a ∉ [R.GLB_HIV_STATUS] → e.rd a = w.rd a := fun a h1 h2 =>
    (jr a h1).trans ((kr a h2).trans (State.rd_congr dr a))
  have hold : ∀ a, a ∉ journalRegs → a ∉ [R.GLB_HIV_STATUS] →
      a ∉ [R.MEM_HOST_TIER_BASE, R.MEM_HOST_TIER_BASE + 4, R.MEM_HOST_TIER_SIZE] → e.rd a = v.rd a := fun a h1 h2 h3 =>
    (hregs a h1 h2).trans ((tr a h3).trans (State.rd_congr ur a))
  refine ⟨_, hexec, ?_⟩
  rw [State.fld_settle, State.agreed, State.settle_host, State.rd_settle, State.rd_settle, State.settle_fab, State.fld,
    hold _ (by decide) (by decide) (by decide), hregs R.MEM_HOST_TIER_SIZE (by decide) (by decide),
    hold _ (by decide) (by decide) (by decide)]
  exact ⟨h1, pa.trans da, pb.trans (db.trans tb), t0, h2, jd⟩

/-- R87: before that nothing happens. -/
theorem hostLoss_early (hr : s.running = true) (hu : s.schUp = true) (ha : s.attached = true) (hh : s.rd R.CMD_HOST_HB = s.host.hbLast)
    (hs : s.host.hbRestart = false) (hd : max s.now t < s.host.hbAt + 500000000) : s.givesNothing (.hostLoss t) := by
  have hexec := exec_hostLoss (t := t) hr hu
  rw [State.judgeHeartbeat_same ((s.attached_at' t).trans ha) (by rw [State.rd_at', State.at'_host, hh]) (by rw [State.at'_host, hs]),
    if_neg (by rw [State.at'_host, State.now_at']; omega)] at hexec
  exact State.givesNothing_of_done t hexec

/-! ### The claim -/

/-- Settles O39, clause by clause. -/
theorem schedulerTicks : Obligations.SchedulerTicks := by
  unfold Obligations.SchedulerTicks
  intro s t hr hu hi ho hl
  exact ⟨fun hg => ⟨schTick_agrees hr hu hi ho hl hg, schTick_refuses hr hu hi ho hl hg⟩,
    fun q o hg ha hq hh hb hn hm hk => schTick_collects hr hu hi ho hl hg ha hq hh hb hn hm hk,
    hostLoss_loses hr hu hi, hostLoss_early hr hu⟩

end Sys2Proof.Machine
end

section
/-! PROOF. Orders and their results (R81, R84, Table 4.5): an order that is ready runs, and the record of its result stands in its ring. -/

namespace Sys2Proof.Machine

variable {s x y z : State} {t : Nat} {o : Order}

/-! ### Words in memory -/

theorem Mem.readLE_writeWords_below (l : List Nat) : ∀ (m : Mem) {a b : Nat}, b + 4 ≤ a → Mem.readLE (Mem.writeWords m a l) b 4 = Mem.readLE m b 4 := by
  induction l with
  | nil => intro m a b _; rfl
  | cons w ws ih =>
    intro m a b h
    rw [Mem.writeWords, ih _ (by omega), Mem.readLE_writeLE_other _ _ _ _ _ _ (.inl h)]

/-- Word `i` of those written reads back. -/
theorem Mem.readLE_writeWords (l : List Nat) : ∀ (m : Mem) (a i : Nat), i < l.length →
    Mem.readLE (Mem.writeWords m a l) (a + 4 * i) 4 = nth l i 0 % 2 ^ 32 := by
  induction l with
  | nil => intro m a i h; exact absurd h (by simp)
  | cons w ws ih =>
    intro m a i h
    cases i with
    | zero => exact (Mem.readLE_writeWords_below ws _ (by omega)).trans (Mem.readLE_writeLE_same 4 _ _ _)
    | succ i =>
      rw [Mem.writeWords, show a + 4 * (i + 1) = a + 4 + 4 * i by omega, ih _ _ _ (by simpa using h)]
      rfl

/-! ### Entries of a ring -/

theorem State.msix_rings (x : State) (v : Nat) : (x.msix v).host.rings = x.host.rings := by
  unfold State.msix
  split
  · rfl
  · split <;> rfl

/-- Signalling a ring leaves the count of entries written. -/
theorem State.signalRing_written {r : Nat} {g : Ring} (h : KMap.find x.host.rings r = some g) :
    ∃ g', KMap.find (x.signalRing r).host.rings r = some g' ∧ g'.written = g.written := by
  unfold State.signalRing
  rw [h]
  dsimp only
  split
  · refine ⟨{ g with unsig := 0 }, ?_, rfl⟩
    rw [State.msix_rings]
    exact KMap.find_put_same _ _ _
  · exact ⟨g, h, rfl⟩

theorem State.signalRing_hostMem (x : State) (r : Nat) : (x.signalRing r).hostMem = x.hostMem := by
  unfold State.signalRing
  split
  · rfl
  · split
    · exact State.msix_hostMem _ _
    · rfl

theorem State.sameBut_signalRing (x : State) (r : Nat) : x.sameBut (x.signalRing r) [.host] := by
  unfold State.signalRing
  split
  · exact x.sameBut_refl _
  · split
    · exact (State.sameBut_msix (by decide)).mpr (x.sameBut_host _)
    · exact x.sameBut_refl _

/-- The entry stands in host memory, and the ring's next one follows it. -/
def State.ringPut (s : State) (r : Nat) (g : Ring) (e : RingEntry) : State :=
  { s with hostMem := Mem.writeWords s.hostMem (g.base + 32 * (g.written % 2 ^ g.log2)) (e.words (1 - (g.written / 2 ^ g.log2) % 2))
           host := { s.host with rings := KMap.put s.host.rings r { g with
             written := g.written + 1, unsig := g.unsig + 1, unsigAt := if g.unsig = 0 then s.now else g.unsigAt } } }

theorem State.ringWrite_eq {r : Nat} {g : Ring} (e : RingEntry) (h : KMap.find x.host.rings r = some g) :
    x.ringWrite r e = (x.ringPut r g e).signalRing r := by
  unfold State.ringWrite
  rw [h]
  rfl

theorem State.ringPut_shows (x : State) (r : Nat) (g : Ring) (e : RingEntry) : x.sameBut (x.ringPut r g e) [.host, .hostMem] ∧
    (x.ringPut r g e).hostMem = Mem.writeWords x.hostMem (g.base + 32 * (g.written % 2 ^ g.log2)) (e.words (1 - (g.written / 2 ^ g.log2) % 2)) ∧
    ∃ g', KMap.find (x.ringPut r g e).host.rings r = some g' ∧ g'.written = g.written + 1 :=
  ⟨x.sameBut_mix (x.ringPut r g e) [.host, .hostMem], rfl, _, KMap.find_put_same _ _ _, rfl⟩

theorem State.ringWrite_shows {r : Nat} {g : Ring} (e : RingEntry) (h : KMap.find x.host.rings r = some g) :
    x.sameBut (x.ringWrite r e) [.host, .hostMem] ∧ (∃ g', KMap.find (x.ringWrite r e).host.rings r = some g' ∧ g'.written = g.written + 1) ∧
    (x.ringWrite r e).hostMem = Mem.writeWords x.hostMem (g.base + 32 * (g.written % 2 ^ g.log2)) (e.words (1 - (g.written / 2 ^ g.log2) % 2)) := by
  rw [State.ringWrite_eq e h]
  obtain ⟨hf, hm, g', hg, hw⟩ := x.ringPut_shows r g e
  generalize x.ringPut r g e = w at *
  obtain ⟨g2, hg2, hw2⟩ := State.signalRing_written hg
  exact ⟨hf.trans ((w.sameBut_signalRing r).mono (by decide)), ⟨g2, hg2, hw2.trans hw⟩, (w.signalRing_hostMem r).trans hm⟩

theorem nth_first {α : Type} (a b c d e z : α) (l : List α) : nth (a :: b :: c :: d :: e :: l) 0 z = a ∧ nth (a :: b :: c :: d :: e :: l) 1 z = b ∧
    nth (a :: b :: c :: d :: e :: l) 2 z = c ∧ nth (a :: b :: c :: d :: e :: l) 3 z = d ∧ nth (a :: b :: c :: d :: e :: l) 4 z = e :=
  ⟨rfl, rfl, rfl, rfl, rfl⟩

/-- The words of an entry that tell of a result. -/
theorem RingEntry.words_first (e : RingEntry) (p : Nat) :
    nth (e.words p) 0 0 = e.seq % 65536 + e.opcode % 256 * 65536 + e.queue % 16 * 2 ^ 24 + e.kind % 4 * 2 ^ 28 + p % 2 * 2 ^ 31 ∧
    nth (e.words p) 1 0 = e.code % 65536 + e.ctx % 16 * 65536 ∧ nth (e.words p) 2 0 = e.tag % 2 ^ 32 ∧ nth (e.words p) 3 0 = e.v3 % 2 ^ 32 ∧
    nth (e.words p) 4 0 = e.v4 % 2 ^ 32 := by
  rw [RingEntry.words]
  exact nth_first _ _ _ _ _ _ _

/-! ### The result of an order -/

/-- The entry that records an order's result. -/
def State.resultEntry (s : State) (o : Order) (code ctx v3 v4 v5 : Nat) : RingEntry :=
  { seq := o.seq, opcode := o.opcode, queue := o.queue, kind := 0, code := code, ctx := ctx, tag := o.tag,
    v3 := v3, v4 := v4, v5 := v5, timeS := lo32 s.devS, timeNs := s.devNs }

theorem State.orderEnd_shows (x : State) (o : Order) : x.sameBut (x.orderEnd o) [.host] ∧ (x.orderEnd o).hostMem = x.hostMem ∧
    (x.orderEnd o).host.rings = x.host.rings ∧ (∀ p ∈ (x.orderEnd o).host.orders, p.id ≠ o.id) :=
  ⟨x.sameBut_host _, rfl, rfl, fun p hp => by simpa using (List.mem_filter.mp hp).2⟩

/-- The result of an order that can be answered goes to its ring. -/
theorem State.complete_eq {code ctx v3 v4 v5 r : Nat} {g : Ring} (hg : x.gone = false) (hr : o.ring = some r)
    (h : KMap.find x.host.rings r = some g) (hb : x.host.backlog.any (fun b => b.kind == 2) = false) :
    x.complete o code ctx v3 v4 v5 = (x.orderEnd o).ringWrite r (x.resultEntry o code ctx v3 v4 v5) := by
  have hend : KMap.find (x.orderEnd o).host.rings r = some g := by rw [x.orderEnd_shows o |>.2.2.1, h]
  have hc : x.complete o code ctx v3 v4 v5 = match (if x.gone then none else o.ring) with
      | none => (x.orderEnd o).backlogResult (x.resultEntry o code ctx v3 v4 v5)
      | some r =>
        if (KMap.find (x.orderEnd o).host.rings r).isNone then
          (x.orderEnd o).wr R.CMD_LAST_REFUSAL (code % 65536 + o.queue % 16 * 65536 + o.seq % 4096 * 2 ^ 20)
        else if x.host.backlog.any (fun b => b.kind == 2) then (x.orderEnd o).backlogResult (x.resultEntry o code ctx v3 v4 v5)
        else (x.orderEnd o).ringWrite r (x.resultEntry o code ctx v3 v4 v5) := rfl
  rw [hc, hg, hr, if_neg (by decide)]
  dsimp only
  rw [hend, hb, Option.isNone_some, if_neg (by decide), if_neg (by decide)]

/-- An order that can be answered is. -/
theorem State.complete_answers {code ctx v3 v4 v5 : Nat} (h : x.canAnswer o) :
    x.sameBut (x.complete o code ctx v3 v4 v5) [.host, .hostMem] ∧ x.answers (x.complete o code ctx v3 v4 v5) o code ctx v3 v4 := by
  obtain ⟨hg, ⟨r, g, hr, hf⟩, hb⟩ := h
  rw [State.complete_eq hg hr hf hb]
  obtain ⟨ef, em, er, ep⟩ := x.orderEnd_shows o
  generalize x.orderEnd o = w at *
  obtain ⟨wf, ⟨g', hg', hw'⟩, wm⟩ := State.ringWrite_shows (x.resultEntry o code ctx v3 v4 v5) ((congrArg (KMap.find · r) er).trans hf)
  have hp := w.posts_ringWrite r (x.resultEntry o code ctx v3 v4 v5)
  generalize w.ringWrite r (x.resultEntry o code ctx v3 v4 v5) = u at *
  refine ⟨(ef.mono (by decide)).trans wf, by rw [hp.keeps.2.1]; exact ep, r, g, g', hr, hf, hg', hw', ?_⟩
  have hword : ∀ i, i < 8 → Mem.readLE u.hostMem (g.base + 32 * (g.written % 2 ^ g.log2) + 4 * i) 4 =
      nth ((x.resultEntry o code ctx v3 v4 v5).words (1 - g.written / 2 ^ g.log2 % 2)) i 0 % 2 ^ 32 := fun i hi => by
    rw [wm]
    exact Mem.readLE_writeWords _ _ _ _ hi
  have hphase : 1 - g.written / 2 ^ g.log2 % 2 < 2 := by omega
  dsimp only
  generalize g.base + 32 * (g.written % 2 ^ g.log2) = a at *
  generalize 1 - g.written / 2 ^ g.log2 % 2 = p at *
  obtain ⟨e0, e1, e2, e3, e4⟩ := (x.resultEntry o code ctx v3 v4 v5).words_first p
  refine ⟨(hword 0 (by decide)).trans ?_, (hword 1 (by decide)).trans ?_, (hword 2 (by decide)).trans ?_, (hword 3 (by decide)).trans ?_,
    (hword 4 (by decide)).trans ?_⟩
  · rw [e0]
    simp only [State.resultEntry]
    omega
  · rw [e1]
    simp only [State.resultEntry]
    omega
  · rw [e2]
    exact Nat.mod_mod _ _
  · rw [e3]
    exact Nat.mod_mod _ _
  · rw [e4]
    exact Nat.mod_mod _ _

/-! ### An order that is ready -/

theorem State.orderReady_at' (s : State) (t q n op : Nat) : (s.at' t).orderReady q n op = s.orderReady q n op := by
  unfold State.orderReady
  rw [State.running_at', State.schUp_at', State.at'_host]

theorem State.orderRefusal_congr (h : y.sch = x.sch) (o : Order) : y.orderRefusal o = x.orderRefusal o := by
  unfold State.orderRefusal State.ctx
  rw [h]

/-- Order `o` has started. -/
def Order.running (o : Order) : Order := { o with started := true }

theorem State.orderStart_shows (x : State) (o : Order) : x.sameBut (x.orderStart o) [.host] ∧
    (x.orderStart o).host = { x.host with orders := x.host.orders.map (fun p => if p.id = o.id then p.running else p) } :=
  ⟨x.sameBut_host _, rfl⟩

/-- The state an order that starts runs in. -/
def State.started (s : State) (t : Nat) (o : Order) : State := (s.at' t).orderStart o

theorem State.started_shows (s : State) (t : Nat) (o : Order) : (s.at' t).sameBut (s.started t o) [.host] ∧
    (s.started t o).host = { s.host with orders := s.host.orders.map (fun p => if p.id = o.id then p.running else p) } := by
  obtain ⟨hf, hh⟩ := (s.at' t).orderStart_shows o
  rw [State.at'_host] at hh
  exact ⟨hf, hh⟩

theorem runOrder_runs {q : Fin 16} {seq : BitVec 16} {op : Nat} {body : State → Order → State} (h : s.orderReady q seq.toNat op = some o)
    (h0 : s.orderRefusal o = 0) : runOrder t q seq op body s = done (body (s.started t o) o.running) := by
  have hrun : runOrder t q seq op body s = match (s.at' t).orderReady q seq.toNat op with
      | none => done (s.at' t)
      | some o => if (s.started t o).orderRefusal o ≠ 0 then
            done ((s.started t o).complete o.running ((s.started t o).orderRefusal o) (if 64 ≤ op then o.ctx else 0))
          else done (body (s.started t o) o.running) := rfl
  have hsch : (s.started t o).sch = s.sch := Eq.trans ((s.started_shows t o).1.2 .sch (by decide)) (s.at'_sch t)
  rw [hrun, State.orderReady_at', h]
  dsimp only
  rw [State.orderRefusal_congr hsch, if_neg (not_not_intro h0)]

/-- Where the host's state, rings and backlog are the same, the same orders can be answered. -/
theorem State.canAnswer_congr (hs : y.fld R.CMD_HOST_STATE 0 2 = x.fld R.CMD_HOST_STATE 0 2) (hr : y.host.rings = x.host.rings)
    (hb : y.host.backlog = x.host.backlog) (h : x.canAnswer o) : y.canAnswer o := by
  unfold State.canAnswer State.gone at *
  rwa [hs, hr, hb]

/-- The same answer, told from another state whose rings are the same, once it is settled. -/
theorem State.answers.of {code ctx v3 v4 : Nat} (h : x.answers y o code ctx v3 v4) (hr : x.host.rings = s.host.rings) :
    s.answers y.settle o code ctx v3 v4 := by
  unfold State.answers at *
  rwa [← hr, State.settle_host, State.settle_hostMem]

/-- An order that starts, works a change `y` that leaves it its ring, and completes. -/
theorem State.gives_answer {c : Instr} {code ctx v3 v4 v5 : Nat} {l : List Part}
    (hc : exec c s = done (y.complete o.running code ctx v3 v4 v5)) (ha : s.canAnswer o) (hy : (s.at' t).sameBut y l)
    (hs : y.fld R.CMD_HOST_STATE 0 2 = s.fld R.CMD_HOST_STATE 0 2) (hr : y.host.rings = s.host.rings)
    (hb : y.host.backlog = s.host.backlog) (hl : .host ∈ l ∧ .hostMem ∈ l) :
    ∃ z, exec c s = .next z.settle ∧ s.keepsBut z.settle l ∧ y.sameBut z [.host, .hostMem] ∧ s.answers z.settle o code ctx v3 v4 := by
  obtain ⟨hf, hans⟩ := State.complete_answers (code := code) (ctx := ctx) (v3 := v3) (v4 := v4) (v5 := v5)
    (State.canAnswer_congr (o := o.running) hs hr hb ha)
  have hmono : ∀ p ∈ [Part.host, .hostMem], p ∈ l := by simp [hl]
  exact ⟨_, hc, (hy.trans (hf.mono hmono)).keepsBut, hf, hans.of hr⟩

theorem State.started_keeps (s : State) (t : Nat) (o : Order) : (s.started t o).fld R.CMD_HOST_STATE 0 2 = s.fld R.CMD_HOST_STATE 0 2 ∧
    (s.started t o).host.rings = s.host.rings ∧ (s.started t o).host.backlog = s.host.backlog ∧ (s.started t o).sch = s.sch ∧
    (s.started t o).regs = s.regs ∧ (s.started t o).boot = s.boot ∧ (s.started t o).fab = s.fab ∧ (s.started t o).stage = s.stage ∧
    (s.started t o).line = s.line := by
  obtain ⟨hf, hh⟩ := s.started_shows t o
  generalize s.started t o = w at *
  have hregs : w.regs = s.regs := Eq.trans (hf.2 .regs (by decide)) (s.at'_regs t)
  rw [hh]
  exact ⟨State.fld_congr hregs _ _ _, rfl, rfl, Eq.trans (hf.2 .sch (by decide)) (s.at'_sch t), hregs,
    Eq.trans (hf.2 .boot (by decide)) (s.at'_boot t), Eq.trans (hf.2 .fab (by decide)) (s.at'_fab t),
    Eq.trans (hf.2 .stage (by decide)) (s.at'_stage t), Eq.trans (hf.2 .line (by decide)) (s.at'_line t)⟩

end Sys2Proof.Machine
end

section
/-! PROOF. The orders that create, list and destroy contexts, ask for the factory state, and reset the device (Table 4.4, R317, R324, R67). -/

namespace Sys2Proof.Machine

variable {s x y z : State} {t : Nat} {o : Order}

/-- That an order has started changes none of its arguments. -/
theorem Order.only_running (o : Order) (ms : List Nat) : o.running.only ms = o.only ms := rfl

theorem Order.w_running (o : Order) : o.running.w = o.w := rfl

/-! ### Lists, the factory state and the reset -/

theorem State.ctxBits_congr (h : y.sch = x.sch) (f : Ctx → Bool) : y.ctxBits f = x.ctxBits f := by rw [State.ctxBits, h, State.ctxBits]

/-- An order of which nothing else is made than its result. -/
theorem State.gives_answerOnly {c : Instr} {code ctx v3 v4 v5 : Nat} {l : List Part}
    (hc : exec c s = done ((s.started t o).complete o.running code ctx v3 v4 v5)) (ha : s.canAnswer o) (hl : .host ∈ l ∧ .hostMem ∈ l) :
    ∃ z, exec c s = .next z.settle ∧ s.keepsBut z.settle l ∧ (s.started t o).sameBut z [.host, .hostMem] ∧
      s.answers z.settle o code ctx v3 v4 := by
  obtain ⟨h1, h2, h3, -⟩ := s.started_keeps t o
  exact State.gives_answer hc ha ((s.started_shows t o).1.mono (by simp [hl])) h1 h2 h3 hl

theorem ctxList_answers : ordersAs Instr.ctxList 0x07 (fun _ o => o.only [] = true) [.host, .hostMem] (fun s s' o =>
    s.answers s' o E_NONE 0 (s.ctxBits fun _ => true) (s.ctxBits fun c => c.st == 4)) := by
  intro s t q seq o hready h0 ha hok
  have hexec : exec (.ctxList t q seq) s = runOrder t q seq 0x07 (fun s o => if !o.only [] then s.complete o E_CMD_ARG
    else s.complete o E_NONE 0 (s.ctxBits (fun _ => true)) (s.ctxBits (fun c => c.st == 4))) s := rfl
  obtain ⟨-, -, -, hsch, -⟩ := s.started_keeps t o
  rw [runOrder_runs hready h0, if_neg (by rw [Order.only_running, hok]; decide), State.ctxBits_congr hsch,
    State.ctxBits_congr hsch] at hexec
  obtain ⟨z, hz, hk, -, hans⟩ := State.gives_answerOnly hexec ha (l := [.host, .hostMem]) (by decide)
  exact ⟨_, hz, hk, hans⟩

/-- The next boot goes to the factory state. -/
def State.factoryAsked (s : State) : State := { s with boot := { s.boot with factoryNext := true } }

theorem State.factoryAsked_shows (x : State) : x.sameBut x.factoryAsked [.boot] ∧ x.factoryAsked.regs = x.regs ∧
    x.factoryAsked.boot = { x.boot with factoryNext := true } ∧ x.factoryAsked.host = x.host :=
  ⟨x.sameBut_mix x.factoryAsked [.boot], rfl, rfl, rfl⟩

theorem factoryNext_answers : ordersAs Instr.factoryNext 0x08 (fun _ o => o.only [] = true) [.host, .hostMem, .boot] (fun s s' o =>
    s.answers s' o E_NONE 0 0 0 ∧ s'.boot = { s.boot with factoryNext := true }) := by
  intro s t q seq o hready h0 ha hok
  have hexec : exec (.factoryNext t q seq) s = runOrder t q seq 0x08 (fun s o => if !o.only [] then s.complete o E_CMD_ARG
    else s.factoryAsked.complete o E_NONE) s := rfl
  obtain ⟨h1, h2, h3, -, hregs, hboot, -⟩ := s.started_keeps t o
  rw [runOrder_runs hready h0, if_neg (by rw [Order.only_running, hok]; decide)] at hexec
  have hf := (s.started_shows t o).1
  generalize s.started t o = w at *
  obtain ⟨gf, gr, gb, gh⟩ := w.factoryAsked_shows
  obtain ⟨z, hz, hk, kf, hans⟩ := State.gives_answer (l := [.host, .hostMem, .boot]) hexec ha ((hf.mono (by decide)).trans (gf.mono (by decide)))
    ((State.fld_congr gr _ _ _).trans h1) (gh ▸ h2) (gh ▸ h3) (by decide)
  refine ⟨_, hz, hk, hans, ?_⟩
  rw [State.settle_boot, show z.boot = w.factoryAsked.boot from kf.2 .boot (by decide), gb, hboot]

theorem deviceReset_resets {q : Fin 16} {seq : BitVec 16} (hready : s.orderReady q seq.toNat 0x09 = some o) (h0 : s.orderRefusal o = 0)
    (hok : o.only [0xFFFFFFFF] = true) (hkey : o.w 2 = 0x5E7A0001) : ∃ s', exec (.deviceReset t q seq) s = .next s' ∧ s'.running = false ∧
      s'.mod.held = true ∧ s'.boot.nextCause = 5 ∧ s'.fab = {} ∧ s'.sch = {} ∧ s'.host.rings = [] := by
  have hexec : exec (.deviceReset t q seq) s = runOrder t q seq 0x09 (fun s o =>
    if !o.only [0xFFFFFFFF] ∨ o.w 2 ≠ 0x5E7A0001 then s.complete o E_CMD_ARG else (s.complete o E_NONE).failAndHold 0 5) s := rfl
  have hgo : ¬ ((!o.running.only [0xFFFFFFFF]) = true ∨ o.running.w 2 ≠ 0x5E7A0001) := by
    rw [Order.only_running, Order.w_running, hok, hkey]
    decide
  rw [runOrder_runs hready h0, if_neg hgo] at hexec
  obtain ⟨-, hboot, -, -, hreset, -⟩ := ((s.started t o).complete o.running E_NONE).failAndHold_keeps 0 5 (by decide)
  obtain ⟨hheld, -, -, -, -, -, hfab, hsch, -, -, hhost, -⟩ := hreset
  generalize ((s.started t o).complete o.running E_NONE).failAndHold 0 5 = w at *
  refine ⟨_, hexec, ?_⟩
  rw [State.running, State.settle_mod, State.settle_boot, State.settle_fab, State.settle_sch, State.settle_host, hheld, hhost]
  exact ⟨rfl, rfl, hboot, hfab, hsch, rfl⟩

/-! ### A context is created -/

/-- Context `x` is `c`. -/
theorem State.setCtx_shows (w : State) (i : Nat) (c : Ctx) : w.sameBut (w.setCtx i c) [.sch] ∧ (w.setCtx i c).ctx i = some c ∧
    (w.setCtx i c).regs = w.regs ∧ (w.setCtx i c).host = w.host :=
  ⟨w.sameBut_mix (w.setCtx i c) [.sch], KMap.find_put_same _ _ _, rfl, rfl⟩

theorem KMap.find_map {α β : Type} (m : KMap α) (f : Nat × α → β) (k : Nat) :
    KMap.find (m.map fun e => (e.1, f e)) k = (KMap.find m k).map fun v => f (k, v) := by
  induction m with
  | nil => rfl
  | cons e m ih =>
    obtain ⟨a, b⟩ := e
    rw [List.map_cons, KMap.find, KMap.find]
    split
    next h => rw [h, Option.map_some]
    · exact ih

/-- A context with the flasks it runs on. -/
def State.runsOn (s : State) (e : Nat × Ctx) : Ctx :=
  if e.2.cls = 1 then { e.2 with running := maskOf ((maskList e.2.mask).filter fun n => s.flasksUsed.contains n && (s.flask n).job.isNone) } else e.2

/-- The flasks a LINE context runs on are judged anew: nothing else of a context changes. -/
theorem State.lineRuns_shows (w : State) : w.sameBut w.lineRuns [.sch] ∧ w.lineRuns.regs = w.regs ∧ w.lineRuns.host = w.host ∧
    ∀ i c, w.ctx i = some c → ∃ r, w.lineRuns.ctx i = some { c with running := r } := by
  refine ⟨w.sameBut_mix w.lineRuns [.sch], rfl, rfl, fun i c hc => ?_⟩
  have hmap : w.lineRuns.sch.ctxs = w.sch.ctxs.map (fun e => (e.1, w.runsOn e)) := by
    refine List.map_congr_left fun e _ => ?_
    unfold State.runsOn
    split <;> rfl
  rw [State.ctx, hmap, KMap.find_map, show KMap.find w.sch.ctxs i = some c from hc, Option.map_some]
  unfold State.runsOn
  split
  · exact ⟨_, rfl⟩
  · exact ⟨c.running, rfl⟩

/-- The context an order asks for. -/
def Order.newCtx (o : Order) (mask : BitVec 32) : Ctx :=
  { cls := o.w 2 % 4, prio := o.w 2 / 16 % 8, slice := if o.w 2 % 4 = 2 ∧ o.w 3 = 0 then 1000 else o.w 3, mask := mask }

theorem Order.newCtx_running (o : Order) (mask : BitVec 32) : o.running.newCtx mask = o.newCtx mask := rfl

theorem State.maskFlasks_congr (h : y.regs = x.regs) (m : Nat) : y.maskFlasks m = x.maskFlasks m := by
  simp only [State.maskFlasks, State.flasksUsed, State.fld_congr h]

theorem State.freeCtx_congr (h : y.sch = x.sch) : y.freeCtx = x.freeCtx := by simp only [State.freeCtx, State.ctx, h]

theorem State.memFree_congr (h : y.sch = x.sch) : y.memFree = x.memFree := by rw [State.memFree, h, State.memFree]

theorem ctxCreate_answers : ordersAs Instr.ctxCreate 0x05 (fun s o =>
      let slice := o.w 3
      o.only [0x73, 0xFFFFFFFF, 0xFFFFFFFF] = true ∧ (o.w 2 % 4 = 1 ∧ slice = 0 ∨
        o.w 2 % 4 = 2 ∧ (slice = 0 ∨ 100 ≤ slice ∧ slice ≤ 100000 ∧ slice % 10 = 0)) ∧
      s.maskFlasks (o.w 4) ≠ 0 ∧ s.freeCtx.isSome ∧
      reserveUnits { cls := o.w 2 % 4, mask := s.maskFlasks (o.w 4) } * 65536 ≤ s.memFree)
    [.host, .hostMem, .sch] (fun s s' o => ∃ x c, s.freeCtx = some x ∧ s'.ctx x = some c ∧ s.answers s' o E_NONE 0 x 0 ∧
      c.cls = o.w 2 % 4 ∧ c.prio = o.w 2 / 16 % 8 ∧ c.mask = s.maskFlasks (o.w 4) ∧ c.st = 1 ∧ c.ranges = [] ∧
      c.slice = (if o.w 2 % 4 = 2 ∧ o.w 3 = 0 then 1000 else o.w 3)) := by
  rintro s t q seq o hready h0 ha ⟨honly, hslice, hmask, hfree, hmem⟩
  obtain ⟨i, hi⟩ := Option.isSome_iff_exists.mp hfree
  have hexec : exec (.ctxCreate t q seq) s = runOrder t q seq 0x05 (fun s o =>
    if !o.only [0x73, 0xFFFFFFFF, 0xFFFFFFFF] ∨ o.w 2 % 4 = 0 ∨ o.w 2 % 4 = 3 ∨
      ¬ (if o.w 2 % 4 = 1 then o.w 3 = 0 else o.w 3 = 0 ∨ (100 ≤ o.w 3 ∧ o.w 3 ≤ 100000 ∧ o.w 3 % 10 = 0)) ∨ s.maskFlasks (o.w 4) = 0
      then s.complete o E_CMD_ARG
    else match s.freeCtx with
      | none => s.complete o E_CMD_CTX
      | some x => if s.memFree < reserveUnits (o.newCtx (s.maskFlasks (o.w 4))) * 65536
        then s.complete o E_CMD_ARG 0 ((reserveUnits (o.newCtx (s.maskFlasks (o.w 4))) * 65536 - s.memFree + 65535) / 65536)
        else ((s.setCtx x (o.newCtx (s.maskFlasks (o.w 4)))).lineRuns).complete o E_NONE 0 x) s := rfl
  obtain ⟨h1, h2, h3, hsch, hregs, -⟩ := s.started_keeps t o
  have hf := (s.started_shows t o).1
  have hgo : ¬ ((!o.only [0x73, 0xFFFFFFFF, 0xFFFFFFFF]) = true ∨ o.w 2 % 4 = 0 ∨ o.w 2 % 4 = 3 ∨
      ¬ (if o.w 2 % 4 = 1 then o.w 3 = 0 else o.w 3 = 0 ∨ (100 ≤ o.w 3 ∧ o.w 3 ≤ 100000 ∧ o.w 3 % 10 = 0)) ∨ s.maskFlasks (o.w 4) = 0) := by
    rw [honly]
    obtain ⟨hc, hs⟩ | ⟨hc, hs⟩ := hslice
    · simpa [hc, hs] using hmask
    · simpa [hc, hs] using hmask
  rw [runOrder_runs hready h0] at hexec
  generalize s.started t o = w at *
  rw [State.maskFlasks_congr hregs, State.freeCtx_congr hsch, State.memFree_congr hsch, hi, Order.only_running, Order.w_running, if_neg hgo] at hexec
  dsimp only at hexec
  have hneed : ¬ s.memFree < reserveUnits (o.newCtx (s.maskFlasks (o.w 4))) * 65536 := Nat.not_lt.mpr hmem
  rw [Order.newCtx_running, if_neg hneed] at hexec
  obtain ⟨cf, cc, cr, ch⟩ := w.setCtx_shows i (o.newCtx (s.maskFlasks (o.w 4)))
  generalize w.setCtx i (o.newCtx (s.maskFlasks (o.w 4))) = v at *
  obtain ⟨lf, lr, lh, lc⟩ := v.lineRuns_shows
  obtain ⟨r, hr⟩ := lc i _ cc
  generalize v.lineRuns = u at *
  obtain ⟨z, hz, hk, kf, hans⟩ := State.gives_answer (l := [.host, .hostMem, .sch]) hexec ha
    ((hf.mono (by decide)).trans ((cf.mono (by decide)).trans (lf.mono (by decide))))
    ((State.fld_congr (lr.trans cr) _ _ _).trans h1) (by rw [lh, ch, h2]) (by rw [lh, ch, h3]) (by decide)
  refine ⟨_, hz, hk, i, { o.newCtx (s.maskFlasks (o.w 4)) with running := r }, hi, ?_, hans, rfl, rfl, rfl, rfl, rfl, rfl⟩
  rw [State.ctx, State.settle_sch, show z.sch = u.sch from kf.2 .sch (by decide)]
  exact hr

/-! ### A context is removed -/

theorem KMap.find_filter_none {α : Type} (m : KMap α) (q : Nat → Bool) {k : Nat} (hk : q k = false) :
    KMap.find (m.filter fun e => q e.1) k = none := by
  induction m with
  | nil => rfl
  | cons e m ih =>
    obtain ⟨a, b⟩ := e
    by_cases ha : q a = true
    · rw [List.filter_cons_of_pos (by simpa using ha), KMap.find, if_neg (by rintro rfl; exact Bool.false_ne_true (hk.symm.trans ha)), ih]
    · rw [List.filter_cons_of_neg (by simpa using ha), ih]

/-- From `x` to `y` no more happens than flasks let go of and regions forgotten: contexts stay but for what `c` runs and keeps. -/
def State.lets (x y : State) (c : Nat) : Prop := x.sameBut y [.fab, .regs, .sch] ∧
  y.fld R.CMD_HOST_STATE 0 2 = x.fld R.CMD_HOST_STATE 0 2 ∧ ∀ i, i ≠ c → y.ctx i = x.ctx i

theorem State.lets_refl (x : State) (c : Nat) : x.lets x c := ⟨x.sameBut_refl _, rfl, fun _ _ => rfl⟩

theorem State.lets.trans {c : Nat} (hxy : x.lets y c) (hyz : y.lets z c) : x.lets z c :=
  ⟨hxy.1.trans hyz.1, hyz.2.1.trans hxy.2.1, fun i hi => (hyz.2.2 i hi).trans (hxy.2.2 i hi)⟩

theorem State.lets_foldl {α : Type} {c : Nat} (f : State → α → State) (as : List α) (h : ∀ s : State, ∀ a ∈ as, s.lets (f s a) c) (x : State) :
    x.lets (as.foldl f x) c :=
  List.foldlRecOn (motive := fun y => x.lets y c) as f (x.lets_refl c) fun y hy a ha => hy.trans (h y a ha)

theorem State.lets_setFlask (x : State) (c n : Nat) (k : FlaskSt) : x.lets (x.setFlask n k) c :=
  ⟨(x.sameBut_mix (x.setFlask n k) [.sch]).mono (by decide), rfl, fun _ _ => rfl⟩

theorem State.lets_setCtx (x : State) (c : Nat) (d : Ctx) : x.lets (x.setCtx c d) c :=
  ⟨(x.setCtx_shows c d).1.mono (by decide), State.fld_congr (x.setCtx_shows c d).2.2.1 _ _ _, fun _ hi => KMap.find_put_other _ _ hi⟩

theorem State.lets_wr (x : State) (c : Nat) {a : Nat} (v : Nat) (h : R.CMD_HOST_STATE ≠ a) : x.lets (x.wr a v) c :=
  ⟨(State.sameBut_wr (by decide)).mpr (x.sameBut_refl _), State.fld_wr_other _ _ _ _ h, fun _ _ => rfl⟩

theorem State.lets_fab (x : State) (c : Nat) (b : Fabric) : x.lets { x with fab := b } c :=
  ⟨(x.sameBut_fab b).mono (by decide), State.fld_congr rfl _ _ _, fun _ _ => rfl⟩

theorem State.sameBut_sch (x : State) (d : Sched) : x.sameBut { x with sch := d } [.sch] := x.sameBut_mix { x with sch := d } [.sch]

theorem State.lets_sch (x : State) (c : Nat) (d : Sched) (h : d.ctxs = x.sch.ctxs) : x.lets { x with sch := d } c :=
  ⟨(x.sameBut_sch d).mono (by decide), State.fld_congr rfl _ _ _, fun i _ => congrArg (KMap.find · i) h⟩

theorem State.lets_releaseFlasks (x : State) (c : Nat) : x.lets (x.releaseFlasks c) c := by
  have hfold : x.lets (((x.jobFlasks c).filter (fun n => !(x.chilling c).contains n)).foldl (fun s n =>
      s.setFlask n { s.flask n with job := none, phase := 0, full := false }) x) c :=
    State.lets_foldl _ _ (fun s n _ => s.lets_setFlask c n _) x
  unfold State.releaseFlasks
  dsimp only
  split
  · exact hfold
  · exact hfold.trans (State.lets_setCtx _ _ _)

theorem State.lets_dropRegions (x : State) (c : Nat) {n : Nat} : x.lets (x.dropRegions n c) c := by
  refine .trans (State.lets_foldl _ (List.range 16) (fun s i hi => ?_) x) (State.lets_wr _ _ _ (by
    simp only [R.CMD_HOST_STATE, R.FLK_MOULD_USE]
    omega))
  dsimp only
  split
  · exact (s.lets_fab c _).trans (State.lets_wr _ _ _ (by simp only [R.CMD_HOST_STATE, R.FLK_REGION]; omega))
  · exact s.lets_refl c

theorem State.lets_forgetRegions (x : State) (c n : Nat) : x.lets (x.forgetRegions n c) c := by
  have h := x.lets_dropRegions c (n := n)
  unfold State.forgetRegions
  generalize x.dropRegions n c = w at *
  exact h.trans (w.lets_sch c _ rfl)

/-- The pages, banks, mappings, grants and programs of context `c` are no more. -/
def State.ctxGone (s : State) (c : Nat) : State :=
  { s with
    sch := { s.sch with ctxs := KMap.del s.sch.ctxs c, progs := s.sch.progs.filter (fun p => p.ctx != c)
                        pours := s.sch.pours.filter (fun p => p.ctx != c) }
    fab := { s.fab with pt4 := s.fab.pt4.filter (fun e => e.1 / 2 ^ 36 != c), pt2 := s.fab.pt2.filter (fun e => e.1 / 2 ^ 27 != c)
                        banks := s.fab.banks.filter (fun b => match KMap.find s.fab.bankOwner b.1 with | some o => o.1 != c | none => true)
                        bankOwner := s.fab.bankOwner.filter (fun b => b.2.1 != c) }
    chain := { s.chain with grants := s.chain.grants.filter (fun g => g.ctx != c) }
    host := { s.host with bar2 := s.host.bar2.filter (fun b => b.2.ctx != c) } }

theorem State.ctxGone_shows (x : State) (c : Nat) : x.sameBut (x.ctxGone c) [.sch, .fab, .chain, .host] ∧ (x.ctxGone c).regs = x.regs ∧
    (x.ctxGone c).host.rings = x.host.rings ∧ (x.ctxGone c).host.backlog = x.host.backlog ∧ (x.ctxGone c).ctx c = none ∧
    (∀ i, i ≠ c → (x.ctxGone c).ctx i = x.ctx i) ∧ ∀ va, va < 2 ^ 48 → (x.ctxGone c).leaf c va = none := by
  refine ⟨x.sameBut_mix (x.ctxGone c) [.sch, .fab, .chain, .host], rfl, rfl, rfl, KMap.find_del_same _ _, fun i hi => KMap.find_del_other _ hi,
    fun va hva => ?_⟩
  have h2 : KMap.find (x.ctxGone c).fab.pt2 (c * 2 ^ 27 + va / 2 ^ 21) = none :=
    KMap.find_filter_none x.fab.pt2 (fun k => k / 2 ^ 27 != c) (by simp; omega)
  have h4 : KMap.find (x.ctxGone c).fab.pt4 (c * 2 ^ 36 + va / 2 ^ 12) = none :=
    KMap.find_filter_none x.fab.pt4 (fun k => k / 2 ^ 36 != c) (by simp; omega)
  rw [State.leaf, h2]
  dsimp only
  rw [h4]

theorem State.ctxRemove_shows (x : State) (c : Nat) : x.sameBut (x.ctxRemove c) [.sch, .fab, .chain, .host, .regs] ∧
    (x.ctxRemove c).fld R.CMD_HOST_STATE 0 2 = x.fld R.CMD_HOST_STATE 0 2 ∧
    (x.ctxRemove c).host.rings = x.host.rings ∧ (x.ctxRemove c).host.backlog = x.host.backlog ∧ (x.ctxRemove c).ctx c = none ∧
    (∀ i, i ≠ c → (x.ctxRemove c).ctx i = x.ctx i) ∧ ∀ va, va < 2 ^ 48 → (x.ctxRemove c).leaf c va = none := by
  obtain ⟨hf, hs, hc⟩ := (x.lets_releaseFlasks c).trans
    (State.lets_foldl (fun s n => s.forgetRegions n c) (List.range 32) (fun s n _ => s.lets_forgetRegions c n) (x.releaseFlasks c))
  rw [show x.ctxRemove c = ((List.range 32).foldl (fun s n => s.forgetRegions n c) (x.releaseFlasks c)).ctxGone c from rfl]
  generalize (List.range 32).foldl (fun s n => s.forgetRegions n c) (x.releaseFlasks c) = w at *
  obtain ⟨gf, gr, g1, g2, g3, g4, g5⟩ := w.ctxGone_shows c
  have hhost : w.host = x.host := hf.2 .host (by decide)
  rw [hhost] at g1 g2
  exact ⟨(hf.mono (by decide)).trans (gf.mono (by decide)), (State.fld_congr gr _ _ _).trans hs, g1, g2, g3,
    fun i hi => (g4 i hi).trans (hc i hi), g5⟩

/-! ### A context is destroyed -/

theorem State.castCtx_congr (hr : y.regs = x.regs) (hs : y.stage = x.stage) : y.castCtx = x.castCtx := by
  have hrd : y.rd = x.rd := funext fun a => State.rd_congr hr a
  unfold State.castCtx
  rw [hs, State.fld_congr hr, hrd]

theorem State.namesCtx_congr (h : y.sch = x.sch) : y.namesCtx = x.namesCtx := by
  funext rd on i
  simp only [State.namesCtx, State.namedProgs, State.program, h]

theorem State.pinnedByCast_congr (hr : y.regs = x.regs) (hs : y.stage = x.stage) (h : y.sch = x.sch) (i : Nat) :
    y.pinnedByCast i = x.pinnedByCast i := by
  rw [State.pinnedByCast, State.castCtx_congr hr hs, State.namesCtx_congr h, State.pinnedByCast]

theorem State.pinnedLive_congr (hr : y.regs = x.regs) (hs : y.stage = x.stage) (h : y.sch = x.sch) (hl : y.line = x.line) (i : Nat) :
    y.pinnedLive i = x.pinnedLive i := by
  have hrd : y.rd = x.rd := funext fun a => State.rd_congr hr a
  have hcfg : y.cfg = x.cfg := by
    funext g a
    unfold State.cfg
    rw [hrd, hs]
  unfold State.pinnedLive State.gensUsed State.liveGen
  rw [hl, hrd, hcfg, State.namesCtx_congr h]

theorem State.orderReady_some {q n op : Nat} (h : s.orderReady q n op = some o) : o ∈ s.host.orders ∧ o.opcode = op := by
  unfold State.orderReady at h
  split at h
  · exact absurd h (by simp)
  · dsimp only at h
    split at h
    · exact absurd h (by simp)
    next p hp =>
      split at h
      next hc =>
        obtain rfl := Option.some.inj h
        exact ⟨(List.mem_filter.mp (List.mem_of_find?_eq_some hp)).1, hc.2.1⟩
      · exact absurd h (by simp)

theorem List.find?_of_unique {α : Type} {p : α → Bool} {a : α} {l : List α} (ha : a ∈ l) (hp : p a = true) (hu : ∀ b ∈ l, p b = true → b = a) :
    l.find? p = some a := by
  obtain ⟨b, hb⟩ := Option.isSome_iff_exists.mp (List.find?_isSome.mpr ⟨a, ha, hp⟩)
  rw [hb, hu b (List.mem_of_find?_eq_some hb) (List.find?_some hb)]

/-- The orders of a context that is destroyed: with the order to destroy it the only one, none completes with it. -/
theorem State.completeCtx_none {i code k : Nat} (h : ∀ p ∈ x.host.orders, 64 ≤ p.opcode → p.ctx ≠ i) : x.completeCtx i code (some k) = x := by
  have hnil : x.host.orders.filter (fun o => decide (64 ≤ o.opcode) && o.ctx == i && (some k != some o.id)) = [] := by
    refine List.filter_eq_nil_iff.mpr fun p hp => ?_
    by_cases h64 : 64 ≤ p.opcode
    · simp [h64, h p hp h64]
    · simp [h64]
  unfold State.completeCtx
  dsimp only
  rw [hnil, List.foldl_nil]

theorem State.stopPours_none {i code : Nat} (h : ∀ p ∈ x.sch.pours, p.ctx ≠ i) : x.stopPours i code = x := by
  have hnil : x.sch.pours.filter (fun p => p.ctx == i) = [] := List.filter_eq_nil_iff.mpr fun p hp => by simp [h p hp]
  unfold State.stopPours
  rw [hnil]
  rfl

theorem State.destroyCheck_now {i : Nat} (h : x.host.orders.find? (fun o => o.opcode == 6 && o.started && nth o.args 0 0 % 16 == i) = some o)
    (hi : x.ctxIssued i = false) (hc : x.chilling i = []) : x.destroyCheck i = (x.ctxRemove i).complete o E_NONE i := by
  unfold State.destroyCheck
  rw [h]
  dsimp only
  rw [hi, hc, if_neg (by simp)]

/-- The effect of the order. -/
def State.destroys (s : State) (o : Order) : State :=
  if !o.only [0xF] then s.complete o E_CMD_ARG
  else match s.ctx (o.w 2 % 16) with
    | none => s.complete o E_CMD_CTX
    | some c =>
      if o.w 2 % 16 = 0 ∨ c.restored then s.complete o E_CMD_CTX
      else if s.pinnedByCast (o.w 2 % 16) then s.complete o E_CAST_PENDING
      else if s.pinnedLive (o.w 2 % 16) then s.complete o E_CMD_CTX
      else ((s.completeCtx (o.w 2 % 16) E_CMD_CTX (some o.id)).stopPours (o.w 2 % 16) E_CMD_CTX).destroyCheck (o.w 2 % 16)

theorem State.destroys_eq {c : Ctx} (honly : o.only [0xF] = true) (h0 : o.w 2 % 16 ≠ 0) (hc : x.ctx (o.w 2 % 16) = some c)
    (hr : c.restored = false) (h1 : x.pinnedByCast (o.w 2 % 16) = false) (h2 : x.pinnedLive (o.w 2 % 16) = false) : x.destroys o =
      ((x.completeCtx (o.w 2 % 16) E_CMD_CTX (some o.id)).stopPours (o.w 2 % 16) E_CMD_CTX).destroyCheck (o.w 2 % 16) := by
  unfold State.destroys
  rw [honly, if_neg (by decide), hc]
  dsimp only
  rw [hr, if_neg (by simp [h0]), h1, if_neg (by decide), h2, if_neg (by decide)]

theorem State.ctx_congr (h : y.sch = x.sch) (i : Nat) : y.ctx i = x.ctx i := by rw [State.ctx, h, State.ctx]

theorem State.leaf_congr (h : y.fab = x.fab) (i va : Nat) : y.leaf i va = x.leaf i va := by
  unfold State.leaf
  rw [h]

/-- An order among those of which `o` starts is the one it was but for that. -/
theorem Order.startedAmong (o p : Order) : (if p.id = o.id then p.running else p).opcode = p.opcode ∧
    (if p.id = o.id then p.running else p).ctx = p.ctx ∧ (if p.id = o.id then p.running else p).args = p.args := by
  split
  · exact ⟨rfl, rfl, rfl⟩
  · exact ⟨rfl, rfl, rfl⟩

theorem ctxDestroy_answers : ordersAs Instr.ctxDestroy 0x06 (fun s o =>
      let x := o.w 2 % 16
      o.only [0xF] = true ∧ x ≠ 0 ∧ (∃ c, s.ctx x = some c ∧ c.restored = false) ∧ s.pinnedByCast x = false ∧ s.pinnedLive x = false ∧
      s.ctxIssued x = false ∧ s.chilling x = [] ∧ (∀ p ∈ s.sch.pours, p.ctx ≠ x) ∧
      s.host.orders.filter (fun p => p.ctx == x || p.opcode == 6) = [o])
    [.host, .hostMem, .sch, .fab, .regs, .chain] (fun s s' o =>
      let x := o.w 2 % 16
      s.answers s' o E_NONE x 0 0 ∧ s'.ctx x = none ∧ (∀ y, y ≠ x → s'.ctx y = s.ctx y) ∧
      ∀ va, va < 2 ^ 48 → s'.leaf x va = none) := by
  rintro s t q seq o hready h0 ha ⟨honly, hx0, ⟨c, hc, hcr⟩, hcast, hlive, hissued, hchill, hpours, honlyo⟩
  have hexec : exec (.ctxDestroy t q seq) s = runOrder t q seq 0x06 State.destroys s := rfl
  obtain ⟨hmem, hop⟩ := State.orderReady_some hready
  obtain ⟨h1, h2, h3, hsch, hregs, -, hfab, hstage, hline⟩ := s.started_keeps t o
  obtain ⟨hf, hhost⟩ := s.started_shows t o
  rw [runOrder_runs hready h0] at hexec
  generalize s.started t o = w at *
  have hmine : ∀ p ∈ s.host.orders, (p.ctx == o.w 2 % 16 || p.opcode == 6) = true → p = o := fun p hp hq =>
    List.mem_singleton.mp (honlyo ▸ List.mem_filter.mpr ⟨hp, hq⟩)
  have hnone : ∀ p ∈ w.host.orders, 64 ≤ p.opcode → p.ctx ≠ o.w 2 % 16 := by
    rw [hhost]
    intro p hp h64 hctx
    obtain ⟨r, hr, rfl⟩ := List.mem_map.mp hp
    obtain ⟨hopcode, hctxr, -⟩ := o.startedAmong r
    rw [hctxr] at hctx
    rw [hopcode, hmine r hr (by simp [hctx]), hop] at h64
    exact absurd h64 (by decide)
  have hfind : w.host.orders.find? (fun p => p.opcode == 6 && p.started && nth p.args 0 0 % 16 == o.w 2 % 16) = some o.running := by
    have hself : (if o.id = o.id then o.running else o) = o.running := if_pos rfl
    rw [hhost, List.find?_map, List.find?_of_unique (a := o) hmem, Option.map_some, hself]
    · rw [Function.comp_apply, hself]
      simp [Order.running, hop, Order.w, nth]
    · intro p hp hq
      obtain ⟨hopcode, -, -⟩ := o.startedAmong p
      rw [Function.comp_apply, hopcode] at hq
      simp only [Bool.and_eq_true] at hq
      exact hmine p hp (by rw [hq.1.1, Bool.or_true])
  rw [State.destroys_eq (o := o.running) ((o.only_running _).trans honly) (by rw [Order.w_running]; exact hx0)
    (by rw [Order.w_running, State.ctx, hsch]; exact hc) hcr
    (by rw [Order.w_running, State.pinnedByCast_congr hregs hstage hsch, hcast])
    (by rw [Order.w_running, State.pinnedLive_congr hregs hstage hsch hline, hlive]),
    Order.w_running, State.completeCtx_none hnone, State.stopPours_none (by rw [hsch]; exact hpours), State.destroyCheck_now hfind
    (by rw [State.ctxIssued, hfab]; exact hissued) (by simp only [State.chilling, State.jobFlasks, State.flask, hsch]; exact hchill)] at hexec
  obtain ⟨rf, r1, r2, r3, r4, r5, r6⟩ := w.ctxRemove_shows (o.w 2 % 16)
  generalize w.ctxRemove (o.w 2 % 16) = u at *
  obtain ⟨z, hz, hk, kf, hans⟩ := State.gives_answer (l := [.host, .hostMem, .sch, .fab, .regs, .chain]) hexec ha
    ((hf.mono (by decide)).trans (rf.mono (by decide))) (r1.trans h1) (r2.trans h2) (r3.trans h3) (by decide)
  have hctx : ∀ i, z.settle.ctx i = u.ctx i := State.ctx_congr ((State.settle_sch z).trans (kf.2 .sch (by decide)))
  have hleaf : ∀ i va, z.settle.leaf i va = u.leaf i va := State.leaf_congr ((State.settle_fab z).trans (kf.2 .fab (by decide)))
  exact ⟨_, hz, hk, hans, (hctx _).trans r4, fun i hi => (hctx i).trans ((r5 i hi).trans (State.ctx_congr hsch i)),
    fun va hva => (hleaf _ _).trans (r6 va hva)⟩

/-! ### The claim -/

/-- Settles O35, order by order. -/
theorem contextOrders : Obligations.ContextOrders := by
  unfold Obligations.ContextOrders
  exact ⟨ctxCreate_answers, ctxDestroy_answers, ctxList_answers, factoryNext_answers, fun s t q seq o => deviceReset_resets⟩

end Sys2Proof.Machine
end

section
/-! PROOF. Restore with no record (R65, R67, R68). -/

namespace Sys2Proof.Machine

variable {s x y z : State} {t : Nat}

/-- The staging area starts anew. -/
def State.stageCleared (s : State) : State := { s with stage := { s.stage with pend := none, shadow := [], rnyShadow := [] } }

theorem State.stageCleared_shows (x : State) : x.sameBut x.stageCleared [.stage] ∧ x.stageCleared.regs = x.regs ∧
    x.stageCleared.stage = { x.stage with pend := none, shadow := [], rnyShadow := [] } :=
  ⟨x.sameBut_mix x.stageCleared [.stage], rfl, rfl⟩

/-- The staging state is IDLE. -/
def State.stageIdle (s : State) : State := s.setFld R.STG_STATUS 0 3 0

/-- The registers of the factory state. -/
def State.factoryShown (s : State) : State :=
  ((((s.setBit R.GLB_BOOT_STATUS 8 true).wr R.PWR_FAIL_LAST 0).wr R.GLB_RESTORE_GEN 0).wr R.STG_GEN_LIVE 0).wr R.STG_GEN_RETAINED 0

/-- Ronyr takes its factory values. -/
def State.factoryArmed (s : State) : State := s.armWith (0, 0, 0, 0, s.tim.ns) (rnyFull [])

/-- The lack of a record is journalled. -/
def State.noRecord (s : State) : State := s.journalEvent E_RESTORE_NONE 0 (s.evWords E_RESTORE_NONE {})

theorem State.newestRecord_none (h : x.stage.records = []) : x.newestRecord = none := by rw [State.newestRecord, h, List.foldl_nil]

theorem State.restoreFactory_eq (h : x.newestRecord = none) : x.restoreFactory = x.factoryShown.factoryArmed.noRecord.restoreEnd.waitHost := by
  have hf : x.restoreFactory = (let seq := match x.newestRecord with | some r => r.seq | none => 0
      let s2 := (((((x.setBit R.GLB_BOOT_STATUS 8 true).wr R.PWR_FAIL_LAST 0).wr R.GLB_RESTORE_GEN 0).wr R.STG_GEN_LIVE seq).wr
        R.STG_GEN_RETAINED seq).armWith (0, 0, 0, 0, x.tim.ns) (rnyFull [])
      (if x.newestRecord.isNone then s2.noRecord else s2).restoreEnd.waitHost) := rfl
  rw [hf, h]
  rfl

/-- With no record, a restore that may start ends in the factory state. -/
theorem exec_restore_factory (hr : s.running = true) (h5 : s.phase = 5) (hu : s.scUp = true) (hb : s.boot.restored = false)
    (hrec : s.stage.records = []) : exec (.restore t) s =
      done (s.at' t).stageCleared.stageIdle.factoryShown.factoryArmed.noRecord.restoreEnd.waitHost := by
  have hexec : exec (.restore t) s =
      if (s.at' t).running && decide ((s.at' t).phase = 5) && (s.at' t).scUp && !(s.at' t).boot.restored then
        match (if (s.at' t).factoryBoot then none else (s.at' t).stageCleared.stageIdle.newestRecord) with
        | none => done (s.at' t).stageCleared.stageIdle.restoreFactory
        | some r => done ((((s.at' t).stageCleared.stageIdle.wr R.STG_GEN_LIVE r.seq).wr R.STG_GEN_RETAINED r.seq).restoreRecord r)
      else done (s.at' t) := rfl
  have hnone : (s.at' t).stageCleared.stageIdle.newestRecord = none := State.newestRecord_none (by
    rw [State.stageIdle, State.setFld_stage, ((s.at' t).stageCleared_shows).2.2, State.at'_stage, hrec])
  rw [hexec, State.running_at', State.phase_at', State.scUp_at', State.at'_boot, hr, h5, hu, hb, if_pos (by decide), hnone, ite_self]
  dsimp only
  rw [State.restoreFactory_eq hnone]

theorem restore_refused (h : s.phase ≠ 5 ∨ s.scUp = false ∨ s.boot.restored = true) : s.givesNothing (.restore t) := by
  have hexec : exec (.restore t) s =
      if (s.at' t).running && decide ((s.at' t).phase = 5) && (s.at' t).scUp && !(s.at' t).boot.restored then
        match (if (s.at' t).factoryBoot then none else (s.at' t).stageCleared.stageIdle.newestRecord) with
        | none => done (s.at' t).stageCleared.stageIdle.restoreFactory
        | some r => done ((((s.at' t).stageCleared.stageIdle.wr R.STG_GEN_LIVE r.seq).wr R.STG_GEN_RETAINED r.seq).restoreRecord r)
      else done (s.at' t) := rfl
  rw [State.running_at', State.phase_at', State.scUp_at', State.at'_boot, if_neg (by obtain h | h | h := h <;> simp [h])] at hexec
  exact State.givesNothing_of_done t hexec

/-- R67: the registers show the factory state. -/
theorem State.factoryShown_shows (x : State) : x.sameBut x.factoryShown [.regs] ∧
    x.regsBut x.factoryShown [R.GLB_BOOT_STATUS, R.PWR_FAIL_LAST, R.GLB_RESTORE_GEN, R.STG_GEN_LIVE, R.STG_GEN_RETAINED] ∧
    x.factoryShown.bit R.GLB_BOOT_STATUS 8 = true ∧ x.factoryShown.rd R.PWR_FAIL_LAST = 0 ∧ x.factoryShown.rd R.GLB_RESTORE_GEN = 0 ∧
    x.factoryShown.rd R.STG_GEN_LIVE = 0 := by
  unfold State.factoryShown
  refine ⟨by simp, ?_, ?_, ?_, ?_, ?_⟩
  · exact State.regsBut_wr (State.regsBut_wr (State.regsBut_wr (State.regsBut_wr (State.regsBut_setBit (x.regsBut_refl _) (by simp)) (by simp))
      (by simp)) (by simp)) (by simp)
  · rw [State.bit, State.fld_wr_other _ _ _ _ (by decide), State.fld_wr_other _ _ _ _ (by decide), State.fld_wr_other _ _ _ _ (by decide),
      State.fld_wr_other _ _ _ _ (by decide), ← State.bit, State.bit_setBit_same _ _ _ _ (by decide)]
  · rw [State.rd_wr_other _ _ (by decide), State.rd_wr_other _ _ (by decide), State.rd_wr_other _ _ (by decide), State.rd_wr_same, Nat.zero_mod]
  · rw [State.rd_wr_other _ _ (by decide), State.rd_wr_other _ _ (by decide), State.rd_wr_same, Nat.zero_mod]
  · rw [State.rd_wr_other _ _ (by decide), State.rd_wr_same, Nat.zero_mod]

theorem State.factoryArmed_shows (x : State) : x.sameBut x.factoryArmed [.ron] ∧ x.factoryArmed.regs = x.regs :=
  ⟨x.sameBut_mix x.factoryArmed [.ron], rfl⟩

theorem State.restoreEnd_shows (x : State) : x.sameBut x.restoreEnd [.boot] ∧ x.restoreEnd.regs = x.regs ∧
    x.restoreEnd.boot = { x.boot with restored := true } := ⟨x.sameBut_mix x.restoreEnd [.boot], rfl, rfl⟩

/-- With no agreement SC waits for the host. -/
theorem State.waitHost_waits (h : x.agreed = false) : x.waitHost = x.setPhase 6 := by
  have hw : x.waitHost = if (x.setPhase 6).agreed && !(x.setPhase 6).anyClass then (x.setPhase 6).setPhase 7 else x.setPhase 6 := rfl
  have ha : (x.setPhase 6).agreed = false := ((x.posts_setPhase 6).keeps.1).trans h
  rw [hw, ha, if_neg (by simp)]

/-- R65, R67, R68: with no record the factory state is in force, and SC waits for the host. -/
theorem restore_factory (hr : s.running = true) (h5 : s.phase = 5) (hu : s.scUp = true) (hb : s.boot.restored = false)
    (hrec : s.stage.records = []) (ha : s.agreed = false) :
    s.gives (.restore t) ([.stage, .boot, .ron] ++ recordParts) fun s' => s'.phase = 6 ∧ s'.bit R.GLB_BOOT_STATUS 8 = true ∧
      s'.rd R.PWR_FAIL_LAST = 0 ∧ s'.rd R.GLB_RESTORE_GEN = 0 ∧ s'.rd R.STG_GEN_LIVE = 0 ∧ s'.boot = { s.boot with restored := true } ∧
      s'.stage = { s.stage with pend := none, shadow := [], rnyShadow := [] } ∧ s'.stgState = 0 := by
  have hexec := exec_restore_factory (t := t) hr h5 hu hb hrec
  obtain ⟨cf, -, cs⟩ := (s.at' t).stageCleared_shows
  rw [State.at'_stage] at cs
  have cb := Eq.trans (cf.2 .boot (by decide)) (s.at'_boot t)
  have ch := Eq.trans (cf.2 .host (by decide)) (s.at'_host t)
  generalize (s.at' t).stageCleared = c at *
  have df : c.sameBut c.stageIdle [.regs] := by simp [State.stageIdle]
  have d0 : c.stageIdle.stgState = 0 := State.fld_setFld_same _ _ _ _ _ (by decide)
  generalize c.stageIdle = d at *
  obtain ⟨ef, er, e1, e2, e3, e4⟩ := d.factoryShown_shows
  generalize d.factoryShown = e at *
  obtain ⟨ff, fr⟩ := e.factoryArmed_shows
  generalize e.factoryArmed = f at *
  obtain ⟨gf, gr⟩ := f.records_journalEvent E_RESTORE_NONE 0 (f.evWords E_RESTORE_NONE {})
  have gp := f.posts_journalEvent E_RESTORE_NONE 0 (f.evWords E_RESTORE_NONE {})
  rw [show f.journalEvent E_RESTORE_NONE 0 (f.evWords E_RESTORE_NONE {}) = f.noRecord from rfl] at gf gr gp
  generalize f.noRecord = g at *
  obtain ⟨hf, hregs, hboot⟩ := g.restoreEnd_shows
  generalize g.restoreEnd = h at *
  have hagreed : h.agreed = false := by
    rw [State.agreed, show h.host = g.host from hf.2 .host (by decide), gp.keeps.1, show f.host = e.host from ff.2 .host (by decide),
      show e.host = d.host from ef.2 .host (by decide), show d.host = c.host from df.2 .host (by decide), ch]
    exact ha
  rw [State.waitHost_waits hagreed] at hexec
  have pf : h.sameBut (h.setPhase 6) [.regs, .host] := (State.sameBut_setPhase fun _ hp => hp).mpr (h.sameBut_refl _)
  have p6 : (h.setPhase 6).phase = 6 := State.phase_setPhase _ (by decide)
  have p8 : (h.setPhase 6).fld R.GLB_BOOT_STATUS 8 1 = h.fld R.GLB_BOOT_STATUS 8 1 := State.fld_setPhase _ _ (by decide)
  have prd : ∀ a, a ≠ R.GLB_BOOT_STATUS → (h.setPhase 6).rd a = h.rd a := fun a hne => State.rd_setPhase _ _ hne
  generalize h.setPhase 6 = p at *
  have hback : ∀ a, a ∉ journalRegs → h.rd a = e.rd a := fun a hm =>
    (State.rd_congr hregs a).trans ((gr a hm).trans (State.rd_congr fr a))
  have hboots : p.boot = { s.boot with restored := true } := by
    rw [show p.boot = h.boot from pf.2 .boot (by decide), hboot, show g.boot = f.boot from gf.2 .boot (by decide),
      show f.boot = e.boot from ff.2 .boot (by decide), show e.boot = d.boot from ef.2 .boot (by decide),
      show d.boot = c.boot from df.2 .boot (by decide), cb]
  have hstage : p.stage = { s.stage with pend := none, shadow := [], rnyShadow := [] } := by
    rw [show p.stage = h.stage from pf.2 .stage (by decide), show h.stage = g.stage from hf.2 .stage (by decide),
      show g.stage = f.stage from gf.2 .stage (by decide), show f.stage = e.stage from ff.2 .stage (by decide),
      show e.stage = d.stage from ef.2 .stage (by decide), show d.stage = c.stage from df.2 .stage (by decide), cs]
  refine State.gives_of_done t hexec ((cf.mono (by decide)).trans ((df.mono (by decide)).trans ((ef.mono (by decide)).trans
    ((ff.mono (by decide)).trans ((gf.mono (by decide)).trans ((hf.mono (by decide)).trans (pf.mono (by decide)))))))) ?_
  rw [State.phase, State.fld_settle, ← State.phase, State.bit_settle, State.bit, p8, State.rd_settle, State.rd_settle, State.rd_settle,
    State.settle_boot, State.settle_stage, State.stgState, State.fld_settle, State.fld, State.fld, prd _ (by decide), prd _ (by decide),
    prd _ (by decide), prd R.STG_STATUS (by decide), hback _ (by decide), hback _ (by decide), hback _ (by decide), hback _ (by decide),
    hback R.STG_STATUS (by decide), er R.STG_STATUS (by decide)]
  exact ⟨p6, e1, e2, e3, e4, hboots, hstage, d0⟩

end Sys2Proof.Machine
end

section
/-! PROOF. Quiesce requests (R109): SCH moves the tasks that wait on the flask named to the other flasks of their contexts. -/

namespace Sys2Proof.Machine

variable {s x y z : State} {t n : Nat}

/-! ### Where tasks may be placed -/

theorem State.quiesceAsked_congr (h : y.regs = x.regs) (k : Nat) : y.quiesceAsked k = x.quiesceAsked k := by
  rw [State.quiesceAsked, State.bit_congr h, State.fld_congr h, State.quiesceAsked]

theorem State.placeable_congr (hr : y.regs = x.regs) (hc : y.sch.ctxs = x.sch.ctxs) (i : Nat) : y.placeable i = x.placeable i := by
  unfold State.placeable State.runs State.ctx
  simp only [hc, State.quiesceAsked_congr hr]

/-- No task is placed on a flask whose quiescing is asked for. -/
theorem State.ne_of_placeable {i k : Nat} (hq : x.quiesceAsked n = true) (hk : k ∈ x.placeable i) : k ≠ n := by
  rintro rfl
  have h := (List.mem_filter.mp hk).2
  rw [hq] at h
  exact absurd h (by decide)

/-! ### One task moves -/

/-- Task `d` leaves its deque. -/
def State.deqErase (s : State) (d : Nat × Nat × Nat × Nat) : State := { s with sch := { s.sch with deques := s.sch.deques.erase d } }

/-- Of the state, SCH's deques and pours alone change. -/
def State.requeues (x y : State) : Prop := x.sameBut y [.sch] ∧ y.sch.ctxs = x.sch.ctxs

theorem State.requeues.trans (hxy : x.requeues y) (hyz : y.requeues z) : x.requeues z := ⟨hxy.1.trans hyz.1, hyz.2.trans hxy.2⟩

theorem State.requeues.placeable (h : x.requeues y) (i : Nat) : y.placeable i = x.placeable i :=
  State.placeable_congr (h.1.2 .regs (by decide)) h.2 i

theorem State.deqErase_shows (x : State) (d : Nat × Nat × Nat × Nat) : x.requeues (x.deqErase d) ∧
    (x.deqErase d).sch.deques = x.sch.deques.erase d := ⟨⟨x.sameBut_sch _, rfl⟩, rfl⟩

theorem State.setTask_shows (x : State) (id k : Nat) (f : TaskSt → TaskSt) : x.requeues (x.setTask id k f) ∧
    (x.setTask id k f).sch.deques = x.sch.deques := by
  unfold State.setTask
  split
  · exact ⟨⟨x.sameBut_refl _, rfl⟩, rfl⟩
  · exact ⟨⟨x.sameBut_sch _, rfl⟩, rfl⟩

/-- The task stands at the bottom of flask `n`'s deque. -/
def State.deqAdd (s : State) (d : Nat × Nat × Nat × Nat) : State := { s with sch := { s.sch with deques := s.sch.deques ++ [d] } }

theorem State.deqAdd_shows (x : State) (d : Nat × Nat × Nat × Nat) : x.requeues (x.deqAdd d) ∧ (x.deqAdd d).sch.deques = x.sch.deques ++ [d] :=
  ⟨⟨x.sameBut_sch _, rfl⟩, rfl⟩

theorem State.pushTask_shows (x : State) (n i id k : Nat) : x.requeues (x.pushTask n i id k) ∧
    (x.pushTask n i id k).sch.deques = x.sch.deques ++ [(n, i, id, k)] := by
  rw [show x.pushTask n i id k = (x.setTask id k fun t => { t with st := 1, flask := n }).deqAdd (n, i, id, k) from rfl]
  obtain ⟨hs, hd⟩ := x.setTask_shows id k fun t => { t with st := 1, flask := n }
  generalize x.setTask id k _ = w at *
  obtain ⟨ha, he⟩ := w.deqAdd_shows (n, i, id, k)
  exact ⟨hs.trans ha, by rw [he, hd]⟩

/-- The `i`-th task to move goes to the `i`-th of the flasks it may go to, in turn. -/
def State.moveTask (s : State) (n i : Nat) (d : Nat × Nat × Nat × Nat) : State :=
  (s.deqErase d).pushTask (nth (s.placeable d.2.1) (i % max 1 (s.placeable d.2.1).length) n) d.2.1 d.2.2.1 d.2.2.2

theorem nth_mem_of_lt {α : Type} {l : List α} {i : Nat} (h : i < l.length) (d : α) : nth l i d ∈ l := by
  rw [nth, List.getElem?_eq_getElem h, Option.getD_some]
  exact List.getElem_mem h

/-- A task that moves goes to another flask. -/
theorem State.moveTask_shows {i : Nat} {d : Nat × Nat × Nat × Nat} (hq : x.quiesceAsked n = true) (hp : x.placeable d.2.1 ≠ []) :
    x.requeues (x.moveTask n i d) ∧ ∃ k, k ≠ n ∧ (x.moveTask n i d).sch.deques = x.sch.deques.erase d ++ [(k, d.2)] := by
  have hpos := List.length_pos_iff.mpr hp
  have hmem : nth (x.placeable d.2.1) (i % max 1 (x.placeable d.2.1).length) n ∈ x.placeable d.2.1 :=
    nth_mem_of_lt (Nat.lt_of_lt_of_le (Nat.mod_lt _ (by omega)) (by omega)) n
  unfold State.moveTask
  generalize nth (x.placeable d.2.1) (i % max 1 (x.placeable d.2.1).length) n = k at *
  obtain ⟨he, hd⟩ := x.deqErase_shows d
  generalize x.deqErase d = w at *
  obtain ⟨ha, hb⟩ := w.pushTask_shows k d.2.1 d.2.2.1 d.2.2.2
  exact ⟨he.trans ha, k, State.ne_of_placeable hq hmem, by rw [hb, hd]⟩

/-! ### All of them move -/

/-- The tasks that wait on flask `n` and may go elsewhere. -/
def State.movable (s : State) (n : Nat) : List (Nat × Nat × Nat × Nat) :=
  s.sch.deques.filter (fun d => d.1 == n && s.placeable d.2.1 != [])

theorem State.moveTasks_eq (x : State) (n : Nat) : x.moveTasks n =
    (List.range (x.movable n).length).foldl (fun s i => s.moveTask n i (nth (x.movable n) i (0, 0, 0, 0))) x := rfl

theorem State.mem_movable {d : Nat × Nat × Nat × Nat} : d ∈ x.movable n ↔ d ∈ x.sch.deques ∧ d.1 = n ∧ x.placeable d.2.1 ≠ [] := by
  simp [State.movable]

/-- After `k` of them have moved, the rest wait as they did, and no other task has left its deque. -/
theorem State.moveTasks_after (hq : x.quiesceAsked n = true) (k : Nat) (hk : k ≤ (x.movable n).length) :
    let y := (List.range k).foldl (fun s i => s.moveTask n i (nth (x.movable n) i (0, 0, 0, 0))) x
    x.requeues y ∧ (∀ d ∈ x.sch.deques, d.1 ≠ n → d ∈ y.sch.deques) ∧
      ∀ d : Nat × Nat × Nat × Nat, d.1 = n → x.placeable d.2.1 ≠ [] → y.sch.deques.count d = ((x.movable n).drop k).count d := by
  induction k with
  | zero =>
    refine ⟨⟨x.sameBut_refl _, rfl⟩, fun d hd _ => hd, fun d hn hp => ?_⟩
    rw [List.drop_zero, State.movable, List.count_filter (by simp [hn, hp])]
    rfl
  | succ k ih =>
    obtain ⟨hreq, hstay, hcount⟩ := ih (by omega)
    dsimp only
    rw [List.range_succ, List.foldl_append, List.foldl_cons, List.foldl_nil]
    generalize (List.range k).foldl (fun s i => s.moveTask n i (nth (x.movable n) i (0, 0, 0, 0))) x = y at *
    have hget : nth (x.movable n) k (0, 0, 0, 0) = (x.movable n)[k] := by rw [nth, List.getElem?_eq_getElem (by omega), Option.getD_some]
    obtain ⟨-, hn, hp⟩ := State.mem_movable.mp (List.getElem_mem (show k < (x.movable n).length by omega))
    have hdrop := List.drop_eq_getElem_cons (show k < (x.movable n).length by omega)
    rw [hget]
    generalize (x.movable n)[k] = m at *
    obtain ⟨hm, j, hj, hd⟩ := State.moveTask_shows (i := k) (d := m)
      ((State.quiesceAsked_congr (hreq.1.2 .regs (by decide)) n).trans hq) (by rw [hreq.placeable]; exact hp)
    refine ⟨hreq.trans hm, fun d hmem hne => ?_, fun d hdn hdp => ?_⟩
    · rw [hd]
      exact List.mem_append_left _ ((List.mem_erase_of_ne (by rintro rfl; exact hne hn)).mpr (hstay d hmem hne))
    · have hnew : ((j, m.2) == d) = false := by
        rw [beq_eq_false_iff_ne]
        rintro rfl
        exact hj hdn
      rw [hd, List.count_append, List.count_erase, hcount d hdn hdp, hdrop, List.count_cons, List.count_cons, List.count_nil, hnew]
      simp

/-- SCH moves every task that waits on flask `n` and may go elsewhere. -/
theorem State.moveTasks_shows (hq : x.quiesceAsked n = true) : x.requeues (x.moveTasks n) ∧
    (∀ d ∈ x.sch.deques, d.1 ≠ n → d ∈ (x.moveTasks n).sch.deques) ∧
    ∀ d ∈ (x.moveTasks n).sch.deques, d.1 = n → x.placeable d.2.1 = [] := by
  obtain ⟨h1, h2, h3⟩ := State.moveTasks_after hq _ le_rfl
  rw [← State.moveTasks_eq] at h1 h2 h3
  refine ⟨h1, h2, fun d hd hn => ?_⟩
  by_contra hp
  have hcount := h3 d hn hp
  rw [List.drop_length, List.count_nil] at hcount
  exact List.count_eq_zero.mp hcount hd

theorem State.moveTasks_none (h : ∀ d ∈ x.sch.deques, d.1 ≠ n) : x.moveTasks n = x := by
  have hnil : x.movable n = [] := List.filter_eq_nil_iff.mpr fun d hd => by simp [h d hd]
  rw [State.moveTasks_eq, hnil]
  rfl

/-- R109: `STG_QUIESCE` names the block. -/
theorem quiesceRequest_moves (v : W32) (hr : s.running = true) : s.gives (.quiesceRequest t v) [.regs, .sch] fun s' =>
    s.regsBut s' [R.STG_QUIESCE] ∧ s'.fld R.STG_QUIESCE 0 6 = v.toNat % 64 ∧ s'.bit R.STG_QUIESCE 8 = v.getLsbD 8 ∧
    s'.rd R.STG_QUIESCE < 512 ∧ s'.sch.ctxs = s.sch.ctxs ∧
    (∀ n x id k, (n, x, id, k) ∈ s.sch.deques → n ≠ v.toNat % 64 → (n, x, id, k) ∈ s'.sch.deques) ∧
    (v.getLsbD 8 = true → ∀ n x id k, (n, x, id, k) ∈ s'.sch.deques → n = v.toNat % 64 → s'.placeable x = []) ∧
    (v.getLsbD 8 = false ∨ (∀ d ∈ s.sch.deques, d.1 ≠ v.toNat % 64) → s'.sch = s.sch) := by
  have hexec : exec (.quiesceRequest t v) s = if (s.at' t).running then
      done (if ((s.at' t).wr R.STG_QUIESCE (v.toNat % 64 + v.toNat / 256 % 2 * 256)).quiesceAsked (v.toNat % 64) then
        ((s.at' t).wr R.STG_QUIESCE (v.toNat % 64 + v.toNat / 256 % 2 * 256)).moveTasks (v.toNat % 64)
        else (s.at' t).wr R.STG_QUIESCE (v.toNat % 64 + v.toNat / 256 % 2 * 256)) else done (s.at' t) := rfl
  have hbit8 : v.toNat / 256 % 2 = b2n (v.getLsbD 8) := by
    rw [← BitVec.testBit_toNat, Nat.testBit_eq_decide_div_mod_eq, b2n]
    simp only [decide_eq_true_eq]
    split <;> omega
  rw [State.running_at', if_pos hr, hbit8] at hexec
  have hf : (s.at' t).sameBut ((s.at' t).wr R.STG_QUIESCE (v.toNat % 64 + b2n (v.getLsbD 8) * 256)) [.regs] := by simp
  have hrb : s.regsBut ((s.at' t).wr R.STG_QUIESCE (v.toNat % 64 + b2n (v.getLsbD 8) * 256)) [R.STG_QUIESCE] :=
    State.regsBut_wr (State.regsBut_congr (s.at'_regs t) _) (by simp)
  have hb2 : b2n (v.getLsbD 8) < 2 := by unfold b2n; split <;> decide
  have hrd : ((s.at' t).wr R.STG_QUIESCE (v.toNat % 64 + b2n (v.getLsbD 8) * 256)).rd R.STG_QUIESCE = v.toNat % 64 + b2n (v.getLsbD 8) * 256 := by
    rw [State.rd_wr_same]
    omega
  have hsch : ((s.at' t).wr R.STG_QUIESCE (v.toNat % 64 + b2n (v.getLsbD 8) * 256)).sch = s.sch := by rw [State.wr_sch, State.at'_sch]
  generalize (s.at' t).wr R.STG_QUIESCE (v.toNat % 64 + b2n (v.getLsbD 8) * 256) = w at *
  have hfld : w.fld R.STG_QUIESCE 0 6 = v.toNat % 64 := by
    rw [State.fld, hrd]
    omega
  have hbit : w.bit R.STG_QUIESCE 8 = v.getLsbD 8 := by
    rw [State.bit, State.fld, hrd, show (v.toNat % 64 + b2n (v.getLsbD 8) * 256) / 2 ^ 8 % 2 ^ 1 = b2n (v.getLsbD 8) by omega]
    cases v.getLsbD 8 <;> rfl
  have hasked : w.quiesceAsked (v.toNat % 64) = v.getLsbD 8 := by rw [State.quiesceAsked, hbit, hfld, decide_eq_true rfl, Bool.and_true]
  have hlt : w.rd R.STG_QUIESCE < 512 := by
    rw [hrd]
    omega
  rw [hasked] at hexec
  cases hv : v.getLsbD 8 with
  | false =>
    rw [hv, if_neg (by decide)] at hexec
    refine State.gives_of_done t hexec (hf.mono (by decide)) ⟨hrb.settle, ?_⟩
    rw [State.fld_settle, State.bit_settle, State.rd_settle, State.settle_sch, hsch, hfld, hbit, hv]
    exact ⟨rfl, rfl, hlt, rfl, fun n x id k hd _ => hd, fun h => absurd h (by decide), fun _ => rfl⟩
  | true =>
    rw [hv, if_pos rfl] at hexec
    obtain ⟨⟨mf, mc⟩, m1, m2⟩ := State.moveTasks_shows (hasked.trans hv)
    have m3 : (∀ d ∈ s.sch.deques, d.1 ≠ v.toNat % 64) → (w.moveTasks (v.toNat % 64)).sch = s.sch := fun h =>
      (congrArg State.sch (State.moveTasks_none (by rw [hsch]; exact h))).trans hsch
    generalize w.moveTasks (v.toNat % 64) = m at *
    have hmr : m.regs = w.regs := mf.2 .regs (by decide)
    refine State.gives_of_done t hexec ((hf.mono (by decide)).trans (mf.mono (by decide))) ⟨(hrb.trans (State.regsBut_congr hmr _)).settle, ?_⟩
    rw [State.fld_settle, State.bit_settle, State.rd_settle, State.settle_sch, mc, hsch, State.fld_congr hmr, State.bit_congr hmr, State.rd_congr hmr,
      hfld, hbit, hv]
    refine ⟨rfl, rfl, hlt, rfl, fun n x id k hd hne => m1 _ (by rw [hsch]; exact hd) hne, fun _ n x id k hd hn => ?_,
      fun h => m3 (h.resolve_left (by decide))⟩
    rw [State.placeable_congr (x := w) ((State.settle_regs m).trans hmr) ((congrArg Sched.ctxs (State.settle_sch m)).trans mc)]
    exact m2 _ hd hn

end Sys2Proof.Machine
end

section
/-! PROOF. Debug writes (R109): ignored, refused, or a change of the live register. -/

namespace Sys2Proof.Machine

variable {s x y z : State} {t : Nat}

/-! ### Ignored and refused -/

theorem exec_debugWrite (v : W32) (hr : s.running = true) : exec (.debugWrite t v) s = done ((s.at' t).debugWrite v.toNat) := by
  have hexec : exec (.debugWrite t v) s = if (s.at' t).running then done ((s.at' t).debugWrite v.toNat) else done (s.at' t) := rfl
  rw [hexec, State.running_at', if_pos hr]

theorem State.debugWrite_locked (v : Nat) (h : x.bit R.SEC_STAT 5 = false ∨
    x.rd R.STG_DBG_ADDR < 2 ^ 31 ∧ stagedWord (x.rd R.STG_DBG_ADDR) = none) : x.debugWrite v = x.inc R.STG_IGNORED := by
  unfold State.debugWrite
  dsimp only
  obtain h | ⟨h1, h2⟩ := h
  · rw [h, if_pos (by decide)]
    rfl
  · cases hb : x.bit R.SEC_STAT 5 with
    | false =>
      rw [if_pos (by decide)]
      rfl
    | true =>
      rw [if_neg (by decide), if_neg (by omega), h2]
      rfl

theorem State.debugWrite_busy (v : Nat) (h5 : x.bit R.SEC_STAT 5 = true) (h : 2 ^ 31 ≤ x.rd R.STG_DBG_ADDR ∨
    (stagedWord (x.rd R.STG_DBG_ADDR)).isSome = true ∧ (blockOf (x.rd R.STG_DBG_ADDR) ≠ x.fld R.STG_QUIESCE 0 6 ∨ x.quiescedNow = false)) :
    x.debugWrite v = x.setFld R.STG_STATUS 16 16 E_LIVE_BUSY := by
  unfold State.debugWrite
  dsimp only
  rw [h5, if_neg (by decide)]
  by_cases ha : 2 ^ 31 ≤ x.rd R.STG_DBG_ADDR
  · rw [if_pos ha]
  · obtain ⟨hs, hb⟩ := h.resolve_left ha
    obtain ⟨q, hq⟩ := Option.isSome_iff_exists.mp hs
    rw [if_neg ha, hq]
    dsimp only
    rw [if_pos hb]

theorem State.quiescedNow_at' (s : State) (t : Nat) : (s.at' t).quiescedNow = s.quiescedNow := by
  simp [State.quiescedNow, State.quiesced, State.quiesceAsked, State.slotOn, State.phase_at']

theorem debugWrite_ignored (v : W32) (hr : s.running = true) (h : s.bit R.SEC_STAT 5 = false ∨
    s.rd R.STG_DBG_ADDR < 2 ^ 31 ∧ stagedWord (s.rd R.STG_DBG_ADDR) = none) : s.gives (.debugWrite t v) [.regs] fun s' =>
      s.regsBut s' [R.STG_IGNORED] ∧ s'.rd R.STG_IGNORED = (s.rd R.STG_IGNORED + 1) % 2 ^ 32 := by
  have hexec := exec_debugWrite (t := t) v hr
  rw [State.debugWrite_locked _ (by rw [State.bit_at', State.rd_at']; exact h)] at hexec
  refine State.gives_of_done t hexec (by simp)
    ⟨((State.regsBut_congr (s.at'_regs t) _).trans (State.regsBut_wr (State.regsBut_refl _ _) (by simp))).settle, ?_⟩
  rw [State.rd_settle, State.inc, State.rd_wr_same, State.rd_at']

theorem debugWrite_refused (v : W32) (hr : s.running = true) (h5 : s.bit R.SEC_STAT 5 = true) (h : 2 ^ 31 ≤ s.rd R.STG_DBG_ADDR ∨
    (stagedWord (s.rd R.STG_DBG_ADDR)).isSome = true ∧ (blockOf (s.rd R.STG_DBG_ADDR) ≠ s.fld R.STG_QUIESCE 0 6 ∨ s.quiescedNow = false)) :
    s.gives (.debugWrite t v) [.regs] fun s' => s.regsBut s' [R.STG_STATUS] ∧ s'.fld R.STG_STATUS 16 16 = E_LIVE_BUSY ∧
      s'.stgState = s.stgState := by
  have hexec := exec_debugWrite (t := t) v hr
  rw [State.debugWrite_busy _ (by rw [State.bit_at', h5]) (by rw [State.rd_at', State.fld_at', State.quiescedNow_at']; exact h)] at hexec
  refine State.gives_of_done t hexec (by simp)
    ⟨((State.regsBut_congr (s.at'_regs t) _).trans (State.regsBut_setFld (State.regsBut_refl _ _) (by simp))).settle, ?_, ?_⟩
  · rw [State.fld_settle]
    exact State.fld_setFld_same _ _ _ _ _ (by decide)
  · rw [State.stgState, State.fld_settle, State.fld_setFld_apart _ (by decide), State.fld_at', State.stgState]

/-! ### A change of a live register that no camera, lane or clock follows -/

/-- The memory's quality of service, and the registers of the line: no camera, lane, port or time source is among them. -/
def plainReg (a : Nat) : Prop := a = R.MEM_QOS ∨ 0x03801000 ≤ a ∧ a < 0x03808000

/-- The live registers have changed at `a`, and `STG_STATUS` shows it. -/
def State.liveOnly (old x : State) (a : Nat) : Prop := old.regsBut x [a, R.STG_STATUS]

theorem State.foldl_id {α : Type} {f : State → α → State} {l : List α} (h : ∀ a ∈ l, f x a = x) : l.foldl f x = x :=
  List.foldlRecOn (motive := fun y => y = x) l f rfl fun y hy a ha => by rw [hy, h a ha]

section Plain

variable {old : State} {a : Nat} (hl : old.liveOnly x a) (ha : plainReg a)
include hl ha

theorem rd_plain {b : Nat} (hb : b ≠ R.MEM_QOS ∧ b ≠ R.STG_STATUS ∧ (b < 0x03801000 ∨ 0x03808000 ≤ b)) : x.rd b = old.rd b := by
  refine hl b ?_
  rw [List.mem_cons, List.mem_singleton]
  obtain rfl | ⟨h1, h2⟩ := ha
  · exact fun h => h.elim hb.1 hb.2.1
  · exact fun h => h.elim (by omega) hb.2.1

theorem fld_plain {b lo w : Nat} (hb : b ≠ R.MEM_QOS ∧ b ≠ R.STG_STATUS ∧ (b < 0x03801000 ∨ 0x03808000 ≤ b)) : x.fld b lo w = old.fld b lo w := by
  rw [State.fld, rd_plain hl ha hb, State.fld]

theorem rd_portCfg {p : Nat} (hp : p < 32) : x.rd (R.CXP_PORT_CFG p) = old.rd (R.CXP_PORT_CFG p) :=
  rd_plain hl ha (by simp only [R.CXP_PORT_CFG, R.MEM_QOS, R.STG_STATUS]; omega)

theorem rxeqCast_plain {up : Bool} {cfg stat lo : Nat} (h : cfg ≠ R.MEM_QOS ∧ cfg ≠ R.STG_STATUS ∧ (cfg < 0x03801000 ∨ 0x03808000 ≤ cfg)) :
    x.rxeqCast old up cfg stat lo = x := by
  rw [State.rxeqCast, changedAt, rd_plain hl ha h, bne_self_eq_false, Bool.and_false, if_neg (by decide)]

theorem camChange_plain : x.camChange old = x := by
  have hon : ∀ m, m < 32 → x.camOn m = old.camOn m := fun m hm => by
    rw [State.camOn, State.camOf, State.bit, State.fld, State.fld, rd_portCfg hl ha hm, ← State.fld, ← State.fld, ← State.bit, ← State.camOf, ← State.camOn]
  have hmoved : ∀ m, (old.camPorts m ++ x.camPorts m).any (fun p => changedAt old x (R.CXP_PORT_CFG p)) = false := fun m => by
    rw [List.any_eq_false]
    intro p hp
    have hlt : p < 32 := (List.mem_append.mp hp).elim State.camPorts_lt State.camPorts_lt
    rw [changedAt, rd_portCfg hl ha hlt, bne_self_eq_false]
    decide
  have hoff : (List.range 32).filter (fun m => old.camOn m && (!x.camOn m ||
      (old.camPorts m ++ x.camPorts m).any (fun p => changedAt old x (R.CXP_PORT_CFG p)))) = [] := List.filter_eq_nil_iff.mpr fun m hm => by
    rw [hon m (List.mem_range.mp hm), hmoved]
    cases old.camOn m <;> decide
  have hstart : (List.range 32).filter (fun m => x.camOn m && (!old.camOn m ||
      (old.camPorts m ++ x.camPorts m).any (fun p => changedAt old x (R.CXP_PORT_CFG p)))) = [] := List.filter_eq_nil_iff.mpr fun m hm => by
    rw [hon m (List.mem_range.mp hm), hmoved]
    cases old.camOn m <;> decide
  unfold State.camChange
  dsimp only
  rw [hoff, List.foldl_nil, hstart, List.foldl_nil]
  refine State.foldl_id fun p hp => rxeqCast_plain hl ha ?_
  have := List.mem_range.mp hp
  simp only [R.CXP_RXEQ_CFG, R.MEM_QOS, R.STG_STATUS]
  omega

theorem lnkChange_plain : x.lnkChange old = x := by
  have hfold : (List.range 8).foldl (fun s l => s.rxeqCast old (decide (2 ≤ s.laneState l)) (R.LNK_NLX_RXEQ l) (R.LNK_NLX_LANE_STAT l) 4) x = x := by
    refine State.foldl_id fun l hm => rxeqCast_plain hl ha ?_
    have := List.mem_range.mp hm
    simp only [R.LNK_NLX_RXEQ, R.MEM_QOS, R.STG_STATUS]
    omega
  have htx : (List.range 8).filter (fun l => changedAt old x (R.LNK_NLX_TXEQ l) && !x.bit (R.LNK_NLX_TXEQ l) 16
      && decide (2 ≤ x.laneState l) && decide (x.laneState l ≤ 3)) = [] := List.filter_eq_nil_iff.mpr fun l hm => by
    have := List.mem_range.mp hm
    rw [changedAt, rd_plain hl ha (by simp only [R.LNK_NLX_TXEQ, R.MEM_QOS, R.STG_STATUS]; omega), bne_self_eq_false]
    simp
  have hport : ∀ p, x.portOn p = old.portOn p := fun p => by
    rw [State.portOn, State.topo, State.bit, fld_plain hl ha (by decide), fld_plain hl ha (by decide), ← State.bit, ← State.topo, State.portOn]
  have hdown : (List.range 4).filter (fun p => old.portOn p && !x.portOn p && x.fld (R.LNK_NLX_PORT_STAT p) 0 2 != 0) = [] :=
    List.filter_eq_nil_iff.mpr fun p _ => by
      rw [hport]
      cases old.portOn p <;> simp
  unfold State.lnkChange
  dsimp only
  rw [hfold, htx, List.foldl_nil, hdown, List.foldl_nil]

theorem timChange_plain : x.timChange old = x := by
  have htim : x.timSrc = old.timSrc := fld_plain hl ha (by decide)
  rw [State.timChange, if_pos htim]

end Plain

/-! ### What follows the live configuration, with no context but context 0 -/

theorem State.bindLines_idle (h : x.sch.ctxs = [(0, {})]) : x.bindLines = x := by
  have hmap : x.sch.ctxs.map (fun e => if e.2.cls = 1 ∧ x.hasClass e.1 then (e.1, { e.2 with restored := true }) else e) = x.sch.ctxs := by
    rw [h]
    rfl
  unfold State.bindLines
  rw [hmap]

theorem State.lineRuns_idle (h : x.sch.ctxs = [(0, {})]) : x.lineRuns = x := by
  have hmap : x.sch.ctxs.map (fun e => if e.2.cls = 1 then (e.1, { e.2 with running := maskOf ((maskList e.2.mask).filter fun n => x.flasksUsed.contains n && (x.flask n).job.isNone) }) else e) = x.sch.ctxs := by
    rw [h]
    rfl
  unfold State.lineRuns
  dsimp only
  rw [hmap]

theorem State.restripe_shows (x : State) (as : List Nat) : x.sameBut (x.restripe as) [.fab] ∧ (x.restripe as).regs = x.regs :=
  ⟨x.sameBut_fab _, rfl⟩

/-- Context 0 has no line program. -/
theorem State.lineProgs_idle (h : x.sch.ctxs = [(0, {})]) : x.lineProgs = [] := by
  refine List.filter_eq_nil_iff.mpr fun l _ => ?_
  have hctx : x.ctx l.ctx = some {} ∨ x.ctx l.ctx = none := by
    rw [State.ctx, h, KMap.find]
    split
    · exact .inl rfl
    · exact .inr rfl
  obtain e | e := hctx <;> rw [e] <;> simp

theorem State.linePours_idle (h : x.sch.ctxs = [(0, {})]) : x.linePours = x ∨ x.linePours = x.restripe [] := by
  unfold State.linePours
  split
  · exact .inl rfl
  · right
    have hmap : x.sch.ctxs.map (fun e => if e.2.cls = 1 ∧ x.hasClass e.1 ∧ e.2.st ≠ 6 then (e.1, { e.2 with st := 2 }) else e) = x.sch.ctxs := by
      rw [h]
      rfl
    dsimp only
    rw [State.lineProgs_idle h, List.foldl_nil, State.lineRuns_idle h, hmap, State.lineRuns_idle h]

theorem State.liveChange_plain {old : State} {a : Nat} (hl : old.liveOnly x a) (ha : plainReg a) (h : x.sch.ctxs = [(0, {})]) (as : List Nat) :
    x.sameBut (x.liveChange old as) [.regs, .dbg, .fab] ∧ x.regsBut (x.liveChange old as) (R.PWR_CLK :: traceRegs) := by
  have heq : x.liveChange old as = (x.clkUpdate.restripe (as.filter (fun a => changedAt old x a))).linePours := by
    unfold State.liveChange
    dsimp only
    rw [camChange_plain hl ha, lnkChange_plain hl ha, timChange_plain hl ha, State.bindLines_idle]
    rw [show x.clkUpdate.sch = x.sch from ((State.sameBut_clkUpdate (l := [.regs, .dbg]) fun _ hp => hp).mpr (x.sameBut_refl _)).2 .sch (by decide), h]
  have hf : x.sameBut x.clkUpdate [.regs, .dbg] := (State.sameBut_clkUpdate fun _ hp => hp).mpr (x.sameBut_refl _)
  have hr := x.regsBut_clkUpdate
  rw [heq]
  generalize x.clkUpdate = c at *
  obtain ⟨gf, gr⟩ := c.restripe_shows (as.filter (fun a => changedAt old x a))
  generalize c.restripe (as.filter (fun a => changedAt old x a)) = r at *
  have hctx : r.sch.ctxs = [(0, {})] := by
    rw [show r.sch = c.sch from gf.2 .sch (by decide), show c.sch = x.sch from hf.2 .sch (by decide), h]
  have hfr := (hf.mono (l' := [.regs, .dbg, .fab]) (by decide)).trans (gf.mono (by decide))
  have hrr := hr.trans (State.regsBut_congr gr _)
  obtain e | e := State.linePours_idle hctx <;> rw [e]
  · exact ⟨hfr, hrr⟩
  · obtain ⟨kf, kr⟩ := r.restripe_shows []
    exact ⟨hfr.trans (kf.mono (by decide)), hrr.trans (State.regsBut_congr kr _)⟩

/-! ### The write takes effect -/

/-- The register is written, and the live configuration is marked as changed. -/
def State.dbgWritten (s : State) (a v : Nat) : State := (s.wr a v).setBit R.STG_STATUS 4 true

/-- Live debug has been used since the last cast. -/
def State.liveSet (s : State) : State := { s with sec := { s.sec with liveSince := true } }

theorem State.liveSet_shows (x : State) : x.sameBut x.liveSet [.sec] ∧ x.liveSet.regs = x.regs ∧ x.liveSet.sec = { x.sec with liveSince := true } :=
  ⟨x.sameBut_mix x.liveSet [.sec], rfl, rfl⟩

theorem State.debugWrite_reaches {q : StWord} (v : Nat) (h5 : x.bit R.SEC_STAT 5 = true) (ha : x.rd R.STG_DBG_ADDR < 2 ^ 31)
    (hq : stagedWord (x.rd R.STG_DBG_ADDR) = some q) (hb : blockOf (x.rd R.STG_DBG_ADDR) = x.fld R.STG_QUIESCE 0 6) (hn : x.quiescedNow = true) :
    x.debugWrite v = (((x.dbgWritten (x.rd R.STG_DBG_ADDR) (q.keep v)).liveChange x [x.rd R.STG_DBG_ADDR]).liveSet).journalEvent 0 0
      [x.rd R.STG_DBG_ADDR, q.keep v, x.rd (x.rd R.STG_DBG_ADDR), 0] := by
  unfold State.debugWrite
  dsimp only
  rw [h5, if_neg (by decide), if_neg (by omega), hq]
  dsimp only
  rw [if_neg (by simp [hb, hn])]
  rfl

/-- R109: with its block named and quiesced the live register takes the value. -/
theorem debugWrite_takes {q : StWord} (v : W32) (hr : s.running = true) (h5 : s.bit R.SEC_STAT 5 = true) (ha : s.rd R.STG_DBG_ADDR < 2 ^ 31)
    (hq : stagedWord (s.rd R.STG_DBG_ADDR) = some q) (hb : blockOf (s.rd R.STG_DBG_ADDR) = s.fld R.STG_QUIESCE 0 6)
    (hn : s.quiescedNow = true) (hc : s.sch.ctxs = [(0, {})]) (hp : plainReg (s.rd R.STG_DBG_ADDR)) :
    s.gives (.debugWrite t v) ([.sec, .fab] ++ recordParts) fun s' => s'.rd (s.rd R.STG_DBG_ADDR) = q.keep v.toNat % 2 ^ 32 ∧
      s'.bit R.STG_STATUS 4 = true ∧ s'.sec = { s.sec with liveSince := true } := by
  have hexec := exec_debugWrite (t := t) v hr
  rw [State.debugWrite_reaches (q := q) _ (by rw [State.bit_at', h5]) (by rw [State.rd_at']; exact ha) (by rw [State.rd_at']; exact hq)
    (by rw [State.rd_at', State.fld_at']; exact hb) (by rw [State.quiescedNow_at', hn]), State.rd_at', State.rd_at'] at hexec
  generalize s.rd R.STG_DBG_ADDR = a at *
  have hne : a ≠ R.STG_STATUS := by
    obtain rfl | ⟨h1, h2⟩ := hp
    · decide
    · simp only [R.STG_STATUS]
      omega
  have hout : ∀ b, b ≠ R.MEM_QOS → (b < 0x03801000 ∨ 0x03808000 ≤ b) → a ≠ b := fun b h1 h2 => by
    obtain rfl | ⟨h3, h4⟩ := hp
    · exact h1.symm
    · omega
  have hwf : (s.at' t).sameBut ((s.at' t).dbgWritten a (q.keep v.toNat)) [.regs] := by simp [State.dbgWritten]
  have hwl : (s.at' t).liveOnly ((s.at' t).dbgWritten a (q.keep v.toNat)) a :=
    State.regsBut_setBit (State.regsBut_wr (State.regsBut_refl _ _) (by simp)) (by simp)
  have hwa : ((s.at' t).dbgWritten a (q.keep v.toNat)).rd a = q.keep v.toNat % 2 ^ 32 :=
    (State.rd_setBit_other _ hne).trans (State.rd_wr_same _ _ _)
  have hw4 : ((s.at' t).dbgWritten a (q.keep v.toNat)).bit R.STG_STATUS 4 = true := State.bit_setBit_same _ _ _ _ (by decide)
  have hwc : ((s.at' t).dbgWritten a (q.keep v.toNat)).sch.ctxs = [(0, {})] := by
    rw [State.dbgWritten, State.setBit_sch, State.wr_sch, State.at'_sch, hc]
  have hws := Eq.trans (hwf.2 .sec (by decide)) (s.at'_sec t)
  generalize (s.at' t).dbgWritten a (q.keep v.toNat) = w at *
  obtain ⟨lf, lr⟩ := State.liveChange_plain hwl hp hwc [a]
  have hls := Eq.trans (lf.2 .sec (by decide)) hws
  generalize w.liveChange (s.at' t) [a] = l at *
  obtain ⟨sf, sr, ss⟩ := l.liveSet_shows
  rw [hls] at ss
  generalize l.liveSet = u at *
  obtain ⟨jf, jr⟩ := u.records_journalEvent 0 0 [a, q.keep v.toNat, s.rd a, 0]
  have hjs := Eq.trans (jf.2 .sec (by decide)) ss
  generalize u.journalEvent 0 0 [a, q.keep v.toNat, s.rd a, 0] = j at *
  have hrd : ∀ b, b ∉ journalRegs → b ∉ R.PWR_CLK :: traceRegs → j.rd b = w.rd b := fun b h1 h2 =>
    (jr b h1).trans ((State.rd_congr sr b).trans (lr b h2))
  refine State.gives_of_done t hexec ((hwf.mono (by decide)).trans ((lf.mono (by decide)).trans ((sf.mono (by decide)).trans (jf.mono (by decide))))) ?_
  rw [State.rd_settle, State.bit_settle, State.settle_sec, State.bit, State.fld, hrd R.STG_STATUS (by decide) (by decide), hrd a, hwa]
  · exact ⟨rfl, hw4, hjs⟩
  · simp only [journalRegs, raiseRegs, List.mem_append, List.mem_cons, List.not_mem_nil, or_false, not_or]
    exact ⟨⟨hout _ (by decide) (by decide), hout _ (by decide) (by decide)⟩, hout _ (by decide) (by decide), hout _ (by decide) (by decide)⟩
  · simp only [traceRegs, List.mem_cons, List.not_mem_nil, or_false, not_or]
    exact ⟨hout _ (by decide) (by decide), hout _ (by decide) (by decide), hout _ (by decide) (by decide)⟩

/-! ### The claim -/

/-- Settles O43, clause by clause. -/
theorem restoreAndDebugWrites : Obligations.RestoreAndDebugWrites := by
  unfold Obligations.RestoreAndDebugWrites
  intro s t hr
  exact ⟨restore_factory hr, restore_refused, fun v => quiesceRequest_moves v hr, fun v => ⟨debugWrite_ignored v hr,
    debugWrite_refused v hr, fun q h5 ha hq hb hn hc hp => debugWrite_takes v hr h5 ha hq hb hn hc hp⟩⟩

end Sys2Proof.Machine
end

section
/-! PROOF. A piece's head outputs are judged (R372): the claim's third clause. The rules are read on the state SCH's hand-over left, which
differs from the state before in the hand-overs alone. -/

namespace Sys2Proof.Machine

variable {s x : State} {t : Nat} {i : Nat} {vals : List (List W32)} {e : LEntry} {l : List Byte}

/-- SCH has handed a piece's head outputs over. -/
def State.handed (s : State) (h : Nat × Nat) : State := { s with sch := { s.sch with handoffs := s.sch.handoffs.erase h } }

theorem State.handed_shows (x : State) (h : Nat × Nat) : x.sameBut (x.handed h) [.sch] ∧ (x.handed h).entry i = x.entry i ∧
    (∀ e c, (x.handed h).reached e c = x.reached e c) ∧ (x.handed h).ruleSection e = x.ruleSection e ∧
    (x.handed h).condBits e = x.condBits e ∧ (x.handed h).ruleInputs e = x.ruleInputs e ∧ (x.handed h).line = x.line :=
  ⟨x.sameBut_mix (x.handed h) [.sch], rfl, fun _ _ => rfl, rfl, rfl, rfl, rfl⟩

theorem State.judging_at' (s : State) (t i : Nat) (e : LEntry) : (s.at' t).entry i = s.entry i ∧
    (s.at' t).reached e e.deadline = s.reached e e.deadline ∧ (s.at' t).ruleSection e = s.ruleSection e ∧
    (s.at' t).condBits e = s.condBits e ∧ (s.at' t).ruleInputs e = s.ruleInputs e := by
  unfold State.at'
  split <;> exact ⟨rfl, rfl, rfl, rfl, rfl⟩

theorem State.entry_settle (x : State) (i : Nat) : x.settle.entry i = x.entry i := by
  rw [State.entry, State.settle_line, State.entry]

theorem exec_headOutputsHandoff (s : State) (t : Nat) (idx : Fin 131072) (vals : List (List W32)) : exec (.headOutputsHandoff t idx vals) s =
    match (if (s.at' t).running && (s.at' t).schUp then (s.at' t).sch.handoffs.find? (fun h => h.1 == idx.val) else none) with
    | none => done (s.at' t)
    | some h =>
      match ((s.at' t).handed h).entry h.1 with
      | some e => if e.serial = h.2 then done (((s.at' t).handed h).judge h.1 vals) else done ((s.at' t).handed h)
      | none => done ((s.at' t).handed h) := by rfl

/-- The hand-over of a piece that is still the one it was made for is judged. -/
theorem execHeadOutputsHandoff_judges {idx : Fin 131072} {h : Nat × Nat} (hr : s.running = true) (hs : s.schUp = true)
    (hh : s.sch.handoffs.find? (fun h => h.1 == idx.val) = some h) (he : s.entry idx = some e) (hser : e.serial = h.2) :
    exec (.headOutputsHandoff t idx vals) s = done (((s.at' t).handed h).judge idx vals) := by
  have hidx : (h.1 == idx.val) = true := List.find?_some (p := fun h : Nat × Nat => h.1 == idx.val) hh
  have hent : ((s.at' t).handed h).entry h.1 = some e := by
    rw [((s.at' t).handed_shows (e := e) h).2.1, (s.judging_at' t h.1 e).1, beq_iff_eq.mp hidx, he]
  rw [exec_headOutputsHandoff, State.running_at', hr, State.schUp_at', hs, Bool.and_self, if_pos rfl, State.at'_sch, hh]
  dsimp only
  rw [hent]
  dsimp only
  rw [if_pos hser, beq_iff_eq.mp hidx]

/-- The head outputs of a piece as the rules read them. -/
def headsOf (l : List Byte) (vals : List (List W32)) : List (List Nat) := vals.map fun v => v.map (headF32 (rb l 7))

/-- The result of the rules as a judged entry keeps it. -/
def LEntry.judged (e : LEntry) (v : Nat) (ins : List Nat) : LEntry :=
  { e with ruleVerdict := 1 + v, ruleIn := ins, lateOut := e.lateOut || e.verdict == 3 }

theorem State.judge_kept {f : Nat} (he : x.entry i = some e) (hrs : x.ruleSection e = some (l, f)) (hv : e.verdict ≠ 0) :
    x.judge i vals = x.setEntry i (e.judged (ruleResult l (x.condBits e (headsOf l vals) l)).1
      (x.ruleInputs e (headsOf l vals))) := by
  unfold State.judge
  rw [he]
  dsimp only
  rw [if_neg (by simp [hv]), he]
  dsimp only
  rw [hrs]
  dsimp only
  rw [if_pos hv]
  rfl

theorem State.judge_decides {f : Nat} (he : x.entry i = some e) (hrs : x.ruleSection e = some (l, f)) (hv : e.verdict = 0)
    (hd : x.reached e e.deadline = false) :
    x.judge i vals = ((x.setEntry i (e.judged (ruleResult l (x.condBits e (headsOf l vals) l)).1
      (x.ruleInputs e (headsOf l vals)))).setCode i
        (1 + (ruleResult l (x.condBits e (headsOf l vals) l)).1) 0).planAction i
        (ruleResult l (x.condBits e (headsOf l vals) l)).2 false := by
  unfold State.judge
  rw [he]
  dsimp only
  rw [if_neg (by simp [hd]), he]
  dsimp only
  rw [hrs]
  dsimp only
  rw [if_neg (by simp [hv])]
  rfl

/-- A verdict bit is 0 or 1, so its code is PASS or REJECT. -/
theorem ruleResult_verdict_lt (l : List Byte) (bits : Nat) : (ruleResult l bits).1 < 2 := by
  unfold ruleResult
  split
  · exact Nat.mod_lt _ (by decide)
  · exact Nat.mod_lt _ (by decide)

/-- SCH marks a piece only for a code that is not a verdict. -/
theorem State.schMark_verdict {v : Nat} (hv : v < 3) : x.schMark i v = x := by
  have hout : ∀ c : Prop, ¬(v = 4 ∨ v = 6 ∨ (v = 3 ∧ c)) := fun c => by omega
  unfold State.schMark
  split
  · rfl
  · dsimp only
    rw [if_neg (fun h => hout _ h.1), if_neg (hout _), if_neg (by omega)]

theorem State.sameBut_setEntry (x : State) (i : Nat) (e : LEntry) : x.sameBut (x.setEntry i e) [.line] :=
  x.sameBut_mix (x.setEntry i e) [.line]

/-- The entry with a verdict code set now. -/
def State.coded (x : State) (e : LEntry) (v : Nat) : LEntry :=
  { e with verdict := v, cause := 0, state := 3, vs := x.devS, vns := x.devNs, vcount := x.mirror (x.classChan e.gen e.cls) }

/-- A verdict code is set, and nothing else of the entry but when it was. -/
theorem State.setCode_verdict {v : Nat} (he : x.entry i = some e) (hf : x.line.frozen = false) (h0 : e.verdict = 0) (hv : v < 3) :
    x.sameBut (x.setCode i v 0) [.line, .regs, .dbg] ∧ (x.setCode i v 0).line.frozen = false ∧
    ∃ a b c, (x.setCode i v 0).entry i = some { e with verdict := v, cause := 0, state := 3, vs := a, vns := b, vcount := c } := by
  have heq : x.setCode i v 0 = (x.setEntry i (x.coded e v)).trace 0x41 35 (i + v * 2 ^ 17) := by
    unfold State.setCode
    rw [he]
    dsimp only
    rw [hf, if_neg (by decide), if_neg (by simp [h0]), if_neg (show ¬3 ≤ v by omega), if_neg (show ¬3 ≤ v by omega), State.schMark_verdict hv]
    rfl
  have hfr := x.sameBut_setEntry i (x.coded e v)
  have hen := x.entry_setEntry i (x.coded e v)
  have hfz : (x.setEntry i (x.coded e v)).line.frozen = false := hf
  rw [heq]
  generalize x.setEntry i (x.coded e v) = y at *
  have ht : y.sameBut (y.trace 0x41 35 (i + v * 2 ^ 17)) [.regs, .dbg] := (State.sameBut_trace fun _ h => h).mpr (y.sameBut_refl _)
  have htl : (y.trace 0x41 35 (i + v * 2 ^ 17)).line = y.line := ht.2 .line (by decide)
  refine ⟨(hfr.mono (by decide)).trans (ht.mono (by decide)), by rw [htl, hfz], x.devS, x.devNs, x.mirror (x.classChan e.gen e.cls), ?_⟩
  rw [State.entry, htl, ← State.entry, hen]
  rfl

/-- The line part of a state with tap orders queued. -/
theorem State.sendTaps_shows (x : State) (os : List TapOrder) : x.sameBut (x.sendTaps os) [.line, .regs, .dbg] ∧ ∀ i, (x.sendTaps os).entry i = x.entry i := by
  refine ⟨?_, fun i => by rw [State.entry, (x.faults_sendTaps os).2, ← State.entry]⟩
  exact List.foldlRecOn (motive := fun y : State => x.sameBut y [.line, .regs, .dbg]) os _
    (x.sameBut_mix { x with line := { x.line with tx := x.line.tx ++ os.map Msg.tap } } [.line, .regs, .dbg])
    fun y hy o _ => (State.sameBut_trace (by decide)).mpr hy

/-- The action is planned on an entry that SCH still holds, and so is not freed: nothing but its plan changes. -/
theorem State.planAction_held {a : Nat} {d : Bool} (he : x.entry i = some e) (hf : x.line.frozen = false) (hh : e.held = true) :
    x.sameBut (x.planAction i a d) [.line, .regs, .dbg] ∧
    ∃ nm n ts ep, (x.planAction i a d).entry i = some { e with action := a, dflt := d, state := 4, nominal := nm, tap0N := n, taps := ts, tapEpoch := ep } := by
  have hstay : ∀ (y : State) (q : LEntry), y.entry i = some q → q.held = true → y.tryFree i = y := fun y q hy hq => by
    rw [State.tryFree, hy]
    exact if_neg (by simp [hq])
  unfold State.planAction
  rw [hf, if_neg (by decide), he]
  dsimp only
  generalize hos : List.map _ (x.actionTaps e.gen e.cls a) = os
  generalize hq : ({ e with action := a, dflt := d, state := 4, nominal := _, tap0N := _, taps := _, tapEpoch := _ } : LEntry) = q
  obtain ⟨tf, te⟩ := (x.setEntry i q).sendTaps_shows os
  have hent : ((x.setEntry i q).sendTaps os).entry i = some q := (te i).trans (x.entry_setEntry i q)
  rw [hstay _ q hent (by rw [← hq]; exact hh)]
  refine ⟨((x.sameBut_setEntry i q).mono (by decide)).trans tf, ?_⟩
  rw [hent, ← hq]
  exact ⟨_, _, _, _, rfl⟩

section Judged

variable {idx : Fin 131072} {h : Nat × Nat} {f : Nat} (hr : s.running = true) (hs : s.schUp = true)
  (hh : s.sch.handoffs.find? (fun h => h.1 == idx.val) = some h) (he : s.entry idx = some e) (hser : e.serial = h.2)
  (hrs : s.ruleSection e = some (l, f))
include hr hs hh he hser hrs

/-- R372: with a code already set the result is kept in the record. -/
theorem headOutputs_kept (hv : e.verdict ≠ 0) :
    s.gives (.headOutputsHandoff t idx vals) [.sch, .line] fun s' => s'.entry idx =
      some (e.judged (ruleResult l (s.condBits e (headsOf l vals) l)).1
        (s.ruleInputs e (headsOf l vals))) := by
  have hexec := execHeadOutputsHandoff_judges (t := t) (vals := vals) hr hs hh he hser
  obtain ⟨a1, -, a3, a4, a5⟩ := s.judging_at' t idx e
  obtain ⟨hf, h1, -, h3, h4, h5, -⟩ := (s.at' t).handed_shows (i := idx) (e := e) h
  rw [State.judge_kept (h1.trans (a1.trans he)) (h3.trans (a3.trans hrs)) hv, h4, h5, a4, a5] at hexec
  refine State.gives_of_done t hexec ((hf.mono (by decide)).trans ((State.sameBut_setEntry _ _ _).mono (by decide))) ?_
  rw [State.entry_settle, State.entry_setEntry]

/-- R372: without a code, and before its deadline, the piece gets its verdict and action. -/
theorem headOutputs_decide (hv : e.verdict = 0) (hd : s.reached e e.deadline = false) (hz : s.line.frozen = false) (hheld : e.held = true) :
    s.gives (.headOutputsHandoff t idx vals) [.sch, .line, .regs, .dbg] fun s' => ∃ e', s'.entry idx = some e' ∧
      e'.verdict = 1 + (ruleResult l (s.condBits e (headsOf l vals) l)).1 ∧
      e'.action = (ruleResult l (s.condBits e (headsOf l vals) l)).2 ∧ e'.cause = 0 ∧ e'.state = 4 ∧ e'.dflt = false := by
  have hexec := execHeadOutputsHandoff_judges (t := t) (vals := vals) hr hs hh he hser
  obtain ⟨a1, a2, a3, a4, a5⟩ := s.judging_at' t idx e
  obtain ⟨hf, h1, h2, h3, h4, h5, h6⟩ := (s.at' t).handed_shows (i := idx) (e := e) h
  rw [State.judge_decides (h1.trans (a1.trans he)) (h3.trans (a3.trans hrs)) hv ((h2 _ _).trans (a2.trans hd)), h4, h5, a4, a5] at hexec
  generalize hres : ruleResult l (s.condBits e (headsOf l vals) l) = res at *
  have hlt : 1 + res.1 < 3 := by have := hres ▸ ruleResult_verdict_lt l (s.condBits e (headsOf l vals) l); omega
  generalize s.ruleInputs e (headsOf l vals) = ins at *
  have hz1 := Eq.trans (congrArg (fun q : Line => q.frozen) h6) (show (s.at' t).line.frozen = false by rw [State.at'_line, hz])
  generalize (s.at' t).handed h = w at *
  have kf := w.sameBut_setEntry idx (e.judged res.1 ins)
  have ke := w.entry_setEntry idx (e.judged res.1 ins)
  have kz : (w.setEntry idx (e.judged res.1 ins)).line.frozen = false := hz1
  generalize w.setEntry idx (e.judged res.1 ins) = u at *
  obtain ⟨cf, cz, a, b, c, ce⟩ := State.setCode_verdict ke kz hv hlt
  generalize u.setCode idx (1 + res.1) 0 = y at *
  obtain ⟨pf, nm, n, ts, ep, pe⟩ := State.planAction_held (a := res.2) (d := false) ce cz hheld
  refine State.gives_of_done t hexec ((hf.mono (by decide)).trans ((kf.mono (by decide)).trans ((cf.mono (by decide)).trans (pf.mono (by decide)))))
    ⟨_, (State.entry_settle _ _).trans pe, rfl, rfl, rfl, rfl, rfl⟩

end Judged

end Sys2Proof.Machine
end

section
/-! PROOF. A row goes to its stripes (R162, R287): the claim's second clause. -/

namespace Sys2Proof.Machine

variable {s x : State} {t j : Nat} {r : Fin 16} {k : Fin 4} {row : Row} {rest : List Row} {e : StripeAt}

theorem State.slot_setSlot (x : State) (j : Nat) (y : Slot) : (x.setSlot j y).slot j = y := KMap.getD_put_same _ _ _ _

theorem State.slot_congr {y : State} (h : y.intk = x.intk) (j : Nat) : y.slot j = x.slot j := by rw [State.slot, h, State.slot]

theorem State.sameBut_setSlot (x : State) (j : Nat) (y : Slot) : x.sameBut (x.setSlot j y) [.intk] := x.sameBut_mix (x.setSlot j y) [.intk]

/-- With no old configuration of a stripe left there is nothing to prune. -/
theorem State.pruneStripes_live (h : ∀ e ∈ x.fab.stripes, e.till = none) : x.pruneStripes j = x :=
  if_pos (List.all_eq_true.mpr fun e he => by rw [h e he]; rfl)

/-! ### The row that waits -/

/-- The stripes a row of slot `j` goes to. -/
def State.rowStripes (s : State) (j : Nat) (row : Row) : List StripeAt := s.stripesFor j (s.rowGen j row.time :: row.gens)

/-- Slot `j` after its oldest row has gone. -/
def State.slotSent (s : State) (j : Nat) (row : Row) (rest : List Row) : Slot :=
  { s.slot j with
    outq := rest, hist := keepLast ((s.slot j).hist ++ [((s.slot j).rowNo - (s.slot j).outq.length, row.count, row.time, s.rowGen j row.time)]) histMax }

theorem delivering_at' (s : State) (t j : Nat) (row : Row) : (s.at' t).slot j = s.slot j ∧ (s.at' t).rowStripes j row = s.rowStripes j row ∧
    (s.at' t).stripeRoom = s.stripeRoom := by
  unfold State.at'
  split <;> exact ⟨rfl, rfl, rfl⟩

theorem exec_gateRowDeliver (s : State) (t : Nat) (r : Fin 16) (k : Fin 4) : exec (.gateRowDeliver t r k) s = execGateRowDeliver t r k s := by rfl

/-- R162: a row that waits goes once every destination has room. -/
theorem exec_gateRowDeliver_row (hr : s.running = true) (hp : s.pwr.state = 0) (ho : (s.slot (4 * r + k)).outq = row :: rest) :
    exec (.gateRowDeliver t r k) s = if (s.rowStripes (4 * r + k) row).all s.stripeRoom then
      done (((s.rowStripes (4 * r + k) row).foldl (fun y e => y.stripeTake e row ((s.slot (4 * r + k)).rowNo - (s.slot (4 * r + k)).outq.length))
        ((s.at' t).setSlot (4 * r + k) ((s.at' t).slotSent (4 * r + k) row rest))).pruneStripes (4 * r + k)) else done (s.at' t) := by
  obtain ⟨h1, h2, h3⟩ := delivering_at' s t (4 * r + k) row
  rw [State.rowStripes] at h2
  rw [exec_gateRowDeliver]
  unfold execGateRowDeliver State.slotSent
  dsimp only
  rw [h1, ho]
  dsimp only
  rw [h2, h3, State.running_at', hr, State.at'_pwr, hp]
  cases hall : (s.stripesFor (4 * r + k) (s.rowGen (4 * r + k) row.time :: row.gens)).all s.stripeRoom
  · rw [State.rowStripes, hall]
    rfl
  · rw [State.rowStripes, hall]
    rfl

theorem gateRowDeliver_noRoom (hr : s.running = true) (hp : s.pwr.state = 0) (ho : (s.slot (4 * r + k)).outq = row :: rest)
    (he : e ∈ s.rowStripes (4 * r + k) row) (hf : s.stripeRoom e = false) : s.givesNothing (.gateRowDeliver t r k) := by
  refine State.givesNothing_of_done t ((exec_gateRowDeliver_row hr hp ho).trans (if_neg fun h => ?_))
  rw [List.all_eq_true.mp h e he] at hf
  exact absurd hf (by decide)

theorem gateRowDeliver_noStripe (hr : s.running = true) (hp : s.pwr.state = 0) (ho : (s.slot (4 * r + k)).outq = row :: rest)
    (ht : ∀ e ∈ s.fab.stripes, e.till = none) (he : s.rowStripes (4 * r + k) row = []) :
    s.gives (.gateRowDeliver t r k) [.intk] fun s' => (s'.slot (4 * r + k)).outq = rest := by
  have hexec := exec_gateRowDeliver_row (t := t) hr hp ho
  have hf := (s.at' t).sameBut_setSlot (4 * r + k) ((s.at' t).slotSent (4 * r + k) row rest)
  have hs := (s.at' t).slot_setSlot (4 * r + k) ((s.at' t).slotSent (4 * r + k) row rest)
  have hfab : ((s.at' t).setSlot (4 * r + k) ((s.at' t).slotSent (4 * r + k) row rest)).fab = s.fab := Eq.trans (hf.2 .fab (by decide)) (s.at'_fab t)
  rw [he, List.all_nil, if_pos rfl, List.foldl_nil] at hexec
  generalize (s.at' t).setSlot (4 * r + k) ((s.at' t).slotSent (4 * r + k) row rest) = w at *
  rw [State.pruneStripes_live (by rw [hfab]; exact ht)] at hexec
  refine State.gives_of_done t hexec hf ?_
  rw [State.slot_congr w.settle_intk, hs]
  rfl

/-! ### A row enters one stripe -/

/-- The stripes with one row more in the place of `e`. -/
def StripeAt.counted (e q : StripeAt) : StripeAt :=
  if q.runner = e.runner ∧ q.slot = e.slot ∧ q.stripe = e.stripe ∧ q.gen = e.gen then { q with n := q.n + 1 } else q

/-- The row's bytes reach a line buffer or a mould. -/
theorem State.stripeWrite_shows (x : State) (e : StripeAt) (row : Row) (no : Nat) :
    x.sameBut (x.stripeWrite e row no) [.regs, .fab] ∧ (x.stripeWrite e row no).fab.evcs = x.fab.evcs ∧
    (x.stripeWrite e row no).fab.stripes = x.fab.stripes := by
  unfold State.stripeWrite
  dsimp only
  split
  · exact ⟨(x.sameBut_fab _).mono (by decide), rfl, rfl⟩
  · refine List.foldlRecOn (motive := fun y : State => x.sameBut y [.regs, .fab] ∧ y.fab.evcs = x.fab.evcs ∧ y.fab.stripes = x.fab.stripes) _ _
      ⟨(x.sameBut_fab _).mono (by decide), rfl, rfl⟩ fun y hy q _ => ?_
    obtain ⟨hf, he, hs⟩ := hy
    exact ⟨(State.sameBut_wr (by decide)).mpr hf, he, hs⟩

theorem State.evc_evcAdd (x : State) (n c v : Nat) : (x.evcAdd n c v).evc n c = (x.evc n c + v) % 2 ^ 32 := by
  unfold State.evcAdd
  dsimp only
  generalize (x.evc n c + v) % 2 ^ 32 = w
  split
  next h => exact (KMap.getD_del_same _ _ _).trans h.symm
  · exact KMap.getD_put_same _ _ _ _

theorem State.evcAdd_shows (x : State) (n c v : Nat) : x.sameBut (x.evcAdd n c v) [.fab] ∧ (x.evcAdd n c v).fab.stripes = x.fab.stripes :=
  ⟨x.sameBut_fab _, rfl⟩

/-- The stripe counts its row. -/
def State.stripeCounted (x : State) (e : StripeAt) : State := { x with fab := { x.fab with stripes := x.fab.stripes.map e.counted } }

theorem State.stripeCounted_shows (x : State) (e : StripeAt) : x.sameBut (x.stripeCounted e) [.fab] ∧
    (x.stripeCounted e).fab.stripes = x.fab.stripes.map e.counted ∧ ∀ n c, (x.stripeCounted e).evc n c = x.evc n c :=
  ⟨x.sameBut_fab _, rfl, fun _ _ => rfl⟩

theorem State.stripeBound_congr {y : State} (h : y.sch = x.sch) (e : StripeAt) : y.stripeBound e = x.stripeBound e := by
  rw [State.stripeBound, State.stripeProg, h, ← State.stripeProg, ← State.stripeBound]

theorem State.stripeTake_eq (x : State) (e : StripeAt) (row : Row) (no : Nat) : x.stripeTake e row no =
    (if x.stripeBound e then (x.stripeWrite e row no).evcAdd (e.cru / 2) e.fill 1 else x.stripeWrite e row no).stripeCounted e := by rfl

/-- R287: the row is written whole, then FILL counts it. -/
theorem State.stripeTake_bound {no : Nat} (hb : x.stripeBound e = true) : x.sameBut (x.stripeTake e row no) [.regs, .fab] ∧
    (x.stripeTake e row no).evc (e.cru / 2) e.fill = (x.evc (e.cru / 2) e.fill + 1) % 2 ^ 32 ∧
    (x.stripeTake e row no).fab.stripes = x.fab.stripes.map e.counted := by
  obtain ⟨wf, we, ws⟩ := x.stripeWrite_shows e row no
  rw [State.stripeTake_eq, if_pos hb]
  have hevc : (x.stripeWrite e row no).evc (e.cru / 2) e.fill = x.evc (e.cru / 2) e.fill := by rw [State.evc, we, State.evc]
  generalize x.stripeWrite e row no = w at *
  have va := w.evc_evcAdd (e.cru / 2) e.fill 1
  obtain ⟨af, as⟩ := w.evcAdd_shows (e.cru / 2) e.fill 1
  generalize w.evcAdd (e.cru / 2) e.fill 1 = u at *
  obtain ⟨cf, cs, ce⟩ := u.stripeCounted_shows e
  exact ⟨wf.trans ((af.mono (by decide)).trans (cf.mono (by decide))), by rw [ce, va, hevc], by rw [cs, as, ws]⟩

theorem gateRowDeliver_one (hr : s.running = true) (hp : s.pwr.state = 0) (ho : (s.slot (4 * r + k)).outq = row :: rest)
    (ht : ∀ e ∈ s.fab.stripes, e.till = none) (he : s.rowStripes (4 * r + k) row = [e]) (hroom : s.stripeRoom e = true)
    (hb : s.stripeBound e = true) :
    s.gives (.gateRowDeliver t r k) [.regs, .intk, .fab] fun s' => (s'.slot (4 * r + k)).outq = rest ∧
      s'.evc (e.cru / 2) e.fill = (s.evc (e.cru / 2) e.fill + 1) % 2 ^ 32 ∧ { e with n := e.n + 1 } ∈ s'.fab.stripes := by
  have hexec := exec_gateRowDeliver_row (t := t) hr hp ho
  have hmem : e ∈ s.fab.stripes := (List.mem_filter.mp (show e ∈ s.rowStripes (4 * r + k) row by rw [he]; exact List.mem_singleton_self e)).1
  have hf := (s.at' t).sameBut_setSlot (4 * r + k) ((s.at' t).slotSent (4 * r + k) row rest)
  have hs := (s.at' t).slot_setSlot (4 * r + k) ((s.at' t).slotSent (4 * r + k) row rest)
  have hfab : ((s.at' t).setSlot (4 * r + k) ((s.at' t).slotSent (4 * r + k) row rest)).fab = s.fab := Eq.trans (hf.2 .fab (by decide)) (s.at'_fab t)
  have hsch : ((s.at' t).setSlot (4 * r + k) ((s.at' t).slotSent (4 * r + k) row rest)).sch = s.sch := Eq.trans (hf.2 .sch (by decide)) (s.at'_sch t)
  rw [he, List.all_cons, hroom, List.all_nil, Bool.and_self, if_pos rfl, List.foldl_cons, List.foldl_nil] at hexec
  generalize (s.at' t).setSlot (4 * r + k) ((s.at' t).slotSent (4 * r + k) row rest) = w at *
  obtain ⟨kf, ke, ks⟩ := State.stripeTake_bound (x := w) (row := row) (no := (s.slot (4 * r + k)).rowNo - (s.slot (4 * r + k)).outq.length)
    (by rw [State.stripeBound_congr hsch, hb])
  have kslot := State.slot_congr (kf.2 .intk (by decide)) (4 * r + k)
  generalize w.stripeTake e row ((s.slot (4 * r + k)).rowNo - (s.slot (4 * r + k)).outq.length) = u at *
  have hlive : ∀ q ∈ u.fab.stripes, q.till = none := by
    rw [ks, hfab]
    intro q hq
    obtain ⟨o, hmo, rfl⟩ := List.mem_map.mp hq
    unfold StripeAt.counted
    split <;> exact ht o hmo
  rw [State.pruneStripes_live hlive] at hexec
  refine State.gives_of_done t hexec ((hf.mono (by decide)).trans (kf.mono (by decide))) ⟨?_, ?_, ?_⟩
  · rw [State.slot_congr u.settle_intk, kslot, hs]
    rfl
  · rw [State.evc, State.settle_fab, ← State.evc, ke, State.evc, hfab, State.evc]
  · rw [State.settle_fab, ks, hfab]
    exact List.mem_map.mpr ⟨e, hmem, if_pos ⟨rfl, rfl, rfl, rfl⟩⟩

end Sys2Proof.Machine
end

section
/-! PROOF. A line becomes a row (R142): the claim's first clause. With every optional stage off the pipeline changes registers in no word and,
of the intake, only the slot: each stage is one equation on the slot as it then stands. -/

namespace Sys2Proof.Machine

variable {s y : State} {j : Nat} {z : Slot} {row : Row}

/-! ### A line on its way -/

/-- What the packer holds becomes `hs` and `qs`. -/
def State.packed (s : State) (hs : List Held) (qs : List SampleRec) : State := { s with intk := { s.intk with held := hs, samples := qs } }

theorem State.sameBut_packed (x : State) (hs : List Held) (qs : List SampleRec) : x.sameBut (x.packed hs qs) [.intk] :=
  x.sameBut_mix (x.packed hs qs) [.intk]

/-- The row in the output format, with the gap before it, for no piece. -/
def State.outRow (s : State) (j : Nat) (gap : Option (Nat × Nat × Nat)) (row : Row) : Row :=
  { row with px := row.px.map (outPx (decide (s.fld (R.RUN_SRC (j / 4) (j % 4)) 10 1 = 1))), gap := gap, gens := [] }

/-- Slot `j` takes rows of the live generation with every optional stage off. -/
structure State.plainSlot (s : State) (j : Nat) : Prop where
  gen : ∀ a, s.rowGen j a = s.liveGen
  started : s.boot.lineStarted = true
  src : s.fld (R.RUN_SRC (j / 4) (j % 4)) 0 2 = 1
  lin : s.fld (R.RUN_LIN (j / 4) (j % 4)) 0 3 = 0
  ff : s.fld (R.RUN_FF (j / 4) (j % 4)) 0 2 = 0
  crop : s.fld (R.RUN_CROP (j / 4) (j % 4)) 0 14 = 0
  bin : s.fld (R.RUN_BIN (j / 4) (j % 4)) 0 10 = 17
  tap : s.fld (R.RUN_TAP_CFG (j / 4) (j % 4)) 0 1 = 0
  roi : s.fld (R.RUN_ROI_CFG (j / 4) (j % 4)) 0 1 = 0
  seg : s.fld (R.RUN_SEG_CFG (j / 4) (j % 4)) 0 2 = 0

/-- A line of slot `j` is on its way: `s` has become `y`, with the same registers, and the slot stands at `z`. -/
structure State.carries (s : State) (j : Nat) (y : State) (z : Slot) : Prop where
  frame : s.sameBut y [.regs, .intk]
  rd : ∀ a, y.rd a = s.rd a
  slot : y.slot j = z
  enGen : z.enGen = (s.slot j).enGen

namespace State.carries

theorem refl (s : State) (j : Nat) : s.carries j s (s.slot j) := ⟨s.sameBut_refl _, fun _ => rfl, rfl, rfl⟩

variable (hc : s.carries j y z)
include hc

/-- The intake changes, but for the slot's generation. -/
theorem intk {w : State} {z' : Slot} (hf : y.sameBut w [.intk]) (hr : w.regs = y.regs) (hs : w.slot j = z') (hz : z'.enGen = z.enGen) :
    s.carries j w z' :=
  ⟨hc.frame.trans (hf.mono (by decide)), fun a => (State.rd_congr hr a).trans (hc.rd a), hs, hz.trans hc.enGen⟩

theorem put {z' : Slot} (hz : z'.enGen = z.enGen) : s.carries j (y.setSlot j z') z' :=
  hc.intk (y.sameBut_setSlot j z') rfl (y.slot_setSlot j z') hz

theorem liveGen : y.liveGen = s.liveGen := hc.rd _

theorem rowGen (hp : s.plainSlot j) (t : Nat) : y.rowGen j t = s.liveGen := by
  have hst : y.stage = s.stage := hc.frame.2 .stage (by decide)
  rw [State.rowGen, State.genAt, hst, hc.liveGen, hc.slot, hc.enGen, ← State.genAt, ← State.rowGen, hp.gen]

theorem cfg (a : Nat) : y.cfg s.liveGen a = s.rd a :=
  (if_pos hc.liveGen.symm).trans (hc.rd a)

theorem cfgF (a lo w : Nat) : y.cfgF s.liveGen a lo w = s.fld a lo w := by
  rw [State.cfgF, hc.cfg, State.fld]

/-! ### Taps and ROIs are off -/

theorem tapRow (hp : s.plainSlot j) (p : Nat) (row : Row) : y.tapRow j p row = y := by
  have h : s.rd (R.RUN_TAP_CFG (j / 4) (j % 4)) % 2 ≠ 1 := by
    have := hp.tap
    rw [State.fld] at this
    omega
  unfold State.tapRow
  rw [hc.rowGen hp, hc.cfg]
  exact if_neg fun hn => h hn.1

theorem roiPoint (hp : s.plainSlot j) (src : Nat) (row : Row) (a b : Nat) : y.roiPoint j src row a b = (y, row) := by
  have h : s.rd (R.RUN_ROI_CFG (j / 4) (j % 4)) % 2 ≠ 1 := by
    have := hp.roi
    rw [State.fld] at this
    omega
  unfold State.roiPoint
  rw [hc.rowGen hp, hc.cfg]
  exact if_neg fun hn => h hn.1

theorem tapEnd (ht : z.tap = none) : y.tapEnd j = y := by
  unfold State.tapEnd
  dsimp only
  rw [hc.slot, ht]

theorem tapLast (ht : z.tap = none) (b : Nat) (trunc : Bool) : s.carries j (y.tapLast j b trunc) { z with tap := none } := by
  unfold State.tapLast
  dsimp only
  rw [hc.slot, ht]
  exact hc.put rfl

/-- No ROI of the block before is left: the counter of dropped ones stays. -/
theorem roiBlock (hr : z.roiRecs = []) (b : Nat) :
    ∃ wr row rois, s.carries j (y.roiBlock j b) { z with roiRecs := [], roiWr := wr, roiRow := row, rois := rois } := by
  have hw : s.carries j (y.wr (R.RUN_ROI_DROP (j / 4) (j % 4)) (y.rd (R.RUN_ROI_DROP (j / 4) (j % 4)))) z := by
    refine ⟨(State.sameBut_wr (by decide)).mpr hc.frame, fun a => ?_, hc.slot, hc.enGen⟩
    by_cases ha : a = R.RUN_ROI_DROP (j / 4) (j % 4)
    · rw [ha, State.rd_wr_same, Nat.mod_eq_of_lt (State.rd_lt _ _), hc.rd]
    · rw [State.rd_wr_other _ _ ha, hc.rd]
  unfold State.roiBlock
  dsimp only
  rw [hc.slot, hr]
  exact ⟨_, _, _, hw.put rfl⟩

/-! ### Stages 1 to 7 -/

/-- Stage 1 alone: the pixels are normalised (R142). -/
theorem mergeGroup (hp : s.plainSlot j) (t : CorrTable) (l : Row) :
    y.mergeGroup s.liveGen j t [l] = l.px.map (normPx (s.fld (R.RUN_SRC (j / 4) (j % 4)) 8 2)) := by
  have h : s.fld (R.RUN_LIN (j / 4) (j % 4)) 0 1 ≠ 1 := by
    have := hp.lin
    rw [State.fld] at *
    omega
  have hlin : y.linear s.liveGen j t l.px = l.px.map (normPx (s.fld (R.RUN_SRC (j / 4) (j % 4)) 8 2)) := by
    unfold State.linear
    dsimp only
    rw [hc.cfgF, hc.cfgF, if_neg h]
  unfold State.mergeGroup
  dsimp only [List.map_cons, List.map_nil]
  exact hlin

theorem correctRow (hp : s.plainSlot j) (t : CorrTable) (a b : Nat) (hw : row.px.length ≤ s.fld (R.RUN_CROP (j / 4) (j % 4)) 16 15) :
    y.correctRow s.liveGen j t row a b = (y.setSlot j { z with prev := some row.px }, row) := by
  have hff : s.fld (R.RUN_FF (j / 4) (j % 4)) 0 1 ≠ 1 ∧ s.fld (R.RUN_FF (j / 4) (j % 4)) 1 1 ≠ 1 := by
    have := hp.ff
    simp only [State.fld] at *
    omega
  have hcrop : s.rd (R.RUN_CROP (j / 4) (j % 4)) % 2 ^ 14 = 0 := by
    have := hp.crop
    rw [State.fld] at this
    omega
  rw [State.fld] at hw
  unfold State.correctRow
  dsimp only
  rw [hc.tapRow hp, hc.cfgF, if_neg hff.1, hc.roiPoint hp]
  dsimp only
  rw [hc.slot, hc.cfgF, if_neg hff.2, hc.cfg, hcrop, List.drop_zero, List.take_of_length_le hw]

end State.carries

/-- Binning by one: the row itself. -/
theorem binRows_one (px : List Nat) : binRows 1 [px] = px := by
  unfold binRows
  refine List.ext_getElem (by simp) fun i h1 h2 => ?_
  have htake : (px.drop i).take 1 = [px[i]] := by
    rw [List.drop_eq_getElem_cons h2, List.take_succ_cons, List.take_zero]
  simp [htake]

namespace State.carries

variable (hc : s.carries j y z)
include hc

theorem binRow (hp : s.plainSlot j) (hb : z.bin = []) : y.binRow j row = (y.setSlot j { z with bin := [] }, some row) := by
  have h : s.rd (R.RUN_BIN (j / 4) (j % 4)) % 16 = 1 ∧ s.rd (R.RUN_BIN (j / 4) (j % 4)) / 16 % 16 = 1 ∧
      s.rd (R.RUN_BIN (j / 4) (j % 4)) / 2 ^ 8 % 2 = 0 := by
    have := hp.bin
    rw [State.fld] at this
    omega
  unfold State.binRow
  dsimp only
  rw [hc.rowGen hp, hc.cfg, hc.slot, hb, h.1, h.2.1, Nat.testBit_eq_decide_div_mod_eq, h.2.2]
  simp [nth, binRows_one]

/-! ### Segmentation -/

/-- No piece is open: the packer takes the row for none. -/
theorem packRow (hl : z.lanes = []) (no : Nat) (row : Row) : s.carries j (y.packRow j no row) z := by
  unfold State.packRow
  dsimp only
  rw [hc.slot, hl]
  simp only [List.filterMap_nil, List.contains_nil, Bool.false_and, List.filter_false, List.foldl_nil]
  exact hc.intk (y.sameBut_packed _ _) rfl hc.slot rfl

theorem seg (hl : z.lanes = []) (l : Nat) : y.seg j l = {} := by
  rw [State.seg, hc.slot, hl]
  rfl

theorem segMode (hp : s.plainSlot j) : y.segMode s.liveGen j = 0 := by
  rw [State.segMode, hc.cfgF, hp.seg]

theorem segWeb (hp : s.plainSlot j) (hl : z.lanes = []) {c : SegRow} (hg : c.gen = s.liveGen) : y.segWeb j c = y := by
  have hweb : y.webCfg s.liveGen j = none := by
    rw [State.webCfg, hc.segMode hp]
    rfl
  have halign : y.alignOff s.liveGen j = some 0 := by
    rw [State.alignOff, hweb]
  have hrow : c.aligned 0 = c := by
    rw [SegRow.aligned, if_pos rfl]
  unfold State.segWeb State.webRow
  rw [hg, halign]
  dsimp only
  rw [hrow, hg, hc.segMode hp, hc.seg hl]
  rfl

theorem segLane (hp : s.plainSlot j) (hl : z.lanes = []) {c : SegRow} (hg : c.gen = s.liveGen) (l : Nat) : y.segLane j l c = y := by
  have hlane : y.laneCfg s.liveGen j l = none := by
    rw [State.laneCfg, hc.segMode hp]
    exact if_neg fun h => absurd h.1 (by decide)
  have hrow : y.laneRow j l {} c y.castBound = (y, {}) := by
    rw [State.castBound, State.laneRow, hg]
    dsimp only
    rw [hlane]
    rfl
  rw [State.segLane, hc.seg hl, hrow]
  rfl

/-- Segmentation is off: the row is counted and remembered. -/
theorem segmentRow (hp : s.plainSlot j) (hl : z.lanes = []) (row : Row) :
    ∃ rc lr, s.carries j (y.segmentRow j row) { z with recent := rc, rowNo := z.rowNo + 1, lastRow := lr } := by
  unfold State.segmentRow
  dsimp only
  rw [hc.slot]
  have hgen : (y.segRow j z.lastRow z.rowNo row).gen = s.liveGen := hc.rowGen hp _
  generalize y.segRow j z.lastRow z.rowNo row = c at *
  have h0 := hc.put (z' := { z with recent := keepLast (z.recent ++ [(z.rowNo, row)]) histMax }) rfl
  have h1 := h0.packRow hl c.no row
  rw [h1.segWeb hp hl hgen]
  generalize (y.setSlot j { z with recent := keepLast (z.recent ++ [(z.rowNo, row)]) histMax }).packRow j c.no row = w at *
  have hfold : (List.range 16).foldl (fun s l => if ((s.seg j l).opened || (s.seg j l).cont.isSome) && decide (s.segMode (s.seg j l).gen j = 3)
      then s.segProg j l c else s.segLane j l c) w = w := by
    refine State.foldl_id fun l _ => ?_
    rw [h1.seg hl]
    exact h1.segLane hp hl hgen l
  rw [hfold, h1.slot]
  exact ⟨_, _, h1.put rfl⟩

/-! ### Stages 8 and 9 -/

theorem rowOut (hp : s.plainSlot j) (hl : z.lanes = []) (ho : z.outq = []) (row : Row) :
    ∃ rc lr, s.carries j (y.rowOut j row) { z with gapOut := none, recent := rc, rowNo := z.rowNo + 1, lastRow := lr, outq := [s.outRow j z.gapOut row] } := by
  unfold State.rowOut
  dsimp only
  rw [hc.rowGen hp, hc.cfgF, hc.slot, show y.boot = s.boot from hc.frame.2 .boot (by decide), hp.started, if_pos rfl]
  obtain ⟨rc, lr, h⟩ := (hc.put (z' := { z with gapOut := none }) rfl).segmentRow hp hl
    { row with px := row.px.map (outPx (decide (s.fld (R.RUN_SRC (j / 4) (j % 4)) 10 1 = 1))), gap := z.gapOut }
  generalize (y.setSlot j { z with gapOut := none }).segmentRow j _ = w at *
  rw [h.slot]
  dsimp only
  rw [hl, ho]
  exact ⟨rc, lr, h.put rfl⟩

theorem deskewOut (hp : s.plainSlot j) (hd : z.delay = [row]) : y.deskewOut j 1 = (y.setSlot j { z with delay := [] }).rowOut j row := by
  have h : s.fld (R.RUN_BIN (j / 4) (j % 4)) 9 1 ≠ 1 := by
    have := hp.bin
    simp only [State.fld] at *
    omega
  have hbad : ({ row with px := row.px, bad := ([row].take (0 + 1)).any (fun r => r.bad) } : Row) = row := by
    simp
  have h1 := hc.put (z' := { z with delay := [] }) rfl
  unfold State.deskewOut State.deskewD
  dsimp only
  rw [hc.slot, hd]
  dsimp only
  rw [hc.rowGen hp, hc.cfgF, if_neg h, if_neg (show ¬[row].length < 0 + 1 from Nat.lt_irrefl 1), if_neg h, h1.tapRow hp, State.deskewOut]
  exact congrArg _ hbad

/-! ### A line through all stages -/

/-- A row after its merge goes through stages 3 to 9 at once. -/
theorem mergedRow (hp : s.plainSlot j) (hb : z.bin = []) (hd : z.delay = []) (hl : z.lanes = []) (ho : z.outq = []) (t : CorrTable) (rows : Nat)
    (hw : row.px.length ≤ s.fld (R.RUN_CROP (j / 4) (j % 4)) 16 15) :
    ∃ pv rr rc lr, s.carries j (y.mergedRow j row t rows)
      { z with
        prev := pv, bin := [], delay := [], outq := [s.outRow j z.gapOut row], gapOut := none, rowNo := z.rowNo + 1
        lastRow := lr, recent := rc, roiRow := rr } := by
  have h1 := hc.put (z' := { z with prev := some row.px }) rfl
  unfold State.mergedRow
  dsimp only
  rw [hc.rowGen hp, hc.tapRow hp, hc.roiPoint hp, hc.slot]
  dsimp only
  rw [hc.correctRow hp t _ _ hw]
  dsimp only
  rw [h1.slot]
  generalize y.setSlot j { z with prev := some row.px } = w at *
  have h2 := h1.put (z' := { z with prev := some row.px, roiRow := (z.roiRow.1 + 1, z.roiRow.2) }) rfl
  rw [h2.binRow hp hb]
  dsimp only
  generalize w.setSlot j { z with prev := some row.px, roiRow := (z.roiRow.1 + 1, z.roiRow.2) } = w at *
  have h3 := h2.put (z' := { z with prev := some row.px, roiRow := (z.roiRow.1 + 1, z.roiRow.2), bin := [] }) rfl
  rw [h3.slot]
  dsimp only
  generalize w.setSlot j { z with prev := some row.px, roiRow := (z.roiRow.1 + 1, z.roiRow.2), bin := [] } = w at *
  rw [hd]
  have h4 := h3.put (z' := { z with
    prev := some row.px, roiRow := (z.roiRow.1 + 1, z.roiRow.2), bin := [], delay := [{ row with gap := none }] }) rfl
  have h5 := h4.put (z' := { z with prev := some row.px, roiRow := (z.roiRow.1 + 1, z.roiRow.2), bin := [], delay := [] }) rfl
  obtain ⟨rc, lr, h⟩ := h5.rowOut hp hl ho { row with gap := none }
  rw [← h4.deskewOut hp rfl] at h
  exact ⟨_, _, rc, lr, h⟩

/-- A merge group of one: the line is its row (R142). -/
theorem mergeLine (hp : s.plainSlot j) (hm : z.merge = []) (hb : z.bin = []) (hd : z.delay = []) (hl : z.lanes = []) (ho : z.outq = [])
    (hr : z.retired = none) {l : InLine} (hw : l.row.px.length ≤ s.fld (R.RUN_CROP (j / 4) (j % 4)) 16 15) :
    ∃ pv rr rc lr, s.carries j (y.mergeLine j l)
      { z with
        merge := [], prev := pv, bin := [], delay := [], gapOut := none, rowNo := z.rowNo + 1, lastRow := lr, recent := rc, roiRow := rr
        outq := [s.outRow j z.gapOut { l.row with px := l.row.px.map (normPx (s.fld (R.RUN_SRC (j / 4) (j % 4)) 8 2)) }] } := by
  have hlin : s.fld (R.RUN_LIN (j / 4) (j % 4)) 1 2 = 0 := by
    have := hp.lin
    simp only [State.fld] at *
    omega
  have hused : z.usedAt l.row.time = z := by
    rw [Slot.usedAt, hr]
  unfold State.mergeLine
  dsimp only
  rw [hc.slot, hm, List.nil_append, hc.rowGen hp, hc.cfgF, hlin, if_neg (by simp [Nat.mod_one]), if_neg (by simp)]
  rw [show nth [l.row] 0 {} = l.row from rfl, hused, hc.mergeGroup hp]
  exact (hc.put (z' := { z with merge := [] }) rfl).mergedRow hp hb hd hl ho _ _ (by rw [List.length_map]; exact hw)

/-- A line without a gap before it goes through the whole pipeline (R142). -/
theorem lineIn (hp : s.plainSlot j) (hm : z.merge = []) (hb : z.bin = []) (hd : z.delay = []) (hl : z.lanes = []) (ho : z.outq = [])
    (hr : z.retired = none) (hi : z.roiRecs = []) (ht : z.tap = none) {l : InLine} (hg : l.row.gap = none)
    (hw : l.row.px.length ≤ s.fld (R.RUN_CROP (j / 4) (j % 4)) 16 15) :
    ∃ z', s.carries j (y.lineIn j l) z' ∧ z'.inq = z.inq ∧ z'.rowNo = z.rowNo + 1 ∧
      z'.outq = [s.outRow j z.gapOut { l.row with px := l.row.px.map (normPx (s.fld (R.RUN_SRC (j / 4) (j % 4)) 8 2)) }] := by
  have hblock : ∃ wr rr rois, s.carries j (if l.idx = 0 ∨ z.roiRow.2 ≠ l.block + 1 then y.roiBlock j l.block else y)
      { z with roiRecs := [], roiWr := wr, roiRow := rr, rois := rois } := by
    split
    · exact hc.roiBlock hi _
    · exact ⟨z.roiWr, z.roiRow, z.rois, hi ▸ hc⟩
  unfold State.lineIn
  dsimp only
  rw [hc.slot, hg]
  obtain ⟨wr, rr, rois, h0⟩ := hblock
  generalize (if l.idx = 0 ∨ z.roiRow.2 ≠ l.block + 1 then y.roiBlock j l.block else y) = w at *
  dsimp only
  rw [h0.tapRow hp]
  obtain ⟨pv, rr', rc, lr, h1⟩ := h0.mergeLine hp hm hb hd hl ho hr hw
  generalize w.mergeLine j l = u at *
  split
  · have h2 := h1.tapLast ht l.block (decide (l.idx + 1 < l.lines))
    rw [h2.tapEnd rfl]
    exact ⟨_, h2, rfl, rfl, rfl⟩
  · rw [h1.tapEnd ht]
    exact ⟨_, h1, rfl, rfl, rfl⟩

end State.carries

end Sys2Proof.Machine
end

section
/-! PROOF. A line of slot 0 is taken up (R142), and the claim of O48. -/

namespace Sys2Proof.Machine

variable {s x : State} {t : Nat} {r : Fin 16} {l : InLine}

theorem exec_runnerLine (s : State) (t : Nat) (r : Fin 16) (k : Fin 4) (bad : Option (BitVec 29)) :
    exec (.runnerLine t r k bad) s = execRunnerLine t r k bad s := by rfl

/-- What a slot and its lines are read from stays with the time. -/
theorem lines_at' (s : State) (t j : Nat) : (s.at' t).slot j = s.slot j ∧ (s.at' t).crossing = s.crossing ∧
    (∀ a, (s.at' t).rowGen j a = s.rowGen j a) ∧ (s.at' t).liveGen = s.liveGen := by
  unfold State.at'
  split <;> exact ⟨rfl, rfl, fun _ => rfl, rfl⟩

theorem State.plainSlot.at' {j : Nat} (h : s.plainSlot j) (t : Nat) : (s.at' t).plainSlot j := by
  obtain ⟨-, -, hg, hl⟩ := lines_at' s t j
  exact ⟨fun a => by rw [hg, hl, h.gen], by rw [State.at'_boot, h.started], by rw [State.fld_at', h.src], by rw [State.fld_at', h.lin],
    by rw [State.fld_at', h.ff], by rw [State.fld_at', h.crop], by rw [State.fld_at', h.bin], by rw [State.fld_at', h.tap],
    by rw [State.fld_at', h.roi], by rw [State.fld_at', h.seg]⟩

theorem State.outRow_at' (s : State) (t j : Nat) (gap : Option (Nat × Nat × Nat)) (row : Row) : (s.at' t).outRow j gap row = s.outRow j gap row := by
  rw [State.outRow, State.fld_at', State.outRow]

/-- A feed takes nothing in while a line waits. -/
theorem State.feedFill_waiting {j : Nat} (h : (x.slot j).inq ≠ []) : x.feedFill j = x := if_neg fun hn => h hn.2

/-- Slot 0 starts its line with all it has corrected delivered and no cast pending over it. -/
theorem State.mayStart_slot0 (hi : (x.slot (4 * r)).inq = [l]) (ho : (x.slot (4 * r)).outq = []) (hc : x.crossing = none) :
    x.mayStart (4 * r) = true := by
  unfold State.mayStart State.sideKnown
  dsimp only
  rw [hi, ho, hc]
  simp

theorem execRunnerLine_slot0 (hr : s.running = true) (hp : s.pwr.state = 0) (hi : (s.slot (4 * r)).inq = [l]) (ho : (s.slot (4 * r)).outq = [])
    (hc : s.crossing = none) : exec (.runnerLine t r 0 none) s =
      done ((((s.at' t).setSlot (4 * r) { s.slot (4 * r) with inq := [] }).lineIn (4 * r) l).slotEnd (4 * r)) := by
  obtain ⟨h1, h2, -, -⟩ := lines_at' s t (4 * r)
  have hfill : (s.at' t).feedFill (4 * r) = s.at' t := State.feedFill_waiting (by rw [h1, hi]; simp)
  have hstart : (s.at' t).mayStart (4 * r) = true := State.mayStart_slot0 (h1.symm ▸ hi) (h1.symm ▸ ho) (h2.trans hc)
  have hgo : ¬(!(s.at' t).served r 0 || !(s.at' t).mayStart (4 * r)) = true := by
    rw [hstart, show (s.at' t).served r 0 = true from if_pos rfl]
    decide
  rw [exec_runnerLine]
  unfold execRunnerLine
  dsimp only [Fin.val_zero, Nat.add_zero]
  rw [State.running_at', hr, State.at'_pwr, hp, h1, hi, if_neg (by simp), hfill, if_neg hgo, h1, hi]
  rfl

/-- The slot stays enabled: no stream ends. -/
theorem State.slotEnd_on {j : Nat} (h : x.fld (R.RUN_SRC (j / 4) (j % 4)) 0 2 = 1) : x.slotEnd j = x := by
  refine if_pos (.inl ?_)
  rw [State.slotOn, State.bit, decide_eq_true_eq]
  rw [State.fld] at *
  omega

/-- R142: with every optional stage off a line becomes a row. -/
theorem runnerLine_row (hr : s.running = true) (hx : s.slot (4 * r) = { s.slot (4 * r) with
      inq := [l], outq := [], merge := [], bin := [], delay := [], lanes := [], tap := none, roiRecs := [], retired := none })
    (hp : s.pwr.state = 0) (hc : s.crossing = none) (hs : s.plainSlot (4 * r)) (hg : l.row.gap = none)
    (hw : l.row.px.length ≤ s.fld (R.RUN_CROP (4 * r / 4) (4 * r % 4)) 16 15) :
    s.gives (.runnerLine t r 0 none) [.regs, .intk] fun s' => (s'.slot (4 * r)).inq = [] ∧
      (s'.slot (4 * r)).rowNo = (s.slot (4 * r)).rowNo + 1 ∧ (s'.slot (4 * r)).outq = [s.outRow (4 * r) (s.slot (4 * r)).gapOut
        { l.row with px := l.row.px.map (normPx (s.fld (R.RUN_SRC (4 * r / 4) (4 * r % 4)) 8 2)) }] := by
  have hexec := execRunnerLine_slot0 (t := t) hr hp (congrArg Slot.inq hx) (congrArg Slot.outq hx) hc
  have h0 := State.carries.refl (s.at' t) (4 * r)
  rw [(lines_at' s t (4 * r)).1] at h0
  have h1 := h0.put (z' := { s.slot (4 * r) with inq := [] }) rfl
  obtain ⟨z, h2, hi, hn, ho⟩ := h1.lineIn (hs.at' t) (congrArg Slot.merge hx) (congrArg Slot.bin hx) (congrArg Slot.delay hx)
    (congrArg Slot.lanes hx) (congrArg Slot.outq hx) (congrArg Slot.retired hx) (congrArg Slot.roiRecs hx) (congrArg Slot.tap hx) hg
    (by rw [State.fld_at']; exact hw)
  rw [State.outRow_at', State.fld_at'] at ho
  generalize ((s.at' t).setSlot (4 * r) { s.slot (4 * r) with inq := [] }).lineIn (4 * r) l = w at *
  rw [State.slotEnd_on (by rw [State.fld, h2.rd, State.rd_at', ← State.fld]; exact hs.src)] at hexec
  refine State.gives_of_done t hexec h2.frame ?_
  rw [State.slot_congr w.settle_intk, h2.slot]
  exact ⟨hi, hn, ho⟩

/-! ### The claim -/

/-- Settles O48: the line through the stages, the row to its stripes, the head outputs to their verdict. -/
theorem runnerOutput : Obligations.RunnerOutput := by
  unfold Obligations.RunnerOutput
  intro s t r hr
  refine ⟨fun l hx hp hb hc hsrc hlin hff hcrop hw hbin htap hroi hseg hg hgen => ?_, fun k row rest ho hp ht => ⟨?_, ?_, ?_⟩,
    fun idx vals h e l f hu hh he hser hrs => ⟨?_, ?_⟩⟩
  · have hdiv : 4 * (r : Nat) / 4 = r := Nat.mul_div_cancel_left _ (by decide)
    have hmod : 4 * (r : Nat) % 4 = 0 := Nat.mul_mod_right _ _
    have hplain : s.plainSlot (4 * r) := ⟨hgen, hb, by rwa [hdiv, hmod], by rwa [hdiv, hmod], by rwa [hdiv, hmod], by rwa [hdiv, hmod],
      by rwa [hdiv, hmod], by rwa [hdiv, hmod], by rwa [hdiv, hmod], by rwa [hdiv, hmod]⟩
    obtain ⟨s', hex, hk, hi, hn, hout⟩ := runnerLine_row (t := t) hr hx hp hc hplain hg (by rw [hdiv, hmod]; exact hw)
    refine ⟨s', hex, hk, hi, hn, _, hout, rfl, rfl, rfl, ?_⟩
    rw [State.outRow, hdiv, hmod, List.map_map]
    rfl
  · exact gateRowDeliver_noStripe hr hp ho ht
  · exact fun e he hroom hbound => gateRowDeliver_one hr hp ho ht he hroom hbound
  · exact fun e he hf => gateRowDeliver_noRoom hr hp ho he hf
  · exact headOutputs_kept hr hu hh he hser hrs
  · exact headOutputs_decide hr hu hh he hser hrs

end Sys2Proof.Machine
end

section
/-! PROOF. Every command answers (R76, R92, R248). -/

namespace Sys2Proof.Machine

/-- Settles O3: a command that ends answers the settled state. -/
theorem everyCommandAnswers : Obligations.EveryCommandAnswers := by
  unfold Obligations.EveryCommandAnswers
  intro c s
  obtain ⟨x, hx⟩ := exec_ends c s
  exact ⟨x.settle, hx⟩

end Sys2Proof.Machine
end

section
/-! PROOF. Orders that are refused with one result (R81, R83). -/

namespace Sys2Proof.Machine

variable {s : State} {t : Nat} {o : Order}

/-- An order that is refused has no effect but its result. -/
theorem runOrder_refuses {q : Fin 16} {seq : BitVec 16} {op : Nat} {body : State → Order → State} (h : s.orderReady q seq.toNat op = some o)
    (h0 : s.orderRefusal o ≠ 0) : runOrder t q seq op body s =
      done ((s.started t o).complete o.running (s.orderRefusal o) (if 64 ≤ op then o.ctx else 0)) := by
  have hrun : runOrder t q seq op body s = match (s.at' t).orderReady q seq.toNat op with
      | none => done (s.at' t)
      | some o => if (s.started t o).orderRefusal o ≠ 0 then
            done ((s.started t o).complete o.running ((s.started t o).orderRefusal o) (if 64 ≤ op then o.ctx else 0))
          else done (body (s.started t o) o.running) := rfl
  obtain ⟨-, -, -, hsch, -⟩ := s.started_keeps t o
  rw [hrun, State.orderReady_at', h]
  dsimp only
  rw [State.orderRefusal_congr hsch, if_pos h0]

/-- A refused order answers its code and the context it names, and nothing else. -/
theorem State.gives_refusal {c : Instr} {q : Fin 16} {seq : BitVec 16} {op code ctx : Nat} {body : State → Order → State}
    (hc : exec c s = runOrder t q seq op body s) (h : s.orderReady q seq.toNat op = some o) (ha : s.canAnswer o)
    (hr : s.orderRefusal o = code) (h0 : code ≠ 0) (hx : (if 64 ≤ op then o.ctx else 0) = ctx) :
    ∃ s', exec c s = .next s' ∧ s.keepsBut s' [.host, .hostMem] ∧ s.answers s' o code ctx 0 0 := by
  rw [runOrder_refuses h (hr ▸ h0), hr, hx] at hc
  obtain ⟨z, hz, hk, -, hans⟩ := State.gives_answerOnly hc ha (l := [.host, .hostMem]) (by decide)
  exact ⟨_, hz, hk, hans⟩

/-- Below opcode 0x40 an order names no context and uses no reserved bits (R83). -/
theorem State.orderRefusal_device (h : o.opcode < 64) (hb : o.rsv ≠ 0 ∨ o.ctx ≠ 0) : s.orderRefusal o = E_CMD_ARG := by
  unfold State.orderRefusal
  rw [if_neg (Nat.not_le.mpr h), if_pos hb]

theorem State.orderRefusal_noCtx (h : 64 ≤ o.opcode) (hc : s.ctx o.ctx = none) : s.orderRefusal o = E_CMD_CTX := by
  unfold State.orderRefusal
  rw [if_pos h, hc]

theorem State.orderRefusal_failed {c : Ctx} (h : 64 ≤ o.opcode) (hc : s.ctx o.ctx = some c) (hf : c.st = 6) : s.orderRefusal o = c.code := by
  unfold State.orderRefusal
  rw [if_pos h, hc]
  exact if_pos hf

/-- Settles O33: the refusal of R83, for its reserved bits, for a context there is none of, and for one that failed. -/
theorem refusedOrders : Obligations.RefusedOrders := by
  unfold Obligations.RefusedOrders
  intro s t q seq o ha
  refine ⟨fun h hb => ?_, fun h hc => ?_, fun c h hc hf hcode => ?_⟩
  · obtain ⟨-, hop⟩ := State.orderReady_some h
    exact State.gives_refusal (show exec (.nop t q seq) s = execNop t q seq s from rfl) h ha
      (State.orderRefusal_device (by omega) hb) (by decide) (if_neg (by decide))
  · obtain ⟨-, hop⟩ := State.orderReady_some h
    exact State.gives_refusal (show exec (.pourStart t q seq) s = execPourStart t q seq s from rfl) h ha
      (State.orderRefusal_noCtx (by omega) hc) (by decide) (if_pos (by decide))
  · obtain ⟨-, hop⟩ := State.orderReady_some h
    exact State.gives_refusal (show exec (.pourCancel t q seq) s = execPourCancel t q seq s from rfl) h ha
      (State.orderRefusal_failed (by omega) hc hf) hcode (if_pos (by decide))

end Sys2Proof.Machine
end

section
/-! PROOF. The orders that set up queues, rings, the host tier and BAR2 (Table 4.4, R77, R80, R82, R195). -/

namespace Sys2Proof.Machine

variable {s x y z : State} {t : Nat} {o : Order}

/-! ### Orders without a context -/

theorem nop_answers : ordersAs Instr.nop 0x00 (fun _ o => o.only [] = true) [.host, .hostMem] (fun s s' o => s.answers s' o E_NONE 0 0 0) := by
  intro s t q seq o hready h0 ha hok
  have hexec : exec (.nop t q seq) s = runOrder t q seq 0x00 (fun s o => s.complete o (if o.only [] then E_NONE else E_CMD_ARG)) s := rfl
  rw [runOrder_runs hready h0, Order.only_running, hok, if_pos rfl] at hexec
  obtain ⟨z, hz, hk, -, hans⟩ := State.gives_answerOnly hexec ha (l := [.host, .hostMem]) (by decide)
  exact ⟨_, hz, hk, hans⟩

/-- Queue `n` has the fence bit and the ring given (R82). -/
def State.queueBound (s : State) (n : Nat) (fence : Bool) (ring : Nat) : State :=
  (s.setBit (R.CMD_Q_HEAD n) 24 fence).setFld (R.CMD_Q_HEAD n) 25 4 ring

theorem State.queueBound_shows (x : State) (n ring : Nat) (fence : Bool) : x.sameBut (x.queueBound n fence ring) [.regs] ∧
    x.regsBut (x.queueBound n fence ring) [R.CMD_Q_HEAD n] ∧ (x.queueBound n fence ring).bit (R.CMD_Q_HEAD n) 24 = fence ∧
    (x.queueBound n fence ring).fld (R.CMD_Q_HEAD n) 25 4 = ring % 2 ^ 4 ∧
    (x.queueBound n fence ring).fld (R.CMD_Q_HEAD n) 0 24 = x.fld (R.CMD_Q_HEAD n) 0 24 := by
  unfold State.queueBound
  refine ⟨by simp, State.regsBut_setFld (State.regsBut_setBit (x.regsBut_refl _) (by simp)) (by simp), ?_,
    State.fld_setFld_same _ _ _ _ _ (by decide), ?_⟩
  · rw [State.bit_setFld_apart _ (by omega), State.bit_setBit_same _ _ _ _ (by decide)]
  · rw [State.fld_setFld_apart _ (by omega), State.fld_setBit_apart _ (by omega)]

theorem R.CMD_HOST_STATE_ne_CMD_Q_HEAD (n : Nat) : R.CMD_HOST_STATE ∉ [R.CMD_Q_HEAD n] := by
  simp only [R.CMD_HOST_STATE, R.CMD_Q_HEAD, List.mem_singleton]
  omega

theorem queueBind_answers : ordersAs Instr.queueBind 0x01
    (fun _ o => o.only [0x1FF] = true ∧ o.queue = 0 ∧ o.w 2 % 16 ≠ 0 ∧ o.w 2 / 16 % 16 ≤ 7) [.host, .hostMem, .regs] (fun s s' o =>
      let a := R.CMD_Q_HEAD (o.w 2 % 16)
      s.answers s' o E_NONE 0 0 0 ∧ s'.bit a 24 = (o.w 2).testBit 8 ∧ s'.fld a 25 4 = o.w 2 / 16 % 16 ∧
      s'.fld a 0 24 = s.fld a 0 24 ∧ s.regsBut s' [a]) := by
  rintro s t q seq o hready h0 ha ⟨honly, hq, hn, hring⟩
  have hexec : exec (.queueBind t q seq) s = runOrder t q seq 0x01 (fun s o =>
    if !o.only [0x1FF] ∨ 7 < o.w 2 / 16 % 16 then s.complete o E_CMD_ARG
    else if o.queue ≠ 0 ∨ o.w 2 % 16 = 0 then s.complete o E_CMD_QUEUE
    else (s.queueBound (o.w 2 % 16) ((o.w 2).testBit 8) (o.w 2 / 16 % 16)).complete o E_NONE) s := rfl
  obtain ⟨h1, h2, h3, -, hregs, -⟩ := s.started_keeps t o
  have hf := (s.started_shows t o).1
  have hqr : o.running.queue = 0 := hq
  rw [runOrder_runs hready h0, Order.only_running, Order.w_running, honly, if_neg (by simpa using hring), hqr,
    if_neg (by simpa using hn)] at hexec
  generalize s.started t o = w at *
  obtain ⟨bf, br, b1, b2, b3⟩ := w.queueBound_shows (o.w 2 % 16) (o.w 2 / 16 % 16) ((o.w 2).testBit 8)
  have bhost := bf.2 .host (by decide)
  have hst := br.fld (lo := 0) (w := 2) (R.CMD_HOST_STATE_ne_CMD_Q_HEAD _)
  generalize w.queueBound (o.w 2 % 16) ((o.w 2).testBit 8) (o.w 2 / 16 % 16) = v at *
  obtain ⟨z, hz, hk, kf, hans⟩ := State.gives_answer (l := [.host, .hostMem, .regs]) hexec ha
    ((hf.mono (by decide)).trans (bf.mono (by decide))) (hst.trans h1) ((congrArg HostIf.rings bhost).trans h2)
    ((congrArg HostIf.backlog bhost).trans h3) (by decide)
  have hreg : z.settle.regs = v.regs := (State.settle_regs z).trans (kf.2 .regs (by decide))
  refine ⟨_, hz, hk, hans, (State.bit_congr hreg _ _).trans b1, (State.fld_congr hreg _ _ _).trans (b2.trans (Nat.mod_mod _ _)),
    ((State.fld_congr hreg _ _ _).trans b3).trans (State.fld_congr hregs _ _ _),
    ((State.regsBut_congr hregs _).trans br).trans (State.regsBut_congr hreg _)⟩

/-! ### Rings (R80, R90) -/

/-- A message changes neither what waits for a ring nor the events lost. -/
theorem State.msix_waiting (x : State) (v : Nat) : (x.msix v).host.backlog = x.host.backlog ∧
    (x.msix v).host.evtLostPending = x.host.evtLostPending := by
  unfold State.msix
  split
  · exact ⟨rfl, rfl⟩
  · split <;> exact ⟨rfl, rfl⟩

/-- Signalling a ring changes no other ring, and nothing of what waits. -/
theorem State.signalRing_apart (x : State) {r k : Nat} (h : k ≠ r) :
    KMap.find (x.signalRing r).host.rings k = KMap.find x.host.rings k ∧ (x.signalRing r).host.backlog = x.host.backlog ∧
    (x.signalRing r).host.evtLostPending = x.host.evtLostPending := by
  unfold State.signalRing
  split
  · exact ⟨rfl, rfl, rfl⟩
  · split
    · rw [State.msix_rings, (State.msix_waiting _ _).1, (State.msix_waiting _ _).2]
      exact ⟨KMap.find_put_other _ _ h, rfl, rfl⟩
    · exact ⟨rfl, rfl, rfl⟩

/-- The result of an order that can be answered changes no ring but its own, and nothing of what waits. -/
theorem State.complete_apart {code ctx v3 v4 v5 k : Nat} (h : x.canAnswer o) (hk : o.ring ≠ some k) :
    KMap.find (x.complete o code ctx v3 v4 v5).host.rings k = KMap.find x.host.rings k ∧
    (x.complete o code ctx v3 v4 v5).host.backlog = x.host.backlog ∧
    (x.complete o code ctx v3 v4 v5).host.evtLostPending = x.host.evtLostPending := by
  obtain ⟨hg, ⟨r, g, hr, hf⟩, hb⟩ := h
  have hkr : k ≠ r := fun e => hk (e ▸ hr)
  have hend : KMap.find (x.orderEnd o).host.rings r = some g := hf
  rw [State.complete_eq hg hr hf hb, State.ringWrite_eq _ hend]
  obtain ⟨h1, h2, h3⟩ := ((x.orderEnd o).ringPut r g (x.resultEntry o code ctx v3 v4 v5)).signalRing_apart hkr
  exact ⟨h1.trans (KMap.find_put_other _ _ hkr), h2, h3⟩

/-- Where the host's state, the order's ring and the backlog are the same, the order can be answered. -/
theorem State.canAnswer_ring (hs : y.fld R.CMD_HOST_STATE 0 2 = x.fld R.CMD_HOST_STATE 0 2)
    (hr : ∀ r, o.ring = some r → KMap.find y.host.rings r = KMap.find x.host.rings r) (hb : y.host.backlog = x.host.backlog)
    (h : x.canAnswer o) : y.canAnswer o := by
  obtain ⟨hg, ⟨r, g, hor, hf⟩, hk⟩ := h
  unfold State.canAnswer State.gone at *
  exact ⟨by rw [hs, hg], ⟨r, g, hor, (hr r hor).trans hf⟩, by rw [hb, hk]⟩

/-- The same answer, told from another state in which the order's ring is the same, once it is settled. -/
theorem State.answers.ofRing {code ctx v3 v4 : Nat} (h : x.answers y o code ctx v3 v4)
    (hr : ∀ r, o.ring = some r → KMap.find x.host.rings r = KMap.find s.host.rings r) : s.answers y.settle o code ctx v3 v4 := by
  obtain ⟨h0, r, g, g', hor, hf, h1⟩ := h
  unfold State.answers
  rw [State.settle_host, State.settle_hostMem]
  exact ⟨h0, r, g, g', hor, (hr r hor).symm.trans hf, h1⟩

/-- Ring `r` is `g`, and its head register stands at its first entry (log 105). -/
def State.ringSet (s : State) (r : Nat) (g : Ring) : State := (s.setRing r g).wr (headReg r) 0

theorem State.ringSet_shows (x : State) {r : Nat} (g : Ring) (hr : r ≤ 8) : x.sameBut (x.ringSet r g) [.host, .regs] ∧
    (x.ringSet r g).fld R.CMD_HOST_STATE 0 2 = x.fld R.CMD_HOST_STATE 0 2 ∧
    (x.ringSet r g).host = { x.host with rings := KMap.put x.host.rings r g } := by
  obtain ⟨hf, hregs, hhost⟩ := x.setRing_shows r g
  refine ⟨(State.sameBut_wr (by decide)).mpr (hf.mono (by decide)), (State.fld_wr_other _ _ _ _ ?_).trans (State.fld_congr hregs _ _ _), hhost⟩
  simp only [headReg, R.CMD_HOST_STATE, R.CMD_EVT_HEAD, R.CMD_RR_HEAD]
  split <;> omega

/-- The ring an order sets up. -/
def Order.newRing (o : Order) : Ring := { base := o.w 2 + 2 ^ 32 * o.w 3, log2 := o.w 4 % 32, count := o.w 5, timeUs := o.w 6 }

theorem Order.newRing_running (o : Order) : o.running.newRing = o.newRing := rfl

theorem ringArgsOk_running (o : Order) : ringArgsOk o.running = ringArgsOk o := rfl

theorem ringArgsOk_number (h : ringArgsOk o = true) : o.w 4 / 256 % 16 ≤ 8 := by
  unfold ringArgsOk at h
  simp only [Bool.and_eq_true, decide_eq_true_eq] at h
  exact h.2.2.2.1

theorem ringSetup_answers : ordersAs Instr.ringSetup 0x02 (fun s o => ringArgsOk o = true ∧ o.ring ≠ some (o.w 4 / 256 % 16) ∧
      s.host.backlog = [] ∧ s.host.evtLostPending = 0) [.host, .hostMem, .regs] (fun s s' o =>
      let r := o.w 4 / 256 % 16
      s.answers s' o E_NONE 0 0 0 ∧ KMap.find s'.host.rings r =
        some { base := o.w 2 + 2 ^ 32 * o.w 3, log2 := o.w 4 % 32, count := o.w 5, timeUs := o.w 6 }) := by
  rintro s t q seq o hready h0 ha ⟨hargs, hring, hback, hlost⟩
  have hexec : exec (.ringSetup t q seq) s = runOrder t q seq 0x02 (fun s o => if !ringArgsOk o then s.complete o E_CMD_ARG
    else if o.w 4 / 256 % 16 = 0 ∧ o.ring = some 0 then
      (((s.ringSet (o.w 4 / 256 % 16) o.newRing).orderEnd o).ringWrite 0
        ((s.ringSet (o.w 4 / 256 % 16) o.newRing).resultEntry o E_NONE 0 0 0 0)).deliver
    else (((s.ringSet (o.w 4 / 256 % 16) o.newRing).complete o E_NONE).deliver).reportLost) s := rfl
  have hself : ¬ (o.w 4 / 256 % 16 = 0 ∧ o.running.ring = some 0) := fun ⟨hr, h⟩ => hring (hr ▸ h)
  obtain ⟨h1, h2, h3, -⟩ := s.started_keeps t o
  obtain ⟨hf, hhost⟩ := s.started_shows t o
  rw [runOrder_runs hready h0, ringArgsOk_running, hargs, if_neg (by decide), Order.w_running, if_neg hself, Order.newRing_running] at hexec
  generalize s.started t o = w at *
  obtain ⟨sf, s1, shost⟩ := w.ringSet_shows o.newRing (ringArgsOk_number hargs)
  generalize w.ringSet (o.w 4 / 256 % 16) o.newRing = v at *
  have hsame : ∀ r, o.running.ring = some r → KMap.find v.host.rings r = KMap.find s.host.rings r := fun r hr => by
    rw [shost, ← h2]
    exact KMap.find_put_other _ _ fun e => hring (e ▸ hr)
  have hcan : v.canAnswer o.running := State.canAnswer_ring (s1.trans h1) hsame (by rw [shost, h3]) ha
  obtain ⟨cf, cans⟩ := State.complete_answers (code := E_NONE) (ctx := 0) (v3 := 0) (v4 := 0) (v5 := 0) hcan
  obtain ⟨c1, c2, c3⟩ := State.complete_apart (code := E_NONE) (ctx := 0) (v3 := 0) (v4 := 0) (v5 := 0) hcan hring
  generalize v.complete o.running E_NONE = u at *
  rw [State.deliver_none (by rw [c2, shost, h3, hback]), State.reportLost_none (by rw [c3, shost, hhost, hlost])] at hexec
  refine ⟨_, hexec, State.sameBut.keepsBut ((hf.mono (by decide)).trans ((sf.mono (by decide)).trans (cf.mono (by decide)))),
    cans.ofRing hsame, ?_⟩
  rw [State.settle_host, c1, shost]
  exact KMap.find_put_same _ _ _

/-! ### The host tier (R195) -/

/-- The host tier is at `base` and of `n` MiB. -/
def State.tierSet (s : State) (base n : Nat) : State := (s.wr64 R.MEM_HOST_TIER_BASE base).wr R.MEM_HOST_TIER_SIZE n

theorem State.tierSet_shows (x : State) (base n : Nat) : x.sameBut (x.tierSet base n) [.regs] ∧
    x.regsBut (x.tierSet base n) [R.MEM_HOST_TIER_BASE, R.MEM_HOST_TIER_BASE + 4, R.MEM_HOST_TIER_SIZE] ∧
    (x.tierSet base n).rd R.MEM_HOST_TIER_SIZE = n % 2 ^ 32 ∧ (x.tierSet base n).rd64 R.MEM_HOST_TIER_BASE = base % 2 ^ 64 := by
  refine ⟨by simp [State.tierSet], ?_, State.rd_wr_same _ _ _, ?_⟩
  · exact State.regsBut_wr (State.regsBut_wr (State.regsBut_wr (x.regsBut_refl _) (by simp)) (by simp)) (by simp)
  · rw [← State.rd64_wr64_same x R.MEM_HOST_TIER_BASE base]
    unfold State.tierSet State.rd64
    rw [State.rd_wr_other _ _ (by decide), State.rd_wr_other _ _ (by decide)]

/-- With no page on the host tier its withdrawal moves none. -/
theorem State.tierWithdraw_empty (h : x.tierPages = []) : x.tierWithdraw = .inl (x.tierSet 0 0) := by
  unfold State.tierWithdraw
  rw [h]
  rfl

theorem hostTier_answers : ordersAs Instr.hostTier 0x03 (fun s o => o.only [0xFFFFFFFF, 0xFFFFFFFF, 0xFFFFFFFF, 0xFFFFFFFF] = true ∧
      (o.w 4 + 2 ^ 32 * o.w 5) % 2 ^ 21 = 0 ∧ o.w 2 < 2 ^ 32 ∧ o.w 3 < 2 ^ 32 ∧ s.tierPages = []) [.host, .hostMem, .regs] (fun s s' o =>
      let size := o.w 4 + 2 ^ 32 * o.w 5
      s.answers s' o E_NONE 0 0 0 ∧ s'.rd R.MEM_HOST_TIER_SIZE = size / 2 ^ 20 % 2 ^ 32 ∧
      s'.rd64 R.MEM_HOST_TIER_BASE = (if size = 0 then 0 else o.w 2 + 2 ^ 32 * o.w 3) ∧
      s.regsBut s' [R.MEM_HOST_TIER_BASE, R.MEM_HOST_TIER_BASE + 4, R.MEM_HOST_TIER_SIZE]) := by
  rintro s t q seq o hready h0 ha ⟨honly, hsize, hlo, hhi, hpages⟩
  have hexec : exec (.hostTier t q seq) s = runOrder t q seq 0x03 (fun s o =>
    if !o.only [0xFFFFFFFF, 0xFFFFFFFF, 0xFFFFFFFF, 0xFFFFFFFF] ∨ (o.w 4 + 2 ^ 32 * o.w 5) % 2 ^ 21 ≠ 0 then s.complete o E_CMD_ARG
    else match s.tierWithdraw with
      | .inr k => s.complete o E_CMD_ARG 0 k
      | .inl s1 => if o.w 4 + 2 ^ 32 * o.w 5 = 0 then s1.complete o E_NONE
        else (s1.tierSet (o.w 2 + 2 ^ 32 * o.w 3) ((o.w 4 + 2 ^ 32 * o.w 5) / 2 ^ 20)).complete o E_NONE) s := rfl
  obtain ⟨h1, h2, h3, -, hregs, -, hfab, -⟩ := s.started_keeps t o
  have hf := (s.started_shows t o).1
  have hw : (s.started t o).tierPages = [] := by rw [State.tierPages, hfab, ← State.tierPages, hpages]
  rw [runOrder_runs hready h0, Order.only_running, Order.w_running, honly, if_neg (by simpa using hsize), State.tierWithdraw_empty hw] at hexec
  dsimp only at hexec ⊢
  generalize s.started t o = w at *
  obtain ⟨ef, er, e1, e2⟩ := w.tierSet_shows 0 0
  generalize w.tierSet 0 0 = e at *
  obtain ⟨v, hv, vf, vr, v1, v2⟩ : ∃ v, exec (.hostTier t q seq) s = done (v.complete o.running E_NONE) ∧ w.sameBut v [.regs] ∧
      w.regsBut v [R.MEM_HOST_TIER_BASE, R.MEM_HOST_TIER_BASE + 4, R.MEM_HOST_TIER_SIZE] ∧
      v.rd R.MEM_HOST_TIER_SIZE = (o.w 4 + 2 ^ 32 * o.w 5) / 2 ^ 20 % 2 ^ 32 ∧
      v.rd64 R.MEM_HOST_TIER_BASE = (if o.w 4 + 2 ^ 32 * o.w 5 = 0 then 0 else o.w 2 + 2 ^ 32 * o.w 3) := by
    by_cases hz : o.w 4 + 2 ^ 32 * o.w 5 = 0
    · rw [if_pos hz] at hexec ⊢
      rw [hz]
      exact ⟨e, hexec, ef, er, e1, e2⟩
    · rw [if_neg hz] at hexec ⊢
      obtain ⟨f, r, g1, g2⟩ := e.tierSet_shows (o.w 2 + 2 ^ 32 * o.w 3) ((o.w 4 + 2 ^ 32 * o.w 5) / 2 ^ 20)
      exact ⟨_, hexec, ef.trans f, er.trans r, g1, g2.trans (Nat.mod_eq_of_lt (by omega))⟩
  have vhost : v.host = w.host := vf.2 .host (by decide)
  obtain ⟨z, hz, hk, kf, hans⟩ := State.gives_answer (l := [.host, .hostMem, .regs]) hv ha ((hf.mono (by decide)).trans (vf.mono (by decide)))
    ((vr.fld (by decide)).trans h1) (by rw [vhost, h2]) (by rw [vhost, h3]) (by decide)
  have hreg : z.settle.regs = v.regs := (State.settle_regs z).trans (kf.2 .regs (by decide))
  refine ⟨_, hz, hk, hans, (State.rd_congr hreg _).trans v1, ?_,
    ((State.regsBut_congr hregs _).trans vr).trans (State.regsBut_congr hreg _)⟩
  rw [← v2, State.rd64, State.rd_congr hreg, State.rd_congr hreg, State.rd64]

/-! ### BAR2 (R77) -/

/-- The result of an order that can be answered changes no mapping. -/
theorem State.complete_bar2 {code ctx v3 v4 v5 : Nat} (h : x.canAnswer o) :
    (x.complete o code ctx v3 v4 v5).host.bar2 = x.host.bar2 := by
  obtain ⟨hg, ⟨r, g, hr, hf⟩, hb⟩ := h
  rw [State.complete_eq hg hr hf hb]
  obtain ⟨-, -, hbar2, -⟩ := ((x.orderEnd o).posts_ringWrite r (x.resultEntry o code ctx v3 v4 v5)).keeps
  exact hbar2

/-- Slot `k` of BAR2 is unmapped, or maps what `b` gives. -/
def State.bar2Set (s : State) (k : Nat) (b : Option Bar2Slot) : State :=
  { s with host := { s.host with bar2 := match b with | none => KMap.del s.host.bar2 k | some m => KMap.put s.host.bar2 k m } }

theorem State.bar2Set_shows (x : State) (k : Nat) (b : Option Bar2Slot) : x.sameBut (x.bar2Set k b) [.host] ∧ (x.bar2Set k b).regs = x.regs ∧
    (x.bar2Set k b).host.rings = x.host.rings ∧ (x.bar2Set k b).host.backlog = x.host.backlog ∧
    KMap.find (x.bar2Set k b).host.bar2 k = b ∧ ∀ j, j ≠ k → KMap.find (x.bar2Set k b).host.bar2 j = KMap.find x.host.bar2 j := by
  refine ⟨x.sameBut_host _, rfl, rfl, rfl, ?_⟩
  cases b with
  | none => exact ⟨KMap.find_del_same _ _, fun _ hj => KMap.find_del_other _ hj⟩
  | some m => exact ⟨KMap.find_put_same _ _ _, fun _ hj => KMap.find_put_other _ _ hj⟩

/-- What an order asks its slot of BAR2 to map. -/
def Order.newSlot (o : Order) : Bar2Slot := { ctx := o.w 2 / 64 % 16, writable := (o.w 2).testBit 10, base := o.w 3 + 2 ^ 32 * o.w 4 }

theorem Order.newSlot_running (o : Order) : o.running.newSlot = o.newSlot := rfl

theorem bar2Map_answers : ordersAs Instr.bar2Map 0x04 (fun s o => o.only [0xFFF, 0xFFFFFFFF, 0xFFFFFFFF] = true ∧
      (o.w 3 + 2 ^ 32 * o.w 4) % 2 ^ 30 = 0 ∧ o.w 3 + 2 ^ 32 * o.w 4 < 2 ^ 48 ∧ (s.ctx (o.w 2 / 64 % 16)).isSome) [.host, .hostMem]
    (fun s s' o =>
      let w := o.w 2
      s.answers s' o E_NONE 0 0 0 ∧
      KMap.find s'.host.bar2 (w % 64) = (if w.testBit 11 then none else
        some { ctx := w / 64 % 16, writable := w.testBit 10, base := o.w 3 + 2 ^ 32 * o.w 4 }) ∧
      ∀ k, k ≠ w % 64 → KMap.find s'.host.bar2 k = KMap.find s.host.bar2 k) := by
  rintro s t q seq o hready h0 ha ⟨honly, halign, hbound, hctx⟩
  have hexec : exec (.bar2Map t q seq) s = runOrder t q seq 0x04 (fun s o =>
    if !o.only [0xFFF, 0xFFFFFFFF, 0xFFFFFFFF] ∨ (o.w 3 + 2 ^ 32 * o.w 4) % 2 ^ 30 ≠ 0 ∨ 2 ^ 48 ≤ o.w 3 + 2 ^ 32 * o.w 4
      then s.complete o E_CMD_ARG
    else if (s.ctx (o.w 2 / 64 % 16)).isNone then s.complete o E_CMD_CTX
    else if (o.w 2).testBit 11 then (s.bar2Set (o.w 2 % 64) none).complete o E_NONE
    else (s.bar2Set (o.w 2 % 64) (some o.newSlot)).complete o E_NONE) s := rfl
  obtain ⟨h1, h2, h3, hsch, -⟩ := s.started_keeps t o
  obtain ⟨hf, hhost⟩ := s.started_shows t o
  have hw : ¬ ((s.started t o).ctx (o.w 2 / 64 % 16)).isNone = true := by
    rw [State.ctx_congr hsch, Option.isNone_iff_eq_none]
    exact Option.isSome_iff_ne_none.mp hctx
  rw [runOrder_runs hready h0, Order.only_running, Order.w_running, honly, halign, if_neg (by simpa using hbound), if_neg hw,
    Order.newSlot_running,
    ← apply_ite (fun b => ((s.started t o).bar2Set (o.w 2 % 64) b).complete o.running E_NONE)] at hexec
  generalize s.started t o = w at *
  obtain ⟨bf, br, b1, b2, b3, b4⟩ := w.bar2Set_shows (o.w 2 % 64) (if (o.w 2).testBit 11 then none else some o.newSlot)
  generalize w.bar2Set (o.w 2 % 64) (if (o.w 2).testBit 11 then none else some o.newSlot) = v at *
  have hcan : v.canAnswer o.running := State.canAnswer_congr ((State.fld_congr br _ _ _).trans h1) (b1.trans h2) (b2.trans h3) ha
  obtain ⟨cf, cans⟩ := State.complete_answers (code := E_NONE) (ctx := 0) (v3 := 0) (v4 := 0) (v5 := 0) hcan
  have hbar2 := State.complete_bar2 (code := E_NONE) (ctx := 0) (v3 := 0) (v4 := 0) (v5 := 0) hcan
  refine ⟨_, hexec, State.sameBut.keepsBut ((hf.mono (by decide)).trans ((bf.mono (by decide)).trans (cf.mono (by decide)))),
    cans.of (b1.trans h2), ?_⟩
  rw [State.settle_host, hbar2]
  exact ⟨b3, fun k hk => (b4 k hk).trans (by rw [hhost])⟩

/-- Settles O34, order by order. -/
theorem windowOrders : Obligations.WindowOrders := by
  unfold Obligations.WindowOrders
  exact ⟨nop_answers, queueBind_answers, ringSetup_answers, hostTier_answers, bar2Map_answers⟩

end Sys2Proof.Machine
end

section
/-! PROOF. Bytes moved between memories (R194): what the frame a page comes to holds, and that no byte beside it changes. -/

namespace Sys2Proof.Machine

variable {α : Type} {s x y z : State}

/-! ### Sparse stores laid over one another -/

theorem KMap.find_none_of_keys {m : KMap α} {k : Nat} (h : ∀ c ∈ m, c.1 ≠ k) : KMap.find m k = none := by
  induction m with
  | nil => rfl
  | cons c m ih =>
    obtain ⟨hc, hm⟩ := List.forall_mem_cons.mp h
    rw [KMap.find, if_neg hc.symm, ih hm]

theorem KMap.le_of_risingFrom {m : KMap α} : ∀ {lo : Nat}, KMap.risingFrom lo m = true → ∀ c ∈ m, lo ≤ c.1 := by
  induction m with
  | nil => exact fun _ _ hc => absurd hc List.not_mem_nil
  | cons e m ih =>
    intro lo h c hc
    simp only [KMap.risingFrom, Bool.and_eq_true, decide_eq_true_eq] at h
    rcases List.mem_cons.mp hc with rfl | hm
    · exact h.1
    · exact (Nat.le_succ_of_le h.1).trans (ih h.2 c hm)

/-- Where the upper store has no entry, the lower one shows. -/
theorem KMap.find_overlay_none {k : Nat} (l : KMap α) : ∀ m : KMap α, KMap.find l k = none →
    KMap.find (KMap.overlay m l) k = KMap.find m k := by
  induction l with
  | nil => exact fun _ _ => rfl
  | cons c l ih =>
    intro m h
    obtain ⟨a, b⟩ := c
    rw [KMap.find] at h
    split at h
    · exact absurd h (by simp)
    next hk => rw [KMap.overlay, ih _ h, KMap.find_put_other _ _ hk]

/-- An entry of the upper store stands, its keys rising. -/
theorem KMap.find_overlay_some {k : Nat} {v : α} (l : KMap α) : ∀ {lo : Nat} (m : KMap α), KMap.risingFrom lo l = true →
    KMap.find l k = some v → KMap.find (KMap.overlay m l) k = some v := by
  induction l with
  | nil => exact fun _ _ h => absurd h (by simp)
  | cons c l ih =>
    intro lo m hl h
    obtain ⟨a, b⟩ := c
    simp only [KMap.risingFrom, Bool.and_eq_true] at hl
    rw [KMap.find] at h
    rw [KMap.overlay]
    split at h
    next hk =>
      have hnone : KMap.find l k = none := KMap.find_none_of_keys fun c hc e => by
        have := KMap.le_of_risingFrom hl.2 c hc
        omega
      rw [KMap.find_overlay_none _ _ hnone, ← h, hk, KMap.find_put_same]
    · exact ih _ hl.2 h

/-- The entries of `[a, …)` shifted to `f`. -/
def KMap.shift (m : KMap α) (a f : Nat) : KMap α := m.map fun c => (c.1 - a + f, c.2)

theorem KMap.find_shift {a f j : Nat} {m : KMap α} (h : ∀ c ∈ m, a ≤ c.1) : KMap.find (KMap.shift m a f) (f + j) = KMap.find m (a + j) := by
  induction m with
  | nil => rfl
  | cons c m ih =>
    obtain ⟨hc, hm⟩ := List.forall_mem_cons.mp h
    have hiff : f + j = c.1 - a + f ↔ a + j = c.1 := by omega
    rw [KMap.shift, List.map_cons, KMap.find, KMap.find, ← KMap.shift, ih hm]
    simp only [hiff]

theorem KMap.rising_shift {a f : Nat} {m : KMap α} : ∀ {lo : Nat}, a ≤ lo → KMap.risingFrom lo m = true →
    KMap.risingFrom (lo - a + f) (KMap.shift m a f) = true := by
  induction m with
  | nil => exact fun _ _ => rfl
  | cons c m ih =>
    intro lo ha h
    simp only [KMap.risingFrom, Bool.and_eq_true, decide_eq_true_eq] at h
    rw [KMap.shift, List.map_cons, KMap.risingFrom, ← KMap.shift, Bool.and_eq_true, decide_eq_true_eq]
    refine ⟨by omega, ?_⟩
    have hnext := ih (lo := c.1 + 1) (by omega) h.2
    rwa [show c.1 + 1 - a + f = c.1 - a + f + 1 by omega] at hnext

theorem KMap.rising_of_keys {lo a : Nat} {m : KMap α} (h : KMap.risingFrom lo m = true) (ha : ∀ c ∈ m, a ≤ c.1) :
    KMap.risingFrom a m = true := by
  cases m with
  | nil => rfl
  | cons c m =>
    simp only [KMap.risingFrom, Bool.and_eq_true, decide_eq_true_eq] at h ⊢
    exact ⟨ha c List.mem_cons_self, h.2⟩

/-! ### Ranges of a memory -/

theorem KMap.mem_within {m : KMap α} {a len : Nat} {c : Nat × α} (h : c ∈ KMap.within m a len) : a ≤ c.1 ∧ c.1 < a + len := by
  simpa using (List.mem_filter.mp h).2

theorem Mem.read_zero_inside (m : Mem) {a len b : Nat} (h : a ≤ b ∧ b < a + len) : Mem.read (Mem.zero m a len) b = Mem.blank := by
  rw [Mem.read, KMap.getD, Mem.zero, KMap.find_filter_none m (fun k => !(decide (a ≤ k) && decide (k < a + len))) (by simp [h])]

theorem Mem.read_zero_outside (m : Mem) {a len b : Nat} (h : b < a ∨ a + len ≤ b) : Mem.read (Mem.zero m a len) b = Mem.read m b := by
  rw [Mem.read, KMap.getD, Mem.zero, KMap.find_filter_keys m (fun k => !(decide (a ≤ k) && decide (k < a + len))) (by simp; omega)]
  rfl

/-- The bytes a move brings. -/
theorem Mem.read_moveBytes {src : Mem} (dst : Mem) {a f len j : Nat} (hs : Mem.wf src = true) (hj : j < len) :
    Mem.read (moveBytes src dst a f len) (f + j) = Mem.read src (a + j) := by
  rw [Mem.wf, Bool.and_eq_true] at hs
  have hkeys : ∀ c ∈ KMap.within src a len, a ≤ c.1 := fun c hc => (KMap.mem_within hc).1
  have hrise : KMap.risingFrom (a - a + f) (KMap.shift (KMap.within src a len) a f) = true :=
    KMap.rising_shift le_rfl (KMap.rising_of_keys (KMap.wf_filter _ hs.1) hkeys)
  have hfind : KMap.find (KMap.shift (KMap.within src a len) a f) (f + j) = KMap.find src (a + j) :=
    (KMap.find_shift hkeys).trans
      (KMap.find_filter_keys src (fun k => decide (a ≤ k) && decide (k < a + len)) (by simp [hj]))
  rw [show moveBytes src dst a f len = KMap.overlay (Mem.zero dst f len) (KMap.shift (KMap.within src a len) a f) from rfl]
  cases hv : KMap.find src (a + j) with
  | none =>
    have hz := Mem.read_zero_inside dst (a := f) (len := len) (b := f + j) (by omega)
    rw [Mem.read, KMap.getD] at hz
    rw [Mem.read, KMap.getD, KMap.find_overlay_none _ _ (hfind.trans hv), hz, Mem.read, KMap.getD, hv]
  | some v => rw [Mem.read, KMap.getD, KMap.find_overlay_some _ _ hrise (hfind.trans hv), Mem.read, KMap.getD, hv]

/-- A move changes no byte beside where it goes. -/
theorem Mem.read_moveBytes_outside (src dst : Mem) {a f len b : Nat} (h : b < f ∨ f + len ≤ b) :
    Mem.read (moveBytes src dst a f len) b = Mem.read dst b := by
  have hnone : KMap.find (KMap.shift (KMap.within src a len) a f) b = none := KMap.find_none_of_keys fun c hc e => by
    obtain ⟨d, hd, rfl⟩ := List.mem_map.mp hc
    have := KMap.mem_within hd
    simp only at e
    omega
  rw [show moveBytes src dst a f len = KMap.overlay (Mem.zero dst f len) (KMap.shift (KMap.within src a len) a f) from rfl, Mem.read, KMap.getD,
    KMap.find_overlay_none _ _ hnone]
  exact Mem.read_zero_outside dst h

/-! ### Pages that move -/

/-- A page of 4 KiB of the host tier comes to a free frame of device memory. -/
theorem State.bringPage_small {c va f : Nat} {p : Pte} (h2 : KMap.find s.fab.pt2 (c * 2 ^ 27 + va / 2 ^ 21) = none)
    (h4 : KMap.find s.fab.pt4 (c * 2 ^ 36 + va / 2 ^ 12) = some p) (hp : p.onHost = true) (hf : f % 2 ^ 12 = 0)
    (hd : f + 2 ^ 12 ≤ 126976 * 2 ^ 20)
    (hfree : s.frameFree (c * 2 ^ 27 + va / 2 ^ 21) (c * 2 ^ 36 + va / 2 ^ 12) f (2 ^ 12) = true) :
    s.bringPage c va f = some { s with fab := { s.fab with
      pt4 := KMap.put s.fab.pt4 (c * 2 ^ 36 + va / 2 ^ 12) { p with tier := 0, frame := f, back := false }
      dram := moveBytes s.hostMem s.fab.dram (s.rd64 R.MEM_HOST_TIER_BASE + p.frame) f (2 ^ 12) } } := by
  have htier : p.tier = 1 ∨ p.tier = 2 := by
    simp only [Pte.onHost, Bool.or_eq_true, Bool.and_eq_true, decide_eq_true_eq] at hp
    exact hp.imp_right And.left
  unfold State.bringPage
  dsimp only
  rw [h2]
  dsimp only
  rw [h4]
  dsimp only
  rw [if_neg (by omega), hfree, if_neg (by simp only [dramEnd, Bool.not_true, Bool.false_eq_true, or_false]; omega), if_pos hp]
  rfl

/-- R185, R194: what a page of the host tier that comes to a frame brings. -/
theorem State.bringPage_brings {c va f : Nat} {p : Pte} (hw : s.memWf = true) (h2 : KMap.find s.fab.pt2 (c * 2 ^ 27 + va / 2 ^ 21) = none)
    (h4 : KMap.find s.fab.pt4 (c * 2 ^ 36 + va / 2 ^ 12) = some p) (hp : p.onHost = true) (hf : f % 2 ^ 12 = 0)
    (hd : f + 2 ^ 12 ≤ 126976 * 2 ^ 20)
    (hfree : s.frameFree (c * 2 ^ 27 + va / 2 ^ 21) (c * 2 ^ 36 + va / 2 ^ 12) f (2 ^ 12) = true) :
    ∃ s2, s.bringPage c va f = some s2 ∧ s2.leaf c va = some ({ p with tier := 0, frame := f, back := false }, va % 2 ^ 12) ∧
      (∀ j < 2 ^ 12, Mem.read s2.fab.dram (f + j) = Mem.read s.hostMem (s.rd64 R.MEM_HOST_TIER_BASE + p.frame + j)) ∧
      ∀ b, (b < f ∨ f + 2 ^ 12 ≤ b) → Mem.read s2.fab.dram b = Mem.read s.fab.dram b := by
  simp only [State.memWf, Bool.and_eq_true] at hw
  obtain ⟨⟨hhost, -⟩, -⟩ := hw
  refine ⟨_, State.bringPage_small h2 h4 hp hf hd hfree, ?_, fun j hj => Mem.read_moveBytes _ hhost hj,
    fun b hb => Mem.read_moveBytes_outside _ _ hb⟩
  unfold State.leaf
  rw [h2]
  dsimp only
  rw [KMap.find_put_same]

/-- A page that may go to the host tier goes to a free frame of it. -/
theorem State.sendOut_eq {y va : Nat} {s2 : State} (h : s.sendOut y va = some s2) :
    ∃ p f, KMap.find s.fab.pt2 (y * 2 ^ 27 + va / 2 ^ 21) = some p ∧ p.prot = false ∧
      s2 = { s with hostMem := moveBytes s.fab.dram s.hostMem p.frame (s.rd64 R.MEM_HOST_TIER_BASE + f) (2 ^ 21)
                    fab := { s.fab with pt2 := KMap.put s.fab.pt2 (y * 2 ^ 27 + va / 2 ^ 21) { p with tier := 1, frame := f }
                                        dram := Mem.zero s.fab.dram p.frame (2 ^ 21) } } := by
  unfold State.sendOut at h
  dsimp only at h
  split at h
  next p f hp hf =>
    obtain ⟨hno, heq⟩ := Option.ite_none_left_eq_some.mp h
    simp only [Bool.or_eq_true, not_or, Bool.not_eq_true] at hno
    obtain ⟨⟨⟨⟨-, hprot⟩, -⟩, -⟩, -⟩ := hno
    exact ⟨p, f, hp, hprot, (Option.some.inj heq).symm⟩
  · exact absurd h (by simp)

/-- R194: what a page that goes to the host tier brings there. -/
theorem State.sendOut_takes {y va : Nat} {s2 : State} (hw : s.memWf = true) (h : s.sendOut y va = some s2) :
    ∃ p f, KMap.find s.fab.pt2 (y * 2 ^ 27 + va / 2 ^ 21) = some p ∧ p.prot = false ∧
      KMap.find s2.fab.pt2 (y * 2 ^ 27 + va / 2 ^ 21) = some { p with tier := 1, frame := f } ∧
      (∀ j < 2 ^ 21, Mem.read s2.hostMem (s.rd64 R.MEM_HOST_TIER_BASE + f + j) = Mem.read s.fab.dram (p.frame + j)) ∧
      ∀ b, (b < p.frame ∨ p.frame + 2 ^ 21 ≤ b) → Mem.read s2.fab.dram b = Mem.read s.fab.dram b := by
  simp only [State.memWf, Bool.and_eq_true] at hw
  obtain ⟨⟨-, hdram⟩, -⟩ := hw
  obtain ⟨p, f, hp, hprot, rfl⟩ := State.sendOut_eq h
  exact ⟨p, f, hp, hprot, KMap.find_put_same _ _ _, fun j hj => Mem.read_moveBytes _ hdram hj, fun b hb => Mem.read_zero_outside _ hb⟩

end Sys2Proof.Machine
end

section
/-! PROOF. A parked agent goes on once its fault is resolved (R185). -/

namespace Sys2Proof.Machine

variable {s x y z : State} {t : Nat} {g : Agent} {n c cause va : Nat}

/-! ### What agents are doing -/

/-- Fettlers, ladles and crucibles are in `y` as they are in `x`. -/
def State.sameAgents (x y : State) : Prop := y.fab.fets = x.fab.fets ∧ y.fab.ladles = x.fab.ladles ∧ y.fab.crus = x.fab.crus

theorem State.sameAgents.trans (hxy : x.sameAgents y) (hyz : y.sameAgents z) : x.sameAgents z := by
  obtain ⟨h1, h2, h3⟩ := hxy
  obtain ⟨g1, g2, g3⟩ := hyz
  exact ⟨g1.trans h1, g2.trans h2, g3.trans h3⟩

theorem State.sameAgents_of_fab (h : y.fab = x.fab) : x.sameAgents y := by rw [State.sameAgents, h]; exact ⟨rfl, rfl, rfl⟩

theorem State.sameAgents.fet (h : x.sameAgents y) (i : Nat) : y.fet i = x.fet i := congrArg (KMap.find · i) h.1

theorem State.sameAgents.ladle (h : x.sameAgents y) (m l : Nat) : y.ladle m l = x.ladle m l :=
  congrArg (KMap.getD · (m * 2 + l) []) h.2.1

theorem State.sameAgents.cru (h : x.sameAgents y) (k : Nat) : y.cru k = x.cru k := congrArg (KMap.getD · k ({} : Cru)) h.2.2

theorem State.sameAgents.parkedAt (h : x.sameAgents y) (g : Agent) : y.parkedAt g = x.parkedAt g := by
  cases g with
  | fettler i => rw [State.parkedAt, h.fet]; rfl
  | ladle m l => rw [State.parkedAt, h.ladle]; rfl
  | crucible k => rw [State.parkedAt, h.cru]; rfl

/-! ### The agent goes on -/

theorem State.unpark_fettler {i : Fin 128} {f : Fet} (h : x.fet i = some f) : x.unpark (.fettler i) = x.setFet i { f with wait := .none } := by
  rw [State.unpark, h]

theorem State.unpark_ladle {m : Fin 32} {l : Fin 2} {d : LDesc} {rest : List LDesc} (h : x.ladle m l = d :: rest)
    (hs : x.stopped m d.ctx = false) :
    x.unpark (.ladle m l) = x.setLadle m l ({ d with state := 1, issued := d.done, cause := none } :: rest) := by
  rw [State.unpark, h]
  dsimp only
  rw [hs, if_neg (by decide)]

theorem State.unpark_crucible {k : Fin 64} {d : CDesc} {rest : List CDesc} (h : (x.cru k).queue = d :: rest) :
    x.unpark (.crucible k) = x.setHead k { d with parked := none } := by
  rw [State.unpark, h]

theorem State.fet_setFet (x : State) (i : Nat) (f : Fet) : (x.setFet i f).fet i = some f := KMap.find_put_same _ _ _

theorem State.ladle_setLadle (x : State) (m l : Nat) (q : List LDesc) : (x.setLadle m l q).ladle m l = q := by
  unfold State.setLadle State.ladle
  split
  next h => rw [h]; exact KMap.getD_del_same _ _ _
  · exact KMap.getD_put_same _ _ _ _

theorem State.cru_setCru (x : State) (k : Nat) (q : Cru) : (x.setCru k q).cru k = q := KMap.getD_put_same _ _ _ _

theorem State.queue_setHead {k : Nat} {d e : CDesc} {rest : List CDesc} (h : (x.cru k).queue = d :: rest) :
    ((x.setHead k e).cru k).queue = e :: rest := by
  unfold State.setHead
  dsimp only
  rw [State.cru_setCru, h]
  rfl

/-- Memories and page tables are in `y` as they are in `x`, and so is every part but the fabric. -/
def State.sameMemory (x y : State) : Prop := x.sameBut y [.fab] ∧ y.fab.dram = x.fab.dram ∧ y.fab.pt2 = x.fab.pt2 ∧
  y.fab.pt4 = x.fab.pt4 ∧ y.fab.mould = x.fab.mould

/-- An agent that is parked goes on, and no other does. -/
theorem State.unpark_shows (h : x.parkedAt g = some (n, c, cause, va)) (hs : ∀ m l, g = .ladle m l → x.stopped m c = false) :
    x.sameMemory (x.unpark g) ∧ (x.unpark g).parkedAt g = none ∧
      (∀ i f, g = .fettler i → x.fet i = some f → (x.unpark g).fet i = some { f with wait := .none }) ∧
      (∀ m l d rest, g = .ladle m l → x.ladle m l = d :: rest →
        (x.unpark g).ladle m l = { d with state := 1, issued := d.done, cause := none } :: rest) ∧
      (∀ k d rest, g = .crucible k → (x.cru k).queue = d :: rest → ((x.unpark g).cru k).queue = { d with parked := none } :: rest) := by
  cases g with
  | fettler i =>
    cases hf : x.fet i with
    | none => rw [State.parkedAt, hf] at h; exact absurd h (by simp)
    | some f =>
      rw [State.unpark_fettler hf]
      refine ⟨⟨x.sameBut_fab _, rfl, rfl, rfl, rfl⟩, ?_, ?_, by simp, by simp⟩
      · rw [State.parkedAt, State.fet_setFet]
      · rintro _ _ ⟨⟩ hj
        rw [State.fet_setFet, Option.some.inj (hf.symm.trans hj)]
  | ladle m l =>
    cases hq : x.ladle m l with
    | nil => rw [State.parkedAt, hq] at h; exact absurd h (by simp)
    | cons d rest =>
      have hctx : d.ctx = c := by
        rw [State.parkedAt, hq] at h
        dsimp only at h
        split at h
        · obtain ⟨p, -, hp⟩ := Option.map_eq_some_iff.mp h
          exact congrArg (·.2.1) hp
        · exact absurd h (by simp)
      rw [State.unpark_ladle hq (hctx ▸ hs m l rfl)]
      refine ⟨⟨x.sameBut_fab _, rfl, rfl, rfl, rfl⟩, ?_, by simp, ?_, by simp⟩
      · rw [State.parkedAt, State.ladle_setLadle]
        rfl
      · rintro _ _ _ _ ⟨⟩ hj
        obtain ⟨rfl, rfl⟩ := List.cons.inj (hq.symm.trans hj)
        exact State.ladle_setLadle _ _ _ _
  | crucible k =>
    cases hq : (x.cru k).queue with
    | nil => rw [State.parkedAt, hq] at h; exact absurd h (by simp)
    | cons d rest =>
      rw [State.unpark_crucible hq]
      refine ⟨⟨x.sameBut_fab _, rfl, rfl, rfl, rfl⟩, ?_, by simp, by simp, ?_⟩
      · rw [State.parkedAt, State.queue_setHead hq]
        rfl
      · rintro _ _ _ ⟨⟩ hj
        obtain ⟨rfl, rfl⟩ := List.cons.inj (hq.symm.trans hj)
        exact State.queue_setHead hq

/-! ### Pages that move -/

/-- A page that comes to a frame of device memory moves no agent. -/
theorem State.bringPage_shows {f : Nat} (h : x.bringPage c va f = some y) : x.sameBut y [.fab] ∧ x.sameAgents y ∧
    y.fab.mould = x.fab.mould := by
  unfold State.bringPage at h
  dsimp only at h
  split at h
  · obtain ⟨q, -, rfl⟩ := Option.map_eq_some_iff.mp h
    exact ⟨x.sameBut_fab _, ⟨rfl, rfl, rfl⟩, rfl⟩
  · split at h
    · exact absurd h (by simp)
    · obtain ⟨q, -, rfl⟩ := Option.map_eq_some_iff.mp h
      exact ⟨x.sameBut_fab _, ⟨rfl, rfl, rfl⟩, rfl⟩

theorem State.sameBut_fabHostMem (x : State) (b : Fabric) (m : Mem) : x.sameBut { x with hostMem := m, fab := b } [.fab, .hostMem] :=
  x.sameBut_mix { x with hostMem := m, fab := b } _

/-- The page named goes to the host tier; with none named nothing changes. -/
def State.roomMade (s : State) (out : Option (Fin 16 × Nat)) : Option State := match out with | none => some s | some o => s.sendOut o.1 o.2

/-- A page that makes room goes to host memory, and none goes where none is named. -/
theorem State.roomMade_shows {out : Option (Fin 16 × Nat)} (h : x.roomMade out = some y) : x.sameBut y [.fab, .hostMem] ∧ x.sameAgents y ∧
      y.fab.mould = x.fab.mould ∧ (out = none → y.hostMem = x.hostMem) := by
  cases out with
  | none =>
    obtain rfl := Option.some.inj h
    exact ⟨x.sameBut_refl _, ⟨rfl, rfl, rfl⟩, rfl, fun _ => rfl⟩
  | some o =>
    obtain ⟨p, f, -, -, rfl⟩ := State.sendOut_eq h
    exact ⟨x.sameBut_fabHostMem _ _, ⟨rfl, rfl, rfl⟩, rfl, fun hn => absurd hn (by simp)⟩

/-! ### The fault is resolved -/

theorem State.stopped_congr (h : y.sch = x.sch) (m k : Nat) : y.stopped m k = x.stopped m k := by rw [State.stopped, h, State.stopped]

/-- A fault that is resolved is counted for the flask. -/
theorem State.countXlate_shows (x : State) (m : Nat) (b : Bool) : x.sameBut (x.countXlate m b) [.regs] := by simp [State.countXlate]

/-- R185: the page comes, and the agent that waited for it goes on. -/
theorem xlateFaultResolved_resumes {s1 s2 : State} {frame : Nat} {out : Option (Fin 16 × Nat)} (hpark : s.parkedAt g = some (n, c, cause, va))
    (hout : (s.at' t).roomMade out = some s1)
    (hpage : s1.bringPage c va frame = some s2) (hstop : ∀ m l, g = .ladle m l → s.stopped m c = false) :
    ∃ s', exec (.xlateFaultResolved t g ⟨frame, out⟩) s = .next s' ∧ s.keepsBut s' [.fab, .regs, .dbg, .hostMem] ∧
      (out = none → s'.hostMem = s.hostMem) ∧ s'.parkedAt g = none ∧
      s'.fab.dram = s2.fab.dram ∧ s'.fab.pt2 = s2.fab.pt2 ∧ s'.fab.pt4 = s2.fab.pt4 ∧ s'.fab.mould = s.fab.mould ∧
      (∀ i f, g = .fettler i → s.fet i = some f → s'.fet i = some { f with wait := .none }) ∧
      (∀ m l d rest, g = .ladle m l → s.ladle m l = d :: rest →
        s'.ladle m l = { d with state := 1, issued := d.done, cause := none } :: rest) ∧
      (∀ k d rest, g = .crucible k → (s.cru k).queue = d :: rest → (s'.cru k).queue = { d with parked := none } :: rest) := by
  have hland : s.sameAgents (s.at' t) := State.sameAgents_of_fab (s.at'_fab t)
  have hexec : exec (.xlateFaultResolved t g ⟨frame, out⟩) s =
      done (((s2.countXlate n true).unpark g).trace 0x12 (3 + n) (va % 2 ^ 48 + cause * 2 ^ 48)) := by
    have he : exec (.xlateFaultResolved t g ⟨frame, out⟩) s = match (s.at' t).parkedAt g with
      | none => done (s.at' t)
      | some (n, c, cause, va) => match (s.at' t).roomMade out with
        | none => done (s.at' t)
        | some y => match y.bringPage c va frame with
          | none => done (s.at' t)
          | some z => done (((z.countXlate n true).unpark g).trace 0x12 (3 + n) (va % 2 ^ 48 + cause * 2 ^ 48)) := rfl
    rw [he, hland.parkedAt, hpark]
    dsimp only
    rw [hout]
    dsimp only
    rw [hpage]
  obtain ⟨of, oa, om, oh⟩ := State.roomMade_shows hout
  obtain ⟨pf, pa, pm⟩ := State.bringPage_shows hpage
  have hcount := s2.countXlate_shows n true
  have cfab : (s2.countXlate n true).fab = s2.fab := hcount.2 .fab (by decide)
  have hagents := ((hland.trans oa).trans pa).trans (State.sameAgents_of_fab cfab)
  have hframe : (s.at' t).sameBut (s2.countXlate n true) [.fab, .regs, .dbg, .hostMem] :=
    (of.mono (by decide)).trans ((pf.mono (by decide)).trans (hcount.mono (by decide)))
  generalize s2.countXlate n true = w at *
  have hsch : w.sch = s.sch := Eq.trans (hframe.2 .sch (by decide)) (s.at'_sch t)
  obtain ⟨⟨uf, ud, u2, u4, um⟩, up, u5, u6, u7⟩ := State.unpark_shows ((hagents.parkedAt g).trans hpark)
    (fun m l hg => (State.stopped_congr hsch _ _).trans (hstop m l hg))
  generalize w.unpark g = v at *
  have htrace : v.sameBut (v.trace 0x12 (3 + n) (va % 2 ^ 48 + cause * 2 ^ 48)) [.regs, .dbg] := by simp
  generalize v.trace 0x12 (3 + n) (va % 2 ^ 48 + cause * 2 ^ 48) = z at *
  have hfab : z.settle.fab = v.fab := (State.settle_fab z).trans (htrace.2 .fab (by decide))
  have hend := State.sameAgents_of_fab hfab
  refine ⟨_, hexec, State.sameBut.keepsBut (hframe.trans ((uf.mono (by decide)).trans (htrace.mono (by decide)))), fun hn => ?_,
    (hend.parkedAt g).trans up, ?_, ?_, ?_, ?_, fun i f hg hf => (hend.fet i).trans (u5 i f hg ((hagents.fet i).trans hf)),
    fun m l d rest hg hq => (hend.ladle m l).trans (u6 m l d rest hg ((hagents.ladle m l).trans hq)),
    fun k d rest hg hq => (congrArg Cru.queue (hend.cru k)).trans (u7 k d rest hg ((congrArg Cru.queue (hagents.cru k)).trans hq))⟩
  · have hz : z.hostMem = v.hostMem := htrace.2 .hostMem (by decide)
    have hv : v.hostMem = w.hostMem := uf.2 .hostMem (by decide)
    have hw : w.hostMem = s2.hostMem := hcount.2 .hostMem (by decide)
    have hp : s2.hostMem = s1.hostMem := pf.2 .hostMem (by decide)
    rw [State.settle_hostMem, hz, hv, hw, hp, oh hn, State.at'_hostMem]
  · rw [hfab, ud, cfab]
  · rw [hfab, u2, cfab]
  · rw [hfab, u4, cfab]
  · rw [hfab, um, cfab, pm, om, State.at'_fab]

end Sys2Proof.Machine
end

section
/-! PROOF. Patrol scrub (R179, R181, R182): its place and passes, what the codes corrected, and the poison map. -/

namespace Sys2Proof.Machine

variable {s x y z : State} {t line : Nat} {e : LineErr}

/-! ### Where scrub is -/

/-- Registers of patrol scrub. -/
def scrubRegs : List Nat := [R.MEM_SCRUB_POS, R.MEM_SCRUB_PASSES]

/-- Scrub has come to a line; the last one ends a pass. -/
def State.scrubAt (s : State) (line : Nat) : State :=
  if line + 1 = memLines then
    (({ s with fab := { s.fab with scrub := line } } : State).wr R.MEM_SCRUB_POS (line * 65536 / memLines)).inc R.MEM_SCRUB_PASSES
  else ({ s with fab := { s.fab with scrub := line } } : State).wr R.MEM_SCRUB_POS (line * 65536 / memLines)

theorem State.scrubAt_shows (x : State) (h : line < memLines) : x.sameBut (x.scrubAt line) [.fab, .regs] ∧
    (x.scrubAt line).fab = { x.fab with scrub := line } ∧ x.regsBut (x.scrubAt line) scrubRegs ∧
    (x.scrubAt line).rd R.MEM_SCRUB_POS = line * 65536 / memLines ∧
    (x.scrubAt line).rd R.MEM_SCRUB_PASSES = (x.rd R.MEM_SCRUB_PASSES + if line + 1 = memLines then 1 else 0) % 2 ^ 32 := by
  have hpos : line * 65536 / memLines % 2 ^ 32 = line * 65536 / memLines := by
    unfold memLines at *
    omega
  have hf : x.sameBut { x with fab := { x.fab with scrub := line } } [.fab, .regs] := (x.sameBut_fab _).mono (by decide)
  have hr : x.regsBut { x with fab := { x.fab with scrub := line } } scrubRegs := State.regsBut_congr rfl _
  have hp : ∀ a, ({ x with fab := { x.fab with scrub := line } } : State).rd a = x.rd a := State.rd_congr rfl
  unfold State.scrubAt State.inc
  generalize hv : line * 65536 / memLines = v at *
  split
  · refine ⟨by simpa using hf, rfl, State.regsBut_wr (State.regsBut_wr hr (by simp [scrubRegs])) (by simp [scrubRegs]), ?_, ?_⟩
    · rw [State.rd_wr_other _ _ (by decide), State.rd_wr_same, hpos]
    · rw [State.rd_wr_same, State.rd_wr_other _ _ (by decide), hp]
  · refine ⟨by simpa using hf, rfl, State.regsBut_wr hr (by simp [scrubRegs]), ?_, ?_⟩
    · rw [State.rd_wr_same, hpos]
    · rw [State.rd_wr_other _ _ (by decide), hp, Nat.add_zero, Nat.mod_eq_of_lt (x.rd_lt _)]

/-! ### A line the codes correct -/

/-- What the codes corrected in a line is counted for its package. -/
theorem State.countCorr_counts (x : State) (line : Nat) {e : LineErr} (hb : e.bad = false) :
    x.sameBut (x.countCorr line e) [.regs] ∧
    x.regsBut (x.countCorr line e) [R.MEM_CORR_INNER (linePackage line), R.MEM_CORR_OUTER (linePackage line)] ∧
    (x.countCorr line e).rd (R.MEM_CORR_INNER (linePackage line)) =
      min (2 ^ 32 - 1) (x.rd (R.MEM_CORR_INNER (linePackage line)) + b2n e.inner) ∧
    (x.countCorr line e).rd (R.MEM_CORR_OUTER (linePackage line)) =
      min (2 ^ 32 - 1) (x.rd (R.MEM_CORR_OUTER (linePackage line)) + if e.wrong = [] then 0 else 1) := by
  have hline := x.countCorr_shows (line * 256) e
  rw [corrRegs, Nat.mul_div_cancel _ (by decide)] at hline
  have hne : R.MEM_CORR_INNER (linePackage line) ≠ R.MEM_CORR_OUTER (linePackage line) := by
    simp only [R.MEM_CORR_INNER, R.MEM_CORR_OUTER]
    omega
  have hcount : ∀ (w : State) (b : Bool) (r : Nat), (if b then w.incSat r 0 32 else w).rd r = min (2 ^ 32 - 1) (w.rd r + b2n b) ∧
      ∀ a, a ≠ r → (if b then w.incSat r 0 32 else w).rd a = w.rd a := by
    intro w b r
    cases b
    · have := w.rd_lt r
      exact ⟨by simp only [b2n, Bool.false_eq_true, if_false]; omega, fun _ _ => rfl⟩
    · exact ⟨w.rd_incSat_word r, fun a ha => State.rd_setFld_other w _ _ _ ha⟩
  have houter : b2n e.corrected = if e.wrong = [] then 0 else 1 := by
    rw [LineErr.corrected, hb]
    cases e.wrong <;> rfl
  refine ⟨hline.1, hline.2, ?_, ?_⟩
  · unfold State.countCorr
    dsimp only
    rw [(hcount _ e.corrected _).2 _ hne, (hcount x e.inner _).1]
  · unfold State.countCorr
    dsimp only
    rw [(hcount _ e.corrected _).1, (hcount x e.inner _).2 _ hne.symm, houter]

/-- A line within the guarantee is as it was stored; another may be miscorrected, which changes no register. -/
theorem State.miscorrect_shows (x : State) (line : Nat) (e : LineErr) :
    x.sameBut (x.miscorrect line e) (if e.beyond then [.fab, .regs, .free] else [.fab, .regs]) ∧ (x.miscorrect line e).regs = x.regs ∧
    (e.beyond = false → x.miscorrect line e = x) := by
  cases hb : e.beyond with
  | false =>
    have hm : x.miscorrect line e = x := by rw [State.miscorrect, (LineErr.bad_of_within hb).2, if_neg (by decide)]
    rw [hm]
    exact ⟨x.sameBut_refl _, rfl, fun _ => rfl⟩
  | true =>
    unfold State.miscorrect
    split
    · exact ⟨(State.sameBut_fresh (by decide)).mpr ((x.sameBut_fab _).mono (by decide)), rfl, fun h => absurd h (by simp)⟩
    · exact ⟨x.sameBut_refl _, rfl, fun h => absurd h (by simp)⟩

/-! ### A line that is uncorrectable -/

/-- The poison map with a line in it (R182). -/
def poisonWith (ps : List Nat) (line : Nat) : List Nat :=
  if ps.contains line then ps else ps.filter (fun k => decide (k < line)) ++ line :: ps.filter (fun k => decide (line < k))

theorem mem_poisonWith (ps : List Nat) (line : Nat) : line ∈ poisonWith ps line ∧ ∀ k, k ≠ line → (k ∈ poisonWith ps line ↔ k ∈ ps) := by
  unfold poisonWith
  split
  next h => exact ⟨List.contains_iff_mem.mp h, fun _ _ => Iff.rfl⟩
  · refine ⟨by simp, fun k hk => ?_⟩
    simp only [List.mem_append, List.mem_cons, List.mem_filter, decide_eq_true_eq, hk, false_or]
    exact ⟨fun h => h.elim And.left And.left, fun h => (Nat.lt_or_gt_of_ne hk).imp (⟨h, ·⟩) (⟨h, ·⟩)⟩

/-- A line is poisoned. -/
def State.poisonLine (s : State) (line : Nat) : State :=
  ({ s with fab := { s.fab with poison := poisonWith s.fab.poison line } } : State).wr R.MEM_POISONED (poisonWith s.fab.poison line).length

theorem State.poisonLine_shows (x : State) (line : Nat) : x.sameBut (x.poisonLine line) [.fab, .regs] ∧
    (x.poisonLine line).fab = { x.fab with poison := poisonWith x.fab.poison line } ∧ x.regsBut (x.poisonLine line) [R.MEM_POISONED] :=
  ⟨(State.sameBut_wr (by decide)).mpr ((x.sameBut_fab _).mono (by decide)), rfl, State.regsBut_wr (State.regsBut_congr rfl _) (by simp)⟩

/-- The last uncorrectable line is the one read. -/
theorem State.memUncorr_last (x : State) (line reader c n : Nat) (h : line < 2 ^ 64) :
    (x.memUncorr line reader c n).rd64 R.MEM_LAST_UNCORR = line := by
  have hp := linePackage_lt line
  have hrd : ∀ a ∈ [R.MEM_LAST_UNCORR, R.MEM_LAST_UNCORR + 4], (x.memUncorr line reader c n).rd a = (x.wr64 R.MEM_LAST_UNCORR line).rd a := by
    intro a ha
    have hne : a ∉ raiseRegs ∧ a ≠ R.MEM_UNCORR (linePackage line) ∧ a ≠ R.MEM_LAST_UNCORR_SRC := by
      simp only [raiseRegs, R.MEM_UNCORR, R.MEM_LAST_UNCORR_SRC, R.MEM_LAST_UNCORR, R.CMD_EVT_LOST, R.DBG_LOG_UART_DROP, List.mem_cons,
        List.not_mem_nil, or_false] at ha ⊢
      omega
    unfold State.memUncorr
    rw [State.rd_raise _ hne.1, State.incSat, State.rd_setFld_other _ _ _ _ hne.2.1, State.rd_wr_other _ _ hne.2.2]
  rw [State.rd64, hrd _ (by simp), hrd _ (by simp), ← State.rd64, State.rd64_wr64_same, Nat.mod_eq_of_lt h]

/-! ### Scrub -/

theorem exec_scrubLine (hr : s.running = true) (hl : line < memLines) : exec (.scrubLine t line e) s =
    if line ∈ s.fab.poison ∨ e.bad = true then done ((((s.at' t).scrubAt line).poisonLine line).memUncorr line 5 0 0)
    else done ((((s.at' t).scrubAt line).countCorr line e).miscorrect line e) := by
  have hexec : exec (.scrubLine t line e) s = if !(s.at' t).running || memLines ≤ line then done (s.at' t)
    else if (s.at' t).fab.poison.contains line ∨ e.bad then done ((((s.at' t).scrubAt line).poisonLine line).memUncorr line 5 0 0)
    else done ((((s.at' t).scrubAt line).countCorr line e).miscorrect line e) := rfl
  rw [hexec, State.running_at', hr, if_neg (by simpa using hl), State.at'_fab]
  simp only [List.contains_iff_mem]

/-- R179, R182: a line that is not uncorrectable is counted, and written back as it was but for one outside the guarantee. -/
theorem scrubLine_corrects (hr : s.running = true) (hl : line < memLines) (hb : e.bad = false) (hp : line ∉ s.fab.poison) :
    let inner := R.MEM_CORR_INNER (linePackage line)
    let outer := R.MEM_CORR_OUTER (linePackage line)
    ∃ s', exec (.scrubLine t line e) s = .next s' ∧ s.keepsBut s' (if e.beyond then [.fab, .regs, .free] else [.fab, .regs]) ∧
      s.regsBut s' (inner :: outer :: scrubRegs) ∧ s'.rd R.MEM_SCRUB_POS = line * 65536 / memLines ∧
      s'.rd R.MEM_SCRUB_PASSES = (s.rd R.MEM_SCRUB_PASSES + if line + 1 = memLines then 1 else 0) % 2 ^ 32 ∧
      s'.rd inner = min (2 ^ 32 - 1) (s.rd inner + b2n e.inner) ∧
      s'.rd outer = min (2 ^ 32 - 1) (s.rd outer + if e.wrong = [] then 0 else 1) ∧
      (e.beyond = false → s'.fab = { s.fab with scrub := line }) := by
  intro inner outer
  have hexec := exec_scrubLine (t := t) (e := e) hr hl
  rw [if_neg (by simp [hb, hp])] at hexec
  obtain ⟨af, afab, ar, a1, a2⟩ := (s.at' t).scrubAt_shows hl
  generalize (s.at' t).scrubAt line = w at *
  obtain ⟨cf, cr, c1, c2⟩ := w.countCorr_counts line hb
  have cfab : (w.countCorr line e).fab = w.fab := cf.2 .fab (by decide)
  generalize w.countCorr line e = v at *
  obtain ⟨mf, mregs, msame⟩ := v.miscorrect_shows line e
  have hpk := linePackage_lt line
  have hscrub : R.MEM_SCRUB_POS ∉ [inner, outer] ∧ R.MEM_SCRUB_PASSES ∉ [inner, outer] ∧ inner ∉ scrubRegs ∧ outer ∉ scrubRegs := by
    simp only [inner, outer, scrubRegs, R.MEM_SCRUB_POS, R.MEM_SCRUB_PASSES, R.MEM_CORR_INNER, R.MEM_CORR_OUTER, List.mem_cons,
      List.not_mem_nil, or_false]
    omega
  have hrd : ∀ a, (v.miscorrect line e).settle.rd a = v.rd a := fun a => (State.rd_settle _ _).trans (State.rd_congr mregs a)
  have hland : ∀ a, (s.at' t).rd a = s.rd a := s.rd_at' t
  have hparts : ∀ p ∈ [Part.fab, .regs], p ∈ (if e.beyond then [Part.fab, .regs, .free] else [.fab, .regs]) := by
    cases e.beyond <;> decide
  refine ⟨_, hexec, State.sameBut.keepsBut ((af.mono hparts).trans
    ((cf.mono fun p hp => hparts p (List.mem_cons_of_mem _ hp)).trans mf)), fun a ha => ?_, ?_, ?_, ?_, ?_, fun hw => ?_⟩
  · rw [hrd, cr a fun h => ha (by simp only [List.mem_cons] at h ⊢; tauto), ar a fun h => ha (by simp [h]), hland]
  · rw [hrd, cr _ hscrub.1, a1]
  · rw [hrd, cr _ hscrub.2.1, a2, hland]
  · rw [hrd, c1, ar _ hscrub.2.2.1, hland]
  · rw [hrd, c2, ar _ hscrub.2.2.2, hland]
  · rw [State.settle_fab, msame hw, cfab, afab, State.at'_fab]

/-- R181, R182: an uncorrectable line stands in the poison map and is reported. -/
theorem scrubLine_poisons (hr : s.running = true) (hl : line < memLines) (hb : e.bad = true ∨ line ∈ s.fab.poison) :
    ∃ s', exec (.scrubLine t line e) s = .next s' ∧ s.keepsBut s' [.fab, .free, .regs, .host, .hostMem, .dbg] ∧
      line ∈ s'.fab.poison ∧ (∀ k, k ≠ line → (k ∈ s'.fab.poison ↔ k ∈ s.fab.poison)) ∧ s'.rd64 R.MEM_LAST_UNCORR = line ∧
      s'.rd (R.MEM_UNCORR (linePackage line)) = min (2 ^ 32 - 1) (s.rd (R.MEM_UNCORR (linePackage line)) + 1) ∧
      s'.fab.dram = s.fab.dram := by
  have hexec := exec_scrubLine (t := t) (e := e) hr hl
  rw [if_pos hb.symm] at hexec
  obtain ⟨af, afab, ar, -, -⟩ := (s.at' t).scrubAt_shows hl
  generalize (s.at' t).scrubAt line = w at *
  obtain ⟨pf, pfab, pr⟩ := w.poisonLine_shows line
  generalize w.poisonLine line = v at *
  obtain ⟨uf, u1⟩ := v.memUncorr_shows line 5 0 0
  have u2 := v.memUncorr_last line 5 0 0 (by unfold memLines at hl; omega)
  generalize v.memUncorr line 5 0 0 = u at *
  have hfab : u.settle.fab = { w.fab with poison := poisonWith w.fab.poison line } :=
    (State.settle_fab u).trans (Eq.trans (uf.2 .fab (by decide)) pfab)
  have hpoison : w.fab.poison = s.fab.poison := by rw [afab, State.at'_fab]
  obtain ⟨hmem, hother⟩ := mem_poisonWith s.fab.poison line
  have hpk := linePackage_lt line
  have hne : R.MEM_UNCORR (linePackage line) ∉ [R.MEM_POISONED] ∧ R.MEM_UNCORR (linePackage line) ∉ scrubRegs := by
    simp only [scrubRegs, R.MEM_UNCORR, R.MEM_POISONED, R.MEM_SCRUB_POS, R.MEM_SCRUB_PASSES, List.mem_cons, List.not_mem_nil, or_false]
    omega
  refine ⟨_, hexec, State.sameBut.keepsBut ((af.mono (by decide)).trans ((pf.mono (by decide)).trans (uf.mono (by decide)))), ?_, ?_, ?_, ?_, ?_⟩
  · rw [hfab, hpoison]
    exact hmem
  · rw [hfab, hpoison]
    exact hother
  · rw [State.rd64, State.rd_settle, State.rd_settle, ← State.rd64, u2]
  · rw [State.rd_settle, u1, pr _ hne.1, ar _ hne.2, State.rd_at']
  · rw [hfab, afab, State.at'_fab]

end Sys2Proof.Machine
end

section
/-! PROOF. What the end of a pour leaves alone (R323): other pours, the transfers of other pours, and the moulds as long as another pour of
its context holds on to its regions. -/

namespace Sys2Proof.Machine

variable {x y z : State}

/-! ### Pours, transfers and moulds -/

/-- Pours, transfers and moulds are in `y` as they are in `x`. -/
def State.rests (x y : State) : Prop := y.sch.pours = x.sch.pours ∧ y.fab.ladles = x.fab.ladles ∧ y.fab.mould = x.fab.mould

theorem State.rests_refl (x : State) : x.rests x := ⟨rfl, rfl, rfl⟩

theorem State.rests.trans (hxy : x.rests y) (hyz : y.rests z) : x.rests z := by
  obtain ⟨h1, h2, h3⟩ := hxy
  obtain ⟨g1, g2, g3⟩ := hyz
  exact ⟨g1.trans h1, g2.trans h2, g3.trans h3⟩

theorem State.rests_foldl {α : Type} (f : State → α → State) (as : List α) (h : ∀ s : State, ∀ a ∈ as, s.rests (f s a)) (x : State) :
    x.rests (as.foldl f x) :=
  List.foldlRecOn (motive := fun y => x.rests y) as f x.rests_refl fun y hy a ha => hy.trans (h y a ha)

/-- Scheduler, transfers and moulds are in `y` as they are in `x`. -/
def State.recorded (x y : State) : Prop := y.sch = x.sch ∧ y.fab.ladles = x.fab.ladles ∧ y.fab.mould = x.fab.mould

theorem State.recorded_refl (x : State) : x.recorded x := ⟨rfl, rfl, rfl⟩

theorem State.recorded.trans (hxy : x.recorded y) (hyz : y.recorded z) : x.recorded z := by
  obtain ⟨h1, h2, h3⟩ := hxy
  obtain ⟨g1, g2, g3⟩ := hyz
  exact ⟨g1.trans h1, g2.trans h2, g3.trans h3⟩

/-- What changes neither fabric nor scheduler leaves them. -/
theorem State.sameBut.recorded {ps : List Part} (h : x.sameBut y ps) (hp : .fab ∉ ps ∧ .sch ∉ ps) : x.recorded y := by
  have hf : y.fab = x.fab := h.2 .fab hp.1
  have hs : y.sch = x.sch := h.2 .sch hp.2
  rw [State.recorded, hf, hs]
  exact ⟨rfl, rfl, rfl⟩

theorem State.recorded.rests (h : x.recorded y) : x.rests y := ⟨congrArg Sched.pours h.1, h.2⟩

theorem State.rests_setTile (x : State) (c i : Nat) (t : Tile) : x.rests (x.setTile c i t) := ⟨rfl, rfl, rfl⟩

theorem State.rests_setCru (x : State) (c : Nat) (q : Cru) : x.rests (x.setCru c q) := ⟨rfl, rfl, rfl⟩

theorem State.rests_leave (x : State) (i : Nat) : x.rests (x.leave i) := by
  have ht : ∀ w : State, w.rests (w.allotTiles (i / 4) (i % 4) none) := State.rests_foldl _ _ fun s t _ => by
    split
    · exact s.rests_setTile _ _ _
    · exact s.rests_setTile _ _ _
  have hdrop : x.rests (x.dropFet i) := ⟨rfl, rfl, rfl⟩
  exact (hdrop.trans (ht _)).trans ⟨rfl, rfl, rfl⟩

theorem State.rests_dropDescs (x : State) (id : Nat) : x.rests (x.dropDescs id) := by
  refine State.rests_foldl _ _ (fun s c _ => ?_) x
  dsimp only
  have hpermit : s.rests (s.dropPermit false c) := ⟨rfl, rfl, rfl⟩
  split
  · split
    · exact hpermit.trans (State.rests_setCru _ _ _)
    · exact s.rests_setCru _ _
  · exact s.rests_setCru _ _

/-- Pours and transfers are in `y` as they are in `x`. -/
def State.sameWork (x y : State) : Prop := y.sch.pours = x.sch.pours ∧ y.fab.ladles = x.fab.ladles

theorem State.sameWork_refl (x : State) : x.sameWork x := ⟨rfl, rfl⟩

theorem State.sameWork.trans (hxy : x.sameWork y) (hyz : y.sameWork z) : x.sameWork z := ⟨hyz.1.trans hxy.1, hyz.2.trans hxy.2⟩

theorem State.sameWork_foldl {α : Type} (f : State → α → State) (as : List α) (h : ∀ s : State, ∀ a ∈ as, s.sameWork (f s a)) (x : State) :
    x.sameWork (as.foldl f x) :=
  List.foldlRecOn (motive := fun y => x.sameWork y) as f x.sameWork_refl fun y hy a ha => hy.trans (h y a ha)

/-! ### Results -/

theorem State.sameBut_backlogResult (x : State) (e : RingEntry) : x.sameBut (x.backlogResult e) recordParts := by
  unfold State.backlogResult
  split
  · exact (x.sameBut_host _).mono (by decide)
  · exact (x.records_journal _ _ _).1

/-- The result of an order changes neither fabric nor scheduler. -/
theorem State.sameBut_complete (x : State) (o : Order) (code ctx v3 v4 v5 : Nat) :
    x.sameBut (x.complete o code ctx v3 v4 v5) recordParts := by
  have hend : x.sameBut (x.orderEnd o) recordParts := (x.orderEnd_shows o).1.mono (by decide)
  unfold State.complete
  dsimp only
  split
  · exact hend.trans (State.sameBut_backlogResult _ _)
  · split
    · exact (State.sameBut_wr (by decide)).mpr hend
    · split
      · exact hend.trans (State.sameBut_backlogResult _ _)
      · exact hend.trans ((State.raisedFrom_ringWrite _ _ _).sameBut (by decide))

theorem State.rests_pourResult (x : State) (p : Pour) : x.rests (x.pourResult p) := by
  have hc : ∀ (w : State) (o : Order) (code ctx v3 v4 v5 : Nat), w.rests (w.complete o code ctx v3 v4 v5) := fun w o code ctx v3 v4 v5 =>
    ((w.sameBut_complete o code ctx v3 v4 v5).recorded (by decide)).rests
  unfold State.pourResult
  dsimp only
  split
  · exact (hc _ _ _ _ _ _ _).trans (State.rests_foldl _ _ (fun s o _ => hc s o _ _ _ _ _) _)
  · exact State.rests_foldl _ _ (fun s o _ => hc s o _ _ _ _ _) _

theorem State.rests_dropSaved (x : State) (p : Pour) : x.rests (x.dropSaved p) := by
  unfold State.dropSaved
  dsimp only
  split
  · exact x.rests_refl
  · split
    · exact x.rests_refl
    · exact ⟨rfl, rfl, rfl⟩

theorem State.rests_freeSync (x : State) (p : Pour) : x.rests (x.freeSync p) := by
  unfold State.freeSync
  split
  · exact x.rests_refl
  · exact ⟨rfl, rfl, rfl⟩

/-! ### Regions -/

theorem State.sameWork_forgetRegions (x : State) (n c : Nat) : x.sameWork (x.forgetRegions n c) := by
  have hdrop : x.sameWork (x.dropRegions n c) := by
    refine .trans (State.sameWork_foldl _ (List.range 16) (fun s i _ => ?_) x) ⟨rfl, rfl⟩
    dsimp only
    split
    · exact ⟨rfl, rfl⟩
    · exact s.sameWork_refl
  exact hdrop.trans ⟨rfl, rfl⟩

/-- The regions of a context go with its last pour: the moulds stay where another pour holds on. -/
theorem State.releaseRegions_shows (x : State) (c : Nat) : x.sameWork (x.releaseRegions c) ∧
    ((∃ q ∈ x.sch.pours, q.ctx = c ∧ q.holds = true) → (x.releaseRegions c).fab.mould = x.fab.mould) := by
  unfold State.releaseRegions
  split
  · exact ⟨x.sameWork_refl, fun _ => rfl⟩
  next hnone =>
    refine ⟨State.sameWork_foldl _ _ (fun s n _ => ?_) x, fun ⟨q, hq, hc, hh⟩ =>
      absurd (List.any_eq_true.mpr ⟨q, hq, by simp [hc, hh]⟩) hnone⟩
    split
    · exact s.sameWork_forgetRegions n c
    · exact s.sameWork_refl

/-! ### A pour ends -/

/-- Of pour `id` there is nothing left, or a record of how it ended. -/
def State.endedWith (s : State) (id code : Nat) : Prop := ∀ q, s.pour id = some q → (q.st = 3 ∨ q.st = 4) ∧ q.fault = code

/-- Another pour of context `c` than `id` holds its objects. -/
def State.heldBeside (s : State) (id c : Nat) : Prop := ∃ q ∈ s.sch.pours, q.ctx = c ∧ q.holds = true ∧ q.id ≠ id

theorem State.pour_congr (h : y.sch.pours = x.sch.pours) (id : Nat) : y.pour id = x.pour id := by rw [State.pour, h, State.pour]

theorem State.pour_id {id : Nat} {p : Pour} (h : x.pour id = some p) : p.id = id := by simpa using List.find?_some h

/-- A pour that is changed is found as it was changed. -/
theorem State.pour_setPour {id : Nat} {p q : Pour} (h : x.pour id = some p) (hq : q.id = id) : (x.setPour q).pour id = some q := by
  have hp : p.id = id := State.pour_id h
  rw [State.pour] at h
  rw [State.pour, State.setPour]
  dsimp only
  rw [List.find?_map, show ((fun r : Pour => r.id == id) ∘ fun r => if r.id = q.id then q else r) = fun r => r.id == id by
    funext r
    rw [Function.comp_apply]
    split
    next hr => rw [hr]
    · rfl, h, Option.map_some, if_pos (hp.trans hq.symm)]

theorem State.heldBeside_setPour {id c : Nat} {q : Pour} (h : x.heldBeside id c) (hq : q.id = id) : (x.setPour q).heldBeside id c := by
  obtain ⟨r, hr, hc, hh, hi⟩ := h
  exact ⟨r, List.mem_map.mpr ⟨r, hr, if_neg (by rw [hq]; exact hi)⟩, hc, hh, hi⟩

theorem State.heldBeside_congr {id c : Nat} (h : y.sch.pours = x.sch.pours) (hx : x.heldBeside id c) : y.heldBeside id c := by
  unfold State.heldBeside at *
  rwa [h]

/-- A pour that ends leaves the transfers alone, and the moulds where another pour of its context holds on to its regions. -/
theorem State.pourEnd_shows {id : Nat} {p : Pour} (h : x.pour id = some p) : (x.pourEnd p).fab.ladles = x.fab.ladles ∧
    (x.pourEnd p).endedWith id p.fault ∧ (x.heldBeside id p.ctx → (x.pourEnd p).fab.mould = x.fab.mould) := by
  have hid := State.pour_id h
  have hrest := ((x.rests_dropSaved p).trans (State.rests_freeSync _ p)).trans (State.rests_pourResult _ p)
  unfold State.pourEnd
  dsimp only
  generalize ((x.dropSaved p).freeSync p).pourResult p = w at *
  obtain ⟨hpours, hladles, hmould⟩ := hrest
  split
  · set v : State := { w with sch := { w.sch with pours := w.sch.pours.filter (fun q => q.id != p.id) } }
    obtain ⟨⟨rp, rl⟩, rm⟩ := v.releaseRegions_shows p.ctx
    refine ⟨rl.trans hladles, fun q hq => ?_, fun ⟨q, hq, hc, hh, hi⟩ => (rm ⟨q, ?_, hc, hh⟩).trans hmould⟩
    · rw [State.pour_congr rp] at hq
      have hmem := (List.mem_filter.mp (List.mem_of_find?_eq_some hq)).2
      rw [State.pour_id hq, hid] at hmem
      exact absurd hmem (by simp)
    · exact List.mem_filter.mpr ⟨hpours ▸ hq, by simpa [hid] using hi⟩
  · have hset := State.pour_setPour (q := { p with st := 4, tasks := [] }) ((State.pour_congr hpours id).trans h) hid
    have hheld := fun hx : x.heldBeside id p.ctx =>
      State.heldBeside_setPour (q := { p with st := 4, tasks := [] }) (State.heldBeside_congr hpours hx) hid
    obtain ⟨⟨rp, rl⟩, rm⟩ := (w.setPour { p with st := 4, tasks := [] }).releaseRegions_shows p.ctx
    refine ⟨rl.trans hladles, fun q hq => ?_, fun hx => ?_⟩
    · rw [State.pour_congr rp, hset] at hq
      obtain rfl := Option.some.inj hq
      exact ⟨.inr rfl, rfl⟩
    · obtain ⟨q, hq, hc, hh, -⟩ := hheld hx
      exact (rm ⟨q, hq, hc, hh⟩).trans hmould

theorem State.pourTryEnd_shows {id : Nat} {p : Pour} (h : x.pour id = some p) (h3 : p.st = 3) :
    (x.pourTryEnd id).fab.ladles = x.fab.ladles ∧ (x.pourTryEnd id).endedWith id p.fault ∧
    (x.heldBeside id p.ctx → (x.pourTryEnd id).fab.mould = x.fab.mould) := by
  unfold State.pourTryEnd
  rw [h]
  dsimp only
  split
  · exact State.pourEnd_shows h
  · refine ⟨rfl, fun q hq => ?_, fun _ => rfl⟩
    obtain rfl := Option.some.inj (h.symm.trans hq)
    exact ⟨.inl h3, rfl⟩

end Sys2Proof.Machine
end

section
/-! PROOF. A poisoned TLP (R74): the transfer it carried is aborted with reason MEM, and its JOB pour ends (R323). -/

namespace Sys2Proof.Machine

variable {s x y z : State} {t n l id : Nat} {d : LDesc}

/-! ### The undefined rest of a transfer (R192) -/

/-- From `x` to `y` no more than memory is written: scheduler and transfers stay, and no register but the count of poisoned lines. -/
def State.writesMemory (x y : State) : Prop := y.sch = x.sch ∧ y.fab.ladles = x.fab.ladles ∧ x.regsBut y [R.MEM_POISONED]

theorem State.writesMemory_refl (x : State) : x.writesMemory x := ⟨rfl, rfl, x.regsBut_refl _⟩

theorem State.writesMemory.trans (hxy : x.writesMemory y) (hyz : y.writesMemory z) : x.writesMemory z := by
  obtain ⟨h1, h2, h3⟩ := hxy
  obtain ⟨g1, g2, g3⟩ := hyz
  exact ⟨g1.trans h1, g2.trans h2, h3.trans g3⟩

theorem State.writesMemory_foldl {α : Type} (f : State → α → State) (as : List α) (h : ∀ s : State, ∀ a ∈ as, s.writesMemory (f s a))
    (x : State) : x.writesMemory (as.foldl f x) :=
  List.foldlRecOn (motive := fun y => x.writesMemory y) as f x.writesMemory_refl fun y hy a ha => hy.trans (h y a ha)

theorem State.writesMemory_regs (hs : y.sch = x.sch) (hl : y.fab.ladles = x.fab.ladles) (hr : y.regs = x.regs) : x.writesMemory y :=
  ⟨hs, hl, State.regsBut_congr hr _⟩

theorem State.writesMemory_placeWrite (x : State) (c va : Nat) (bs : List Byte) : x.writesMemory (x.placeWrite c va bs) := by
  unfold State.placeWrite
  split
  · exact State.writesMemory_regs rfl rfl rfl
  · unfold State.pwrite
    dsimp only
    split
    · exact State.writesMemory_regs rfl rfl rfl
    · exact ⟨rfl, rfl, State.regsBut_wr (State.regsBut_congr rfl _) (by simp)⟩

theorem State.writesMemory_vwrite (c fuel : Nat) : ∀ (x : State) (va : Nat) (bs : List Byte), x.writesMemory (x.vwrite c fuel va bs) := by
  induction fuel with
  | zero => exact fun x _ _ => x.writesMemory_refl
  | succ k ih =>
    intro x va bs
    unfold State.vwrite
    dsimp only
    split
    · exact x.writesMemory_placeWrite _ _ _
    · exact (x.writesMemory_placeWrite _ _ _).trans (ih _ _ _)

theorem State.writesMemory_lUndefined (x : State) (n : Nat) (d : LDesc) : x.writesMemory (x.lUndefined n d) := by
  have hfresh : x.writesMemory x.fresh := State.writesMemory_regs rfl rfl rfl
  refine hfresh.trans (State.writesMemory_foldl _ _ (fun s e _ => ?_) _)
  split
  · exact s.writesMemory_refl
  · dsimp only
    split
    · split
      · split
        · exact State.writesMemory_vwrite _ _ _ _ _
        · exact s.writesMemory_refl
      · exact s.writesMemory_refl
    · split
      · exact State.writesMemory_regs rfl rfl rfl
      · exact s.writesMemory_refl

/-- Where only memory was written, the record still has its place. -/
theorem State.writesMemory.lRecordOk (h : x.writesMemory y) (hn : n < 32) (c : Nat) (w : List Nat) :
    y.lRecordOk n c w = x.lRecordOk n c w := by
  obtain ⟨-, -, hr⟩ := h
  have hregions : y.regions n c = x.regions n c := by
    unfold State.regions
    refine List.filterMap_congr fun i hi => ?_
    rw [hr _ (by
      have hrange := And.intro hn (List.mem_range.mp hi)
      simp only [R.FLK_REGION, R.MEM_POISONED, List.mem_singleton]
      omega)]
  unfold State.lRecordOk State.mouldOk
  rw [hregions]

/-! ### The record of a transfer (Table 9.8) -/

/-- The bytes of four words, least significant first. -/
def recordBytes (v : Nat → Nat) : List Byte :=
  ((List.range 4).map fun i => (List.range 4).map fun k => BitVec.ofNat 8 (v i / 256 ^ k)).foldl (fun a l => a ++ l) []

theorem recordBytes_first (v : Nat → Nat) {k : Nat} (hk : k < 4) : (recordBytes v)[k]? = some (BitVec.ofNat 8 (v 0 / 256 ^ k)) := by
  interval_cases k <;> rfl

theorem recordBytes_second (v : Nat → Nat) {k : Nat} (hk : k < 4) : (recordBytes v)[4 + k]? = some (BitVec.ofNat 8 (v 1 / 256 ^ k)) := by
  interval_cases k <;> rfl

/-- A number whose bytes stand in memory reads back. -/
theorem Mem.readLE_of_bytes {m : Mem} (n : Nat) : ∀ (a v : Nat), (∀ k < n, Mem.read m (a + k) = BitVec.ofNat 8 (v / 256 ^ k)) →
    Mem.readLE m a n = v % 256 ^ n := by
  induction n with
  | zero => exact fun _ v _ => (Nat.mod_one v).symm
  | succ n ih =>
    intro a v h
    have hhead : Mem.read m a = BitVec.ofNat 8 v := by simpa using h 0 (by omega)
    have htail := ih (a + 1) (v / 256) fun k hk => by
      rw [Nat.div_div_eq_div_mul, ← Nat.pow_succ', ← h (k + 1) (by omega), Nat.add_assoc, Nat.add_comm 1 k]
    rw [Mem.readLE, hhead, htail, BitVec.toNat_ofNat, Nat.pow_succ' (m := 256)]
    exact (Nat.mod_mul (x := v) (a := 256) (b := 256 ^ n)).symm

/-- The first two words of a record that was written. -/
theorem Mem.readLE_recordBytes (m : Mem) (a : Nat) (v : Nat → Nat) :
    Mem.readLE (Mem.writeBytes m a (recordBytes v)) a 4 = v 0 % 2 ^ 32 ∧
    Mem.readLE (Mem.writeBytes m a (recordBytes v)) (a + 4) 4 = v 1 % 2 ^ 32 := by
  have hread : ∀ i b, (recordBytes v)[i]? = some b → Mem.read (Mem.writeBytes m a (recordBytes v)) (a + i) = b := fun i b hb => by
    obtain ⟨hi, rfl⟩ := List.getElem?_eq_some_iff.mp hb
    exact Mem.read_writeBytes_same _ _ _ _ hi
  refine ⟨Mem.readLE_of_bytes 4 a (v 0) fun k hk => hread k _ (recordBytes_first v hk),
    Mem.readLE_of_bytes 4 (a + 4) (v 1) fun k hk => ?_⟩
  rw [Nat.add_assoc]
  exact hread _ _ (recordBytes_second v hk)

/-- What a transfer's record tells. -/
def LDesc.recordWord (d : LDesc) (code reason cause i : Nat) : Nat :=
  if i = 0 then code % 65536 + reason % 256 * 65536 + cause % 256 * 2 ^ 24
  else if i = 1 then d.done else if i = 2 then nth d.words 15 0 else d.parks

theorem LDesc.recordWord_first (d : LDesc) (code reason cause : Nat) :
    d.recordWord code reason cause 0 = code % 65536 + reason % 256 * 65536 + cause % 256 * 2 ^ 24 ∧
    d.recordWord code reason cause 1 = d.done :=
  ⟨if_pos rfl, if_neg (by decide)⟩

theorem State.lRecord_eq (x : State) (n : Nat) (d : LDesc) (code reason cause : Nat) : x.lRecord n d code reason cause =
    if x.lRecordOk n d.ctx d.words then x.mwrite n (dfld d.words 14 0 23) (recordBytes (d.recordWord code reason cause)) else x := rfl

/-! ### A transfer that aborts -/

theorem State.recorded_evcDone (x : State) (p m c : Nat) : x.recorded (x.evcDone p m c) := by
  unfold State.evcDone
  split <;> exact ⟨rfl, rfl, rfl⟩

/-- After its record the end of a transfer touches neither scheduler, transfers nor moulds. -/
theorem State.lFinish_shows (x : State) (n l : Nat) (d : LDesc) (code reason cause : Nat) :
    (x.lRecord n d code reason cause).recorded (x.lFinish n l d code reason cause) := by
  unfold State.lFinish
  dsimp only
  generalize x.lRecord n d code reason cause = w
  have hevc : ∀ b : Prop, [Decidable b] → w.recorded (if b then w.evcDone d.pour n (dfld d.words 1 0 8) else w) := by
    intro b _
    split
    · exact w.recorded_evcDone _ _ _
    · exact w.recorded_refl
  have hticket : ∀ (v : State) (ok : Bool), v.recorded (v.settleTicket d.pour d.task 1 l d.ticket ok) := fun v ok => ⟨rfl, rfl, rfl⟩
  have hraise : ∀ v : State, v.recorded ((v.incSat (R.FLK_LADLE_EVT n l) 16 16).raise E_LADLE_ABORT {} d.ctx) := fun v =>
    State.sameBut.recorded (ps := raiseParts) ((State.sameBut_raise fun _ h => h).mpr (by simp [raiseParts])) (by decide)
  have hend : ∀ v : State, w.recorded v →
      w.recorded (if code = 0 then v else (v.incSat (R.FLK_LADLE_EVT n l) 16 16).raise E_LADLE_ABORT {} d.ctx) := by
    intro v hv
    split
    · exact hv
    · exact hv.trans (hraise v)
  exact hend _ ((hevc _).trans (hticket _ _))

/-- A transfer that aborts leaves the scheduler and every transfer's place in its queue. -/
theorem State.lAbort_shows (x : State) (n l : Nat) (d : LDesc) (reason cause : Nat) : (x.lAbort n l d reason cause).sch = x.sch ∧
    (x.lAbort n l d reason cause).fab.ladles = x.fab.ladles ∧
    (n < 32 → x.lRecordOk n d.ctx d.words = true → ∃ m, (x.lAbort n l d reason cause).fab.mould =
      Mem.writeBytes m (mouldAt n (dfld d.words 14 0 23)) (recordBytes (d.recordWord E_LADLE_ABORT reason cause))) := by
  have hw := x.writesMemory_lUndefined n d
  unfold State.lAbort
  generalize x.lUndefined n d = w at *
  obtain ⟨hs, hl, hm⟩ := w.lFinish_shows n l d E_LADLE_ABORT reason cause
  rw [State.lRecord_eq] at hs hl hm
  refine ⟨hs.trans ?_, hl.trans ?_, fun hn hok => ⟨w.fab.mould, hm.trans ?_⟩⟩
  · split <;> exact hw.1
  · split <;> exact hw.2.1
  · rw [hw.lRecordOk hn, hok, if_pos rfl]
    rfl

/-! ### The transfers of a pour go (R323) -/

/-- The queue of the ladle with key `k`. -/
def State.queueAt (s : State) (k : Nat) : List LDesc := KMap.getD s.fab.ladles k []

theorem State.queueAt_congr (h : y.fab.ladles = x.fab.ladles) (k : Nat) : y.queueAt k = x.queueAt k := by rw [State.queueAt, h, State.queueAt]

theorem State.queueAt_setLadle (x : State) (n l : Nat) (q : List LDesc) (k : Nat) :
    (x.setLadle n l q).queueAt k = if k = n * 2 + l then q else x.queueAt k := by
  split
  next h => exact h ▸ x.ladle_setLadle n l q
  next h =>
    unfold State.queueAt State.setLadle
    dsimp only
    split
    · exact KMap.getD_del_other _ _ h
    · exact KMap.getD_put_other _ _ _ h

/-- A ladle's queue is neither scheduler nor mould. -/
theorem State.setLadle_apart (x : State) (n l : Nat) (q : List LDesc) : (x.setLadle n l q).sch = x.sch ∧
    (x.setLadle n l q).fab.mould = x.fab.mould := by
  unfold State.setLadle
  exact ⟨rfl, rfl⟩

theorem State.queueAt_mem {k : Nat} {e : LDesc} (h : e ∈ x.queueAt k) : ∃ q, (k, q) ∈ x.fab.ladles ∧ e ∈ q := by
  unfold State.queueAt at h
  generalize x.fab.ladles = m at *
  induction m with
  | nil => exact absurd h List.not_mem_nil
  | cons c m ih =>
    obtain ⟨a, q⟩ := c
    by_cases hk : k = a
    · subst hk
      have hq : KMap.getD ((k, q) :: m) k [] = q := by rw [KMap.getD, KMap.find, if_pos rfl]
      exact ⟨q, List.mem_cons_self, hq ▸ h⟩
    · have hq : KMap.getD ((a, q) :: m) k [] = KMap.getD m k [] := by rw [KMap.getD, KMap.find, if_neg hk, KMap.getD]
      obtain ⟨r, hr, he⟩ := ih (hq ▸ h)
      exact ⟨r, List.mem_cons_of_mem _ hr, he⟩

/-- The transfers of pour `id` in one ladle's queue go, the started one with an abort. -/
def State.dropLadle (id reason : Nat) (s : State) (k : Nat) : State :=
  let s1 := match s.ladle (k / 2) (k % 2) with
    | d :: _ => if d.pour = id ∧ d.state ≠ 0 then (s.dropPermit true k).lAbort (k / 2) (k % 2) d reason 0 else s
    | [] => s
  s1.setLadle (k / 2) (k % 2) ((s1.ladle (k / 2) (k % 2)).filter (fun d => d.pour != id))

theorem State.dropLadles_eq (x : State) (id reason : Nat) :
    x.dropLadles id reason = (x.fab.ladles.map Prod.fst).foldl (State.dropLadle id reason) x := rfl

theorem State.dropLadle_shows (x : State) (id reason k : Nat) : (x.dropLadle id reason k).sch = x.sch ∧
    (∀ j, (x.dropLadle id reason k).queueAt j = if j = k then (x.queueAt j).filter (fun d => d.pour != id) else x.queueAt j) ∧
    ((∀ e ∈ x.queueAt k, e.pour = id → e.state = 0) → (x.dropLadle id reason k).fab.mould = x.fab.mould) := by
  have hk : k / 2 * 2 + k % 2 = k := by omega
  have hhead : ∀ s1 : State, s1.sch = x.sch → s1.fab.ladles = x.fab.ladles → ((∀ e ∈ x.queueAt k, e.pour = id → e.state = 0) →
      s1.fab.mould = x.fab.mould) → let w := s1.setLadle (k / 2) (k % 2) ((s1.ladle (k / 2) (k % 2)).filter (fun d => d.pour != id))
      w.sch = x.sch ∧ (∀ j, w.queueAt j = if j = k then (x.queueAt j).filter (fun d => d.pour != id) else x.queueAt j) ∧
      ((∀ e ∈ x.queueAt k, e.pour = id → e.state = 0) → w.fab.mould = x.fab.mould) := by
    intro s1 hs hl hm
    refine ⟨(s1.setLadle_apart _ _ _).1.trans hs, fun j => ?_, fun hz => (s1.setLadle_apart _ _ _).2.trans (hm hz)⟩
    rw [State.queueAt_setLadle, hk, State.queueAt_congr hl]
    split
    next hj => rw [hj, ← State.queueAt_congr hl, State.queueAt, State.ladle, hk]
    · rfl
  have hqueue : x.ladle (k / 2) (k % 2) = x.queueAt k := by rw [State.ladle, hk, State.queueAt]
  unfold State.dropLadle
  dsimp only
  rw [hqueue]
  split
  next d rest hq =>
    split
    next hd =>
      obtain ⟨hs, hl, -⟩ := (x.dropPermit true k).lAbort_shows (k / 2) (k % 2) d reason 0
      exact hhead _ hs hl fun hz => absurd (hz d (hq ▸ List.mem_cons_self) hd.1) hd.2
    · exact hhead x rfl rfl fun _ => rfl
  · exact hhead x rfl rfl fun _ => rfl

/-- The transfers of pour `id` that are in the queues have not started. -/
def State.unstarted (s : State) (id : Nat) : Prop := ∀ k, ∀ e ∈ s.queueAt k, e.pour = id → e.state = 0

theorem State.dropLadles_foldl (id reason : Nat) (ks : List Nat) : ∀ x : State,
    let w := ks.foldl (State.dropLadle id reason) x
    w.sch = x.sch ∧ (∀ j, w.queueAt j = if j ∈ ks then (x.queueAt j).filter (fun d => d.pour != id) else x.queueAt j) ∧
      (x.unstarted id → w.fab.mould = x.fab.mould) := by
  induction ks with
  | nil => exact fun x => ⟨rfl, fun j => (if_neg List.not_mem_nil).symm, fun _ => rfl⟩
  | cons k ks ih =>
    intro x
    obtain ⟨hs, hq, hm⟩ := x.dropLadle_shows id reason k
    obtain ⟨gs, gq, gm⟩ := ih (x.dropLadle id reason k)
    refine ⟨gs.trans hs, fun j => ?_, fun hu => (gm fun j e he => ?_).trans (hm (hu k))⟩
    · rw [List.foldl_cons, gq, hq]
      by_cases hj : j = k
      · simp [hj, List.filter_filter]
      · simp [hj]
    · rw [hq] at he
      refine hu j e ?_
      split at he
      · exact (List.mem_filter.mp he).1
      · exact he

/-- No transfer of the pour is left; the moulds stay where none had started. -/
theorem State.dropLadles_shows (x : State) (id reason : Nat) : (x.dropLadles id reason).sch = x.sch ∧
    (∀ k, (x.dropLadles id reason).queueAt k = (x.queueAt k).filter (fun d => d.pour != id)) ∧
    (x.unstarted id → (x.dropLadles id reason).fab.mould = x.fab.mould) := by
  obtain ⟨hs, hq, hm⟩ := State.dropLadles_foldl id reason (x.fab.ladles.map Prod.fst) x
  rw [← State.dropLadles_eq] at hs hq hm
  refine ⟨hs, fun k => ?_, hm⟩
  rw [hq]
  split
  · rfl
  next hk =>
    have hnil : x.queueAt k = [] := List.eq_nil_iff_forall_not_mem.mpr fun e he => by
      obtain ⟨q, hmem, -⟩ := State.queueAt_mem he
      exact hk (List.mem_map.mpr ⟨_, hmem, rfl⟩)
    rw [hnil, List.filter_nil]

/-! ### A pour stops -/

/-- A pour that is stopped, with none of its transfers started, writes to no mould while another pour of its context holds on. -/
theorem State.pourStop_shows {p : Pour} (h : x.pour id = some p) (reason : Nat) :
    (∀ k, ∀ e ∈ (x.pourStop id reason).queueAt k, e.pour ≠ id) ∧ (x.pourStop id reason).endedWith id p.fault ∧
    (x.unstarted id → x.heldBeside id p.ctx → (x.pourStop id reason).fab.mould = x.fab.mould) := by
  have hid := State.pour_id h
  have hrest : x.rests ((((x.fetsOf id).foldl State.leave x).clearDeques id).dropDescs id) :=
    ((State.rests_foldl _ _ (fun s i _ => s.rests_leave i) x).trans ⟨rfl, rfl, rfl⟩).trans (State.rests_dropDescs _ id)
  unfold State.pourStop
  rw [h]
  dsimp only
  generalize (((x.fetsOf id).foldl State.leave x).clearDeques id).dropDescs id = w at *
  obtain ⟨wp, wl, wm⟩ := hrest
  obtain ⟨ds, dq, dm⟩ := w.dropLadles_shows id reason
  have hpours : (w.dropLadles id reason).sch.pours = x.sch.pours := (congrArg Sched.pours ds).trans wp
  generalize w.dropLadles id reason = v at *
  obtain ⟨el, ep, em⟩ := State.pourTryEnd_shows (State.pour_setPour (q := { p with st := 3 }) ((State.pour_congr hpours id).trans h) hid) rfl
  refine ⟨fun k e he => ?_, ep, fun hu hh => ?_⟩
  · rw [State.queueAt_congr el, show (v.setPour { p with st := 3 }).queueAt k = v.queueAt k from rfl, dq] at he
    simpa using (List.mem_filter.mp he).2
  · have hmould := em (State.heldBeside_setPour (q := { p with st := 3 }) (State.heldBeside_congr hpours hh) hid)
    refine (hmould.trans (dm fun k e he => ?_)).trans wm
    rw [State.queueAt_congr wl] at he
    exact hu k e he

/-- A JOB pour ends with the code of its first fault (R323). -/
theorem State.taskFault_shows {p : Pour} {c : Ctx} (h : x.pour id = some p) (hf : p.fault = 0) (hc : x.ctx p.ctx = some c) (hcls : c.cls = 2)
    (k code : Nat) : (∀ j, ∀ e ∈ (x.taskFault id k code).queueAt j, e.pour ≠ id) ∧ (x.taskFault id k code).endedWith id code ∧
    (x.unstarted id → x.heldBeside id p.ctx → (x.taskFault id k code).fab.mould = x.fab.mould) := by
  have hid := State.pour_id h
  have heq : x.taskFault id k code = (x.setPour { p with fault := code }).pourStop id := by
    unfold State.taskFault
    rw [h]
    dsimp only
    rw [hc]
    dsimp only
    rw [if_pos (by rw [hcls]; decide), State.pourFault, h]
    dsimp only
    rw [if_pos hf]
  obtain ⟨h1, h2, h3⟩ := State.pourStop_shows (State.pour_setPour (q := { p with fault := code }) h hid) 6
  rw [heq]
  exact ⟨h1, h2, fun hu hh => h3 hu (State.heldBeside_setPour (q := { p with fault := code }) hh hid)⟩

/-! ### The TLP -/

/-- R74: a poisoned TLP for no agent is discarded. -/
theorem poisonedTlpReceived_discards : ∃ s', exec (.poisonedTlpReceived t none) s = .next s' ∧ s.keepsBut s' [] :=
  State.givesNothing_of_done t rfl

theorem State.lHost_at' (s : State) (t c : Nat) (w : List Nat) (e : Nat) : (s.at' t).lHost c w e = s.lHost c w e := by
  simp [State.lHost, State.hostPage_at']

/-- The transfer of a poisoned TLP stops with reason MEM, and faults its task with `E_MEM_UNCORR`. -/
theorem exec_poisonedTlpReceived {n : Fin 32} {l : Fin 2} {rest : List LDesc} (hq : s.ladle n l = d :: rest)
    (hst : d.state = 1 ∨ d.state = 2) (hh : s.lHost d.ctx d.words d.done = true) : exec (.poisonedTlpReceived t (some (.ladle n l))) s =
      done ((((s.at' t).lAbort n l d 4 0).lPop n l).taskFault d.pour d.task E_MEM_UNCORR) := by
  have hexec : exec (.poisonedTlpReceived t (some (.ladle n l))) s = done ((s.at' t).hostReadBad (.ladle n l)) := rfl
  rw [hexec, State.hostReadBad, (State.sameAgents_of_fab (s.at'_fab t)).ladle, hq]
  dsimp only
  rw [if_pos ⟨hst, by rw [State.lHost_at', hh]⟩]
  rfl

/-- R74: the transfer is aborted, and its pour ends. -/
theorem poisonedTlpReceived_aborts {n : Fin 32} {l : Fin 2} {rest : List LDesc} {p : Pour} {c : Ctx} (hq : s.ladle n l = d :: rest)
    (hst : d.state = 1 ∨ d.state = 2) (hh : s.lHost d.ctx d.words d.done = true) (hp : s.pour d.pour = some p) (hf : p.fault = 0)
    (hc : s.ctx p.ctx = some c) (hcls : c.cls = 2) :
    ∃ s', exec (.poisonedTlpReceived t (some (.ladle n l))) s = .next s' ∧ (∀ e ∈ s'.ladle n l, e.pour ≠ d.pour) ∧
      (∀ q, s'.pour d.pour = some q → (q.st = 3 ∨ q.st = 4) ∧ q.fault = E_MEM_UNCORR) ∧
      (s.lRecordOk n d.ctx d.words = true → (∀ e ∈ rest, e.pour = d.pour → e.state = 0) →
        (∀ k ∈ s.fab.ladles, k.1 ≠ 2 * n + l → ∀ e ∈ k.2, e.pour = d.pour → e.state = 0) →
        (∃ q ∈ s.sch.pours, q.ctx = p.ctx ∧ q.holds = true ∧ q.id ≠ d.pour) →
        Mem.readLE s'.fab.mould (mouldAt n (dfld d.words 14 0 23)) 4 = E_LADLE_ABORT + 4 * 65536 ∧
        Mem.readLE s'.fab.mould (mouldAt n (dfld d.words 14 0 23) + 4) 4 = d.done % 2 ^ 32) := by
  have hexec := exec_poisonedTlpReceived (t := t) hq hst hh
  obtain ⟨as, al, am⟩ := (s.at' t).lAbort_shows n l d 4 0
  rw [State.at'_sch] at as
  rw [State.at'_fab] at al
  have hrec : (s.at' t).lRecordOk n d.ctx d.words = s.lRecordOk n d.ctx d.words := by
    simp [State.lRecordOk, State.mouldOk, State.regions]
  rw [hrec] at am
  generalize (s.at' t).lAbort n l d 4 0 = w at *
  have hladle : w.ladle n l = d :: rest := (congrArg (KMap.getD · ((n : Nat) * 2 + l) []) al).trans hq
  have hpop : w.lPop n l = w.setLadle n l rest := by rw [State.lPop, hladle, List.drop_succ_cons, List.drop_zero]
  rw [hpop] at hexec
  have hsch : (w.setLadle n l rest).sch = s.sch := (w.setLadle_apart n l rest).1.trans as
  obtain ⟨h1, h2, h3⟩ := State.taskFault_shows (x := w.setLadle n l rest) (id := d.pour)
    ((State.pour_congr (congrArg Sched.pours hsch) _).trans hp) hf ((State.ctx_congr hsch _).trans hc) hcls d.task E_MEM_UNCORR
  have hunstarted : (∀ e ∈ rest, e.pour = d.pour → e.state = 0) →
      (∀ k ∈ s.fab.ladles, k.1 ≠ 2 * n + l → ∀ e ∈ k.2, e.pour = d.pour → e.state = 0) → (w.setLadle n l rest).unstarted d.pour := by
    intro hrest hother k e he hpour
    rw [State.queueAt_setLadle] at he
    split at he
    · exact hrest e he hpour
    next hk =>
      obtain ⟨q, hmem, heq⟩ := State.queueAt_mem ((State.queueAt_congr al k) ▸ he)
      exact hother _ hmem (by omega) e heq hpour
  generalize (w.setLadle n l rest).taskFault d.pour d.task E_MEM_UNCORR = u at *
  refine ⟨_, hexec, fun e he => h1 (n * 2 + l) e ?_, fun r hr => h2 r ?_, fun hok hrest hother hheld => ?_⟩
  · rwa [← State.queueAt_congr (congrArg Fabric.ladles u.settle_fab)]
  · rwa [State.pour_congr (congrArg Sched.pours u.settle_sch)] at hr
  · obtain ⟨m, hm⟩ := am n.isLt hok
    have hmould := (h3 (hunstarted hrest hother) (State.heldBeside_congr (congrArg Sched.pours hsch) hheld)).trans
      ((w.setLadle_apart n l rest).2.trans hm)
    obtain ⟨r1, r2⟩ := Mem.readLE_recordBytes m (mouldAt n (dfld d.words 14 0 23)) (d.recordWord E_LADLE_ABORT 4 0)
    obtain ⟨w0, w1⟩ := d.recordWord_first E_LADLE_ABORT 4 0
    rw [w0] at r1
    rw [w1] at r2
    rw [State.settle_fab, hmould]
    exact ⟨r1.trans (by decide), r2⟩

/-! ### The claim -/

/-- Settles O32, clause by clause. -/
theorem faultsScrubAndPoison : Obligations.FaultsScrubAndPoison := by
  unfold Obligations.FaultsScrubAndPoison
  refine ⟨fun s s1 s2 t frame g out n x cause va hpark hout hpage hstop => ?_, fun s x va f p => State.bringPage_brings,
    fun s s2 y va => State.sendOut_takes, fun s t line e hr hl => ⟨scrubLine_corrects hr hl, scrubLine_poisons hr hl⟩,
    fun s t => poisonedTlpReceived_discards, fun s t n l d rest p c hq hst hh hp _ hf hc hcls =>
      poisonedTlpReceived_aborts hq hst hh hp hf hc hcls⟩
  refine xlateFaultResolved_resumes hpark ?_ hpage hstop
  cases out <;> exact hout

end Sys2Proof.Machine
end

section
/-! PROOF. The staging transaction (R94, R96, R98, R100, R106, R108): shadow writes, CHECK and ARM, CANCEL and DISCARD. -/

namespace Sys2Proof.Machine

variable {s x y : State} {t : Nat} {p : Pending}

/-! ### Shadow writes -/

theorem State.sameBut_stage (y : State) (g : Stage) : y.sameBut { y with stage := g } [.stage] := y.sameBut_mix { y with stage := g } _

/-- A shadow write leaves the words of every other register as they were. -/
theorem find_shadowPut_other {q : StWord} {step b : Nat} (m : KMap W32) (a v : Nat) (live : Nat → Nat) (h : b ∉ q.addrs step) :
    KMap.find (shadowPut m q step a v live) b = KMap.find m b := by
  refine List.foldlRecOn (motive := fun n => KMap.find n b = KMap.find m b) (q.addrs step) _ rfl fun n hn c hc => ?_
  have hne : b ≠ c := fun e => h (e ▸ hc)
  split
  · rw [KMap.find_put_other _ _ hne, hn]
  · split
    · exact hn
    · rw [KMap.find_put_other _ _ hne, hn]

/-- What a write to a staged word of Cuette's leaves of the staging area: no shadow of Ronyr's, and no word of another register, changes. -/
theorem State.shadowWrite_keeps {a : Nat} {q : StWord} (x : State) (v : Nat) (hq : stagedWord a = some q) :
    (x.shadowWrite a v).stage.rnyShadow = x.stage.rnyShadow ∧
      ∀ b, b ∉ q.addrs 4 → KMap.find (x.shadowWrite a v).stage.shadow b = KMap.find x.stage.shadow b := by
  simp only [State.shadowWrite, hq]
  rw [State.noteWritten_frame]
  exact ⟨rfl, fun b hb => find_shadowPut_other _ _ _ _ hb⟩

theorem exec_stagedWrite (off : BitVec 26) (v : W32) (hr : s.running = true) :
    exec (.stagedWrite t off v) s = done ((s.at' t).stagedWrite off.toNat v.toNat) := by
  have hexec : exec (.stagedWrite t off v) s =
      if (s.at' t).running then done ((s.at' t).stagedWrite off.toNat v.toNat) else done (s.at' t) := rfl
  rw [hexec, State.running_at', if_pos hr]

/-- R94: a write the staging block accepts lands in the shadow. -/
theorem stagedWrite_lands {off : BitVec 26} {q : StWord} (v : W32) (hr : s.running = true) (hq : stagedWord off.toNat = some q)
    (ho : s.shadowOpen = true) : s.gives (.stagedWrite t off v) [.stage] fun s' =>
      KMap.find s'.stage.shadow off.toNat = some (BitVec.ofNat 32 (q.keep v.toNat)) ∧ s'.stage.rnyShadow = s.stage.rnyShadow ∧
      ∀ a, a ∉ q.addrs 4 → KMap.find s'.stage.shadow a = KMap.find s.stage.shadow a := by
  have hexec := exec_stagedWrite (t := t) off v hr
  rw [State.stagedWrite_open _ hq ((s.shadowOpen_at' t).trans ho)] at hexec
  have hf : (s.at' t).sameBut ((s.at' t).shadowWrite off.toNat v.toNat) [.stage] := by
    rw [State.shadowWrite_frame]
    exact State.sameBut_stage _ _
  obtain ⟨hrny, hkeep⟩ := (s.at' t).shadowWrite_keeps v.toNat hq
  rw [State.at'_stage] at hrny hkeep
  exact State.gives_of_done t hexec hf ⟨(s.at' t).find_shadowWrite _ hq, hrny, hkeep⟩

/-- R94: a write the staging block does not accept is counted. -/
theorem stagedWrite_counted {off : BitVec 26} {q : StWord} (v : W32) (hr : s.running = true) (hq : stagedWord off.toNat = some q)
    (ho : s.shadowOpen = false) : s.gives (.stagedWrite t off v) [.regs] fun s' => s.regsBut s' [R.STG_IGNORED] ∧
      s'.rd R.STG_IGNORED = (s.rd R.STG_IGNORED + 1) % 2 ^ 32 := by
  have hexec := exec_stagedWrite (t := t) off v hr
  rw [State.stagedWrite_shut _ hq ((s.shadowOpen_at' t).trans ho)] at hexec
  refine State.gives_of_done t hexec (by simp)
    ⟨((State.regsBut_congr (s.at'_regs t) _).trans (State.regsBut_wr (State.regsBut_refl _ _) (by simp))).settle, ?_⟩
  rw [State.rd_settle, State.inc, State.rd_wr_same, State.rd_at']

/-! ### The control register -/

theorem State.stgState_at' (s : State) (t : Nat) : (s.at' t).stgState = s.stgState := s.fld_at' t _ _ _

theorem State.stgState_settle (x : State) : x.settle.stgState = x.stgState := x.fld_settle _ _ _

/-- The control register is written: op reads 0, and nothing else of the transaction changes. -/
theorem State.stgCtrl_shows (x : State) (n : Nat) : x.sameBut (x.stgCtrl n) [.regs] ∧ x.regsBut (x.stgCtrl n) [R.STG_CTRL] ∧
    (x.stgCtrl n).stgState = x.stgState ∧ (x.stgCtrl n).stage = x.stage :=
  ⟨by simp [State.stgCtrl], State.regsBut_wr (x.regsBut_refl _) (by simp), State.fld_wr_other _ _ _ _ (by decide), x.wr_stage _ _⟩

/-- The parameters of an operation are read from the cast registers and the shadow. -/
theorem State.stgParams_congr (hg : y.stage = x.stage) (hr : x.regsBut y [R.STG_CTRL]) (ctrl : Nat) (arm : Bool) :
    y.stgParams ctrl arm = x.stgParams ctrl arm := by
  simp only [State.stgParams, State.rd64, hg]
  rw [hr _ (by decide), hr _ (by decide), hr _ (by decide), hr _ (by decide), hr _ (by decide), hr _ (by decide)]

/-- Whether a cast has taken effect already is read from the mirror, the answers of Ronyr and the device time. -/
theorem State.cancelLate_stgCtrl (x : State) (n : Nat) (p : Pending) : (x.stgCtrl n).cancelLate p = x.cancelLate p := by
  have hst : (x.stgCtrl n).fld R.STG_STATUS 0 3 = x.fld R.STG_STATUS 0 3 := (x.stgCtrl_shows n).2.2.1
  have hcross : (x.stgCtrl n).crossing = x.crossing := by
    simp only [State.crossing, hst]
    rfl
  have hmirror : ∀ ch, R.LIN_MIRROR ch ≠ R.STG_CTRL ∧ R.LIN_MIRROR ch + 4 ≠ R.STG_CTRL → (x.stgCtrl n).mirror ch = x.mirror ch := by
    intro ch h
    simp only [State.mirror, State.rd64, State.stgCtrl]
    rw [State.rd_wr_other _ _ h.1, State.rd_wr_other _ _ h.2]
  simp only [State.cancelLate, hcross, hmirror p.chan (by simp only [R.LIN_MIRROR, R.STG_CTRL]; omega)]
  rfl

/-! ### CHECK and ARM -/

/-- CHECK and ARM are one command but for the parameter. -/
theorem exec_stageStart {w : W32} {arm : Bool} {c : Instr} (hr : s.running = true) (hc : c = if arm then .stageArm t w else .stageCheck t w) :
    exec c s = done ((s.at' t).stgStart w.toNat arm) := by
  have hexec : exec c s = if (s.at' t).running then done ((s.at' t).stgStart w.toNat arm) else done (s.at' t) := by
    subst hc
    cases arm <;> rfl
  rw [hexec, State.running_at', if_pos hr]

/-- The operation runs, on the registers that are dirty now. -/
def State.stgChecking (s : State) (p : Pending) : State :=
  { (((s.setBit R.STG_STATUS 3 false).setFld R.STG_STATUS 0 3 1).setFld R.STG_STATUS 16 16 0) with stage := { s.stage with pend := some p } }

/-- What a write of CHECK or ARM does, case by case. -/
theorem State.stgStart_cases (x : State) (n : Nat) (arm : Bool) :
    (x.stgState = 1 → x.stgStart n arm = (x.stgCtrl n).inc R.STG_IGNORED) ∧
    (x.stgState = 2 → x.stgStart n arm = ((x.stgCtrl n).setFld R.STG_STATUS 16 16 E_CAST_PENDING).msix 11) ∧
    (x.stgState ≠ 1 → x.stgState ≠ 2 →
      ((x.stgParams n arm).needsRonyr = true ∧ x.line.validSince = none →
        x.stgStart n arm = ((x.stgCtrl n).setBit R.STG_STATUS 3 false).stgRefuse E_BARRIER_HB none) ∧
      (¬ ((x.stgParams n arm).needsRonyr = true ∧ x.line.validSince = none) →
        x.stgStart n arm = (x.stgCtrl n).stgChecking (x.stgParams n arm))) := by
  obtain ⟨-, hr, hst, hg⟩ := x.stgCtrl_shows n
  have hp : (x.stgCtrl n).stgParams n arm = x.stgParams n arm := State.stgParams_congr hg hr n arm
  have hl : ((x.stgCtrl n).setBit R.STG_STATUS 3 false).line = x.line := rfl
  unfold State.stgStart
  dsimp only
  rw [hst, hp, hl]
  refine ⟨fun h => if_pos h, fun h => ?_, fun h1 h2 => ⟨fun h => ?_, fun h => ?_⟩⟩
  · rw [if_neg (by omega), if_pos h]
  · rw [if_neg h1, if_neg h2, if_pos h]
  · rw [if_neg h1, if_neg h2, if_neg h]
    rfl

/-- A running operation shows CHECKING with no code, and no CANCEL that came too late (R96). -/
theorem State.stgChecking_shows (x : State) (p : Pending) : x.sameBut (x.stgChecking p) [.regs, .stage] ∧
    x.regsBut (x.stgChecking p) [R.STG_STATUS] ∧ (x.stgChecking p).stgState = 1 ∧ (x.stgChecking p).fld R.STG_STATUS 16 16 = 0 ∧
    (x.stgChecking p).bit R.STG_STATUS 3 = false ∧ (x.stgChecking p).stage = { x.stage with pend := some p } := by
  have hg : (x.stgChecking p).regs = (((x.setBit R.STG_STATUS 3 false).setFld R.STG_STATUS 0 3 1).setFld R.STG_STATUS 16 16 0).regs := rfl
  have hu : x.sameBut (((x.setBit R.STG_STATUS 3 false).setFld R.STG_STATUS 0 3 1).setFld R.STG_STATUS 16 16 0) [.regs, .stage] := by simp
  refine ⟨hu.trans (.one (State.sameBut_stage _ _) (by decide)), ?_, ?_, ?_, ?_, rfl⟩
  · exact (State.regsBut_setFld (State.regsBut_setFld (State.regsBut_setBit (x.regsBut_refl _) (by simp)) (by simp)) (by simp)).trans
      (State.regsBut_congr hg _)
  · rw [State.stgState, State.fld_congr hg, State.fld_setFld_apart _ (by decide), State.fld_setFld_same _ _ _ _ _ (by decide),
      Nat.mod_eq_of_lt (by decide)]
  · rw [State.fld_congr hg, State.fld_setFld_same _ _ _ _ _ (by decide), Nat.zero_mod]
  · rw [State.bit_congr hg, State.bit_setFld_apart _ (by decide), State.bit_setFld_apart _ (by decide),
      State.bit_setBit_same _ _ _ _ (by decide)]

/-- No operation runs and no cast is pending. -/
def State.stgEnded (s : State) : State := { s with stage := { s.stage with pend := none } }

theorem State.stgEnded_shows (x : State) : x.sameBut x.stgEnded [.stage] ∧ x.stgEnded.regs = x.regs ∧
    x.stgEnded.stage = { x.stage with pend := none } := ⟨x.sameBut_stage _, rfl, rfl⟩

/-- A refusal with code `code` that shows `v` as the result of the check and `w` as its address. -/
def State.stgRefused (s : State) (code v w : Nat) : State :=
  ((((s.setFld R.STG_STATUS 0 3 4).setFld R.STG_STATUS 16 16 code).wr R.STG_CHECK_RESULT v).wr R.STG_CHECK_ADDR w).stgEnded.msix 11

theorem State.stgRefuse_none (x : State) (code : Nat) : x.stgRefuse code none = x.stgRefused code 0 0 := rfl

theorem State.stgRefuse_some (x : State) (code : Nat) (f : CheckFail) :
    x.stgRefuse code (some f) = x.stgRefused code (f.reason + f.block * 256) f.addr := rfl

/-- A refusal shows its code and what was found, and ends the operation (R100). -/
theorem State.stgRefused_shows (x : State) (code v w : Nat) : x.sameBut (x.stgRefused code v w) [.regs, .host, .stage] ∧
    (x.stgRefused code v w).stgState = 4 ∧ (x.stgRefused code v w).fld R.STG_STATUS 16 16 = code % 2 ^ 16 ∧
    (x.stgRefused code v w).stage = { x.stage with pend := none } ∧ (x.stgRefused code v w).rd R.STG_CHECK_RESULT = v % 2 ^ 32 ∧
    (x.stgRefused code v w).rd R.STG_CHECK_ADDR = w % 2 ^ 32 := by
  have hf : x.sameBut ((((x.setFld R.STG_STATUS 0 3 4).setFld R.STG_STATUS 16 16 code).wr R.STG_CHECK_RESULT v).wr R.STG_CHECK_ADDR w)
      [.regs, .host, .stage] := by simp
  obtain ⟨ef, er, eg⟩ := ((((x.setFld R.STG_STATUS 0 3 4).setFld R.STG_STATUS 16 16 code).wr R.STG_CHECK_RESULT v).wr
    R.STG_CHECK_ADDR w).stgEnded_shows
  have hr := (State.msix_regs _ 11).trans er
  unfold State.stgRefused
  refine ⟨(State.sameBut_msix (by decide)).mpr (hf.trans (ef.mono (by decide))), ?_, ?_, ?_, ?_, ?_⟩
  · rw [State.stgState, State.fld_congr hr, State.fld_wr_other _ _ _ _ (by decide), State.fld_wr_other _ _ _ _ (by decide),
      State.fld_setFld_apart _ (by decide), State.fld_setFld_same _ _ _ _ _ (by decide),
      Nat.mod_eq_of_lt (by decide)]
  · rw [State.fld_congr hr, State.fld_wr_other _ _ _ _ (by decide), State.fld_wr_other _ _ _ _ (by decide),
      State.fld_setFld_same _ _ _ _ _ (by decide)]
  · rw [State.msix_stage, eg, State.wr_stage, State.wr_stage, State.setFld_stage, State.setFld_stage]
  · rw [State.rd_congr hr, State.rd_wr_other _ _ (by decide), State.rd_wr_same]
  · rw [State.rd_congr hr, State.rd_wr_same]

/-- A command that ends in a refusal of what it found. -/
theorem State.gives_refused {b : State} {c : Instr} {code v w : Nat} (hexec : exec c s = done (b.stgRefused code v w))
    (hf : (s.at' t).sameBut b [.regs, .host, .stage]) (hg : b.stage = s.stage) (hcode : code < 2 ^ 16) :
    s.gives c [.regs, .host, .stage] fun s' => s'.stgState = 4 ∧ s'.fld R.STG_STATUS 16 16 = code ∧
      s'.stage = { s.stage with pend := none } ∧ s'.rd R.STG_CHECK_RESULT = v % 2 ^ 32 ∧ s'.rd R.STG_CHECK_ADDR = w % 2 ^ 32 := by
  obtain ⟨rf, r4, rc, rg, rv, rw⟩ := b.stgRefused_shows code v w
  rw [hg] at rg
  rw [Nat.mod_eq_of_lt hcode] at rc
  refine State.gives_of_done t hexec (hf.trans rf) ⟨?_, ?_, ?_, ?_, ?_⟩
  · rw [State.stgState_settle, r4]
  · rw [State.fld_settle, rc]
  · rw [State.settle_stage, rg]
  · rw [State.rd_settle, rv]
  · rw [State.rd_settle, rw]

theorem State.gives.imp {c : Instr} {l : List Part} {P Q : State → Prop} (h : s.gives c l P) (hpq : ∀ s', P s' → Q s') : s.gives c l Q :=
  let ⟨s', hc, hk, hp⟩ := h
  ⟨s', hc, hk, hpq s' hp⟩

section Start

variable {w : W32} {arm : Bool} {c : Instr} (hr : s.running = true) (hc : c = if arm then .stageArm t w else .stageCheck t w)
include hr hc

/-- R98: while an operation runs, CHECK and ARM are ignored and counted. -/
theorem stageStart_ignored (h1 : s.stgState = 1) : s.gives c [.regs] fun s' => s.regsBut s' [R.STG_CTRL, R.STG_IGNORED] ∧
    s'.rd R.STG_IGNORED = (s.rd R.STG_IGNORED + 1) % 2 ^ 32 := by
  have hexec := exec_stageStart hr hc
  rw [((s.at' t).stgStart_cases w.toNat arm).1 ((s.stgState_at' t).trans h1)] at hexec
  obtain ⟨hf, hb, -, -⟩ := (s.at' t).stgCtrl_shows w.toNat
  have hi : ((s.at' t).stgCtrl w.toNat).rd R.STG_IGNORED = s.rd R.STG_IGNORED := (hb _ (by decide)).trans (s.rd_at' _ _)
  refine State.gives_of_done t hexec (by simpa using hf) ⟨?_, ?_⟩
  · exact ((State.regsBut_congr (s.at'_regs t) _).trans (State.regsBut_wr (hb.mono (by simp)) (by simp))).settle
  · rw [State.rd_settle, State.inc, State.rd_wr_same, hi]

/-- R100: while a cast is pending, CHECK and ARM are refused, and it stays pending. -/
theorem stageStart_pending (h2 : s.stgState = 2) : s.gives c [.regs, .host] fun s' => s.regsBut s' [R.STG_CTRL, R.STG_STATUS] ∧
    s'.stgState = 2 ∧ s'.fld R.STG_STATUS 16 16 = E_CAST_PENDING := by
  have hexec := exec_stageStart hr hc
  rw [((s.at' t).stgStart_cases w.toNat arm).2.1 ((s.stgState_at' t).trans h2)] at hexec
  obtain ⟨hf, hb, hst, -⟩ := (s.at' t).stgCtrl_shows w.toNat
  have hm := State.msix_regs (((s.at' t).stgCtrl w.toNat).setFld R.STG_STATUS 16 16 E_CAST_PENDING) 11
  refine State.gives_of_done t hexec (by simpa using hf.mono (by decide)) ⟨?_, ?_, ?_⟩
  · exact ((State.regsBut_congr (s.at'_regs t) _).trans ((State.regsBut_setFld (hb.mono (by simp)) (by simp)).trans
      (State.regsBut_congr hm _))).settle
  · rw [State.stgState_settle, State.stgState, State.fld_congr hm, State.fld_setFld_apart _ (by decide), ← State.stgState, hst,
      State.stgState_at', h2]
  · rw [State.fld_settle, State.fld_congr hm, State.fld_setFld_same _ _ _ _ _ (by decide)]
    rfl

theorem exec_stageStart_hbLost (h1 : s.stgState ≠ 1) (h2 : s.stgState ≠ 2)
    (hb : (s.stgParams w.toNat arm).needsRonyr = true ∧ s.line.validSince = none) :
    exec c s = done ((((s.at' t).stgCtrl w.toNat).setBit R.STG_STATUS 3 false).stgRefused E_BARRIER_HB 0 0) := by
  have hp : (s.at' t).stgParams w.toNat arm = s.stgParams w.toNat arm :=
    State.stgParams_congr (s.at'_stage t) (State.regsBut_congr (s.at'_regs t) _) _ _
  obtain ⟨-, -, hcases⟩ := (s.at' t).stgStart_cases w.toNat arm
  have hlost := (hcases (by rwa [State.stgState_at']) (by rwa [State.stgState_at'])).1 (by rwa [hp, State.at'_line])
  rw [exec_stageStart hr hc, hlost, State.stgRefuse_none]

/-- R106: an operation that needs Ronyr's answer is refused while the barrier heartbeat is lost. -/
theorem stageStart_hbLost (h1 : s.stgState ≠ 1) (h2 : s.stgState ≠ 2)
    (hb : (s.stgParams w.toNat arm).needsRonyr = true ∧ s.line.validSince = none) : s.gives c [.regs, .host, .stage] fun s' =>
      s'.stgState = 4 ∧ s'.fld R.STG_STATUS 16 16 = E_BARRIER_HB ∧ s'.stage = { s.stage with pend := none } := by
  obtain ⟨hf, -, -, hg⟩ := (s.at' t).stgCtrl_shows w.toNat
  have hframe : (s.at' t).sameBut (((s.at' t).stgCtrl w.toNat).setBit R.STG_STATUS 3 false) [.regs, .host, .stage] := by
    simpa using hf.mono (by decide)
  have hstage : (((s.at' t).stgCtrl w.toNat).setBit R.STG_STATUS 3 false).stage = s.stage := by
    rw [State.setBit_stage, hg, State.at'_stage]
  exact (State.gives_refused (exec_stageStart_hbLost hr hc h1 h2 hb) hframe hstage (by decide)).imp
    fun s' ⟨h4, hcode, hstage, _⟩ => ⟨h4, hcode, hstage⟩

/-- R96, R100: else the operation runs, on the registers that are dirty now. -/
theorem stageStart_runs (h1 : s.stgState ≠ 1) (h2 : s.stgState ≠ 2)
    (hb : ¬ ((s.stgParams w.toNat arm).needsRonyr = true ∧ s.line.validSince = none)) : s.gives c [.regs, .stage] fun s' =>
      s'.stgState = 1 ∧ s'.fld R.STG_STATUS 16 16 = 0 ∧ s'.bit R.STG_STATUS 3 = false ∧
        s'.stage = { s.stage with pend := some (s.stgParams w.toNat arm) } ∧ s.regsBut s' [R.STG_CTRL, R.STG_STATUS] := by
  have hexec := exec_stageStart hr hc
  have hp : (s.at' t).stgParams w.toNat arm = s.stgParams w.toNat arm :=
    State.stgParams_congr (s.at'_stage t) (State.regsBut_congr (s.at'_regs t) _) _ _
  rw [(((s.at' t).stgStart_cases w.toNat arm).2.2 (by rwa [State.stgState_at']) (by rwa [State.stgState_at'])).2
    (by rwa [hp, State.at'_line]), hp] at hexec
  obtain ⟨hf, hrb, -, hg⟩ := (s.at' t).stgCtrl_shows w.toNat
  rw [State.at'_stage] at hg
  generalize (s.at' t).stgCtrl w.toNat = b at *
  obtain ⟨cf, cb, c1, cc, c3, cg⟩ := b.stgChecking_shows (s.stgParams w.toNat arm)
  rw [hg] at cg
  refine State.gives_of_done t hexec ((hf.mono (by decide)).trans cf) ⟨?_, ?_, ?_, ?_,
    ((State.regsBut_congr (s.at'_regs t) _).trans ((hrb.mono (by simp)).trans (cb.mono (by simp)))).settle⟩
  · rw [State.stgState_settle, c1]
  · rw [State.fld_settle, cc]
  · rw [State.bit_settle, c3]
  · rw [State.settle_stage, cg]

end Start

end Sys2Proof.Machine
end

section
/-! PROOF. CANCEL and DISCARD (R98, R108): a running check or a pending cast is withdrawn, or the cast has taken effect already. -/

namespace Sys2Proof.Machine

variable {s x y : State} {t : Nat} {p : Pending}

/-! ### Return to IDLE -/

/-- A part that is exactly the same need not be listed. -/
theorem State.sameBut.drop {q : Part} {l : List Part} (h : y.sameBut x (q :: l)) (hq : q.exact y x) : y.sameBut x l := by
  refine ⟨h.1, fun r hr => ?_⟩
  by_cases e : r = q
  · exact e ▸ hq
  · exact h.2 r (by simp [e, hr])

/-- What Ronyr was armed with is discarded. -/
def State.ronDisarmed (s : State) : State := { s with ron := { s.ron with armed := none, shadow := [] } }

/-- The registers of the staging block show IDLE. -/
def State.idleShown (s : State) : State := ((s.setFld R.STG_STATUS 0 3 0).setFld R.STG_STATUS 16 16 0).wr R.STG_GEN_PENDING 0

/-- A DISCARD is held until the running check ends. -/
def State.discardHeld (s : State) : Bool := match s.stage.pend with | some p => p.discardHeld | none => false

theorem State.discardHeld_false (hd : ∀ p, x.stage.pend = some p → p.discardHeld = false) : x.discardHeld = false := by
  unfold State.discardHeld
  split
  next p hp => exact hd p hp
  next => rfl

theorem State.stgIdle_eq (x : State) (armed : Bool) (hd : ∀ p, x.stage.pend = some p → p.discardHeld = false) :
    x.stgIdle armed = (if armed then x.stgEnded.ronDisarmed else x.stgEnded).idleShown := by
  have hform : x.stgIdle armed = if x.discardHeld then (if armed then x.stgEnded.ronDisarmed else x.stgEnded).idleShown.stgDiscard
      else (if armed then x.stgEnded.ronDisarmed else x.stgEnded).idleShown := rfl
  rw [hform, State.discardHeld_false hd, if_neg (by decide)]

theorem State.idleShown_shows (x : State) : x.sameBut x.idleShown [.regs] ∧
    x.regsBut x.idleShown [R.STG_STATUS, R.STG_GEN_PENDING] ∧ x.idleShown.stgState = 0 ∧ x.idleShown.rd R.STG_GEN_PENDING = 0 := by
  unfold State.idleShown
  refine ⟨by simp, ?_, ?_, ?_⟩
  · exact State.regsBut_wr (State.regsBut_setFld (State.regsBut_setFld (x.regsBut_refl _) (by simp)) (by simp)) (by simp)
  · rw [State.stgState, State.fld_wr_other _ _ _ _ (by decide), State.fld_setFld_apart _ (by decide),
      State.fld_setFld_same _ _ _ _ _ (by decide), Nat.zero_mod]
  · rw [State.rd_wr_same, Nat.zero_mod]

/-- With no DISCARD held the operation ends, and nothing else of the staging area changes; Ronyr forgets what it was armed with (R98, R108). -/
theorem State.stgIdle_shows (x : State) (armed : Bool) (hd : ∀ p, x.stage.pend = some p → p.discardHeld = false) :
    x.sameBut (x.stgIdle armed) [.ron, .regs, .stage] ∧ x.regsBut (x.stgIdle armed) [R.STG_STATUS, R.STG_GEN_PENDING] ∧
    (x.stgIdle armed).stgState = 0 ∧ (x.stgIdle armed).rd R.STG_GEN_PENDING = 0 ∧
    (x.stgIdle armed).stage = { x.stage with pend := none } ∧
    (x.stgIdle armed).ron = if armed then { x.ron with armed := none, shadow := [] } else x.ron := by
  rw [x.stgIdle_eq armed hd]
  have hw : x.sameBut (if armed then x.stgEnded.ronDisarmed else x.stgEnded) [.ron, .regs, .stage] ∧
      (if armed then x.stgEnded.ronDisarmed else x.stgEnded).regs = x.regs ∧
      (if armed then x.stgEnded.ronDisarmed else x.stgEnded).stage = { x.stage with pend := none } ∧
      (if armed then x.stgEnded.ronDisarmed else x.stgEnded).ron = if armed then { x.ron with armed := none, shadow := [] } else x.ron := by
    obtain ⟨ef, er, eg⟩ := x.stgEnded_shows
    cases armed
    · exact ⟨ef.mono (by decide), er, eg, rfl⟩
    · exact ⟨(ef.mono (by decide)).trans ((x.stgEnded.sameBut_mix x.stgEnded.ronDisarmed [.ron]).mono (by decide)), er, eg, rfl⟩
  generalize (if armed then x.stgEnded.ronDisarmed else x.stgEnded) = b at hw ⊢
  obtain ⟨wf, wr, wg, wo⟩ := hw
  obtain ⟨hf, hr, h0, hp⟩ := b.idleShown_shows
  have hg : b.idleShown.stage = b.stage := hf.2 .stage (by decide)
  have ho : b.idleShown.ron = b.ron := hf.2 .ron (by decide)
  exact ⟨wf.trans (hf.mono (by decide)), (State.regsBut_congr wr _).trans hr, h0, hp, hg.trans wg, ho.trans wo⟩

/-! ### CANCEL -/

theorem State.waitingStep_none (h : x.tim.stepWait = none) : x.waitingStep = x := by
  unfold State.waitingStep
  rw [h]

theorem State.stepWait_at' (s : State) (t : Nat) : (s.at' t).tim.stepWait = s.tim.stepWait := by
  unfold State.at'
  split <;> rfl

/-- At `t`, the pending cast `p` has taken effect already (R108): one with Ronyr fields once Ronyr has applied them, one without once the
mirror shows the crossing or T has come. -/
def State.castPassed (s : State) (t : Nat) (p : Pending) : Prop :=
  if p.rny ≠ [] then s.crossing.isSome = true ∨ p.mode = 1 ∧ s.ron.armed = none
  else if p.mode = 2 then 0 ≤ dist (decide (p.dir = 1)) p.count (s.mirror p.chan) else p.time ≤ (s.at' t).tim.ns

theorem State.mirror_at' (s : State) (t ch : Nat) : (s.at' t).mirror ch = s.mirror ch := by simp only [State.mirror, State.rd64, State.rd_at']

theorem State.cancelLate_iff (s : State) (t : Nat) (p : Pending) : (s.at' t).cancelLate p = true ↔ s.castPassed t p := by
  unfold State.cancelLate State.castPassed
  rw [(lines_at' s t 0).2.1, State.mirror_at', State.at'_ron]
  split
  · simp
  · split <;> simp

theorem exec_stageCancel (w : W32) (hr : s.running = true) : exec (.stageCancel t w) s = done ((s.at' t).stgCancel w.toNat) := by
  have hexec : exec (.stageCancel t w) s = if (s.at' t).running then done ((s.at' t).stgCancel w.toNat) else done (s.at' t) := rfl
  rw [hexec, State.running_at', if_pos hr]

theorem State.stgCancel_none (n : Nat) (hp : x.stage.pend = none) : x.stgCancel n = x.stgCtrl n := by
  unfold State.stgCancel
  dsimp only
  rw [(x.stgCtrl_shows n).2.2.2, hp]

/-- What a CANCEL does to an operation, by its state (R108). -/
theorem State.stgCancel_some (n : Nat) (hp : x.stage.pend = some p) : x.stgCancel n =
    if x.stgState = 1 then (x.stgCtrl n).stgIdle false
    else if x.stgState = 2 then
      (if x.cancelLate p then (x.stgCtrl n).setBit R.STG_STATUS 3 true else ((x.stgCtrl n).stgIdle p.needsRonyr).waitingStep)
    else x.stgCtrl n := by
  obtain ⟨-, -, hst, hg⟩ := x.stgCtrl_shows n
  unfold State.stgCancel
  dsimp only
  rw [hg, hp]
  dsimp only
  rw [hst, State.cancelLate_stgCtrl]

/-- R98: with no operation a CANCEL changes nothing. -/
theorem stageCancel_idle (w : W32) (hr : s.running = true) (hp : s.stage.pend = none) :
    s.gives (.stageCancel t w) [.regs] fun s' => s.regsBut s' [R.STG_CTRL] := by
  have hexec := exec_stageCancel (t := t) w hr
  rw [State.stgCancel_none _ ((congrArg Stage.pend (s.at'_stage t)).trans hp)] at hexec
  obtain ⟨hf, hb, -, -⟩ := (s.at' t).stgCtrl_shows w.toNat
  exact State.gives_of_done t hexec hf ((State.regsBut_congr (s.at'_regs t) _).trans hb).settle

/-- R98: a running check is withdrawn. -/
theorem stageCancel_check (w : W32) (hr : s.running = true) (hp : s.stage.pend = some p) (hd : p.discardHeld = false) (h1 : s.stgState = 1) :
    s.gives (.stageCancel t w) [.regs, .stage] fun s' => s'.stgState = 0 ∧ s'.stage = { s.stage with pend := none } ∧
      s'.rd R.STG_GEN_PENDING = 0 := by
  have hexec := exec_stageCancel (t := t) w hr
  rw [State.stgCancel_some _ ((congrArg Stage.pend (s.at'_stage t)).trans hp), State.stgState_at', if_pos h1] at hexec
  obtain ⟨hf, -, -, hg⟩ := (s.at' t).stgCtrl_shows w.toNat
  rw [State.at'_stage] at hg
  generalize (s.at' t).stgCtrl w.toNat = b at *
  obtain ⟨jf, -, j0, jp, jg, jo⟩ := b.stgIdle_shows false fun q hq => by
    rw [hg, hp] at hq
    exact Option.some.inj hq ▸ hd
  rw [hg] at jg
  have jf' : b.sameBut (b.stgIdle false) [.regs, .stage] := jf.drop jo
  generalize b.stgIdle false = u at *
  exact State.gives_of_done t hexec ((hf.mono (by decide)).trans jf') ⟨j0, jg, jp⟩

/-- R108: a cast that has not taken effect is withdrawn, and Ronyr forgets its part. -/
theorem stageCancel_cast (w : W32) (hr : s.running = true) (hp : s.stage.pend = some p) (hd : p.discardHeld = false)
    (hs : s.tim.stepWait = none) (h2 : s.stgState = 2) (hl : ¬ s.castPassed t p) :
    s.gives (.stageCancel t w) [.regs, .stage, .ron] fun s' => s'.stgState = 0 ∧ s'.stage = { s.stage with pend := none } ∧
      s'.ron = (if p.needsRonyr = true then { s.ron with armed := none, shadow := [] } else s.ron) ∧ s'.rd R.STG_GEN_PENDING = 0 := by
  have hexec := exec_stageCancel (t := t) w hr
  rw [State.stgCancel_some _ ((congrArg Stage.pend (s.at'_stage t)).trans hp), State.stgState_at', if_neg (by omega), if_pos h2,
    if_neg (mt (s.cancelLate_iff t p).mp hl)] at hexec
  obtain ⟨hf, -, -, hg⟩ := (s.at' t).stgCtrl_shows w.toNat
  have htim := (congrArg Tim.stepWait (hf.2 .tim (by decide))).trans ((s.stepWait_at' t).trans hs)
  have hron : ((s.at' t).stgCtrl w.toNat).ron = s.ron := Eq.trans (hf.2 .ron (by decide)) (s.at'_ron t)
  rw [State.at'_stage] at hg
  generalize (s.at' t).stgCtrl w.toNat = b at *
  obtain ⟨jf, -, j0, jp, jg, jo⟩ := b.stgIdle_shows p.needsRonyr fun q hq => by
    rw [hg, hp] at hq
    exact Option.some.inj hq ▸ hd
  rw [State.waitingStep_none ((congrArg Tim.stepWait (jf.2 .tim (by decide))).trans htim)] at hexec
  rw [hg] at jg
  rw [hron] at jo
  generalize b.stgIdle p.needsRonyr = u at *
  exact State.gives_of_done t hexec ((hf.mono (by decide)).trans (jf.mono (by decide))) ⟨j0, jg, jo, jp⟩

/-- R108: a CANCEL that comes too late is marked. -/
theorem stageCancel_late (w : W32) (hr : s.running = true) (hp : s.stage.pend = some p) (h2 : s.stgState = 2) (hl : s.castPassed t p) :
    s.gives (.stageCancel t w) [.regs] fun s' => s'.stgState = 2 ∧ s'.bit R.STG_STATUS 3 = true ∧
      s.regsBut s' [R.STG_CTRL, R.STG_STATUS] := by
  have hexec := exec_stageCancel (t := t) w hr
  rw [State.stgCancel_some _ ((congrArg Stage.pend (s.at'_stage t)).trans hp), State.stgState_at', if_neg (by omega), if_pos h2,
    if_pos ((s.cancelLate_iff t p).mpr hl)] at hexec
  obtain ⟨hf, hb, hst, -⟩ := (s.at' t).stgCtrl_shows w.toNat
  rw [State.stgState_at', h2] at hst
  generalize (s.at' t).stgCtrl w.toNat = b at *
  refine State.gives_of_done t hexec (by simpa using hf) ⟨?_, ?_, ?_⟩
  · rw [State.stgState_settle, State.stgState, State.fld_setBit_apart _ (by decide), ← State.stgState, hst]
  · rw [State.bit_settle, State.bit_setBit_same _ _ _ _ (by decide)]
  · exact ((State.regsBut_congr (s.at'_regs t) _).trans (State.regsBut_setBit (hb.mono (by simp)) (by simp))).settle

/-! ### DISCARD -/

theorem exec_stageDiscard (w : W32) (hr : s.running = true) : exec (.stageDiscard t w) s = done ((s.at' t).stgDiscardOp w.toNat) := by
  have hexec : exec (.stageDiscard t w) s = if (s.at' t).running then done ((s.at' t).stgDiscardOp w.toNat) else done (s.at' t) := rfl
  rw [hexec, State.running_at', if_pos hr]

/-- R96: with no check running every dirty mark clears. -/
theorem stageDiscard_clears (w : W32) (hr : s.running = true) (h1 : s.stgState ≠ 1) :
    s.gives (.stageDiscard t w) [.regs, .stage] fun s' => s.regsBut s' [R.STG_CTRL] ∧
      s'.stage = { s.stage with shadow := [], rnyShadow := [] } := by
  obtain ⟨hf, hb, hst, hg⟩ := (s.at' t).stgCtrl_shows w.toNat
  rw [State.stgState_at'] at hst
  rw [State.at'_stage] at hg
  have hop : (s.at' t).stgDiscardOp w.toNat = ((s.at' t).stgCtrl w.toNat).stgDiscard := by
    unfold State.stgDiscardOp
    dsimp only
    rw [hst, if_neg h1]
  have hexec := exec_stageDiscard (t := t) w hr
  rw [hop] at hexec
  generalize (s.at' t).stgCtrl w.toNat = b at *
  have hd : b.sameBut b.stgDiscard [.stage] := b.sameBut_stage _
  have hdg : b.stgDiscard.stage = { s.stage with shadow := [], rnyShadow := [] } := hg ▸ rfl
  have hdb : b.regsBut b.stgDiscard [R.STG_CTRL] := State.regsBut_congr rfl _
  generalize b.stgDiscard = u at *
  exact State.gives_of_done t hexec ((hf.mono (by decide)).trans (hd.mono (by decide)))
    ⟨(((State.regsBut_congr (s.at'_regs t) _).trans hb).trans hdb).settle, hdg⟩

/-- R98: while a check runs the DISCARD is held. -/
theorem stageDiscard_held (w : W32) (hr : s.running = true) (h1 : s.stgState = 1) (hp : s.stage.pend = some p) :
    s.gives (.stageDiscard t w) [.regs, .stage] fun s' => s'.stage = { s.stage with pend := some { p with discardHeld := true } } := by
  obtain ⟨hf, -, hst, hg⟩ := (s.at' t).stgCtrl_shows w.toNat
  rw [State.stgState_at'] at hst
  rw [State.at'_stage] at hg
  have hexec := exec_stageDiscard (t := t) w hr
  unfold State.stgDiscardOp at hexec
  dsimp only at hexec
  rw [hst, if_pos h1, hg, hp, Option.map_some] at hexec
  generalize (s.at' t).stgCtrl w.toNat = b at *
  exact State.gives_of_done t hexec ((hf.mono (by decide)).trans ((b.sameBut_stage _).mono (by decide))) rfl

end Sys2Proof.Machine
end

section
/-! PROOF. The end of a check that is not an arm (R96, R99, R106), and the claim on the staging transaction. -/

namespace Sys2Proof.Machine

variable {s x y : State} {t : Nat} {p : Pending}

/-! ### What the check judges does not change with the time -/

/-- The state at another instant, its device time with it. -/
def State.retimed (s : State) (n : Nat) (m : Tim) : State := { s with now := n, tim := m }

theorem State.at'_retimed (s : State) (t : Nat) : ∃ n m, s.at' t = s.retimed n m := by
  unfold State.at'
  split
  · exact ⟨_, _, rfl⟩
  · exact ⟨s.now, s.tim, rfl⟩

theorem State.retimed_foldl {α : Type} {f : State → α → State} {n : Nat} {m : Tim} (hf : ∀ x a, f (x.retimed n m) a = (f x a).retimed n m) :
    ∀ (l : List α) (x : State), l.foldl f (x.retimed n m) = (l.foldl f x).retimed n m
  | [], _ => rfl
  | a :: l, x => by rw [List.foldl_cons, List.foldl_cons, hf, State.retimed_foldl hf]

theorem State.withSet_retimed (s : State) (n : Nat) (m : Tim) (set rny : KMap W32) :
    (s.retimed n m).withSet set rny = (s.withSet set rny).retimed n m := by
  unfold State.withSet
  dsimp only
  rw [State.retimed_foldl fun _ _ => rfl, State.retimed_foldl fun _ _ => rfl]

theorem judges_retimed (c : State) (n : Nat) (m : Tim) (tabs : List Nat) :
    (c.retimed n m).rangeFail = c.rangeFail ∧ (c.retimed n m).rnyRangeFail = c.rnyRangeFail ∧
    (c.retimed n m).blockFail tabs = c.blockFail tabs ∧ (c.retimed n m).crossFail = c.crossFail ∧ (c.retimed n m).pinFail = c.pinFail ∧
    (c.retimed n m).coverFail = c.coverFail ∧ (c.retimed n m).refFail = c.refFail ∧ (c.retimed n m).ronyrRefuses = c.ronyrRefuses :=
  ⟨rfl, rfl, rfl, rfl, rfl, rfl, rfl, rfl⟩

theorem State.stageCheck_at' (s : State) (t : Nat) (set rny : KMap W32) (arm : Bool) :
    (s.at' t).stageCheck set rny arm = s.stageCheck set rny arm := by
  obtain ⟨n, m, h⟩ := s.at'_retimed t
  obtain ⟨h1, h2, h3, h4, h5, h6, h7, h8⟩ := judges_retimed (s.withSet set rny) n m (slotsWritten set)
  have hg : (s.retimed n m).gensUsed = s.gensUsed := rfl
  unfold State.stageCheck State.judgeSet
  rw [h, State.withSet_retimed]
  dsimp only
  rw [h1, h2, h3, h4, h5, h6, h7, h8, hg]

theorem State.tblPoison_at' (s : State) (t : Nat) (set rny : KMap W32) (j : Nat) :
    ((s.at' t).withSet set rny).tblPoison j = (s.withSet set rny).tblPoison j := by
  obtain ⟨n, m, h⟩ := s.at'_retimed t
  rw [h, State.withSet_retimed]
  rfl

/-! ### The end of the check -/

theorem exec_stageCheckComplete (hr : s.running = true) (hp : s.stage.pend = some p) (h1 : s.stgState = 1) :
    exec (.stageCheckComplete t) s = done ((s.at' t).stgComplete p) := by
  have hexec : exec (.stageCheckComplete t) s = match (s.at' t).stage.pend with
      | some p => if (s.at' t).running ∧ (s.at' t).stgState = 1 then done ((s.at' t).stgComplete p) else done (s.at' t)
      | none => done (s.at' t) := rfl
  rw [hexec, State.at'_stage, hp]
  dsimp only
  rw [State.running_at', State.stgState_at', if_pos ⟨hr, h1⟩]

theorem stageCheckComplete_idle (hp : s.stage.pend = none) : s.givesNothing (.stageCheckComplete t) := by
  have hexec : exec (.stageCheckComplete t) s = match (s.at' t).stage.pend with
      | some p => if (s.at' t).running ∧ (s.at' t).stgState = 1 then done ((s.at' t).stgComplete p) else done (s.at' t)
      | none => done (s.at' t) := rfl
  rw [State.at'_stage, hp] at hexec
  exact State.givesNothing_of_done t hexec

/-- Where no table of a slot the cast writes has an uncorrectable line, reading them raises nothing. -/
theorem State.tableReads_sound (h : ∀ j ∈ slotsWritten p.set, (x.withSet p.set p.rny).tblPoison j = none) : x.tableReads p = x := by
  unfold State.tableReads
  refine State.foldl_id fun j hj => ?_
  rw [h j (List.mem_of_mem_filter hj)]

/-- A check that is not an arm and has Ronyr's answer, if it needs one, ends in a refusal or at IDLE (R96, R99). -/
theorem State.stgComplete_check (ha : p.arm = false) (hd : p.discardHeld = false)
    (hb : ¬ (p.needsRonyr = true ∧ x.line.validSince = none)) :
    (∀ f, x.stageCheck p.set p.rny false = some f → (∀ j ∈ slotsWritten p.set, (x.withSet p.set p.rny).tblPoison j = none) →
      x.stgComplete p = x.stgRefused E_STAGE_CHECK (f.reason + f.block * 256) f.addr) ∧
    (x.stageCheck p.set p.rny false = none →
      x.stgComplete p = ((x.wr R.STG_CHECK_RESULT 0).wr R.STG_CHECK_ADDR 0).stgIdle false) := by
  unfold State.stgComplete
  rw [if_neg hb, ha]
  refine ⟨fun f hf hj => ?_, fun hf => ?_⟩
  · rw [hf]
    dsimp only
    rw [State.tableReads_sound hj, State.heldDiscard, hd, if_neg (by decide), State.stgRefuse_some]
  · rw [hf]
    rfl

section Complete

variable (hr : s.running = true) (hp : s.stage.pend = some p) (h1 : s.stgState = 1) (ha : p.arm = false) (hd : p.discardHeld = false)
  (hb : ¬ (p.needsRonyr = true ∧ s.line.validSince = none))
include hr hp h1 ha hd hb

/-- R99: a check that fails is refused with the first failure found. -/
theorem stageCheckComplete_fails {f : CheckFail} (hf : s.stageCheck p.set p.rny false = some f)
    (hj : ∀ j ∈ slotsWritten p.set, (s.withSet p.set p.rny).tblPoison j = none) :
    s.gives (.stageCheckComplete t) [.regs, .host, .stage] fun s' => s'.stgState = 4 ∧ s'.fld R.STG_STATUS 16 16 = E_STAGE_CHECK ∧
      s'.stage = { s.stage with pend := none } ∧ s'.rd R.STG_CHECK_RESULT = (f.reason + f.block * 256) % 2 ^ 32 ∧
      s'.rd R.STG_CHECK_ADDR = f.addr % 2 ^ 32 := by
  have hexec := exec_stageCheckComplete (t := t) hr hp h1
  rw [(State.stgComplete_check ha hd (by rwa [State.at'_line])).1 f ((s.stageCheck_at' t _ _ _).trans hf)
    fun j hm => (s.tblPoison_at' t _ _ j).trans (hj j hm)] at hexec
  exact State.gives_refused hexec ((s.at' t).sameBut_refl _) (s.at'_stage t) (by decide)

/-- R96: a check that passes ends at IDLE, with no failure shown. -/
theorem stageCheckComplete_passes (hf : s.stageCheck p.set p.rny false = none) :
    s.gives (.stageCheckComplete t) [.regs, .stage] fun s' => s'.stgState = 0 ∧ s'.rd R.STG_CHECK_RESULT = 0 ∧
      s'.rd R.STG_CHECK_ADDR = 0 ∧ s'.stage = { s.stage with pend := none } := by
  have hexec := exec_stageCheckComplete (t := t) hr hp h1
  rw [(State.stgComplete_check ha hd (by rwa [State.at'_line])).2 ((s.stageCheck_at' t _ _ _).trans hf)] at hexec
  have hwf : (s.at' t).sameBut (((s.at' t).wr R.STG_CHECK_RESULT 0).wr R.STG_CHECK_ADDR 0) [.regs, .stage] := by simp
  have hres : (((s.at' t).wr R.STG_CHECK_RESULT 0).wr R.STG_CHECK_ADDR 0).rd R.STG_CHECK_RESULT = 0 := by
    rw [State.rd_wr_other _ _ (by decide), State.rd_wr_same, Nat.zero_mod]
  have haddr : (((s.at' t).wr R.STG_CHECK_RESULT 0).wr R.STG_CHECK_ADDR 0).rd R.STG_CHECK_ADDR = 0 := by
    rw [State.rd_wr_same, Nat.zero_mod]
  have hg : (((s.at' t).wr R.STG_CHECK_RESULT 0).wr R.STG_CHECK_ADDR 0).stage = s.stage := by
    rw [State.wr_stage, State.wr_stage, State.at'_stage]
  generalize ((s.at' t).wr R.STG_CHECK_RESULT 0).wr R.STG_CHECK_ADDR 0 = b at *
  obtain ⟨jf, jr, j0, -, jg, jo⟩ := b.stgIdle_shows false fun q hq => by
    rw [hg, hp] at hq
    exact Option.some.inj hq ▸ hd
  rw [hg] at jg
  have jf' : b.sameBut (b.stgIdle false) [.regs, .stage] := jf.drop jo
  rw [← jr _ (by decide)] at hres haddr
  generalize b.stgIdle false = u at *
  exact State.gives_of_done t hexec (hwf.trans jf') ⟨j0, hres, haddr, jg⟩

end Complete

/-! ### The claim -/

/-- Settles O41, clause by clause. -/
theorem stageTransaction : Obligations.StageTransaction := by
  unfold Obligations.StageTransaction
  intro s t hr
  exact ⟨fun off v q hq => ⟨stagedWrite_lands v hr hq, stagedWrite_counted v hr hq⟩,
    fun w arm c hc => ⟨stageStart_ignored hr hc, stageStart_pending hr hc, stageStart_hbLost hr hc, stageStart_runs hr hc⟩,
    fun w => stageCancel_idle w hr, fun w p hp hd => stageCancel_check w hr hp hd, fun w p hp hd => stageCancel_cast w hr hp hd,
    fun w p hp => stageCancel_late w hr hp, fun w => stageDiscard_clears w hr, fun w p h1 => stageDiscard_held w hr h1,
    fun p hp h1 ha hd hb => ⟨fun f => stageCheckComplete_fails hr hp h1 ha hd hb, stageCheckComplete_passes hr hp h1 ha hd hb⟩,
    stageCheckComplete_idle⟩

end Sys2Proof.Machine
end

section
/-! PROOF. What a cast does to the registers (R100, R104), and how little follows the live configuration where it stays the same. -/

namespace Sys2Proof.Machine

variable {s x y old old' : State} {t : Nat} {p : Pending}

/-! ### The staged registers -/

/-- Staged registers lie above the block that stages them. -/
theorem stagedWord_high {a : Nat} {q : StWord} (h : stagedWord a = some q) : 0x200000 ≤ a := by
  by_contra hlt
  have hq : a ≠ R.MEM_QOS := by
    simp only [R.MEM_QOS]
    omega
  have hnone : stagedWord a = none := by
    unfold stagedWord
    split
    · rfl
    · repeat rw [if_neg (by omega)]
  rw [hnone] at h
  cases h

/-- A set written word by word: what it names takes its value, and no other word changes. -/
theorem State.rd_foldl_wr (a : Nat) : ∀ (m : KMap W32) {lo : Nat} (x : State), KMap.risingFrom lo m = true →
    (m.foldl (fun s e => s.wr e.1 e.2.toNat) x).rd a = ((KMap.find m a).map BitVec.toNat).getD (x.rd a) := by
  intro m
  induction m with
  | nil => exact fun _ _ => rfl
  | cons e m ih =>
    intro lo x h
    simp only [KMap.risingFrom, Bool.and_eq_true, decide_eq_true_eq] at h
    rw [List.foldl_cons, ih _ h.2, KMap.find]
    by_cases hk : a = e.1
    · have hnone : KMap.find m a = none := KMap.find_none_of_keys fun c hc hca => by
        have := KMap.le_of_risingFrom h.2 c hc
        omega
      rw [if_pos hk, hnone, hk]
      simp [State.rd_wr_same, Nat.mod_eq_of_lt e.2.isLt]
    · rw [if_neg hk, State.rd_wr_other _ _ hk]

/-! ### The registers of the staging block -/

/-- Registers that a cast shows itself in. -/
def castShownRegs : List Nat := [R.STG_GEN_LIVE, R.STG_GEN_PENDING, R.STG_TRUNCATED, R.STG_LAST_COUNT, R.STG_LAST_COUNT + 4,
  R.STG_LAST_TIME, R.STG_LAST_TIME + 4, R.STG_LAST_TIME + 8, R.STG_STATUS]

/-- The staging block shows a cast as generation `gen`, at count `n` and `instant`. -/
def State.castShown (s : State) (gen n instant : Nat) : State :=
  let s1 := (((s.wr R.STG_GEN_LIVE gen).wr R.STG_GEN_PENDING 0).wr R.STG_TRUNCATED 0).wr64 R.STG_LAST_COUNT n
  (((s1.wr64 R.STG_LAST_TIME (instant / 1000000000)).wr (R.STG_LAST_TIME + 8) (instant % 1000000000)).setFld R.STG_STATUS 0 3 3).setFld
    R.STG_STATUS 16 16 0

theorem State.regsBut_wr64 {l : List Nat} {a v : Nat} (h : y.regsBut x l) (ha : a ∈ l ∧ a + 4 ∈ l) : y.regsBut (x.wr64 a v) l :=
  State.regsBut_wr (State.regsBut_wr h ha.1) ha.2

theorem State.rd64_wr_other {a b : Nat} (x : State) (v : Nat) (h : b ≠ a ∧ b + 4 ≠ a) : (x.wr a v).rd64 b = x.rd64 b := by
  rw [State.rd64, State.rd_wr_other _ _ h.1, State.rd_wr_other _ _ h.2, State.rd64]

theorem State.castShown_shows (x : State) (gen n instant : Nat) : x.sameBut (x.castShown gen n instant) [.regs] ∧
    x.regsBut (x.castShown gen n instant) castShownRegs ∧ (x.castShown gen n instant).rd R.STG_GEN_LIVE = gen % 2 ^ 32 ∧
    (x.castShown gen n instant).stgState = 3 ∧ (x.castShown gen n instant).rd R.STG_GEN_PENDING = 0 ∧
    (x.castShown gen n instant).rd64 R.STG_LAST_TIME = instant / 1000000000 % 2 ^ 64 ∧
    (x.castShown gen n instant).rd (R.STG_LAST_TIME + 8) = instant % 1000000000 := by
  unfold State.castShown
  dsimp only
  refine ⟨by simp, ?_, ?_, ?_, ?_, ?_, ?_⟩
  · exact State.regsBut_setFld (State.regsBut_setFld (State.regsBut_wr (State.regsBut_wr64 (State.regsBut_wr64 (State.regsBut_wr
      (State.regsBut_wr (State.regsBut_wr (x.regsBut_refl _) (by decide)) (by decide)) (by decide)) (by decide)) (by decide)) (by decide))
      (by decide)) (by decide)
  · rw [State.rd_setFld_other _ _ _ _ (by decide), State.rd_setFld_other _ _ _ _ (by decide), State.rd_wr_other _ _ (by decide),
      State.rd_wr64_other _ _ (by decide), State.rd_wr64_other _ _ (by decide), State.rd_wr_other _ _ (by decide),
      State.rd_wr_other _ _ (by decide), State.rd_wr_same]
  · rw [State.stgState, State.fld_setFld_apart _ (by decide), State.fld_setFld_same _ _ _ _ _ (by decide), Nat.mod_eq_of_lt (by decide)]
  · rw [State.rd_setFld_other _ _ _ _ (by decide), State.rd_setFld_other _ _ _ _ (by decide), State.rd_wr_other _ _ (by decide),
      State.rd_wr64_other _ _ (by decide), State.rd_wr64_other _ _ (by decide), State.rd_wr_other _ _ (by decide), State.rd_wr_same,
      Nat.zero_mod]
  · rw [State.setFld, State.rd64_wr_other _ _ (by decide), State.setFld, State.rd64_wr_other _ _ (by decide),
      State.rd64_wr_other _ _ (by decide), State.rd64_wr64_same]
  · rw [State.rd_setFld_other _ _ _ _ (by decide), State.rd_setFld_other _ _ _ _ (by decide), State.rd_wr_same,
      Nat.mod_eq_of_lt (by omega)]

/-- The cast set is in the live registers, and the staging area is `g`. -/
def State.castSet (s : State) (p : Pending) (g : Stage) : State :=
  { p.set.foldl (fun s e => s.wr e.1 e.2.toNat) s with stage := g }

/-- A cast puts its set into the live registers, waits no more, and shows itself (R100, R104). -/
theorem State.castRegs_eq (x : State) (p : Pending) (gen instant : Nat) (restore : Bool) :
    ∃ g : Stage, x.castRegs p gen instant restore = (x.castSet p g).castShown gen (x.mirror p.chan) instant ∧ g.pend = none ∧
      g.liveInstant = instant ∧ g.writing = (p.set.foldl (fun s e => s.wr e.1 e.2.toNat) x).stage.writing :=
  ⟨_, rfl, rfl, rfl, rfl⟩

/-- R100: every staged register the cast names takes its value, and no other changes. -/
theorem State.rd_castRegs {a gen instant : Nat} {restore : Bool} {q : StWord} (x : State) (hq : stagedWord a = some q)
    (hw : KMap.wf p.set = true) : (x.castRegs p gen instant restore).rd a = ((KMap.find p.set a).map BitVec.toNat).getD (x.rd a) := by
  obtain ⟨g, he, -, -, -⟩ := x.castRegs_eq p gen instant restore
  have ha : a ∉ castShownRegs := fun h => by
    have hlow : ∀ b ∈ castShownRegs, b < 0x200000 := by decide
    have := hlow a h
    have := stagedWord_high hq
    omega
  rw [he, ((x.castSet p g).castShown_shows gen _ instant).2.1 a ha]
  exact State.rd_foldl_wr a p.set x hw

/-! ### What follows the live configuration -/

section SameBefore

variable (h : ∀ b, 0x200000 ≤ b → old.rd b = old'.rd b)
include h

/-- What follows the live configuration compares it with the registers from 0x200000 on as they were before. -/
theorem changedAt_congr {a : Nat} (ha : 0x200000 ≤ a) (y : State) : changedAt old y a = changedAt old' y a := by
  rw [changedAt, changedAt, h a ha]

theorem State.fld_congr_high {a : Nat} (ha : 0x200000 ≤ a) (lo w : Nat) : old.fld a lo w = old'.fld a lo w := by
  rw [State.fld, State.fld, h a ha]

theorem State.bit_congr_high {a : Nat} (ha : 0x200000 ≤ a) (i : Nat) : old.bit a i = old'.bit a i := by
  rw [State.bit, State.bit, State.fld_congr_high h ha]

theorem State.camOn_congr_high (m : Nat) : old.camOn m = old'.camOn m := by
  have ha : 0x200000 ≤ R.CXP_PORT_CFG m := by
    simp only [R.CXP_PORT_CFG]
    omega
  rw [State.camOn, State.camOn, State.camOf, State.camOf, State.bit_congr_high h ha, State.fld_congr_high h ha]

theorem State.rxeqCast_congr {cfg stat : Nat} (hc : 0x200000 ≤ cfg) (hs : 0x200000 ≤ stat) (y : State) (up : Bool) (lo : Nat) :
    y.rxeqCast old up cfg stat lo = y.rxeqCast old' up cfg stat lo := by
  rw [State.rxeqCast, State.rxeqCast, changedAt_congr h hc, State.fld_congr_high h hc, State.fld_congr_high h hs]

theorem State.camChange_congr (y : State) : y.camChange old = y.camChange old' := by
  have hports : ∀ m, old.camPorts m = old'.camPorts m := fun m => by
    rw [State.camPorts, State.camPorts, State.fld_congr_high h (by simp only [R.CXP_PORT_CFG]; omega)]
  have hch : ∀ m z, changedAt old z (R.CXP_PORT_CFG m) = changedAt old' z (R.CXP_PORT_CFG m) := fun m z =>
    changedAt_congr h (by simp only [R.CXP_PORT_CFG]; omega) z
  have hrx : ∀ (z : State) u k, z.rxeqCast old u (R.CXP_RXEQ_CFG k) (R.CXP_RXEQ_STAT k) 0 =
      z.rxeqCast old' u (R.CXP_RXEQ_CFG k) (R.CXP_RXEQ_STAT k) 0 := fun z u k =>
    State.rxeqCast_congr h (by simp only [R.CXP_RXEQ_CFG]; omega) (by simp only [R.CXP_RXEQ_STAT]; omega) z u 0
  simp only [State.camChange, State.camOn_congr_high h, hports, hch, hrx]

theorem State.lnkChange_congr (y : State) : y.lnkChange old = y.lnkChange old' := by
  have hport : ∀ k, old.portOn k = old'.portOn k := fun k => by
    rw [State.portOn, State.portOn, State.topo, State.topo, State.bit_congr_high h (by decide), State.fld_congr_high h (by decide)]
  have hch : ∀ k z, changedAt old z (R.LNK_NLX_TXEQ k) = changedAt old' z (R.LNK_NLX_TXEQ k) := fun k z =>
    changedAt_congr h (by simp only [R.LNK_NLX_TXEQ]; omega) z
  have hrx : ∀ (z : State) u k, z.rxeqCast old u (R.LNK_NLX_RXEQ k) (R.LNK_NLX_LANE_STAT k) 4 =
      z.rxeqCast old' u (R.LNK_NLX_RXEQ k) (R.LNK_NLX_LANE_STAT k) 4 := fun z u k =>
    State.rxeqCast_congr h (by simp only [R.LNK_NLX_RXEQ]; omega) (by simp only [R.LNK_NLX_LANE_STAT]; omega) z u 4
  simp only [State.lnkChange, hport, hch, hrx]

theorem State.timChange_congr (y : State) : y.timChange old = y.timChange old' := by
  have hsrc : old.timSrc = old'.timSrc := State.fld_congr_high h (by decide) 0 2
  rw [State.timChange, State.timChange, hsrc]

theorem State.liveChange_congr (y : State) : y.liveChange old [] = y.liveChange old' [] := by
  unfold State.liveChange
  dsimp only
  rw [State.camChange_congr h, State.lnkChange_congr h, State.timChange_congr h, List.filter_nil, List.filter_nil]

/-- A cast that leaves the registers from 0x200000 on takes no slot its source. -/
theorem slotCut_congr (y : State) (j : Nat) : slotCut old y j = slotCut old' y j := by
  have hsrc : 0x200000 ≤ R.RUN_SRC (j / 4) (j % 4) := by
    simp only [R.RUN_SRC]
    omega
  have hmap : ∀ i, 0x200000 ≤ R.CXP_STREAM_MAP i := fun i => by
    simp only [R.CXP_STREAM_MAP]
    omega
  unfold slotCut
  dsimp only
  rw [State.bit_congr_high h hsrc, State.bit_congr_high h hsrc, State.fld_congr_high h hsrc, State.fld_congr_high h hsrc,
    State.bit_congr_high h (hmap _), State.fld_congr_high h (hmap _), State.camOn_congr_high h]

end SameBefore

theorem slotCut_self (x : State) (j : Nat) : slotCut x x j = false := by
  have hb : ∀ b : Bool, (b && !b) = false := by decide
  simp [slotCut, hb]

/-- With no register changed from 0x200000 on, and no context but context 0, only the clock and the places of the stripes follow. -/
theorem State.liveChange_same (h : ∀ b, 0x200000 ≤ b → old.rd b = x.rd b) (hc : x.sch.ctxs = [(0, {})]) :
    x.sameBut (x.liveChange old []) [.regs, .dbg, .fab] ∧ x.regsBut (x.liveChange old []) (R.PWR_CLK :: traceRegs) := by
  rw [State.liveChange_congr h]
  exact State.liveChange_plain (a := R.MEM_QOS) (x.regsBut_refl _) (.inl rfl) hc []

end Sys2Proof.Machine
end

section
/-! PROOF. A cast of Ronyr's fields takes effect (R100, R103, R104, R110, R393), and its retained record is completed. -/

namespace Sys2Proof.Machine

variable {s x y : State} {t i gen : Nat} {p : Pending} {c : Instr}

/-! ### The cast -/

/-- The record of a cast is to be written by SC, and the hash of the configuration is known. -/
def State.castFiled (s : State) (r : RetRecord) : State :=
  { s with sec := { s.sec with cfgHash := some (Config.sha384Words r.words).toNat }
           stage := { s.stage with writing := s.stage.writing ++ [r] } }

theorem State.castFiled_shows (x : State) (r : RetRecord) : x.sameBut (x.castFiled r) [.sec, .stage] ∧ (x.castFiled r).regs = x.regs ∧
    (x.castFiled r).stage = { x.stage with writing := x.stage.writing ++ [r] } :=
  ⟨x.sameBut_mix (x.castFiled r) [.sec, .stage], rfl, rfl⟩

/-- A cast that names no register of Cuette's takes no slot its source; what follows the live configuration does, the cast is journalled,
and its record is filed. -/
theorem State.castApply_eq (x : State) (p : Pending) (gen i : Nat) (hset : p.set = [])
    (hcut : ∀ j, slotCut x (x.castRegs p gen i false) j = false) :
    ∃ r, r.seq = gen ∧ x.castApply p gen i false =
      (((((((x.castRegs p gen i false).liveChange x []).msix 11).castRecord gen i r false).trace 0x40 35 gen).castFiled r)).waitingStep := by
  refine ⟨((x.castRegs p gen i false).liveChange x []).recordNow gen (rnyAfter x.rny p.rny), rfl, ?_⟩
  have hnone : (List.range 64).filter (slotCut x (x.castRegs p gen i false)) = [] := List.filter_eq_nil_iff.mpr fun j _ => by
    rw [hcut]
    decide
  unfold State.castApply
  dsimp only
  rw [hset, hnone]
  rfl

/-- The staging block shows generation `gen`, in force since `i`, and no cast pending. -/
def State.showsCast (x : State) (gen i : Nat) : Prop :=
  x.rd R.STG_GEN_LIVE = gen % 2 ^ 32 ∧ x.stgState = 3 ∧ x.rd R.STG_GEN_PENDING = 0 ∧
    x.rd64 R.STG_LAST_TIME = i / 1000000000 % 2 ^ 64 ∧ x.rd (R.STG_LAST_TIME + 8) = i % 1000000000

/-- Registers that what follows a cast may change. -/
def castAfterRegs : List Nat := (R.PWR_CLK :: traceRegs) ++ journalRegs

theorem State.showsCast.after (h : x.showsCast gen i) (hr : x.regsBut y castAfterRegs) : y.showsCast gen i := by
  unfold State.showsCast State.rd64 at *
  rw [hr _ (by decide), hr _ (by decide), hr _ (by decide), hr _ (by decide), hr _ (by decide), State.stgState, hr.fld (by decide)]
  exact h

/-- Putting a cast of Ronyr's fields into the registers changes the staging block alone. -/
theorem State.castRegs_shows (x : State) (p : Pending) (gen i : Nat) (hset : p.set = []) :
    x.sameBut (x.castRegs p gen i false) [.regs, .stage] ∧ x.regsBut (x.castRegs p gen i false) castShownRegs ∧
    (x.castRegs p gen i false).showsCast gen i ∧ (x.castRegs p gen i false).stage.pend = none ∧
    (x.castRegs p gen i false).stage.liveInstant = i ∧ (x.castRegs p gen i false).stage.writing = x.stage.writing := by
  obtain ⟨g, he, gp, gi, gw⟩ := x.castRegs_eq p gen i false
  rw [State.castSet, hset, List.foldl_nil] at he
  rw [hset, List.foldl_nil] at gw
  have hg := x.sameBut_stage g
  have hr : x.regsBut { x with stage := g } castShownRegs := State.regsBut_congr rfl _
  have hstage : ({ x with stage := g } : State).stage = g := rfl
  generalize ({ x with stage := g } : State) = w at *
  obtain ⟨cf, cr, cs⟩ := w.castShown_shows gen (x.mirror p.chan) i
  have hc : (w.castShown gen (x.mirror p.chan) i).stage = g := Eq.trans (cf.2 .stage (by decide)) hstage
  rw [he, hc]
  exact ⟨(hg.mono (by decide)).trans (cf.mono (by decide)), hr.trans cr, cs, gp, gi, gw⟩

/-- What a cast of Ronyr's fields shows, with no context but context 0 and no time step waiting (R100, R104, R110). -/
theorem State.castApply_shows (x : State) (p : Pending) (gen i : Nat) (hset : p.set = []) (hc : x.sch.ctxs = [(0, {})])
    (hs : x.tim.stepWait = none) : x.sameBut (x.castApply p gen i false) ([.stage, .fab, .sec] ++ recordParts) ∧
      (x.castApply p gen i false).showsCast gen i ∧ (x.castApply p gen i false).stage.pend = none ∧
      (x.castApply p gen i false).stage.liveInstant = i ∧
      ∃ r, (x.castApply p gen i false).stage.writing = x.stage.writing ++ [r] ∧ r.seq = gen := by
  obtain ⟨af, ar, as, ap, ai, aw⟩ := x.castRegs_shows p gen i hset
  have hhigh : ∀ b, 0x200000 ≤ b → x.rd b = (x.castRegs p gen i false).rd b := fun b hb => (ar b fun hm => by
    have hlow : ∀ b ∈ castShownRegs, b < 0x200000 := by decide
    have := hlow b hm
    omega).symm
  obtain ⟨r, hseq, heq⟩ := x.castApply_eq p gen i hset fun j => (slotCut_congr hhigh _ j).trans (slotCut_self _ j)
  rw [heq]
  have hctx : (x.castRegs p gen i false).sch.ctxs = [(0, {})] := Eq.trans (congrArg Sched.ctxs (af.2 .sch (by decide))) hc
  generalize x.castRegs p gen i false = a at *
  obtain ⟨lf, lr⟩ := State.liveChange_same hhigh hctx
  generalize a.liveChange x [] = l at *
  have mf : l.sameBut (l.msix 11) [.host] := (State.sameBut_msix (by decide)).mpr (l.sameBut_refl _)
  have mr := l.msix_regs 11
  generalize l.msix 11 = m at *
  obtain ⟨jf, jr⟩ : m.records (m.castRecord gen i r false) := m.records_journal _ _ _
  generalize m.castRecord gen i r false = j at *
  have tf : j.sameBut (j.trace 0x40 35 gen) [.regs, .dbg] := (State.sameBut_trace fun _ h => h).mpr (j.sameBut_refl _)
  have tr := j.regsBut_trace 0x40 35 gen
  generalize j.trace 0x40 35 gen = u at *
  obtain ⟨ff, fr, fs⟩ := u.castFiled_shows r
  generalize u.castFiled r = v at *
  have haf : a.sameBut u ([.fab] ++ recordParts) := (lf.mono (by decide)).trans ((mf.mono (by decide)).trans
    ((jf.mono (by decide)).trans (tf.mono (by decide))))
  have hxv : x.sameBut v ([.stage, .fab, .sec] ++ recordParts) :=
    (af.mono (by decide)).trans ((haf.mono (by decide)).trans (ff.mono (by decide)))
  rw [State.waitingStep_none (x := v) ((congrArg Tim.stepWait (hxv.2 .tim (by decide))).trans hs), fs,
    show u.stage = a.stage from haf.2 .stage (by decide)]
  refine ⟨hxv, as.after ?_, ap, ai, r, by rw [aw], hseq⟩
  exact (lr.mono (by decide)).trans ((State.regsBut_congr mr _).trans ((jr.mono (by decide)).trans ((tr.mono (by decide)).trans
    (State.regsBut_congr fr _))))

/-! ### Its instant has come -/

/-- A command that ends in the cast of Ronyr's fields, which may follow a report of Ronyr's taken in. -/
theorem State.gives_castNow {w : State} (hexec : exec c s = done (w.castNow p i)) (hw : (s.at' t).sameBut w [.line])
    (hset : p.set = []) (hc : s.sch.ctxs = [(0, {})]) (hs : s.tim.stepWait = none) :
    s.gives c ([.stage, .fab, .sec] ++ recordParts) fun s' => s'.rd R.STG_GEN_LIVE = (s.rd R.STG_GEN_LIVE + 1) % 2 ^ 32 ∧
      s'.stgState = 3 ∧ s'.rd R.STG_GEN_PENDING = 0 ∧ s'.rd64 R.STG_LAST_TIME = i / 1000000000 % 2 ^ 64 ∧
      s'.rd (R.STG_LAST_TIME + 8) = i % 1000000000 ∧ s'.stage.pend = none ∧ s'.stage.liveInstant = i ∧
      ∃ r, s'.stage.writing = s.stage.writing ++ [r] ∧ r.seq = (s.rd R.STG_GEN_LIVE + 1) % 2 ^ 32 := by
  have hgen : w.liveGen = s.rd R.STG_GEN_LIVE := (State.rd_congr (hw.2 .regs (by decide)) _).trans (s.rd_at' _ _)
  have hstage : w.stage = s.stage := Eq.trans (hw.2 .stage (by decide)) (s.at'_stage t)
  have hctx : w.sch.ctxs = [(0, {})] := by rw [show w.sch = (s.at' t).sch from hw.2 .sch (by decide), State.at'_sch, hc]
  have htim : w.tim.stepWait = none := by rw [show w.tim = (s.at' t).tim from hw.2 .tim (by decide), State.stepWait_at', hs]
  rw [State.castNow, hgen] at hexec
  obtain ⟨yf, ⟨y1, y2, y3, y4, y5⟩, yp, yi, r, yw, yr⟩ :=
    w.castApply_shows p ((s.rd R.STG_GEN_LIVE + 1) % 2 ^ 32) i hset hctx htim
  rw [hstage] at yw
  rw [Nat.mod_mod] at y1
  generalize w.castApply p ((s.rd R.STG_GEN_LIVE + 1) % 2 ^ 32) i false = y at *
  exact State.gives_of_done t hexec ((hw.mono (by decide)).trans yf) ⟨y1, y2, y3, y4, y5, yp, yi, r, yw, yr⟩

theorem exec_castTimeReached (hp : s.stage.pend = some p) : exec (.castTimeReached t) s =
    if s.running = true ∧ s.stgState = 2 ∧ p.mode = 1 ∧ p.time ≤ (s.at' t).tim.ns then done ((s.at' t).castNow p p.time)
      else done (s.at' t) := by
  have hexec : exec (.castTimeReached t) s = match (s.at' t).stage.pend with
      | some p => if (s.at' t).running = true ∧ (s.at' t).stgState = 2 ∧ p.mode = 1 ∧ p.time ≤ (s.at' t).tim.ns
          then done ((s.at' t).castNow p p.time) else done (s.at' t)
      | none => done (s.at' t) := rfl
  rw [hexec, State.at'_stage, hp]
  dsimp only
  rw [State.running_at', State.stgState_at']

/-- R101: before T a time cast waits. -/
theorem castTimeReached_waits (hp : s.stage.pend = some p) (h : p.mode ≠ 1 ∨ (s.at' t).tim.ns < p.time) :
    s.givesNothing (.castTimeReached t) := by
  have hexec := exec_castTimeReached (t := t) hp
  rw [if_neg fun ⟨_, _, hm, ht⟩ => h.elim (fun hn => hn hm) fun hn => by omega] at hexec
  exact State.givesNothing_of_done t hexec

theorem exec_castCountCrossing (hp : s.stage.pend = some p) : exec (.castCountCrossing t) s =
    if s.running = true ∧ s.stgState = 2 ∧ p.mode = 2 ∧ 0 ≤ dist (decide (p.dir = 1)) p.count (s.mirror p.chan)
      then done ((s.at' t).castNow p (s.crossing.getD (s.at' t).tim.ns)) else done (s.at' t) := by
  have hexec : exec (.castCountCrossing t) s = match (s.at' t).stage.pend with
      | some p => if (s.at' t).running = true ∧ (s.at' t).stgState = 2 ∧ p.mode = 2 ∧
          0 ≤ dist (decide (p.dir = 1)) p.count ((s.at' t).mirror p.chan)
          then done ((s.at' t).castNow p ((s.at' t).crossing.getD (s.at' t).tim.ns)) else done (s.at' t)
      | none => done (s.at' t) := rfl
  rw [hexec, State.at'_stage, hp]
  dsimp only
  rw [State.running_at', State.stgState_at', State.mirror_at', (lines_at' s t 0).2.1]

/-- R103: before the mirror shows the crossing a count cast waits. -/
theorem castCountCrossing_waits (hp : s.stage.pend = some p)
    (h : p.mode ≠ 2 ∨ dist (decide (p.dir = 1)) p.count (s.mirror p.chan) < 0) : s.givesNothing (.castCountCrossing t) := by
  have hexec := exec_castCountCrossing (t := t) hp
  rw [if_neg fun ⟨_, _, hm, hd⟩ => h.elim (fun hn => hn hm) fun hn => by omega] at hexec
  exact State.givesNothing_of_done t hexec

/-- A message of Ronyr's is an application report. -/
def Msg.isApplied (m : Msg) : Bool := match m with | .applied _ => true | _ => false

/-- The report that Ronyr applied a cast at `i` has been taken in. -/
def State.reportTaken (s : State) (i : Nat) : State := { s with line := { s.line with rx := s.line.rx.erase (.applied i) } }

theorem State.reportTaken_shows {rest : List Msg} (s : State) (t : Nat) (hx : s.line.rx = .applied i :: rest) :
    (s.at' t).sameBut ((s.at' t).reportTaken i) [.line] ∧ ((s.at' t).reportTaken i).line = { s.line with rx := rest } ∧
    ((s.at' t).reportTaken i).stage = s.stage ∧ ((s.at' t).reportTaken i).stgState = s.stgState := by
  have hf : (s.at' t).sameBut ((s.at' t).reportTaken i) [.line] := (s.at' t).sameBut_mix ((s.at' t).reportTaken i) [.line]
  have hrx : (s.at' t).line.rx.erase (.applied i) = rest := by rw [State.at'_line, hx, List.erase_cons_head]
  have hreg : ((s.at' t).reportTaken i).regs = s.regs := Eq.trans (hf.2 .regs (by decide)) (s.at'_regs t)
  refine ⟨hf, ?_, Eq.trans (hf.2 .stage (by decide)) (s.at'_stage t), State.fld_congr hreg _ _ _⟩
  rw [State.reportTaken, hrx, State.at'_line]

theorem exec_ronyrApplyReport {rest : List Msg} (hr : s.running = true) (hx : s.line.rx = .applied i :: rest) :
    exec (.ronyrApplyReport t) s = match s.stage.pend with
      | some p => if s.stgState = 2 ∧ p.mode = 2 ∧ p.armedAt ≤ i then done (((s.at' t).reportTaken i).castNow p i)
          else done ((s.at' t).reportTaken i)
      | none => done ((s.at' t).reportTaken i) := by
  have hexec : exec (.ronyrApplyReport t) s = match (if (s.at' t).running then (s.at' t).line.rx.find? Msg.isApplied else none) with
      | some (.applied i) => (match ((s.at' t).reportTaken i).stage.pend with
        | some p => if ((s.at' t).reportTaken i).stgState = 2 ∧ p.mode = 2 ∧ p.armedAt ≤ i
            then done (((s.at' t).reportTaken i).castNow p i) else done ((s.at' t).reportTaken i)
        | none => done ((s.at' t).reportTaken i))
      | _ => done (s.at' t) := rfl
  obtain ⟨-, -, hg, hst⟩ := s.reportTaken_shows t hx
  have hfind : (s.at' t).line.rx.find? Msg.isApplied = some (.applied i) := by
    rw [State.at'_line, hx]
    rfl
  rw [hexec, State.running_at', if_pos hr, hfind]
  dsimp only
  rw [hg, hst]

/-- R393: with no cast pending a report is taken in, and that is all. -/
theorem ronyrApplyReport_taken {rest : List Msg} (hr : s.running = true) (hp : s.stage.pend = none)
    (hx : s.line.rx = .applied i :: rest) : s.gives (.ronyrApplyReport t) [.line] fun s' => s'.line = { s.line with rx := rest } := by
  have hexec := exec_ronyrApplyReport (t := t) hr hx
  rw [hp] at hexec
  obtain ⟨hf, hl, -, -⟩ := s.reportTaken_shows t hx
  exact State.gives_of_done t hexec hf hl

/-- R100, R101, R393: at its instant the pending cast takes effect. -/
theorem cast_takesEffect (hr : s.running = true) (hp : s.stage.pend = some p) (h2 : s.stgState = 2)
    (h : c = .castTimeReached t ∧ p.mode = 1 ∧ p.time ≤ (s.at' t).tim.ns ∧ i = p.time ∨
      c = .castCountCrossing t ∧ p.mode = 2 ∧ 0 ≤ dist (decide (p.dir = 1)) p.count (s.mirror p.chan) ∧ s.crossing = some i ∨
      c = .ronyrApplyReport t ∧ p.mode = 2 ∧ p.armedAt ≤ i ∧ ∃ rest, s.line.rx = .applied i :: rest) :
    ∃ w : State, exec c s = done (w.castNow p i) ∧ (s.at' t).sameBut w [.line] := by
  obtain ⟨rfl, hm, ht, rfl⟩ | ⟨rfl, hm, hd, hx⟩ | ⟨rfl, hm, ha, rest, hx⟩ := h
  · exact ⟨s.at' t, by rw [exec_castTimeReached hp, if_pos ⟨hr, h2, hm, ht⟩], State.sameBut_refl _ _⟩
  · exact ⟨s.at' t, by rw [exec_castCountCrossing hp, if_pos ⟨hr, h2, hm, hd⟩, hx, Option.getD_some], State.sameBut_refl _ _⟩
  · refine ⟨(s.at' t).reportTaken i, ?_, (s.reportTaken_shows t hx).1⟩
    rw [exec_ronyrApplyReport hr hx, hp]
    dsimp only
    rw [if_pos ⟨h2, hm, ha⟩]

/-! ### Its record is completed -/

/-- A sealed record is complete: its trailer is of the record itself (R110). -/
theorem RetRecord.complete_seal (r : RetRecord) : r.seal.complete = true := by
  have hform : r.seal.complete = (decide (r.seq = r.seq) && decide (r.digest.toNat = r.digest.toNat) &&
      decide ((ikSign r.digest).toNat = (ikSign r.digest).toNat)) := rfl
  simp [hform]

/-- The oldest record that was being written, `r`, stands in the ring. -/
def State.recordKept (s : State) (r : RetRecord) (rest : List RetRecord) : State :=
  { s with stage := { s.stage with writing := rest, records := keepLast (s.stage.records ++ [r.seal]) 64 } }

/-- R110: SC writes the trailer of the oldest record, and the generation retained is its own. -/
theorem retainedRecordComplete_keeps {r : RetRecord} {rest : List RetRecord} (hr : s.running = true)
    (hw : s.stage.writing = r :: rest) (hu : s.scUp = true) : s.gives (.retainedRecordComplete t) [.regs, .stage] fun s' =>
      s.regsBut s' [R.STG_GEN_RETAINED] ∧ s'.rd R.STG_GEN_RETAINED = r.seq % 2 ^ 32 ∧ s'.stage =
        { s.stage with writing := rest, records := keepLast (s.stage.records ++ [r.seal]) 64 } ∧ r.seal.complete = true := by
  have hexec : exec (.retainedRecordComplete t) s = match (s.at' t).stage.writing with
      | [] => done (s.at' t)
      | r :: rest => if (s.at' t).running = true ∧ (s.at' t).scUp = true
          then done (((s.at' t).recordKept r rest).wr R.STG_GEN_RETAINED r.seq) else done (s.at' t) := rfl
  rw [State.at'_stage, hw] at hexec
  dsimp only at hexec
  rw [State.running_at', State.scUp_at', if_pos ⟨hr, hu⟩] at hexec
  have hf : (s.at' t).sameBut ((s.at' t).recordKept r rest) [.stage] := State.sameBut_stage _ _
  have hb : s.regsBut ((s.at' t).recordKept r rest) [R.STG_GEN_RETAINED] := State.regsBut_congr (s.at'_regs t) _
  have hg : ((s.at' t).recordKept r rest).stage =
      { s.stage with writing := rest, records := keepLast (s.stage.records ++ [r.seal]) 64 } := by
    rw [State.recordKept, State.at'_stage]
  generalize (s.at' t).recordKept r rest = w at *
  refine State.gives_of_done t hexec ((State.sameBut_wr (by decide)).mpr (hf.mono (by decide)))
    ⟨(State.regsBut_wr hb (by simp)).settle, ?_, ?_, r.complete_seal⟩
  · rw [State.rd_settle, State.rd_wr_same]
  · rw [State.settle_stage, State.wr_stage, hg]

/-! ### The claim -/

/-- Settles O42, clause by clause. -/
theorem casts : Obligations.Casts := by
  unfold Obligations.Casts
  refine ⟨fun s p gen instant restore a q hq hw => ?_, fun s t hr => ⟨fun c p i hp h2 hset hc hs h => ?_,
    fun p => castTimeReached_waits, fun p => castCountCrossing_waits, fun i rest => ronyrApplyReport_taken hr,
    fun r rest hw hu => retainedRecordComplete_keeps hr hw hu⟩⟩
  · rw [s.rd_castRegs hq hw]
    cases KMap.find p.set a <;> rfl
  · obtain ⟨w, hexec, hw⟩ := cast_takesEffect hr hp h2 h
    exact State.gives_castNow hexec hw hset hc hs

end Sys2Proof.Machine
end
